-- ==== Sys2Proof/Word.lean ====
section
/-!
DEFINITION. The word types of the device: what software sees as a register word and as a byte of memory (R3, R11).
-/

namespace Sys2Proof

/-- One 32-bit register word (R11). -/
abbrev Word := BitVec 32

/-- One byte of memory (R23). -/
abbrev Byte := BitVec 8

end Sys2Proof
end

