-- ==== Sys2Proof/Syntax.lean ====
section
/-!
DEFINITION. The commands of the block: one constructor per row of spec/opcode_table.json, with the row's operands.
Every command carries first `t`, the TB count in sub-ticks at which it happens (R3, R16); what the outside world supplies
(an analog sample, a frame, a measurement, a read-back) is an operand too.
-/

namespace Sys2Proof

/-- A Sync or Follow_Up as received (R232): domain, sender's port identity, sequence number, two-step flag, timestamp
seconds and nanoseconds, correctionField, the raw receive stamp in TB sub-ticks, and logMessageInterval. -/
structure PtpSync where
  dom : Nat
  ident : Nat
  seq : Nat
  two : Bool
  sec : Nat
  ns : Nat
  cf : Int
  rx : Int
  log : Int
  deriving DecidableEq, Repr, Inhabited

/-- An Announce as received (R231): domain, sender's port identity, the grandmaster's dataset in the order of comparison
(priority1, class, accuracy, variance, priority2, identity), stepsRemoved, UTC offset and flags, logMessageInterval, and
the IEEE_C37_238 TLV's totalTimeInaccuracy when the TLV is present. -/
structure PtpAnnounce where
  dom : Nat
  ident : Nat
  p1 : Nat
  cls : Nat
  acc : Nat
  var : Nat
  p2 : Nat
  gm : Nat
  steps : Nat
  utc : Int
  utcValid : Bool
  li61 : Bool
  li59 : Bool
  log : Int
  tti : Option Nat
  deriving DecidableEq, Repr, Inhabited

/-- What a latch fixes for a run (R17, R82, R109): each source of LOAD kinds 0 and 1 (256 × kind + index) with its word
and 64-bit stamp, and each tracker's angle, frequency and VALID. -/
structure Fixed where
  words : List (Nat × Int × Nat) := []
  trk : List (Nat × Nat × Bool) := []
  deriving DecidableEq, Repr, Inhabited

/-- A tick (R81–R86): its stamp, when it arrives, how many merged into it beyond the first, whether it is late, whether
it waited for a move (R98), and what the latch fixed for it. -/
structure Tick where
  stamp : Nat
  due : Nat
  merged : Nat := 0
  late : Bool := false
  waited : Bool := false
  fix : Fixed := {}
  deriving DecidableEq, Repr, Inhabited

/-- A journaled write or filter write held until its apply instant (R249). -/
inductive Held where
  | write (at_ addr value : Nat) (who : Nat)
  | filter (at_ f slot stamp : Nat) (vals : List Nat)
  deriving DecidableEq, Repr

/-- What a HEALTH frame carries (R242): state, the ROLE strap, journal source or not, the carry mask, the health word,
the rate in force, whether its domain is LOCKED, the digests of its sheets, the TB stamp of its own K28.5 and of the last
HEALTH frame it received, as (that frame's K28.5 at its sender, its arrival); and what else the partner learns: the units
whose engines run (R254, R264), the handover instant with its reason (R265), a revert request (R266), when each group was
muted (R259), and its SCR_SYNC_MASK (R247). -/
structure Health where
  state : Nat
  role : Nat
  jsrc : Bool
  carry : Nat
  fault : Bool
  sampling : Nat
  rate : Int
  locked : Bool
  digests : List Nat
  runs : Nat
  sent : Nat
  heard : Option (Nat × Nat)
  hand : Option (Nat × Nat)
  revert : Bool
  mutes : List (Option Nat)
  mask : Nat
  deriving DecidableEq, Repr, Inhabited

/-- A block of pair state that a STATE frame transfers (R262, R263; Table 13-8): bytes of memory, an engine's tick latch
items, a group's with its loads on their way and its lanes' counters, a held record, the phase of the screen chains, or the
end of an engine's round or of the bulk with the count of the items before it; and towards the source the request of a
transfer or of another phase reset, and the CRC of a block. -/
inductive JoinItem where
  | memory (addr : Nat) (bytes : List Byte)
  | engine (n : Nat) (div prev runNo : Nat) (queue : List (Nat × Nat × Nat)) (coefAt recipeOk : Option Nat)
      (joined : Bool) (wait : List Tick) (pend : Option Tick) (rstore cbank swap : Nat)
  | period (g : Nat) (period shadow : Nat) (loads : List (Nat × Nat × List (Nat × Nat))) (pcount : Nat) (anchor : Int)
  | duty (ch : Nat) (duty shadow : Nat)
  | seq (l : Nat) (counters : Nat)
  | pairCounter (v : Nat)
  | filterCount (f : Nat) (v : Nat)
  | phase (f0 : Nat)
  | final (n : Nat) (x count : Nat)
  | bulk (count : Nat)
  | held (h : Held)
  | ask (full : Bool) (units : List Nat)
  | again
  | crc (addr len crc : Nat)
  deriving DecidableEq, Repr

/-- An access to a bank (R299–R303): the requester, the byte address, the size in bytes, whether it writes, whether it is
atomic, and the data written. -/
structure Access where
  who : Nat
  addr : Nat
  size : Nat
  write : Bool
  atomic : Bool
  value : Nat
  deriving DecidableEq, Repr, Inhabited

/-- A row of 8 bytes that a read finds in error (R303, R77): an address in it, and whether two of its bits are wrong or one.
-/
structure RowErr where
  addr : Nat
  two : Bool
  deriving DecidableEq, Repr, Inhabited

/-- What a start step found (Table 17-6): the identity and the revoked keys in the fuses (step 1); failing segments as
(bank, segment), banks 0–95 BKn and 96–111 XBx (step 3); an ECC failure in the slots (step 4); the image that came from the
xSPI flash or over port S (step 5); per slice, nine to a group, the four measurements of its calibration (step 6); and
whether a stored parameter set reads back (step 7). -/
structure StepFound where
  uid : Nat := 0
  keysMould : Nat := 0
  keysFw : Nat := 0
  fails : List (Nat × Nat) := []
  ecc : Bool := false
  img : List Byte := []
  cal : List (Int × Int × Int × Int) := []
  psOk : Bool := true
  deriving DecidableEq, Repr, Inhabited

/-- The commands. Each constructor's comment gives its row's rule. -/
inductive Instr where
  /-- REGISTER_WRITE, R7. -/
  | registerWrite (t : Nat) (who : Nat) (addr : Nat) (size : Nat) (value : Nat)
  /-- LOW_WORD_READ_CAPTURE, R12. -/
  | lowWordReadCapture (t : Nat) (who : Nat) (addr : Nat) (size : Nat)
  /-- MLD_PROGRAM, R39. -/
  | mldProgram (t : Nat) (slot : Nat)
  /-- MLD_CHECK, R36. -/
  | mldCheck (t : Nat) (slot : Nat)
  /-- MLD_RELOAD, R40. -/
  | mldReload (t : Nat) (slot : Nat) (sheet : Nat)
  /-- MLD_WITHDRAW, R39. -/
  | mldWithdraw (t : Nat) (slot : Nat)
  /-- MLD_START_LOAD, R35. -/
  | mldStartLoad (t : Nat) (slot : Nat)
  /-- MLD_COMMAND_END, R39. -/
  | mldCommandEnd (t : Nat) (readbackOk : Bool) (psOk : Bool)
  /-- SHEET_QUIESCE, R41. -/
  | sheetQuiesce (t : Nat) (n : Nat)
  /-- SHEET_RELEASE, R80. -/
  | sheetRelease (t : Nat) (n : Nat)
  /-- SHEET_QUIESCED, R41. -/
  | sheetQuiesced (t : Nat) (n : Nat)
  /-- QUIESCE_READBACK_TIMEOUT, R41. -/
  | quiesceReadbackTimeout (t : Nat) (n : Nat)
  /-- ADC_FRAME, R45. -/
  | adcFrame (t : Nat)
  /-- MAIN_PATH_WORD, R48. -/
  | mainPathWord (t : Nat) (n : Nat) (codes : List Nat) (residue : Nat)
  /-- CAL_STEP, R49. -/
  | calStep (t : Nat) (n : Nat) (off : Int) (gain : Int) (skew : Int) (bw : Int)
  /-- CAL_HANDOVER, R50. -/
  | calHandover (t : Nat) (n : Nat)
  /-- CAL_STARVED_TIMEOUT, R54. -/
  | calStarvedTimeout (t : Nat) (n : Nat)
  /-- CALEN_CHANGE, R49. -/
  | calenChange (t : Nat) (n : Nat) (on : Bool)
  /-- LFSR_WRITE, R47. -/
  | lfsrWrite (t : Nat) (n : Nat) (v : Nat)
  /-- PRESENTATION_WRITE, R61. -/
  | presentationWrite (t : Nat) (n : Nat) (fmt : Bool) (v : Nat)
  /-- SNAPSHOT_TRIGGER, R53. -/
  | snapshotTrigger (t : Nat) (n : Nat)
  /-- SNAPSHOT_DONE, R52. -/
  | snapshotDone (t : Nat) (n : Nat) (code : Nat)
  /-- SNAP_DATA_READ, R55. -/
  | snapDataRead (t : Nat) (who : Nat) (n : Nat) (slot : Nat)
  /-- TAP_VAL_READ, R75. -/
  | tapValRead (t : Nat) (who : Nat) (tap : Nat)
  /-- TEST_START, R58. -/
  | testStart (t : Nat) (n : Nat)
  /-- TEST_ABORT, R57. -/
  | testAbort (t : Nat) (n : Nat)
  /-- TEST_SETTLE_END, R57. -/
  | testSettleEnd (t : Nat) (n : Nat)
  /-- TEST_MEAN_END, R57. -/
  | testMeanEnd (t : Nat) (n : Nat)
  /-- WATCH_REQUEST, R59. -/
  | watchRequest (t : Nat) (n : Nat)
  /-- WATCH_ENTER, R59. -/
  | watchEnter (t : Nat) (n : Nat)
  /-- WATCH_EXIT_REQUEST, R59. -/
  | watchExitRequest (t : Nat) (n : Nat)
  /-- WATCH_EXIT, R59. -/
  | watchExit (t : Nat) (n : Nat)
  /-- SYNC_PIN_EDGE, R68. -/
  | syncPinEdge (t : Nat)
  /-- SYNC_RESET, R68. -/
  | syncReset (t : Nat)
  /-- PHASE_RESET, R68. -/
  | phaseReset (t : Nat)
  /-- SYNC_OUTPUT_EDGE, R69. -/
  | syncOutputEdge (t : Nat)
  /-- FAST_WINDOW_ENABLE, R73. -/
  | fastWindowEnable (t : Nat) (i : Nat) (on : Bool)
  /-- TICK_ARRIVAL, R82. -/
  | tickArrival (t : Nat) (n : Nat) (stamp : Nat)
  /-- RUN_START, R83. -/
  | runStart (t : Nat) (n : Nat) (torn : List Nat) (errs : List RowErr)
  /-- OVERRUN_LIMIT, R87. -/
  | overrunLimit (t : Nat) (n : Nat)
  /-- RUN_END, R85. -/
  | runEnd (t : Nat) (n : Nat) (ce : Nat)
  /-- NOP, R101. -/
  | nop (t : Nat) (n : Nat)
  /-- LOAD, R109. -/
  | load (t : Nat) (n : Nat)
  /-- CLARKE, R110. -/
  | clarke (t : Nat) (n : Nat)
  /-- ICLARKE, R110. -/
  | iclarke (t : Nat) (n : Nat)
  /-- PARK, R111. -/
  | park (t : Nat) (n : Nat)
  /-- IPARK, R111. -/
  | ipark (t : Nat) (n : Nat)
  /-- ANGLE, R111. -/
  | angle (t : Nat) (n : Nat)
  /-- PI, R112. -/
  | pi (t : Nat) (n : Nat)
  /-- RES, R113. -/
  | res (t : Nat) (n : Nat)
  /-- MATVEC, R114. -/
  | matvec (t : Nat) (n : Nat)
  /-- OBS, R115. -/
  | obs (t : Nat) (n : Nat)
  /-- SWING, R116. -/
  | swing (t : Nat) (n : Nat)
  /-- DROOP, R117. -/
  | droop (t : Nat) (n : Nat)
  /-- VIMP, R117. -/
  | vimp (t : Nat) (n : Nat)
  /-- ILIM, R118. -/
  | ilim (t : Nat) (n : Nat)
  /-- FRT, R119. -/
  | frt (t : Nat) (n : Nat)
  /-- RAMP, R120. -/
  | ramp (t : Nat) (n : Nat)
  /-- LPF, R120. -/
  | lpf (t : Nat) (n : Nat)
  /-- LIMIT, R120. -/
  | limit (t : Nat) (n : Nat)
  /-- LUT, R120. -/
  | lut (t : Nat) (n : Nat)
  /-- POWER, R121. -/
  | power (t : Nat) (n : Nat)
  /-- RMS, R121. -/
  | rms (t : Nat) (n : Nat)
  /-- SVM3L, R122. -/
  | svm3l (t : Nat) (n : Nat)
  /-- SELECT, R123. -/
  | select (t : Nat) (n : Nat)
  /-- COMPARE, R123. -/
  | compare (t : Nat) (n : Nat)
  /-- GUARD, R123. -/
  | guard (t : Nat) (n : Nat)
  /-- SUM, R123. -/
  | sum (t : Nat) (n : Nat)
  /-- MUL, R123. -/
  | mul (t : Nat) (n : Nat)
  /-- EMIT, R124. -/
  | emit (t : Nat) (n : Nat)
  /-- MAILBOX_WRITE, R125. -/
  | mailboxWrite (t : Nat) (n : Nat)
  /-- MAILBOX_READ, R125. -/
  | mailboxRead (t : Nat) (n : Nat)
  /-- EVENT, R126. -/
  | event (t : Nat) (n : Nat)
  /-- TRACE, R126. -/
  | trace (t : Nat) (n : Nat)
  /-- ENGINE_ECC_FAULT, R97. -/
  | engineEccFault (t : Nat) (n : Nat)
  /-- RECIPE_CHECK_DONE, R80. -/
  | recipeCheckDone (t : Nat) (n : Nat)
  /-- COEF_SWAP_REQUEST, R88. -/
  | coefSwapRequest (t : Nat) (n : Nat)
  /-- RECIPE_SWAP_REQUEST, R88. -/
  | recipeSwapRequest (t : Nat) (n : Nat)
  /-- STAGE_WRITE, R92. -/
  | stageWrite (t : Nat) (n : Nat) (word : Nat)
  /-- CLR_CYCMAX, R100. -/
  | clrCycmax (t : Nat) (n : Nat)
  /-- TRC_TRIG, R96. -/
  | trcTrig (t : Nat) (n : Nat)
  /-- TRACE_ARM, R96. -/
  | traceArm (t : Nat) (n : Nat)
  /-- MOVE_REQUEST, R98. -/
  | moveRequest (t : Nat) (src : Nat)
  /-- MOVE_COPY_END, R98. -/
  | moveCopyEnd (t : Nat) (eccBad : Bool)
  /-- MOVE_DONE, R99. -/
  | moveDone (t : Nat)
  /-- PERIOD_START, R156. -/
  | periodStart (t : Nat) (g : Nat)
  /-- COMPARE_FIRE, R168. -/
  | compareFire (t : Nat) (g : Nat) (n : Nat)
  /-- GROUP_ENABLE, R156. -/
  | groupEnable (t : Nat) (g : Nat)
  /-- LOADALL_REQUEST, R162. -/
  | loadallRequest (t : Nat) (g : Nat)
  /-- GLOAD, R162. -/
  | gload (t : Nat) (mask : Nat)
  /-- SHADOW_WRITE, R165. -/
  | shadowWrite (t : Nat) (duty : Bool) (i : Nat) (v : Nat)
  /-- GROUP_LOAD, R163. -/
  | groupLoad (t : Nat) (g : Nat)
  /-- FLT_PIN_ASSERTED, R169. -/
  | fltPinAsserted (t : Nat) (k : Nat) (level : Bool) (since : Nat)
  /-- FMX_CLEAR, R173. -/
  | fmxClear (t : Nat) (g : Nat)
  /-- EDGE_SEND, R182. -/
  | edgeSend (t : Nat) (ch : Nat)
  /-- EXECUTED_LEVEL_CHANGE, R195. -/
  | executedLevelChange (t : Nat) (ch : Nat)
  /-- TIME_FRAME_SEND, R182. -/
  | timeFrameSend (t : Nat) (l : Nat)
  /-- STATUS_FRAME_RECEIVE, R188. -/
  | statusFrameReceive (t : Nat) (l : Nat) (bytes : List Byte)
  /-- STATUS_TIMEOUT, R188. -/
  | statusTimeout (t : Nat) (l : Nat) (lockLost : Bool)
  /-- QFULL_HOLD_END, R189. -/
  | qfullHoldEnd (t : Nat) (l : Nat)
  /-- DESAT_CLEAR, R192. -/
  | desatClear (t : Nat) (l : Nat) (mask : Nat)
  /-- DIAG_START, R197. -/
  | diagStart (t : Nat) (l : Nat) (mask : Nat) (dur : Nat)
  /-- DIAG_TIMEOUT, R197. -/
  | diagTimeout (t : Nat) (l : Nat)
  /-- TRAIN_START, R198. -/
  | trainStart (t : Nat) (l : Nat)
  /-- TRAIN_END, R198. -/
  | trainEnd (t : Nat) (l : Nat)
  /-- CONFIG_SEND, R199. -/
  | configSend (t : Nat) (l : Nat) (addr : Nat) (data : Nat)
  /-- CONFIG_TIMEOUT, R199. -/
  | configTimeout (t : Nat) (l : Nat)
  /-- LANE_DISABLE, R202. -/
  | laneDisable (t : Nat) (l : Nat)
  /-- PORT_LINK_CHANGE, R203. -/
  | portLinkChange (t : Nat) (p : Nat) (up : Bool) (an : Bool)
  /-- FORWARD_START, R206. -/
  | forwardStart (t : Nat) (p : Nat) (bytes : List Byte) (rx : Nat)
  /-- FRAME_RECEIVE, R205. -/
  | frameReceive (t : Nat) (p : Nat) (bytes : List Byte) (fcsOk : Bool) (sfd : Nat)
  /-- DD_ENTRY_EXPIRY, R213. -/
  | ddEntryExpiry (t : Nat)
  /-- TX_KICK, R216. -/
  | txKick (t : Nat) (h : Nat)
  /-- HOST_TX_DESCRIPTOR, R216. -/
  | hostTxDescriptor (t : Nat) (h : Nat) (errs : List RowErr)
  /-- EGRESS_TRANSMIT, R208. -/
  | egressTransmit (t : Nat) (p : Nat)
  /-- TRANSMIT_SLOT_FRAME, R218. -/
  | transmitSlotFrame (t : Nat) (n : Nat) (ecc : Nat)
  /-- SUPERVISION_FRAME, R214. -/
  | supervisionFrame (t : Nat)
  /-- BEACON_SEND, R219. -/
  | beaconSend (t : Nat)
  /-- COMMONS_AGING, R221. -/
  | commonsAging (t : Nat)
  /-- READ, R223. -/
  | read (t : Nat) (i : Nat)
  /-- PIN, R223. -/
  | pin (t : Nat) (i : Nat)
  /-- UNPIN, R223. -/
  | unpin (t : Nat) (i : Nat)
  /-- DELETE, R223. -/
  | delete (t : Nat) (i : Nat)
  /-- PRESET, R223. -/
  | preset (t : Nat)
  /-- SYNC_MESSAGE, R232. -/
  | syncMessage (t : Nat) (p : Nat) (m : PtpSync)
  /-- FOLLOW_UP, R232. -/
  | followUp (t : Nat) (p : Nat) (m : PtpSync)
  /-- ANNOUNCE, R231. -/
  | announce (t : Nat) (p : Nat) (m : PtpAnnounce)
  /-- PDELAY_REQ_SEND, R229. -/
  | pdelayReqSend (t : Nat) (p : Nat)
  /-- PDELAY_REQ, R229. -/
  | pdelayReq (t : Nat) (p : Nat) (ident : Nat) (seq : Nat) (dom : Nat) (cf : Int) (rx : Int)
  /-- PDELAY_RESP, R229. -/
  | pdelayResp (t : Nat) (p : Nat) (fu : Bool) (seq : Nat) (two : Bool) (stamp : Int) (cf : Int) (rx : Int)
  /-- PDELAY_TIMEOUT, R229. -/
  | pdelayTimeout (t : Nat) (p : Nat)
  /-- ANNOUNCE_TIMEOUT, R231. -/
  | announceTimeout (t : Nat) (d : Nat)
  /-- SYNC_TIMEOUT, R232. -/
  | syncTimeout (t : Nat) (d : Nat)
  /-- SERVO_HOLD, R232. -/
  | servoHold (t : Nat) (on : Bool)
  /-- DOMAIN_RETURN, R235. -/
  | domainReturn (t : Nat)
  /-- TT_FIRE, R237. -/
  | ttFire (t : Nat) (k : Nat)
  /-- TT_ENABLE, R238. -/
  | ttEnable (t : Nat) (k : Nat)
  /-- JOURNAL_RUN_RECORD, R249. -/
  | journalRunRecord (t : Nat) (ok : Bool) (lseq : Nat) (whole : Bool) (u : Nat) (num : Nat) (stamp : Nat) (merged : Nat) (fix : Fixed)
  /-- JOURNAL_WRITE_RECORD, R249. -/
  | journalWriteRecord (t : Nat) (ok : Bool) (lseq : Nat) (addr : Nat) (value : Nat) (issue : Nat)
  /-- JOURNAL_FILTER_RECORD, R249. -/
  | journalFilterRecord (t : Nat) (ok : Bool) (lseq : Nat) (f : Nat) (slot : Nat) (stamp : Nat) (vals : List Nat) (arrive : Nat)
  /-- JOURNAL_APPLY, R249. -/
  | journalApply (t : Nat)
  /-- CHECKPOINT, R253. -/
  | checkpoint (t : Nat) (ok : Bool) (lseq : Nat) (n : Nat) (num : Nat) (idx : Nat) (crc : Nat)
  /-- CHECKPOINT_TIMEOUT, R254. -/
  | checkpointTimeout (t : Nat) (n : Nat)
  /-- VERDICT, R256. -/
  | verdict (t : Nat) (ok : Bool) (lseq : Nat) (n : Nat) (loserIsB : Bool)
  /-- VERDICT_TIMEOUT, R255. -/
  | verdictTimeout (t : Nat)
  /-- HEALTH, R242. -/
  | health (t : Nat) (ok : Bool) (lseq : Nat) (h : Health) (rx : Nat)
  /-- HEALTH_SEND, R242. -/
  | healthSend (t : Nat)
  /-- STATE_FRAME, R262. -/
  | stateFrame (t : Nat) (ok : Bool) (lseq : Nat) (whole : Bool) (item : JoinItem)
  /-- NAK, R242. -/
  | nak (t : Nat) (ok : Bool) (lseq : Nat) (missing : Nat)
  /-- TWIN_LANE_DOWN, R243. -/
  | twinLaneDown (t : Nat) (l : Nat)
  /-- LINK_LOST, R261. -/
  | linkLost (t : Nat)
  /-- HANDOVER, R265. -/
  | handover (t : Nat)
  /-- JOIN, R262. -/
  | join (t : Nat)
  /-- LEAVE, R244. -/
  | leave (t : Nat)
  /-- AUTOJOIN_START, R244. -/
  | autojoinStart (t : Nat)
  /-- JOIN_WAIT_EXPIRY, R244. -/
  | joinWaitExpiry (t : Nat)
  /-- JOIN_TIMEOUT, R263. -/
  | joinTimeout (t : Nat)
  /-- HANDOVER_INSTANT, R265. -/
  | handoverInstant (t : Nat)
  /-- HANDOVER_END, R265. -/
  | handoverEnd (t : Nat)
  /-- REVERT_HOLDOFF_EXPIRY, R266. -/
  | revertHoldoffExpiry (t : Nat)
  /-- TB_LIMIT_EXPIRY, R246. -/
  | tbLimitExpiry (t : Nat)
  /-- STEER_RETURN, R246. -/
  | steerReturn (t : Nat)
  /-- TIME_HANDOVER, R246. -/
  | timeHandover (t : Nat)
  /-- SIN_SAMPLE, R277. -/
  | sinSample (t : Nat) (raw : Nat)
  /-- INPUT_TEST_PULSE, R277. -/
  | inputTestPulse (t : Nat) (b : Bool)
  /-- EVALUATION_STEP, R281. -/
  | evaluationStep (t : Nat) (srst : Bool)
  /-- DISCREPANCY_TIMEOUT, R279. -/
  | discrepancyTimeout (t : Nat) (x : Nat)
  /-- SAFE_OUTPUT_OFF, R281. -/
  | safeOutputOff (t : Nat) (k : Nat)
  /-- READBACK_SAMPLE, R283. -/
  | readbackSample (t : Nat) (sob : Nat)
  /-- OUTPUT_TEST_PULSE, R284. -/
  | outputTestPulse (t : Nat) (k : Nat)
  /-- RESET_ACCEPT, R287. -/
  | resetAccept (t : Nat)
  /-- SRST_STUCK, R287. -/
  | srstStuck (t : Nat)
  /-- SEAL_SAMPLE, R272. -/
  | sealSample (t : Nat) (v : Nat)
  /-- INTERNAL_FAULT, R270. -/
  | internalFault (t : Nat) (b : Nat)
  /-- ISLAND_START_END, R271. -/
  | islandStartEnd (t : Nat) (image : Bool) (ver : Nat) (srst : Bool)
  /-- CHECK, R275. -/
  | check (t : Nat)
  /-- STORE, R275. -/
  | store (t : Nat)
  /-- PS_OPERATION_END, R275. -/
  | psOperationEnd (t : Nat) (writeOk : Bool)
  /-- SAFETY_STOP_REQUEST, R281. -/
  | safetyStopRequest (t : Nat) (mask : Nat)
  /-- NATIVE_SAFETY_FRAME, R290. -/
  | nativeSafetyFrame (t : Nat)
  /-- NAY2400_SAFETY_FRAME, R292. -/
  | nay2400SafetyFrame (t : Nat)
  /-- SAFETY_COPY_TIMEOUT, R290. -/
  | safetyCopyTimeout (t : Nat) (c : Nat)
  /-- CONNECTION_WATCHDOG_EXPIRY, R293. -/
  | connectionWatchdogExpiry (t : Nat) (c : Nat)
  /-- SAFETY_FRAME_SEND, R289. -/
  | safetyFrameSend (t : Nat) (c : Nat)
  /-- BANK_ACCESS, R299. -/
  | bankAccess (t : Nat) (a : Access) (ecc : Nat) (rest : List Access)
  /-- RELEASE, R297. -/
  | release (t : Nat) (b : Nat) (who : Nat)
  /-- RELEASE_DONE, R297. -/
  | releaseDone (t : Nat)
  /-- CLAIM, R297. -/
  | claim (t : Nat) (b : Nat) (who : Nat)
  /-- GRANT, R297. -/
  | grant (t : Nat) (b : Nat) (who : Nat)
  /-- REVOKE, R297. -/
  | revoke (t : Nat) (b : Nat) (who : Nat)
  /-- REPAIR, R308. -/
  | repair (t : Nat) (b : Nat) (seg : Nat)
  /-- SWEEPER_STEP, R304. -/
  | sweeperStep (t : Nat) (errs : List RowErr) (fail : Bool)
  /-- START, R312. -/
  | start (t : Nat) (c : Nat) (ue : Option Nat) (ce : Option Nat)
  /-- RESUME, R312. -/
  | resume (t : Nat) (c : Nat) (ue : Option Nat) (ce : Option Nat)
  /-- STOP, R312. -/
  | stop (t : Nat) (c : Nat)
  /-- GLEAN_BURST, R310. -/
  | gleanBurst (t : Nat) (ue : Option Nat) (ce : Option Nat) (lost : Option Nat)
  /-- REFERENCE_ABSENT, R319. -/
  | referenceAbsent (t : Nat) (r : Nat)
  /-- REFERENCE_PRESENT, R319. -/
  | referencePresent (t : Nat) (r : Nat)
  /-- LOSS_OF_LOCK, R327. -/
  | lossOfLock (t : Nat) (c : Nat) (phase : Int)
  /-- DLL_CHANGEOVER, R327. -/
  | dllChangeover (t : Nat)
  /-- DLL_REALIGNED, R324. -/
  | dllRealigned (t : Nat)
  /-- PLL_LOCKED, R325. -/
  | pllLocked (t : Nat) (ok : Bool) (band : Nat) (flimit : Bool) (phase : Int)
  /-- PLL_CHANGEOVER, R325. -/
  | pllChangeover (t : Nat)
  /-- SMP_RESTART, R329. -/
  | smpRestart (t : Nat)
  /-- OUTPUT_CONFIG_WRITE, R323. -/
  | outputConfigWrite (t : Nat) (n : Nat) (v : Nat)
  /-- MPG_RISE, R339. -/
  | mpgRise (t : Nat) (crcOk : Bool) (offsec : Nat) (rails : Nat) (xtal : Bool)
  /-- MPG_FALL, R334. -/
  | mpgFall (t : Nat) (rails : Nat)
  /-- PORST_N_ASSERT, R334. -/
  | porstNAssert (t : Nat)
  /-- PORST_N_RELEASE, R340. -/
  | porstNRelease (t : Nat) (held : Nat) (testMode : Bool)
  /-- WRST_N_ASSERT, R341. -/
  | wrstNAssert (t : Nat)
  /-- WRST_N_RELEASE, R340. -/
  | wrstNRelease (t : Nat)
  /-- POWER_FAIL_WARNING, R335. -/
  | powerFailWarning (t : Nat) (ok : Bool)
  /-- POWER_FAIL_CLEAR, R335. -/
  | powerFailClear (t : Nat) (ok : Bool)
  /-- OPSEC_SECOND, R338. -/
  | opsecSecond (t : Nat) (ok : Bool)
  /-- VKA_LOW, R336. -/
  | vkaLow (t : Nat)
  /-- COLD_START, R344. -/
  | coldStart (t : Nat) (straps : Nat)
  /-- WARM_START, R346. -/
  | warmStart (t : Nat)
  /-- READY_POINT, R345. -/
  | readyPoint (t : Nat) (ok : Bool)
  /-- START_TIMEOUT, R345. -/
  | startTimeout (t : Nat)
  /-- WARM, R350. -/
  | warm (t : Nat) (key : Nat)
  /-- COLD, R350. -/
  | cold (t : Nat) (key : Nat)
  /-- BOOT_OK, R347. -/
  | bootOk (t : Nat)
  /-- GOLDEN_CLR, R349. -/
  | goldenClr (t : Nat) (key : Nat)
  /-- KICK, R351. -/
  | kick (t : Nat)
  /-- CONFIRM_EXPIRY, R347. -/
  | confirmExpiry (t : Nat)
  /-- WATCHDOG_EXPIRY, R351. -/
  | watchdogExpiry (t : Nat)
  /-- LEDGER_POST, R357. -/
  | ledgerPost (t : Nat) (ring : Nat) (typ : Nat) (sev : Nat) (block : Nat) (unit : Nat) (payload : List Byte)
  /-- GO, R357. -/
  | go (t : Nat)
  /-- RECORD_PROGRAM_DONE, R359. -/
  | recordProgramDone (t : Nat) (ok : Bool)
  /-- CURSOR_LOAD, R361. -/
  | cursorLoad (t : Nat) (p : Nat)
  /-- NEXT, R361. -/
  | next (t : Nat) (p : Nat)
  /-- NEWEST, R361. -/
  | newest (t : Nat) (p : Nat)
  /-- OLDEST, R361. -/
  | oldest (t : Nat) (p : Nat)
  /-- CLR_OVR, R361. -/
  | clrOvr (t : Nat) (p : Nat)
  /-- CURSOR_COPY_DONE, R362. -/
  | cursorCopyDone (t : Nat) (p : Nat)
  /-- RINGS, R363. -/
  | rings (t : Nat) (mask : Nat)
  /-- ERASE, R363. -/
  | erase (t : Nat)
  /-- ERASE_DONE, R363. -/
  | eraseDone (t : Nat) (ok : Bool)
  /-- ENGINE_TEST_PIECE, R367. -/
  | engineTestPiece (t : Nat) (n : Nat) (same : Bool)
  /-- ENGINE_TEST_STARVED, R367. -/
  | engineTestStarved (t : Nat) (n : Nat)
  /-- TEMPERATURE_SAMPLE, R373. -/
  | temperatureSample (t : Nat) (temp : Int)
  /-- THERMAL_EXPIRY, R368. -/
  | thermalExpiry (t : Nat)
  /-- TWIN_LINK_REASON_EXPIRY, R368. -/
  | twinLinkReasonExpiry (t : Nat)
  /-- REQ, R368. -/
  | req (t : Nat)
  /-- PROGRAM, R371. -/
  | program (t : Nat) (slot : Nat)
  /-- FW_CHECK, R371. -/
  | fwCheck (t : Nat) (slot : Nat)
  /-- PROGRAM_ISLAND, R371. -/
  | programIsland (t : Nat) (slot : Nat)
  /-- FW_COMMAND_END, R371. -/
  | fwCommandEnd (t : Nat) (same : Bool) (isle : Nat)
  /-- TRACKER_PAIR, R145. -/
  | trackerPair (t : Nat) (p : Nat)
  /-- TRACKER_TIMEOUT, R148. -/
  | trackerTimeout (t : Nat) (p : Nat)
  /-- AMP_FILTER_EXPIRY, R150. -/
  | ampFilterExpiry (t : Nat) (p : Nat)
  /-- QUADRATURE_STEP, R152. -/
  | quadratureStep (t : Nat)
  /-- GPIO_EDGE, R381. -/
  | gpioEdge (t : Nat) (n : Nat) (level : Bool)
  /-- UART_TX_WRITE, R385. -/
  | uartTxWrite (t : Nat) (b : Nat)
  /-- UART_BYTE_SENT, R385. -/
  | uartByteSent (t : Nat)
  /-- UART_RECEIVE, R385. -/
  | uartReceive (t : Nat) (b : Nat) (stopOk : Bool)
  /-- UART_RX_READ, R385. -/
  | uartRxRead (t : Nat)
  /-- IRQ_CLAIM, R410. -/
  | irqClaim (t : Nat) (k : Nat)
  /-- IRQ_COMPLETE, R410. -/
  | irqComplete (t : Nat) (k : Nat) (num : Nat)
  /-- TWIN_LANE_UP, R243. -/
  | twinLaneUp (t : Nat) (l : Nat)
  /-- SDCLK_PRESENCE_CHANGE, R328. -/
  | sdclkPresenceChange (t : Nat) (on : Bool)
  /-- VKA_RECOVERY, R336. -/
  | vkaRecovery (t : Nat)
  /-- VDD_W_RETURN, R269. -/
  | vddWReturn (t : Nat)
  /-- TP_OVERCURRENT, R277. -/
  | tpOvercurrent (t : Nat) (b : Bool) (on : Bool)
  /-- OUTPUT_TEST_PULSE_END, R284. -/
  | outputTestPulseEnd (t : Nat) (k : Nat)
  /-- START_STEP_END, R344. -/
  | startStepEnd (t : Nat) (step : Nat) (ok : Bool) (found : StepFound)
  /-- JOIN_TIME_EXPIRY, R262. -/
  | joinTimeExpiry (t : Nat)
  /-- CMN_COMMAND_END, R223. -/
  | cmnCommandEnd (t : Nat)
  /-- JTAG_INSTRUCTION, R384. -/
  | jtagInstruction (t : Nat) (ir : Nat) (trst : Bool)
  deriving DecidableEq, Repr

end Sys2Proof
end

