-- ==== Sys2Proof/Decode.lean ====
section
/-!
DEFINITION. The command a word spells by the table's bits. The rows of spec/opcode_table.json give no bits: the device
takes its commands as events and register accesses, and no word spells one.
-/

namespace Sys2Proof

/-- The command an `nbits`-bit word `w` spells: none, as no row of the table gives bits. -/
def decodeTableWord (_nbits _w : Nat) : Option Instr := none

end Sys2Proof
end

