-- ==== Sys2Proof/Machine/Sparse.lean ====
section
/-!
DEFINITION. Sparse maps as lists of (address, value) with strictly rising addresses, listing no entry that equals what
an unlisted address reads as (`d`), so that equal maps are equal lists.
-/

namespace Sys2Proof.Machine

/-- The value at `a`; `d a` where `a` is not listed. -/
def sget {α : Type} (d : Nat → α) : List (Nat × α) → Nat → α
  | [], a => d a
  | (k, v) :: l, a => if k = a then v else sget d l a

/-- An entry put before the first one whose address is not lower. -/
def sins {α : Type} : List (Nat × α) → Nat → α → List (Nat × α)
  | [], a, x => [(a, x)]
  | (k, v) :: l, a, x => if a ≤ k then (a, x) :: (k, v) :: l else (k, v) :: sins l a x

/-- A write: the value an unlisted address reads as removes the entry. -/
def sset {α : Type} [DecidableEq α] (d : Nat → α) (l : List (Nat × α)) (a : Nat) (x : α) : List (Nat × α) :=
  if x = d a then l.filter fun e => e.1 ≠ a else sins (l.filter fun e => e.1 ≠ a) a x

/-- The map that reads as `new` at the addresses `p` holds of, and as `old` at the others. -/
def smix {α : Type} (p : Nat → Bool) (old new : List (Nat × α)) : List (Nat × α) :=
  (old.filter fun e => !p e.1).foldr (fun e l => sins l e.1 e.2) (new.filter fun e => p e.1)

/-- Strictly rising addresses. -/
def rising {α : Type} : List (Nat × α) → Bool
  | [] => true
  | [_] => true
  | (k, _) :: (k', v') :: l => k < k' && rising ((k', v') :: l)

/-- The canonical form: rising addresses, and no entry equal to what an unlisted address reads as. -/
def swf {α : Type} [DecidableEq α] (d : Nat → α) (l : List (Nat × α)) : Bool :=
  rising l && l.all fun e => e.2 ≠ d e.1

end Sys2Proof.Machine
end

