-- ==== Sys2Proof/Config.lean ====
section
/-!
DEFINITION. What the spec leaves open: the free values. Each is an opaque constant without a body, so no proof can
see what it is; a statement about one holds whatever it is. The first argument of a fresh value is the count of the
free values drawn before it (`State.drawn`), so that two draws need not agree.
-/

namespace Sys2Proof

/-- A byte the spec does not state: a record field left to the posting block (R355), the contents of a slot whose
programming failed (R364). Arguments: the draw count and the place of the byte. DESIGN CHOICE (log entry 8). -/
opaque Config.freeByte : Nat → Nat → Byte

/-- A word the spec does not state, by the draw count and a place. DESIGN CHOICE (log entry 8). -/
opaque Config.freeWord : Nat → Nat → Word

/-- The boot ROM's bytes by address; the spec gives their use (R343, R348) and not their contents.
DESIGN CHOICE (log entry 9). -/
opaque Config.bootRom : Nat → Byte

/-- Whether a public key of the fuses verifies a signature is settled by the key's bytes, which the spec leaves to
manufacture: key slot, coordinate (0 for x, 1 for y). DESIGN CHOICE (log entry 9). -/
opaque Config.fuseKey : Nat → Nat → Nat

/-- The firmware slot the fuses name as golden (R349): false A, true B. DESIGN CHOICE (log entry 9). -/
opaque Config.goldenSlot : Bool

/-- How long, in sub-ticks, a destination takes to take a frame out of a receive buffer (R209); the spec gives no time.
DESIGN CHOICE (log entry 53). -/
opaque Config.takeTime : Nat → Nat

end Sys2Proof
end

