-- ==== Sys2Proof/Machine/Bits.lean ====
section
/-!
DEFINITION. Bit fields, signed fields, byte order and checksums over natural numbers and byte lists.
Every quantity the device computes on is carried as a `Nat` (or `Int`) and narrowed explicitly where the
spec narrows it.
-/

namespace Sys2Proof.Machine

/-- A millisecond and a microsecond in sub-ticks (R3). -/
def msec : Nat := 16000000
def usec : Nat := 16000

/-- The field of `w` bits at bit `lsb` of `v`. -/
def bits (v lsb w : Nat) : Nat := (v >>> lsb) % 2 ^ w

/-- `v` with the field of `w` bits at bit `lsb` replaced by `x` modulo `2 ^ w`. -/
def setBits (v lsb w x : Nat) : Nat :=
  v - (bits v lsb w) <<< lsb + (x % 2 ^ w) <<< lsb

/-- Bit `i` of `v`. -/
def bit (v i : Nat) : Bool := v.testBit i

/-- `v` with bit `i` set to `b`. -/
def withBit (v i : Nat) (b : Bool) : Nat := setBits v i 1 (if b then 1 else 0)

/-- 1 for true, 0 for false. -/
def b2n (b : Bool) : Nat := if b then 1 else 0

/-- A `w`-bit pattern as a two's complement number. -/
def toS (w v : Nat) : Int :=
  let v := v % 2 ^ w
  if v < 2 ^ (w - 1) then (v : Int) else (v : Int) - (2 ^ w : Nat)

/-- The `w`-bit two's complement pattern of `i`, wrapped. -/
def ofS (w : Nat) (i : Int) : Nat := (i % ((2 ^ w : Nat) : Int)).toNat

/-- `i` limited to `[lo, hi]`. -/
def clampI (lo hi i : Int) : Int := if i < lo then lo else if hi < i then hi else i

/-- `v` limited to `[lo, hi]` ("values outside act as the nearest limit"). -/
def clampN (lo hi v : Nat) : Nat := if v < lo then lo else if hi < v then hi else v

/-- `i` saturated to `w` bits, signed. -/
def satS (w : Nat) (i : Int) : Int :=
  clampI (-(2 ^ (w - 1) : Nat)) ((2 ^ (w - 1) : Nat) - 1) i

/-- A counter of `w` bits that stops at its maximum. -/
def satInc (w v : Nat) (n : Nat := 1) : Nat := min (v + n) (2 ^ w - 1)

/-- `n / d` rounded to nearest, ties to even (R6). -/
def divRne (n : Int) (d : Nat) : Int :=
  let q := n / (d : Int)
  let r := n % (d : Int)
  if 2 * r < d then q else if (d : Int) < 2 * r then q + 1 else if q % 2 = 0 then q else q + 1

/-- The number of ones among the low `w` bits of `v`. -/
def popCount (w v : Nat) : Nat := ((List.range w).filter (fun i => v.testBit i)).length

/-- Little-endian bytes of `v`. -/
def leBytes (n v : Nat) : List Byte :=
  (List.range n).map fun i => BitVec.ofNat 8 (v >>> (8 * i))

/-- Big-endian bytes of `v`. -/
def beBytes (n v : Nat) : List Byte := (leBytes n v).reverse

/-- The number a little-endian byte list spells. -/
def ofLe (bs : List Byte) : Nat := bs.foldr (fun b acc => b.toNat + 256 * acc) 0

/-- The number a big-endian byte list spells. -/
def ofBe (bs : List Byte) : Nat := bs.foldl (fun acc b => 256 * acc + b.toNat) 0

/-- `n` bytes of `bs` from `i`, zeros past the end. -/
def slice (bs : List Byte) (i n : Nat) : List Byte :=
  let x := (bs.drop i).take n
  x ++ List.replicate (n - x.length) 0

/-- The little-endian field of `n` bytes at `i`. -/
def leAt (bs : List Byte) (i n : Nat) : Nat := ofLe (slice bs i n)

/-- The big-endian field of `n` bytes at `i`. -/
def beAt (bs : List Byte) (i n : Nat) : Nat := ofBe (slice bs i n)

/-- Eight steps of a bit-reflected CRC. -/
def crcStepR (poly : Nat) : Nat → Nat → Nat
  | 0, c => c
  | k + 1, c => crcStepR poly k (if c % 2 = 1 then (c >>> 1) ^^^ poly else c >>> 1)

/-- A bit-reflected CRC (`poly` already reflected). -/
def crcR (poly init xorOut : Nat) (bs : List Byte) : Nat :=
  (bs.foldl (fun c b => crcStepR poly 8 (c ^^^ b.toNat)) init) ^^^ xorOut

/-- Steps of a most-significant-bit-first CRC of width `w`. -/
def crcStepM (w poly : Nat) : Nat → Nat → Nat
  | 0, c => c
  | k + 1, c => crcStepM w poly k
      ((if c.testBit (w - 1) then ((c <<< 1) % 2 ^ w) ^^^ poly else (c <<< 1) % 2 ^ w))

/-- A most-significant-bit-first CRC of width `w`. -/
def crcM (w poly init xorOut : Nat) (bs : List Byte) : Nat :=
  (bs.foldl (fun c b => crcStepM w poly 8 (c ^^^ (b.toNat <<< (w - 8)))) init) ^^^ xorOut

/-- The CRC-32 of R28. -/
def crc32 (bs : List Byte) : Nat := crcR 0xEDB88320 0xFFFFFFFF 0xFFFFFFFF bs

/-- One unit of a list replaced by its image. -/
def upd {α : Type} (l : List α) (i : Nat) (f : α → α) : List α := l.modify i f

/-- Lexicographic order. -/
def lexLt : List Nat → List Nat → Bool
  | x :: xs, y :: ys => x < y || (x = y && lexLt xs ys)
  | _, _ => false

end Sys2Proof.Machine
end

