-- ==== Sys2Proof/Machine/RegMap.lean ====
section
/-!
DEFINITION. The register map (R7, R8, R11, R12, R25): every register of every block with its fields, access codes,
reset values and warm-start behaviour, as the register and field tables of the spec's chapters give them.
-/

namespace Sys2Proof.Machine

/-- Access codes of Table 0-3. -/
inductive Acc where
  | rw | ro | w1c | w1s | wo | rws | rwq
  deriving DecidableEq, Repr

/-- What a warm start leaves a field at: its value, its reset value, or a given value (the Warm column). -/
inductive Warm where
  | kept | reset | val (n : Nat)
  deriving DecidableEq, Repr

/-- A field of a register. `reset` lists the reset value by instance; a single entry holds for all. -/
structure FieldDesc where
  lsb : Nat
  width : Nat
  acc : Acc
  reset : List Nat
  warm : Warm
  deriving DecidableEq, Repr

/-- A register: its address for instance 0, its dimensions (count and stride), its words and its fields. -/
structure RegDesc where
  name : String
  base : Nat
  dims : List (Nat × Nat)
  words : Nat
  fields : List FieldDesc
  deriving DecidableEq, Repr

/-- Registers of block SYS, from the register and field tables of spec/22_address_map.md. -/
def regsSYS : List RegDesc := [
  ⟨"SYS_ID", 0x40000800, [], 1, [⟨0, 16, .ro, [18528], .reset⟩, ⟨16, 4, .ro, [0], .reset⟩, ⟨20, 4, .ro, [11], .reset⟩]⟩,
  ⟨"SYS_UID", 0x40000808, [], 2, [⟨0, 64, .ro, [0], .reset⟩]⟩,
  ⟨"SYS_CAPCOUNT", 0x40000810, [], 1, [⟨0, 8, .ro, [31], .reset⟩]⟩,
  ⟨"SYS_STRAPOVR", 0x40000814, [], 1, [⟨0, 1, .rw, [0], .kept⟩, ⟨1, 1, .rw, [0], .kept⟩]⟩,
  ⟨"SYS_KEYREV", 0x40000818, [], 1, [⟨0, 4, .ro, [0], .reset⟩, ⟨4, 4, .ro, [0], .reset⟩]⟩]

/-- Registers of block CLK, from the register and field tables of spec/16_clocking.md. -/
def regsCLK : List RegDesc := [
  ⟨"CLK_CTL", 0x40010000, [], 1, [⟨0, 1, .rw, [1], .kept⟩, ⟨1, 1, .rw, [0], .kept⟩, ⟨2, 1, .rw, [1], .kept⟩]⟩,
  ⟨"CLK_STAT", 0x40010004, [], 1, [⟨0, 2, .ro, [0], (.val 0)⟩, ⟨2, 1, .ro, [0], .reset⟩, ⟨3, 1, .ro, [0], .kept⟩, ⟨4, 1, .ro, [0], .reset⟩, ⟨5, 1, .ro, [0], .reset⟩, ⟨6, 1, .ro, [0], .reset⟩, ⟨7, 1, .ro, [0], .reset⟩, ⟨8, 1, .ro, [0], .reset⟩, ⟨9, 2, .ro, [0], .kept⟩, ⟨11, 1, .ro, [0], .reset⟩]⟩,
  ⟨"CLK_INT_STAT", 0x40010008, [], 1, [⟨0, 1, .w1c, [0], .reset⟩, ⟨1, 1, .w1c, [0], .reset⟩, ⟨2, 1, .w1c, [0], .reset⟩, ⟨3, 1, .w1c, [0], .reset⟩, ⟨4, 1, .w1c, [0], .reset⟩, ⟨5, 1, .w1c, [0], .reset⟩, ⟨6, 1, .w1c, [0], .reset⟩, ⟨7, 1, .w1c, [0], .reset⟩]⟩,
  ⟨"CLK_INT_EN", 0x4001000C, [], 1, [⟨0, 8, .rw, [0], .kept⟩]⟩,
  ⟨"CLK_REFCFG", 0x40010010, [], 1, [⟨0, 1, .rw, [0], .kept⟩, ⟨1, 1, .rw, [1], .kept⟩, ⟨2, 1, .rw, [1], .kept⟩]⟩,
  ⟨"CLK_LOCKCFG", 0x40010014, [], 1, [⟨0, 2, .rw, [1], .kept⟩]⟩,
  ⟨"CLK_HOLD", 0x40010018, [], 1, [⟨0, 10, .rw, [20], .kept⟩]⟩,
  ⟨"CLK_RATE", 0x4001001C, [], 1, [⟨0, 32, .ro, [0], .kept⟩]⟩,
  ⟨"CLK_PHERR", 0x40010020, [], 1, [⟨0, 16, .ro, [0], .reset⟩]⟩,
  ⟨"CLK_BAND", 0x40010024, [], 1, [⟨0, 6, .ro, [0], .kept⟩, ⟨6, 1, .ro, [0], .kept⟩]⟩,
  ⟨"CLK_CNT", 0x40010028, [], 1, [⟨0, 16, .ro, [0], .kept⟩, ⟨16, 16, .ro, [0], .kept⟩]⟩,
  ⟨"CLK_EVTSTAMP", 0x40010030, [], 2, [⟨0, 64, .ro, [0], .kept⟩]⟩,
  ⟨"CLK_OUT_CFG", 0x40010100, [(5, 0x4)], 1, [⟨0, 1, .rw, [1], .kept⟩, ⟨1, 8, .rw, [0], .kept⟩, ⟨16, 16, .ro, [8, 16, 8, 50, 64], .kept⟩]⟩]

/-- Registers of block PWR, from the register and field tables of spec/17_power_start.md. -/
def regsPWR : List RegDesc := [
  ⟨"PWR_STAT", 0x40020000, [], 1, [⟨0, 1, .ro, [0], .reset⟩, ⟨1, 1, .ro, [0], .kept⟩, ⟨2, 1, .ro, [0], .kept⟩, ⟨3, 1, .ro, [0], .kept⟩, ⟨4, 2, .ro, [0], .kept⟩, ⟨6, 4, .ro, [0], .reset⟩, ⟨10, 4, .ro, [0], .kept⟩]⟩,
  ⟨"PWR_CMD", 0x40020004, [], 1, [⟨0, 1, .wo, [0], .reset⟩, ⟨1, 1, .wo, [0], .reset⟩, ⟨2, 1, .wo, [0], .reset⟩, ⟨3, 1, .wo, [0], .reset⟩, ⟨4, 1, .wo, [0], .reset⟩, ⟨8, 8, .wo, [0], .reset⟩]⟩,
  ⟨"PWR_INT_STAT", 0x40020008, [], 1, [⟨0, 1, .w1c, [0], .reset⟩, ⟨1, 1, .w1c, [0], .reset⟩, ⟨2, 1, .w1c, [0], .reset⟩, ⟨3, 1, .w1c, [0], .reset⟩, ⟨4, 1, .w1c, [0], .reset⟩, ⟨5, 1, .w1c, [0], .reset⟩]⟩,
  ⟨"PWR_INT_EN", 0x4002000C, [], 1, [⟨0, 6, .rw, [0], .kept⟩]⟩,
  ⟨"PWR_CAUSE", 0x40020010, [], 1, [⟨0, 4, .ro, [0], .kept⟩]⟩,
  ⟨"PWR_STRAP", 0x40020014, [], 1, [⟨0, 2, .ro, [0], .kept⟩, ⟨2, 1, .ro, [0], .kept⟩, ⟨3, 1, .ro, [0], .kept⟩, ⟨4, 6, .ro, [0], .kept⟩]⟩,
  ⟨"PWR_RAIL", 0x40020018, [], 1, [⟨0, 9, .ro, [0], .reset⟩]⟩,
  ⟨"PWR_CFG", 0x4002001C, [], 1, [⟨0, 8, .rw, [30], .kept⟩, ⟨8, 8, .rw, [10], .kept⟩, ⟨16, 12, .rw, [0], .kept⟩, ⟨28, 1, .rw, [0], .kept⟩]⟩,
  ⟨"PWR_OPSEC", 0x40020020, [], 2, [⟨0, 16, .ro, [0], .kept⟩, ⟨16, 32, .ro, [0], .kept⟩]⟩,
  ⟨"PWR_CYCLES", 0x40020028, [], 1, [⟨0, 32, .ro, [0], .kept⟩]⟩,
  ⟨"PWR_BOOTREC", 0x4002002C, [], 1, [⟨0, 1, .ro, [0], .kept⟩, ⟨1, 1, .ro, [0], .kept⟩, ⟨2, 3, .ro, [0], .kept⟩]⟩,
  ⟨"PWR_FAILT0", 0x40020030, [], 1, [⟨0, 32, .ro, [0], .kept⟩]⟩,
  ⟨"PWR_OFFSEC", 0x40020034, [], 1, [⟨0, 32, .ro, [0], .kept⟩]⟩,
  ⟨"PWR_KA", 0x40020038, [], 1, [⟨0, 1, .ro, [0], .kept⟩, ⟨1, 1, .ro, [0], .kept⟩, ⟨2, 1, .ro, [0], .kept⟩, ⟨3, 1, .ro, [0], .reset⟩, ⟨4, 1, .ro, [0], .reset⟩]⟩,
  ⟨"PWR_MIRROR", 0x4002003C, [], 1, [⟨0, 16, .ro, [0], .kept⟩, ⟨16, 1, .ro, [0], .kept⟩, ⟨17, 1, .ro, [0], .kept⟩]⟩,
  ⟨"PWR_CNT", 0x40020040, [], 1, [⟨0, 16, .ro, [0], .kept⟩, ⟨16, 16, .ro, [0], .kept⟩]⟩,
  ⟨"PWR_READYT", 0x40020044, [], 1, [⟨0, 32, .ro, [0], .kept⟩]⟩,
  ⟨"PWR_RET", 0x40020080, [(16, 0x4)], 1, [⟨0, 32, .rw, [0], .kept⟩]⟩]

/-- Registers of block MLD, from the register and field tables of spec/02_mould.md. -/
def regsMLD : List RegDesc := [
  ⟨"MLD_STAT", 0x40030000, [], 1, [⟨0, 1, .ro, [0], .reset⟩, ⟨1, 2, .ro, [0], .kept⟩, ⟨3, 1, .ro, [0], .kept⟩]⟩,
  ⟨"MLD_CMD", 0x40030004, [], 1, [⟨0, 4, .wo, [0], .reset⟩, ⟨8, 2, .wo, [0], .reset⟩, ⟨16, 4, .wo, [0], .reset⟩]⟩,
  ⟨"MLD_ERR", 0x40030008, [], 1, [⟨0, 8, .ro, [0], .reset⟩, ⟨8, 4, .ro, [0], .reset⟩]⟩,
  ⟨"MLD_ERROFF", 0x4003000C, [], 1, [⟨0, 32, .ro, [0], .reset⟩]⟩,
  ⟨"MLD_STAGE_BASE", 0x40030010, [], 1, [⟨4, 28, .rw, [0], .kept⟩]⟩,
  ⟨"MLD_STAGE_LEN", 0x40030014, [], 1, [⟨0, 21, .rw, [0], .kept⟩]⟩,
  ⟨"MLD_QUIESCE", 0x40030018, [], 1, [⟨1, 11, .rw, [255], .kept⟩]⟩,
  ⟨"MLD_QSTAT", 0x4003001C, [], 1, [⟨0, 12, .ro, [0], .reset⟩, ⟨16, 12, .ro, [0], .reset⟩]⟩,
  ⟨"MLD_INT_STAT", 0x40030020, [], 1, [⟨0, 1, .w1c, [0], .reset⟩, ⟨1, 1, .w1c, [0], .reset⟩, ⟨2, 1, .w1c, [0], .reset⟩]⟩,
  ⟨"MLD_INT_EN", 0x40030024, [], 1, [⟨0, 3, .rw, [0], .kept⟩]⟩,
  ⟨"MLD_LOADCNT", 0x40030028, [], 1, [⟨0, 32, .ro, [0], .kept⟩]⟩,
  ⟨"MLD_SL_STAT", 0x40030040, [(4, 0x10)], 1, [⟨0, 1, .ro, [0], .kept⟩, ⟨1, 1, .ro, [0], .kept⟩]⟩,
  ⟨"MLD_SL_SERIAL", 0x40030044, [(4, 0x10)], 1, [⟨0, 32, .ro, [0], .kept⟩]⟩,
  ⟨"MLD_SL_LEN", 0x40030048, [(4, 0x10)], 1, [⟨0, 32, .ro, [0], .kept⟩]⟩,
  ⟨"MLD_SL_ID", 0x4003004C, [(4, 0x10)], 1, [⟨0, 32, .ro, [0], .kept⟩]⟩,
  ⟨"MLD_SH_DIGEST", 0x40030100, [(12, 0x4)], 1, [⟨0, 32, .ro, [0], .kept⟩]⟩,
  ⟨"MLD_SH_SRC", 0x40030140, [(12, 0x4)], 1, [⟨0, 2, .ro, [0], .kept⟩, ⟨8, 1, .ro, [0], .kept⟩]⟩]

/-- Registers of block BNK, from the register and field tables of spec/15_memory.md. -/
def regsBNK : List RegDesc := [
  ⟨"BNK_CMD", 0x40040000, [], 1, [⟨0, 7, .wo, [0], .reset⟩, ⟨8, 4, .wo, [0], .reset⟩, ⟨16, 3, .wo, [0], .reset⟩, ⟨20, 7, .wo, [0], .reset⟩]⟩,
  ⟨"BNK_STAT", 0x40040004, [], 1, [⟨0, 1, .ro, [0], .reset⟩, ⟨1, 3, .ro, [0], .reset⟩]⟩,
  ⟨"BNK_INT_STAT", 0x40040008, [], 1, [⟨0, 1, .w1c, [0], .reset⟩, ⟨1, 1, .w1c, [0], .reset⟩, ⟨2, 1, .w1c, [0], .reset⟩, ⟨3, 1, .w1c, [0], .reset⟩, ⟨4, 1, .w1c, [0], .reset⟩, ⟨5, 1, .w1c, [0], .reset⟩]⟩,
  ⟨"BNK_INT_EN", 0x4004000C, [], 1, [⟨0, 6, .rw, [0], .kept⟩]⟩,
  ⟨"BNK_VIOL_ADDR", 0x40040010, [], 1, [⟨0, 32, .ro, [0], .kept⟩]⟩,
  ⟨"BNK_VIOL_INFO", 0x40040014, [], 1, [⟨0, 4, .ro, [0], .kept⟩, ⟨4, 1, .ro, [0], .kept⟩, ⟨16, 16, .ro, [0], .kept⟩]⟩,
  ⟨"BNK_ECC_CE", 0x40040018, [], 1, [⟨0, 32, .ro, [0], .kept⟩]⟩,
  ⟨"BNK_ECC_CEADDR", 0x4004001C, [], 1, [⟨0, 32, .ro, [0], .kept⟩]⟩,
  ⟨"BNK_ECC_UE", 0x40040020, [], 1, [⟨0, 32, .ro, [0], .kept⟩]⟩,
  ⟨"BNK_ECC_UEADDR", 0x40040024, [], 1, [⟨0, 32, .ro, [0], .kept⟩]⟩,
  ⟨"BNK_BK_OWN", 0x40040100, [(96, 0x8)], 1, [⟨0, 4, .ro, [1], .kept⟩, ⟨4, 1, .ro, [0], .reset⟩, ⟨5, 1, .ro, [0], .kept⟩, ⟨6, 1, .ro, [0], .kept⟩, ⟨7, 1, .rw, [0], .kept⟩, ⟨8, 1, .ro, [0], .reset⟩]⟩,
  ⟨"BNK_BK_SPARE", 0x40040104, [(96, 0x8)], 1, [⟨0, 7, .ro, [0], .kept⟩, ⟨7, 1, .ro, [0], .kept⟩, ⟨8, 7, .ro, [0], .kept⟩, ⟨15, 1, .ro, [0], .kept⟩, ⟨16, 6, .ro, [0], .kept⟩, ⟨22, 1, .ro, [0], .kept⟩]⟩,
  ⟨"BNK_XB_CFG", 0x40040400, [(16, 0x10)], 1, [⟨0, 1, .rw, [0], .kept⟩, ⟨1, 1, .rw, [1], .kept⟩, ⟨2, 1, .rw, [0], .kept⟩]⟩,
  ⟨"BNK_XB_SPARE", 0x40040404, [(16, 0x10)], 1, [⟨0, 5, .ro, [0], .kept⟩, ⟨7, 1, .ro, [0], .kept⟩, ⟨8, 5, .ro, [0], .kept⟩, ⟨15, 1, .ro, [0], .kept⟩, ⟨16, 6, .ro, [0], .kept⟩, ⟨22, 1, .ro, [0], .kept⟩]⟩,
  ⟨"BNK_XB_LOST", 0x40040408, [(16, 0x10)], 1, [⟨0, 17, .ro, [0], .kept⟩, ⟨17, 1, .ro, [0], .kept⟩, ⟨24, 8, .ro, [0], .kept⟩]⟩]

/-- Registers of block SWP, from the register and field tables of spec/15_memory.md. -/
def regsSWP : List RegDesc := [
  ⟨"SWP_CTL", 0x40050000, [], 1, [⟨0, 1, .rw, [1], .kept⟩, ⟨1, 1, .rw, [1], .kept⟩, ⟨2, 1, .rw, [1], .kept⟩]⟩,
  ⟨"SWP_STAT", 0x40050004, [], 1, [⟨0, 13, .ro, [0], .kept⟩, ⟨13, 7, .ro, [0], .kept⟩, ⟨31, 1, .ro, [0], .reset⟩]⟩,
  ⟨"SWP_PASS", 0x40050008, [], 1, [⟨0, 32, .ro, [0], .kept⟩]⟩,
  ⟨"SWP_SCRUB", 0x4005000C, [], 1, [⟨0, 32, .ro, [0], .kept⟩]⟩,
  ⟨"SWP_FAIL", 0x40050010, [], 1, [⟨0, 32, .ro, [0], .kept⟩]⟩,
  ⟨"SWP_FAILADDR", 0x40050014, [], 1, [⟨0, 32, .ro, [0], .kept⟩]⟩,
  ⟨"SWP_UEADDR", 0x40050018, [], 1, [⟨0, 32, .ro, [0], .kept⟩]⟩,
  ⟨"SWP_INT_STAT", 0x4005001C, [], 1, [⟨0, 1, .w1c, [0], .reset⟩, ⟨1, 1, .w1c, [0], .reset⟩, ⟨2, 1, .w1c, [0], .reset⟩, ⟨3, 1, .w1c, [0], .reset⟩, ⟨4, 1, .w1c, [0], .reset⟩]⟩,
  ⟨"SWP_INT_EN", 0x40050020, [], 1, [⟨0, 5, .rw, [0], .kept⟩]⟩]

/-- Registers of block GLN, from the register and field tables of spec/15_memory.md. -/
def regsGLN : List RegDesc := [
  ⟨"GLN_RUN", 0x40060000, [], 1, [⟨0, 32, .ro, [0], .reset⟩]⟩,
  ⟨"GLN_HALTED", 0x40060004, [], 1, [⟨0, 32, .ro, [0], .kept⟩]⟩,
  ⟨"GLN_INT_DONE", 0x40060008, [], 1, [⟨0, 32, .w1c, [0], .reset⟩]⟩,
  ⟨"GLN_INT_HALT", 0x4006000C, [], 1, [⟨0, 32, .w1c, [0], .reset⟩]⟩,
  ⟨"GLN_INT_EN_DONE", 0x40060010, [], 1, [⟨0, 32, .rw, [0], .kept⟩]⟩,
  ⟨"GLN_INT_EN_HALT", 0x40060014, [], 1, [⟨0, 32, .rw, [0], .kept⟩]⟩,
  ⟨"GLN_GW_BASE", 0x40060100, [(16, 0x10)], 1, [⟨0, 32, .rw, [0], .kept⟩]⟩,
  ⟨"GLN_GW_LIMIT", 0x40060104, [(16, 0x10)], 1, [⟨0, 32, .rw, [0], .kept⟩]⟩,
  ⟨"GLN_GW_PERM", 0x40060108, [(16, 0x10)], 1, [⟨0, 1, .rw, [0], .kept⟩, ⟨1, 1, .rw, [0], .kept⟩]⟩,
  ⟨"GLN_GW_CHMASK", 0x4006010C, [(16, 0x10)], 1, [⟨0, 32, .rw, [0], .kept⟩]⟩,
  ⟨"GLN_GC_CTL", 0x40061000, [(32, 0x40)], 1, [⟨0, 2, .rw, [0], .kept⟩]⟩,
  ⟨"GLN_GC_CMD", 0x40061004, [(32, 0x40)], 1, [⟨0, 1, .wo, [0], .reset⟩, ⟨1, 1, .wo, [0], .reset⟩, ⟨2, 1, .wo, [0], .reset⟩]⟩,
  ⟨"GLN_GC_DESC", 0x40061008, [(32, 0x40)], 1, [⟨5, 27, .rw, [0], .kept⟩]⟩,
  ⟨"GLN_GC_STAT", 0x4006100C, [(32, 0x40)], 1, [⟨0, 2, .ro, [0], .kept⟩, ⟨4, 4, .ro, [0], .kept⟩, ⟨16, 16, .ro, [0], .kept⟩]⟩,
  ⟨"GLN_GC_CUR", 0x40061010, [(32, 0x40)], 1, [⟨0, 32, .rw, [0], .kept⟩]⟩,
  ⟨"GLN_GC_SRC", 0x40061014, [(32, 0x40)], 1, [⟨0, 32, .rw, [0], .kept⟩]⟩,
  ⟨"GLN_GC_DST", 0x40061018, [(32, 0x40)], 1, [⟨0, 32, .rw, [0], .kept⟩]⟩,
  ⟨"GLN_GC_REM", 0x4006101C, [(32, 0x40)], 1, [⟨0, 32, .rw, [0], .kept⟩]⟩,
  ⟨"GLN_GC_FADDR", 0x40061020, [(32, 0x40)], 1, [⟨0, 32, .ro, [0], .kept⟩]⟩,
  ⟨"GLN_GC_BYTES", 0x40061024, [(32, 0x40)], 1, [⟨0, 32, .ro, [0], .kept⟩]⟩]

/-- Registers of block ADC, from the register and field tables of spec/03_sampling.md. -/
def regsADC : List RegDesc := [
  ⟨"ADC_CTL", 0x40080000, [(4, 0x4000)], 1, [⟨0, 1, .rw, [1], .kept⟩, ⟨1, 1, .rw, [1], .kept⟩, ⟨2, 1, .rw, [0], .kept⟩]⟩,
  ⟨"ADC_STAT", 0x40080004, [(4, 0x4000)], 1, [⟨0, 1, .ro, [0], (.val 1)⟩, ⟨1, 1, .ro, [0], .kept⟩, ⟨2, 1, .ro, [0], .reset⟩, ⟨3, 1, .ro, [0], .reset⟩, ⟨4, 4, .ro, [8], .kept⟩, ⟨8, 3, .ro, [0], .reset⟩, ⟨16, 9, .ro, [0], .kept⟩]⟩,
  ⟨"ADC_INT_STAT", 0x40080008, [(4, 0x4000)], 1, [⟨0, 4, .w1c, [0], .reset⟩, ⟨4, 1, .w1c, [0], .reset⟩, ⟨5, 1, .w1c, [0], .reset⟩, ⟨6, 1, .w1c, [0], .reset⟩, ⟨7, 1, .w1c, [0], .reset⟩, ⟨8, 1, .w1c, [0], .reset⟩, ⟨9, 1, .w1c, [0], .reset⟩, ⟨10, 1, .w1c, [0], .reset⟩, ⟨11, 1, .w1c, [0], .reset⟩, ⟨12, 1, .w1c, [0], .reset⟩]⟩,
  ⟨"ADC_INT_EN", 0x4008000C, [(4, 0x4000)], 1, [⟨0, 13, .rw, [0], .kept⟩]⟩,
  ⟨"ADC_LFSR", 0x40080010, [(4, 0x4000)], 1, [⟨0, 15, .rw, [1], .kept⟩]⟩,
  ⟨"ADC_OVR", 0x40080014, [(4, 0x4000)], 1, [⟨0, 8, .w1c, [0], .reset⟩]⟩,
  ⟨"ADC_SE", 0x40080018, [(4, 0x4000)], 1, [⟨0, 8, .rw, [0], .kept⟩]⟩,
  ⟨"ADC_FMT", 0x4008001C, [(4, 0x4000)], 1, [⟨0, 16, .rw, [0], .kept⟩]⟩,
  ⟨"ADC_CALCNT", 0x40080020, [(4, 0x4000)], 1, [⟨0, 32, .ro, [0], .kept⟩]⟩,
  ⟨"ADC_SNAPMISS", 0x40080024, [(4, 0x4000)], 1, [⟨0, 32, .ro, [0], .kept⟩]⟩,
  ⟨"ADC_RAW", 0x40080040, [(4, 0x4000), (8, 0x4)], 1, [⟨0, 32, .ro, [0], .reset⟩]⟩,
  ⟨"ADC_SNAP_CFG", 0x40080080, [(4, 0x4000), (4, 0x10)], 1, [⟨0, 1, .rw, [0], .kept⟩, ⟨1, 3, .rw, [0], .kept⟩, ⟨4, 2, .rw, [0], .kept⟩, ⟨8, 3, .rw, [0], .kept⟩]⟩,
  ⟨"ADC_SNAP_DATA", 0x40080084, [(4, 0x4000), (4, 0x10)], 1, [⟨0, 32, .ro, [0], .reset⟩]⟩,
  ⟨"ADC_SNAP_STAMP", 0x40080088, [(4, 0x4000), (4, 0x10)], 1, [⟨0, 32, .ro, [0], .reset⟩]⟩,
  ⟨"ADC_SNAP_COUNT", 0x4008008C, [(4, 0x4000), (4, 0x10)], 1, [⟨0, 16, .ro, [0], .reset⟩]⟩,
  ⟨"ADC_SL_OFF", 0x40080100, [(4, 0x4000), (9, 0x10)], 1, [⟨0, 16, .ro, [0], .kept⟩]⟩,
  ⟨"ADC_SL_GAIN", 0x40080104, [(4, 0x4000), (9, 0x10)], 1, [⟨0, 16, .ro, [0], .kept⟩]⟩,
  ⟨"ADC_SL_SKEW", 0x40080108, [(4, 0x4000), (9, 0x10)], 1, [⟨0, 8, .ro, [0], .kept⟩, ⟨16, 2, .ro, [0], .kept⟩]⟩,
  ⟨"ADC_SL_BW", 0x4008010C, [(4, 0x4000), (9, 0x10)], 1, [⟨0, 12, .ro, [0], .kept⟩]⟩,
  ⟨"ADC_TCFG", 0x40080200, [(4, 0x4000)], 1, [⟨0, 3, .rw, [0], .reset⟩, ⟨4, 2, .rw, [0], .reset⟩, ⟨8, 4, .rw, [0], .reset⟩, ⟨16, 14, .rw, [0], .reset⟩]⟩,
  ⟨"ADC_TCMD", 0x40080204, [(4, 0x4000)], 1, [⟨0, 1, .wo, [0], .reset⟩, ⟨1, 1, .wo, [0], .reset⟩]⟩,
  ⟨"ADC_TSTAT", 0x40080208, [(4, 0x4000)], 1, [⟨0, 1, .ro, [0], .reset⟩, ⟨2, 2, .ro, [0], .reset⟩, ⟨4, 4, .ro, [0], .reset⟩]⟩,
  ⟨"ADC_TBASE", 0x4008020C, [(4, 0x4000)], 1, [⟨0, 32, .ro, [0], .reset⟩]⟩,
  ⟨"ADC_TRES", 0x40080210, [(4, 0x4000)], 1, [⟨0, 32, .ro, [0], .reset⟩]⟩] ++ [
  ⟨"ADC_TTHR", 0x40080214, [(4, 0x4000)], 1, [⟨0, 24, .rw, [419430], .kept⟩, ⟨24, 8, .rw, [50], .kept⟩]⟩]

/-- Registers of block SCR, from the register and field tables of spec/04_screen_chain.md. -/
def regsSCR : List RegDesc := [
  ⟨"SCR_SYNC_CFG", 0x40090000, [], 1, [⟨0, 2, .rw, [0], .kept⟩, ⟨4, 4, .rw, [0], .kept⟩, ⟨8, 1, .rw, [0], .kept⟩]⟩,
  ⟨"SCR_SYNC_MASK", 0x40090004, [], 1, [⟨0, 32, .rw, [4294967295], .kept⟩]⟩,
  ⟨"SCR_SYNC_CMD", 0x40090008, [], 1, [⟨0, 1, .wo, [0], .reset⟩]⟩,
  ⟨"SCR_SYNC_STAT", 0x4009000C, [], 1, [⟨0, 16, .ro, [0], .kept⟩, ⟨16, 16, .ro, [0], .kept⟩]⟩,
  ⟨"SCR_SYNC_LAST", 0x40090010, [], 1, [⟨0, 32, .ro, [0], .kept⟩]⟩,
  ⟨"SCR_INT_STAT", 0x40090020, [], 1, [⟨0, 1, .w1c, [0], .reset⟩, ⟨1, 1, .w1c, [0], .reset⟩, ⟨2, 1, .w1c, [0], .reset⟩, ⟨3, 1, .w1c, [0], .reset⟩, ⟨4, 1, .w1c, [0], .reset⟩, ⟨5, 1, .w1c, [0], .reset⟩]⟩,
  ⟨"SCR_INT_EN", 0x40090024, [], 1, [⟨0, 6, .rw, [0], .kept⟩]⟩,
  ⟨"SCR_SAT", 0x40090030, [(7, 0x4)], 1, [⟨0, 32, .w1c, [0], .reset⟩]⟩,
  ⟨"SCR_WIN_OUT", 0x40090050, [(2, 0x4)], 1, [⟨0, 32, .ro, [0], .reset⟩]⟩,
  ⟨"SCR_WIN_FLAG", 0x40090058, [(2, 0x4)], 1, [⟨0, 32, .w1c, [0], .reset⟩]⟩,
  ⟨"SCR_FW_OUT", 0x40090060, [], 1, [⟨0, 32, .ro, [0], .reset⟩]⟩,
  ⟨"SCR_FW_FLAG", 0x40090064, [], 1, [⟨0, 32, .w1c, [0], .reset⟩]⟩,
  ⟨"SCR_WIN_CFGERR", 0x40090068, [(2, 0x4)], 1, [⟨0, 32, .ro, [0], .reset⟩]⟩,
  ⟨"SCR_PH", 0x40090100, [(32, 0x4)], 1, [⟨0, 7, .ro, [0], .kept⟩]⟩,
  ⟨"SCR_WIN_CFG", 0x40090400, [(64, 0x10)], 1, [⟨0, 1, .rw, [0], .kept⟩, ⟨4, 3, .rw, [0], .kept⟩]⟩,
  ⟨"SCR_WIN_LO", 0x40090404, [(64, 0x10)], 1, [⟨0, 24, .rw, [8388608], .kept⟩]⟩,
  ⟨"SCR_WIN_HI", 0x40090408, [(64, 0x10)], 1, [⟨0, 24, .rw, [8388607], .kept⟩]⟩,
  ⟨"SCR_WIN_HYST", 0x4009040C, [(64, 0x10)], 1, [⟨0, 23, .rw, [0], .kept⟩]⟩,
  ⟨"SCR_FW_CFG", 0x40090800, [(32, 0x10)], 1, [⟨0, 1, .rwq, [0], .kept⟩, ⟨4, 4, .rwq, [0], .kept⟩]⟩,
  ⟨"SCR_FW_LO", 0x40090804, [(32, 0x10)], 1, [⟨0, 24, .rwq, [8388608], .kept⟩]⟩,
  ⟨"SCR_FW_HI", 0x40090808, [(32, 0x10)], 1, [⟨0, 24, .rwq, [8388607], .kept⟩]⟩,
  ⟨"SCR_TAP_VAL", 0x40091000, [(256, 0x8)], 1, [⟨0, 32, .ro, [0], .reset⟩]⟩,
  ⟨"SCR_TAP_STAMP", 0x40091004, [(256, 0x8)], 1, [⟨0, 32, .ro, [0], .reset⟩]⟩]

/-- Registers of block CE, from the register and field tables of spec/05_control_engines.md. -/
def regsCE : List RegDesc := [
  ⟨"CE_RUNCTL", 0x400A0000, [(8, 0x2000)], 1, [⟨0, 1, .rwq, [0], .kept⟩, ⟨1, 1, .rwq, [0], .kept⟩, ⟨2, 1, .rwq, [0], .kept⟩, ⟨8, 8, .rwq, [0], .kept⟩]⟩,
  ⟨"CE_TICK", 0x400A0004, [(8, 0x2000)], 1, [⟨0, 2, .rwq, [3], .kept⟩, ⟨8, 8, .rwq, [0], .kept⟩, ⟨16, 8, .rwq, [0], .kept⟩]⟩,
  ⟨"CE_OUTCFG", 0x400A0008, [(8, 0x2000)], 1, [⟨0, 3, .rwq, [0, 1, 2, 3, 4, 5, 6, 7], .kept⟩]⟩,
  ⟨"CE_RCOUNT", 0x400A000C, [(8, 0x2000)], 1, [⟨0, 9, .rwq, [0], .kept⟩, ⟨16, 9, .rwq, [0], .kept⟩]⟩,
  ⟨"CE_DTNOM", 0x400A0010, [(8, 0x2000)], 1, [⟨0, 32, .rwq, [204800], .kept⟩]⟩,
  ⟨"CE_DTMAX", 0x400A0014, [(8, 0x2000)], 1, [⟨0, 32, .rwq, [819200], .kept⟩]⟩,
  ⟨"CE_STAT", 0x400A0018, [(8, 0x2000)], 1, [⟨0, 1, .ro, [0], .reset⟩, ⟨1, 1, .ro, [0], .kept⟩, ⟨2, 1, .ro, [0], .kept⟩, ⟨3, 1, .ro, [0], .reset⟩, ⟨4, 1, .ro, [1], (.val 1)⟩, ⟨5, 1, .ro, [0], .reset⟩, ⟨6, 1, .ro, [0], .kept⟩]⟩,
  ⟨"CE_FAULT", 0x400A001C, [(8, 0x2000)], 1, [⟨0, 1, .ro, [0], .kept⟩, ⟨1, 1, .ro, [0], .kept⟩, ⟨2, 1, .ro, [0], .kept⟩, ⟨3, 1, .ro, [0], .kept⟩]⟩,
  ⟨"CE_INT_STAT", 0x400A0020, [(8, 0x2000)], 1, [⟨0, 1, .w1c, [0], .reset⟩, ⟨1, 1, .w1c, [0], .reset⟩, ⟨2, 1, .w1c, [0], .reset⟩, ⟨3, 1, .w1c, [0], .reset⟩, ⟨4, 1, .w1c, [0], .reset⟩, ⟨5, 1, .w1c, [0], .reset⟩, ⟨6, 1, .w1c, [0], .reset⟩, ⟨7, 1, .w1c, [0], .reset⟩, ⟨8, 1, .w1c, [0], .reset⟩, ⟨9, 1, .w1c, [0], .reset⟩, ⟨10, 1, .w1c, [0], .reset⟩, ⟨11, 1, .w1c, [0], .reset⟩]⟩,
  ⟨"CE_INT_EN", 0x400A0024, [(8, 0x2000)], 1, [⟨0, 12, .rw, [0], .kept⟩]⟩,
  ⟨"CE_CMD", 0x400A0028, [(8, 0x2000)], 1, [⟨0, 1, .wo, [0], .reset⟩, ⟨1, 1, .wo, [0], .reset⟩]⟩,
  ⟨"CE_STAMP", 0x400A0030, [(8, 0x2000)], 2, [⟨0, 64, .ro, [0], .reset⟩]⟩,
  ⟨"CE_DT", 0x400A0038, [(8, 0x2000)], 1, [⟨0, 32, .ro, [0], .reset⟩]⟩,
  ⟨"CE_RUNCNT", 0x400A003C, [(8, 0x2000)], 1, [⟨0, 32, .ro, [0], .reset⟩]⟩,
  ⟨"CE_OVR_COUNT", 0x400A0040, [(8, 0x2000)], 1, [⟨0, 32, .ro, [0], .reset⟩]⟩,
  ⟨"CE_OVR_MERGED", 0x400A0044, [(8, 0x2000)], 1, [⟨0, 32, .ro, [0], .reset⟩]⟩,
  ⟨"CE_OVR_CONSEC", 0x400A0048, [(8, 0x2000)], 1, [⟨0, 8, .ro, [0], .reset⟩]⟩,
  ⟨"CE_CYCLES", 0x400A004C, [(8, 0x2000)], 1, [⟨0, 16, .ro, [0], .reset⟩, ⟨16, 16, .ro, [0], .reset⟩]⟩,
  ⟨"CE_SWAP", 0x400A0050, [(8, 0x2000)], 1, [⟨0, 1, .w1s, [0], .reset⟩, ⟨1, 1, .w1s, [0], .reset⟩]⟩,
  ⟨"CE_SWAP_STAT", 0x400A0054, [(8, 0x2000)], 1, [⟨0, 4, .ro, [0], .reset⟩, ⟨4, 8, .ro, [0], .reset⟩, ⟨12, 8, .ro, [0], .reset⟩, ⟨20, 8, .ro, [0], .reset⟩]⟩,
  ⟨"CE_STAGE_ADDR", 0x400A0060, [(8, 0x2000)], 1, [⟨0, 14, .rw, [0], .reset⟩, ⟨16, 2, .rw, [0], .reset⟩, ⟨24, 7, .ro, [0], .reset⟩]⟩,
  ⟨"CE_STAGE_DATA", 0x400A0064, [(8, 0x2000)], 1, [⟨0, 32, .wo, [0], .reset⟩]⟩,
  ⟨"CE_PEEK_ADDR", 0x400A0068, [(8, 0x2000)], 1, [⟨0, 16, .rw, [0], .reset⟩, ⟨16, 1, .rw, [0], .reset⟩]⟩,
  ⟨"CE_PEEK_DATA", 0x400A006C, [(8, 0x2000)], 1, [⟨0, 32, .ro, [0], .reset⟩]⟩] ++ [
  ⟨"CE_MB_SKIP", 0x400A0070, [(8, 0x2000)], 1, [⟨0, 32, .ro, [0], .reset⟩]⟩,
  ⟨"CE_MB_TORN", 0x400A0074, [(8, 0x2000)], 1, [⟨0, 32, .ro, [0], .reset⟩]⟩,
  ⟨"CE_ECC_CE", 0x400A0078, [(8, 0x2000)], 1, [⟨0, 32, .ro, [0], .kept⟩]⟩,
  ⟨"CE_TRC_CTL", 0x400A0080, [(8, 0x2000)], 1, [⟨0, 1, .w1s, [0], .reset⟩, ⟨1, 1, .rw, [0], .kept⟩, ⟨4, 4, .rw, [0], .kept⟩]⟩,
  ⟨"CE_TRC_POST", 0x400A0084, [(8, 0x2000)], 1, [⟨0, 18, .rw, [0], .kept⟩]⟩,
  ⟨"CE_TRC_STAT", 0x400A0088, [(8, 0x2000)], 1, [⟨0, 1, .ro, [0], .reset⟩, ⟨1, 1, .ro, [0], .reset⟩, ⟨2, 1, .ro, [0], .reset⟩, ⟨3, 1, .ro, [0], .reset⟩, ⟨4, 1, .ro, [0], .reset⟩]⟩,
  ⟨"CE_TRC_TRIGPOS", 0x400A008C, [(8, 0x2000)], 1, [⟨0, 18, .ro, [0], .reset⟩]⟩,
  ⟨"CE_TRC_TRIGSTAMP", 0x400A0090, [(8, 0x2000)], 2, [⟨0, 64, .ro, [0], .reset⟩]⟩,
  ⟨"CE_TRC_BANK", 0x400A00A0, [(8, 0x2000), (4, 0x4)], 1, [⟨0, 7, .rw, [0], .kept⟩, ⟨8, 7, .rw, [0], .kept⟩, ⟨16, 7, .rw, [0], .kept⟩, ⟨24, 7, .rw, [0], .kept⟩]⟩,
  ⟨"CE_TRC_PROBE", 0x400A00C0, [(8, 0x2000), (8, 0x4)], 1, [⟨0, 16, .rw, [0], .kept⟩]⟩,
  ⟨"CE7_MOVE", 0x400AE100, [], 1, [⟨0, 3, .wo, [0], .reset⟩, ⟨8, 1, .wo, [0], .reset⟩]⟩,
  ⟨"CE7_MOVE_STAT", 0x400AE104, [], 1, [⟨0, 1, .ro, [0], .reset⟩, ⟨1, 1, .ro, [0], .kept⟩, ⟨4, 3, .ro, [0], .kept⟩, ⟨8, 4, .ro, [0], .reset⟩]⟩]

/-- Registers of block PHT, from the register and field tables of spec/08_phasor_tracker.md. -/
def regsPHT : List RegDesc := [
  ⟨"PHT_OUT_CTL", 0x400C0000, [], 1, [⟨0, 1, .rw, [0], .kept⟩, ⟨1, 2, .rw, [0], .kept⟩]⟩,
  ⟨"PHT_OUT_DIV", 0x400C0004, [], 1, [⟨0, 16, .rw, [1], .kept⟩, ⟨16, 16, .rw, [64], .kept⟩]⟩,
  ⟨"PHT_OUT_STAT", 0x400C0008, [], 1, [⟨0, 1, .ro, [0], .reset⟩, ⟨1, 1, .ro, [0], .reset⟩]⟩,
  ⟨"PHT_PT_CFG", 0x400C0100, [(4, 0x80)], 1, [⟨0, 2, .rwq, [0], .kept⟩, ⟨2, 1, .rwq, [0], .kept⟩, ⟨4, 3, .rwq, [0], .kept⟩, ⟨8, 10, .rwq, [0], .kept⟩, ⟨24, 1, .rw, [0], .kept⟩]⟩,
  ⟨"PHT_PT_TAPS", 0x400C0104, [(4, 0x80)], 1, [⟨0, 8, .rwq, [0], .kept⟩, ⟨8, 8, .rwq, [0], .kept⟩]⟩,
  ⟨"PHT_PT_GAIN", 0x400C0108, [(4, 0x80)], 1, [⟨0, 32, .rwq, [0], .kept⟩]⟩,
  ⟨"PHT_PT_COMP", 0x400C010C, [(4, 0x80)], 1, [⟨0, 32, .rwq, [0], .kept⟩]⟩,
  ⟨"PHT_PT_HYST", 0x400C0110, [(4, 0x80)], 1, [⟨0, 32, .rw, [1028443341], .kept⟩]⟩,
  ⟨"PHT_PT_AMP_LO", 0x400C0114, [(4, 0x80)], 1, [⟨0, 32, .rw, [1062836634], .kept⟩]⟩,
  ⟨"PHT_PT_AMP_HI", 0x400C0118, [(4, 0x80)], 1, [⟨0, 32, .rw, [1066611507], .kept⟩]⟩,
  ⟨"PHT_PT_TIMING", 0x400C011C, [(4, 0x80)], 1, [⟨0, 8, .rw, [30], .kept⟩, ⟨8, 8, .rw, [120], .kept⟩, ⟨16, 8, .rw, [60], .kept⟩]⟩,
  ⟨"PHT_PT_TOL", 0x400C0120, [(4, 0x80)], 1, [⟨0, 16, .rw, [182], .kept⟩]⟩,
  ⟨"PHT_PT_STAT", 0x400C0124, [(4, 0x80)], 1, [⟨0, 1, .ro, [0], .reset⟩, ⟨1, 1, .ro, [0], .reset⟩, ⟨2, 1, .ro, [0], .reset⟩, ⟨3, 1, .ro, [0], .reset⟩, ⟨4, 1, .ro, [0], .reset⟩, ⟨5, 1, .ro, [0], .reset⟩]⟩,
  ⟨"PHT_PT_INT_STAT", 0x400C0128, [(4, 0x80)], 1, [⟨0, 1, .w1c, [0], .reset⟩, ⟨1, 1, .w1c, [0], .reset⟩, ⟨2, 1, .w1c, [0], .reset⟩, ⟨3, 1, .w1c, [0], .reset⟩, ⟨4, 1, .w1c, [0], .reset⟩, ⟨5, 1, .w1c, [0], .reset⟩]⟩,
  ⟨"PHT_PT_INT_EN", 0x400C012C, [(4, 0x80)], 1, [⟨0, 6, .rw, [0], .kept⟩]⟩,
  ⟨"PHT_PT_ANGLE", 0x400C0130, [(4, 0x80)], 1, [⟨0, 32, .ro, [0], .reset⟩]⟩,
  ⟨"PHT_PT_FREQ", 0x400C0134, [(4, 0x80)], 1, [⟨0, 32, .ro, [0], .reset⟩]⟩,
  ⟨"PHT_PT_EDGE_FAULT", 0x400C0138, [(4, 0x80)], 1, [⟨0, 32, .ro, [0], .kept⟩]⟩,
  ⟨"PHT_PT_SLIP_COUNT", 0x400C013C, [(4, 0x80)], 1, [⟨0, 32, .ro, [0], .kept⟩]⟩,
  ⟨"PHT_PT_AMP", 0x400C0140, [(4, 0x80)], 1, [⟨0, 32, .ro, [0], .reset⟩]⟩,
  ⟨"PHT_PT_EDGE_STAMP", 0x400C0144, [(4, 0x80)], 1, [⟨0, 32, .ro, [0], .reset⟩]⟩,
  ⟨"PHT_PT_SLIP_LAST", 0x400C0148, [(4, 0x80)], 1, [⟨0, 16, .ro, [0], .reset⟩]⟩]

/-- Registers of block PWM, from the register and field tables of spec/09_pwm.md. -/
def regsPWM : List RegDesc := [
  ⟨"PWM_TB", 0x400D0000, [], 2, [⟨0, 64, .ro, [0], .kept⟩]⟩,
  ⟨"PWM_GLOAD", 0x400D0008, [], 1, [⟨0, 8, .wo, [0], .reset⟩]⟩,
  ⟨"PWM_LEVEL0", 0x400D0010, [], 1, [⟨0, 32, .ro, [0], .reset⟩]⟩,
  ⟨"PWM_LEVEL1", 0x400D0014, [], 1, [⟨0, 16, .ro, [0], .reset⟩]⟩,
  ⟨"PWM_HOLD0", 0x400D0018, [], 1, [⟨0, 32, .ro, [0], .kept⟩]⟩,
  ⟨"PWM_HOLD1", 0x400D001C, [], 1, [⟨0, 16, .ro, [0], .kept⟩]⟩,
  ⟨"PWM_PG_CTL", 0x400D0100, [(8, 0x80)], 1, [⟨0, 1, .rwq, [0], .kept⟩, ⟨1, 1, .rwq, [0], .kept⟩, ⟨2, 2, .rwq, [0], .kept⟩, ⟨4, 4, .rwq, [0], .kept⟩, ⟨8, 1, .rwq, [0], .kept⟩, ⟨12, 4, .rw, [0], .kept⟩]⟩,
  ⟨"PWM_PG_STAT", 0x400D0104, [(8, 0x80)], 1, [⟨0, 1, .ro, [0], .reset⟩, ⟨1, 1, .ro, [0], .reset⟩, ⟨2, 1, .ro, [0], .reset⟩, ⟨3, 1, .ro, [0], .reset⟩, ⟨4, 1, .ro, [0], .reset⟩]⟩,
  ⟨"PWM_PG_INT_STAT", 0x400D0108, [(8, 0x80)], 1, [⟨0, 1, .w1c, [0], .reset⟩, ⟨1, 1, .w1c, [0], .reset⟩, ⟨2, 1, .w1c, [0], .reset⟩, ⟨3, 1, .w1c, [0], .reset⟩, ⟨4, 1, .w1c, [0], .reset⟩, ⟨5, 1, .w1c, [0], .reset⟩, ⟨6, 1, .w1c, [0], .reset⟩, ⟨7, 1, .w1c, [0], .reset⟩]⟩,
  ⟨"PWM_PG_INT_EN", 0x400D010C, [(8, 0x80)], 1, [⟨0, 8, .rw, [0], .kept⟩]⟩,
  ⟨"PWM_PG_PERIOD_SH", 0x400D0110, [(8, 0x80)], 2, [⟨0, 40, .rw, [52428800], .kept⟩]⟩,
  ⟨"PWM_PG_PERIOD", 0x400D0118, [(8, 0x80)], 2, [⟨0, 40, .ro, [52428800], .kept⟩]⟩,
  ⟨"PWM_PG_PHASE", 0x400D0120, [(8, 0x80)], 1, [⟨0, 32, .rwq, [0], .kept⟩]⟩,
  ⟨"PWM_PG_DT", 0x400D0124, [(8, 0x80)], 1, [⟨0, 18, .rwq, [0], .kept⟩]⟩,
  ⟨"PWM_PG_MINP", 0x400D0128, [(8, 0x80)], 1, [⟨0, 18, .rwq, [0], .kept⟩]⟩,
  ⟨"PWM_PG_BOOT", 0x400D012C, [(8, 0x80)], 1, [⟨0, 4, .rwq, [0], .kept⟩, ⟨4, 20, .rwq, [0], .kept⟩]⟩,
  ⟨"PWM_PG_TRG", 0x400D0130, [(8, 0x80), (4, 0x4)], 1, [⟨0, 32, .rw, [0], .kept⟩]⟩,
  ⟨"PWM_PG_LOADALL", 0x400D0140, [(8, 0x80)], 1, [⟨0, 1, .w1s, [0], .reset⟩]⟩,
  ⟨"PWM_PG_PCOUNT", 0x400D0144, [(8, 0x80)], 1, [⟨0, 32, .ro, [0], .reset⟩]⟩,
  ⟨"PWM_PG_LASTLOAD", 0x400D0148, [(8, 0x80)], 2, [⟨0, 64, .ro, [0], .reset⟩]⟩,
  ⟨"PWM_CH_CFG", 0x400D0800, [(48, 0x20)], 1, [⟨0, 1, .rwq, [0], .kept⟩, ⟨1, 3, .rwq, [0], .kept⟩, ⟨4, 1, .rwq, [0], .kept⟩, ⟨5, 1, .rwq, [0], .kept⟩]⟩,
  ⟨"PWM_CH_DUTY_SH", 0x400D0808, [(48, 0x20)], 2, [⟨0, 40, .rw, [0], .kept⟩]⟩,
  ⟨"PWM_CH_DUTY", 0x400D0810, [(48, 0x20)], 2, [⟨0, 40, .ro, [0], .kept⟩]⟩,
  ⟨"PWM_LN_ILK", 0x400D0E00, [(12, 0x4)], 1, [⟨0, 2, .rwq, [0], .kept⟩, ⟨4, 4, .rwq, [0], .kept⟩, ⟨8, 4, .rwq, [0], .kept⟩, ⟨12, 4, .rwq, [0], .kept⟩, ⟨16, 4, .rwq, [0], .kept⟩, ⟨24, 8, .ro, [0], .reset⟩]⟩]

/-- Registers of block FMX, from the register and field tables of spec/09_pwm.md. -/
def regsFMX : List RegDesc := [
  ⟨"FMX_SRC_STAT", 0x400E0000, [(4, 0x4)], 1, [⟨0, 32, .ro, [0], .reset⟩]⟩,
  ⟨"FMX_SRC_FLAG", 0x400E0010, [(4, 0x4)], 1, [⟨0, 32, .w1c, [0], .reset⟩]⟩,
  ⟨"FMX_SRC_CLASS", 0x400E0020, [(4, 0x4)], 1, [⟨0, 32, .rwq, [0], .kept⟩]⟩,
  ⟨"FMX_FLT_CFG", 0x400E0040, [(16, 0x4)], 1, [⟨0, 1, .rwq, [0], .kept⟩, ⟨1, 1, .rwq, [0], .kept⟩, ⟨2, 6, .rwq, [0], .kept⟩]⟩,
  ⟨"FMX_PG_STAT", 0x400E0100, [(8, 0x80)], 1, [⟨0, 3, .ro, [0], .kept⟩, ⟨3, 1, .ro, [0], .kept⟩, ⟨4, 1, .ro, [0], .reset⟩, ⟨5, 1, .ro, [0], .reset⟩]⟩,
  ⟨"FMX_PG_CAUSE", 0x400E0104, [(8, 0x80)], 1, [⟨0, 7, .ro, [0], .kept⟩, ⟨7, 1, .ro, [0], .kept⟩]⟩,
  ⟨"FMX_PG_CLR", 0x400E0108, [(8, 0x80)], 1, [⟨0, 1, .wo, [0], .reset⟩]⟩,
  ⟨"FMX_PG_INT_STAT", 0x400E010C, [(8, 0x80)], 1, [⟨0, 1, .w1c, [0], .reset⟩, ⟨1, 1, .w1c, [0], .reset⟩, ⟨2, 1, .w1c, [0], .reset⟩, ⟨3, 1, .w1c, [0], .reset⟩]⟩,
  ⟨"FMX_PG_INT_EN", 0x400E0110, [(8, 0x80)], 1, [⟨0, 4, .rw, [0], .kept⟩]⟩,
  ⟨"FMX_PG_COUNT", 0x400E0114, [(8, 0x80)], 1, [⟨0, 32, .ro, [0], .kept⟩]⟩,
  ⟨"FMX_PG_ACT", 0x400E0140, [(8, 0x80), (16, 0x4)], 1, [⟨0, 3, .rwq, [0], .kept⟩, ⟨4, 3, .rwq, [0], .kept⟩, ⟨8, 3, .rwq, [0], .kept⟩, ⟨12, 3, .rwq, [0], .kept⟩, ⟨16, 3, .rwq, [0], .kept⟩, ⟨20, 3, .rwq, [0], .kept⟩, ⟨24, 3, .rwq, [0], .kept⟩, ⟨28, 3, .rwq, [0], .kept⟩]⟩]

/-- Registers of block LNE, from the register and field tables of spec/10_gate_lanes.md. -/
def regsLNE : List RegDesc := [
  ⟨"LNE_UP", 0x400F0000, [], 1, [⟨0, 12, .ro, [0], .reset⟩]⟩,
  ⟨"LNE_MUTE", 0x400F0004, [], 1, [⟨0, 12, .ro, [0], .reset⟩]⟩,
  ⟨"LNE_INT_SUM", 0x400F0008, [], 1, [⟨0, 12, .ro, [0], .reset⟩]⟩,
  ⟨"LNE_LN_CTL", 0x400F0100, [(12, 0x100)], 1, [⟨0, 1, .rwq, [0], .kept⟩, ⟨1, 1, .w1s, [0], .reset⟩]⟩,
  ⟨"LNE_LN_STAT", 0x400F0104, [(12, 0x100)], 1, [⟨0, 3, .ro, [0], .reset⟩, ⟨3, 1, .ro, [0], .reset⟩, ⟨4, 1, .ro, [0], .reset⟩, ⟨5, 3, .ro, [0], .reset⟩, ⟨8, 1, .ro, [0], .reset⟩, ⟨9, 1, .ro, [0], .reset⟩, ⟨10, 1, .ro, [0], .reset⟩, ⟨11, 1, .ro, [0], .reset⟩, ⟨12, 4, .ro, [0], .reset⟩, ⟨16, 4, .ro, [0], .reset⟩]⟩,
  ⟨"LNE_LN_INT_STAT", 0x400F0108, [(12, 0x100)], 1, [⟨0, 1, .w1c, [0], .reset⟩, ⟨1, 1, .w1c, [0], .reset⟩, ⟨2, 1, .w1c, [0], .reset⟩, ⟨3, 1, .w1c, [0], .reset⟩, ⟨4, 1, .w1c, [0], .reset⟩, ⟨5, 1, .w1c, [0], .reset⟩, ⟨6, 1, .w1c, [0], .reset⟩, ⟨7, 1, .w1c, [0], .reset⟩, ⟨8, 1, .w1c, [0], .reset⟩, ⟨9, 1, .w1c, [0], .reset⟩, ⟨10, 1, .w1c, [0], .reset⟩, ⟨11, 1, .w1c, [0], .reset⟩, ⟨12, 1, .w1c, [0], .reset⟩, ⟨13, 1, .w1c, [0], .reset⟩, ⟨14, 1, .w1c, [0], .reset⟩, ⟨15, 1, .w1c, [0], .reset⟩]⟩,
  ⟨"LNE_LN_INT_EN", 0x400F010C, [(12, 0x100)], 1, [⟨0, 16, .rw, [0], .kept⟩]⟩,
  ⟨"LNE_LN_LEAD", 0x400F0110, [(12, 0x100)], 1, [⟨0, 19, .rwq, [1000], .kept⟩]⟩,
  ⟨"LNE_LN_BLANK", 0x400F0114, [(12, 0x100)], 1, [⟨0, 11, .rwq, [250], .kept⟩]⟩,
  ⟨"LNE_LN_DELAY", 0x400F0118, [(12, 0x100)], 1, [⟨0, 12, .ro, [0], .reset⟩]⟩,
  ⟨"LNE_LN_SEQ", 0x400F011C, [(12, 0x100)], 1, [⟨0, 32, .ro, [0], .kept⟩]⟩,
  ⟨"LNE_LN_HSEQ", 0x400F0120, [(12, 0x100)], 1, [⟨0, 32, .ro, [0], .reset⟩]⟩,
  ⟨"LNE_LN_HSTAT", 0x400F0124, [(12, 0x100)], 1, [⟨0, 8, .ro, [0], .reset⟩, ⟨8, 8, .ro, [0], .reset⟩, ⟨16, 8, .ro, [0], .reset⟩]⟩,
  ⟨"LNE_LN_HCH", 0x400F0128, [(12, 0x100)], 1, [⟨0, 32, .ro, [0], .reset⟩]⟩,
  ⟨"LNE_LN_DESAT", 0x400F012C, [(12, 0x100)], 1, [⟨0, 4, .ro, [0], .kept⟩, ⟨8, 4, .ro, [0], .reset⟩, ⟨16, 8, .ro, [0], .kept⟩]⟩,
  ⟨"LNE_LN_DSCLR", 0x400F0130, [(12, 0x100)], 1, [⟨0, 4, .wo, [0], .reset⟩]⟩,
  ⟨"LNE_LN_DIAG_CMD", 0x400F0134, [(12, 0x100)], 1, [⟨0, 4, .wo, [0], .reset⟩, ⟨4, 8, .wo, [0], .reset⟩, ⟨31, 1, .wo, [0], .reset⟩]⟩,
  ⟨"LNE_LN_DIAG_WIN0", 0x400F0138, [(12, 0x100)], 1, [⟨0, 16, .rwq, [0], .kept⟩, ⟨16, 16, .rwq, [0], .kept⟩]⟩,
  ⟨"LNE_LN_DIAG_WIN1", 0x400F013C, [(12, 0x100)], 1, [⟨0, 16, .rwq, [0], .kept⟩]⟩,
  ⟨"LNE_LN_DIAG_RES", 0x400F0140, [(12, 0x100)], 1, [⟨0, 3, .ro, [0], .kept⟩, ⟨4, 3, .ro, [0], .kept⟩, ⟨8, 3, .ro, [0], .kept⟩, ⟨12, 3, .ro, [0], .kept⟩]⟩,
  ⟨"LNE_LN_DIAG_VAL0", 0x400F0144, [(12, 0x100)], 1, [⟨0, 16, .ro, [0], .kept⟩, ⟨16, 16, .ro, [0], .kept⟩]⟩,
  ⟨"LNE_LN_DIAG_VAL1", 0x400F0148, [(12, 0x100)], 1, [⟨0, 16, .ro, [0], .kept⟩, ⟨16, 16, .ro, [0], .kept⟩]⟩,
  ⟨"LNE_LN_CFG_CMD", 0x400F014C, [(12, 0x100)], 1, [⟨0, 8, .wo, [0], .reset⟩, ⟨8, 16, .wo, [0], .reset⟩, ⟨31, 1, .wo, [0], .reset⟩]⟩,
  ⟨"LNE_LN_HCFG", 0x400F0150, [(12, 0x100), (8, 0x4)], 1, [⟨0, 8, .rwq, [0], .kept⟩, ⟨8, 16, .rwq, [0], .kept⟩, ⟨31, 1, .rwq, [0], .kept⟩]⟩] ++ [
  ⟨"LNE_LN_COUNT0", 0x400F0170, [(12, 0x100)], 1, [⟨0, 16, .ro, [0], .reset⟩, ⟨16, 16, .ro, [0], .reset⟩]⟩,
  ⟨"LNE_LN_COUNT1", 0x400F0174, [(12, 0x100)], 1, [⟨0, 16, .ro, [0], .kept⟩, ⟨16, 16, .ro, [0], .kept⟩]⟩,
  ⟨"LNE_LN_MUX", 0x400F0180, [(12, 0x100), (8, 0x4)], 1, [⟨0, 16, .ro, [0], .reset⟩, ⟨16, 16, .ro, [0], .reset⟩]⟩]

/-- Registers of block NET, from the register and field tables of spec/11_network.md. -/
def regsNET : List RegDesc := [
  ⟨"NET_CTL", 0x40100000, [], 1, [⟨0, 1, .rwq, [0], .kept⟩, ⟨1, 1, .rwq, [0], .kept⟩, ⟨2, 1, .rwq, [1], .kept⟩, ⟨3, 1, .rwq, [0], .kept⟩, ⟨4, 1, .rwq, [0], .kept⟩]⟩,
  ⟨"NET_STAT", 0x40100004, [], 1, [⟨0, 5, .ro, [0], .reset⟩]⟩,
  ⟨"NET_INT_STAT", 0x40100008, [], 1, [⟨0, 1, .w1c, [0], .reset⟩, ⟨1, 1, .w1c, [0], .reset⟩, ⟨2, 1, .w1c, [0], .reset⟩, ⟨3, 1, .w1c, [0], .reset⟩, ⟨4, 1, .w1c, [0], .reset⟩, ⟨5, 1, .w1c, [0], .reset⟩, ⟨6, 1, .w1c, [0], .reset⟩, ⟨7, 1, .w1c, [0], .reset⟩, ⟨8, 1, .w1c, [0], .reset⟩, ⟨9, 1, .w1c, [0], .reset⟩, ⟨10, 1, .w1c, [0], .reset⟩, ⟨11, 1, .w1c, [0], .reset⟩, ⟨12, 1, .w1c, [0], .reset⟩, ⟨13, 1, .w1c, [0], .reset⟩, ⟨14, 1, .w1c, [0], .reset⟩]⟩,
  ⟨"NET_INT_EN", 0x4010000C, [], 1, [⟨0, 15, .rw, [0], .kept⟩]⟩,
  ⟨"NET_DEVMAC_LO", 0x40100010, [], 1, [⟨0, 32, .rwq, [3489663488], .kept⟩]⟩,
  ⟨"NET_DEVMAC_HI", 0x40100014, [], 1, [⟨0, 16, .rwq, [679], .kept⟩]⟩,
  ⟨"NET_PAIRMAC_LO", 0x40100018, [], 1, [⟨0, 32, .rwq, [3489660928], .kept⟩]⟩,
  ⟨"NET_PAIRMAC_HI", 0x4010001C, [], 1, [⟨0, 16, .rwq, [679], .kept⟩]⟩,
  ⟨"NET_PCP_MAP", 0x40100020, [], 1, [⟨0, 16, .rwq, [64080], .kept⟩, ⟨16, 3, .rwq, [0], .kept⟩]⟩,
  ⟨"NET_MC_HASH0", 0x40100024, [], 1, [⟨0, 32, .rwq, [0], .kept⟩]⟩,
  ⟨"NET_MC_HASH1", 0x40100028, [], 1, [⟨0, 32, .rwq, [0], .kept⟩]⟩,
  ⟨"NET_PRP_CFG", 0x40100030, [], 1, [⟨0, 16, .rwq, [400], .kept⟩]⟩,
  ⟨"NET_PRP_SEQ", 0x40100034, [], 1, [⟨0, 16, .ro, [0], .kept⟩, ⟨16, 16, .ro, [0], .kept⟩]⟩,
  ⟨"NET_PRP_DUP", 0x40100038, [], 1, [⟨0, 32, .ro, [0], .kept⟩]⟩,
  ⟨"NET_PRP_NONPRP", 0x4010003C, [], 1, [⟨0, 32, .ro, [0], .kept⟩]⟩,
  ⟨"NET_PRP_WRONGLAN", 0x40100040, [], 1, [⟨0, 32, .ro, [0], .kept⟩]⟩,
  ⟨"NET_PRP_DDOVF", 0x40100044, [], 1, [⟨0, 32, .ro, [0], .kept⟩]⟩,
  ⟨"NET_BADVND", 0x40100048, [], 1, [⟨0, 32, .ro, [0], .kept⟩]⟩,
  ⟨"NET_P_CTL", 0x40100100, [(5, 0x40)], 1, [⟨0, 1, .rwq, [1], .kept⟩, ⟨1, 1, .rwq, [1], .kept⟩]⟩,
  ⟨"NET_P_STAT", 0x40100104, [(5, 0x40)], 1, [⟨0, 1, .ro, [0], .reset⟩, ⟨1, 1, .ro, [0], .reset⟩]⟩,
  ⟨"NET_P_RX_OK", 0x40100108, [(5, 0x40)], 1, [⟨0, 32, .ro, [0], .kept⟩]⟩,
  ⟨"NET_P_TX_OK", 0x4010010C, [(5, 0x40)], 1, [⟨0, 32, .ro, [0], .kept⟩]⟩,
  ⟨"NET_P_CNT", 0x40100110, [(5, 0x40), (4, 0x4)], 1, [⟨0, 16, .ro, [0], .kept⟩, ⟨16, 16, .ro, [0], .kept⟩]⟩,
  ⟨"NET_P_BUF", 0x40100120, [(5, 0x40)], 1, [⟨0, 11, .ro, [0], .reset⟩, ⟨16, 10, .ro, [0], .reset⟩]⟩] ++ [
  ⟨"NET_H_RXBASE", 0x40100400, [(2, 0x40)], 1, [⟨4, 28, .rw, [0], .kept⟩]⟩,
  ⟨"NET_H_RXCFG", 0x40100404, [(2, 0x40)], 1, [⟨0, 4, .rw, [0], .kept⟩, ⟨16, 10, .ro, [0], .reset⟩]⟩,
  ⟨"NET_H_TXBASE", 0x40100408, [(2, 0x40)], 1, [⟨4, 28, .rw, [0], .kept⟩]⟩,
  ⟨"NET_H_TXCFG", 0x4010040C, [(2, 0x40)], 1, [⟨0, 4, .rw, [0], .kept⟩, ⟨16, 10, .ro, [0], .reset⟩]⟩,
  ⟨"NET_H_TXKICK", 0x40100410, [(2, 0x40)], 1, [⟨0, 1, .wo, [0], .reset⟩]⟩,
  ⟨"NET_H_RXDROP", 0x40100414, [(2, 0x40)], 1, [⟨0, 32, .ro, [0], .kept⟩]⟩,
  ⟨"NET_RXF_CFG", 0x40100800, [(16, 0x10)], 1, [⟨0, 1, .rwq, [0], .kept⟩, ⟨16, 16, .rwq, [0], .kept⟩]⟩,
  ⟨"NET_RXF_SLOT", 0x40100804, [(16, 0x10)], 1, [⟨0, 14, .rwq, [0], .kept⟩]⟩,
  ⟨"NET_RXF_COUNT", 0x40100808, [(16, 0x10)], 1, [⟨0, 32, .ro, [0], .kept⟩]⟩,
  ⟨"NET_TXS_CFG", 0x40100A00, [(16, 0x20)], 1, [⟨0, 1, .rwq, [0], .kept⟩, ⟨1, 3, .rwq, [0], .kept⟩, ⟨4, 12, .rwq, [0], .kept⟩, ⟨16, 16, .rwq, [0], .kept⟩]⟩,
  ⟨"NET_TXS_SLOT", 0x40100A04, [(16, 0x20)], 1, [⟨0, 14, .rwq, [0], .kept⟩]⟩,
  ⟨"NET_TXS_DA_LO", 0x40100A08, [(16, 0x20)], 1, [⟨0, 32, .rwq, [0], .kept⟩]⟩,
  ⟨"NET_TXS_DA_HI", 0x40100A0C, [(16, 0x20)], 1, [⟨0, 16, .rwq, [0], .kept⟩]⟩,
  ⟨"NET_TXS_COUNT", 0x40100A10, [(16, 0x20)], 1, [⟨0, 16, .ro, [0], .kept⟩, ⟨16, 16, .ro, [0], .kept⟩]⟩,
  ⟨"NET_CMN_CFG", 0x40101000, [], 1, [⟨0, 16, .rwq, [200], .kept⟩, ⟨16, 16, .rwq, [20], .kept⟩]⟩,
  ⟨"NET_CMN_STAT", 0x40101004, [], 1, [⟨0, 10, .ro, [0], .reset⟩, ⟨10, 1, .ro, [0], .reset⟩, ⟨12, 3, .ro, [0], .reset⟩, ⟨16, 10, .ro, [0], .kept⟩]⟩,
  ⟨"NET_CMN_CMD", 0x40101008, [], 1, [⟨0, 10, .wo, [0], .reset⟩, ⟨16, 3, .wo, [0], .reset⟩]⟩,
  ⟨"NET_CMN_GEN", 0x4010100C, [], 1, [⟨0, 32, .ro, [0], .reset⟩]⟩,
  ⟨"NET_CMN_KEY_LO", 0x40101010, [], 1, [⟨0, 32, .rw, [0], .reset⟩]⟩,
  ⟨"NET_CMN_KEY_HI", 0x40101014, [], 1, [⟨0, 16, .rw, [0], .reset⟩]⟩,
  ⟨"NET_CMN_EVICT", 0x40101018, [], 1, [⟨0, 32, .ro, [0], .kept⟩]⟩,
  ⟨"NET_CMN_REFUSED", 0x4010101C, [], 1, [⟨0, 32, .ro, [0], .kept⟩]⟩,
  ⟨"NET_CMN_W", 0x40101040, [(12, 0x4)], 1, [⟨0, 32, .ro, [0], .reset⟩]⟩,
  ⟨"NET_BCN_STATUS", 0x40101080, [], 1, [⟨0, 32, .rw, [0], .kept⟩]⟩] ++ [
  ⟨"NET_BCN_USER", 0x40101084, [(4, 0x4)], 1, [⟨0, 32, .rw, [0], .kept⟩]⟩]

/-- Registers of block TSU, from the register and field tables of spec/12_time.md. -/
def regsTSU : List RegDesc := [
  ⟨"TSU_CTL", 0x40110000, [], 1, [⟨0, 1, .rwq, [1], .kept⟩, ⟨1, 1, .rwq, [0], .kept⟩, ⟨2, 1, .rwq, [1], .kept⟩, ⟨3, 1, .rw, [0], .reset⟩, ⟨4, 1, .rwq, [1], .kept⟩]⟩,
  ⟨"TSU_STAT", 0x40110004, [], 1, [⟨0, 1, .ro, [0], .kept⟩, ⟨1, 1, .ro, [0], .reset⟩, ⟨2, 1, .ro, [0], .reset⟩, ⟨3, 1, .ro, [0], .kept⟩, ⟨4, 1, .ro, [0], .reset⟩, ⟨16, 16, .ro, [0], .kept⟩]⟩,
  ⟨"TSU_INT_STAT", 0x40110008, [], 1, [⟨0, 1, .w1c, [0], .reset⟩, ⟨1, 1, .w1c, [0], .reset⟩, ⟨2, 1, .w1c, [0], .reset⟩, ⟨3, 1, .w1c, [0], .reset⟩, ⟨4, 1, .w1c, [0], .reset⟩, ⟨5, 1, .w1c, [0], .reset⟩, ⟨6, 1, .w1c, [0], .reset⟩, ⟨7, 1, .w1c, [0], .reset⟩, ⟨8, 1, .w1c, [0], .reset⟩, ⟨9, 1, .w1c, [0], .reset⟩, ⟨10, 1, .w1c, [0], .reset⟩, ⟨11, 1, .w1c, [0], .reset⟩, ⟨12, 1, .w1c, [0], .reset⟩]⟩,
  ⟨"TSU_INT_EN", 0x4011000C, [], 1, [⟨0, 13, .rw, [0], .kept⟩]⟩,
  ⟨"TSU_SLEW", 0x40110010, [], 1, [⟨0, 8, .rwq, [200], .kept⟩, ⟨16, 16, .rwq, [1], .kept⟩]⟩,
  ⟨"TSU_EPOCH", 0x40110014, [], 1, [⟨0, 32, .rwq, [1577836800], .kept⟩]⟩,
  ⟨"TSU_RATE", 0x40110018, [], 1, [⟨0, 32, .ro, [0], .kept⟩]⟩,
  ⟨"TSU_TT_FIRED", 0x40110020, [], 1, [⟨0, 16, .w1c, [0], .reset⟩]⟩,
  ⟨"TSU_TT_LATE", 0x40110024, [], 1, [⟨0, 16, .w1c, [0], .reset⟩]⟩,
  ⟨"TSU_TD_CFG", 0x40110100, [(2, 0x80)], 1, [⟨0, 1, .rwq, [1, 0], .kept⟩, ⟨1, 1, .rwq, [0, 1], .kept⟩, ⟨8, 8, .rwq, [0, 254], .kept⟩]⟩,
  ⟨"TSU_TD_SERVO", 0x40110104, [(2, 0x80)], 1, [⟨0, 8, .rwq, [128], .kept⟩, ⟨8, 8, .rwq, [16], .kept⟩, ⟨16, 8, .rwq, [100], .kept⟩, ⟨24, 8, .rwq, [125], .kept⟩]⟩,
  ⟨"TSU_TD_STAT", 0x40110108, [(2, 0x80)], 1, [⟨0, 3, .ro, [0], .reset⟩, ⟨3, 2, .ro, [0], .reset⟩, ⟨5, 1, .ro, [0], .reset⟩, ⟨8, 8, .ro, [0], .reset⟩, ⟨16, 8, .ro, [0], .reset⟩]⟩,
  ⟨"TSU_TD_OFFSET", 0x40110110, [(2, 0x80)], 2, [⟨0, 64, .ro, [0], .reset⟩]⟩,
  ⟨"TSU_TD_RATE", 0x40110118, [(2, 0x80)], 1, [⟨0, 32, .ro, [0], .kept⟩]⟩,
  ⟨"TSU_TD_UTC", 0x4011011C, [(2, 0x80)], 1, [⟨0, 16, .ro, [0], .reset⟩, ⟨16, 1, .ro, [0], .reset⟩, ⟨17, 1, .ro, [0], .reset⟩, ⟨18, 1, .ro, [0], .reset⟩]⟩,
  ⟨"TSU_TD_GMID", 0x40110120, [(2, 0x80)], 2, [⟨0, 64, .ro, [0], .reset⟩]⟩,
  ⟨"TSU_TD_ALTOFF", 0x40110128, [(2, 0x80)], 1, [⟨0, 32, .ro, [0], .reset⟩]⟩,
  ⟨"TSU_TD_CNT", 0x4011012C, [(2, 0x80)], 1, [⟨0, 16, .ro, [0], .reset⟩, ⟨16, 16, .ro, [0], .kept⟩]⟩,
  ⟨"TSU_TD_GMTTI", 0x40110130, [(2, 0x80)], 1, [⟨0, 32, .ro, [0], .reset⟩]⟩,
  ⟨"TSU_P_CFG", 0x40110400, [(4, 0x20)], 1, [⟨0, 1, .rwq, [1], .kept⟩, ⟨4, 4, .rwq, [0], .kept⟩, ⟨8, 3, .rwq, [4], .kept⟩]⟩,
  ⟨"TSU_P_ADJ", 0x40110404, [(4, 0x20)], 1, [⟨0, 16, .rwq, [0], .kept⟩, ⟨16, 16, .rwq, [0], .kept⟩]⟩,
  ⟨"TSU_P_ASYM", 0x40110408, [(4, 0x20)], 1, [⟨0, 32, .rwq, [0], .kept⟩]⟩,
  ⟨"TSU_P_LDLY", 0x4011040C, [(4, 0x20)], 1, [⟨0, 24, .ro, [0], .reset⟩, ⟨31, 1, .ro, [0], .reset⟩]⟩,
  ⟨"TSU_P_CNT0", 0x40110410, [(4, 0x20)], 1, [⟨0, 16, .ro, [0], .kept⟩, ⟨16, 16, .ro, [0], .kept⟩]⟩] ++ [
  ⟨"TSU_P_CNT1", 0x40110414, [(4, 0x20)], 1, [⟨0, 16, .ro, [0], .kept⟩, ⟨16, 16, .ro, [0], .kept⟩]⟩,
  ⟨"TSU_TT_CTL", 0x40110800, [(16, 0x20)], 1, [⟨0, 1, .rw, [0], .kept⟩]⟩,
  ⟨"TSU_TT_START", 0x40110808, [(16, 0x20)], 2, [⟨0, 64, .rw, [0], .kept⟩]⟩,
  ⟨"TSU_TT_PERIOD", 0x40110810, [(16, 0x20)], 2, [⟨0, 48, .rw, [0], .kept⟩]⟩,
  ⟨"TSU_TTN_FIRED", 0x40110818, [(16, 0x20)], 1, [⟨0, 32, .ro, [0], .kept⟩]⟩,
  ⟨"TSU_TT_SKIP", 0x4011081C, [(16, 0x20)], 1, [⟨0, 32, .ro, [0], .kept⟩]⟩]

/-- Registers of block TWN, from the register and field tables of spec/13_twin.md. -/
def regsTWN : List RegDesc := [
  ⟨"TWN_CTL", 0x40120000, [], 1, [⟨0, 1, .rw, [0], .kept⟩, ⟨1, 1, .rw, [1], .kept⟩, ⟨2, 1, .rw, [1], .kept⟩]⟩,
  ⟨"TWN_CFG", 0x40120004, [], 1, [⟨0, 12, .rw, [1200], .kept⟩, ⟨16, 16, .rw, [4000], .kept⟩]⟩,
  ⟨"TWN_HOLDOFF", 0x40120008, [], 1, [⟨0, 12, .rw, [60], .kept⟩]⟩,
  ⟨"TWN_TBLIM", 0x4012000C, [], 1, [⟨0, 4, .rw, [10], .kept⟩, ⟨8, 20, .rw, [41943], .kept⟩, ⟨28, 4, .rw, [8], .kept⟩]⟩,
  ⟨"TWN_STAT", 0x40120010, [], 1, [⟨0, 3, .ro, [0], .reset⟩, ⟨3, 1, .ro, [0], .reset⟩, ⟨4, 1, .ro, [0], .kept⟩, ⟨5, 2, .ro, [0], .reset⟩, ⟨7, 1, .ro, [0], .reset⟩, ⟨8, 3, .ro, [0], .reset⟩, ⟨11, 3, .ro, [0], .reset⟩]⟩,
  ⟨"TWN_INT_STAT", 0x40120014, [], 1, [⟨0, 1, .w1c, [0], .reset⟩, ⟨1, 1, .w1c, [0], .reset⟩, ⟨2, 1, .w1c, [0], .reset⟩, ⟨3, 1, .w1c, [0], .reset⟩, ⟨4, 1, .w1c, [0], .reset⟩, ⟨5, 1, .w1c, [0], .reset⟩, ⟨6, 1, .w1c, [0], .reset⟩, ⟨7, 1, .w1c, [0], .reset⟩, ⟨8, 1, .w1c, [0], .reset⟩, ⟨9, 1, .w1c, [0], .reset⟩, ⟨10, 1, .w1c, [0], .reset⟩, ⟨11, 1, .w1c, [0], .reset⟩, ⟨12, 1, .w1c, [0], .reset⟩, ⟨13, 1, .w1c, [0], .reset⟩]⟩,
  ⟨"TWN_INT_EN", 0x40120018, [], 1, [⟨0, 14, .rw, [0], .kept⟩]⟩,
  ⟨"TWN_CMD", 0x4012001C, [], 1, [⟨0, 1, .wo, [0], .reset⟩, ⟨1, 1, .wo, [0], .reset⟩, ⟨2, 1, .wo, [0], .reset⟩]⟩,
  ⟨"TWN_JOIN", 0x40120020, [], 1, [⟨0, 4, .ro, [0], .reset⟩, ⟨4, 1, .ro, [0], .reset⟩, ⟨16, 16, .ro, [0], .reset⟩]⟩,
  ⟨"TWN_TBDIFF", 0x40120024, [], 1, [⟨0, 32, .ro, [0], .reset⟩]⟩,
  ⟨"TWN_HEALTH", 0x40120028, [], 1, [⟨0, 1, .ro, [0], .reset⟩, ⟨8, 8, .ro, [0], .reset⟩, ⟨16, 1, .ro, [0], .reset⟩, ⟨24, 8, .ro, [0], .reset⟩]⟩,
  ⟨"TWN_SHEETS", 0x4012002C, [], 1, [⟨0, 8, .ro, [0], .reset⟩, ⟨8, 8, .ro, [0], .reset⟩, ⟨16, 8, .ro, [0], .reset⟩, ⟨24, 8, .ro, [0], .reset⟩]⟩,
  ⟨"TWN_CNT0", 0x40120030, [], 1, [⟨0, 16, .ro, [0], .kept⟩, ⟨16, 16, .ro, [0], .kept⟩]⟩,
  ⟨"TWN_CNT1", 0x40120034, [], 1, [⟨0, 16, .ro, [0], .kept⟩, ⟨16, 16, .ro, [0], .kept⟩]⟩,
  ⟨"TWN_CNT2", 0x40120038, [], 1, [⟨0, 16, .ro, [0], .kept⟩, ⟨16, 16, .ro, [0], .kept⟩]⟩,
  ⟨"TWN_HOLDOFF_LEFT", 0x4012003C, [], 1, [⟨0, 12, .ro, [0], .reset⟩]⟩,
  ⟨"TWN_XFLAG", 0x40120040, [], 1, [⟨0, 32, .w1c, [0], .reset⟩]⟩,
  ⟨"TWN_CE_SIG", 0x40120100, [(8, 0x10)], 1, [⟨0, 32, .ro, [0], .reset⟩]⟩,
  ⟨"TWN_CE_PSIG", 0x40120104, [(8, 0x10)], 1, [⟨0, 32, .ro, [0], .reset⟩]⟩,
  ⟨"TWN_CE_DIVRUN", 0x40120108, [(8, 0x10)], 1, [⟨0, 32, .ro, [0], .kept⟩]⟩,
  ⟨"TWN_CE_CHK", 0x4012010C, [(8, 0x10)], 1, [⟨0, 16, .ro, [0], .kept⟩, ⟨16, 16, .ro, [0], .reset⟩]⟩]

/-- Registers of block WCH, from the register and field tables of spec/14_watch_island.md. -/
def regsWCH : List RegDesc := [
  ⟨"WCH_ID", 0x40130000, [], 1, [⟨0, 16, .ro, [0], .kept⟩, ⟨16, 2, .ro, [0], .kept⟩]⟩,
  ⟨"WCH_STAT", 0x40130004, [], 1, [⟨0, 8, .ro, [0], .kept⟩, ⟨8, 3, .ro, [0], .kept⟩, ⟨11, 1, .ro, [0], .kept⟩, ⟨12, 1, .ro, [0], .kept⟩, ⟨16, 8, .ro, [0], .kept⟩]⟩,
  ⟨"WCH_INT_STAT", 0x40130008, [], 1, [⟨0, 1, .w1c, [0], .reset⟩, ⟨1, 1, .w1c, [0], .reset⟩, ⟨2, 1, .w1c, [0], .reset⟩, ⟨3, 1, .w1c, [0], .reset⟩, ⟨4, 1, .w1c, [0], .reset⟩, ⟨5, 1, .w1c, [0], .reset⟩, ⟨6, 1, .w1c, [0], .reset⟩, ⟨7, 1, .w1c, [0], .reset⟩, ⟨8, 1, .w1c, [0], .reset⟩, ⟨9, 1, .w1c, [0], .reset⟩, ⟨10, 1, .w1c, [0], .reset⟩, ⟨11, 1, .w1c, [0], .reset⟩]⟩,
  ⟨"WCH_INT_EN", 0x4013000C, [], 1, [⟨0, 12, .rw, [0], .kept⟩]⟩,
  ⟨"WCH_IN", 0x40130010, [], 1, [⟨0, 8, .ro, [0], .kept⟩, ⟨8, 8, .ro, [0], .kept⟩]⟩,
  ⟨"WCH_PAIR", 0x40130014, [], 1, [⟨0, 1, .ro, [0], .kept⟩, ⟨1, 1, .ro, [0], .kept⟩, ⟨2, 1, .ro, [0], .kept⟩, ⟨3, 1, .ro, [0], .kept⟩, ⟨4, 1, .ro, [0], .kept⟩, ⟨5, 1, .ro, [0], .kept⟩, ⟨6, 1, .ro, [0], .kept⟩, ⟨7, 1, .ro, [0], .kept⟩, ⟨8, 1, .ro, [0], .kept⟩, ⟨9, 1, .ro, [0], .kept⟩, ⟨10, 1, .ro, [0], .kept⟩, ⟨11, 1, .ro, [0], .kept⟩, ⟨12, 1, .ro, [0], .kept⟩, ⟨13, 1, .ro, [0], .kept⟩, ⟨14, 1, .ro, [0], .kept⟩, ⟨15, 1, .ro, [0], .kept⟩, ⟨16, 16, .ro, [0], .kept⟩]⟩,
  ⟨"WCH_SO", 0x40130018, [], 1, [⟨0, 1, .ro, [0], .kept⟩, ⟨1, 1, .ro, [0], .kept⟩, ⟨2, 1, .ro, [0], .kept⟩, ⟨3, 1, .ro, [0], .kept⟩, ⟨4, 1, .ro, [0], .kept⟩, ⟨5, 1, .ro, [0], .kept⟩, ⟨6, 1, .ro, [0], .kept⟩, ⟨7, 1, .ro, [0], .kept⟩, ⟨8, 1, .ro, [0], .kept⟩, ⟨9, 1, .ro, [0], .kept⟩, ⟨10, 1, .ro, [0], .kept⟩, ⟨11, 1, .ro, [0], .kept⟩, ⟨12, 1, .ro, [0], .kept⟩, ⟨13, 1, .ro, [0], .kept⟩, ⟨14, 1, .ro, [0], .kept⟩, ⟨15, 1, .ro, [0], .kept⟩, ⟨16, 4, .ro, [0], .kept⟩]⟩,
  ⟨"WCH_SREQ", 0x4013001C, [], 1, [⟨0, 4, .w1s, [0], .kept⟩]⟩,
  ⟨"WCH_SRST", 0x40130020, [], 1, [⟨0, 16, .ro, [0], .kept⟩, ⟨16, 8, .ro, [0], .kept⟩, ⟨24, 1, .ro, [0], .kept⟩, ⟨25, 1, .ro, [0], .kept⟩]⟩,
  ⟨"WCH_FAULT", 0x40130024, [], 1, [⟨0, 1, .ro, [0], .kept⟩, ⟨1, 1, .ro, [0], .kept⟩, ⟨2, 1, .ro, [0], .kept⟩, ⟨3, 1, .ro, [0], .kept⟩, ⟨4, 1, .ro, [0], .kept⟩, ⟨5, 1, .ro, [0], .kept⟩, ⟨8, 1, .ro, [0], .kept⟩, ⟨9, 1, .ro, [0], .kept⟩, ⟨10, 1, .ro, [0], .kept⟩, ⟨11, 1, .ro, [0], .kept⟩]⟩,
  ⟨"WCH_PSCMD", 0x40130028, [], 1, [⟨0, 2, .rws, [0], .reset⟩]⟩,
  ⟨"WCH_PSSTAT", 0x4013002C, [], 1, [⟨0, 1, .ro, [0], .reset⟩, ⟨1, 3, .ro, [0], .kept⟩, ⟨16, 10, .ro, [0], .kept⟩]⟩,
  ⟨"WCH_PSCRC", 0x40130030, [], 1, [⟨0, 32, .rws, [0], .kept⟩]⟩,
  ⟨"WCH_PSACT", 0x40130034, [], 1, [⟨0, 32, .ro, [0], .kept⟩]⟩,
  ⟨"WCH_RX_STAT", 0x40130100, [(8, 0x10)], 1, [⟨0, 2, .ro, [0], .kept⟩, ⟨2, 1, .ro, [0], .kept⟩, ⟨3, 1, .ro, [0], .kept⟩, ⟨4, 1, .ro, [0], .kept⟩, ⟨16, 16, .ro, [0], .kept⟩]⟩,
  ⟨"WCH_RX_DATA", 0x40130104, [(8, 0x10)], 1, [⟨0, 32, .ro, [0], .kept⟩]⟩,
  ⟨"WCH_RX_CNT0", 0x40130108, [(8, 0x10)], 1, [⟨0, 16, .ro, [0], .kept⟩, ⟨16, 16, .ro, [0], .kept⟩]⟩,
  ⟨"WCH_RX_CNT1", 0x4013010C, [(8, 0x10)], 1, [⟨0, 8, .ro, [0], .kept⟩, ⟨8, 8, .ro, [0], .kept⟩, ⟨16, 8, .ro, [0], .kept⟩, ⟨24, 8, .ro, [0], .kept⟩]⟩,
  ⟨"WCH_TX_STAT", 0x40130200, [(8, 0x8)], 1, [⟨0, 2, .ro, [0], .kept⟩, ⟨16, 16, .ro, [0], .kept⟩]⟩,
  ⟨"WCH_TX_CNT", 0x40130204, [(8, 0x8)], 1, [⟨0, 32, .ro, [0], .kept⟩]⟩,
  ⟨"WCH_PSWIN", 0x40131000, [(256, 0x4)], 1, [⟨0, 32, .rws, [0], .kept⟩]⟩]

/-- Registers of block LDG, from the register and field tables of spec/18_ledger.md. -/
def regsLDG : List RegDesc := [
  ⟨"LDG_CTL", 0x40140000, [], 1, [⟨0, 1, .rwq, [0], .kept⟩]⟩,
  ⟨"LDG_STAT", 0x40140004, [], 1, [⟨0, 7, .ro, [0], .reset⟩, ⟨7, 1, .ro, [0], .reset⟩, ⟨8, 1, .ro, [0], .kept⟩, ⟨9, 1, .ro, [0], .kept⟩, ⟨10, 1, .ro, [0], .reset⟩]⟩,
  ⟨"LDG_INT_STAT", 0x40140008, [], 1, [⟨0, 1, .w1c, [0], .reset⟩, ⟨1, 1, .w1c, [0], .reset⟩, ⟨2, 1, .w1c, [0], .reset⟩, ⟨3, 1, .w1c, [0], .reset⟩, ⟨4, 1, .w1c, [0], .reset⟩]⟩,
  ⟨"LDG_INT_EN", 0x4014000C, [], 1, [⟨0, 5, .rw, [0], .kept⟩]⟩,
  ⟨"LDG_CLR", 0x40140010, [], 1, [⟨0, 4, .rws, [0], .reset⟩, ⟨4, 1, .rws, [0], .reset⟩]⟩,
  ⟨"LDG_FAILPOS", 0x40140014, [], 1, [⟨0, 32, .ro, [0], .kept⟩]⟩,
  ⟨"LDG_RING_CFG", 0x40140040, [(4, 0x10)], 1, [⟨0, 11, .rwq, [128, 384, 512, 384], .kept⟩]⟩,
  ⟨"LDG_RING_HEAD", 0x40140044, [(4, 0x10)], 1, [⟨0, 21, .ro, [0], .kept⟩]⟩,
  ⟨"LDG_RING_GEN", 0x40140048, [(4, 0x10)], 1, [⟨0, 32, .ro, [0], .kept⟩]⟩,
  ⟨"LDG_RING_DROPS", 0x4014004C, [(4, 0x10)], 1, [⟨0, 32, .ro, [0], .kept⟩]⟩,
  ⟨"LDG_RP_CUR", 0x40140100, [(4, 0x80)], 1, [⟨0, 21, .rw, [0], .reset⟩, ⟨21, 3, .rw, [0], .reset⟩]⟩,
  ⟨"LDG_RP_GEN", 0x40140104, [(4, 0x80)], 1, [⟨0, 32, .rw, [0], .reset⟩]⟩,
  ⟨"LDG_RP_CMD", 0x40140108, [(4, 0x80)], 1, [⟨0, 3, .wo, [0], .reset⟩, ⟨3, 1, .wo, [0], .reset⟩]⟩,
  ⟨"LDG_RP_STAT", 0x4014010C, [(4, 0x80)], 1, [⟨0, 1, .ro, [0], .reset⟩, ⟨1, 1, .ro, [0], .reset⟩, ⟨2, 1, .ro, [0], .reset⟩, ⟨3, 1, .ro, [0], .reset⟩]⟩,
  ⟨"LDG_RP_LOST", 0x40140110, [(4, 0x80)], 1, [⟨0, 32, .ro, [0], .reset⟩]⟩,
  ⟨"LDG_RP_WIN", 0x40140140, [(4, 0x80), (16, 0x4)], 1, [⟨0, 32, .ro, [0], .reset⟩]⟩,
  ⟨"LDG_POST_HDR", 0x40140400, [], 1, [⟨0, 8, .rw, [0], .reset⟩, ⟨8, 4, .rw, [0], .reset⟩, ⟨12, 2, .rw, [0], .reset⟩, ⟨16, 8, .rw, [0], .reset⟩]⟩,
  ⟨"LDG_POST_CMD", 0x40140404, [], 1, [⟨0, 1, .wo, [0], .reset⟩]⟩,
  ⟨"LDG_POST_DATA", 0x40140420, [(10, 0x4)], 1, [⟨0, 32, .rw, [0], .reset⟩]⟩]

/-- Registers of block HLT, from the register and field tables of spec/19_health_service.md. -/
def regsHLT : List RegDesc := [
  ⟨"HLT_CFG", 0x40150000, [], 1, [⟨0, 10, .rwq, [100], .kept⟩]⟩,
  ⟨"HLT_REPLACE", 0x40150004, [], 1, [⟨0, 16, .ro, [0], .kept⟩, ⟨16, 4, .ro, [0], .kept⟩]⟩,
  ⟨"HLT_INT_STAT", 0x40150008, [], 1, [⟨0, 1, .w1c, [0], .reset⟩, ⟨1, 1, .w1c, [0], .reset⟩, ⟨2, 1, .w1c, [0], .reset⟩, ⟨3, 1, .w1c, [0], .reset⟩]⟩,
  ⟨"HLT_INT_EN", 0x4015000C, [], 1, [⟨0, 4, .rw, [0], .kept⟩]⟩,
  ⟨"HLT_CMD", 0x40150010, [], 1, [⟨0, 1, .wo, [0], .reset⟩]⟩,
  ⟨"HLT_TEST", 0x40150014, [], 1, [⟨0, 8, .ro, [0], .reset⟩, ⟨16, 16, .ro, [0], .kept⟩]⟩,
  ⟨"HLT_SCREEN", 0x40150018, [], 1, [⟨0, 32, .ro, [0], .kept⟩]⟩,
  ⟨"HLT_TEMP", 0x4015001C, [], 1, [⟨0, 16, .ro, [0], .reset⟩]⟩,
  ⟨"HLT_LIFE", 0x40150020, [], 1, [⟨0, 32, .ro, [0], .kept⟩]⟩,
  ⟨"HLT_FW_CMD", 0x40150030, [], 1, [⟨0, 2, .wo, [0], .reset⟩, ⟨8, 1, .wo, [0], .reset⟩]⟩,
  ⟨"HLT_FW_STAT", 0x40150034, [], 1, [⟨0, 1, .ro, [0], .reset⟩, ⟨4, 4, .ro, [0], .reset⟩]⟩,
  ⟨"HLT_FW_STAGE_BASE", 0x40150038, [], 1, [⟨4, 28, .rw, [0], .kept⟩]⟩,
  ⟨"HLT_FW_STAGE_LEN", 0x4015003C, [], 1, [⟨0, 25, .rw, [0], .kept⟩]⟩]

/-- Registers of block IRQ, from the register and field tables of spec/22_address_map.md. -/
def regsIRQ : List RegDesc := [
  ⟨"IRQ_ASSERT", 0x40160000, [(8, 0x4)], 1, [⟨0, 32, .ro, [0], .reset⟩]⟩,
  ⟨"IRQ_SOFT", 0x40160020, [], 1, [⟨0, 8, .rw, [0], .kept⟩]⟩,
  ⟨"IRQ_SRC_CFG", 0x40160400, [(256, 0x4)], 1, [⟨0, 4, .rw, [0], .kept⟩, ⟨8, 4, .rw, [0], .kept⟩, ⟨16, 1, .ro, [0], .reset⟩, ⟨17, 2, .ro, [0], .reset⟩]⟩,
  ⟨"IRQ_C_THRESH", 0x40161000, [(4, 0x10)], 1, [⟨0, 4, .rw, [0], .kept⟩]⟩,
  ⟨"IRQ_C_CLAIM", 0x40161004, [(4, 0x10)], 1, [⟨0, 8, .rw, [0], .reset⟩]⟩]

/-- Registers of block PIN, from the register and field tables of spec/20_package_pins.md. -/
def regsPIN : List RegDesc := [
  ⟨"PIN_GPIO_IN", 0x40170000, [], 1, [⟨0, 24, .ro, [0], .reset⟩]⟩,
  ⟨"PIN_GPIO_OUT", 0x40170004, [], 1, [⟨0, 24, .rw, [0], .kept⟩]⟩,
  ⟨"PIN_GPIO_OUT_SET", 0x40170008, [], 1, [⟨0, 24, .w1s, [0], .kept⟩]⟩,
  ⟨"PIN_GPIO_OUT_CLR", 0x4017000C, [], 1, [⟨0, 24, .w1c, [0], .kept⟩]⟩,
  ⟨"PIN_GPIO_OE", 0x40170010, [], 1, [⟨0, 24, .rw, [0], .kept⟩]⟩,
  ⟨"PIN_GPIO_INT_STAT", 0x40170014, [], 1, [⟨0, 24, .w1c, [0], .reset⟩]⟩,
  ⟨"PIN_GPIO_INT_EN", 0x40170018, [], 1, [⟨0, 24, .rw, [0], .kept⟩]⟩,
  ⟨"PIN_STATUS_CFG", 0x40170020, [], 1, [⟨0, 8, .rw, [255], .kept⟩, ⟨8, 1, .rw, [1], .kept⟩]⟩,
  ⟨"PIN_STATUS", 0x40170024, [], 1, [⟨0, 1, .ro, [0], .reset⟩, ⟨1, 1, .ro, [0], .reset⟩, ⟨2, 1, .ro, [0], .reset⟩, ⟨3, 1, .ro, [0], .reset⟩]⟩,
  ⟨"PIN_UART_CFG", 0x40170030, [], 1, [⟨0, 12, .rw, [270], .kept⟩]⟩,
  ⟨"PIN_UART_TX", 0x40170034, [], 1, [⟨0, 8, .wo, [0], .reset⟩]⟩,
  ⟨"PIN_UART_RX", 0x40170038, [], 1, [⟨0, 8, .ro, [0], .reset⟩]⟩,
  ⟨"PIN_UART_STAT", 0x4017003C, [], 1, [⟨0, 5, .ro, [16], .reset⟩, ⟨8, 5, .ro, [0], .reset⟩, ⟨16, 1, .w1c, [0], .reset⟩, ⟨17, 1, .w1c, [0], .reset⟩, ⟨18, 1, .w1c, [0], .reset⟩]⟩,
  ⟨"PIN_GPIO_CFG", 0x40170100, [(24, 0x4)], 1, [⟨0, 2, .rw, [1], .kept⟩, ⟨2, 2, .rw, [1], .kept⟩, ⟨4, 1, .rw, [0], .kept⟩, ⟨5, 2, .rw, [0], .kept⟩]⟩]

/-- The registers of the 64 KiB block that holds `addr` (Table 1-8). -/
def regsAt (addr : Nat) : List RegDesc :=
  match addr / 0x10000 with
  | 0x4000 => regsSYS
  | 0x4001 => regsCLK
  | 0x4002 => regsPWR
  | 0x4003 => regsMLD
  | 0x4004 => regsBNK
  | 0x4005 => regsSWP
  | 0x4006 => regsGLN
  | 0x4008 => regsADC
  | 0x4009 => regsSCR
  | 0x400A => regsCE
  | 0x400C => regsPHT
  | 0x400D => regsPWM
  | 0x400E => regsFMX
  | 0x400F => regsLNE
  | 0x4010 => regsNET
  | 0x4011 => regsTSU
  | 0x4012 => regsTWN
  | 0x4013 => regsWCH
  | 0x4014 => regsLDG
  | 0x4015 => regsHLT
  | 0x4016 => regsIRQ
  | 0x4017 => regsPIN
  | _ => []

/-- The instance indices of offset `off` in a register group of dimensions `dims`, and the byte offset left over. -/
def indexIn : List (Nat × Nat) → Nat → Option (List Nat × Nat)
  | [], off => some ([], off)
  | (c, st) :: ds, off =>
    let i := off / st
    if i < c then
      match indexIn ds (off % st) with
      | some (is, r) => some (i :: is, r)
      | none => none
    else none

/-- A register found at an address: its descriptor, its instance indices, and which of its words. -/
structure RegHit where
  desc : RegDesc
  idx : List Nat
  word : Nat
  deriving DecidableEq, Repr

/-- Whether `addr` is a word of `d`. -/
def RegDesc.hit (d : RegDesc) (addr : Nat) : Option RegHit :=
  if addr < d.base then none else
  match indexIn d.dims (addr - d.base) with
  | some (is, r) => if r < 4 * d.words ∧ r % 4 = 0 then some ⟨d, is, r / 4⟩ else none
  | none => none

/-- The register that holds the word at `addr`, if any; other offsets of a block are reserved (R8). -/
def findReg (addr : Nat) : Option RegHit := (regsAt addr).findSome? (·.hit addr)

/-- A field's reset value for the instance whose last index is `i`. -/
def FieldDesc.resetOf (f : FieldDesc) (i : Nat) : Nat := f.reset.getD i (f.reset.headD 0)

/-- The index that selects a per-instance reset value. -/
def RegHit.inst (h : RegHit) : Nat := h.idx.headD 0

/-- The full reset value of a register. -/
def RegHit.resetValue (h : RegHit) : Nat :=
  h.desc.fields.foldl (fun a f => a + (f.resetOf h.inst) <<< f.lsb) 0

/-- The reset value of the word at `addr`; reserved offsets read 0 (R8). -/
def resetWord (addr : Nat) : Word :=
  match findReg addr with
  | some h => BitVec.ofNat 32 (h.resetValue >>> (32 * h.word))
  | none => 0

/-- A register field by address, lowest bit and width. -/
structure RF where
  addr : Nat
  lsb : Nat
  width : Nat
  deriving DecidableEq, Repr

end Sys2Proof.Machine
end

