-- ==== Sys2Proof/Machine/RegNames.lean ====
section
/-!
DEFINITION. The names of the registers and fields of the register map, as the field tables of the spec's chapters
name them: `BLOCK_UNIT_REGISTER` for a whole register (or its only field) and `BLOCK_UNIT_REGISTER_FIELD` for a field.
The arguments are the instance numbers, outermost first.
-/

namespace Sys2Proof.Machine.R

open Sys2Proof.Machine (RF)

def SYS_ID : RF := ⟨0x40000800, 0, 32⟩
def SYS_ID_PART : RF := ⟨0x40000800, 0, 16⟩
def SYS_ID_STEP_MINOR : RF := ⟨0x40000800, 16, 4⟩
def SYS_ID_STEP_MAJOR : RF := ⟨0x40000800, 20, 4⟩
def SYS_UID : RF := ⟨0x40000808, 0, 64⟩
def SYS_CAPCOUNT : RF := ⟨0x40000810, 0, 8⟩
def SYS_STRAPOVR : RF := ⟨0x40000814, 0, 32⟩
def SYS_STRAPOVR_EN : RF := ⟨0x40000814, 0, 1⟩
def SYS_STRAPOVR_TWIN_EN : RF := ⟨0x40000814, 1, 1⟩
def SYS_KEYREV : RF := ⟨0x40000818, 0, 32⟩
def SYS_KEYREV_MOULD : RF := ⟨0x40000818, 0, 4⟩
def SYS_KEYREV_FIRMWARE : RF := ⟨0x40000818, 4, 4⟩
def CLK_CTL : RF := ⟨0x40010000, 0, 32⟩
def CLK_CTL_ALTREF : RF := ⟨0x40010000, 0, 1⟩
def CLK_CTL_SDCLK_EN : RF := ⟨0x40010000, 1, 1⟩
def CLK_CTL_RELOCK : RF := ⟨0x40010000, 2, 1⟩
def CLK_STAT : RF := ⟨0x40010004, 0, 32⟩
def CLK_STAT_MODE : RF := ⟨0x40010004, 0, 2⟩
def CLK_STAT_ALIGNED : RF := ⟨0x40010004, 2, 1⟩
def CLK_STAT_REF : RF := ⟨0x40010004, 3, 1⟩
def CLK_STAT_BOSC : RF := ⟨0x40010004, 4, 1⟩
def CLK_STAT_XIN_OK : RF := ⟨0x40010004, 5, 1⟩
def CLK_STAT_CLKIN_OK : RF := ⟨0x40010004, 6, 1⟩
def CLK_STAT_SDCLK_OK : RF := ⟨0x40010004, 7, 1⟩
def CLK_STAT_ON_SDCLK : RF := ⟨0x40010004, 8, 1⟩
def CLK_STAT_LOSS_CLASS : RF := ⟨0x40010004, 9, 2⟩
def CLK_STAT_DLL_ALIGNED : RF := ⟨0x40010004, 11, 1⟩
def CLK_INT_STAT : RF := ⟨0x40010008, 0, 32⟩
def CLK_INT_STAT_LOCK : RF := ⟨0x40010008, 0, 1⟩
def CLK_INT_STAT_UNLOCK : RF := ⟨0x40010008, 1, 1⟩
def CLK_INT_STAT_SWITCH_DLL : RF := ⟨0x40010008, 2, 1⟩
def CLK_INT_STAT_SWITCH_PLL : RF := ⟨0x40010008, 3, 1⟩
def CLK_INT_STAT_REF_CHG : RF := ⟨0x40010008, 4, 1⟩
def CLK_INT_STAT_FLIMIT : RF := ⟨0x40010008, 5, 1⟩
def CLK_INT_STAT_BAND_FAIL : RF := ⟨0x40010008, 6, 1⟩
def CLK_INT_STAT_SDCLK_LOSS : RF := ⟨0x40010008, 7, 1⟩
def CLK_INT_EN : RF := ⟨0x4001000C, 0, 8⟩
def CLK_REFCFG : RF := ⟨0x40010010, 0, 32⟩
def CLK_REFCFG_REFSEL : RF := ⟨0x40010010, 0, 1⟩
def CLK_REFCFG_XIN_EN : RF := ⟨0x40010010, 1, 1⟩
def CLK_REFCFG_CLKIN_EN : RF := ⟨0x40010010, 2, 1⟩
def CLK_LOCKCFG : RF := ⟨0x40010014, 0, 2⟩
def CLK_HOLD : RF := ⟨0x40010018, 0, 10⟩
def CLK_RATE : RF := ⟨0x4001001C, 0, 32⟩
def CLK_PHERR : RF := ⟨0x40010020, 0, 16⟩
def CLK_BAND : RF := ⟨0x40010024, 0, 32⟩
def CLK_BAND_BAND : RF := ⟨0x40010024, 0, 6⟩
def CLK_BAND_VALID : RF := ⟨0x40010024, 6, 1⟩
def CLK_CNT : RF := ⟨0x40010028, 0, 32⟩
def CLK_CNT_UNLOCKS : RF := ⟨0x40010028, 0, 16⟩
def CLK_CNT_REFSW : RF := ⟨0x40010028, 16, 16⟩
def CLK_EVTSTAMP : RF := ⟨0x40010030, 0, 64⟩
def CLK_OUT_CFG (a : Nat) : RF := ⟨0x40010100 + a * 0x4, 0, 32⟩
def CLK_OUT_CFG_EN (a : Nat) : RF := ⟨0x40010100 + a * 0x4, 0, 1⟩
def CLK_OUT_CFG_DLY (a : Nat) : RF := ⟨0x40010100 + a * 0x4, 1, 8⟩
def CLK_OUT_CFG_DIV (a : Nat) : RF := ⟨0x40010100 + a * 0x4, 16, 16⟩
def PWR_STAT : RF := ⟨0x40020000, 0, 32⟩
def PWR_STAT_READY : RF := ⟨0x40020000, 0, 1⟩
def PWR_STAT_MPG : RF := ⟨0x40020000, 1, 1⟩
def PWR_STAT_GOLDEN_BOOT : RF := ⟨0x40020000, 2, 1⟩
def PWR_STAT_DOWNLOAD : RF := ⟨0x40020000, 3, 1⟩
def PWR_STAT_BOOTSRC : RF := ⟨0x40020000, 4, 2⟩
def PWR_STAT_STEP : RF := ⟨0x40020000, 6, 4⟩
def PWR_STAT_STEP_ERR : RF := ⟨0x40020000, 10, 4⟩
def PWR_CMD : RF := ⟨0x40020004, 0, 32⟩
def PWR_CMD_WARM : RF := ⟨0x40020004, 0, 1⟩
def PWR_CMD_COLD : RF := ⟨0x40020004, 1, 1⟩
def PWR_CMD_BOOT_OK : RF := ⟨0x40020004, 2, 1⟩
def PWR_CMD_GOLDEN_CLR : RF := ⟨0x40020004, 3, 1⟩
def PWR_CMD_KICK : RF := ⟨0x40020004, 4, 1⟩
def PWR_CMD_KEY : RF := ⟨0x40020004, 8, 8⟩
def PWR_INT_STAT : RF := ⟨0x40020008, 0, 32⟩
def PWR_INT_STAT_READY : RF := ⟨0x40020008, 0, 1⟩
def PWR_INT_STAT_PFW : RF := ⟨0x40020008, 1, 1⟩
def PWR_INT_STAT_RESTORED : RF := ⟨0x40020008, 2, 1⟩
def PWR_INT_STAT_MIRROR_FAIL : RF := ⟨0x40020008, 3, 1⟩
def PWR_INT_STAT_VKA_LOW : RF := ⟨0x40020008, 4, 1⟩
def PWR_INT_STAT_WARM_IGN : RF := ⟨0x40020008, 5, 1⟩
def PWR_INT_EN : RF := ⟨0x4002000C, 0, 6⟩
def PWR_CAUSE : RF := ⟨0x40020010, 0, 4⟩
def PWR_STRAP : RF := ⟨0x40020014, 0, 32⟩
def PWR_STRAP_BOOT : RF := ⟨0x40020014, 0, 2⟩
def PWR_STRAP_ROLE : RF := ⟨0x40020014, 2, 1⟩
def PWR_STRAP_TWIN_EN : RF := ⟨0x40020014, 3, 1⟩
def PWR_STRAP_NODE_ID : RF := ⟨0x40020014, 4, 6⟩
def PWR_RAIL : RF := ⟨0x40020018, 0, 9⟩
def PWR_CFG : RF := ⟨0x4002001C, 0, 32⟩
def PWR_CFG_CONFIRM_T : RF := ⟨0x4002001C, 0, 8⟩
def PWR_CFG_DIAG_DUR : RF := ⟨0x4002001C, 8, 8⟩
def PWR_CFG_WDOG_T : RF := ⟨0x4002001C, 16, 12⟩
def PWR_CFG_OFFT_EN : RF := ⟨0x4002001C, 28, 1⟩
def PWR_OPSEC : RF := ⟨0x40020020, 0, 64⟩
def PWR_OPSEC_FRAC : RF := ⟨0x40020020, 0, 16⟩
def PWR_OPSEC_SEC : RF := ⟨0x40020020, 16, 32⟩
def PWR_CYCLES : RF := ⟨0x40020028, 0, 32⟩
def PWR_BOOTREC : RF := ⟨0x4002002C, 0, 32⟩
def PWR_BOOTREC_PENDING : RF := ⟨0x4002002C, 0, 1⟩
def PWR_BOOTREC_GOLDEN : RF := ⟨0x4002002C, 1, 1⟩
def PWR_BOOTREC_ATTEMPTS : RF := ⟨0x4002002C, 2, 3⟩
def PWR_FAILT0 : RF := ⟨0x40020030, 0, 32⟩
def PWR_OFFSEC : RF := ⟨0x40020034, 0, 32⟩
def PWR_KA : RF := ⟨0x40020038, 0, 32⟩
def PWR_KA_LDG_FAIL : RF := ⟨0x40020038, 0, 1⟩
def PWR_KA_RESTORED : RF := ⟨0x40020038, 1, 1⟩
def PWR_KA_CLEAN : RF := ⟨0x40020038, 2, 1⟩
def PWR_KA_VKA_LOW : RF := ⟨0x40020038, 3, 1⟩
def PWR_KA_XTAL_OK : RF := ⟨0x40020038, 4, 1⟩
def PWR_MIRROR : RF := ⟨0x4002003C, 0, 32⟩
def PWR_MIRROR_SEQ : RF := ⟨0x4002003C, 0, 16⟩
def PWR_MIRROR_CELL : RF := ⟨0x4002003C, 16, 1⟩
def PWR_MIRROR_FAIL : RF := ⟨0x4002003C, 17, 1⟩
def PWR_CNT : RF := ⟨0x40020040, 0, 32⟩
def PWR_CNT_WARMS : RF := ⟨0x40020040, 0, 16⟩
def PWR_CNT_WARM_IGN : RF := ⟨0x40020040, 16, 16⟩
def PWR_READYT : RF := ⟨0x40020044, 0, 32⟩
def PWR_RET (a : Nat) : RF := ⟨0x40020080 + a * 0x4, 0, 32⟩
def MLD_STAT : RF := ⟨0x40030000, 0, 32⟩
def MLD_STAT_BUSY : RF := ⟨0x40030000, 0, 1⟩
def MLD_STAT_STATE : RF := ⟨0x40030000, 1, 2⟩
def MLD_STAT_SH10_SKIPPED : RF := ⟨0x40030000, 3, 1⟩
def MLD_CMD : RF := ⟨0x40030004, 0, 32⟩
def MLD_CMD_OP : RF := ⟨0x40030004, 0, 4⟩
def MLD_CMD_SLOT : RF := ⟨0x40030004, 8, 2⟩
def MLD_CMD_SHEET : RF := ⟨0x40030004, 16, 4⟩
def MLD_ERR : RF := ⟨0x40030008, 0, 32⟩
def MLD_ERR_CODE : RF := ⟨0x40030008, 0, 8⟩
def MLD_ERR_SHEET : RF := ⟨0x40030008, 8, 4⟩
def MLD_ERROFF : RF := ⟨0x4003000C, 0, 32⟩
def MLD_STAGE_BASE : RF := ⟨0x40030010, 0, 32⟩
def MLD_STAGE_LEN : RF := ⟨0x40030014, 0, 21⟩
def MLD_QUIESCE : RF := ⟨0x40030018, 1, 11⟩
def MLD_QSTAT : RF := ⟨0x4003001C, 0, 32⟩
def MLD_QSTAT_QUIESCED : RF := ⟨0x4003001C, 0, 12⟩
def MLD_QSTAT_CARRIED : RF := ⟨0x4003001C, 16, 12⟩
def MLD_INT_STAT : RF := ⟨0x40030020, 0, 32⟩
def MLD_INT_STAT_DONE : RF := ⟨0x40030020, 0, 1⟩
def MLD_INT_STAT_ERR : RF := ⟨0x40030020, 1, 1⟩
def MLD_INT_STAT_QCHG : RF := ⟨0x40030020, 2, 1⟩
def MLD_INT_EN : RF := ⟨0x40030024, 0, 3⟩
def MLD_LOADCNT : RF := ⟨0x40030028, 0, 32⟩
def MLD_SL_STAT (a : Nat) : RF := ⟨0x40030040 + a * 0x10, 0, 32⟩
def MLD_SL_STAT_VALID (a : Nat) : RF := ⟨0x40030040 + a * 0x10, 0, 1⟩
def MLD_SL_STAT_IN_USE (a : Nat) : RF := ⟨0x40030040 + a * 0x10, 1, 1⟩
def MLD_SL_SERIAL (a : Nat) : RF := ⟨0x40030044 + a * 0x10, 0, 32⟩
def MLD_SL_LEN (a : Nat) : RF := ⟨0x40030048 + a * 0x10, 0, 32⟩
def MLD_SL_ID (a : Nat) : RF := ⟨0x4003004C + a * 0x10, 0, 32⟩
def MLD_SH_DIGEST (a : Nat) : RF := ⟨0x40030100 + a * 0x4, 0, 32⟩
def MLD_SH_SRC (a : Nat) : RF := ⟨0x40030140 + a * 0x4, 0, 32⟩
def MLD_SH_SRC_SLOT (a : Nat) : RF := ⟨0x40030140 + a * 0x4, 0, 2⟩
def MLD_SH_SRC_LOADED (a : Nat) : RF := ⟨0x40030140 + a * 0x4, 8, 1⟩
def BNK_CMD : RF := ⟨0x40040000, 0, 32⟩
def BNK_CMD_INDEX : RF := ⟨0x40040000, 0, 7⟩
def BNK_CMD_WHO : RF := ⟨0x40040000, 8, 4⟩
def BNK_CMD_OP : RF := ⟨0x40040000, 16, 3⟩
def BNK_CMD_SEG : RF := ⟨0x40040000, 20, 7⟩
def BNK_STAT : RF := ⟨0x40040004, 0, 32⟩
def BNK_STAT_BUSY : RF := ⟨0x40040004, 0, 1⟩
def BNK_STAT_ERR : RF := ⟨0x40040004, 1, 3⟩
def BNK_INT_STAT : RF := ⟨0x40040008, 0, 32⟩
def BNK_INT_STAT_CMD_DONE : RF := ⟨0x40040008, 0, 1⟩
def BNK_INT_STAT_CMD_ERR : RF := ⟨0x40040008, 1, 1⟩
def BNK_INT_STAT_VIOL : RF := ⟨0x40040008, 2, 1⟩
def BNK_INT_STAT_ECC_CE : RF := ⟨0x40040008, 3, 1⟩
def BNK_INT_STAT_ECC_UE : RF := ⟨0x40040008, 4, 1⟩
def BNK_INT_STAT_XLOST : RF := ⟨0x40040008, 5, 1⟩
def BNK_INT_EN : RF := ⟨0x4004000C, 0, 6⟩
def BNK_VIOL_ADDR : RF := ⟨0x40040010, 0, 32⟩
def BNK_VIOL_INFO : RF := ⟨0x40040014, 0, 32⟩
def BNK_VIOL_INFO_WHO : RF := ⟨0x40040014, 0, 4⟩
def BNK_VIOL_INFO_WRITE : RF := ⟨0x40040014, 4, 1⟩
def BNK_VIOL_INFO_COUNT : RF := ⟨0x40040014, 16, 16⟩
def BNK_ECC_CE : RF := ⟨0x40040018, 0, 32⟩
def BNK_ECC_CEADDR : RF := ⟨0x4004001C, 0, 32⟩
def BNK_ECC_UE : RF := ⟨0x40040020, 0, 32⟩
def BNK_ECC_UEADDR : RF := ⟨0x40040024, 0, 32⟩
def BNK_BK_OWN (a : Nat) : RF := ⟨0x40040100 + a * 0x8, 0, 32⟩
def BNK_BK_OWN_OWNER (a : Nat) : RF := ⟨0x40040100 + a * 0x8, 0, 4⟩
def BNK_BK_OWN_RELEASING (a : Nat) : RF := ⟨0x40040100 + a * 0x8, 4, 1⟩
def BNK_BK_OWN_G_CORES (a : Nat) : RF := ⟨0x40040100 + a * 0x8, 5, 1⟩
def BNK_BK_OWN_G_GLEAN (a : Nat) : RF := ⟨0x40040100 + a * 0x8, 6, 1⟩
def BNK_BK_OWN_ROT (a : Nat) : RF := ⟨0x40040100 + a * 0x8, 7, 1⟩
def BNK_BK_OWN_TRACE (a : Nat) : RF := ⟨0x40040100 + a * 0x8, 8, 1⟩
def BNK_BK_SPARE (a : Nat) : RF := ⟨0x40040104 + a * 0x8, 0, 32⟩
def BNK_BK_SPARE_SEG0 (a : Nat) : RF := ⟨0x40040104 + a * 0x8, 0, 7⟩
def BNK_BK_SPARE_V0 (a : Nat) : RF := ⟨0x40040104 + a * 0x8, 7, 1⟩
def BNK_BK_SPARE_SEG1 (a : Nat) : RF := ⟨0x40040104 + a * 0x8, 8, 7⟩
def BNK_BK_SPARE_V1 (a : Nat) : RF := ⟨0x40040104 + a * 0x8, 15, 1⟩
def BNK_BK_SPARE_COPY (a : Nat) : RF := ⟨0x40040104 + a * 0x8, 16, 6⟩
def BNK_BK_SPARE_REPAIRING (a : Nat) : RF := ⟨0x40040104 + a * 0x8, 22, 1⟩
def BNK_XB_CFG (a : Nat) : RF := ⟨0x40040400 + a * 0x10, 0, 32⟩
def BNK_XB_CFG_WIN (a : Nat) : RF := ⟨0x40040400 + a * 0x10, 0, 1⟩
def BNK_XB_CFG_CPORT (a : Nat) : RF := ⟨0x40040400 + a * 0x10, 1, 1⟩
def BNK_XB_CFG_ROT (a : Nat) : RF := ⟨0x40040400 + a * 0x10, 2, 1⟩
def BNK_XB_SPARE (a : Nat) : RF := ⟨0x40040404 + a * 0x10, 0, 32⟩
def BNK_XB_SPARE_SEG0 (a : Nat) : RF := ⟨0x40040404 + a * 0x10, 0, 5⟩
def BNK_XB_SPARE_V0 (a : Nat) : RF := ⟨0x40040404 + a * 0x10, 7, 1⟩
def BNK_XB_SPARE_SEG1 (a : Nat) : RF := ⟨0x40040404 + a * 0x10, 8, 5⟩
def BNK_XB_SPARE_V1 (a : Nat) : RF := ⟨0x40040404 + a * 0x10, 15, 1⟩
def BNK_XB_SPARE_COPY (a : Nat) : RF := ⟨0x40040404 + a * 0x10, 16, 6⟩
def BNK_XB_SPARE_REPAIRING (a : Nat) : RF := ⟨0x40040404 + a * 0x10, 22, 1⟩
def BNK_XB_LOST (a : Nat) : RF := ⟨0x40040408 + a * 0x10, 0, 32⟩
def BNK_XB_LOST_OFFSET (a : Nat) : RF := ⟨0x40040408 + a * 0x10, 0, 17⟩
def BNK_XB_LOST_PORT (a : Nat) : RF := ⟨0x40040408 + a * 0x10, 17, 1⟩
def BNK_XB_LOST_COUNT (a : Nat) : RF := ⟨0x40040408 + a * 0x10, 24, 8⟩
def SWP_CTL : RF := ⟨0x40050000, 0, 32⟩
def SWP_CTL_EN : RF := ⟨0x40050000, 0, 1⟩
def SWP_CTL_AUTOREP : RF := ⟨0x40050000, 1, 1⟩
def SWP_CTL_XB : RF := ⟨0x40050000, 2, 1⟩
def SWP_STAT : RF := ⟨0x40050004, 0, 32⟩
def SWP_STAT_S : RF := ⟨0x40050004, 0, 13⟩
def SWP_STAT_BANK : RF := ⟨0x40050004, 13, 7⟩
def SWP_STAT_LOCKED : RF := ⟨0x40050004, 31, 1⟩
def SWP_PASS : RF := ⟨0x40050008, 0, 32⟩
def SWP_SCRUB : RF := ⟨0x4005000C, 0, 32⟩
def SWP_FAIL : RF := ⟨0x40050010, 0, 32⟩
def SWP_FAILADDR : RF := ⟨0x40050014, 0, 32⟩
def SWP_UEADDR : RF := ⟨0x40050018, 0, 32⟩
def SWP_INT_STAT : RF := ⟨0x4005001C, 0, 32⟩
def SWP_INT_STAT_PASS_DONE : RF := ⟨0x4005001C, 0, 1⟩
def SWP_INT_STAT_FAIL : RF := ⟨0x4005001C, 1, 1⟩
def SWP_INT_STAT_REPAIR_DONE : RF := ⟨0x4005001C, 2, 1⟩
def SWP_INT_STAT_NO_SPARE : RF := ⟨0x4005001C, 3, 1⟩
def SWP_INT_STAT_UE_FOUND : RF := ⟨0x4005001C, 4, 1⟩
def SWP_INT_EN : RF := ⟨0x40050020, 0, 5⟩
def GLN_RUN : RF := ⟨0x40060000, 0, 32⟩
def GLN_HALTED : RF := ⟨0x40060004, 0, 32⟩
def GLN_INT_DONE : RF := ⟨0x40060008, 0, 32⟩
def GLN_INT_HALT : RF := ⟨0x4006000C, 0, 32⟩
def GLN_INT_EN_DONE : RF := ⟨0x40060010, 0, 32⟩
def GLN_INT_EN_HALT : RF := ⟨0x40060014, 0, 32⟩
def GLN_GW_BASE (a : Nat) : RF := ⟨0x40060100 + a * 0x10, 0, 32⟩
def GLN_GW_LIMIT (a : Nat) : RF := ⟨0x40060104 + a * 0x10, 0, 32⟩
def GLN_GW_PERM (a : Nat) : RF := ⟨0x40060108 + a * 0x10, 0, 32⟩
def GLN_GW_PERM_R (a : Nat) : RF := ⟨0x40060108 + a * 0x10, 0, 1⟩
def GLN_GW_PERM_W (a : Nat) : RF := ⟨0x40060108 + a * 0x10, 1, 1⟩
def GLN_GW_CHMASK (a : Nat) : RF := ⟨0x4006010C + a * 0x10, 0, 32⟩
def GLN_GC_CTL (a : Nat) : RF := ⟨0x40061000 + a * 0x40, 0, 2⟩
def GLN_GC_CMD (a : Nat) : RF := ⟨0x40061004 + a * 0x40, 0, 32⟩
def GLN_GC_CMD_START (a : Nat) : RF := ⟨0x40061004 + a * 0x40, 0, 1⟩
def GLN_GC_CMD_RESUME (a : Nat) : RF := ⟨0x40061004 + a * 0x40, 1, 1⟩
def GLN_GC_CMD_STOP (a : Nat) : RF := ⟨0x40061004 + a * 0x40, 2, 1⟩
def GLN_GC_DESC (a : Nat) : RF := ⟨0x40061008 + a * 0x40, 0, 32⟩
def GLN_GC_STAT (a : Nat) : RF := ⟨0x4006100C + a * 0x40, 0, 32⟩
def GLN_GC_STAT_STATE (a : Nat) : RF := ⟨0x4006100C + a * 0x40, 0, 2⟩
def GLN_GC_STAT_CAUSE (a : Nat) : RF := ⟨0x4006100C + a * 0x40, 4, 4⟩
def GLN_GC_STAT_DESCS (a : Nat) : RF := ⟨0x4006100C + a * 0x40, 16, 16⟩
def GLN_GC_CUR (a : Nat) : RF := ⟨0x40061010 + a * 0x40, 0, 32⟩
def GLN_GC_SRC (a : Nat) : RF := ⟨0x40061014 + a * 0x40, 0, 32⟩
def GLN_GC_DST (a : Nat) : RF := ⟨0x40061018 + a * 0x40, 0, 32⟩
def GLN_GC_REM (a : Nat) : RF := ⟨0x4006101C + a * 0x40, 0, 32⟩
def GLN_GC_FADDR (a : Nat) : RF := ⟨0x40061020 + a * 0x40, 0, 32⟩
def GLN_GC_BYTES (a : Nat) : RF := ⟨0x40061024 + a * 0x40, 0, 32⟩
def ADC_CTL (a : Nat) : RF := ⟨0x40080000 + a * 0x4000, 0, 32⟩
def ADC_CTL_EN (a : Nat) : RF := ⟨0x40080000 + a * 0x4000, 0, 1⟩
def ADC_CTL_CALEN (a : Nat) : RF := ⟨0x40080000 + a * 0x4000, 1, 1⟩
def ADC_CTL_WATCH (a : Nat) : RF := ⟨0x40080000 + a * 0x4000, 2, 1⟩
def ADC_STAT (a : Nat) : RF := ⟨0x40080004 + a * 0x4000, 0, 32⟩
def ADC_STAT_READY (a : Nat) : RF := ⟨0x40080004 + a * 0x4000, 0, 1⟩
def ADC_STAT_WATCH (a : Nat) : RF := ⟨0x40080004 + a * 0x4000, 1, 1⟩
def ADC_STAT_CAL_STARVED (a : Nat) : RF := ⟨0x40080004 + a * 0x4000, 2, 1⟩
def ADC_STAT_TESTING (a : Nat) : RF := ⟨0x40080004 + a * 0x4000, 3, 1⟩
def ADC_STAT_FREE (a : Nat) : RF := ⟨0x40080004 + a * 0x4000, 4, 4⟩
def ADC_STAT_CALPHASE (a : Nat) : RF := ⟨0x40080004 + a * 0x4000, 8, 3⟩
def ADC_STAT_RETIRED (a : Nat) : RF := ⟨0x40080004 + a * 0x4000, 16, 9⟩
def ADC_INT_STAT (a : Nat) : RF := ⟨0x40080008 + a * 0x4000, 0, 32⟩
def ADC_INT_STAT_SNAP_DONE (a : Nat) : RF := ⟨0x40080008 + a * 0x4000, 0, 4⟩
def ADC_INT_STAT_SNAP_MISS (a : Nat) : RF := ⟨0x40080008 + a * 0x4000, 4, 1⟩
def ADC_INT_STAT_CAL_DONE (a : Nat) : RF := ⟨0x40080008 + a * 0x4000, 5, 1⟩
def ADC_INT_STAT_CAL_STARVED (a : Nat) : RF := ⟨0x40080008 + a * 0x4000, 6, 1⟩
def ADC_INT_STAT_CAL_FAIL (a : Nat) : RF := ⟨0x40080008 + a * 0x4000, 7, 1⟩
def ADC_INT_STAT_RETIRE (a : Nat) : RF := ⟨0x40080008 + a * 0x4000, 8, 1⟩
def ADC_INT_STAT_TEST_DONE (a : Nat) : RF := ⟨0x40080008 + a * 0x4000, 9, 1⟩
def ADC_INT_STAT_OVR (a : Nat) : RF := ⟨0x40080008 + a * 0x4000, 10, 1⟩
def ADC_INT_STAT_WATCH_CHG (a : Nat) : RF := ⟨0x40080008 + a * 0x4000, 11, 1⟩
def ADC_INT_STAT_WATCH_REFUSED (a : Nat) : RF := ⟨0x40080008 + a * 0x4000, 12, 1⟩
def ADC_INT_EN (a : Nat) : RF := ⟨0x4008000C + a * 0x4000, 0, 13⟩
def ADC_LFSR (a : Nat) : RF := ⟨0x40080010 + a * 0x4000, 0, 15⟩
def ADC_OVR (a : Nat) : RF := ⟨0x40080014 + a * 0x4000, 0, 8⟩
def ADC_SE (a : Nat) : RF := ⟨0x40080018 + a * 0x4000, 0, 8⟩
def ADC_FMT (a : Nat) : RF := ⟨0x4008001C + a * 0x4000, 0, 16⟩
def ADC_CALCNT (a : Nat) : RF := ⟨0x40080020 + a * 0x4000, 0, 32⟩
def ADC_SNAPMISS (a : Nat) : RF := ⟨0x40080024 + a * 0x4000, 0, 32⟩
def ADC_RAW (a b : Nat) : RF := ⟨0x40080040 + a * 0x4000 + b * 0x4, 0, 32⟩
def ADC_SNAP_CFG (a b : Nat) : RF := ⟨0x40080080 + a * 0x4000 + b * 0x10, 0, 32⟩
def ADC_SNAP_CFG_EN (a b : Nat) : RF := ⟨0x40080080 + a * 0x4000 + b * 0x10, 0, 1⟩
def ADC_SNAP_CFG_PG (a b : Nat) : RF := ⟨0x40080080 + a * 0x4000 + b * 0x10, 1, 3⟩
def ADC_SNAP_CFG_TRG (a b : Nat) : RF := ⟨0x40080080 + a * 0x4000 + b * 0x10, 4, 2⟩
def ADC_SNAP_CFG_INPUT (a b : Nat) : RF := ⟨0x40080080 + a * 0x4000 + b * 0x10, 8, 3⟩
def ADC_SNAP_DATA (a b : Nat) : RF := ⟨0x40080084 + a * 0x4000 + b * 0x10, 0, 32⟩
def ADC_SNAP_STAMP (a b : Nat) : RF := ⟨0x40080088 + a * 0x4000 + b * 0x10, 0, 32⟩
def ADC_SNAP_COUNT (a b : Nat) : RF := ⟨0x4008008C + a * 0x4000 + b * 0x10, 0, 16⟩
def ADC_SL_OFF (a b : Nat) : RF := ⟨0x40080100 + a * 0x4000 + b * 0x10, 0, 16⟩
def ADC_SL_GAIN (a b : Nat) : RF := ⟨0x40080104 + a * 0x4000 + b * 0x10, 0, 16⟩
def ADC_SL_SKEW (a b : Nat) : RF := ⟨0x40080108 + a * 0x4000 + b * 0x10, 0, 32⟩
def ADC_SL_SKEW_SKEW (a b : Nat) : RF := ⟨0x40080108 + a * 0x4000 + b * 0x10, 0, 8⟩
def ADC_SL_SKEW_FAILS (a b : Nat) : RF := ⟨0x40080108 + a * 0x4000 + b * 0x10, 16, 2⟩
def ADC_SL_BW (a b : Nat) : RF := ⟨0x4008010C + a * 0x4000 + b * 0x10, 0, 12⟩
def ADC_TCFG (a : Nat) : RF := ⟨0x40080200 + a * 0x4000, 0, 32⟩
def ADC_TCFG_INPUT (a : Nat) : RF := ⟨0x40080200 + a * 0x4000, 0, 3⟩
def ADC_TCFG_KIND (a : Nat) : RF := ⟨0x40080200 + a * 0x4000, 4, 2⟩
def ADC_TCFG_AVG (a : Nat) : RF := ⟨0x40080200 + a * 0x4000, 8, 4⟩
def ADC_TCFG_CODE (a : Nat) : RF := ⟨0x40080200 + a * 0x4000, 16, 14⟩
def ADC_TCMD (a : Nat) : RF := ⟨0x40080204 + a * 0x4000, 0, 32⟩
def ADC_TCMD_START (a : Nat) : RF := ⟨0x40080204 + a * 0x4000, 0, 1⟩
def ADC_TCMD_ABORT (a : Nat) : RF := ⟨0x40080204 + a * 0x4000, 1, 1⟩
def ADC_TSTAT (a : Nat) : RF := ⟨0x40080208 + a * 0x4000, 0, 32⟩
def ADC_TSTAT_BUSY (a : Nat) : RF := ⟨0x40080208 + a * 0x4000, 0, 1⟩
def ADC_TSTAT_VERDICT (a : Nat) : RF := ⟨0x40080208 + a * 0x4000, 2, 2⟩
def ADC_TSTAT_ERR (a : Nat) : RF := ⟨0x40080208 + a * 0x4000, 4, 4⟩
def ADC_TBASE (a : Nat) : RF := ⟨0x4008020C + a * 0x4000, 0, 32⟩
def ADC_TRES (a : Nat) : RF := ⟨0x40080210 + a * 0x4000, 0, 32⟩
def ADC_TTHR (a : Nat) : RF := ⟨0x40080214 + a * 0x4000, 0, 32⟩
def ADC_TTHR_THR (a : Nat) : RF := ⟨0x40080214 + a * 0x4000, 0, 24⟩
def ADC_TTHR_SETTLE (a : Nat) : RF := ⟨0x40080214 + a * 0x4000, 24, 8⟩
def SCR_SYNC_CFG : RF := ⟨0x40090000, 0, 32⟩
def SCR_SYNC_CFG_SRC : RF := ⟨0x40090000, 0, 2⟩
def SCR_SYNC_CFG_TT : RF := ⟨0x40090000, 4, 4⟩
def SCR_SYNC_CFG_OUT : RF := ⟨0x40090000, 8, 1⟩
def SCR_SYNC_MASK : RF := ⟨0x40090004, 0, 32⟩
def SCR_SYNC_CMD : RF := ⟨0x40090008, 0, 1⟩
def SCR_SYNC_STAT : RF := ⟨0x4009000C, 0, 32⟩
def SCR_SYNC_STAT_COUNT : RF := ⟨0x4009000C, 0, 16⟩
def SCR_SYNC_STAT_IGN : RF := ⟨0x4009000C, 16, 16⟩
def SCR_SYNC_LAST : RF := ⟨0x40090010, 0, 32⟩
def SCR_INT_STAT : RF := ⟨0x40090020, 0, 32⟩
def SCR_INT_STAT_SAT : RF := ⟨0x40090020, 0, 1⟩
def SCR_INT_STAT_WIN : RF := ⟨0x40090020, 1, 1⟩
def SCR_INT_STAT_SYNC : RF := ⟨0x40090020, 2, 1⟩
def SCR_INT_STAT_SYNC_IGN : RF := ⟨0x40090020, 3, 1⟩
def SCR_INT_STAT_WCFG : RF := ⟨0x40090020, 4, 1⟩
def SCR_INT_STAT_FW : RF := ⟨0x40090020, 5, 1⟩
def SCR_INT_EN : RF := ⟨0x40090024, 0, 6⟩
def SCR_SAT (a : Nat) : RF := ⟨0x40090030 + a * 0x4, 0, 32⟩
def SCR_WIN_OUT (a : Nat) : RF := ⟨0x40090050 + a * 0x4, 0, 32⟩
def SCR_WIN_FLAG (a : Nat) : RF := ⟨0x40090058 + a * 0x4, 0, 32⟩
def SCR_FW_OUT : RF := ⟨0x40090060, 0, 32⟩
def SCR_FW_FLAG : RF := ⟨0x40090064, 0, 32⟩
def SCR_WIN_CFGERR (a : Nat) : RF := ⟨0x40090068 + a * 0x4, 0, 32⟩
def SCR_PH (a : Nat) : RF := ⟨0x40090100 + a * 0x4, 0, 7⟩
def SCR_WIN_CFG (a : Nat) : RF := ⟨0x40090400 + a * 0x10, 0, 32⟩
def SCR_WIN_CFG_EN (a : Nat) : RF := ⟨0x40090400 + a * 0x10, 0, 1⟩
def SCR_WIN_CFG_STAGE (a : Nat) : RF := ⟨0x40090400 + a * 0x10, 4, 3⟩
def SCR_WIN_LO (a : Nat) : RF := ⟨0x40090404 + a * 0x10, 0, 24⟩
def SCR_WIN_HI (a : Nat) : RF := ⟨0x40090408 + a * 0x10, 0, 24⟩
def SCR_WIN_HYST (a : Nat) : RF := ⟨0x4009040C + a * 0x10, 0, 23⟩
def SCR_FW_CFG (a : Nat) : RF := ⟨0x40090800 + a * 0x10, 0, 32⟩
def SCR_FW_CFG_EN (a : Nat) : RF := ⟨0x40090800 + a * 0x10, 0, 1⟩
def SCR_FW_CFG_CNT (a : Nat) : RF := ⟨0x40090800 + a * 0x10, 4, 4⟩
def SCR_FW_LO (a : Nat) : RF := ⟨0x40090804 + a * 0x10, 0, 24⟩
def SCR_FW_HI (a : Nat) : RF := ⟨0x40090808 + a * 0x10, 0, 24⟩
def SCR_TAP_VAL (a : Nat) : RF := ⟨0x40091000 + a * 0x8, 0, 32⟩
def SCR_TAP_STAMP (a : Nat) : RF := ⟨0x40091004 + a * 0x8, 0, 32⟩
def CE_RUNCTL (a : Nat) : RF := ⟨0x400A0000 + a * 0x2000, 0, 32⟩
def CE_RUNCTL_EN (a : Nat) : RF := ⟨0x400A0000 + a * 0x2000, 0, 1⟩
def CE_RUNCTL_SPARE (a : Nat) : RF := ⟨0x400A0000 + a * 0x2000, 1, 1⟩
def CE_RUNCTL_AUTOMOVE (a : Nat) : RF := ⟨0x400A0000 + a * 0x2000, 2, 1⟩
def CE_RUNCTL_OVR_LIMIT (a : Nat) : RF := ⟨0x400A0000 + a * 0x2000, 8, 8⟩
def CE_TICK (a : Nat) : RF := ⟨0x400A0004 + a * 0x2000, 0, 32⟩
def CE_TICK_KIND (a : Nat) : RF := ⟨0x400A0004 + a * 0x2000, 0, 2⟩
def CE_TICK_SEL (a : Nat) : RF := ⟨0x400A0004 + a * 0x2000, 8, 8⟩
def CE_TICK_DIV (a : Nat) : RF := ⟨0x400A0004 + a * 0x2000, 16, 8⟩
def CE_OUTCFG (a : Nat) : RF := ⟨0x400A0008 + a * 0x2000, 0, 3⟩
def CE_RCOUNT (a : Nat) : RF := ⟨0x400A000C + a * 0x2000, 0, 32⟩
def CE_RCOUNT_A (a : Nat) : RF := ⟨0x400A000C + a * 0x2000, 0, 9⟩
def CE_RCOUNT_B (a : Nat) : RF := ⟨0x400A000C + a * 0x2000, 16, 9⟩
def CE_DTNOM (a : Nat) : RF := ⟨0x400A0010 + a * 0x2000, 0, 32⟩
def CE_DTMAX (a : Nat) : RF := ⟨0x400A0014 + a * 0x2000, 0, 32⟩
def CE_STAT (a : Nat) : RF := ⟨0x400A0018 + a * 0x2000, 0, 32⟩
def CE_STAT_RUNNING (a : Nat) : RF := ⟨0x400A0018 + a * 0x2000, 0, 1⟩
def CE_STAT_RSTORE (a : Nat) : RF := ⟨0x400A0018 + a * 0x2000, 1, 1⟩
def CE_STAT_CBANK (a : Nat) : RF := ⟨0x400A0018 + a * 0x2000, 2, 1⟩
def CE_STAT_PENDING (a : Nat) : RF := ⟨0x400A0018 + a * 0x2000, 3, 1⟩
def CE_STAT_STOPPED (a : Nat) : RF := ⟨0x400A0018 + a * 0x2000, 4, 1⟩
def CE_STAT_CHECKING (a : Nat) : RF := ⟨0x400A0018 + a * 0x2000, 5, 1⟩
def CE_STAT_MOVED (a : Nat) : RF := ⟨0x400A0018 + a * 0x2000, 6, 1⟩
def CE_FAULT (a : Nat) : RF := ⟨0x400A001C + a * 0x2000, 0, 32⟩
def CE_FAULT_ECC (a : Nat) : RF := ⟨0x400A001C + a * 0x2000, 0, 1⟩
def CE_FAULT_CHECK (a : Nat) : RF := ⟨0x400A001C + a * 0x2000, 1, 1⟩
def CE_FAULT_TEST (a : Nat) : RF := ⟨0x400A001C + a * 0x2000, 2, 1⟩
def CE_FAULT_TICKCFG (a : Nat) : RF := ⟨0x400A001C + a * 0x2000, 3, 1⟩
def CE_INT_STAT (a : Nat) : RF := ⟨0x400A0020 + a * 0x2000, 0, 32⟩
def CE_INT_STAT_OVR (a : Nat) : RF := ⟨0x400A0020 + a * 0x2000, 0, 1⟩
def CE_INT_STAT_OVR_LIMIT (a : Nat) : RF := ⟨0x400A0020 + a * 0x2000, 1, 1⟩
def CE_INT_STAT_SWAP_DONE (a : Nat) : RF := ⟨0x400A0020 + a * 0x2000, 2, 1⟩
def CE_INT_STAT_SWAP_ERR (a : Nat) : RF := ⟨0x400A0020 + a * 0x2000, 3, 1⟩
def CE_INT_STAT_SWAP_CLAMP (a : Nat) : RF := ⟨0x400A0020 + a * 0x2000, 4, 1⟩
def CE_INT_STAT_DT_CLAMP (a : Nat) : RF := ⟨0x400A0020 + a * 0x2000, 5, 1⟩
def CE_INT_STAT_FAULT (a : Nat) : RF := ⟨0x400A0020 + a * 0x2000, 6, 1⟩
def CE_INT_STAT_TRC_DONE (a : Nat) : RF := ⟨0x400A0020 + a * 0x2000, 7, 1⟩
def CE_INT_STAT_MB_SKIP (a : Nat) : RF := ⟨0x400A0020 + a * 0x2000, 8, 1⟩
def CE_INT_STAT_STAGE_ERR (a : Nat) : RF := ⟨0x400A0020 + a * 0x2000, 9, 1⟩
def CE_INT_STAT_MOVE_DONE (a : Nat) : RF := ⟨0x400A0020 + a * 0x2000, 10, 1⟩
def CE_INT_STAT_MOVE_ERR (a : Nat) : RF := ⟨0x400A0020 + a * 0x2000, 11, 1⟩
def CE_INT_EN (a : Nat) : RF := ⟨0x400A0024 + a * 0x2000, 0, 12⟩
def CE_CMD (a : Nat) : RF := ⟨0x400A0028 + a * 0x2000, 0, 32⟩
def CE_CMD_CLR_CYCMAX (a : Nat) : RF := ⟨0x400A0028 + a * 0x2000, 0, 1⟩
def CE_CMD_TRC_TRIG (a : Nat) : RF := ⟨0x400A0028 + a * 0x2000, 1, 1⟩
def CE_STAMP (a : Nat) : RF := ⟨0x400A0030 + a * 0x2000, 0, 64⟩
def CE_DT (a : Nat) : RF := ⟨0x400A0038 + a * 0x2000, 0, 32⟩
def CE_RUNCNT (a : Nat) : RF := ⟨0x400A003C + a * 0x2000, 0, 32⟩
def CE_OVR_COUNT (a : Nat) : RF := ⟨0x400A0040 + a * 0x2000, 0, 32⟩
def CE_OVR_MERGED (a : Nat) : RF := ⟨0x400A0044 + a * 0x2000, 0, 32⟩
def CE_OVR_CONSEC (a : Nat) : RF := ⟨0x400A0048 + a * 0x2000, 0, 8⟩
def CE_CYCLES (a : Nat) : RF := ⟨0x400A004C + a * 0x2000, 0, 32⟩
def CE_CYCLES_LAST (a : Nat) : RF := ⟨0x400A004C + a * 0x2000, 0, 16⟩
def CE_CYCLES_MAX (a : Nat) : RF := ⟨0x400A004C + a * 0x2000, 16, 16⟩
def CE_SWAP (a : Nat) : RF := ⟨0x400A0050 + a * 0x2000, 0, 32⟩
def CE_SWAP_COEF (a : Nat) : RF := ⟨0x400A0050 + a * 0x2000, 0, 1⟩
def CE_SWAP_RECIPE (a : Nat) : RF := ⟨0x400A0050 + a * 0x2000, 1, 1⟩
def CE_SWAP_STAT (a : Nat) : RF := ⟨0x400A0054 + a * 0x2000, 0, 32⟩
def CE_SWAP_STAT_ERR_CODE (a : Nat) : RF := ⟨0x400A0054 + a * 0x2000, 0, 4⟩
def CE_SWAP_STAT_ERR_INDEX (a : Nat) : RF := ⟨0x400A0054 + a * 0x2000, 4, 8⟩
def CE_SWAP_STAT_CLAMP_FIRST (a : Nat) : RF := ⟨0x400A0054 + a * 0x2000, 12, 8⟩
def CE_SWAP_STAT_CLAMPS (a : Nat) : RF := ⟨0x400A0054 + a * 0x2000, 20, 8⟩
def CE_STAGE_ADDR (a : Nat) : RF := ⟨0x400A0060 + a * 0x2000, 0, 32⟩
def CE_STAGE_ADDR_INDEX (a : Nat) : RF := ⟨0x400A0060 + a * 0x2000, 0, 14⟩
def CE_STAGE_ADDR_TARGET (a : Nat) : RF := ⟨0x400A0060 + a * 0x2000, 16, 2⟩
def CE_STAGE_ADDR_QUEUED (a : Nat) : RF := ⟨0x400A0060 + a * 0x2000, 24, 7⟩
def CE_STAGE_DATA (a : Nat) : RF := ⟨0x400A0064 + a * 0x2000, 0, 32⟩
def CE_PEEK_ADDR (a : Nat) : RF := ⟨0x400A0068 + a * 0x2000, 0, 32⟩
def CE_PEEK_ADDR_REF (a : Nat) : RF := ⟨0x400A0068 + a * 0x2000, 0, 16⟩
def CE_PEEK_ADDR_STATE (a : Nat) : RF := ⟨0x400A0068 + a * 0x2000, 16, 1⟩
def CE_PEEK_DATA (a : Nat) : RF := ⟨0x400A006C + a * 0x2000, 0, 32⟩
def CE_MB_SKIP (a : Nat) : RF := ⟨0x400A0070 + a * 0x2000, 0, 32⟩
def CE_MB_TORN (a : Nat) : RF := ⟨0x400A0074 + a * 0x2000, 0, 32⟩
def CE_ECC_CE (a : Nat) : RF := ⟨0x400A0078 + a * 0x2000, 0, 32⟩
def CE_TRC_CTL (a : Nat) : RF := ⟨0x400A0080 + a * 0x2000, 0, 32⟩
def CE_TRC_CTL_ARM (a : Nat) : RF := ⟨0x400A0080 + a * 0x2000, 0, 1⟩
def CE_TRC_CTL_FMXTRIG (a : Nat) : RF := ⟨0x400A0080 + a * 0x2000, 1, 1⟩
def CE_TRC_CTL_NBANK_M1 (a : Nat) : RF := ⟨0x400A0080 + a * 0x2000, 4, 4⟩
def CE_TRC_POST (a : Nat) : RF := ⟨0x400A0084 + a * 0x2000, 0, 18⟩
def CE_TRC_STAT (a : Nat) : RF := ⟨0x400A0088 + a * 0x2000, 0, 32⟩
def CE_TRC_STAT_ARMED (a : Nat) : RF := ⟨0x400A0088 + a * 0x2000, 0, 1⟩
def CE_TRC_STAT_TRIGGERED (a : Nat) : RF := ⟨0x400A0088 + a * 0x2000, 1, 1⟩
def CE_TRC_STAT_DONE (a : Nat) : RF := ⟨0x400A0088 + a * 0x2000, 2, 1⟩
def CE_TRC_STAT_ERR_NOT_OWNED (a : Nat) : RF := ⟨0x400A0088 + a * 0x2000, 3, 1⟩
def CE_TRC_STAT_WRAPPED (a : Nat) : RF := ⟨0x400A0088 + a * 0x2000, 4, 1⟩
def CE_TRC_TRIGPOS (a : Nat) : RF := ⟨0x400A008C + a * 0x2000, 0, 18⟩
def CE_TRC_TRIGSTAMP (a : Nat) : RF := ⟨0x400A0090 + a * 0x2000, 0, 64⟩
def CE_TRC_BANK (a b : Nat) : RF := ⟨0x400A00A0 + a * 0x2000 + b * 0x4, 0, 32⟩
def CE_TRC_PROBE (a b : Nat) : RF := ⟨0x400A00C0 + a * 0x2000 + b * 0x4, 0, 16⟩
def CE7_MOVE : RF := ⟨0x400AE100, 0, 32⟩
def CE7_MOVE_SRC : RF := ⟨0x400AE100, 0, 3⟩
def CE7_MOVE_GO : RF := ⟨0x400AE100, 8, 1⟩
def CE7_MOVE_STAT : RF := ⟨0x400AE104, 0, 32⟩
def CE7_MOVE_STAT_BUSY : RF := ⟨0x400AE104, 0, 1⟩
def CE7_MOVE_STAT_CARRYING : RF := ⟨0x400AE104, 1, 1⟩
def CE7_MOVE_STAT_SRC : RF := ⟨0x400AE104, 4, 3⟩
def CE7_MOVE_STAT_ERR : RF := ⟨0x400AE104, 8, 4⟩
def PHT_OUT_CTL : RF := ⟨0x400C0000, 0, 32⟩
def PHT_OUT_CTL_EN : RF := ⟨0x400C0000, 0, 1⟩
def PHT_OUT_CTL_SEL : RF := ⟨0x400C0000, 1, 2⟩
def PHT_OUT_DIV : RF := ⟨0x400C0004, 0, 32⟩
def PHT_OUT_DIV_NUM : RF := ⟨0x400C0004, 0, 16⟩
def PHT_OUT_DIV_DEN : RF := ⟨0x400C0004, 16, 16⟩
def PHT_OUT_STAT : RF := ⟨0x400C0008, 0, 32⟩
def PHT_OUT_STAT_CFGERR : RF := ⟨0x400C0008, 0, 1⟩
def PHT_OUT_STAT_CATCHUP : RF := ⟨0x400C0008, 1, 1⟩
def PHT_PT_CFG (a : Nat) : RF := ⟨0x400C0100 + a * 0x80, 0, 32⟩
def PHT_PT_CFG_SRC (a : Nat) : RF := ⟨0x400C0100 + a * 0x80, 0, 2⟩
def PHT_PT_CFG_TWO (a : Nat) : RF := ⟨0x400C0100 + a * 0x80, 2, 1⟩
def PHT_PT_CFG_ENG (a : Nat) : RF := ⟨0x400C0100 + a * 0x80, 4, 3⟩
def PHT_PT_CFG_SLOT (a : Nat) : RF := ⟨0x400C0100 + a * 0x80, 8, 10⟩
def PHT_PT_CFG_POLICY (a : Nat) : RF := ⟨0x400C0100 + a * 0x80, 24, 1⟩
def PHT_PT_TAPS (a : Nat) : RF := ⟨0x400C0104 + a * 0x80, 0, 32⟩
def PHT_PT_TAPS_TAP_A (a : Nat) : RF := ⟨0x400C0104 + a * 0x80, 0, 8⟩
def PHT_PT_TAPS_TAP_B (a : Nat) : RF := ⟨0x400C0104 + a * 0x80, 8, 8⟩
def PHT_PT_GAIN (a : Nat) : RF := ⟨0x400C0108 + a * 0x80, 0, 32⟩
def PHT_PT_COMP (a : Nat) : RF := ⟨0x400C010C + a * 0x80, 0, 32⟩
def PHT_PT_HYST (a : Nat) : RF := ⟨0x400C0110 + a * 0x80, 0, 32⟩
def PHT_PT_AMP_LO (a : Nat) : RF := ⟨0x400C0114 + a * 0x80, 0, 32⟩
def PHT_PT_AMP_HI (a : Nat) : RF := ⟨0x400C0118 + a * 0x80, 0, 32⟩
def PHT_PT_TIMING (a : Nat) : RF := ⟨0x400C011C + a * 0x80, 0, 32⟩
def PHT_PT_TIMING_AFILT (a : Nat) : RF := ⟨0x400C011C + a * 0x80, 0, 8⟩
def PHT_PT_TIMING_MININT (a : Nat) : RF := ⟨0x400C011C + a * 0x80, 8, 8⟩
def PHT_PT_TIMING_TIMEOUT (a : Nat) : RF := ⟨0x400C011C + a * 0x80, 16, 8⟩
def PHT_PT_TOL (a : Nat) : RF := ⟨0x400C0120 + a * 0x80, 0, 16⟩
def PHT_PT_STAT (a : Nat) : RF := ⟨0x400C0124 + a * 0x80, 0, 32⟩
def PHT_PT_STAT_VALID (a : Nat) : RF := ⟨0x400C0124 + a * 0x80, 0, 1⟩
def PHT_PT_STAT_AMP_OK (a : Nat) : RF := ⟨0x400C0124 + a * 0x80, 1, 1⟩
def PHT_PT_STAT_DIR (a : Nat) : RF := ⟨0x400C0124 + a * 0x80, 2, 1⟩
def PHT_PT_STAT_FIRST (a : Nat) : RF := ⟨0x400C0124 + a * 0x80, 3, 1⟩
def PHT_PT_STAT_RUNNING (a : Nat) : RF := ⟨0x400C0124 + a * 0x80, 4, 1⟩
def PHT_PT_STAT_CFGERR (a : Nat) : RF := ⟨0x400C0124 + a * 0x80, 5, 1⟩
def PHT_PT_INT_STAT (a : Nat) : RF := ⟨0x400C0128 + a * 0x80, 0, 32⟩
def PHT_PT_INT_STAT_EDGE_FAULT (a : Nat) : RF := ⟨0x400C0128 + a * 0x80, 0, 1⟩
def PHT_PT_INT_STAT_SLIP (a : Nat) : RF := ⟨0x400C0128 + a * 0x80, 1, 1⟩
def PHT_PT_INT_STAT_DIR_CHG (a : Nat) : RF := ⟨0x400C0128 + a * 0x80, 2, 1⟩
def PHT_PT_INT_STAT_VALID_CHG (a : Nat) : RF := ⟨0x400C0128 + a * 0x80, 3, 1⟩
def PHT_PT_INT_STAT_AMP_FAULT (a : Nat) : RF := ⟨0x400C0128 + a * 0x80, 4, 1⟩
def PHT_PT_INT_STAT_TIMEOUT (a : Nat) : RF := ⟨0x400C0128 + a * 0x80, 5, 1⟩
def PHT_PT_INT_EN (a : Nat) : RF := ⟨0x400C012C + a * 0x80, 0, 6⟩
def PHT_PT_ANGLE (a : Nat) : RF := ⟨0x400C0130 + a * 0x80, 0, 32⟩
def PHT_PT_FREQ (a : Nat) : RF := ⟨0x400C0134 + a * 0x80, 0, 32⟩
def PHT_PT_EDGE_FAULT (a : Nat) : RF := ⟨0x400C0138 + a * 0x80, 0, 32⟩
def PHT_PT_SLIP_COUNT (a : Nat) : RF := ⟨0x400C013C + a * 0x80, 0, 32⟩
def PHT_PT_AMP (a : Nat) : RF := ⟨0x400C0140 + a * 0x80, 0, 32⟩
def PHT_PT_EDGE_STAMP (a : Nat) : RF := ⟨0x400C0144 + a * 0x80, 0, 32⟩
def PHT_PT_SLIP_LAST (a : Nat) : RF := ⟨0x400C0148 + a * 0x80, 0, 16⟩
def PWM_TB : RF := ⟨0x400D0000, 0, 64⟩
def PWM_GLOAD : RF := ⟨0x400D0008, 0, 8⟩
def PWM_LEVEL0 : RF := ⟨0x400D0010, 0, 32⟩
def PWM_LEVEL1 : RF := ⟨0x400D0014, 0, 16⟩
def PWM_HOLD0 : RF := ⟨0x400D0018, 0, 32⟩
def PWM_HOLD1 : RF := ⟨0x400D001C, 0, 16⟩
def PWM_PG_CTL (a : Nat) : RF := ⟨0x400D0100 + a * 0x80, 0, 32⟩
def PWM_PG_CTL_EN (a : Nat) : RF := ⟨0x400D0100 + a * 0x80, 0, 1⟩
def PWM_PG_CTL_MODE (a : Nat) : RF := ⟨0x400D0100 + a * 0x80, 1, 1⟩
def PWM_PG_CTL_REF (a : Nat) : RF := ⟨0x400D0100 + a * 0x80, 2, 2⟩
def PWM_PG_CTL_TT (a : Nat) : RF := ⟨0x400D0100 + a * 0x80, 4, 4⟩
def PWM_PG_CTL_MINPOL (a : Nat) : RF := ⟨0x400D0100 + a * 0x80, 8, 1⟩
def PWM_PG_CTL_TRGEN (a : Nat) : RF := ⟨0x400D0100 + a * 0x80, 12, 4⟩
def PWM_PG_STAT (a : Nat) : RF := ⟨0x400D0104 + a * 0x80, 0, 32⟩
def PWM_PG_STAT_RUNNING (a : Nat) : RF := ⟨0x400D0104 + a * 0x80, 0, 1⟩
def PWM_PG_STAT_ALIGNED (a : Nat) : RF := ⟨0x400D0104 + a * 0x80, 1, 1⟩
def PWM_PG_STAT_BLOCKED (a : Nat) : RF := ⟨0x400D0104 + a * 0x80, 2, 1⟩
def PWM_PG_STAT_FROZEN (a : Nat) : RF := ⟨0x400D0104 + a * 0x80, 3, 1⟩
def PWM_PG_STAT_LOADPEND (a : Nat) : RF := ⟨0x400D0104 + a * 0x80, 4, 1⟩
def PWM_PG_INT_STAT (a : Nat) : RF := ⟨0x400D0108 + a * 0x80, 0, 32⟩
def PWM_PG_INT_STAT_LOAD_DONE (a : Nat) : RF := ⟨0x400D0108 + a * 0x80, 0, 1⟩
def PWM_PG_INT_STAT_LATE_SHADOW (a : Nat) : RF := ⟨0x400D0108 + a * 0x80, 1, 1⟩
def PWM_PG_INT_STAT_DUTY_CLAMP (a : Nat) : RF := ⟨0x400D0108 + a * 0x80, 2, 1⟩
def PWM_PG_INT_STAT_PERIOD_CLAMP (a : Nat) : RF := ⟨0x400D0108 + a * 0x80, 3, 1⟩
def PWM_PG_INT_STAT_BOOT_REFRESH (a : Nat) : RF := ⟨0x400D0108 + a * 0x80, 4, 1⟩
def PWM_PG_INT_STAT_INTERLOCK (a : Nat) : RF := ⟨0x400D0108 + a * 0x80, 5, 1⟩
def PWM_PG_INT_STAT_TRG_RANGE (a : Nat) : RF := ⟨0x400D0108 + a * 0x80, 6, 1⟩
def PWM_PG_INT_STAT_ALIGN_LATE (a : Nat) : RF := ⟨0x400D0108 + a * 0x80, 7, 1⟩
def PWM_PG_INT_EN (a : Nat) : RF := ⟨0x400D010C + a * 0x80, 0, 8⟩
def PWM_PG_PERIOD_SH (a : Nat) : RF := ⟨0x400D0110 + a * 0x80, 0, 40⟩
def PWM_PG_PERIOD (a : Nat) : RF := ⟨0x400D0118 + a * 0x80, 0, 40⟩
def PWM_PG_PHASE (a : Nat) : RF := ⟨0x400D0120 + a * 0x80, 0, 32⟩
def PWM_PG_DT (a : Nat) : RF := ⟨0x400D0124 + a * 0x80, 0, 18⟩
def PWM_PG_MINP (a : Nat) : RF := ⟨0x400D0128 + a * 0x80, 0, 18⟩
def PWM_PG_BOOT (a : Nat) : RF := ⟨0x400D012C + a * 0x80, 0, 32⟩
def PWM_PG_BOOT_KM1 (a : Nat) : RF := ⟨0x400D012C + a * 0x80, 0, 4⟩
def PWM_PG_BOOT_BOFF (a : Nat) : RF := ⟨0x400D012C + a * 0x80, 4, 20⟩
def PWM_PG_TRG (a b : Nat) : RF := ⟨0x400D0130 + a * 0x80 + b * 0x4, 0, 32⟩
def PWM_PG_LOADALL (a : Nat) : RF := ⟨0x400D0140 + a * 0x80, 0, 1⟩
def PWM_PG_PCOUNT (a : Nat) : RF := ⟨0x400D0144 + a * 0x80, 0, 32⟩
def PWM_PG_LASTLOAD (a : Nat) : RF := ⟨0x400D0148 + a * 0x80, 0, 64⟩
def PWM_CH_CFG (a : Nat) : RF := ⟨0x400D0800 + a * 0x20, 0, 32⟩
def PWM_CH_CFG_EN (a : Nat) : RF := ⟨0x400D0800 + a * 0x20, 0, 1⟩
def PWM_CH_CFG_GROUP (a : Nat) : RF := ⟨0x400D0800 + a * 0x20, 1, 3⟩
def PWM_CH_CFG_CENTRE (a : Nat) : RF := ⟨0x400D0800 + a * 0x20, 4, 1⟩
def PWM_CH_CFG_BOOTSTRAP (a : Nat) : RF := ⟨0x400D0800 + a * 0x20, 5, 1⟩
def PWM_CH_DUTY_SH (a : Nat) : RF := ⟨0x400D0808 + a * 0x20, 0, 40⟩
def PWM_CH_DUTY (a : Nat) : RF := ⟨0x400D0810 + a * 0x20, 0, 40⟩
def PWM_LN_ILK (a : Nat) : RF := ⟨0x400D0E00 + a * 0x4, 0, 32⟩
def PWM_LN_ILK_PAIRS (a : Nat) : RF := ⟨0x400D0E00 + a * 0x4, 0, 2⟩
def PWM_LN_ILK_FORBID0 (a : Nat) : RF := ⟨0x400D0E00 + a * 0x4, 4, 4⟩
def PWM_LN_ILK_FORBID1 (a : Nat) : RF := ⟨0x400D0E00 + a * 0x4, 8, 4⟩
def PWM_LN_ILK_FORBID2 (a : Nat) : RF := ⟨0x400D0E00 + a * 0x4, 12, 4⟩
def PWM_LN_ILK_FORBID3 (a : Nat) : RF := ⟨0x400D0E00 + a * 0x4, 16, 4⟩
def PWM_LN_ILK_HITS (a : Nat) : RF := ⟨0x400D0E00 + a * 0x4, 24, 8⟩
def FMX_SRC_STAT (a : Nat) : RF := ⟨0x400E0000 + a * 0x4, 0, 32⟩
def FMX_SRC_FLAG (a : Nat) : RF := ⟨0x400E0010 + a * 0x4, 0, 32⟩
def FMX_SRC_CLASS (a : Nat) : RF := ⟨0x400E0020 + a * 0x4, 0, 32⟩
def FMX_FLT_CFG (a : Nat) : RF := ⟨0x400E0040 + a * 0x4, 0, 32⟩
def FMX_FLT_CFG_EN (a : Nat) : RF := ⟨0x400E0040 + a * 0x4, 0, 1⟩
def FMX_FLT_CFG_POL (a : Nat) : RF := ⟨0x400E0040 + a * 0x4, 1, 1⟩
def FMX_FLT_CFG_FILT (a : Nat) : RF := ⟨0x400E0040 + a * 0x4, 2, 6⟩
def FMX_PG_STAT (a : Nat) : RF := ⟨0x400E0100 + a * 0x80, 0, 32⟩
def FMX_PG_STAT_ACTION (a : Nat) : RF := ⟨0x400E0100 + a * 0x80, 0, 3⟩
def FMX_PG_STAT_LATCHED (a : Nat) : RF := ⟨0x400E0100 + a * 0x80, 3, 1⟩
def FMX_PG_STAT_BLOCK (a : Nat) : RF := ⟨0x400E0100 + a * 0x80, 4, 1⟩
def FMX_PG_STAT_MUTED (a : Nat) : RF := ⟨0x400E0100 + a * 0x80, 5, 1⟩
def FMX_PG_CAUSE (a : Nat) : RF := ⟨0x400E0104 + a * 0x80, 0, 32⟩
def FMX_PG_CAUSE_SRC (a : Nat) : RF := ⟨0x400E0104 + a * 0x80, 0, 7⟩
def FMX_PG_CAUSE_VALID (a : Nat) : RF := ⟨0x400E0104 + a * 0x80, 7, 1⟩
def FMX_PG_CLR (a : Nat) : RF := ⟨0x400E0108 + a * 0x80, 0, 1⟩
def FMX_PG_INT_STAT (a : Nat) : RF := ⟨0x400E010C + a * 0x80, 0, 32⟩
def FMX_PG_INT_STAT_ACT (a : Nat) : RF := ⟨0x400E010C + a * 0x80, 0, 1⟩
def FMX_PG_INT_STAT_CLEARED (a : Nat) : RF := ⟨0x400E010C + a * 0x80, 1, 1⟩
def FMX_PG_INT_STAT_CLR_REFUSED (a : Nat) : RF := ⟨0x400E010C + a * 0x80, 2, 1⟩
def FMX_PG_INT_STAT_ESCALATED (a : Nat) : RF := ⟨0x400E010C + a * 0x80, 3, 1⟩
def FMX_PG_INT_EN (a : Nat) : RF := ⟨0x400E0110 + a * 0x80, 0, 4⟩
def FMX_PG_COUNT (a : Nat) : RF := ⟨0x400E0114 + a * 0x80, 0, 32⟩
def FMX_PG_ACT (a b : Nat) : RF := ⟨0x400E0140 + a * 0x80 + b * 0x4, 0, 32⟩
def FMX_PG_ACT_ACTION0 (a b : Nat) : RF := ⟨0x400E0140 + a * 0x80 + b * 0x4, 0, 3⟩
def FMX_PG_ACT_ACTION1 (a b : Nat) : RF := ⟨0x400E0140 + a * 0x80 + b * 0x4, 4, 3⟩
def FMX_PG_ACT_ACTION2 (a b : Nat) : RF := ⟨0x400E0140 + a * 0x80 + b * 0x4, 8, 3⟩
def FMX_PG_ACT_ACTION3 (a b : Nat) : RF := ⟨0x400E0140 + a * 0x80 + b * 0x4, 12, 3⟩
def FMX_PG_ACT_ACTION4 (a b : Nat) : RF := ⟨0x400E0140 + a * 0x80 + b * 0x4, 16, 3⟩
def FMX_PG_ACT_ACTION5 (a b : Nat) : RF := ⟨0x400E0140 + a * 0x80 + b * 0x4, 20, 3⟩
def FMX_PG_ACT_ACTION6 (a b : Nat) : RF := ⟨0x400E0140 + a * 0x80 + b * 0x4, 24, 3⟩
def FMX_PG_ACT_ACTION7 (a b : Nat) : RF := ⟨0x400E0140 + a * 0x80 + b * 0x4, 28, 3⟩
def LNE_UP : RF := ⟨0x400F0000, 0, 12⟩
def LNE_MUTE : RF := ⟨0x400F0004, 0, 12⟩
def LNE_INT_SUM : RF := ⟨0x400F0008, 0, 12⟩
def LNE_LN_CTL (a : Nat) : RF := ⟨0x400F0100 + a * 0x100, 0, 32⟩
def LNE_LN_CTL_EN (a : Nat) : RF := ⟨0x400F0100 + a * 0x100, 0, 1⟩
def LNE_LN_CTL_TRAIN (a : Nat) : RF := ⟨0x400F0100 + a * 0x100, 1, 1⟩
def LNE_LN_STAT (a : Nat) : RF := ⟨0x400F0104 + a * 0x100, 0, 32⟩
def LNE_LN_STAT_STATE (a : Nat) : RF := ⟨0x400F0104 + a * 0x100, 0, 3⟩
def LNE_LN_STAT_MUTED (a : Nat) : RF := ⟨0x400F0104 + a * 0x100, 3, 1⟩
def LNE_LN_STAT_HEAD_SAFE (a : Nat) : RF := ⟨0x400F0104 + a * 0x100, 4, 1⟩
def LNE_LN_STAT_HEAD_CAUSE (a : Nat) : RF := ⟨0x400F0104 + a * 0x100, 5, 3⟩
def LNE_LN_STAT_HEAD_UV (a : Nat) : RF := ⟨0x400F0104 + a * 0x100, 8, 1⟩
def LNE_LN_STAT_OTHER_LINK (a : Nat) : RF := ⟨0x400F0104 + a * 0x100, 9, 1⟩
def LNE_LN_STAT_PORT (a : Nat) : RF := ⟨0x400F0104 + a * 0x100, 10, 1⟩
def LNE_LN_STAT_TSRC (a : Nat) : RF := ⟨0x400F0104 + a * 0x100, 11, 1⟩
def LNE_LN_STAT_TRAIN_ERR (a : Nat) : RF := ⟨0x400F0104 + a * 0x100, 12, 4⟩
def LNE_LN_STAT_FS_CAUSE (a : Nat) : RF := ⟨0x400F0104 + a * 0x100, 16, 4⟩
def LNE_LN_INT_STAT (a : Nat) : RF := ⟨0x400F0108 + a * 0x100, 0, 32⟩
def LNE_LN_INT_STAT_DESAT (a : Nat) : RF := ⟨0x400F0108 + a * 0x100, 0, 1⟩
def LNE_LN_INT_STAT_DS_LATCH (a : Nat) : RF := ⟨0x400F0108 + a * 0x100, 1, 1⟩
def LNE_LN_INT_STAT_LINK_LOST (a : Nat) : RF := ⟨0x400F0108 + a * 0x100, 2, 1⟩
def LNE_LN_INT_STAT_LINK_UP (a : Nat) : RF := ⟨0x400F0108 + a * 0x100, 3, 1⟩
def LNE_LN_INT_STAT_HEAD_SAFE (a : Nat) : RF := ⟨0x400F0108 + a * 0x100, 4, 1⟩
def LNE_LN_INT_STAT_HEAD_UV (a : Nat) : RF := ⟨0x400F0108 + a * 0x100, 5, 1⟩
def LNE_LN_INT_STAT_QFULL (a : Nat) : RF := ⟨0x400F0108 + a * 0x100, 6, 1⟩
def LNE_LN_INT_STAT_LATE (a : Nat) : RF := ⟨0x400F0108 + a * 0x100, 7, 1⟩
def LNE_LN_INT_STAT_MISMATCH (a : Nat) : RF := ⟨0x400F0108 + a * 0x100, 8, 1⟩
def LNE_LN_INT_STAT_PORT_LOST (a : Nat) : RF := ⟨0x400F0108 + a * 0x100, 9, 1⟩
def LNE_LN_INT_STAT_GATE_MISMATCH (a : Nat) : RF := ⟨0x400F0108 + a * 0x100, 10, 1⟩
def LNE_LN_INT_STAT_DIAG_DONE (a : Nat) : RF := ⟨0x400F0108 + a * 0x100, 11, 1⟩
def LNE_LN_INT_STAT_TRAIN_DONE (a : Nat) : RF := ⟨0x400F0108 + a * 0x100, 12, 1⟩
def LNE_LN_INT_STAT_TRAIN_FAIL (a : Nat) : RF := ⟨0x400F0108 + a * 0x100, 13, 1⟩
def LNE_LN_INT_STAT_CFG_DONE (a : Nat) : RF := ⟨0x400F0108 + a * 0x100, 14, 1⟩
def LNE_LN_INT_STAT_CFG_FAIL (a : Nat) : RF := ⟨0x400F0108 + a * 0x100, 15, 1⟩
def LNE_LN_INT_EN (a : Nat) : RF := ⟨0x400F010C + a * 0x100, 0, 16⟩
def LNE_LN_LEAD (a : Nat) : RF := ⟨0x400F0110 + a * 0x100, 0, 19⟩
def LNE_LN_BLANK (a : Nat) : RF := ⟨0x400F0114 + a * 0x100, 0, 11⟩
def LNE_LN_DELAY (a : Nat) : RF := ⟨0x400F0118 + a * 0x100, 0, 12⟩
def LNE_LN_SEQ (a : Nat) : RF := ⟨0x400F011C + a * 0x100, 0, 32⟩
def LNE_LN_HSEQ (a : Nat) : RF := ⟨0x400F0120 + a * 0x100, 0, 32⟩
def LNE_LN_HSTAT (a : Nat) : RF := ⟨0x400F0124 + a * 0x100, 0, 32⟩
def LNE_LN_HSTAT_C10 (a : Nat) : RF := ⟨0x400F0124 + a * 0x100, 0, 8⟩
def LNE_LN_HSTAT_C11 (a : Nat) : RF := ⟨0x400F0124 + a * 0x100, 8, 8⟩
def LNE_LN_HSTAT_C14 (a : Nat) : RF := ⟨0x400F0124 + a * 0x100, 16, 8⟩
def LNE_LN_HCH (a : Nat) : RF := ⟨0x400F0128 + a * 0x100, 0, 32⟩
def LNE_LN_DESAT (a : Nat) : RF := ⟨0x400F012C + a * 0x100, 0, 32⟩
def LNE_LN_DESAT_LATCHED (a : Nat) : RF := ⟨0x400F012C + a * 0x100, 0, 4⟩
def LNE_LN_DESAT_ACTIVE (a : Nat) : RF := ⟨0x400F012C + a * 0x100, 8, 4⟩
def LNE_LN_DESAT_COUNT (a : Nat) : RF := ⟨0x400F012C + a * 0x100, 16, 8⟩
def LNE_LN_DSCLR (a : Nat) : RF := ⟨0x400F0130 + a * 0x100, 0, 4⟩
def LNE_LN_DIAG_CMD (a : Nat) : RF := ⟨0x400F0134 + a * 0x100, 0, 32⟩
def LNE_LN_DIAG_CMD_MASK (a : Nat) : RF := ⟨0x400F0134 + a * 0x100, 0, 4⟩
def LNE_LN_DIAG_CMD_DUR (a : Nat) : RF := ⟨0x400F0134 + a * 0x100, 4, 8⟩
def LNE_LN_DIAG_CMD_GO (a : Nat) : RF := ⟨0x400F0134 + a * 0x100, 31, 1⟩
def LNE_LN_DIAG_WIN0 (a : Nat) : RF := ⟨0x400F0138 + a * 0x100, 0, 32⟩
def LNE_LN_DIAG_WIN0_T0 (a : Nat) : RF := ⟨0x400F0138 + a * 0x100, 0, 16⟩
def LNE_LN_DIAG_WIN0_T1 (a : Nat) : RF := ⟨0x400F0138 + a * 0x100, 16, 16⟩
def LNE_LN_DIAG_WIN1 (a : Nat) : RF := ⟨0x400F013C + a * 0x100, 0, 16⟩
def LNE_LN_DIAG_RES (a : Nat) : RF := ⟨0x400F0140 + a * 0x100, 0, 32⟩
def LNE_LN_DIAG_RES_CLASS0 (a : Nat) : RF := ⟨0x400F0140 + a * 0x100, 0, 3⟩
def LNE_LN_DIAG_RES_CLASS1 (a : Nat) : RF := ⟨0x400F0140 + a * 0x100, 4, 3⟩
def LNE_LN_DIAG_RES_CLASS2 (a : Nat) : RF := ⟨0x400F0140 + a * 0x100, 8, 3⟩
def LNE_LN_DIAG_RES_CLASS3 (a : Nat) : RF := ⟨0x400F0140 + a * 0x100, 12, 3⟩
def LNE_LN_DIAG_VAL0 (a : Nat) : RF := ⟨0x400F0144 + a * 0x100, 0, 32⟩
def LNE_LN_DIAG_VAL0_S1 (a : Nat) : RF := ⟨0x400F0144 + a * 0x100, 0, 16⟩
def LNE_LN_DIAG_VAL0_S2 (a : Nat) : RF := ⟨0x400F0144 + a * 0x100, 16, 16⟩
def LNE_LN_DIAG_VAL1 (a : Nat) : RF := ⟨0x400F0148 + a * 0x100, 0, 32⟩
def LNE_LN_DIAG_VAL1_S3 (a : Nat) : RF := ⟨0x400F0148 + a * 0x100, 0, 16⟩
def LNE_LN_DIAG_VAL1_S4 (a : Nat) : RF := ⟨0x400F0148 + a * 0x100, 16, 16⟩
def LNE_LN_CFG_CMD (a : Nat) : RF := ⟨0x400F014C + a * 0x100, 0, 32⟩
def LNE_LN_CFG_CMD_ADDR (a : Nat) : RF := ⟨0x400F014C + a * 0x100, 0, 8⟩
def LNE_LN_CFG_CMD_DATA (a : Nat) : RF := ⟨0x400F014C + a * 0x100, 8, 16⟩
def LNE_LN_CFG_CMD_GO (a : Nat) : RF := ⟨0x400F014C + a * 0x100, 31, 1⟩
def LNE_LN_HCFG (a b : Nat) : RF := ⟨0x400F0150 + a * 0x100 + b * 0x4, 0, 32⟩
def LNE_LN_HCFG_ADDR (a b : Nat) : RF := ⟨0x400F0150 + a * 0x100 + b * 0x4, 0, 8⟩
def LNE_LN_HCFG_DATA (a b : Nat) : RF := ⟨0x400F0150 + a * 0x100 + b * 0x4, 8, 16⟩
def LNE_LN_HCFG_VALID (a b : Nat) : RF := ⟨0x400F0150 + a * 0x100 + b * 0x4, 31, 1⟩
def LNE_LN_COUNT0 (a : Nat) : RF := ⟨0x400F0170 + a * 0x100, 0, 32⟩
def LNE_LN_COUNT0_CRCERR (a : Nat) : RF := ⟨0x400F0170 + a * 0x100, 0, 16⟩
def LNE_LN_COUNT0_OVWR (a : Nat) : RF := ⟨0x400F0170 + a * 0x100, 16, 16⟩
def LNE_LN_COUNT1 (a : Nat) : RF := ⟨0x400F0174 + a * 0x100, 0, 32⟩
def LNE_LN_COUNT1_DROPS (a : Nat) : RF := ⟨0x400F0174 + a * 0x100, 0, 16⟩
def LNE_LN_COUNT1_HEADSAFE (a : Nat) : RF := ⟨0x400F0174 + a * 0x100, 16, 16⟩
def LNE_LN_MUX (a b : Nat) : RF := ⟨0x400F0180 + a * 0x100 + b * 0x4, 0, 32⟩
def LNE_LN_MUX_EVEN (a b : Nat) : RF := ⟨0x400F0180 + a * 0x100 + b * 0x4, 0, 16⟩
def LNE_LN_MUX_ODD (a b : Nat) : RF := ⟨0x400F0180 + a * 0x100 + b * 0x4, 16, 16⟩
def NET_CTL : RF := ⟨0x40100000, 0, 32⟩
def NET_CTL_EN_A : RF := ⟨0x40100000, 0, 1⟩
def NET_CTL_EN_B : RF := ⟨0x40100000, 1, 1⟩
def NET_CTL_EN_S : RF := ⟨0x40100000, 2, 1⟩
def NET_CTL_BCN_EN : RF := ⟨0x40100000, 3, 1⟩
def NET_CTL_SUPV_EN : RF := ⟨0x40100000, 4, 1⟩
def NET_STAT : RF := ⟨0x40100004, 0, 5⟩
def NET_INT_STAT : RF := ⟨0x40100008, 0, 32⟩
def NET_INT_STAT_H0_RX : RF := ⟨0x40100008, 0, 1⟩
def NET_INT_STAT_H0_TX : RF := ⟨0x40100008, 1, 1⟩
def NET_INT_STAT_H1_RX : RF := ⟨0x40100008, 2, 1⟩
def NET_INT_STAT_H1_TX : RF := ⟨0x40100008, 3, 1⟩
def NET_INT_STAT_LINK_CHG : RF := ⟨0x40100008, 4, 1⟩
def NET_INT_STAT_LOOP : RF := ⟨0x40100008, 5, 1⟩
def NET_INT_STAT_CMN_NEW : RF := ⟨0x40100008, 6, 1⟩
def NET_INT_STAT_CMN_LOST : RF := ⟨0x40100008, 7, 1⟩
def NET_INT_STAT_CMN_STALE : RF := ⟨0x40100008, 8, 1⟩
def NET_INT_STAT_CMN_EVICT : RF := ⟨0x40100008, 9, 1⟩
def NET_INT_STAT_CMN_REFUSED : RF := ⟨0x40100008, 10, 1⟩
def NET_INT_STAT_CMN_DONE : RF := ⟨0x40100008, 11, 1⟩
def NET_INT_STAT_RXDROP : RF := ⟨0x40100008, 12, 1⟩
def NET_INT_STAT_TXERR : RF := ⟨0x40100008, 13, 1⟩
def NET_INT_STAT_DDOVF : RF := ⟨0x40100008, 14, 1⟩
def NET_INT_EN : RF := ⟨0x4010000C, 0, 15⟩
def NET_DEVMAC_LO : RF := ⟨0x40100010, 0, 32⟩
def NET_DEVMAC_HI : RF := ⟨0x40100014, 0, 16⟩
def NET_PAIRMAC_LO : RF := ⟨0x40100018, 0, 32⟩
def NET_PAIRMAC_HI : RF := ⟨0x4010001C, 0, 16⟩
def NET_PCP_MAP : RF := ⟨0x40100020, 0, 32⟩
def NET_PCP_MAP_CLASS : RF := ⟨0x40100020, 0, 16⟩
def NET_PCP_MAP_DEF_PCP : RF := ⟨0x40100020, 16, 3⟩
def NET_MC_HASH0 : RF := ⟨0x40100024, 0, 32⟩
def NET_MC_HASH1 : RF := ⟨0x40100028, 0, 32⟩
def NET_PRP_CFG : RF := ⟨0x40100030, 0, 16⟩
def NET_PRP_SEQ : RF := ⟨0x40100034, 0, 32⟩
def NET_PRP_SEQ_DEVICE : RF := ⟨0x40100034, 0, 16⟩
def NET_PRP_SEQ_PAIR : RF := ⟨0x40100034, 16, 16⟩
def NET_PRP_DUP : RF := ⟨0x40100038, 0, 32⟩
def NET_PRP_NONPRP : RF := ⟨0x4010003C, 0, 32⟩
def NET_PRP_WRONGLAN : RF := ⟨0x40100040, 0, 32⟩
def NET_PRP_DDOVF : RF := ⟨0x40100044, 0, 32⟩
def NET_BADVND : RF := ⟨0x40100048, 0, 32⟩
def NET_P_CTL (a : Nat) : RF := ⟨0x40100100 + a * 0x40, 0, 32⟩
def NET_P_CTL_AN (a : Nat) : RF := ⟨0x40100100 + a * 0x40, 0, 1⟩
def NET_P_CTL_FWD (a : Nat) : RF := ⟨0x40100100 + a * 0x40, 1, 1⟩
def NET_P_STAT (a : Nat) : RF := ⟨0x40100104 + a * 0x40, 0, 32⟩
def NET_P_STAT_LINK (a : Nat) : RF := ⟨0x40100104 + a * 0x40, 0, 1⟩
def NET_P_STAT_AN_DONE (a : Nat) : RF := ⟨0x40100104 + a * 0x40, 1, 1⟩
def NET_P_RX_OK (a : Nat) : RF := ⟨0x40100108 + a * 0x40, 0, 32⟩
def NET_P_TX_OK (a : Nat) : RF := ⟨0x4010010C + a * 0x40, 0, 32⟩
def NET_P_CNT (a b : Nat) : RF := ⟨0x40100110 + a * 0x40 + b * 0x4, 0, 32⟩
def NET_P_CNT_LO (a b : Nat) : RF := ⟨0x40100110 + a * 0x40 + b * 0x4, 0, 16⟩
def NET_P_CNT_HI (a b : Nat) : RF := ⟨0x40100110 + a * 0x40 + b * 0x4, 16, 16⟩
def NET_P_BUF (a : Nat) : RF := ⟨0x40100120 + a * 0x40, 0, 32⟩
def NET_P_BUF_RXOCC (a : Nat) : RF := ⟨0x40100120 + a * 0x40, 0, 11⟩
def NET_P_BUF_TXOCC (a : Nat) : RF := ⟨0x40100120 + a * 0x40, 16, 10⟩
def NET_H_RXBASE (a : Nat) : RF := ⟨0x40100400 + a * 0x40, 0, 32⟩
def NET_H_RXCFG (a : Nat) : RF := ⟨0x40100404 + a * 0x40, 0, 32⟩
def NET_H_RXCFG_LOG2N (a : Nat) : RF := ⟨0x40100404 + a * 0x40, 0, 4⟩
def NET_H_RXCFG_HEAD (a : Nat) : RF := ⟨0x40100404 + a * 0x40, 16, 10⟩
def NET_H_TXBASE (a : Nat) : RF := ⟨0x40100408 + a * 0x40, 0, 32⟩
def NET_H_TXCFG (a : Nat) : RF := ⟨0x4010040C + a * 0x40, 0, 32⟩
def NET_H_TXCFG_LOG2N (a : Nat) : RF := ⟨0x4010040C + a * 0x40, 0, 4⟩
def NET_H_TXCFG_HEAD (a : Nat) : RF := ⟨0x4010040C + a * 0x40, 16, 10⟩
def NET_H_TXKICK (a : Nat) : RF := ⟨0x40100410 + a * 0x40, 0, 1⟩
def NET_H_RXDROP (a : Nat) : RF := ⟨0x40100414 + a * 0x40, 0, 32⟩
def NET_RXF_CFG (a : Nat) : RF := ⟨0x40100800 + a * 0x10, 0, 32⟩
def NET_RXF_CFG_EN (a : Nat) : RF := ⟨0x40100800 + a * 0x10, 0, 1⟩
def NET_RXF_CFG_CHAN (a : Nat) : RF := ⟨0x40100800 + a * 0x10, 16, 16⟩
def NET_RXF_SLOT (a : Nat) : RF := ⟨0x40100804 + a * 0x10, 0, 14⟩
def NET_RXF_COUNT (a : Nat) : RF := ⟨0x40100808 + a * 0x10, 0, 32⟩
def NET_TXS_CFG (a : Nat) : RF := ⟨0x40100A00 + a * 0x20, 0, 32⟩
def NET_TXS_CFG_EN (a : Nat) : RF := ⟨0x40100A00 + a * 0x20, 0, 1⟩
def NET_TXS_CFG_PCP (a : Nat) : RF := ⟨0x40100A00 + a * 0x20, 1, 3⟩
def NET_TXS_CFG_VID (a : Nat) : RF := ⟨0x40100A00 + a * 0x20, 4, 12⟩
def NET_TXS_CFG_CHAN (a : Nat) : RF := ⟨0x40100A00 + a * 0x20, 16, 16⟩
def NET_TXS_SLOT (a : Nat) : RF := ⟨0x40100A04 + a * 0x20, 0, 14⟩
def NET_TXS_DA_LO (a : Nat) : RF := ⟨0x40100A08 + a * 0x20, 0, 32⟩
def NET_TXS_DA_HI (a : Nat) : RF := ⟨0x40100A0C + a * 0x20, 0, 16⟩
def NET_TXS_COUNT (a : Nat) : RF := ⟨0x40100A10 + a * 0x20, 0, 32⟩
def NET_TXS_COUNT_SENT (a : Nat) : RF := ⟨0x40100A10 + a * 0x20, 0, 16⟩
def NET_TXS_COUNT_DROPS (a : Nat) : RF := ⟨0x40100A10 + a * 0x20, 16, 16⟩
def NET_CMN_CFG : RF := ⟨0x40101000, 0, 32⟩
def NET_CMN_CFG_AGE : RF := ⟨0x40101000, 0, 16⟩
def NET_CMN_CFG_PERIOD : RF := ⟨0x40101000, 16, 16⟩
def NET_CMN_STAT : RF := ⟨0x40101004, 0, 32⟩
def NET_CMN_STAT_USED : RF := ⟨0x40101004, 0, 10⟩
def NET_CMN_STAT_BUSY : RF := ⟨0x40101004, 10, 1⟩
def NET_CMN_STAT_ERR : RF := ⟨0x40101004, 12, 3⟩
def NET_CMN_STAT_PINNED : RF := ⟨0x40101004, 16, 10⟩
def NET_CMN_CMD : RF := ⟨0x40101008, 0, 32⟩
def NET_CMN_CMD_INDEX : RF := ⟨0x40101008, 0, 10⟩
def NET_CMN_CMD_OP : RF := ⟨0x40101008, 16, 3⟩
def NET_CMN_GEN : RF := ⟨0x4010100C, 0, 32⟩
def NET_CMN_KEY_LO : RF := ⟨0x40101010, 0, 32⟩
def NET_CMN_KEY_HI : RF := ⟨0x40101014, 0, 16⟩
def NET_CMN_EVICT : RF := ⟨0x40101018, 0, 32⟩
def NET_CMN_REFUSED : RF := ⟨0x4010101C, 0, 32⟩
def NET_CMN_W (a : Nat) : RF := ⟨0x40101040 + a * 0x4, 0, 32⟩
def NET_BCN_STATUS : RF := ⟨0x40101080, 0, 32⟩
def NET_BCN_USER (a : Nat) : RF := ⟨0x40101084 + a * 0x4, 0, 32⟩
def TSU_CTL : RF := ⟨0x40110000, 0, 32⟩
def TSU_CTL_EN : RF := ⟨0x40110000, 0, 1⟩
def TSU_CTL_SEL : RF := ⟨0x40110000, 1, 1⟩
def TSU_CTL_AUTOSEL : RF := ⟨0x40110000, 2, 1⟩
def TSU_CTL_HOLD : RF := ⟨0x40110000, 3, 1⟩
def TSU_CTL_STEP_EN : RF := ⟨0x40110000, 4, 1⟩
def TSU_STAT : RF := ⟨0x40110004, 0, 32⟩
def TSU_STAT_TB_SET : RF := ⟨0x40110004, 0, 1⟩
def TSU_STAT_SLEWING : RF := ⟨0x40110004, 1, 1⟩
def TSU_STAT_TIME_OK : RF := ⟨0x40110004, 2, 1⟩
def TSU_STAT_INFORCE : RF := ⟨0x40110004, 3, 1⟩
def TSU_STAT_FREQ_LIMIT : RF := ⟨0x40110004, 4, 1⟩
def TSU_STAT_STEPS : RF := ⟨0x40110004, 16, 16⟩
def TSU_INT_STAT : RF := ⟨0x40110008, 0, 32⟩
def TSU_INT_STAT_TB_STEP : RF := ⟨0x40110008, 0, 1⟩
def TSU_INT_STAT_STEP_BACK : RF := ⟨0x40110008, 1, 1⟩
def TSU_INT_STAT_SEL_CHG : RF := ⟨0x40110008, 2, 1⟩
def TSU_INT_STAT_SLEW_DONE : RF := ⟨0x40110008, 3, 1⟩
def TSU_INT_STAT_TIME_OK_CHG : RF := ⟨0x40110008, 4, 1⟩
def TSU_INT_STAT_FREQ_LIMIT : RF := ⟨0x40110008, 5, 1⟩
def TSU_INT_STAT_TD0_STATE : RF := ⟨0x40110008, 6, 1⟩
def TSU_INT_STAT_TD1_STATE : RF := ⟨0x40110008, 7, 1⟩
def TSU_INT_STAT_TD0_GM : RF := ⟨0x40110008, 8, 1⟩
def TSU_INT_STAT_TD1_GM : RF := ⟨0x40110008, 9, 1⟩
def TSU_INT_STAT_TT : RF := ⟨0x40110008, 10, 1⟩
def TSU_INT_STAT_TT_LATE : RF := ⟨0x40110008, 11, 1⟩
def TSU_INT_STAT_EPOCH_RANGE : RF := ⟨0x40110008, 12, 1⟩
def TSU_INT_EN : RF := ⟨0x4011000C, 0, 13⟩
def TSU_SLEW : RF := ⟨0x40110010, 0, 32⟩
def TSU_SLEW_SLEW_MAX : RF := ⟨0x40110010, 0, 8⟩
def TSU_SLEW_STEP_THR : RF := ⟨0x40110010, 16, 16⟩
def TSU_EPOCH : RF := ⟨0x40110014, 0, 32⟩
def TSU_RATE : RF := ⟨0x40110018, 0, 32⟩
def TSU_TT_FIRED : RF := ⟨0x40110020, 0, 16⟩
def TSU_TT_LATE : RF := ⟨0x40110024, 0, 16⟩
def TSU_TD_CFG (a : Nat) : RF := ⟨0x40110100 + a * 0x80, 0, 32⟩
def TSU_TD_CFG_EN (a : Nat) : RF := ⟨0x40110100 + a * 0x80, 0, 1⟩
def TSU_TD_CFG_PROFILE (a : Nat) : RF := ⟨0x40110100 + a * 0x80, 1, 1⟩
def TSU_TD_CFG_DOMAIN (a : Nat) : RF := ⟨0x40110100 + a * 0x80, 8, 8⟩
def TSU_TD_SERVO (a : Nat) : RF := ⟨0x40110104 + a * 0x80, 0, 32⟩
def TSU_TD_SERVO_KP (a : Nat) : RF := ⟨0x40110104 + a * 0x80, 0, 8⟩
def TSU_TD_SERVO_KI (a : Nat) : RF := ⟨0x40110104 + a * 0x80, 8, 8⟩
def TSU_TD_SERVO_LOCK_THR (a : Nat) : RF := ⟨0x40110104 + a * 0x80, 16, 8⟩
def TSU_TD_SERVO_UNLOCK_THR (a : Nat) : RF := ⟨0x40110104 + a * 0x80, 24, 8⟩
def TSU_TD_STAT (a : Nat) : RF := ⟨0x40110108 + a * 0x80, 0, 32⟩
def TSU_TD_STAT_STATE (a : Nat) : RF := ⟨0x40110108 + a * 0x80, 0, 3⟩
def TSU_TD_STAT_PORT (a : Nat) : RF := ⟨0x40110108 + a * 0x80, 3, 2⟩
def TSU_TD_STAT_PORT_VALID (a : Nat) : RF := ⟨0x40110108 + a * 0x80, 5, 1⟩
def TSU_TD_STAT_STEPS_REMOVED (a : Nat) : RF := ⟨0x40110108 + a * 0x80, 8, 8⟩
def TSU_TD_STAT_LOG_SYNC (a : Nat) : RF := ⟨0x40110108 + a * 0x80, 16, 8⟩
def TSU_TD_OFFSET (a : Nat) : RF := ⟨0x40110110 + a * 0x80, 0, 64⟩
def TSU_TD_RATE (a : Nat) : RF := ⟨0x40110118 + a * 0x80, 0, 32⟩
def TSU_TD_UTC (a : Nat) : RF := ⟨0x4011011C + a * 0x80, 0, 32⟩
def TSU_TD_UTC_UTC_OFFSET (a : Nat) : RF := ⟨0x4011011C + a * 0x80, 0, 16⟩
def TSU_TD_UTC_VALID (a : Nat) : RF := ⟨0x4011011C + a * 0x80, 16, 1⟩
def TSU_TD_UTC_LI61 (a : Nat) : RF := ⟨0x4011011C + a * 0x80, 17, 1⟩
def TSU_TD_UTC_LI59 (a : Nat) : RF := ⟨0x4011011C + a * 0x80, 18, 1⟩
def TSU_TD_GMID (a : Nat) : RF := ⟨0x40110120 + a * 0x80, 0, 64⟩
def TSU_TD_ALTOFF (a : Nat) : RF := ⟨0x40110128 + a * 0x80, 0, 32⟩
def TSU_TD_CNT (a : Nat) : RF := ⟨0x4011012C + a * 0x80, 0, 32⟩
def TSU_TD_CNT_SYNC (a : Nat) : RF := ⟨0x4011012C + a * 0x80, 0, 16⟩
def TSU_TD_CNT_ANN_TO (a : Nat) : RF := ⟨0x4011012C + a * 0x80, 16, 16⟩
def TSU_TD_GMTTI (a : Nat) : RF := ⟨0x40110130 + a * 0x80, 0, 32⟩
def TSU_P_CFG (a : Nat) : RF := ⟨0x40110400 + a * 0x20, 0, 32⟩
def TSU_P_CFG_PDLY_EN (a : Nat) : RF := ⟨0x40110400 + a * 0x20, 0, 1⟩
def TSU_P_CFG_PDLY_LOG (a : Nat) : RF := ⟨0x40110400 + a * 0x20, 4, 4⟩
def TSU_P_CFG_PCP (a : Nat) : RF := ⟨0x40110400 + a * 0x20, 8, 3⟩
def TSU_P_ADJ (a : Nat) : RF := ⟨0x40110404 + a * 0x20, 0, 32⟩
def TSU_P_ADJ_RXADJ (a : Nat) : RF := ⟨0x40110404 + a * 0x20, 0, 16⟩
def TSU_P_ADJ_TXADJ (a : Nat) : RF := ⟨0x40110404 + a * 0x20, 16, 16⟩
def TSU_P_ASYM (a : Nat) : RF := ⟨0x40110408 + a * 0x20, 0, 32⟩
def TSU_P_LDLY (a : Nat) : RF := ⟨0x4011040C + a * 0x20, 0, 32⟩
def TSU_P_LDLY_DELAY (a : Nat) : RF := ⟨0x4011040C + a * 0x20, 0, 24⟩
def TSU_P_LDLY_VALID (a : Nat) : RF := ⟨0x4011040C + a * 0x20, 31, 1⟩
def TSU_P_CNT0 (a : Nat) : RF := ⟨0x40110410 + a * 0x20, 0, 32⟩
def TSU_P_CNT0_NOLD (a : Nat) : RF := ⟨0x40110410 + a * 0x20, 0, 16⟩
def TSU_P_CNT0_PDLY_FAIL (a : Nat) : RF := ⟨0x40110410 + a * 0x20, 16, 16⟩
def TSU_P_CNT1 (a : Nat) : RF := ⟨0x40110414 + a * 0x20, 0, 32⟩
def TSU_P_CNT1_E2E (a : Nat) : RF := ⟨0x40110414 + a * 0x20, 0, 16⟩
def TSU_P_CNT1_BADDA (a : Nat) : RF := ⟨0x40110414 + a * 0x20, 16, 16⟩
def TSU_TT_CTL (a : Nat) : RF := ⟨0x40110800 + a * 0x20, 0, 1⟩
def TSU_TT_START (a : Nat) : RF := ⟨0x40110808 + a * 0x20, 0, 64⟩
def TSU_TT_PERIOD (a : Nat) : RF := ⟨0x40110810 + a * 0x20, 0, 48⟩
def TSU_TTN_FIRED (a : Nat) : RF := ⟨0x40110818 + a * 0x20, 0, 32⟩
def TSU_TT_SKIP (a : Nat) : RF := ⟨0x4011081C + a * 0x20, 0, 32⟩
def TWN_CTL : RF := ⟨0x40120000, 0, 32⟩
def TWN_CTL_EN : RF := ⟨0x40120000, 0, 1⟩
def TWN_CTL_REVERT : RF := ⟨0x40120000, 1, 1⟩
def TWN_CTL_AUTOJOIN : RF := ⟨0x40120000, 2, 1⟩
def TWN_CFG : RF := ⟨0x40120004, 0, 32⟩
def TWN_CFG_PAIR_DLY : RF := ⟨0x40120004, 0, 12⟩
def TWN_CFG_APPLY_DLY : RF := ⟨0x40120004, 16, 16⟩
def TWN_HOLDOFF : RF := ⟨0x40120008, 0, 12⟩
def TWN_TBLIM : RF := ⟨0x4012000C, 0, 32⟩
def TWN_TBLIM_TBD_MAX : RF := ⟨0x4012000C, 0, 4⟩
def TWN_TBLIM_XWIN : RF := ⟨0x4012000C, 8, 20⟩
def TWN_TBLIM_XCNT : RF := ⟨0x4012000C, 28, 4⟩
def TWN_STAT : RF := ⟨0x40120010, 0, 32⟩
def TWN_STAT_STATE : RF := ⟨0x40120010, 0, 3⟩
def TWN_STAT_JSRC : RF := ⟨0x40120010, 3, 1⟩
def TWN_STAT_ROLE : RF := ⟨0x40120010, 4, 1⟩
def TWN_STAT_LANES : RF := ⟨0x40120010, 5, 2⟩
def TWN_STAT_STEER : RF := ⟨0x40120010, 7, 1⟩
def TWN_STAT_PSTATE : RF := ⟨0x40120010, 8, 3⟩
def TWN_STAT_HO_REASON : RF := ⟨0x40120010, 11, 3⟩
def TWN_INT_STAT : RF := ⟨0x40120014, 0, 32⟩
def TWN_INT_STAT_STATE_CHG : RF := ⟨0x40120014, 0, 1⟩
def TWN_INT_STAT_DIV_WON : RF := ⟨0x40120014, 1, 1⟩
def TWN_INT_STAT_DIV_LOST : RF := ⟨0x40120014, 2, 1⟩
def TWN_INT_STAT_PARTNER_LOST : RF := ⟨0x40120014, 3, 1⟩
def TWN_INT_STAT_JOIN_DONE : RF := ⟨0x40120014, 4, 1⟩
def TWN_INT_STAT_JOIN_ERR : RF := ⟨0x40120014, 5, 1⟩
def TWN_INT_STAT_RELEASED : RF := ⟨0x40120014, 6, 1⟩
def TWN_INT_STAT_HANDOVER_DONE : RF := ⟨0x40120014, 7, 1⟩
def TWN_INT_STAT_HANDOVER_ERR : RF := ⟨0x40120014, 8, 1⟩
def TWN_INT_STAT_JLATE : RF := ⟨0x40120014, 9, 1⟩
def TWN_INT_STAT_XCHK : RF := ⟨0x40120014, 10, 1⟩
def TWN_INT_STAT_TB_LIMIT : RF := ⟨0x40120014, 11, 1⟩
def TWN_INT_STAT_WR_REFUSED : RF := ⟨0x40120014, 12, 1⟩
def TWN_INT_STAT_LANE_DOWN : RF := ⟨0x40120014, 13, 1⟩
def TWN_INT_EN : RF := ⟨0x40120018, 0, 14⟩
def TWN_CMD : RF := ⟨0x4012001C, 0, 32⟩
def TWN_CMD_HANDOVER : RF := ⟨0x4012001C, 0, 1⟩
def TWN_CMD_JOIN : RF := ⟨0x4012001C, 1, 1⟩
def TWN_CMD_LEAVE : RF := ⟨0x4012001C, 2, 1⟩
def TWN_JOIN : RF := ⟨0x40120020, 0, 32⟩
def TWN_JOIN_ERR : RF := ⟨0x40120020, 0, 4⟩
def TWN_JOIN_MODE : RF := ⟨0x40120020, 4, 1⟩
def TWN_JOIN_PROGRESS : RF := ⟨0x40120020, 16, 16⟩
def TWN_TBDIFF : RF := ⟨0x40120024, 0, 32⟩
def TWN_HEALTH : RF := ⟨0x40120028, 0, 32⟩
def TWN_HEALTH_FAULT : RF := ⟨0x40120028, 0, 1⟩
def TWN_HEALTH_SAMPLING : RF := ⟨0x40120028, 8, 8⟩
def TWN_HEALTH_PFAULT : RF := ⟨0x40120028, 16, 1⟩
def TWN_HEALTH_PSAMPLING : RF := ⟨0x40120028, 24, 8⟩
def TWN_SHEETS : RF := ⟨0x4012002C, 0, 32⟩
def TWN_SHEETS_PAIRED : RF := ⟨0x4012002C, 0, 8⟩
def TWN_SHEETS_UNPAIRED : RF := ⟨0x4012002C, 8, 8⟩
def TWN_SHEETS_CARRY : RF := ⟨0x4012002C, 16, 8⟩
def TWN_SHEETS_PCARRY : RF := ⟨0x4012002C, 24, 8⟩
def TWN_CNT0 : RF := ⟨0x40120030, 0, 32⟩
def TWN_CNT0_DIV_WON : RF := ⟨0x40120030, 0, 16⟩
def TWN_CNT0_DIV_LOST : RF := ⟨0x40120030, 16, 16⟩
def TWN_CNT1 : RF := ⟨0x40120034, 0, 32⟩
def TWN_CNT1_JLATE : RF := ⟨0x40120034, 0, 16⟩
def TWN_CNT1_WR_REFUSED : RF := ⟨0x40120034, 16, 16⟩
def TWN_CNT2 : RF := ⟨0x40120038, 0, 32⟩
def TWN_CNT2_LINK_CRC : RF := ⟨0x40120038, 0, 16⟩
def TWN_CNT2_HANDOVERS : RF := ⟨0x40120038, 16, 16⟩
def TWN_HOLDOFF_LEFT : RF := ⟨0x4012003C, 0, 12⟩
def TWN_XFLAG : RF := ⟨0x40120040, 0, 32⟩
def TWN_CE_SIG (a : Nat) : RF := ⟨0x40120100 + a * 0x10, 0, 32⟩
def TWN_CE_PSIG (a : Nat) : RF := ⟨0x40120104 + a * 0x10, 0, 32⟩
def TWN_CE_DIVRUN (a : Nat) : RF := ⟨0x40120108 + a * 0x10, 0, 32⟩
def TWN_CE_CHK (a : Nat) : RF := ⟨0x4012010C + a * 0x10, 0, 32⟩
def TWN_CE_CHK_INDEX (a : Nat) : RF := ⟨0x4012010C + a * 0x10, 0, 16⟩
def TWN_CE_CHK_MATCHED (a : Nat) : RF := ⟨0x4012010C + a * 0x10, 16, 16⟩
def WCH_ID : RF := ⟨0x40130000, 0, 32⟩
def WCH_ID_FWVER : RF := ⟨0x40130000, 0, 16⟩
def WCH_ID_SET : RF := ⟨0x40130000, 16, 2⟩
def WCH_STAT : RF := ⟨0x40130004, 0, 32⟩
def WCH_STAT_SEAL : RF := ⟨0x40130004, 0, 8⟩
def WCH_STAT_STATE : RF := ⟨0x40130004, 8, 3⟩
def WCH_STAT_FS124 : RF := ⟨0x40130004, 11, 1⟩
def WCH_STAT_WDO : RF := ⟨0x40130004, 12, 1⟩
def WCH_STAT_DISCARD : RF := ⟨0x40130004, 16, 8⟩
def WCH_INT_STAT : RF := ⟨0x40130008, 0, 32⟩
def WCH_INT_STAT_STATE_CHG : RF := ⟨0x40130008, 0, 1⟩
def WCH_INT_STAT_DEMAND : RF := ⟨0x40130008, 1, 1⟩
def WCH_INT_STAT_PAIR_FAULT : RF := ⟨0x40130008, 2, 1⟩
def WCH_INT_STAT_DISC_OK : RF := ⟨0x40130008, 3, 1⟩
def WCH_INT_STAT_OUT_FAULT : RF := ⟨0x40130008, 4, 1⟩
def WCH_INT_STAT_SRST_ACC : RF := ⟨0x40130008, 5, 1⟩
def WCH_INT_STAT_SRST_REJ : RF := ⟨0x40130008, 6, 1⟩
def WCH_INT_STAT_CONN_FAULT : RF := ⟨0x40130008, 7, 1⟩
def WCH_INT_STAT_WDT_EXP : RF := ⟨0x40130008, 8, 1⟩
def WCH_INT_STAT_SINGLE : RF := ⟨0x40130008, 9, 1⟩
def WCH_INT_STAT_PS_DONE : RF := ⟨0x40130008, 10, 1⟩
def WCH_INT_STAT_PS_ERR : RF := ⟨0x40130008, 11, 1⟩
def WCH_INT_EN : RF := ⟨0x4013000C, 0, 12⟩
def WCH_IN : RF := ⟨0x40130010, 0, 32⟩
def WCH_IN_RAW : RF := ⟨0x40130010, 0, 8⟩
def WCH_IN_FILT : RF := ⟨0x40130010, 8, 8⟩
def WCH_PAIR : RF := ⟨0x40130014, 0, 32⟩
def WCH_PAIR_PERMIT0 : RF := ⟨0x40130014, 0, 1⟩
def WCH_PAIR_DISC0 : RF := ⟨0x40130014, 1, 1⟩
def WCH_PAIR_FAULT0 : RF := ⟨0x40130014, 2, 1⟩
def WCH_PAIR_CROSS0 : RF := ⟨0x40130014, 3, 1⟩
def WCH_PAIR_PERMIT1 : RF := ⟨0x40130014, 4, 1⟩
def WCH_PAIR_DISC1 : RF := ⟨0x40130014, 5, 1⟩
def WCH_PAIR_FAULT1 : RF := ⟨0x40130014, 6, 1⟩
def WCH_PAIR_CROSS1 : RF := ⟨0x40130014, 7, 1⟩
def WCH_PAIR_PERMIT2 : RF := ⟨0x40130014, 8, 1⟩
def WCH_PAIR_DISC2 : RF := ⟨0x40130014, 9, 1⟩
def WCH_PAIR_FAULT2 : RF := ⟨0x40130014, 10, 1⟩
def WCH_PAIR_CROSS2 : RF := ⟨0x40130014, 11, 1⟩
def WCH_PAIR_PERMIT3 : RF := ⟨0x40130014, 12, 1⟩
def WCH_PAIR_DISC3 : RF := ⟨0x40130014, 13, 1⟩
def WCH_PAIR_FAULT3 : RF := ⟨0x40130014, 14, 1⟩
def WCH_PAIR_CROSS3 : RF := ⟨0x40130014, 15, 1⟩
def WCH_PAIR_ACCEPTED : RF := ⟨0x40130014, 16, 16⟩
def WCH_SO : RF := ⟨0x40130018, 0, 32⟩
def WCH_SO_ON0 : RF := ⟨0x40130018, 0, 1⟩
def WCH_SO_SOB0 : RF := ⟨0x40130018, 1, 1⟩
def WCH_SO_FAULT0 : RF := ⟨0x40130018, 2, 1⟩
def WCH_SO_WAIT_RST0 : RF := ⟨0x40130018, 3, 1⟩
def WCH_SO_ON1 : RF := ⟨0x40130018, 4, 1⟩
def WCH_SO_SOB1 : RF := ⟨0x40130018, 5, 1⟩
def WCH_SO_FAULT1 : RF := ⟨0x40130018, 6, 1⟩
def WCH_SO_WAIT_RST1 : RF := ⟨0x40130018, 7, 1⟩
def WCH_SO_ON2 : RF := ⟨0x40130018, 8, 1⟩
def WCH_SO_SOB2 : RF := ⟨0x40130018, 9, 1⟩
def WCH_SO_FAULT2 : RF := ⟨0x40130018, 10, 1⟩
def WCH_SO_WAIT_RST2 : RF := ⟨0x40130018, 11, 1⟩
def WCH_SO_ON3 : RF := ⟨0x40130018, 12, 1⟩
def WCH_SO_SOB3 : RF := ⟨0x40130018, 13, 1⟩
def WCH_SO_FAULT3 : RF := ⟨0x40130018, 14, 1⟩
def WCH_SO_WAIT_RST3 : RF := ⟨0x40130018, 15, 1⟩
def WCH_SO_TESTING : RF := ⟨0x40130018, 16, 4⟩
def WCH_SREQ : RF := ⟨0x4013001C, 0, 4⟩
def WCH_SRST : RF := ⟨0x40130020, 0, 32⟩
def WCH_SRST_ACCEPTED : RF := ⟨0x40130020, 0, 16⟩
def WCH_SRST_REJECTED : RF := ⟨0x40130020, 16, 8⟩
def WCH_SRST_PRESSED : RF := ⟨0x40130020, 24, 1⟩
def WCH_SRST_STUCK : RF := ⟨0x40130020, 25, 1⟩
def WCH_FAULT : RF := ⟨0x40130024, 0, 32⟩
def WCH_FAULT_LOCKSTEP : RF := ⟨0x40130024, 0, 1⟩
def WCH_FAULT_SUPPLY : RF := ⟨0x40130024, 1, 1⟩
def WCH_FAULT_OSC : RF := ⟨0x40130024, 2, 1⟩
def WCH_FAULT_ECC : RF := ⟨0x40130024, 3, 1⟩
def WCH_FAULT_STEP : RF := ⟨0x40130024, 4, 1⟩
def WCH_FAULT_IMAGE : RF := ⟨0x40130024, 5, 1⟩
def WCH_FAULT_SEAL_ERR : RF := ⟨0x40130024, 8, 1⟩
def WCH_FAULT_PS_INVALID : RF := ⟨0x40130024, 9, 1⟩
def WCH_FAULT_TPA_FAULT : RF := ⟨0x40130024, 10, 1⟩
def WCH_FAULT_TPB_FAULT : RF := ⟨0x40130024, 11, 1⟩
def WCH_PSCMD : RF := ⟨0x40130028, 0, 2⟩
def WCH_PSSTAT : RF := ⟨0x4013002C, 0, 32⟩
def WCH_PSSTAT_BUSY : RF := ⟨0x4013002C, 0, 1⟩
def WCH_PSSTAT_RESULT : RF := ⟨0x4013002C, 1, 3⟩
def WCH_PSSTAT_ERROFF : RF := ⟨0x4013002C, 16, 10⟩
def WCH_PSCRC : RF := ⟨0x40130030, 0, 32⟩
def WCH_PSACT : RF := ⟨0x40130034, 0, 32⟩
def WCH_RX_STAT (a : Nat) : RF := ⟨0x40130100 + a * 0x10, 0, 32⟩
def WCH_RX_STAT_KIND (a : Nat) : RF := ⟨0x40130100 + a * 0x10, 0, 2⟩
def WCH_RX_STAT_DEMAND (a : Nat) : RF := ⟨0x40130100 + a * 0x10, 2, 1⟩
def WCH_RX_STAT_FAULT (a : Nat) : RF := ⟨0x40130100 + a * 0x10, 3, 1⟩
def WCH_RX_STAT_EXPIRED (a : Nat) : RF := ⟨0x40130100 + a * 0x10, 4, 1⟩
def WCH_RX_STAT_SEQ (a : Nat) : RF := ⟨0x40130100 + a * 0x10, 16, 16⟩
def WCH_RX_DATA (a : Nat) : RF := ⟨0x40130104 + a * 0x10, 0, 32⟩
def WCH_RX_CNT0 (a : Nat) : RF := ⟨0x40130108 + a * 0x10, 0, 32⟩
def WCH_RX_CNT0_ACCEPTED (a : Nat) : RF := ⟨0x40130108 + a * 0x10, 0, 16⟩
def WCH_RX_CNT0_SINGLE (a : Nat) : RF := ⟨0x40130108 + a * 0x10, 16, 16⟩
def WCH_RX_CNT1 (a : Nat) : RF := ⟨0x4013010C + a * 0x10, 0, 32⟩
def WCH_RX_CNT1_CRCERR (a : Nat) : RF := ⟨0x4013010C + a * 0x10, 0, 8⟩
def WCH_RX_CNT1_LATE (a : Nat) : RF := ⟨0x4013010C + a * 0x10, 8, 8⟩
def WCH_RX_CNT1_SEQERR (a : Nat) : RF := ⟨0x4013010C + a * 0x10, 16, 8⟩
def WCH_RX_CNT1_UNEQUAL (a : Nat) : RF := ⟨0x4013010C + a * 0x10, 24, 8⟩
def WCH_TX_STAT (a : Nat) : RF := ⟨0x40130200 + a * 0x8, 0, 32⟩
def WCH_TX_STAT_KIND (a : Nat) : RF := ⟨0x40130200 + a * 0x8, 0, 2⟩
def WCH_TX_STAT_SEQ (a : Nat) : RF := ⟨0x40130200 + a * 0x8, 16, 16⟩
def WCH_TX_CNT (a : Nat) : RF := ⟨0x40130204 + a * 0x8, 0, 32⟩
def WCH_PSWIN (a : Nat) : RF := ⟨0x40131000 + a * 0x4, 0, 32⟩
def LDG_CTL : RF := ⟨0x40140000, 0, 1⟩
def LDG_STAT : RF := ⟨0x40140004, 0, 32⟩
def LDG_STAT_QUEUED : RF := ⟨0x40140004, 0, 7⟩
def LDG_STAT_ERASING : RF := ⟨0x40140004, 7, 1⟩
def LDG_STAT_FAILED : RF := ⟨0x40140004, 8, 1⟩
def LDG_STAT_RES_FAILED : RF := ⟨0x40140004, 9, 1⟩
def LDG_STAT_PFW_MODE : RF := ⟨0x40140004, 10, 1⟩
def LDG_INT_STAT : RF := ⟨0x40140008, 0, 32⟩
def LDG_INT_STAT_DROP : RF := ⟨0x40140008, 0, 1⟩
def LDG_INT_STAT_FAIL : RF := ⟨0x40140008, 1, 1⟩
def LDG_INT_STAT_ERASE_DONE : RF := ⟨0x40140008, 2, 1⟩
def LDG_INT_STAT_CLEARED : RF := ⟨0x40140008, 3, 1⟩
def LDG_INT_STAT_RES_FAIL : RF := ⟨0x40140008, 4, 1⟩
def LDG_INT_EN : RF := ⟨0x4014000C, 0, 5⟩
def LDG_CLR : RF := ⟨0x40140010, 0, 32⟩
def LDG_CLR_RINGS : RF := ⟨0x40140010, 0, 4⟩
def LDG_CLR_ERASE : RF := ⟨0x40140010, 4, 1⟩
def LDG_FAILPOS : RF := ⟨0x40140014, 0, 32⟩
def LDG_RING_CFG (a : Nat) : RF := ⟨0x40140040 + a * 0x10, 0, 11⟩
def LDG_RING_HEAD (a : Nat) : RF := ⟨0x40140044 + a * 0x10, 0, 21⟩
def LDG_RING_GEN (a : Nat) : RF := ⟨0x40140048 + a * 0x10, 0, 32⟩
def LDG_RING_DROPS (a : Nat) : RF := ⟨0x4014004C + a * 0x10, 0, 32⟩
def LDG_RP_CUR (a : Nat) : RF := ⟨0x40140100 + a * 0x80, 0, 32⟩
def LDG_RP_CUR_INDEX (a : Nat) : RF := ⟨0x40140100 + a * 0x80, 0, 21⟩
def LDG_RP_CUR_RING (a : Nat) : RF := ⟨0x40140100 + a * 0x80, 21, 3⟩
def LDG_RP_GEN (a : Nat) : RF := ⟨0x40140104 + a * 0x80, 0, 32⟩
def LDG_RP_CMD (a : Nat) : RF := ⟨0x40140108 + a * 0x80, 0, 32⟩
def LDG_RP_CMD_OP (a : Nat) : RF := ⟨0x40140108 + a * 0x80, 0, 3⟩
def LDG_RP_CMD_CLR_OVR (a : Nat) : RF := ⟨0x40140108 + a * 0x80, 3, 1⟩
def LDG_RP_STAT (a : Nat) : RF := ⟨0x4014010C + a * 0x80, 0, 32⟩
def LDG_RP_STAT_BUSY (a : Nat) : RF := ⟨0x4014010C + a * 0x80, 0, 1⟩
def LDG_RP_STAT_VALID (a : Nat) : RF := ⟨0x4014010C + a * 0x80, 1, 1⟩
def LDG_RP_STAT_EMPTY (a : Nat) : RF := ⟨0x4014010C + a * 0x80, 2, 1⟩
def LDG_RP_STAT_OVERRUN (a : Nat) : RF := ⟨0x4014010C + a * 0x80, 3, 1⟩
def LDG_RP_LOST (a : Nat) : RF := ⟨0x40140110 + a * 0x80, 0, 32⟩
def LDG_RP_WIN (a b : Nat) : RF := ⟨0x40140140 + a * 0x80 + b * 0x4, 0, 32⟩
def LDG_POST_HDR : RF := ⟨0x40140400, 0, 32⟩
def LDG_POST_HDR_TYPE : RF := ⟨0x40140400, 0, 8⟩
def LDG_POST_HDR_SEV : RF := ⟨0x40140400, 8, 4⟩
def LDG_POST_HDR_RING : RF := ⟨0x40140400, 12, 2⟩
def LDG_POST_HDR_UNIT : RF := ⟨0x40140400, 16, 8⟩
def LDG_POST_CMD : RF := ⟨0x40140404, 0, 1⟩
def LDG_POST_DATA (a : Nat) : RF := ⟨0x40140420 + a * 0x4, 0, 32⟩
def HLT_CFG : RF := ⟨0x40150000, 0, 10⟩
def HLT_REPLACE : RF := ⟨0x40150004, 0, 32⟩
def HLT_REPLACE_REASONS : RF := ⟨0x40150004, 0, 16⟩
def HLT_REPLACE_FIRST : RF := ⟨0x40150004, 16, 4⟩
def HLT_INT_STAT : RF := ⟨0x40150008, 0, 32⟩
def HLT_INT_STAT_REASON : RF := ⟨0x40150008, 0, 1⟩
def HLT_INT_STAT_TEST_FAIL : RF := ⟨0x40150008, 1, 1⟩
def HLT_INT_STAT_FW_DONE : RF := ⟨0x40150008, 2, 1⟩
def HLT_INT_STAT_FW_ERR : RF := ⟨0x40150008, 3, 1⟩
def HLT_INT_EN : RF := ⟨0x4015000C, 0, 4⟩
def HLT_CMD : RF := ⟨0x40150010, 0, 1⟩
def HLT_TEST : RF := ⟨0x40150014, 0, 32⟩
def HLT_TEST_STARVED : RF := ⟨0x40150014, 0, 8⟩
def HLT_TEST_COUNT : RF := ⟨0x40150014, 16, 16⟩
def HLT_SCREEN : RF := ⟨0x40150018, 0, 32⟩
def HLT_TEMP : RF := ⟨0x4015001C, 0, 16⟩
def HLT_LIFE : RF := ⟨0x40150020, 0, 32⟩
def HLT_FW_CMD : RF := ⟨0x40150030, 0, 32⟩
def HLT_FW_CMD_OP : RF := ⟨0x40150030, 0, 2⟩
def HLT_FW_CMD_SLOT : RF := ⟨0x40150030, 8, 1⟩
def HLT_FW_STAT : RF := ⟨0x40150034, 0, 32⟩
def HLT_FW_STAT_BUSY : RF := ⟨0x40150034, 0, 1⟩
def HLT_FW_STAT_ERR : RF := ⟨0x40150034, 4, 4⟩
def HLT_FW_STAGE_BASE : RF := ⟨0x40150038, 0, 32⟩
def HLT_FW_STAGE_LEN : RF := ⟨0x4015003C, 0, 25⟩
def IRQ_ASSERT (a : Nat) : RF := ⟨0x40160000 + a * 0x4, 0, 32⟩
def IRQ_SOFT : RF := ⟨0x40160020, 0, 8⟩
def IRQ_SRC_CFG (a : Nat) : RF := ⟨0x40160400 + a * 0x4, 0, 32⟩
def IRQ_SRC_CFG_PRIO (a : Nat) : RF := ⟨0x40160400 + a * 0x4, 0, 4⟩
def IRQ_SRC_CFG_TGT (a : Nat) : RF := ⟨0x40160400 + a * 0x4, 8, 4⟩
def IRQ_SRC_CFG_CLAIMED (a : Nat) : RF := ⟨0x40160400 + a * 0x4, 16, 1⟩
def IRQ_SRC_CFG_BY (a : Nat) : RF := ⟨0x40160400 + a * 0x4, 17, 2⟩
def IRQ_C_THRESH (a : Nat) : RF := ⟨0x40161000 + a * 0x10, 0, 4⟩
def IRQ_C_CLAIM (a : Nat) : RF := ⟨0x40161004 + a * 0x10, 0, 8⟩
def PIN_GPIO_IN : RF := ⟨0x40170000, 0, 24⟩
def PIN_GPIO_OUT : RF := ⟨0x40170004, 0, 24⟩
def PIN_GPIO_OUT_SET : RF := ⟨0x40170008, 0, 24⟩
def PIN_GPIO_OUT_CLR : RF := ⟨0x4017000C, 0, 24⟩
def PIN_GPIO_OE : RF := ⟨0x40170010, 0, 24⟩
def PIN_GPIO_INT_STAT : RF := ⟨0x40170014, 0, 24⟩
def PIN_GPIO_INT_EN : RF := ⟨0x40170018, 0, 24⟩
def PIN_STATUS_CFG : RF := ⟨0x40170020, 0, 32⟩
def PIN_STATUS_CFG_FMASK : RF := ⟨0x40170020, 0, 8⟩
def PIN_STATUS_CFG_BLKEN : RF := ⟨0x40170020, 8, 1⟩
def PIN_STATUS : RF := ⟨0x40170024, 0, 32⟩
def PIN_STATUS_REPLACE : RF := ⟨0x40170024, 0, 1⟩
def PIN_STATUS_ACTIVE : RF := ⟨0x40170024, 1, 1⟩
def PIN_STATUS_FAULT : RF := ⟨0x40170024, 2, 1⟩
def PIN_STATUS_WDO : RF := ⟨0x40170024, 3, 1⟩
def PIN_UART_CFG : RF := ⟨0x40170030, 0, 12⟩
def PIN_UART_TX : RF := ⟨0x40170034, 0, 8⟩
def PIN_UART_RX : RF := ⟨0x40170038, 0, 8⟩
def PIN_UART_STAT : RF := ⟨0x4017003C, 0, 32⟩
def PIN_UART_STAT_TXFREE : RF := ⟨0x4017003C, 0, 5⟩
def PIN_UART_STAT_RXCOUNT : RF := ⟨0x4017003C, 8, 5⟩
def PIN_UART_STAT_TX_OVF : RF := ⟨0x4017003C, 16, 1⟩
def PIN_UART_STAT_RX_OVF : RF := ⟨0x4017003C, 17, 1⟩
def PIN_UART_STAT_FRAME : RF := ⟨0x4017003C, 18, 1⟩
def PIN_GPIO_CFG (a : Nat) : RF := ⟨0x40170100 + a * 0x4, 0, 32⟩
def PIN_GPIO_CFG_PULL (a : Nat) : RF := ⟨0x40170100 + a * 0x4, 0, 2⟩
def PIN_GPIO_CFG_DRIVE (a : Nat) : RF := ⟨0x40170100 + a * 0x4, 2, 2⟩
def PIN_GPIO_CFG_SLOW (a : Nat) : RF := ⟨0x40170100 + a * 0x4, 4, 1⟩
def PIN_GPIO_CFG_EDGE (a : Nat) : RF := ⟨0x40170100 + a * 0x4, 5, 2⟩

end Sys2Proof.Machine.R
end

