-- ==== Sys2Proof/WellFormed.lean ====
section
/-!
DEFINITION. Well-formed commands: every unit a command names is one the spec gives the device.
-/

namespace Sys2Proof

/-- The kinds of numbered units a command may name. -/
inductive UnitKind where
  | adcGroup  -- AG0–AG3 (R44)
  | adcInput  -- AIN0–AIN31
  | chain  -- screen chains
  | tap  -- tap numbers (R67)
  | engine  -- CE0–CE7 (R13)
  | tracker  -- PT0–PT3
  | group  -- PG0–PG7
  | compare  -- TRG0–TRG3
  | channel  -- CH0–CH47
  | fltPin  -- FLT0–FLT15
  | lane  -- LN0–LN11
  | port  -- network ports, Table 11-1
  | bridgePort  -- ports A1, A2, B1, B2
  | host  -- host interfaces H0, H1
  | txSlot  -- transmit slots
  | commons  -- Commons entries
  | timeDomain  -- TD0, TD1
  | trigger  -- TT0–TT15
  | twinLane  -- TL0, TL1
  | safeOutput  -- SO0–SO3
  | safePair  -- SIN pairs
  | connection  -- safety connections
  | bank  -- BK0–BK95 and XB0–XB15
  | glean  -- Glean channels
  | reference  -- XIN, CLKIN
  | clkOutput  -- OUT0–OUT4
  | ledgerPort  -- RP0–RP3
  | slot  -- Mould slots
  | sheet  -- SH0–SH11
  | fwSlot  -- firmware slots
  | gpio  -- GPIO0–GPIO23
  | core  -- application cores
  | requester  -- cores 0–3, Glean channels from 4, engines from 36, NET, LDG, TWN, the Sweeper
  | snapSlot  -- SNAP0–SNAP3
  | islandFault  -- bits of WCH_FAULT for internal faults (Table 14-1)
  | lossClass  -- 0 REF, 1 LOOP, 2 DCO (Table 16-3)
  | tapInstruction  -- BYPASS, IDCODE, SAMPLE/PRELOAD, debug access, EXTEST, EXTEST_PULSE, EXTEST_TRAIN (R384)
  | sheetField  -- the four-bit SHEET field of MLD_CMD
  | startStep  -- steps 1–10 of Table 17-6 (0 is none)
  | ring  -- Ledger rings 0–3 (R355)
  deriving DecidableEq, Repr

/-- How many of each the spec gives the device. -/
def UnitKind.count : UnitKind → Nat
  | .adcGroup => 4
  | .adcInput => 32
  | .chain => 32
  | .tap => 256
  | .engine => 8
  | .tracker => 4
  | .group => 8
  | .compare => 4
  | .channel => 48
  | .fltPin => 16
  | .lane => 12
  | .port => 5
  | .bridgePort => 4
  | .host => 2
  | .txSlot => 16
  | .commons => 512
  | .timeDomain => 2
  | .trigger => 16
  | .twinLane => 2
  | .safeOutput => 4
  | .safePair => 4
  | .connection => 8
  | .bank => 112
  | .glean => 32
  | .reference => 2
  | .clkOutput => 5
  | .ledgerPort => 4
  | .slot => 4
  | .sheet => 12
  | .fwSlot => 2
  | .gpio => 24
  | .core => 4
  | .requester => 48
  | .snapSlot => 4
  | .islandFault => 6
  | .lossClass => 3
  | .tapInstruction => 7
  | .sheetField => 16
  | .startStep => 11
  | .ring => 4

/-- The units a command names. -/
def Instr.units : Instr → List (UnitKind × Nat)
  | .registerWrite _ who _ _ _ => [(.requester, who)]
  | .lowWordReadCapture _ who _ _ => [(.requester, who)]
  | .mldProgram _ slot => [(.slot, slot)]
  | .mldCheck _ slot => [(.slot, slot)]
  | .mldReload _ slot sheet => [(.slot, slot), (.sheetField, sheet)]
  | .mldWithdraw _ slot => [(.slot, slot)]
  | .mldStartLoad _ slot => [(.slot, slot)]
  | .mldCommandEnd _ _ _ => []
  | .sheetQuiesce _ n => [(.sheet, n)]
  | .sheetRelease _ n => [(.sheet, n)]
  | .sheetQuiesced _ n => [(.sheet, n)]
  | .quiesceReadbackTimeout _ n => [(.sheet, n)]
  | .adcFrame _ => []
  | .mainPathWord _ n _ _ => [(.adcGroup, n)]
  | .calStep _ n _ _ _ _ => [(.adcGroup, n)]
  | .calHandover _ n => [(.adcGroup, n)]
  | .calStarvedTimeout _ n => [(.adcGroup, n)]
  | .calenChange _ n _ => [(.adcGroup, n)]
  | .lfsrWrite _ n _ => [(.adcGroup, n)]
  | .presentationWrite _ n _ _ => [(.adcGroup, n)]
  | .snapshotTrigger _ n => [(.adcGroup, n)]
  | .snapshotDone _ n _ => [(.adcGroup, n)]
  | .snapDataRead _ who n slot => [(.requester, who), (.adcGroup, n), (.snapSlot, slot)]
  | .tapValRead _ who tap => [(.requester, who), (.tap, tap)]
  | .testStart _ n => [(.adcGroup, n)]
  | .testAbort _ n => [(.adcGroup, n)]
  | .testSettleEnd _ n => [(.adcGroup, n)]
  | .testMeanEnd _ n => [(.adcGroup, n)]
  | .watchRequest _ n => [(.adcGroup, n)]
  | .watchEnter _ n => [(.adcGroup, n)]
  | .watchExitRequest _ n => [(.adcGroup, n)]
  | .watchExit _ n => [(.adcGroup, n)]
  | .syncPinEdge _ => []
  | .syncReset _ => []
  | .phaseReset _ => []
  | .syncOutputEdge _ => []
  | .fastWindowEnable _ i _ => [(.chain, i)]
  | .tickArrival _ n _ => [(.engine, n)]
  | .runStart _ n _ _ => [(.engine, n)]
  | .overrunLimit _ n => [(.engine, n)]
  | .runEnd _ n _ => [(.engine, n)]
  | .nop _ n => [(.engine, n)]
  | .load _ n => [(.engine, n)]
  | .clarke _ n => [(.engine, n)]
  | .iclarke _ n => [(.engine, n)]
  | .park _ n => [(.engine, n)]
  | .ipark _ n => [(.engine, n)]
  | .angle _ n => [(.engine, n)]
  | .pi _ n => [(.engine, n)]
  | .res _ n => [(.engine, n)]
  | .matvec _ n => [(.engine, n)]
  | .obs _ n => [(.engine, n)]
  | .swing _ n => [(.engine, n)]
  | .droop _ n => [(.engine, n)]
  | .vimp _ n => [(.engine, n)]
  | .ilim _ n => [(.engine, n)]
  | .frt _ n => [(.engine, n)]
  | .ramp _ n => [(.engine, n)]
  | .lpf _ n => [(.engine, n)]
  | .limit _ n => [(.engine, n)]
  | .lut _ n => [(.engine, n)]
  | .power _ n => [(.engine, n)]
  | .rms _ n => [(.engine, n)]
  | .svm3l _ n => [(.engine, n)]
  | .select _ n => [(.engine, n)]
  | .compare _ n => [(.engine, n)]
  | .guard _ n => [(.engine, n)]
  | .sum _ n => [(.engine, n)]
  | .mul _ n => [(.engine, n)]
  | .emit _ n => [(.engine, n)]
  | .mailboxWrite _ n => [(.engine, n)]
  | .mailboxRead _ n => [(.engine, n)]
  | .event _ n => [(.engine, n)]
  | .trace _ n => [(.engine, n)]
  | .engineEccFault _ n => [(.engine, n)]
  | .recipeCheckDone _ n => [(.engine, n)]
  | .coefSwapRequest _ n => [(.engine, n)]
  | .recipeSwapRequest _ n => [(.engine, n)]
  | .stageWrite _ n _ => [(.engine, n)]
  | .clrCycmax _ n => [(.engine, n)]
  | .trcTrig _ n => [(.engine, n)]
  | .traceArm _ n => [(.engine, n)]
  | .moveRequest _ src => [(.engine, src)]
  | .moveCopyEnd _ _ => []
  | .moveDone _ => []
  | .periodStart _ g => [(.group, g)]
  | .compareFire _ g n => [(.group, g), (.compare, n)]
  | .groupEnable _ g => [(.group, g)]
  | .loadallRequest _ g => [(.group, g)]
  | .gload _ _ => []
  | .shadowWrite _ duty i _ => [(if duty then .channel else .group, i)]
  | .groupLoad _ g => [(.group, g)]
  | .fltPinAsserted _ k _ _ => [(.fltPin, k)]
  | .fmxClear _ g => [(.group, g)]
  | .edgeSend _ ch => [(.channel, ch)]
  | .executedLevelChange _ ch => [(.channel, ch)]
  | .timeFrameSend _ l => [(.lane, l)]
  | .statusFrameReceive _ l _ => [(.lane, l)]
  | .statusTimeout _ l _ => [(.lane, l)]
  | .qfullHoldEnd _ l => [(.lane, l)]
  | .desatClear _ l _ => [(.lane, l)]
  | .diagStart _ l _ _ => [(.lane, l)]
  | .diagTimeout _ l => [(.lane, l)]
  | .trainStart _ l => [(.lane, l)]
  | .trainEnd _ l => [(.lane, l)]
  | .configSend _ l _ _ => [(.lane, l)]
  | .configTimeout _ l => [(.lane, l)]
  | .laneDisable _ l => [(.lane, l)]
  | .portLinkChange _ p _ _ => [(.port, p)]
  | .forwardStart _ p _ _ => [(.bridgePort, p)]
  | .frameReceive _ p _ _ _ => [(.port, p)]
  | .ddEntryExpiry _ => []
  | .txKick _ h => [(.host, h)]
  | .hostTxDescriptor _ h _ => [(.host, h)]
  | .egressTransmit _ p => [(.port, p)]
  | .transmitSlotFrame _ n _ => [(.txSlot, n)]
  | .supervisionFrame _ => []
  | .beaconSend _ => []
  | .commonsAging _ => []
  | .read _ _ => []
  | .pin _ _ => []
  | .unpin _ _ => []
  | .delete _ _ => []
  | .preset _ => []
  | .syncMessage _ p _ => [(.bridgePort, p)]
  | .followUp _ p _ => [(.bridgePort, p)]
  | .announce _ p _ => [(.bridgePort, p)]
  | .pdelayReqSend _ p => [(.bridgePort, p)]
  | .pdelayReq _ p _ _ _ _ _ => [(.bridgePort, p)]
  | .pdelayResp _ p _ _ _ _ _ _ => [(.bridgePort, p)]
  | .pdelayTimeout _ p => [(.bridgePort, p)]
  | .announceTimeout _ d => [(.timeDomain, d)]
  | .syncTimeout _ d => [(.timeDomain, d)]
  | .servoHold _ _ => []
  | .domainReturn _ => []
  | .ttFire _ k => [(.trigger, k)]
  | .ttEnable _ k => [(.trigger, k)]
  | .journalRunRecord _ _ _ _ u _ _ _ _ => [(.engine, u)]
  | .journalWriteRecord _ _ _ _ _ _ => []
  | .journalFilterRecord _ _ _ f _ _ _ _ => [(.txSlot, f)]
  | .journalApply _ => []
  | .checkpoint _ _ _ n _ _ _ => [(.engine, n)]
  | .checkpointTimeout _ n => [(.engine, n)]
  | .verdict _ _ _ n _ => [(.engine, n)]
  | .verdictTimeout _ => []
  | .health _ _ _ _ _ => []
  | .healthSend _ => []
  | .stateFrame _ _ _ _ _ => []
  | .nak _ _ _ _ => []
  | .twinLaneDown _ l => [(.twinLane, l)]
  | .linkLost _ => []
  | .handover _ => []
  | .join _ => []
  | .leave _ => []
  | .autojoinStart _ => []
  | .joinWaitExpiry _ => []
  | .joinTimeout _ => []
  | .handoverInstant _ => []
  | .handoverEnd _ => []
  | .revertHoldoffExpiry _ => []
  | .tbLimitExpiry _ => []
  | .steerReturn _ => []
  | .timeHandover _ => []
  | .sinSample _ _ => []
  | .inputTestPulse _ _ => []
  | .evaluationStep _ _ => []
  | .discrepancyTimeout _ x => [(.safePair, x)]
  | .safeOutputOff _ k => [(.safeOutput, k)]
  | .readbackSample _ _ => []
  | .outputTestPulse _ k => [(.safeOutput, k)]
  | .resetAccept _ => []
  | .srstStuck _ => []
  | .sealSample _ _ => []
  | .internalFault _ b => [(.islandFault, b)]
  | .islandStartEnd _ _ _ _ => []
  | .check _ => []
  | .store _ => []
  | .psOperationEnd _ _ => []
  | .safetyStopRequest _ _ => []
  | .nativeSafetyFrame _ => []
  | .nay2400SafetyFrame _ => []
  | .safetyCopyTimeout _ c => [(.connection, c)]
  | .connectionWatchdogExpiry _ c => [(.connection, c)]
  | .safetyFrameSend _ c => [(.connection, c)]
  | .bankAccess _ _ _ _ => []
  | .release _ _ _ => []
  | .releaseDone _ => []
  | .claim _ _ _ => []
  | .grant _ _ _ => []
  | .revoke _ _ _ => []
  | .repair _ _ _ => []
  | .sweeperStep _ _ _ => []
  | .start _ c _ _ => [(.glean, c)]
  | .resume _ c _ _ => [(.glean, c)]
  | .stop _ c => [(.glean, c)]
  | .gleanBurst _ _ _ _ => []
  | .referenceAbsent _ r => [(.reference, r)]
  | .referencePresent _ r => [(.reference, r)]
  | .lossOfLock _ c _ => [(.lossClass, c)]
  | .dllChangeover _ => []
  | .dllRealigned _ => []
  | .pllLocked _ _ _ _ _ => []
  | .pllChangeover _ => []
  | .smpRestart _ => []
  | .outputConfigWrite _ n _ => [(.clkOutput, n)]
  | .mpgRise _ _ _ _ _ => []
  | .mpgFall _ _ => []
  | .porstNAssert _ => []
  | .porstNRelease _ _ _ => []
  | .wrstNAssert _ => []
  | .wrstNRelease _ => []
  | .powerFailWarning _ _ => []
  | .powerFailClear _ _ => []
  | .opsecSecond _ _ => []
  | .vkaLow _ => []
  | .coldStart _ _ => []
  | .warmStart _ => []
  | .readyPoint _ _ => []
  | .startTimeout _ => []
  | .warm _ _ => []
  | .cold _ _ => []
  | .bootOk _ => []
  | .goldenClr _ _ => []
  | .kick _ => []
  | .confirmExpiry _ => []
  | .watchdogExpiry _ => []
  | .ledgerPost _ ring _ _ _ _ _ => [(.ring, ring)]
  | .go _ => []
  | .recordProgramDone _ _ => []
  | .cursorLoad _ p => [(.ledgerPort, p)]
  | .next _ p => [(.ledgerPort, p)]
  | .newest _ p => [(.ledgerPort, p)]
  | .oldest _ p => [(.ledgerPort, p)]
  | .clrOvr _ p => [(.ledgerPort, p)]
  | .cursorCopyDone _ p => [(.ledgerPort, p)]
  | .rings _ _ => []
  | .erase _ => []
  | .eraseDone _ _ => []
  | .engineTestPiece _ n _ => [(.engine, n)]
  | .engineTestStarved _ n => [(.engine, n)]
  | .temperatureSample _ _ => []
  | .thermalExpiry _ => []
  | .twinLinkReasonExpiry _ => []
  | .req _ => []
  | .program _ slot => [(.fwSlot, slot)]
  | .fwCheck _ slot => [(.fwSlot, slot)]
  | .programIsland _ slot => [(.fwSlot, slot)]
  | .fwCommandEnd _ _ _ => []
  | .trackerPair _ p => [(.tracker, p)]
  | .trackerTimeout _ p => [(.tracker, p)]
  | .ampFilterExpiry _ p => [(.tracker, p)]
  | .quadratureStep _ => []
  | .gpioEdge _ n _ => [(.gpio, n)]
  | .uartTxWrite _ _ => []
  | .uartByteSent _ => []
  | .uartReceive _ _ _ => []
  | .uartRxRead _ => []
  | .irqClaim _ k => [(.core, k)]
  | .irqComplete _ k _ => [(.core, k)]
  | .twinLaneUp _ l => [(.twinLane, l)]
  | .sdclkPresenceChange _ _ => []
  | .vkaRecovery _ => []
  | .vddWReturn _ => []
  | .tpOvercurrent _ _ _ => []
  | .outputTestPulseEnd _ k => [(.safeOutput, k)]
  | .startStepEnd _ step _ _ => [(.startStep, step)]
  | .joinTimeExpiry _ => []
  | .cmnCommandEnd _ => []
  | .jtagInstruction _ ir _ => [(.tapInstruction, ir)]

/-- A command is well formed when every unit it names exists. -/
def Instr.wf (i : Instr) : Bool := i.units.all fun u => u.2 < u.1.count

end Sys2Proof
end

