-- ==== Sys2Proof/Machine/State.lean ====
section
/-!
DEFINITION. The state of the device: the timebase, the registers, the memories, what each unit holds beside its
registers, and the commands that wait. Plain data throughout.

Registers are one sparse list of the words that differ from their reset value (`resetWord`); memory is one sparse list
of the bytes that are not zero.
-/

namespace Sys2Proof.Machine

/-- Why the machine stops. -/
inductive Fault where
  /-- Raised by a command that names a unit number the spec does not give the device (an ill-formed command). Safe: no
  such unit exists to act. -/
  | noSuchUnit
  deriving DecidableEq, Repr

/-- Why a command is refused. -/
inductive Refusal where
  /-- Raised by a command without a meaning yet. Safe. -/
  | notModelled (mnemonic : String)
  deriving DecidableEq, Repr

/-- A record waiting in the Ledger's write queue (R357): its ring (4 the reserve), its position, its 64 bytes, and how
many times its programming has failed (R364). -/
structure LdgRec where
  ring : Nat
  pos : Nat
  bytes : List Byte
  failed : Nat := 0
  deriving DecidableEq, Repr, Inhabited

/-- The Ledger beside its registers (chapter 18): the write queue; per ring the next position to accept, the next to
write, the floor and the size in force (in 1 024-record units); per ring the position after its last record in the reserve;
the reserve's next position and records; the refused posts since the last DROPPED record; the CLEAR records, as (ring,
floor), that wait for a free entry. -/
structure Ledger where
  queue : List LdgRec := []
  acc : List Nat := [0, 0, 0, 0]
  w : List Nat := [0, 0, 0, 0]
  floor : List Nat := [0, 0, 0, 0]
  size : List Nat := [0x80, 0x180, 0x200, 0x180]
  resTop : List Nat := [0, 0, 0, 0]
  resW : Nat := 0
  reserve : List (Nat × List Byte) := []
  drops : List Nat := [0, 0, 0, 0]
  clears : List (Nat × Nat) := []
  deriving DecidableEq, Repr, Inhabited

/-- One edge of a channel: its execution time, its level, its commanded instant, the start of the period that commands it
(0 for an off-edge that ends the period before), and whether the stretch of its pair partner's off-edge delayed it (R160,
R163, R164). -/
structure Edge where
  time : Nat
  on : Bool
  cmd : Nat
  per : Nat := 0
  late : Bool := false
  deriving DecidableEq, Repr, Inhabited

/-- What holds a channel (R171, R173): the earliest instant from which it may resume, none while the hold stands, and the
instant at which its waveform lets it resume, once that is built. -/
structure Gate where
  free : Option Nat := none
  resume : Option Nat := none
  deriving DecidableEq, Repr, Inhabited

/-- A channel's waveform as built so far (R160–R167): its final edges, its commanded edges after the bootstrap guard, the
interlock's holds as (instant, held), and what holds it. Of the edges behind the current period only the last few stay. -/
structure WaveSt where
  fin : List Edge := []
  raw : List Edge := []
  ilk : List (Nat × Bool) := []
  gate : Option Gate := none
  deriving DecidableEq, Repr, Inhabited

/-- A PWM channel beside its registers (R160–R167, R173, R184, R190–R195). `pend` holds the final edges not yet sent and
`flight` those sent and not executed; `ons` are the latest on-intervals (R190), the open one without an end. -/
structure Chan where
  pend : List Edge := []
  flight : List Edge := []
  level : Bool := false
  levelAt : Nat := 0
  wave : WaveSt := {}
  ons : List (Nat × Option Nat) := []
  qual : Nat := 0
  strikes : List Nat := []
  desatAt : Option Nat := none
  gateMis : Nat := 0
  deriving DecidableEq, Repr, Inhabited

/-- How a group's next period follows (R156, R158): anchor, PERIOD in force, index, and whether it lies on the grid. -/
structure Gen where
  anchor : Int := 0
  v : Nat := 0
  k : Int := 0
  grid : Bool := true
  deriving DecidableEq, Repr, Inhabited

/-- A period of a group, built ahead of its start by the largest lead: its bounds, its count, what it followed from, how
the next one follows, and the PERIOD, as it was loaded, that becomes active at its start. -/
structure Period where
  start : Nat := 0
  stop : Nat := 0
  cnt : Nat := 0
  grid : Bool := true
  v : Nat := 0
  gen : Gen := {}
  next : Gen := {}
  perNew : Option Nat := none
  deriving DecidableEq, Repr, Inhabited

/-- What the building of a waveform finds: a clamped duty (R160), a bootstrap refresh (R166), a forbidden combination
(R167). -/
inductive FindKind where
  | clamp | boot | hit
  deriving DecidableEq, Repr, Inhabited

/-- A finding of a lane's waveforms and the instant at which its flag sets. -/
structure Find where
  at_ : Nat
  lane : Nat
  what : FindKind
  deriving DecidableEq, Repr, Inhabited

/-- A shadow write or a load request on its way from SYS to TB (R162): its arrival, and for a request the shadows written
before it, PERIOD_SH and each channel's DUTY_SH. -/
structure Cross where
  at_ : Nat
  load : Option (Nat × List (Nat × Nat)) := none
  deriving DecidableEq, Repr, Inhabited

/-- A source that holds a group, with the action it took, or the mute in its place (R170–R172). -/
structure Hold where
  src : Nat
  act : Nat
  mute : Bool := false
  deriving DecidableEq, Repr, Inhabited

/-- A PWM group beside its registers (R156–R158, R162, R165, R168, R171, R174): when a write of CTL.EN arrives in TB and
since when EN acts, its periods built so far (the first is the current one once it runs), the firings whose anchors are
still ahead, the PERIOD and PHASE waiting for their boundary with the PHASE before, the queue of shadow writes and load
requests, whether the current period holds a load, what its waveforms found and has not yet shown, the sources that hold it,
when its block took effect, and each compare's offset in force and last stamp. -/
structure PwmGroup where
  enReq : Option Nat := none
  enAt : Option Nat := none
  running : Bool := false
  periods : List Period := []
  anchors : List Nat := []
  perAt : Option Nat := none
  perVal : Nat := 0
  phaseAt : Option Nat := none
  phaseWas : Nat := 0
  queue : List Cross := []
  loaded : Bool := false
  finds : List Find := []
  trg : List Nat := [0, 0, 0, 0]
  fired : List (Option Nat) := [none, none, none, none]
  holds : List Hold := []
  act : Nat := 0
  blockAt : Option Nat := none
  deriving DecidableEq, Repr, Inhabited

/-- A fault pin: the level it shows, since when, and, while the level before has not been judged to its end, the instant
from which that level stood (R169). -/
structure FltPin where
  level : Bool := true
  since : Nat := 0
  before : Option Nat := none
  deriving DecidableEq, Repr, Inhabited

/-- A character of a lane's line (R178): K28.5, or a byte. -/
inductive LineChar where
  | k285
  | data (b : Byte)
  deriving DecidableEq, Repr, Inhabited

/-- A frame on a lane's line: when its first character reaches the pins, its characters (R180), and whether the running
disparity before it is positive (R178). -/
structure Frame where
  at_ : Nat
  chars : List LineChar
  rd : Bool := false
  deriving DecidableEq, Repr, Inhabited

/-- A frame of class 3 of R182 that waits: a CONFIG, or a DIAG. -/
inductive LaneCmd where
  | config (addr data : Nat)
  | diag (mask dur : Nat)
  deriving DecidableEq, Repr, Inhabited

/-- A lane's training in progress (R198): its step, when it and its step began, the frames counted in the step, the first
arrival offset, the least, greatest and summed differences from it, the attempts, whether TIME frames with DELAY 0 went
out, the next HCFG register, whether step 6 was skipped, and the failure found. -/
structure Train where
  step : Nat := 1
  from_ : Nat := 0
  at_ : Nat := 0
  n : Nat := 0
  first : Nat := 0
  lo : Int := 0
  hi : Int := 0
  sum : Int := 0
  tries : Nat := 0
  zero : Bool := false
  cfg : Nat := 0
  skip : Bool := false
  err : Nat := 0
  deriving DecidableEq, Repr, Inhabited

/-- A gate lane beside its registers (R20, R178, R182, R188, R189, R191–R199): the frame sent last, when the line is free and
its running disparity; the frames that wait: SOFTOFFs as (due, mode, mask), edges handed over as (send instant, slot,
edge), CONFIG and DIAG as (due, frame), TIME; up to when the line has been run; the reasons it is muted; reception (good frames in a row, when the last came, its
sample instant, whether it is still unread, whether the head went safe); the end of causes QFULL and LATE; the diagnosis as
(mask, duration), when its frame went out, whether DIAG_REFUSED stood then, whether DIAG_BUSY has risen, the slots whose
reading is still to come; whether a CONFIG waits for its acknowledgement and since when; the training. -/
structure Lane where
  wire : Option Frame := none
  busy : Nat := 0
  rd : Bool := false
  soft : List (Nat × Nat × Nat) := []
  edges : List (Nat × Nat × Edge) := []
  cmds : List (Nat × LaneCmd) := []
  time : Option Nat := none
  ran : Nat := 0
  muteBy : List Nat := []
  good : Nat := 0
  goodAt : Option Nat := none
  sample : Option Nat := none
  unread : Bool := false
  wentSafe : Bool := false
  qfullEnd : Option Nat := none
  diag : Option (Nat × Nat) := none
  diagAt : Option Nat := none
  diagFlag : Bool := false
  diagBusy : Bool := false
  diagWait : Nat := 0
  cfgWait : Bool := false
  cfgAt : Option Nat := none
  train : Option Train := none
  skip6 : Bool := false
  deriving DecidableEq, Repr, Inhabited

/-- A frame whose inputs the slices hold (R45, R47): the hold instant, and per local input the slice that serves it,
the phase count j of its chain and how far j advances, and the presentation in force. -/
structure HeldFrame where
  at_ : Nat
  slices : List (Nat × Option Nat)
  js : List Nat
  watch : Bool
  se : Nat
  fmt : Nat
  deriving DecidableEq, Repr, Inhabited

/-- A snapshot in progress (R52): its slot, its input, the instant its trigger reached SMP and its hold instant. -/
structure Snap where
  slot : Nat
  input : Nat
  trig : Nat
  hold : Nat
  deriving DecidableEq, Repr, Inhabited

/-- A test in progress (R57): phase 1 the mean without injection, 2 settling, 3 the test's mean. -/
structure AdcTest where
  phase : Nat
  input : Nat
  kind : Nat
  avg : Nat
  since : Nat
  sum : Int := 0
  cnt : Nat := 0
  deriving DecidableEq, Repr, Inhabited

/-- An ADC group beside its registers: frames held and not yet converted, the free slice's calibration steps done, when
the current step began, the base of the starvation time and whether a handover is due (R49–R54), the snapshot in
progress, v_prev per input (R48), SE and FMT in force and the writes not yet in force, with their instants (R61; FMT
where true), the test, and
the watch mode: whether its frames run, the end of settling (R59). -/
structure AdcGroup where
  held : List HeldFrame := []
  steps : Nat := 0
  calFrom : Nat := 0
  starve : Nat := 0
  handover : Bool := false
  snap : Option Snap := none
  vprev : List Int := [0, 0, 0, 0, 0, 0, 0, 0]
  se : Nat := 0
  fmt : Nat := 0
  pres : List (Nat × Bool × Nat) := []
  test : Option AdcTest := none
  watchOn : Bool := false
  settle : Option Nat := none
  deriving DecidableEq, Repr, Inhabited

/-- A screen chain beside its registers: each stage's history, newest first (empty until its first word, R65), how far
the last frame advances j and when it was, whether it has begun, the watch frame a phase reset waits for, and the fast
window's counts outside and inside its band (R73). -/
structure Chain where
  hist : List (List Int) := [[], [], [], [], [], [], []]
  adv : Nat := 0
  frameAt : Nat := 0
  begun : Bool := false
  resetAt : Option Nat := none
  outs : Nat := 0
  ins : Nat := 0
  deriving DecidableEq, Repr, Inhabited

/-- What the screen chains share: armed windows (R71), the accepted reset frame (R68), the reset frames for which SYNC
is driven (R69), SYNC as driven, and each tap's and each snapshot slot's newest two words as (stamp, word) (R82). -/
structure Screen where
  armed : Nat := 0
  f0 : Option Nat := none
  drive : List Nat := []
  syncOut : Bool := false
  taps : List (List (Nat × Int)) := List.replicate 256 []
  snaps : List (List (Nat × Int)) := List.replicate 16 []
  deriving DecidableEq, Repr, Inhabited

/-- A run in progress (R83–R85): the instant its cycles count from and the cycles it had then (R327: the clock may change
in a run), the next instance, the cycles spent, its stamp and number, d_used, Δt's
binary32, whether it started on time, what was fixed for it, the signature so far (R253) and its next checkpoint. -/
structure Run where
  start : Nat
  done_ : Nat := 0
  idx : Nat := 0
  cyc : Nat
  stamp : Nat
  num : Nat
  dUsed : Nat
  dt : Nat
  onTime : Bool
  fix : Fixed
  sig : Nat := 0xFFFFFFFF
  chk : Nat := 0
  deriving DecidableEq, Repr, Inhabited

/-- A control engine beside its registers and local memory: the divider's count and the last event it counted (R81),
ticks on their way, the tick that waits for its run, the run, when the last one ended, whether its recipe passed the check at release, the last run's stamp, whether the
next run is a first run and whether it initialises state (R83, R84), its run number, the writes queued for state words as
(index, word, instant), the request instants of the swaps and when the recipe's check passed (R88), the check in
progress as (inactive store, instant), its own tick events and the stamps of RUN records received while it follows the
journal (R251), the trace record index, records still to write and whether the trigger waits for the next
run's stamp, the message number each mailbox input last held, and whether an ECC error stopped it in mid-run (R98). -/
structure Engine where
  div : Nat := 0
  lastEv : Option Nat := none
  wait : List Tick := []
  own : List Tick := []
  recs : List Nat := []
  pend : Option Tick := none
  run : Option Run := none
  endAt : Option Nat := none
  prev : Nat := 0
  ready : Bool := false
  firstNext : Bool := true
  initNext : Bool := true
  runNo : Nat := 0
  queue : List (Nat × Nat × Nat) := []
  coefAt : Option Nat := none
  joined : Bool := false
  recipeOk : Option Nat := none
  check : Option (Bool × Nat) := none
  trcIdx : Nat := 0
  trcPost : Option Nat := none
  trcNext : Bool := false
  midrun : Bool := false
  mbSeq : List (Nat × Nat) := []
  deriving DecidableEq, Repr, Inhabited

/-- A move to CE7 (R98, R99): its source, whether it waits for the run's end, its copy or its rebinding, and since
when. -/
structure Move where
  src : Nat
  phase : Nat
  since : Nat
  deriving DecidableEq, Repr, Inhabited

/-- The model of a tracker's count (R149): θ(t) = (e + g × round_even((t − t_c) × num / I)) mod 2^32. -/
structure CountModel where
  tc : Int
  e : Int
  g : Int
  num : Int
  i : Nat
  deriving DecidableEq, Repr, Inhabited

/-- A phasor tracker beside its registers (chapter 8): armed or not, the last pair as (input instant, α, β), the last
validated edge and whether it counts as a previous one (R148), the model, the held count, the times spent inside and
outside the amplitude window with the last pair's instant and side (R150), pairs formed and not yet taken, the
instants in a row at which the taps delivered and their stamps differed, and the stamp of the newest word that has met no
equal one (R144). -/
structure Tracker where
  armed : Bool := false
  prev : Option (Int × Nat × Nat) := none
  edge : Option Int := none
  fresh : Bool := false
  model : Option CountModel := none
  hold : Nat := 0
  inTime : Nat := 0
  outTime : Nat := 0
  side : Option (Int × Bool) := none
  due : List (Int × Nat × Nat) := []
  miss : Nat := 0
  unmet : Option Nat := none
  deriving DecidableEq, Repr, Inhabited

/-- The quadrature pins (R152): the state they show and since when. -/
structure Quad where
  pos : Nat := 0
  since : Nat := 0
  low : Bool := true
  deriving DecidableEq, Repr, Inhabited

/-- The answer to an access: whether it was an error response, and the data read (R9, R11). -/
structure Resp where
  err : Bool := false
  data : Nat := 0
  deriving DecidableEq, Repr, Inhabited

/-- A holding copy: the requester's code, the word's address and the copied word (R12). -/
structure Holding where
  who : Nat
  addr : Nat
  word : Nat
  deriving DecidableEq, Repr, Inhabited

/-- Kinds of resources that belong to at most one engine sheet (R21). -/
inductive ResKind where
  | group | channel | lane | window | fastWindow | tracker | bank | snap | mailbox | rxf | txs | engine
  deriving DecidableEq, Repr, Inhabited

/-- A resource with the sheet that owns it (R21, R32). -/
structure Owned where
  kind : ResKind
  idx : Nat
  sheet : Nat
  deriving DecidableEq, Repr, Inhabited

/-- What a frame waiting at an egress needs at its SFD: nothing; its send instant as t1 of a Pdelay_Req; the turnaround
since t2 for a Pdelay_Resp; the residence since its receive stamp on a port for a relayed Sync (R228–R230). -/
inductive PtpMark where
  | none
  | req (seq : Nat)
  | resp (t2 : Int)
  | sync (rx : Int) (port : Nat)
  deriving DecidableEq, Repr, Inhabited

/-- A frame waiting at an egress, without its FCS: its class, and for a host's frame the interface and the descriptor's
address (R208, R216). -/
structure TxFrame where
  bytes : List Byte
  cls : Nat
  own : Option (Nat × Nat) := none
  mark : PtpMark := .none
  deriving DecidableEq, Repr, Inhabited

/-- A frame that a port has sent: the instant of its SFD, its bytes without the FCS, and the FCS; none where it ended with
the code group /V/ and a failing FCS (R206), whose value the spec does not state. -/
structure SentFrame where
  at_ : Nat
  bytes : List Byte
  fcs : Option Nat
  deriving DecidableEq, Repr, Inhabited

/-- A consumed frame in a receive buffer: its class, its bytes counted, and when its destination has taken it and its room is
free (R209). -/
structure RxHeld where
  cls : Nat
  size : Nat
  till : Nat
  deriving DecidableEq, Repr, Inhabited

/-- What a bridge did with a frame still arriving: nothing yet, forwarding cut-through since its egress stamp, waiting
for the whole frame, or not forwarding it (R206). -/
inductive Fwd where
  | none
  | cut (out : Nat) (mark : PtpMark)
  | wait
  | drop
  deriving DecidableEq, Repr, Inhabited

/-- A Commons entry (R220–R224): what the last beacon said and when it was heard, in TB milliseconds, and whether it has not
been heard since the warm start that kept it. -/
structure Peer where
  mac : Nat
  node : Nat := 0
  pinned : Bool := false
  stale : Bool := false
  unheard : Bool := false
  seq : Nat := 0
  mould : Nat := 0
  status : Nat := 0
  flags : Nat := 0
  user : List Nat := [0, 0, 0, 0]
  last : Nat := 0
  first : Nat := 0
  lanA : Option Nat := none
  lanB : Option Nat := none
  seenA : Option Nat := none
  seenB : Option Nat := none
  deriving DecidableEq, Repr, Inhabited

/-- The network unit beside its registers (chapter 11): duplicate-discard entries, oldest first, as (SA, SeqNr, TB instant);
per port the consumed frames in its receive buffer, the waiting frames, when its line is free, what it last sent, and what
becomes of the frame arriving; per host interface whether transmit processing goes on; the SEQ writes that transmit slots
have yet to answer, oldest first, as (transmit slot, buffer); the beacon count, the last beacon instant, the supervision
count and the next supervision instant; the Commons by index, and each index's GEN. -/
structure Net where
  dd : List (Nat × Nat × Nat) := []
  rx : List (List RxHeld) := [[], [], [], [], []]
  egress : List (List TxFrame) := [[], [], [], [], []]
  free : List Nat := [0, 0, 0, 0, 0]
  sent : List (Option SentFrame) := [none, none, none, none, none]
  fwd : List Fwd := [.none, .none, .none, .none, .none]
  tx : List Bool := [false, false]
  slotDue : List (Nat × Nat) := []
  bcnSeq : Nat := 0
  bcnAt : Option Nat := none
  supvSeq : Nat := 0
  supvAt : Nat := 0
  peers : List (Nat × Peer) := []
  gens : List (Nat × Nat) := []
  deriving DecidableEq, Repr, Inhabited

/-- A time trigger beside its registers (R237, R238): the next firing instant while enabled, the TB stamp of its last firing,
when EN took effect, and when a write of EN arrives in TB. -/
structure Trigger where
  next : Option Nat := none
  fired : Option Nat := none
  enAt : Option Nat := none
  enReq : Option Nat := none
  deriving DecidableEq, Repr, Inhabited

/-- The last Announce of a sender on a port, when it came, and whether the one before it was near enough to qualify it
(R231). -/
structure Ann where
  port : Nat
  msg : PtpAnnounce
  at_ : Nat
  qualified : Bool
  deriving DecidableEq, Repr, Inhabited

/-- A servo beside its registers (R231–R235): the Announces held, the master followed (its sender identity), the last
usable Sync as (m, t2) with its o, when it came, the Syncs since ACQUIRE began, the Syncs in a row within LOCK_THR and
beyond UNLOCK_THR, y in ppb as a fraction, the two-step Syncs that wait for their Follow_Up with their port, since when the
servo is LOCKED, and whether AUTOSEL put the other domain in force in its place. -/
structure Domain where
  anns : List Ann := []
  master : Option Nat := none
  prev : Option (Int × Int × Int) := none
  lastAt : Option Nat := none
  acq : Nat := 0
  good : Nat := 0
  bad : Nat := 0
  y : Int × Nat := (0, 1)
  twoStep : List (Nat × PtpSync) := []
  lockedAt : Option Nat := none
  fell : Bool := false
  deriving DecidableEq, Repr, Inhabited

/-- Peer delay of a bridge port (R229): the next sequence number, when a request is due next, the outstanding request with
the instant it was handed out, its t1 once its SFD has left, a two-step response's (t2, t3 so far, t4), the last results, failures in a row, and whether a valid delay has been
held since link-up. -/
structure Pdelay where
  seq : Nat := 0
  at_ : Option Nat := none
  asked : Option (Nat × Nat) := none
  t1 : Option (Nat × Int) := none
  pend : Option (Int × Int) := none
  results : List Int := []
  fails : Nat := 0
  seen : Bool := false
  deriving DecidableEq, Repr, Inhabited

/-- What a twin-link frame says (Table 13-1, Table 13-4). -/
inductive TwMsg where
  | run (n num stamp merged : Nat) (fix : Fixed)
  | write (addr value issue : Nat)
  | filter (f slot stamp : Nat) (vals : List Nat) (arrive : Nat)
  | checkpoint (n num idx crc : Nat)
  | verdict (n : Nat) (loserIsB : Bool)
  | health (h : Health)
  | state (i : JoinItem)
  | nak (lseq : Nat)
  deriving DecidableEq, Repr

/-- A record that waits for the twin link: from when on it may go, its next part, and of a frame sent again the LSEQ and
the draw its payload comes from. -/
structure TwOut where
  due : Nat
  part : Nat := 0
  again : Option (Nat × Nat) := none
  msg : TwMsg
  deriving DecidableEq, Repr

/-- A frame of the twin link (R241): TYPE, LSEQ, its part of its record, LEN, the record, and the draw its payload bytes
come from, for the spec gives no layout of a payload (log entry 144). -/
structure TwFrame where
  typ : Nat
  lseq : Nat
  part : Nat
  len : Nat
  msg : TwMsg
  pay : Nat
  deriving DecidableEq, Repr

/-- A checkpoint still to be compared: engine, RUN, index, CRC, and when it was made (R253, R254). -/
structure Chk where
  n : Nat
  num : Nat
  idx : Nat
  crc : Nat
  at_ : Nat
  fin : Bool := false
  deriving DecidableEq, Repr, Inhabited

/-- A join in progress (Table 13-9): its step, when it began, when step 2 ended, whether the transfer is full, the phase
resets so far and F0 of the last one. -/
structure Join where
  step : Nat
  began : Nat
  timed : Option Nat := none
  full : Bool
  resets : Nat := 0
  f0 : Option Nat := none
  deriving DecidableEq, Repr, Inhabited

/-- The twin unit beside its registers (chapter 13): the frame counts each way (none until the partner's first frame), the
missing frames asked for, the records that wait, what each lane sent last, since when and from which running disparity, the
disparity after it, when each lane is free, the frames kept for sending again; when the partner was last heard, its last HEALTH frame and since when its domain is LOCKED; the
writes held; checkpoints own and received; the instants of entering JOINING, of losing the link, of losing a divergence,
and of detecting one as follower; the join; the items of the transfer taken, or as source sent, since the last mark, and
their bytes, what of them takes effect at X, and what waits for its X as (X, item); the source's picture of what the joining
device's memory holds; which engines run in step, which wait for the join of their one
sheet and since when, and each one's rounds; whether the state is
complete enough for a delta transfer; the handover instant, whether the role has passed, a revert request, and the
engines a joining partner still waits for; since when |TBDIFF| is above 50 ns, since when it is within
TBD_MAX / 2 while steering, since when a ROLE A follower is healthy;
per input the consecutive cross-check failures; per engine whether the run's checkpoints were equal so far; an
uncorrectable ECC error in a paired sheet's memory since the join; the K28.5 stamp in the partner's last HEALTH frame and
its arrival; since when each lane of the link is down. -/
structure Twin where
  txSeq : Nat := 0
  rxSeq : Option Nat := none
  missing : List Nat := []
  queue : List TwOut := []
  wire : List (Option (Nat × TwFrame × Bool)) := [none, none]
  rd : List Bool := [false, false]
  busy : List Nat := [0, 0]
  store : List TwFrame := []
  heardAt : Option Nat := none
  partner : Option Health := none
  pLockedAt : Option Nat := none
  held : List Held := []
  own : List Chk := []
  theirs : List Chk := []
  joiningAt : Nat := 0
  lostAt : Option Nat := none
  divAt : Option Nat := none
  verdictBy : Option (Nat × Nat) := none
  join : Option Join := none
  got : Nat := 0
  bytes : Nat := 0
  late : List JoinItem := []
  atX : List (Nat × JoinItem) := []
  shadow : List Host.Cell := []
  inStep : List Nat := []
  heldJoin : List Nat := []
  heldFrom : List Nat := [0, 0, 0, 0, 0, 0, 0, 0]
  rounds : List Nat := [0, 0, 0, 0, 0, 0, 0, 0]
  delta : Bool := false
  hand : Option Nat := none
  swapped : Bool := false
  asks : Bool := false
  serving : List Nat := []
  limitAt : Option Nat := none
  steerAt : Option Nat := none
  healthyAt : Option Nat := none
  xfail : List Nat := List.replicate 32 0
  runOk : List Bool := [true, true, true, true, true, true, true, true]
  muteAt : List (Option Nat) := [none, none, none, none, none, none, none, none]
  ecc : Bool := false
  heard : Option (Nat × Nat) := none
  downAt : List Nat := [0, 0]
  deriving DecidableEq, Repr, Inhabited

/-- A pair of the Watch island beside its registers (R277–R280): since when the filtered channels differ, whether they
agreed again since, whether this discrepancy has faulted, how many tolerated discrepancies wait to be counted, whether both
channels have read 0 at an evaluation step since the fault, and whether each channel's last pulse check passed. -/
structure IslePair where
  since : Option Nat := none
  agreed : Bool := false
  bad : Bool := false
  ovr : Nat := 0
  zero : Bool := false
  okA : Bool := true
  okB : Bool := true
  deriving DecidableEq, Repr, Inhabited

/-- A safe output (R281–R284): when a decided switch-off drives it low, its last commanded change, the readback samples
that differed in a row, when its next test is due, when the pulse in progress ends, whether a demand came in it, whether the
last evaluation step found it demanded off, and by when a test's readback must have been low, and high again. -/
structure IsleOut where
  offAt : Option Nat := none
  cmdAt : Nat := 0
  miss : Nat := 0
  testAt : Nat := 0
  pulse : Option Nat := none
  broken : Bool := false
  dem : Bool := true
  lowBy : Option Nat := none
  highBy : Option Nat := none
  deriving DecidableEq, Repr, Inhabited

/-- A receive connection (R290–R293): whether a message has been accepted since START or the last expiry and when, the SEQs
accepted since then, the pending copy as (SEQ, LAN, body, arrival), DATA byte 0 of the last accepted message, and whether an acceptance has
followed the fault. -/
structure IsleConn where
  last : Option Nat := none
  acc : List Nat := []
  pend : Option (Nat × Nat × List Byte × Nat) := none
  data0 : Nat := 0
  since : Bool := false
  deriving DecidableEq, Repr, Inhabited

/-- A safety frame that waits for the island (R288): the port it came on, whether it is native (EtherType 0x88B7) or NAY2400
(0x88B6), its SA and its body. -/
structure SafetyIn where
  port : Nat
  native : Bool
  sa : Nat
  body : List Byte
  deriving DecidableEq, Repr, Inhabited

/-- The Watch island beside its registers (chapter 14): the active parameter set (empty without a valid one), since when
each raw SIN has its level, the pulse of each supply and whether its overcurrent is present, the instant the last pulse of
any output ended, the SRST press and the low steps since, the seal's raw value and since when, the level of WDO, whether
the staged set has passed its check, the safety frames that wait for it, oldest first, and each transmit connection's next
instant and last data; its own clock less TB; when the next pulse of TPA and of TPB is due, and whether overcurrent holds
that supply low; when the last seal change in SAFE_STOP was; whether START's self-test has passed. Its instants are those
of its own clock. -/
structure Island where
  pset : List Byte := []
  sinSince : List Nat := [0, 0, 0, 0, 0, 0, 0, 0]
  pairs : List IslePair := [{}, {}, {}, {}]
  pulseA : Option Nat := none
  pulseB : Option Nat := none
  overA : Bool := false
  overB : Bool := false
  outs : List IsleOut := [{}, {}, {}, {}]
  pulseEnd : Nat := 0
  press : Nat := 0
  lows : Nat := 0
  sealRaw : Nat := 0
  sealAt : Nat := 0
  wdo : Bool := false
  checked : Bool := false
  conns : List IsleConn := [{}, {}, {}, {}, {}, {}, {}, {}]
  queue : List SafetyIn := []
  txs : List (Nat × List Byte) := [(0, []), (0, []), (0, []), (0, []), (0, []), (0, []), (0, []), (0, [])]
  off : Int := 0
  nextA : Nat := 0
  nextB : Nat := 0
  lowA : Bool := false
  lowB : Bool := false
  sealNew : Nat := 0
  tested : Bool := false
  deriving DecidableEq, Repr, Inhabited

/-- A repair in progress (R308): its bank (0–95 BKn, 96–111 XBx), the segment, the spare it is mapped to, the next piece,
and the pieces left. -/
structure Repair where
  bank : Nat
  seg : Nat
  spare : Nat
  piece : Nat
  left : Nat
  deriving DecidableEq, Repr, Inhabited

/-- A Glean channel beside its registers (R309, R312): CTL and NEXT of the descriptor in progress (none: it is still to be
fetched). -/
structure GleanChan where
  desc : Option (Nat × Nat) := none
  deriving DecidableEq, Repr, Inhabited

/-- A row of a main bank that L2 holds (R297, R298): its address, whether it is dirty, and its eight bytes. -/
structure L2Row where
  addr : Nat
  dirty : Bool
  bytes : List Byte
  deriving DecidableEq, Repr, Inhabited

/-- What the memory blocks hold beside their registers (chapter 15): repairs in progress, the Glean channels, the channel
served last at each priority (R313), and the rows in L2, the one used last first (R298). -/
structure MemState where
  repairs : List Repair := []
  glean : List GleanChan := List.replicate 32 {}
  served : List Nat := [31, 31, 31, 31]
  l2 : List L2Row := []
  deriving DecidableEq, Repr, Inhabited

/-- The clock generator beside its registers (chapter 16): whether the domains run from the DLL, whether the lanes and SMP
run, when SMP restarts, failed acquisitions in a row, whether the acquisition searches for a band, and each output's delay
in force (R323); whether a loss of lock still counts as a failed online test (R327). -/
structure Clock where
  dll : Bool := true
  lanes : Bool := false
  smp : Bool := false
  smpAt : Option Nat := none
  fails : Nat := 0
  search : Bool := false
  dly : List Nat := [0, 0, 0, 0, 0]
  lost : Bool := false
  deriving DecidableEq, Repr, Inhabited

/-- A cell of the keep-alive mirror (R337): its sequence number, CLEAN, the items of Table 17-2 but the retention bytes,
and HLT_LIFE (R373). -/
structure MirrorCell where
  seq : Nat
  clean : Bool
  opsec : Nat
  cycles : Nat
  boot : Nat
  failT0 : Nat
  ldgFail : Bool
  offsec : Nat
  life : Nat
  deriving DecidableEq, Repr, Inhabited

/-- A start in progress (R344): cold or warm, its beginning in TB and the steps of Table 17-6
that have ended. -/
structure StartRun where
  cold : Bool
  began : Nat
  ended : List Nat := []
  deriving DecidableEq, Repr, Inhabited

/-- The power unit beside its registers (chapter 17): PORST_N held low; WRST_N held low; main
power failed and not risen since; TESTMODE high at the last release of PORST_N (R383); the power-fail warning; main power
risen while PORST_N is low; OFFT_EN when main power fell; the mirror's cells and its failed
writes in a row; whether keep-alive contents are lost; what the last rise restored, until it is recorded, as (sequence
number, CLEAN); OPSEC in 2^-16 s with the TB count it stood at, and the
reference time counted beside it in sub-ticks; the cause of a start that is to begin and since when; the
start in progress; whether this start is confirmed; since when the confirmation time and the watchdog run; and the record
of the image in main banks as (address, length, CRC-32). -/
structure Power where
  porst : Bool := false
  wrst : Bool := false
  off : Bool := false
  testMode : Bool := false
  warn : Bool := false
  rose : Bool := false
  offt : Bool := false
  cells : List (Option MirrorCell) := [none, none]
  fails : Nat := 0
  lost : Bool := false
  restored : Option (Nat × Bool) := none
  opBase : Nat := 0
  opTb : Nat := 0
  opSub : Nat := 0
  due : Option Nat := none
  dueAt : Nat := 0
  start : Option StartRun := none
  confirmed : Bool := false
  confirmAt : Option Nat := none
  wdogAt : Option Nat := none
  image : Option (Nat × Nat × Nat) := none
  deriving DecidableEq, Repr, Inhabited

/-- The test of an engine (R367): when its interval began, the pieces completed, and when the last one ended. -/
structure EngTest where
  from_ : Nat := 0
  pieces : Nat := 0
  last : Nat := 0
  deriving DecidableEq, Repr, Inhabited

/-- A firmware command in progress (R371): its operation, its slot, the code its checks gave, and the
staged image. -/
structure FwCmd where
  op : Nat
  slot : Nat
  err : Nat
  img : List Byte
  deriving DecidableEq, Repr, Inhabited

/-- The health unit beside its registers (chapter 19): the engine tests, since when the junction is above 125 °C, the part
of an equivalent hour accumulated, and the firmware command in progress. -/
structure HltState where
  tests : List EngTest := List.replicate 8 {}
  hot : Option Nat := none
  life : Nat := 0
  fw : Option FwCmd := none
  deriving DecidableEq, Repr, Inhabited

/-- A Mould command in progress (R39): its operation, slot and sheet, the refusal its checks gave (0 none) with its sheet
and offset, and the image. -/
structure MldCmd where
  op : Nat
  slot : Nat
  sheet : Nat
  code : Nat
  errSheet : Nat
  off : Nat
  img : List Byte
  deriving DecidableEq, Repr, Inhabited

/-- The Mould loader beside its registers (chapter 2): the owner table (R21, R32), the sheets that stay quiesced although
their bit is clear (R40), and the command in progress. -/
structure Loader where
  own : List Owned := []
  stay : List Nat := []
  cmd : Option MldCmd := none
  deriving DecidableEq, Repr, Inhabited

/-- The pins beside their registers (chapter 20): the UART's queues, oldest first, and the instruction in the TAP: 0 BYPASS,
1 IDCODE, 2 SAMPLE/PRELOAD, 3 debug access, 4 EXTEST, 5 EXTEST_PULSE, 6 EXTEST_TRAIN. -/
structure Pins where
  tx : List Nat := []
  rx : List Nat := []
  jtag : Nat := 1
  deriving DecidableEq, Repr, Inhabited

/-- The state of the device. -/
structure State where
  /-- The timebase count, 64 bits, sub-ticks (R3, R154). -/
  tb : Nat := 0
  /-- Commands waiting, first in, first out. -/
  pending : List Instr := []
  /-- Register words that differ from their reset value (R7, R25). -/
  regs : List (Nat × Word) := []
  /-- Bytes of the memory map that are not zero (R23). -/
  mem : List Host.Cell := []
  /-- The answer to the last access (R9, R11). -/
  resp : Resp := {}
  /-- Holding copies of 64-bit registers and of stamps, per requester (R12, R55, R75). -/
  holding : List Holding := []
  /-- Free values drawn so far (the model's own; see Config). -/
  drawn : Nat := 0
  /-- Register bits that hardware set in the present cycle, as word address and mask (R10). -/
  marks : List (Nat × Nat) := []
  /-- Rows of memory known to be in error: met by a read, and not rewritten since (R303, R306). -/
  rows : List RowErr := []
  /-- The Ledger (chapter 18). -/
  ldg : Ledger := {}
  /-- PWM channels CH0–CH47 (chapter 9). -/
  chans : List Chan := List.replicate 48 {}
  /-- PWM groups PG0–PG7 (chapter 9). -/
  groups : List PwmGroup := List.replicate 8 {}
  /-- The FLT pins; the pull-ups hold them high at reset (R169, R378). -/
  fltPins : List FltPin := List.replicate 16 {}
  /-- Gate lanes LN0–LN11 (chapter 10). -/
  lanes : List Lane := List.replicate 12 {}
  /-- Control engines CE0–CE7 (chapter 5). -/
  engs : List Engine := List.replicate 8 {}
  /-- The Mould loader (chapter 2). -/
  mld : Loader := {}
  /-- ADC groups AG0–AG3 (chapter 3). -/
  adcs : List AdcGroup := List.replicate 4 {}
  /-- Screen chains of AIN0–AIN31 (chapter 4). -/
  chains : List Chain := List.replicate 32 {}
  /-- The screen chains' shared parts (chapter 4). -/
  scr : Screen := {}
  /-- The move to CE7 in progress (chapter 5). -/
  move : Option Move := none
  /-- Time triggers TT0–TT15 (chapter 12). -/
  trigs : List Trigger := List.replicate 16 {}
  /-- The twin unit (chapter 13). -/
  twn : Twin := {}
  /-- Phasor trackers PT0–PT3 (chapter 8). -/
  trks : List Tracker := List.replicate 4 {}
  /-- The quadrature pins (chapter 8). -/
  quad : Quad := {}
  /-- The network unit (chapter 11). -/
  net : Net := {}
  /-- The time servos TD0, TD1 (chapter 12). -/
  doms : List Domain := [{}, {}]
  /-- Peer delay of A1, A2, B1, B2 (chapter 12). -/
  pdelays : List Pdelay := [{}, {}, {}, {}]
  /-- The Watch island (chapter 14). -/
  isle : Island := {}
  /-- Repairs and Glean channels (chapter 15). -/
  mst : MemState := {}
  /-- The clock generator (chapter 16). -/
  clk : Clock := {}
  /-- The health unit (chapter 19). -/
  hlt : HltState := {}
  /-- Power, keep-alive and starts (chapter 17). -/
  pwr : Power := {}
  /-- The UART and the TAP (chapter 20). -/
  pins : Pins := {}
  deriving DecidableEq, Repr

/-- The machine right after reset: every register at its reset value, memory with nothing listed, no command waiting. -/
def State.reset : State := {}

end Sys2Proof.Machine
end

