-- ==== Sys2Proof/Machine/Reach.lean ====
section
/-!
DEFINITION. The parts of the device and how far a command reaches: each command's meaning names the parts it may write,
and leaves every other part as it was (log entry 2).
-/

namespace Sys2Proof.Machine

/-- The parts of the device: the register blocks of the register map (R7) with what each unit holds beside its registers,
the memory map, the answer and the holding copies of the requesters (`bus`), and the engines of the memory blocks (`mst`).
-/
inductive Part where
  | sys | clk | pwr | mld | bnk | swp | gln | adc | scr | ce | pht | pwm | fmx | lne | net | tsu | twn | wch | ldg | hlt
  | irq | pin | mem | bus | mst
  deriving DecidableEq, Repr

/-- Every part. -/
def Part.all : List Part :=
  [.sys, .clk, .pwr, .mld, .bnk, .swp, .gln, .adc, .scr, .ce, .pht, .pwm, .fmx, .lne, .net, .tsu, .twn, .wch, .ldg,
   .hlt, .irq, .pin, .mem, .bus, .mst]

/-- The unit whose register block holds an address (R25, Table 1-8); an address outside the other blocks counts as SYS. -/
def partOf (addr : Nat) : Part :=
  match addr / 0x10000 with
  | 0x4001 => .clk | 0x4002 => .pwr | 0x4003 => .mld | 0x4004 => .bnk | 0x4005 => .swp | 0x4006 => .gln
  | 0x4008 => .adc | 0x4009 => .scr | 0x400A => .ce | 0x400C => .pht | 0x400D => .pwm | 0x400E => .fmx
  | 0x400F => .lne | 0x4010 => .net | 0x4011 => .tsu | 0x4012 => .twn | 0x4013 => .wch | 0x4014 => .ldg
  | 0x4015 => .hlt | 0x4016 => .irq | 0x4017 => .pin
  | _ => .sys

/-- `new` within the reach, `old` outside it. -/
def State.confine (reach : List Part) (old new : State) : State :=
  let r (p : Part) : Bool := reach.contains p
  { new with
    regs := smix (fun a => r (partOf a)) old.regs new.regs
    mem := if r .mem then new.mem else old.mem
    rows := if r .mem then new.rows else old.rows
    resp := if r .bus then new.resp else old.resp
    holding := if r .bus then new.holding else old.holding
    ldg := if r .ldg then new.ldg else old.ldg
    chans := if r .pwm then new.chans else old.chans
    groups := if r .pwm then new.groups else old.groups
    fltPins := if r .fmx then new.fltPins else old.fltPins
    lanes := if r .lne then new.lanes else old.lanes
    engs := if r .ce then new.engs else old.engs
    mld := if r .mld then new.mld else old.mld
    adcs := if r .adc then new.adcs else old.adcs
    chains := if r .scr then new.chains else old.chains
    scr := if r .scr then new.scr else old.scr
    move := if r .ce then new.move else old.move
    trigs := if r .tsu then new.trigs else old.trigs
    twn := if r .twn then new.twn else old.twn
    trks := if r .pht then new.trks else old.trks
    quad := if r .pht then new.quad else old.quad
    net := if r .net then new.net else old.net
    doms := if r .tsu then new.doms else old.doms
    pdelays := if r .tsu then new.pdelays else old.pdelays
    isle := if r .wch then new.isle else old.isle
    mst := if r .mst then new.mst else old.mst
    clk := if r .clk then new.clk else old.clk
    hlt := if r .hlt then new.hlt else old.hlt
    pwr := if r .pwr then new.pwr else old.pwr
    pins := if r .pin then new.pins else old.pins }

end Sys2Proof.Machine
end

