-- ==== Sys2Proof/Machine/Ops.lean ====
section
/-!
DEFINITION. The named operations over the state: time, registers by field, memory by byte, the units' hidden state, the
answer to an access, and the two shapes of a command's outcome.
-/

namespace Sys2Proof.Machine

/-- What a command answers. -/
abbrev Out := Host.Outcome State Fault Refusal

/-- A cycle of the engines and of the register space: 2 ns, and 40 ns in DLL mode (R14, R328). -/
def State.cycleLen (s : State) : Nat := if s.clk.dll then 640 else 32

/-- The state at TB count `t`: TB never runs backward (R154), so an instant already past counts as now. What hardware set
in an earlier cycle is no longer of this one (R10). -/
def State.at (s : State) (t : Nat) : State :=
  let now := max s.tb (t % 2 ^ 64)
  { s with tb := now, marks := if now / s.cycleLen = s.tb / s.cycleLen then s.marks else [] }

/-- The state a command leaves: what its effect made of the parts it reaches, every other part and the queue as they were,
and TB. -/
def State.settle (s : State) (reach : List Part) (tb : Nat) (new : State) : State :=
  { s.confine reach new with pending := s.pending, tb := tb }

/-! ### Registers -/

/-- A word of the register list, and the list with a word replaced. -/
def regWord (r : List (Nat × Word)) (addr : Nat) : Nat := (sget resetWord r addr).toNat
def regSet (r : List (Nat × Word)) (addr v : Nat) : List (Nat × Word) := sset resetWord r addr (BitVec.ofNat 32 v)

/-- A field of the register list. A field wider than what its first word holds continues in the next word. -/
@[irreducible] def regGet (r : List (Nat × Word)) (f : RF) : Nat :=
  if f.lsb + f.width ≤ 32 then bits (regWord r f.addr) f.lsb f.width
  else bits (regWord r f.addr + 2 ^ 32 * regWord r (f.addr + 4)) f.lsb f.width

/-- The register list with a field replaced by `v` modulo its width. -/
@[irreducible] def regPut (r : List (Nat × Word)) (f : RF) (v : Nat) : List (Nat × Word) :=
  if f.lsb + f.width ≤ 32 then regSet r f.addr (setBits (regWord r f.addr) f.lsb f.width v)
  else
    let x := setBits (regWord r f.addr + 2 ^ 32 * regWord r (f.addr + 4)) f.lsb f.width v
    regSet (regSet r f.addr (x % 2 ^ 32)) (f.addr + 4) (x >>> 32)

/-- The register word at `addr` as it stands (no read side effect). -/
def State.word (s : State) (addr : Nat) : Nat := regWord s.regs addr

/-- A register word replaced. -/
def State.setWord (s : State) (addr v : Nat) : State := { s with regs := regSet s.regs addr v }

/-- A field's value, and a field replaced by `v` modulo its width. -/
def State.get (s : State) (f : RF) : Nat := regGet s.regs f
def State.put (s : State) (f : RF) (v : Nat) : State := { s with regs := regPut s.regs f v }

/-- Whether a field is not zero. -/
def State.is (s : State) (f : RF) : Bool := s.get f ≠ 0

/-- The bits `m` of a field are set by hardware in this cycle (R10). -/
def State.mark (s : State) (f : RF) (m : Nat) : State :=
  { s with marks := (f.addr + 4 * (f.lsb / 32), m <<< (f.lsb % 32)) :: s.marks }
/-- The bits of a word that hardware set in this cycle. -/
def State.marked (s : State) (addr : Nat) : Nat := s.marks.foldl (fun m e => if e.1 = addr then m ||| e.2 else m) 0

def State.set1 (s : State) (f : RF) : State := (s.put f 1).mark f 1
def State.clr (s : State) (f : RF) : State := s.put f 0
/-- A bit that hardware set at `x`: in this cycle, or in an earlier one (R10). -/
def State.setAt (s : State) (f : RF) (x : Nat) : State := if x / s.cycleLen = s.tb / s.cycleLen then s.set1 f else s.put f 1

/-- Bits set, and bits cleared. -/
def State.orr (s : State) (f : RF) (m : Nat) : State := (s.put f (s.get f ||| m)).mark f m
def State.andn (s : State) (f : RF) (m : Nat) : State := s.put f (s.get f - (s.get f &&& m))

/-- A counter that stops at its maximum, and one that wraps. -/
def State.bump (s : State) (f : RF) (n : Nat := 1) : State := s.put f (satInc f.width (s.get f) n)
def State.bumpWrap (s : State) (f : RF) (n : Nat := 1) : State := s.put f ((s.get f + n) % 2 ^ f.width)

/-! ### Memory -/

/-- What a byte nothing has written reads as: zero; the boot ROM's bytes are free (log entry 9). -/
def memDefault (_ : Nat) : Byte := 0

def State.byte (s : State) (a : Nat) : Byte :=
  if a < 0x20000 then Config.bootRom a else sget memDefault s.mem a
/-- A byte written; the row's check bits are written with it, so that a row in error is so no longer (R302, R303). -/
def State.setByte (s : State) (a : Nat) (b : Byte) : State :=
  { s with mem := sset memDefault s.mem a b, rows := s.rows.filter (·.addr / 8 ≠ a / 8) }
def State.readBytes (s : State) (a n : Nat) : List Byte := (List.range n).map fun i => s.byte (a + i)
def State.writeBytes (s : State) (a : Nat) : List Byte → State
  | [] => s
  | b :: bs => (s.setByte a b).writeBytes (a + 1) bs
def State.readLe (s : State) (a n : Nat) : Nat := ofLe (s.readBytes a n)
def State.writeLe (s : State) (a n v : Nat) : State := s.writeBytes a (leBytes n v)

/-- A range of memory filled with zeros. -/
def State.fillZero (s : State) (a n : Nat) : State :=
  { s with mem := s.mem.filter fun e => e.1 < a || a + n ≤ e.1
           rows := s.rows.filter fun r => r.addr / 8 * 8 + 8 ≤ a || a + n ≤ r.addr / 8 * 8 }

/-- Memory's canonical form. -/
def Memory.wf (m : List Host.Cell) : Bool := swf memDefault m

/-! ### Units -/

def State.chan (s : State) (k : Nat) : Chan := s.chans.getD k {}
def State.upChan (s : State) (k : Nat) (f : Chan → Chan) : State := { s with chans := upd s.chans k f }
def State.group (s : State) (g : Nat) : PwmGroup := s.groups.getD g {}
def State.upGroup (s : State) (g : Nat) (f : PwmGroup → PwmGroup) : State := { s with groups := upd s.groups g f }
def State.lane (s : State) (l : Nat) : Lane := s.lanes.getD l {}
def State.upLane (s : State) (l : Nat) (f : Lane → Lane) : State := { s with lanes := upd s.lanes l f }
def State.eng (s : State) (n : Nat) : Engine := s.engs.getD n {}
def State.upEng (s : State) (n : Nat) (f : Engine → Engine) : State := { s with engs := upd s.engs n f }

def State.adc (s : State) (a : Nat) : AdcGroup := s.adcs.getD a {}
def State.upAdc (s : State) (a : Nat) (f : AdcGroup → AdcGroup) : State := { s with adcs := upd s.adcs a f }
def State.chain (s : State) (i : Nat) : Chain := s.chains.getD i {}
def State.upChain (s : State) (i : Nat) (f : Chain → Chain) : State := { s with chains := upd s.chains i f }
def State.trk (s : State) (p : Nat) : Tracker := s.trks.getD p {}
def State.upTrk (s : State) (p : Nat) (f : Tracker → Tracker) : State := { s with trks := upd s.trks p f }
def State.trig (s : State) (k : Nat) : Trigger := s.trigs.getD k {}
def State.upTrig (s : State) (k : Nat) (f : Trigger → Trigger) : State := { s with trigs := upd s.trigs k f }
def State.dom (s : State) (d : Nat) : Domain := s.doms.getD d {}
def State.upDom (s : State) (d : Nat) (f : Domain → Domain) : State := { s with doms := upd s.doms d f }
def State.pdelay (s : State) (p : Nat) : Pdelay := s.pdelays.getD p {}
def State.upPdelay (s : State) (p : Nat) (f : Pdelay → Pdelay) : State := { s with pdelays := upd s.pdelays p f }
def State.upIsle (s : State) (f : Island → Island) : State := { s with isle := f s.isle }
def State.upTwn (s : State) (f : Twin → Twin) : State := { s with twn := f s.twn }
def State.upNet (s : State) (f : Net → Net) : State := { s with net := f s.net }

/-! ### Clocks (R327, R328) -/

/-- The lanes send and receive: in DLL mode, or with the output of their character clock off, they do not. -/
def State.laneClock (s : State) : Bool := s.clk.lanes && s.is (R.CLK_OUT_CFG_EN 4)
/-- The sampling domain runs, and its output is on (R323). -/
def State.smpRuns (s : State) : Bool := s.clk.smp && s.is (R.CLK_OUT_CFG_EN 3)
/-- From TB to SYS: 16 ns (R15); in DLL mode two DLL cycles after the first DLL edge at or after (R328, R331). -/
def State.tbToSys (s : State) (x : Nat) : Nat := if s.clk.dll then (x + 639) / 640 * 640 + 1280 else x + 256

/-- TB as it reads: in DLL mode it advances by 640 at each DLL edge (R324). -/
def State.tbShown (s : State) : Nat := if s.clk.dll then s.tb / 640 * 640 else s.tb
/-- An instant on the resolution of a network stamp: in DLL mode 40 ns (R331). -/
def State.grid (s : State) (x : Int) : Int := if s.clk.dll then x / 640 * 640 else x
/-- The SerDes of NET and TWN have a clock: the PLL's, or in DLL mode SDCLK (R328). -/
def State.serdesRuns (s : State) : Bool := !s.clk.dll || s.is R.CLK_STAT_ON_SDCLK

/-- When a compare, trigger or load instant takes effect: in DLL mode at the first DLL edge at or after it (R328). -/
def State.effectAt (s : State) (x : Nat) : Nat := if s.clk.dll then (x + 639) / 640 * 640 else x

/-- The island's own clock (R269): it counts as TB does, and neither a step of TB nor a reset of it moves it. -/
def State.wt (s : State) : Nat := ((s.tb : Int) + s.isle.off).toNat

/-- ρ as the PLL applies it, in 1/16 ppb (R320); on the DLL TB runs as its source does (R324). -/
def State.tbRho (s : State) : Int := if s.clk.dll then 0 else toS 32 (s.get R.CLK_RATE)

/-- Reference time, in sub-ticks, over a stretch of TB at the rate applied: TB counts at f_ref times 1 + ρ (R320). -/
def State.refTime (s : State) (d : Nat) : Nat := d * 16000000000 / (16000000000 + s.tbRho).toNat

/-- OPSEC in steps of 2^-16 s: it counts while main power is good, from the reference in use (R336; log entry 85). -/
def State.opsec (s : State) : Nat :=
  if s.is R.PWR_STAT_MPG then (s.pwr.opBase + (s.pwr.opSub + 65536 * s.refTime (s.tb - s.pwr.opTb)) / 16000000000) % 2 ^ 48
  else s.pwr.opBase

/-- The rate applied is about to change: what OPSEC counted at the old rate is taken down, in 2^-16 sub-ticks. -/
def State.opsecNow (s : State) : State :=
  if !s.is R.PWR_STAT_MPG then s
  else { s with pwr := { s.pwr with opSub := s.pwr.opSub + 65536 * s.refTime (s.tb - s.pwr.opTb), opTb := s.tb } }

/-- VDD_IO33 stands: without it the pads of the 3.3 V ring read and drive low (R379). -/
def State.io33 (s : State) : Bool := !s.pwr.off || bit (s.get R.PWR_RAIL) 5

/-! ### Quiesced sheets (Table 2-4) -/

/-- Whether the safety seal enables parameter change (R272): the island is in PARAM. -/
def State.sealOn (s : State) : Bool := s.get R.WCH_STAT_STATE = 3

/-- Whether a sheet is loaded (MLD_SHn_SRC.LOADED). -/
def State.sheetLoaded (s : State) (sheet : Nat) : Bool := s.is (R.MLD_SH_SRC_LOADED sheet)

/-- Whether an engine sheet takes network frames: it owns a receive filter (R217). -/
def State.takesFrames (s : State) (sheet : Nat) : Bool :=
  s.mld.own.any fun r => r.kind = .rxf && r.sheet = sheet

/-- Whether a sheet meets its quiesce condition (Table 2-4). An engine sheet's is the QUIESCED bit; one that is not loaded
counts as quiesced (R9). -/
def State.sheetQuiesced (s : State) (sheet : Nat) : Bool :=
  match sheet with
  | 0 => s.get R.MLD_STAT_STATE = 0
  | 9 => ((List.range 8).all fun n => !s.sheetLoaded (n + 1) || !s.takesFrames (n + 1) ||
            bit (s.get R.MLD_QSTAT_QUIESCED) (n + 1)) &&
          s.get (R.TSU_TD_STAT_STATE 0) = 4 && s.get (R.TSU_TD_STAT_STATE 1) = 4
  | 10 => s.sealOn
  | 11 => s.ldg.queue.isEmpty && (s.is R.LDG_CTL || bit (s.get R.MLD_QUIESCE) 10)
  | n => !s.sheetLoaded n || bit (s.get R.MLD_QSTAT_QUIESCED) n

/-- MLD_INT_STAT.QCHG sets when a condition that MLD_QSTAT shows of SH0, SH9, SH10 or SH11 has changed (R43). -/
def State.follow (old new : State) : State :=
  if [0, 9, 10, 11].all fun n => new.sheetQuiesced n = old.sheetQuiesced n then new else new.set1 R.MLD_INT_STAT_QCHG

/-! ### The two shapes of a command's outcome -/

/-- A reach that takes in what the conditions of SH0, SH9, SH10 and SH11 rest on. -/
def showsQuiesce (reach : List Part) : Bool := reach.any fun p => p = .mld || p = .tsu || p = .wch || p = .ldg

/-- The state a command leaves: beside the parts it reaches only QCHG follows the conditions it changed. -/
def State.finish (s : State) (reach : List Part) (tb : Nat) (new : State) : State :=
  if showsQuiesce reach then s.follow (s.settle reach tb new) else s.settle reach tb new

/-- Whether every domain except KA, WCH and DBG is held in reset: main power is absent (R334), PORST_N or WRST_N is low
(R341), or a start of cause 1 or 2 is to begin; with TESTMODE high Naylo does not start (R383). A supply that has never
failed counts as good, so that the device as State.reset has it may act (DESIGN CHOICE, log entry 84). -/
def State.held (s : State) : Bool :=
  s.pwr.off || s.pwr.porst || s.pwr.wrst || s.pwr.testMode || s.pwr.due = some 1 || s.pwr.due = some 2

/-- What a command still reaches while the domains are held: the keep-alive domain and the island, where the command is no
access of a requester, all of which are in reset; with TESTMODE high, the keep-alive domain alone. -/
def State.reachHeld (s : State) (reach : List Part) : List Part :=
  if !s.held then reach
  else if reach.contains .bus then []
  else reach.filter fun p => p = .pwr || p = .wch && !s.pwr.testMode

/-- A command of a supply or a pin, which acts also while the domains are held: its effect on the parts it reaches; never
on the queue or the timebase. -/
def actHeld (reach : List Part) (t : Nat) (s : State) (f : State → State) : Out :=
  .next (s.finish reach (s.at t).tb (f (s.at t)))

/-- A command that acts at `t`: as `actHeld`, but for what is held in reset. -/
def act (reach : List Part) (t : Nat) (s : State) (f : State → State) : Out := actHeld (s.reachHeld reach) t s f

/-- A command on numbered units: a unit number the spec does not give is a fault. -/
def onUnit (reach : List Part) (ok : Prop) [Decidable ok] (t : Nat) (s : State) (f : State → State) : Out :=
  if ok then act reach t s f else .fault .noSuchUnit
def onUnitHeld (reach : List Part) (ok : Prop) [Decidable ok] (t : Nat) (s : State) (f : State → State) : Out :=
  if ok then actHeld reach t s f else .fault .noSuchUnit

/-! ### Answers -/

/-- An access completed, and one answered with an error response (R9). -/
def State.okResp (s : State) : State := { s with resp := {} }
def State.errResp (s : State) : State := { s with resp := { err := true } }
def State.dataResp (s : State) (v : Nat) : State := { s with resp := { data := v } }

end Sys2Proof.Machine
end

