-- ==== Sys2Proof/Machine/Own.lean ====
section
/-!
DEFINITION. Which sheet owns which resource (R21), when a group is blocked (R174), and when the twin partner carries a
group (R41, R172, R259).
-/

namespace Sys2Proof.Machine

/-- The sheet that owns a resource, by the owner table MLD built from the loaded records (R21, R32). -/
def State.ownerOf (s : State) (k : ResKind) (i : Nat) : Option Nat :=
  (s.mld.own.find? fun r => r.kind = k ∧ r.idx = i).map (·.sheet)

/-- The PWM group a sheet owns. -/
def State.sheetGroup (s : State) (sheet : Nat) : Option Nat :=
  (s.mld.own.find? fun r => r.kind = .group ∧ r.sheet = sheet).map (·.idx)

/-- The group of a lane is the group of the sheet that owns it (R159). -/
def State.laneGroup (s : State) (l : Nat) : Option Nat := (s.ownerOf .lane l).bind s.sheetGroup

/-- The engine sheet that owns a group, when it is loaded. -/
def State.groupSheet (s : State) (g : Nat) : Option Nat :=
  match s.ownerOf .group g with
  | some n => if s.sheetLoaded n then some n else none
  | none => none

/-- Whether the twin partner is ACTIVE and carries a group (R41, R172). -/
def State.partnerCarries (s : State) (g : Nat) : Bool :=
  s.is R.TWN_CTL_EN && s.get R.TWN_STAT_PSTATE = 3 && bit (s.get R.TWN_SHEETS_PCARRY) g

/-- Whether a sheet's quiesce is in force: its bit is set, a RELOAD still holds it (R40, R41), or it is held as unpaired
(R267). -/
def State.quiesceHeld (s : State) (sheet : Nat) : Bool :=
  bit (s.get R.MLD_QUIESCE) (sheet - 1) || s.mld.stay.contains sheet ||
  1 ≤ sheet && sheet ≤ 8 && bit (s.get R.TWN_SHEETS_UNPAIRED) (sheet - 1)

/-- A bit of MLD_QSTAT.QUIESCED; QCHG sets when it changes. -/
def State.setQuiesced (s : State) (sheet : Nat) (v : Bool) : State :=
  if bit (s.get R.MLD_QSTAT_QUIESCED) sheet = v then s
  else (s.put R.MLD_QSTAT_QUIESCED (withBit (s.get R.MLD_QSTAT_QUIESCED) sheet v)).set1 R.MLD_INT_STAT_QCHG

/-- Whether a group is blocked (R174): its EN is 0, no loaded engine sheet owns it, or its sheet is quiesced and the
quiesce does not rest on the partner. -/
def State.blocked (s : State) (g : Nat) : Bool :=
  !s.is (R.PWM_PG_CTL_EN g) ||
  match s.groupSheet g with
  | none => true
  | some n => s.quiesceHeld n && !bit (s.get R.MLD_QSTAT_CARRIED) n

/-- The engine that carries out engine `n`'s unit: CE7 after a move (R99). -/
def State.phys (s : State) (n : Nat) : Nat :=
  if s.is (R.CE_STAT_MOVED n) && s.get R.CE7_MOVE_STAT_SRC = n then 7 else n

/-- The sheet an engine runs: CE7 carries the moved sheet (R98, R99). -/
def State.engSheet (s : State) (n : Nat) : Nat :=
  if n = 7 && s.is R.CE7_MOVE_STAT_CARRYING then s.get R.CE7_MOVE_STAT_SRC + 1 else n + 1

/-- The unit whose work an engine does: CE7 stands for the engine it carries. -/
def State.engUnit (s : State) (n : Nat) : Nat := s.engSheet n - 1

/-- The engine of a group: the engine that runs the sheet that owns it. -/
def State.groupEngine (s : State) (g : Nat) : Option Nat := (s.ownerOf .group g).map fun n => s.phys (n - 1)

/-! ### Main banks (R296) -/

def ownCores : Nat := 1
def ownGlean : Nat := 10
def ownNet : Nat := 11

/-- The main bank of an address. -/
def mainBank (a : Nat) : Option Nat := if 0x80000000 ≤ a ∧ a < 0x83000000 then some ((a - 0x80000000) / 0x80000) else none

/-- Whether a requester's code may access a main bank: its owner, or a guest it grants. -/
def State.bankAllows (s : State) (b code : Nat) : Bool :=
  s.get (R.BNK_BK_OWN_OWNER b) = code || code = ownCores && s.is (R.BNK_BK_OWN_G_CORES b) ||
  code = ownGlean && s.is (R.BNK_BK_OWN_G_GLEAN b)

/-- An access refused is logged. -/
def State.bankViol (s : State) (code addr : Nat) (write : Bool) : State :=
  let s := ((s.put R.BNK_VIOL_ADDR addr).put R.BNK_VIOL_INFO_WHO code).put R.BNK_VIOL_INFO_WRITE (b2n write)
  (s.bump R.BNK_VIOL_INFO_COUNT).set1 R.BNK_INT_STAT_VIOL

/-- Whether a range lies in main banks that a code owns or is granted. -/
def State.bankRange (s : State) (code addr len : Nat) : Bool :=
  match mainBank addr, mainBank (addr + (len - 1)) with
  | some a, some b => (List.range (b - a + 1)).all fun k => s.bankAllows (a + k) code
  | _, _ => false

/-- Records a trace may hold: 16 384 per listed bank (R95). -/
def State.traceCap (s : State) (n : Nat) : Nat := 16384 * (s.get (R.CE_TRC_CTL_NBANK_M1 n) + 1)

/-- A trace trigger of engine `n` (R96): the first one while armed records the run's record index and stamp. Between runs
it counts for the next run, whose start records its stamp (DESIGN CHOICE, log entry 122). -/
def State.traceTrigger (s : State) (n : Nat) : State :=
  if !s.is (R.CE_TRC_STAT_ARMED n) || s.is (R.CE_TRC_STAT_TRIGGERED n) || s.is (R.CE_TRC_STAT_DONE n) then s
  else
    let s := s.put (R.CE_TRC_TRIGPOS n) (s.eng n).trcIdx
    let s := s.put (R.CE_TRC_TRIGSTAMP n) (s.get (R.CE_STAMP n))
    let s := s.set1 (R.CE_TRC_STAT_TRIGGERED n)
    s.upEng n fun e => { e with trcNext := e.run.isNone, trcPost := some (min (s.get (R.CE_TRC_POST n)) (s.traceCap n - 1)) }

end Sys2Proof.Machine
end

