-- ==== Sys2Proof/Machine/Line.lean ====
section
/-!
DEFINITION. The line of a gate lane (R177–R181): characters, their 8b/10b code groups, the frames of Table 10-1 with their
CRC, and the character boundaries.
-/

namespace Sys2Proof.Machine

/-! ### Characters and code groups (R178) -/

/-- The 5b/6b sub-block of a data character for negative running disparity, by its five low bits (IEEE 802.3 clause 36;
PRESUMED, log entry 125). -/
def sixB : List Nat := [
  0b100111, 0b011101, 0b101101, 0b110001, 0b110101, 0b101001, 0b011001, 0b111000,
  0b111001, 0b100101, 0b010101, 0b110100, 0b001101, 0b101100, 0b011100, 0b010111,
  0b011011, 0b100011, 0b010011, 0b110010, 0b001011, 0b101010, 0b011010, 0b111010,
  0b110011, 0b100110, 0b010110, 0b110110, 0b001110, 0b101110, 0b011110, 0b101011]

/-- The 3b/4b sub-block for negative running disparity, by the three high bits. -/
def fourB : List Nat := [0b1011, 0b1001, 0b0101, 0b1100, 0b1101, 0b1010, 0b0110, 0b1110]

/-- How many of the low `w` bits are 1. -/
def onesIn (w v : Nat) : Nat := (List.range w).foldl (fun n i => n + b2n (bit v i)) 0

/-- A sub-block for the running disparity it meets (`pos`: positive), and the disparity after it. The unbalanced ones and
the balanced 111000 and 1100 have a complement for positive disparity. -/
def subBlock (w v : Nat) (pos : Bool) : Nat × Bool :=
  let alt := 2 * onesIn w v ≠ w || v = 0b111000 || v = 0b1100 && w = 4
  (if alt && pos then 2 ^ w - 1 - v else v, if 2 * onesIn w v ≠ w then !pos else pos)

/-- The ten bits of a character, first sent first (the highest bit), and the running disparity after it. D.x.7 takes its
alternate where the main form would make a run of five. -/
def LineChar.code (c : LineChar) (pos : Bool) : Nat × Bool :=
  match c with
  | .k285 => (if pos then 0b1100000101 else 0b0011111010, !pos)
  | .data b =>
    let x := b.toNat % 32
    let y := b.toNat / 32
    let (a, pos') := subBlock 6 (sixB.getD x 0) pos
    let a7 := y = 7 && (!pos' && (x = 17 || x = 18 || x = 20) || pos' && (x = 11 || x = 13 || x = 14))
    let (d, pos'') := if a7 then (if pos' then 0b1000 else 0b0111, !pos') else subBlock 4 (fourB.getD y 0) pos'
    (16 * a + d, pos'')

/-- The code groups of characters sent from a running disparity on, and the disparity after them. -/
def lineCodes (pos : Bool) : List LineChar → List Nat × Bool
  | [] => ([], pos)
  | c :: cs =>
    let (v, p) := c.code pos
    let (vs, p') := lineCodes p cs
    (v :: vs, p')

/-- The code groups of a frame as they leave the pins. -/
def Frame.codes (f : Frame) : List Nat := (lineCodes f.rd f.chars).1

/-! ### Frames (R180, R181) -/

/-- The CRC-8 of R181. -/
def crc8 (bs : List Byte) : Nat := crcM 8 0x2F 0xFF 0xFF bs

/-- A frame's bytes after its K28.5: characters C1 up to the one before the CRC, and the CRC. -/
def laneFrame (cs : List Byte) : List Byte := cs ++ leBytes 1 (crc8 cs)

/-- A frame's characters: K28.5, then its bytes. -/
def frameChars (bs : List Byte) : List LineChar := .k285 :: bs.map .data

/-- IDLE: K28.5 and D16.2 in turn. -/
def idleChars (n : Nat) : List LineChar := (List.range n).map fun i => if i % 2 = 0 then .k285 else .data 0x50

/-- An EDGE frame (R179). -/
def edgeFrame (slot : Nat) (on : Bool) (seq time : Nat) : List Byte :=
  laneFrame (leBytes 1 (0x10 + 4 * slot + 2 * b2n on) ++ leBytes 1 seq ++ beBytes 3 (time % 2 ^ 24))

/-- A SOFTOFF frame: MODE 0 SOFT, 1 HARD, 2 FREEZE, 3 RESYNC; NEXT of the four slots, S1 in the low byte. -/
def softFrame (mode mask next : Nat) : List Byte :=
  laneFrame (leBytes 1 (0x20 + mask % 16) ++ leBytes 1 (mode % 4) ++ leBytes 4 next)

/-- CONFIG, DIAG and TIME frames. -/
def configFrame (addr data : Nat) : List Byte := laneFrame (leBytes 1 0x40 ++ leBytes 1 addr ++ beBytes 2 data)
def diagFrame (mask dur : Nat) : List Byte := laneFrame (leBytes 1 (0x30 + mask % 16) ++ leBytes 1 dur)
def timeFrame (t : Nat) : List Byte := laneFrame (leBytes 1 0x60 ++ beBytes 6 (t % 2 ^ 48))

/-- Characters of a frame, and sub-ticks of a number of characters: one lasts 8 ns (R178). -/
def frameLen (bs : List Byte) : Nat := bs.length + 1
def charTime (n : Nat) : Nat := 128 * n

/-- The first character boundary at or after `t`: a TB multiple of 128, the period of OUT4, whose DLY has no effect on data
timing (R177, R322, R323). -/
def charAt (t : Nat) : Nat := (t + 127) / 128 * 128

/-- A lane as a frame goes out at `st`: IDLE fills the gap before it, and the running disparity follows. -/
def Lane.emit (x : Lane) (st : Nat) (cs : List LineChar) : Lane :=
  let gap := (st - x.busy) / 128
  let rd := (lineCodes x.rd (idleChars (gap % 2))).2
  { x with wire := some ⟨st, cs, rd⟩, busy := st + charTime cs.length, rd := (lineCodes rd cs).2 }

end Sys2Proof.Machine
end

