-- ==== Sys2Proof/Machine/Lanes.lean ====
section
/-!
DEFINITION. Gate lanes, what the sending side rests on (chapter 10): the lead, sequence numbers, muting, a group's lanes, and
the executed level.
-/

namespace Sys2Proof.Machine

/-- A lane's lead in sub-ticks (R183). -/
def State.lead (s : State) (l : Nat) : Nat := 16 * clampN 640 500000 (s.get (R.LNE_LN_LEAD l))

/-- The channel's sequence counter (R184), a byte of LNE_LNl_SEQ. -/
def State.seqOf (s : State) (ch : Nat) : Nat := bits (s.get (R.LNE_LN_SEQ (ch / 4))) (8 * (ch % 4)) 8
def State.seqPut (s : State) (ch v : Nat) : State :=
  s.put (R.LNE_LN_SEQ (ch / 4)) (setBits (s.get (R.LNE_LN_SEQ (ch / 4))) (8 * (ch % 4)) 8 v)

/-! ### Muting (R194) -/

/-- Whether a lane is muted. -/
def State.muted (s : State) (l : Nat) : Bool := !(s.lane l).muteBy.isEmpty

/-- The mute bits of LNE_MUTE and STAT follow the reasons. -/
def State.showMute (s : State) (l : Nat) : State :=
  let m := s.muted l
  (s.put (R.LNE_LN_STAT_MUTED l) (b2n m)).put R.LNE_MUTE (withBit (s.get R.LNE_MUTE) l m)

/-- Reasons for which a lane is muted. -/
def muteTwin : Nat := 0
def muteQuiesce : Nat := 1
def muteLocal : Nat := 2
def muteTraining : Nat := 3
def muteStart : Nat := 4

def State.mute (s : State) (l why : Nat) : State :=
  (s.upLane l fun x => { x with muteBy := why :: x.muteBy.filter (· ≠ why) }).showMute l
def State.unmute (s : State) (l why : Nat) : State :=
  (s.upLane l fun x => { x with muteBy := x.muteBy.filter (· ≠ why) }).showMute l

/-! ### Groups and their lanes (R159) -/

/-- A group's channels: those with EN = 1 that name it. -/
def State.groupChans (s : State) (g : Nat) : List Nat :=
  (List.range 48).filter fun k => s.is (R.PWM_CH_CFG_EN k) && s.get (R.PWM_CH_CFG_GROUP k) = g
def State.groupLanes (s : State) (g : Nat) : List Nat :=
  (List.range 12).filter fun l => (s.groupChans g).any (· / 4 = l)

/-- The largest lead of a group's lanes. -/
def State.groupLead (s : State) (g : Nat) : Nat := (s.groupLanes g).foldl (fun m l => max m (s.lead l)) 0

/-! ### The executed level (R190, R195) -/

/-- The on-intervals when the level goes on or off at `t`, or a SOFTOFF covers the slot; those long past are forgotten. -/
def onsNow (ons : List (Nat × Option Nat)) (v : Bool) (t : Nat) : List (Nat × Option Nat) :=
  let ended := ons.map fun (a, b) => (a, some (b.getD t))
  let late := ended.filter fun (_, b) => match b with | some b => t ≤ b + 16000 | none => true
  if v then late ++ [(t, none)] else late

/-- The level a channel has executed, with LEVEL0 and LEVEL1. An on-edge opens an on-interval also where the level was on and
a SOFTOFF had ended the interval (R190). -/
def State.setLevel (s : State) (ch : Nat) (v : Bool) (t : Nat) : State :=
  let c := s.chan ch
  let s := if c.level = v then
      if v && !c.ons.any (·.2.isNone) then s.upChan ch fun c => { c with ons := onsNow c.ons true t } else s
    else s.upChan ch fun c => { c with level := v, levelAt := t, gateMis := 0, ons := onsNow c.ons v t }
  if ch < 32 then s.put R.PWM_LEVEL0 (withBit (s.get R.PWM_LEVEL0) ch v)
  else s.put R.PWM_LEVEL1 (withBit (s.get R.PWM_LEVEL1) (ch - 32) v)

/-- The first edge sent and not executed executes. -/
def State.runEdge (s : State) (ch : Nat) : State :=
  match (s.chan ch).flight with
  | [] => s
  | e :: rest => (s.upChan ch fun c => { c with flight := rest }).setLevel ch e.on e.time

/-- Every edge that executes by `t` executes. -/
def State.runEdges (s : State) (ch t : Nat) : State :=
  ((s.chan ch).flight.filter (·.time ≤ t)).foldl (fun s _ => s.runEdge ch) s

end Sys2Proof.Machine
end

