-- ==== Sys2Proof/Machine/Waves.lean ====
section
/-!
DEFINITION. Channel waveforms (R156–R167): the periods of a group, commanded edges, the bootstrap guard, the interlock,
dead time and minimum pulse, and the building of edges from a switch instant on.

A group's edges are sent one lead ahead of their execution, so its periods are built ahead of their start by the
largest lead of its lanes (`State.buildAhead`). A load, a firing or a release cuts each lane's edges at its switch instant
and builds the rest again (`State.rebuildLane`).
-/

namespace Sys2Proof.Machine

/-! ### Commanded edges (R160, R161) -/

/-- A waveform over one period: the level commanded at its start, where Table 9-1 commands one there, and its edges in time
order, the one at its end included. -/
structure Wf where
  start : Option Bool
  edges : List (Nat × Bool)
  deriving DecidableEq, Repr, Inhabited

/-- A channel outside the group, or at duty 0. -/
def Wf.off : Wf := ⟨some false, []⟩

/-- The level a waveform commands at `x`; `l` is the level before the period. -/
def Wf.at (w : Wf) (l : Bool) (x : Nat) : Bool := w.edges.foldl (fun l e => if e.1 ≤ x then e.2 else l) (w.start.getD l)

/-- Of edges at one instant the last counts, and an edge that does not change the level is not an edge. -/
def changes : Bool → List (Nat × Bool) → List (Nat × Bool)
  | _, [] => []
  | l, [e] => if e.2 = l then [] else [e]
  | l, e :: f :: es => if e.1 = f.1 || e.2 = l then changes l (f :: es) else e :: changes e.2 (f :: es)

/-- The commanded edges of Table 9-1 for duty `d` (32.8 sub-ticks), rounded to the nearest sub-tick, ties to even. -/
def tableWave (start stop d : Nat) (updown centre : Bool) : Wf :=
  let len := stop - start
  let d := min d (256 * len)
  let r (x : Int) : Nat := (divRne x 512).toNat
  let t0 : Int := 512 * (start : Int)
  let t1 : Int := 512 * (stop : Int)
  let dd : Int := d
  if d = 0 then .off
  else match updown, centre with
    | false, false => ⟨some true, [(r (t0 + 2 * dd), false)]⟩
    | false, true => ⟨some false, [(r (t1 - 2 * dd), true), (stop, false)]⟩
    | true, false => if d = 256 * len then ⟨some true, []⟩ else ⟨none, [(r (t0 + dd), false), (r (t1 - dd), true)]⟩
    | true, true =>
      let m : Int := 256 * ((start : Int) + stop)
      ⟨some false, [(r (m - dd), true), (r (m + dd), false)]⟩

/-- Whether edges of one period keep to one on-edge and one off-edge. -/
def countOk (ons : List Bool) : Bool := (ons.filter id).length ≤ 1 && (ons.filter (!·)).length ≤ 1

/-- The count rule of R163: leading entries go while the period would hold two edges of one kind. -/
def countRule : Nat → List Bool → Bool → List (Nat × Bool) → List (Nat × Bool)
  | 0, _, _, new => new
  | n + 1, kept, lvl, new =>
    if countOk (kept ++ new.map (·.2)) then new else countRule n kept lvl (changes lvl (new.drop 1))

/-! ### Bootstrap guard (R166) -/

/-- The longest off-interval of a waveform inside its period, before which the level was `l`. -/
def Wf.longestOff (w : Wf) (l : Bool) (start stop : Nat) : Nat :=
  let rec go (l : Bool) (since best : Nat) : List (Nat × Bool) → Nat
    | [] => if l then best else max best (stop - since)
    | e :: es => if e.2 = l then go l since best es
                 else if e.2 then go true since (max best (e.1 - since)) es else go false e.1 best es
  go (w.start.getD l) start 0 w.edges

/-- The guard's interval. -/
def guardSpan (start stop boff : Nat) (updown centre : Bool) : Nat × Nat :=
  if stop - start ≤ boff then (start, stop)
  else if centre then (start, start + boff)
  else if updown then
    let a := (divRne (((start + stop : Nat) : Int) - boff) 2).toNat
    (a, a + boff)
  else (stop - boff, stop)

/-- Edges taken in order while the period keeps to one of each kind. -/
def takeEdges : List Bool → Bool → List (Nat × Bool) → List (Nat × Bool)
  | _, _, [] => []
  | had, l, e :: es =>
    if e.2 ≠ l && countOk (had ++ [e.2]) then e :: takeEdges (had ++ [e.2]) e.2 es else takeEdges had l es

/-- A waveform with the level `v` commanded on `[a, b)` of the period from `start`, before which the level was `l`: an on-edge
that this puts at the period's start counts. Where it would make a second edge of a kind, the interval takes in what lies
before it, and later edges go (R161; DESIGN CHOICE, log entry 128). -/
def Wf.force (w : Wf) (l : Bool) (start stop a b : Nat) (v : Bool) : Wf :=
  let l0 := if a = start then v else w.start.getD l
  let first := if l0 && !l then [true] else []
  let after := if b < stop then (b, w.at l b) :: w.edges.filter (b < ·.1) else if v then [(b, false)] else []
  let full := changes l0 (w.edges.filter (·.1 < a) ++ (a, v) :: after)
  let st := if a = start then some v else w.start
  if countOk (first ++ full.map (·.2)) then ⟨st, full⟩
  else if l0 = v then ⟨st, takeEdges first v after⟩
  else ⟨st, (a, v) :: takeEdges (first ++ [v]) v after⟩

/-! ### Pairs and the interlock (R167) -/

/-- Slot masks of a lane's complementary pairs, and of its forbidden patterns. -/
def pairMasks (pairs : Nat) : List Nat :=
  match pairs with
  | 1 => [0b0101, 0b1010]
  | 2 => [0b0011, 0b1100]
  | 3 => [0b1001, 0b0110]
  | _ => []
def forbidMasks (ilk : Nat) : List Nat :=
  pairMasks (ilk % 4) ++ ((List.range 4).map fun i => bits ilk (4 + 4 * i) 4).filter (· ≠ 0)

/-- A slot's pair partner. -/
def partnerOf (pairs slot : Nat) : Option Nat :=
  match (pairMasks pairs).find? (bit · slot) with
  | some m => (List.range 4).find? fun i => i ≠ slot && bit m i
  | none => none

/-- An edge of a lane: its slot, and the edge. -/
abbrev LEdge := Nat × Edge

/-- Lane edges in time order, off-edges first at one instant. -/
def sortEdges (es : List LEdge) : List LEdge :=
  es.mergeSort fun a b => a.2.time < b.2.time || (a.2.time = b.2.time && (!a.2.on || b.2.on))

/-- The interlock's run over a lane: the commanded on-set, the held slots, the instants of forbidden combinations, the holds
as they change, and the edges let through. -/
structure Ilk where
  lvl : Nat
  hold : Nat
  hits : List Nat := []
  holds : List (Nat × Nat) := []
  out : List LEdge := []
  deriving DecidableEq, Repr

/-- One instant of the interlock: the edges commanded at `t`, then the forbidden combinations of the on-set. -/
def Ilk.instant (masks : List Nat) (x : Ilk) (t per : Nat) (es : List LEdge) : Ilk :=
  let lvl := es.foldl (fun m e => withBit m e.1 e.2.on) x.lvl
  let bad := masks.filter fun m => lvl &&& m = m
  let badSet := bad.foldl (· ||| ·) 0
  let freed := es.foldl (fun m e => if e.2.on && badSet = 0 then withBit m e.1 false else m) x.hold
  let hold := freed ||| badSet
  let new := bad.filter fun m => !(x.lvl &&& m = m)
  let before := x.lvl - (x.lvl &&& x.hold)
  let now := lvl - (lvl &&& hold)
  let perOf (i : Nat) : Nat := match es.find? (·.1 = i) with | some e => e.2.per | none => per
  let outs := ((List.range 4).filter fun i => bit before i ≠ bit now i).map fun i =>
    (i, ({ time := t, on := bit now i, cmd := t, per := perOf i } : Edge))
  { lvl := lvl, hold := hold, hits := x.hits ++ new.map (fun _ => t)
    holds := if hold = x.hold then x.holds else x.holds ++ [(t, hold)], out := x.out ++ outs }

/-- The interlock over a sorted edge list; edges at one instant count together. -/
def Ilk.run (masks : List Nat) (per : Nat) : Nat → Ilk → List LEdge → Ilk
  | 0, x, _ => x
  | _, x, [] => x
  | n + 1, x, e :: es =>
    let now := (e :: es).takeWhile (·.2.time = e.2.time)
    Ilk.run masks per n (x.instant masks e.2.time per now) ((e :: es).dropWhile (·.2.time = e.2.time))

/-! ### Dead time and minimum pulse (R164) -/

/-- The edge `e` placed behind a channel's final edges `fin`. `cut` is the earliest execution time of an edge not yet sent;
`partner` holds the pair partner's final edges. -/
def placeEdge (dt minp cut : Nat) (stretch : Bool) (partner fin : List Edge) (e : Edge) : List Edge :=
  let top := fin.getLast?
  let c := e.cmd
  if e.on = top.any (·.on) then fin
  else if e.on then
    let p := (partner.filter fun q => !q.on && q.cmd ≤ c).getLast?
    let byPartner := match p with | some q => q.time + dt | none => 0
    let t := max (c + dt) byPartner
    let e := { e with late := p.any (fun (q : Edge) => q.cmd < q.time) && c + dt < byPartner }
    match top with
    | some o =>
      if o.time + minp ≤ t && o.time < t then fin ++ [{ e with time := t }]
      else if cut ≤ o.time && !stretch then fin.dropLast
      else fin ++ [{ e with time := max (o.time + minp) (o.time + 1) }]
    | none => fin ++ [{ e with time := t }]
  else match top with
    | none => fin
    | some o =>
      let unsent : Bool := cut ≤ o.time
      if c ≤ o.time && unsent then fin.dropLast
      else if o.time + minp ≤ c && o.time < c then fin ++ [{ e with time := c }]
      else if unsent && (o.late || !stretch) then fin.dropLast
      else fin ++ [{ e with time := max (o.time + minp) (o.time + 1) }]

/-! ### What a channel has been built to -/

/-- The commanded level a waveform has been built to, and the interlock's hold. -/
def WaveSt.level (v : WaveSt) : Bool := v.raw.getLast?.any (·.on)
/-- The commanded level before `t`. -/
def WaveSt.before (v : WaveSt) (t : Nat) : Bool := (v.raw.filter (·.time < t)).getLast?.any (·.on)
def WaveSt.ilkHeld (v : WaveSt) (t : Nat) : Bool := (v.ilk.filter (·.1 ≤ t)).getLast?.any (·.2)

/-- Whether a channel is held now: by the fault matrix or a block, until it resumes, or by the interlock (R167, R171). -/
def Gate.waits (g : Gate) (t : Nat) : Bool := g.resume.all (t < ·)
def Chan.held (c : Chan) : Bool := c.wave.gate.any (·.free.isNone)
def State.chanHeld (s : State) (ch : Nat) : Bool :=
  s.is (R.PWM_CH_CFG_EN ch) && ((s.chan ch).wave.gate.any (·.waits s.tb) || (s.chan ch).wave.ilkHeld s.tb)

/-- A waveform cut at the switch instant `x`. Edges that execute before it stay (R163); with `geo` the duties stay and only
the bounds of a period move, so edges commanded before it stay. The commanded level of a channel that is held is the one it
would follow; of another it is the level after the edges that stay (R167). -/
def WaveSt.cutAt (v : WaveSt) (x : Nat) (geo : Bool) : WaveSt :=
  let fin := v.fin.filter fun e => (if geo then e.cmd else e.time) < x
  let held := v.gate.any (·.resume.all (x ≤ ·))
  { fin := fin
    raw := if geo || held then v.raw.filter (·.time < x) else fin
    ilk := v.ilk.filter (·.1 < x)
    gate := v.gate.map fun g => if g.resume.any (x ≤ ·) then { g with resume := none } else g }

/-- The edges let through by the interlock that a held channel follows, from `a` on, and where it resumes: at its first
on-edge, or at a period start at which its waveform `on` is on (R173). -/
def Gate.pass (g : Gate) (a : Nat) (full on : Bool) (per : Nat) (es : List Edge) : List Edge × Gate :=
  match g.resume, g.free with
  | some _, _ => (es, g)
  | none, none => ([], g)
  | none, some m =>
    if full && m ≤ a && on then
      ({ time := a, on := true, cmd := a, per := per } :: es.filter (a < ·.time), { g with resume := some a })
    else match es.find? fun e => e.on && m ≤ e.time with
      | some e => (es.filter (e.time ≤ ·.time), { g with resume := some e.time })
      | none => ([], g)

/-! ### One lane in one period -/

/-- A channel's active duty. -/
def State.duty (s : State) (ch : Nat) : Nat := s.get (R.PWM_CH_DUTY ch)

/-- The waveforms of a lane's four slots in a period, after the bootstrap guard (R160, R166), with whether the guard
changed one and whether a duty was clamped. -/
def State.laneWaves (s : State) (g l : Nat) (p : Period) : List Wf × Bool × Bool :=
  let updown := s.is (R.PWM_PG_CTL_MODE g)
  let mine := s.groupChans g
  let centre (i : Nat) : Bool := s.is (R.PWM_CH_CFG_CENTRE (4 * l + i))
  let ws := (List.range 4).map fun i =>
    if mine.contains (4 * l + i) then tableWave p.start p.stop (s.duty (4 * l + i)) updown (centre i) else .off
  let lvl (c : Nat) : Bool := (s.chan c).wave.before p.start
  let clamped := (List.range 4).any fun i => mine.contains (4 * l + i) && 256 * (p.stop - p.start) < s.duty (4 * l + i)
  let boff := min (s.get (R.PWM_PG_BOOT_BOFF g)) 1024000
  if boff = 0 || p.cnt % (s.get (R.PWM_PG_BOOT_KM1 g) + 1) ≠ 0 then (ws, false, clamped)
  else
    let (ws, boot) := (List.range 4).foldl (fun (ws, ch) i =>
      let c := 4 * l + i
      if !(mine.contains c && s.is (R.PWM_CH_CFG_BOOTSTRAP c)) || boff ≤ (ws.getD i .off).longestOff (lvl c) p.start p.stop then (ws, ch)
      else
        let (a, b) := guardSpan p.start p.stop boff updown (centre i)
        let ws := upd ws i fun w => w.force (lvl c) p.start p.stop a b false
        (match partnerOf (s.get (R.PWM_LN_ILK_PAIRS l)) i with
          | some q => (upd ws q fun w => w.force (lvl (4 * l + q)) p.start p.stop a b true, true)
          | none => (ws, true))) (ws, false)
    (ws, boot, clamped)

/-- A slot's commanded edges of a period from `x` on, behind the waveform built so far (R160, R163). -/
def WaveSt.command (v : WaveSt) (w : Wf) (p : Period) (x : Nat) (ends : Bool) : List Edge :=
  let es := if x ≤ p.start then
      changes v.level ((match w.start with | some b => [(p.start, b)] | none => []) ++ w.edges)
    else countRule 8 ((v.raw.filter (·.per = p.start)).map (·.on)) v.level
      (changes v.level ((x, w.at (v.before p.start) x) :: w.edges.filter (x < ·.1)))
  (es.filter (·.1 < p.stop)).map fun e =>
    { time := e.1, on := e.2, cmd := e.1, per := if ends && e.1 = p.start && !e.2 then 0 else p.start }

/-- The edges of a lane's four slots in time order. -/
def laneEdges (es : List (List Edge)) : List LEdge :=
  sortEdges ((List.range 4).flatMap fun i => (es.getD i []).map fun e => (i, e))

/-- One lane's waveforms in period `p` from `x` on (R160–R167, R173): the four slots built on, and what was found. -/
def State.laneBuild (s : State) (g l : Nat) (p : Period) (x cut : Nat) : List WaveSt × List Find :=
  let ilk := s.get (R.PWM_LN_ILK l)
  let masks := forbidMasks ilk
  let mine := (List.range 4).map fun i => (s.groupChans g).contains (4 * l + i)
  let vs := (List.range 4).map fun i => (s.chan (4 * l + i)).wave
  let v (i : Nat) : WaveSt := vs.getD i {}
  let a := max x p.start
  let full : Bool := x ≤ p.start
  let (ws, boot, clamped) := s.laneWaves g l p
  let cmds := (List.range 4).map fun i =>
    if mine.getD i false then
      (v i).command (ws.getD i .off) p x (!(s.is (R.PWM_PG_CTL_MODE g) && !s.is (R.PWM_CH_CFG_CENTRE (4 * l + i))))
    else []
  let mask (f : WaveSt → Bool) : Nat := (List.range 4).foldl (fun m i => withBit m i (f (v i))) 0
  let i0 : Ilk := { lvl := mask (·.level), hold := mask fun w => w.ilk.getLast?.any (·.2) }
  let run := Ilk.run masks p.start 64 (i0.instant masks a p.start []) (laneEdges cmds)
  let shown := i0.lvl - (i0.lvl &&& i0.hold)
  let passed := (List.range 4).map fun i =>
    let es := (run.out.filter (·.1 = i)).map (·.2)
    match (v i).gate with
    | none => (es, (none : Option Gate))
    | some gt =>
      let on := ((es.filter (·.time ≤ a)).getLast?.map (·.on)).getD (bit shown i)
      let (es, gt) := gt.pass a full on p.start es
      (es, some gt)
  let dt := min (s.get (R.PWM_PG_DT g)) 256000
  let minp := min (s.get (R.PWM_PG_MINP g)) 256000
  let fins := (laneEdges (passed.map (·.1))).foldl (fun fins (i, e) =>
    let partner := match partnerOf (ilk % 4) i with | some q => fins.getD q [] | none => []
    upd fins i fun fin => placeEdge dt minp cut (s.is (R.PWM_PG_CTL_MINPOL g)) partner fin e) (vs.map (·.fin))
  let slots := (List.range 4).map fun i =>
    { fin := fins.getD i [], raw := (v i).raw ++ cmds.getD i []
      ilk := (v i).ilk ++ run.holds.map (fun h => (h.1, bit h.2 i)), gate := (passed.getD i ([], none)).2 }
  (slots, (if clamped then [⟨a, l, .clamp⟩] else []) ++ (if boot then [⟨a, l, .boot⟩] else []) ++
    run.hits.map (⟨·, l, .hit⟩))

/-! ### Periods (R156–R158) -/

/-- PERIOD as it acts in the active register (R157). -/
def clampPeriod (v : Nat) : Nat := max v 0x3E8000

/-- The grid point of index `k` (R156). -/
def gridPoint (anchor : Int) (v : Nat) (k : Int) : Int := anchor + (k * v) / 256

/-- The index of the first grid point at or after `x`. -/
def gridFirst (anchor : Int) (v : Nat) (x : Int) : Int := -((-(256 * (x - anchor))) / (v : Int))

/-- The period that follows at `b` (R156, R158): a new run at a firing's anchor; where a new PERIOD or PHASE has reached its
boundary, the transitional period or the run from `b`; otherwise the next of the generator. It ends at an anchor it would
pass. `perNew` is the PERIOD that becomes active at its start, as it was loaded. -/
def State.nextPeriod (s : State) (g : Nat) (gen : Gen) (b cnt : Nat) : Period :=
  let x := s.group g
  let lmax := s.groupLead g
  let net := s.get (R.PWM_PG_CTL_REF g) ≠ 1
  let fired := x.anchors.contains b
  let pv := clampPeriod x.perVal
  let ph : Int := s.get (R.PWM_PG_PHASE g)
  let perDue := x.perAt.any (· + lmax ≤ b) && gen.v ≠ pv
  let phDue := net && x.phaseAt.any (· + lmax ≤ b) && gen.anchor ≠ ph
  let v := if perDue then pv else gen.v
  let here := x.perAt.any (· + lmax ≤ b) && !x.periods.any fun q => q.start < b && x.perAt.any (· + lmax ≤ q.start)
  let p : Period :=
    if fired then
      { start := b, stop := b + v / 256, cnt := cnt, v := v, gen := gen, next := { anchor := b, v := v, k := 1 } }
    else if perDue || phDue then
      if net then
        let ph := if phDue then ph else gen.anchor
        let k := gridFirst ph v ((b : Int) + v / 512)
        { start := b, stop := (gridPoint ph v k).toNat, cnt := cnt, grid := false, v := v, gen := gen
          next := { anchor := ph, v := v, k := k } }
      else
        { start := b, stop := b + v / 256, cnt := cnt, grid := false, v := v, gen := gen
          next := { anchor := b, v := v, k := 1, grid := false } }
    else
      { start := b, stop := (gridPoint gen.anchor gen.v (gen.k + 1)).toNat, cnt := cnt, grid := gen.grid, v := v, gen := gen
        next := { gen with k := gen.k + 1 } }
  let p := { p with perNew := if here then some x.perVal else none }
  match x.anchors.find? fun a => b < a && a ≤ p.stop with
  | some a => { p with stop := a }
  | none => p

/-- The end of the group period that contains `t`, while it has one (R189). -/
def State.periodEnd (s : State) (g t : Nat) : Nat :=
  match (s.group g).periods.find? fun p => p.start ≤ t && t < p.stop with
  | some p => p.stop
  | none => match (s.group g).periods.getLast? with
    | some p => if p.stop ≤ t then max t (s.nextPeriod g p.next p.stop 0).stop else t
    | none => t

/-! ### Dropped edges and the lane's queue (R183, R189) -/

/-- Edges waiting in the lane's queue: those not yet sent, and the frames handed over that wait for the line. -/
def State.laneQueue (s : State) (l : Nat) : Nat :=
  (List.range 4).foldl (fun n i => n + (s.chan (4 * l + i)).pend.length) (s.lane l).edges.length

/-- A dropped edge is counted and raises cause QFULL, with LATE where its frame would have started late; both hold until
the later of the edge's execution time and the end of the group period that contains it. The lane's source is raised by
the caller. -/
def State.dropEdge (s : State) (ch : Nat) (e : Edge) (late : Bool) : State :=
  let l := ch / 4
  let upto := max e.time (s.periodEnd (s.get (R.PWM_CH_CFG_GROUP ch)) e.time)
  let s := (s.bump (R.LNE_LN_COUNT1_DROPS l)).set1 (R.LNE_LN_INT_STAT_QFULL l)
  let s := s.put (R.LNE_LN_STAT_FS_CAUSE l) (s.get (R.LNE_LN_STAT_FS_CAUSE l) ||| (if late then 0xC else 0x4))
  let s := if late then s.set1 (R.LNE_LN_INT_STAT_LATE l) else s
  s.upLane l fun x => { x with qfullEnd := some (max upto (x.qfullEnd.getD 0)) }

/-- An edge computed for a channel joins its lane's queue, unless the lane is off or its queue of 256 is full. -/
def State.queueEdge (s : State) (ch : Nat) (e : Edge) : State :=
  let l := ch / 4
  if !s.is (R.LNE_LN_CTL_EN l) then s
  else if s.laneQueue l < 256 then s.upChan ch fun c => { c with pend := c.pend ++ [e] }
  else s.dropEdge ch e false

/-! ### Building -/

/-- One lane's part of a period built from `x` on: new edges join the queue in time order, edges removed again leave it. -/
def State.buildLane (s : State) (g l : Nat) (p : Period) (x cut : Nat) : State :=
  let (slots, finds) := s.laneBuild g l p x cut
  let old (i : Nat) : List Edge := (s.chan (4 * l + i)).wave.fin
  let fin (i : Nat) : List Edge := (slots.getD i {}).fin
  let mine := (List.range 4).filter fun i => (s.groupChans g).contains (4 * l + i)
  let new := mine.flatMap fun i => ((fin i).filter fun e => !(old i).contains e).map fun e => (i, e)
  let s := mine.foldl (fun s i => s.upChan (4 * l + i) fun c =>
    { c with wave := slots.getD i {}, pend := c.pend.filter (fin i).contains }) s
  let s := s.upGroup g fun y => { y with finds := y.finds ++ finds }
  (sortEdges new).foldl (fun s (i, e) => s.queueEdge (4 * l + i) e) s

/-- A period appended to the group's and built. -/
def State.addPeriod (s : State) (g : Nat) (p : Period) : State :=
  let s := s.upGroup g fun x => { x with periods := x.periods ++ [p] }
  (s.groupLanes g).foldl (fun s l => s.buildLane g l p p.start (s.tb + s.lead l)) s

/-- Periods built until the next one would start a lead after the current one's end. -/
def State.buildAhead (g : Nat) : Nat → State → State
  | 0, s => s
  | n + 1, s =>
    match (s.group g).periods, (s.group g).periods.getLast? with
    | cur :: _, some p =>
      if p.stop ≤ cur.stop + s.groupLead g then
        State.buildAhead g n (s.addPeriod g (s.nextPeriod g p.next p.stop ((p.cnt + 1) % 2 ^ 32)))
      else s
    | _, _ => s

/-- How many periods one event builds at most: the longest lead over the shortest period, and a margin. -/
def buildFuel : Nat := 520

/-- A lane's edges cut at `x` and built again from there through the periods that stand. -/
def State.rebuildLane (s : State) (g l x : Nat) (geo : Bool) : State :=
  let s := (List.range 4).foldl (fun s i =>
    if (s.groupChans g).contains (4 * l + i) then
      s.upChan (4 * l + i) fun c =>
        let w := c.wave.cutAt x geo
        { c with wave := w, pend := c.pend.filter w.fin.contains }
    else s) s
  let s := s.upGroup g fun y => { y with finds := y.finds.filter fun f => f.lane ≠ l || f.at_ < x }
  (s.group g).periods.foldl (fun s p => if p.stop ≤ x then s else s.buildLane g l p x x) s

/-- The periods that start at `b` or later are taken back; the group goes on from the last one that stays. -/
def State.cutPeriods (s : State) (g b : Nat) : State :=
  let keep := (s.group g).periods.filter (·.start < b)
  match (s.group g).periods with
  | [] => s
  | p :: _ =>
    let keep := if keep.isEmpty then [s.nextPeriod g p.gen p.start p.cnt] else keep
    s.upGroup g fun x => { x with periods := keep }

/-- What a load or a release does from `t` on (R158, R163): the periods from boundary `t` plus the largest lead on follow
anew, and each lane's edges are built again from its switch instant. -/
def State.reshape (s : State) (g t : Nat) : State :=
  if (s.group g).periods.isEmpty then s
  else
    let s := s.cutPeriods g (t + s.groupLead g)
    let s := (s.groupLanes g).foldl (fun s l => s.rebuildLane g l (t + s.lead l) false) s
    State.buildAhead g buildFuel s

/-- What the waveforms found up to now is shown (R160, R166, R167). -/
def State.showFinds (s : State) (g : Nat) : State :=
  let due := (s.group g).finds.filter (·.at_ ≤ s.tb)
  let s := s.upGroup g fun x => { x with finds := x.finds.filter (s.tb < ·.at_) }
  due.foldl (fun s f => match f.what with
    | .clamp => s.setAt (R.PWM_PG_INT_STAT_DUTY_CLAMP g) f.at_
    | .boot => s.setAt (R.PWM_PG_INT_STAT_BOOT_REFRESH g) f.at_
    | .hit => (s.bump (R.PWM_LN_ILK_HITS f.lane)).setAt (R.PWM_PG_INT_STAT_INTERLOCK g) f.at_) s

end Sys2Proof.Machine
end

