-- ==== Sys2Proof/Machine/LaneSend.lean ====
section
/-!
DEFINITION. Gate lanes, the line (R182–R184, R190–R194): the frames that wait and the order in which they go out, the numbers
and drops of edges, SOFTOFF, CONFIG, DIAG and TIME.
-/

namespace Sys2Proof.Machine

/-! ### The line (R182) -/

/-- The earliest send instant among the lane's edges to come. -/
def State.nextSend (s : State) (l : Nat) : Option Nat :=
  (List.range 4).foldl (fun m i => match (s.chan (4 * l + i)).pend with
    | [] => m
    | e :: _ => some (match m with | none => e.time - s.lead l | some x => min x (e.time - s.lead l))) none

/-- A SOFTOFF of a slot goes out at `st`: the head discards the edges it holds, the on-interval ends, and in modes SOFT and
HARD the level is off (R190, R193, R195; edges sent before it that would execute later never do, DEDUCED, log entry 126). -/
def State.softSlot (s : State) (ch mode st : Nat) : State :=
  let s := s.runEdges ch st
  let s := s.upChan ch fun c => { c with flight := [], ons := onsNow c.ons false st }
  if mode ≤ 1 then s.setLevel ch false st else s

/-- A frame goes out at `st`. A muted lane sends IDLE of its length, but for the frames of its training and diagnosis, which
a muted lane sends too (DEDUCED, log entry 127). -/
def State.sendFrame (s : State) (l st : Nat) (bs : List Byte) (own : Bool) : State :=
  let cs := if s.muted l && !own then idleChars (frameLen bs) else frameChars bs
  s.upLane l fun x => x.emit st cs

/-- A CONFIG or DIAG frame goes out. -/
def State.sendCmd (s : State) (l st : Nat) : LaneCmd → State
  | .config a d =>
    let s := s.sendFrame l st (configFrame a d) (s.lane l).train.isSome
    s.upLane l fun x => match x.train with
      | some r => { x with train := some { r with at_ := st } }
      | none => { x with cfgAt := some st }
  | .diag m d =>
    (s.sendFrame l st (diagFrame m d) true).upLane l fun x =>
      { x with diagAt := some st, diagFlag := bit (s.get (R.LNE_LN_HSTAT l)) 19 }

/-- The frames that could go out next, as (start, class): one of classes 3 and 4 only when it ends before the next EDGE send
instant, and not before the line was last run: what has let it go may be new. -/
def State.lineReady (s : State) (l : Nat) : List (Nat × Nat) :=
  let x := s.lane l
  let at_ (due : Nat) : Nat := charAt (max due x.busy)
  let free (due : Nat) : Nat := at_ (max due x.ran)
  let fits (st n : Nat) : Bool := x.edges.isEmpty && match s.nextSend l with | none => true | some e => st + charTime n ≤ e
  (match x.soft with | (d, _, _) :: _ => [(at_ d, 1)] | [] => []) ++
  (match x.edges with | (d, _, _) :: _ => [(at_ d, 2)] | [] => []) ++
  (match x.cmds with
    | (d, c) :: _ => if fits (free d) (match c with | .config _ _ => 6 | .diag _ _ => 4) then [(free d, 3)] else []
    | [] => []) ++
  (match x.time with | some d => if fits (free d) 9 then [(free d, 4)] else [] | none => [])

/-- An edge's frame goes out at `st`, or the edge is dropped: the frame would start later than 640 ns before the execution, or
the edge would be the 65th sent and not executed (R183). A frame sent takes the channel's number (R184); without the
character clock only the number goes (R328). -/
def State.edgeGo (s : State) (l st slot : Nat) (e : Edge) : State :=
  let ch := 4 * l + slot
  let late : Bool := e.time < st + 10240
  if late || 64 ≤ ((s.chan ch).flight.filter (st < ·.time)).length then s.dropEdge ch e late
  else
    let seq := s.seqOf ch
    let s := (s.seqPut ch ((seq + 1) % 256)).upChan ch fun c => { c with flight := c.flight ++ [e] }
    if s.laneClock then s.sendFrame l st (edgeFrame slot e.on seq e.time) false else s

/-- The frame of a class goes out at `st`. -/
def State.lineSend (s : State) (l st cls : Nat) : State :=
  let x := s.lane l
  match cls with
  | 1 => match x.soft with
    | (_, mode, mask) :: rest =>
      let s := s.upLane l fun x => { x with soft := rest }
      let s := s.sendFrame l st (softFrame mode mask (s.get (R.LNE_LN_SEQ l))) (mode = 3)
      (List.range 4).foldl (fun s i => if bit mask i then s.softSlot (4 * l + i) mode st else s) s
    | [] => s
  | 2 => match x.edges with
    | (_, slot, e) :: rest => (s.upLane l fun x => { x with edges := rest }).edgeGo l st slot e
    | [] => s
  | 3 => match x.cmds with
    | (_, c) :: rest => (s.upLane l fun x => { x with cmds := rest }).sendCmd l st c
    | [] => s
  | _ => (s.upLane l fun x => { x with time := none }).sendFrame l st (timeFrame (st + s.get (R.LNE_LN_DELAY l)))
           (x.train.isSome)

/-- Frames go out in their order of precedence until the line's time is `upto`. -/
def State.lineRunN (l upto : Nat) : Nat → State → State
  | 0, s => s
  | n + 1, s =>
    let first (a b : Nat × Nat) : Nat × Nat := if b.1 < a.1 || b.1 = a.1 && b.2 < a.2 then b else a
    match s.lineReady l with
    | [] => s
    | c :: cs =>
      let f := cs.foldl first c
      if f.1 ≤ upto then State.lineRunN l upto n (s.lineSend l f.1 f.2) else s
def State.lineRun (s : State) (l : Nat) : State :=
  let x := s.lane l
  (State.lineRunN l s.tb (x.soft.length + x.edges.length + x.cmds.length + b2n x.time.isSome) s).upLane l fun x =>
    { x with ran := s.tb }

/-- Whether a lane sends: its EN is 1 and its character clock runs (R202, R328). -/
def State.laneSends (s : State) (l : Nat) : Bool := s.is (R.LNE_LN_CTL_EN l) && s.laneClock

/-- A lane that stops sending drops what waits. -/
def Lane.quiet (x : Lane) : Lane := { x with soft := [], edges := [], cmds := [], time := none }

/-- A SOFTOFF is queued ahead of every other frame of the lane; one that still waits with the same mode takes the union of
the masks (R182, R193). `first` puts it at the queue's head (R191). -/
def State.sendSoftoff (s : State) (l mode mask : Nat) (first : Bool) : State :=
  if !s.laneSends l || mask = 0 then s
  else
    let s := s.lineRun l
    let put (q : List (Nat × Nat × Nat)) : List (Nat × Nat × Nat) :=
      match q.find? (·.2.1 = mode) with
      | some (d, _, m) =>
        if first then (d, mode, m ||| mask) :: q.filter (·.2.1 ≠ mode)
        else q.map fun e => if e.2.1 = mode then (d, mode, m ||| mask) else e
      | none => if first then (s.tb, mode, mask) :: q else q ++ [(s.tb, mode, mask)]
    (s.upLane l fun x => { x with soft := put x.soft }).lineRun l

/-- A CONFIG or DIAG frame is queued, in the order requested. -/
def State.queueCmd (s : State) (l : Nat) (c : LaneCmd) : State :=
  if !s.laneSends l then s
  else ((s.lineRun l).upLane l fun x => { x with cmds := x.cmds ++ [(s.tb, c)] }).lineRun l

/-- A TIME frame is due. While a training waits for its head the lane sends IDLE alone (R198 steps 1 and 2). -/
def State.queueTime (s : State) (l : Nat) : State :=
  if !s.laneSends l || (s.lane l).train.any (·.step ≤ 2) then s
  else ((s.lineRun l).upLane l fun x => { x with time := some (x.time.getD s.tb) }).lineRun l

end Sys2Proof.Machine
end

