-- ==== Sys2Proof/Machine/FaultMatrix.lean ====
section
/-!
DEFINITION. The fault matrix (R169–R174): the 128 sources, the actions they take on the groups, local sources that mute
instead, release and clear, and the block of a group.
-/

namespace Sys2Proof.Machine

/-- The rank of an action (R171): HARD, SOFT, CYCLE, FREEZE, NONE. Codes 5–7 act as HARD (R170). -/
def actRank (a : Nat) : Nat :=
  match a with
  | 0 => 0
  | 4 => 1
  | 1 => 2
  | 2 => 3
  | _ => 4

/-- The action an engine sheet maps a source to on a group; FS124 and FS125 act at least as SOFT on every group that an
engine sheet owns (R170). -/
def State.mappedAction (s : State) (g src : Nat) : Nat :=
  let a := bits (s.get (R.FMX_PG_ACT g (src / 8))) (4 * (src % 8)) 3
  let a := if a > 4 then 3 else a
  if (src = 124 ∨ src = 125) ∧ actRank a < actRank 2 ∧ (s.ownerOf .group g).isSome then 2 else a

/-- Whether a source is asserted, and whether it is of LATCH class; FS48–FS95 are always of CYCLE class (R170). -/
def State.fsOn (s : State) (src : Nat) : Bool := bit (s.get (R.FMX_SRC_STAT (src / 32))) (src % 32)
def State.fsLatch (s : State) (src : Nat) : Bool :=
  !(48 ≤ src && src ≤ 95) && bit (s.get (R.FMX_SRC_CLASS (src / 32))) (src % 32)

/-- Whether an asserted source is local (R172). A lane source is local for causes LINK and QFULL, not for UV (R189). -/
def State.fsLocal (s : State) (src : Nat) : Bool :=
  (116 ≤ src && src ≤ 123) || src = 125 ||
  (96 ≤ src && src ≤ 107 && (bit (s.get (R.LNE_LN_STAT_FS_CAUSE (src - 96))) 0 ||
                             bit (s.get (R.LNE_LN_STAT_FS_CAUSE (src - 96))) 2))

/-- The mask of a group's channels on a lane. -/
def State.laneMask (s : State) (g l : Nat) : Nat :=
  (List.range 4).foldl (fun m i => if s.groupChans g |>.contains (4 * l + i) then m + 2 ^ i else m) 0

/-- The SOFTOFF mode an action sends (R193). -/
def softMode (a : Nat) : Nat := match a with | 2 => 0 | 4 => 2 | _ => 1

/-- One SOFTOFF on each of the group's lanes (R193). -/
def State.groupSoftoff (s : State) (g a : Nat) : State :=
  (s.groupLanes g).foldl (fun s l => s.sendSoftoff l (softMode a) (s.laneMask g l) false) s

/-- A channel is held at the level `lvl` from `t` on: its unsent edges stop (R171). -/
def Chan.hold (c : Chan) (lvl : Bool) (t : Nat) : Chan :=
  let fin := c.wave.fin.filter (·.time ≤ t)
  let fin := if fin.getLast?.any (·.on) = lvl then fin else fin ++ [{ time := t, on := lvl, cmd := t }]
  { c with pend := [], wave := { c.wave with fin := fin, gate := some {} } }

/-- The group's channels are held and their unsent edges stop (R171). Under FREEZE alone each keeps its level. -/
def State.holdGroup (s : State) (g : Nat) : State :=
  let keeps : Bool := (s.group g).act = 4 && (s.group g).blockAt.isNone
  (s.groupChans g).foldl (fun s ch => s.upChan ch fun c => c.hold (keeps && c.level) s.tb) s

/-- The action and latch bits of FMX_PGg_STAT and PWM_PGg_STAT follow the holds (R170, R171, R172). -/
def State.showGroup (s : State) (g : Nat) : State :=
  let h := (s.group g).holds
  let s := s.put (R.FMX_PG_STAT_ACTION g) (s.group g).act
  let s := s.put (R.FMX_PG_STAT_LATCHED g) (b2n (h.any fun x => !x.mute && x.act ≠ 1 && s.fsLatch x.src))
  s.put (R.PWM_PG_STAT_FROZEN g) (b2n ((s.group g).act = 4))

/-- A fault-matrix action on a group triggers the trace of its engine (R96). -/
def State.traceAction (s : State) (g : Nat) : State :=
  match s.groupEngine g with
  | some n => if s.is (R.CE_TRC_CTL_FMXTRIG n) then s.traceTrigger n else s
  | none => s

/-- A source takes its action on a group (R171). -/
def State.takeAction (s : State) (g src a : Nat) : State :=
  let cur := (s.group g).act
  let s := s.upGroup g fun x => { x with holds := (x.holds.filter (·.src ≠ src)) ++ [{ src := src, act := a }] }
  if cur = 0 then
    let s := s.upGroup g fun x => { x with act := a }
    let s := ((s.bump (R.FMX_PG_COUNT g)).set1 (R.FMX_PG_INT_STAT_ACT g))
    let s := (s.put (R.FMX_PG_CAUSE_SRC g) src).set1 (R.FMX_PG_CAUSE_VALID g)
    (((s.groupSoftoff g a).holdGroup g).traceAction g).showGroup g
  else if actRank cur < actRank a then
    let s := (s.upGroup g fun x => { x with act := a }).set1 (R.FMX_PG_INT_STAT_ESCALATED g)
    (((s.groupSoftoff g a).holdGroup g).traceAction g).showGroup g
  else s.showGroup g

/-- A local source of a group the partner carries mutes the group's lanes instead (R172). -/
def State.takeMute (s : State) (g src a : Nat) : State :=
  let s := s.upGroup g fun x =>
    { x with holds := (x.holds.filter (·.src ≠ src)) ++ [{ src := src, act := a, mute := true }] }
  let s := if (s.twn.muteAt.getD g none).isSome then s
    else { s with twn := { s.twn with muteAt := s.twn.muteAt.set g (some s.tb) } }
  ((s.groupLanes g).foldl (fun s l => s.mute l muteLocal) s).set1 (R.FMX_PG_STAT_MUTED g)

/-- An asserted source acts on a group as it is mapped. -/
def State.actOn (s : State) (g src : Nat) : State :=
  let a := s.mappedAction g src
  if a = 0 then s
  else if s.fsLocal src && s.partnerCarries g then s.takeMute g src a
  else s.takeAction g src a

/-- A source asserts (R169): its status and flag bits set, and it acts on every group. -/
def State.fsAssert (s : State) (src : Nat) : State :=
  let was := s.fsOn src
  let s := s.orr (R.FMX_SRC_STAT (src / 32)) (2 ^ (src % 32))
  let s := if was then s else s.orr (R.FMX_SRC_FLAG (src / 32)) (2 ^ (src % 32))
  if was then s else (List.range 8).foldl (fun s g => s.actOn g src) s

/-- The sources already asserted act on a group whose sheet or action map has just come: the action in force never steps
down (R170, R171). -/
def State.judgeGroup (s : State) (g : Nat) : State :=
  ((List.range 128).filter fun src => s.fsOn src).foldl (fun s src =>
    match (s.group g).holds.find? (·.src = src) with
    | some h => if actRank h.act < actRank (s.mappedAction g src) then s.actOn g src else s
    | none => s.actOn g src) s

/-- The block of a group takes effect (R174): it acts as SOFT unless HARD is in force. -/
def State.blockGroup (s : State) (g : Nat) : State :=
  let s := (s.set1 (R.PWM_PG_STAT_BLOCKED g)).set1 (R.FMX_PG_STAT_BLOCK g)
  let s := s.upGroup g fun x => { x with blockAt := some s.tb }
  let s := if (s.group g).act = 3 then s else s.groupSoftoff g 2
  s.holdGroup g

/-- Whether a group's channels may resume (R173): no acting source asserted, no LATCH-class hold, no block. -/
def State.mayResume (s : State) (g : Nat) : Bool :=
  !s.blocked g && (s.group g).holds.all (·.mute)

/-- After the release of a group its held channels wait for their resume points, one lead ahead at the earliest; a
frozen one rejoins its waveform at the release plus its lead, by the rules of R163 (R173). -/
def State.releaseGroup (s : State) (g : Nat) (frozen : Bool) : State :=
  let s := (s.groupChans g).foldl (fun s ch => s.upChan ch fun c =>
    if c.held then
      { c with wave := { c.wave with gate := if frozen then none else some { free := some (s.tb + s.lead (ch / 4)) } } }
    else c) s
  s.reshape g s.tb

/-- The holds left after some end; when none is left the action in force ends (R171, R173). -/
def State.dropHolds (s : State) (g : Nat) (keep : Hold → Bool) : State :=
  let old := (s.group g).holds.filter (!·.mute)
  let s := s.upGroup g fun x => { x with holds := x.holds.filter keep }
  let left := (s.group g).holds.filter (!·.mute)
  if old.isEmpty || !left.isEmpty then s.showGroup g
  else
    let frozen := (s.group g).act = 4
    let s := (s.upGroup g fun x => { x with act := 0 }).clr (R.FMX_PG_CAUSE_VALID g)
    let s := if s.blocked g then s else s.releaseGroup g frozen
    s.showGroup g

/-- A source releases (R169, R170): a CYCLE-class source, or one whose action is CYCLE, no longer holds a group. -/
def State.fsRelease (s : State) (src : Nat) : State :=
  if !s.fsOn src then s
  else
    let s := s.andn (R.FMX_SRC_STAT (src / 32)) (2 ^ (src % 32))
    (List.range 8).foldl (fun s g =>
      s.dropHolds g fun h => h.src ≠ src || (s.fsLatch src && h.act ≠ 1)) s

/-- A source follows its condition. -/
def State.fsSet (s : State) (src : Nat) (on : Bool) : State := if on then s.fsAssert src else s.fsRelease src

/-- CLEAR of a group (R173). -/
def State.fmxClear (s : State) (g : Nat) : State :=
  let latched := (s.group g).holds.filter fun h => s.fsLatch h.src && h.act ≠ 1
  if latched.any fun h => s.fsOn h.src then s.set1 (R.FMX_PG_INT_STAT_CLR_REFUSED g)
  else
    (s.dropHolds g fun h => !(s.fsLatch h.src && h.act ≠ 1) || s.fsOn h.src).set1 (R.FMX_PG_INT_STAT_CLEARED g)

/-- The block of a group ends when its cause ends (R174). -/
def State.unblockGroup (s : State) (g : Nat) : State :=
  let s := (s.clr (R.PWM_PG_STAT_BLOCKED g)).clr (R.FMX_PG_STAT_BLOCK g)
  let s := s.upGroup g fun x => { x with blockAt := none }
  if (s.group g).act = 0 then s.releaseGroup g false else s

/-- The block of a group follows its causes. -/
def State.updBlock (s : State) (g : Nat) : State :=
  if s.blocked g then (if (s.group g).blockAt.isSome then s else s.blockGroup g)
  else if (s.group g).blockAt.isSome || s.is (R.PWM_PG_STAT_BLOCKED g) then s.unblockGroup g else s

/-- The lane's fault source follows its causes (R189). A cause that makes an asserted source local, or the reverse, is
judged again on the groups. -/
def State.laneSource (s : State) (l : Nat) : State :=
  let on := s.get (R.LNE_LN_STAT_FS_CAUSE l) ≠ 0
  if on && s.fsOn (96 + l) then (List.range 8).foldl (fun s g =>
      if (s.group g).holds.any (fun h => h.src = 96 + l && h.mute) && !s.fsLocal (96 + l) then s.actOn g (96 + l) else s) s
  else s.fsSet (96 + l) on

/-- The sources of the lanes whose causes changed on the way from `old` follow them (R189). -/
def State.laneSources (old new : State) : State :=
  (List.range 12).foldl (fun s l =>
    if s.get (R.LNE_LN_STAT_FS_CAUSE l) = old.get (R.LNE_LN_STAT_FS_CAUSE l) then s else s.laneSource l) new

/-- When the partner no longer carries a group, the local sources that muted it take their mapped actions (R172). -/
def State.partnerGone (s : State) (g : Nat) : State :=
  let ms := (s.group g).holds.filter (·.mute)
  if ms.isEmpty then s
  else
    let s := (s.groupLanes g).foldl (fun s l => s.unmute l muteLocal) s
    let s := s.clr (R.FMX_PG_STAT_MUTED g)
    let s := { s with twn := { s.twn with muteAt := s.twn.muteAt.set g none } }
    ms.foldl (fun s h => s.takeAction g h.src h.act) s

/-- A fault pin shows `level` since `since`: a level that ends keeps the instant it began until it is judged. -/
def FltPin.edge (p : FltPin) (level : Bool) (since : Nat) : FltPin :=
  { level := level, since := since,
    before := if level ≠ p.level then some p.since else if since = p.since then p.before else none }

/-- Whether the level before a pin's last edge was an active pulse of at least its persistence (R403) whose assertion,
16 ns plus the persistence after it began, has come by now. -/
def State.fltPulse (s : State) (k : Nat) (p : FltPin) : Bool :=
  match p.before with
  | some r => p.level ≠ s.is (R.FMX_FLT_CFG_POL k) && r + 64 * s.get (R.FMX_FLT_CFG_FILT k) ≤ p.since &&
      r + 256 + 64 * s.get (R.FMX_FLT_CFG_FILT k) ≤ s.tb
  | none => false

/-- Whether the level a pin shows has been active for its persistence behind the synchroniser's 16 ns. -/
def State.fltHeld (s : State) (k : Nat) (p : FltPin) : Bool :=
  p.level = s.is (R.FMX_FLT_CFG_POL k) && p.since + 256 + 64 * s.get (R.FMX_FLT_CFG_FILT k) ≤ s.tb

/-- A FLT pin's source follows its condition: enabled, and held at its active level for its persistence behind the
synchroniser's 16 ns (R169, Table 9-5). A pulse of that persistence that has ended asserts the source too, and the end
behind the synchroniser releases it (R403). -/
def State.fltJudge (s : State) (k : Nat) : State :=
  let p := s.fltPins.getD k {}
  if !s.is (R.FMX_FLT_CFG_EN k) then s.fsRelease k
  else
    let s := if s.fltPulse k p then s.fsAssert k else s
    if s.tb < p.since + 256 then s
    else ({ s with fltPins := s.fltPins.set k { p with before := none } }).fsSet k (s.fltHeld k p)

/-- Pin `k` stands at `level` since `since`, its last edge. -/
def State.fltPin (s : State) (k : Nat) (level : Bool) (since : Nat) : State :=
  ({ s with fltPins := s.fltPins.set k ((s.fltPins.getD k {}).edge level (min since s.tb)) }).fltJudge k

end Sys2Proof.Machine
end

