-- ==== Sys2Proof/Machine/Ledger.lean ====
section
/-!
DEFINITION. The Ledger event recorder (chapter 18, R353–R365): records, rings, posting, programming, cursor ports,
clearing, and what happens when its memory fails.
-/

namespace Sys2Proof.Machine

/-- The bytes of a record (Table 18-1). CYCLES and OPSEC come from the keep-alive domain, NTIME from TB (R358). -/
def ldgBytes (s : State) (ring typ sev block unit seq : Nat) (payload : List Byte) : List Byte :=
  leBytes 1 typ ++
  leBytes 1 (sev % 16 + 16 * (ring % 8) + 128 * s.get R.TSU_STAT_TIME_OK) ++
  leBytes 2 (256 * (block % 256) + unit % 256) ++
  leBytes 4 seq ++ leBytes 4 (s.get R.PWR_CYCLES) ++
  leBytes 4 (s.opsec / 65536) ++ leBytes 2 (s.opsec % 65536) ++
  leBytes 6 (s.tb >>> 16) ++ slice payload 0 40

/-- Queued records of the safety ring. -/
def Ledger.safetyQueued (l : Ledger) : Nat := (l.queue.filter (·.ring = 0)).length

/-- Records that take an entry of the queue: a FAILOVER record, which the Ledger itself puts in front of the record that
failed, takes none (R364, R365; DEDUCED, log entry 181). -/
def Ledger.queued (l : Ledger) : Nat := (l.queue.filter (·.ring < 4)).length

/-- Whether a free entry of the post's kind exists: 64 entries, eight of them for the safety ring (R357). -/
def Ledger.room (l : Ledger) (ring : Nat) : Bool :=
  if ring = 0 then l.queued < 64
  else l.queued < 64 && (l.queued - l.safetyQueued) + (l.safetyQueued - 8) < 56

/-- STAT.QUEUED after the queue changed. -/
def State.ldgCount (s : State) : State := s.put R.LDG_STAT_QUEUED s.ldg.queued

/-- A refused post is counted (R357). -/
def State.ldgRefuse (s : State) (ring : Nat) : State :=
  let s := s.bump (R.LDG_RING_DROPS ring)
  let s := s.set1 R.LDG_INT_STAT_DROP
  { s with ldg := { s.ldg with drops := upd s.ldg.drops ring (satInc 32 ·) } }

/-- A record appended to the queue with the ring's next position. -/
def State.ldgQueue (s : State) (ring typ sev block unit : Nat) (payload : List Byte) : State :=
  let pos := s.ldg.acc.getD ring 0
  let r : LdgRec := { ring := ring, pos := pos, bytes := ldgBytes s ring typ sev block unit (pos % 2 ^ 32) payload }
  ({ s with ldg := { s.ldg with queue := s.ldg.queue ++ [r], acc := s.ldg.acc.set ring (pos + 1) } }).ldgCount

/-- Whether the Ledger takes a post of this block for this ring (R356, R357, R360, R364). -/
def State.ldgAccepts (s : State) (ring block : Nat) : Bool :=
  ring < 4 && !(ring = 0 && block ≠ 0x13) && !(s.is R.LDG_STAT_PFW_MODE && ring ≥ 2) &&
  !s.is R.LDG_STAT_RES_FAILED && s.ldg.room ring

/-- As soon as an entry is free, refused posts are recorded by a DROPPED record (R357). The severity of the Ledger's
own records is not stated and is a free byte. -/
def State.ldgDropped (s : State) : State :=
  if s.ldg.drops.all (· = 0) || !s.ldgAccepts 2 0x14 then s
  else
    let pay := s.ldg.drops.flatMap (leBytes 4 ·)
    let k := s.drawn
    let s := { s with drawn := k + 1, ldg := { s.ldg with drops := [0, 0, 0, 0] } }
    s.ldgQueue 2 0x03 (Config.freeByte k 0).toNat 0x14 0 pay

/-- The CLEAR records that wait are queued while an entry is free (R363; DEDUCED, log entry 181). -/
def State.ldgCleared (s : State) : State :=
  s.ldg.clears.foldl (fun s (ring, floor) =>
    if 64 ≤ s.ldg.queued then s
    else
      let k := s.drawn
      let s := { s with drawn := k + 1, ldg := { s.ldg with clears := s.ldg.clears.drop 1 } }
      s.ldgQueue ring 0x02 (Config.freeByte k 0).toNat 0x14 0 (leBytes 8 floor)) s

/-- What the Ledger itself queues as soon as an entry is free. -/
def State.ldgOwn (s : State) : State := s.ldgCleared.ldgDropped

/-- A block posts a record: accepted whole, or refused whole and counted (R357). -/
def State.ldgPost (s : State) (ring typ sev block unit : Nat) (payload : List Byte) : State :=
  if s.ldgAccepts ring block then s.ldgQueue ring typ sev block unit payload else (s.ldgRefuse ring).ldgDropped

/-- A post whose TYPE, SEV and PAYLOAD the spec leaves to the posting block (R355): these are free bytes. -/
def State.ldgPostFree (s : State) (ring block unit : Nat) : State :=
  let k := s.drawn
  ({ s with drawn := k + 1 }).ldgPost ring (Config.freeByte k 0).toNat (Config.freeByte k 1).toNat block unit
    ((List.range 40).map fun i => Config.freeByte k (i + 2))

/-- A post whose TYPE the spec gives, and not its SEV and PAYLOAD: these are free bytes. -/
def State.ldgPostType (s : State) (ring typ block unit : Nat) : State :=
  let k := s.drawn
  ({ s with drawn := k + 1 }).ldgPost ring typ (Config.freeByte k 0).toNat block unit
    ((List.range 40).map fun i => Config.freeByte k (i + 1))

/-- A reason of Table 19-2 sets (R368). -/
def State.hltReason (s : State) (code : Nat) : State :=
  if bit (s.get R.HLT_REPLACE_REASONS) code then s
  else
    let s := s.orr R.HLT_REPLACE_REASONS (2 ^ code)
    let s := if s.get R.HLT_REPLACE_FIRST = 0 then s.put R.HLT_REPLACE_FIRST code else s
    (s.set1 R.HLT_INT_STAT_REASON).ldgPostType 1 code 0x15 0

/-- Records in a ring under the layout in force. -/
def Ledger.n (l : Ledger) (ring : Nat) : Nat := if ring = 4 then 16384 else 1024 * l.size.getD ring 0

/-- The ring's first slot, in slots from the start of the Ledger area (R356). -/
def Ledger.start (l : Ledger) (ring : Nat) : Nat := 1024 * ((l.size.take ring).foldl (· + ·) 0)

/-- The die offset of position `pos` of a main ring (R353, R356). -/
def Ledger.dieOffset (l : Ledger) (ring pos : Nat) : Nat :=
  40 * 1048576 + 64 * (l.start ring + pos % l.n ring)

/-- The next position to be written, the floor, and the oldest position held. -/
def Ledger.wOf (l : Ledger) (ring : Nat) : Nat := if ring = 4 then l.resW else l.w.getD ring 0
def Ledger.oldest (l : Ledger) (ring : Nat) : Nat :=
  max (if ring = 4 then 0 else l.floor.getD ring 0) (l.wOf ring - l.n ring)

/-- HEAD and GEN show W (R365). -/
def State.ldgHead (s : State) (ring : Nat) : State :=
  let n := s.ldg.n ring
  if n = 0 then s
  else (s.put (R.LDG_RING_HEAD ring) (s.ldg.wOf ring % n)).put (R.LDG_RING_GEN ring) (s.ldg.wOf ring / n)

/-- Free bytes for a slot whose contents the spec does not state. -/
def State.freeBytes (s : State) (n : Nat) : List Byte := (List.range n).map fun i => Config.freeByte s.drawn i

/-- The Ledger writes nothing while held or erasing (R357, R363). -/
def State.ldgHeld (s : State) : Bool :=
  s.is R.LDG_CTL || bit (s.get R.MLD_QUIESCE) 10 || s.is R.LDG_STAT_ERASING

/-- A slot of the reserve takes 64 bytes. -/
def Ledger.intoReserve (l : Ledger) (slot : Nat) (bytes : List Byte) : Ledger :=
  { l with reserve := l.reserve.filter (fun (e : Nat × List Byte) => e.1 ≠ slot) ++ [(slot, bytes)] }

/-- The front record is written to the reserve (R364). -/
def State.ldgToReserve (s : State) (r : LdgRec) (rest : List LdgRec) (ok : Bool) : State :=
  if ok then
    let l := s.ldg.intoReserve (s.ldg.resW % 16384) r.bytes
    let l := { l with resW := l.resW + 1, queue := rest, resTop := if r.ring < 4 then l.resTop.set r.ring (r.pos + 1) else l.resTop }
    let s := { s with ldg := l }
    s.ldgCount.ldgOwn
  else if r.failed = 0 then
    { s with ldg := { s.ldg with queue := { r with failed := 1 } :: rest } }
  else
    let s := { s with ldg := { s.ldg with queue := rest } }
    ((s.ldgCount.set1 R.LDG_STAT_RES_FAILED).set1 R.LDG_INT_STAT_RES_FAIL)

/-- The front record is programmed and read back (R359); a record that does not read back equal is programmed once
more, and a second failure moves every ring to the reserve (R364). -/
def State.ldgProgram (s : State) (ok : Bool) : State :=
  match s.ldg.queue with
  | [] => s
  | r :: rest =>
    if s.ldgHeld then s
    else if s.is R.LDG_STAT_FAILED || r.ring = 4 then s.ldgToReserve r rest ok
    else
      let die := s.ldg.dieOffset r.ring r.pos
      if ok then
        let s := s.writeBytes (0x90000000 + die) r.bytes
        let s := { s with ldg := { s.ldg with queue := rest, w := s.ldg.w.set r.ring (r.pos + 1) } }
        (s.ldgHead r.ring).ldgCount.ldgOwn
      else
        let s := (s.writeBytes (0x90000000 + die) (s.freeBytes 64))
        let s := { s with drawn := s.drawn + 1 }
        if r.failed = 0 then
          { s with ldg := { s.ldg with queue := { r with failed := 1 } :: rest } }
        else
          let s := (s.set1 R.PWR_KA_LDG_FAIL).set1 R.LDG_STAT_FAILED
          let s := (s.put R.LDG_FAILPOS die).set1 R.LDG_INT_STAT_FAIL
          let pay := leBytes 1 r.ring ++ leBytes 8 r.pos ++ leBytes 4 die
          let k := s.drawn
          let pos := s.ldg.resW
          let f : LdgRec := { ring := 4, pos := pos,
                              bytes := ldgBytes s 4 0x04 (Config.freeByte k 0).toNat 0x14 0 (pos % 2 ^ 32) pay }
          let s := { s with drawn := k + 1, ldg := { s.ldg with queue := f :: { r with failed := 0 } :: rest } }
          s.ldgCount.hltReason 7

/-- Cursor position of port `p` (R361). -/
def State.cursorRing (s : State) (p : Nat) : Nat := s.get (R.LDG_RP_CUR_RING p)
def State.cursorPos (s : State) (p : Nat) : Nat :=
  s.get (R.LDG_RP_GEN p) * s.ldg.n (s.cursorRing p) + s.get (R.LDG_RP_CUR_INDEX p)

/-- The cursor set to a position. -/
def State.setCursor (s : State) (p pos : Nat) : State :=
  let n := s.ldg.n (s.cursorRing p)
  if n = 0 then s
  else (s.put (R.LDG_RP_CUR_INDEX p) (pos % n)).put (R.LDG_RP_GEN p) (pos / n)

/-- The 64 bytes of the record at a position. -/
def State.recordAt (s : State) (ring pos : Nat) : List Byte :=
  if ring = 4 then ((s.ldg.reserve.find? (·.1 = pos % 16384)).map (·.2)).getD []
  else s.readBytes (0x90000000 + s.ldg.dieOffset ring pos) 64

/-- The window of port `p` filled from 64 bytes. -/
def State.fillWindow (s : State) (p : Nat) (bs : List Byte) : State :=
  (List.range 16).foldl (fun s w => s.put (R.LDG_RP_WIN p w) (leAt bs (4 * w) 4)) s

/-- A cursor command sets the cursor and makes the port busy until its copy (R361). -/
def State.cursorCmd (s : State) (p pos : Nat) : State := (s.setCursor p pos).set1 (R.LDG_RP_STAT_BUSY p)

/-- The port's copy completes (R361, R362). Where a clear leaves no record at OLDEST, OLDEST = W, the records passed over are
counted, and the port then shows EMPTY (DEDUCED, log entry 181). -/
def State.cursorCopy (s : State) (p : Nat) : State :=
  if !s.is (R.LDG_RP_STAT_BUSY p) then s
  else
    let ring := s.cursorRing p
    let c := s.cursorPos p
    let w := s.ldg.wOf ring
    let old := s.ldg.oldest ring
    let s := s.clr (R.LDG_RP_STAT_BUSY p)
    if 4 < ring ∨ w ≤ c then
      ((s.clr (R.LDG_RP_STAT_VALID p)).set1 (R.LDG_RP_STAT_EMPTY p)).fillWindow p []
    else
      let s := if c < old then
          (((s.put (R.LDG_RP_LOST p) (satInc 32 (s.get (R.LDG_RP_LOST p)) (old - c))).setCursor p old).set1
            (R.LDG_RP_STAT_OVERRUN p))
        else s
      if w ≤ old then ((s.clr (R.LDG_RP_STAT_VALID p)).set1 (R.LDG_RP_STAT_EMPTY p)).fillWindow p []
      else ((s.set1 (R.LDG_RP_STAT_VALID p)).clr (R.LDG_RP_STAT_EMPTY p)).fillWindow p (s.recordAt ring (max c old))

/-- LEDGER_POST. -/
def execLedgerPost (t ring typ sev block unit : Nat) (payload : List Byte) (s : State) : Out :=
  onUnit [.ldg] (ring < 4) t s fun s => s.ldgPost ring typ sev block unit payload

/-- The record a firmware post builds from POST_HDR and POST_DATA (R355, R357). -/
def State.ldgGo (s : State) : State :=
  let ring := s.get R.LDG_POST_HDR_RING
  if ring = 0 then (s.ldgRefuse 0).ldgDropped
  else s.ldgPost ring (s.get R.LDG_POST_HDR_TYPE) (s.get R.LDG_POST_HDR_SEV) 0xFF (s.get R.LDG_POST_HDR_UNIT)
    ((List.range 10).flatMap fun w => leBytes 4 (s.get (R.LDG_POST_DATA w)))

/-- GO: LDG_POST_CMD.GO. -/
def execGo (t : Nat) (s : State) : Out := act [.ldg] t s State.ldgGo

/-- RECORD_PROGRAM_DONE. -/
def execRecordProgramDone (t : Nat) (ok : Bool) (s : State) : Out := act [.pwr, .ldg, .hlt, .mem] t s (·.ldgProgram ok)

/-- CURSOR_LOAD: the cursor stays as CUR and GEN were written. -/
def execCursorLoad (t p : Nat) (s : State) : Out :=
  onUnit [.ldg] (p < 4) t s fun s => s.set1 (R.LDG_RP_STAT_BUSY p)

/-- NEXT. -/
def execNext (t p : Nat) (s : State) : Out :=
  onUnit [.ldg] (p < 4) t s fun s => s.cursorCmd p (s.cursorPos p + 1)

/-- NEWEST. -/
def execNewest (t p : Nat) (s : State) : Out :=
  onUnit [.ldg] (p < 4) t s fun s => s.cursorCmd p (s.ldg.wOf (s.cursorRing p) - 1)

/-- OLDEST. -/
def execOldest (t p : Nat) (s : State) : Out :=
  onUnit [.ldg] (p < 4) t s fun s => s.cursorCmd p (s.ldg.oldest (s.cursorRing p))

/-- CLR_OVR. -/
def execClrOvr (t p : Nat) (s : State) : Out :=
  onUnit [.ldg] (p < 4) t s fun s => s.clr (R.LDG_RP_STAT_OVERRUN p)

/-- CURSOR_COPY_DONE. -/
def execCursorCopyDone (t p : Nat) (s : State) : Out := onUnit [.ldg] (p < 4) t s fun s => s.cursorCopy p

/-- A clear of the selected rings: FLOOR = W, then a CLEAR record into each; where no entry is free the record waits for one
(R363; DEDUCED, log entry 181). -/
def State.ldgClearRings (s : State) (rings : Nat) : State :=
  (List.range 4).foldl (fun s r =>
    if bit rings r then
      let f := s.ldg.w.getD r 0
      let s := { s with ldg := { s.ldg with floor := s.ldg.floor.set r f, clears := s.ldg.clears ++ [(r, f)] } }
      s.ldgCleared.set1 R.LDG_INT_STAT_CLEARED
    else s) s

/-- A write to LDG_CLR, only under the seal; any other write fails under R9 (R363). The fields hold what was written (R7);
an erase asks for all four rings. -/
def State.ldgClrWrite (s : State) (v : Nat) : State :=
  if !s.sealOn then s.errResp
  else
    let s := s.put R.LDG_CLR (bits v 0 5)
    (if bits v 0 5 = 31 then s.set1 R.LDG_STAT_ERASING else s.ldgClearRings (bits v 0 4)).okResp

/-- RINGS: LDG_CLR.RINGS written, with ERASE 0. -/
def execRings (t rings : Nat) (s : State) : Out := act [.ldg, .bus] t s fun s => s.ldgClrWrite (rings % 16)

/-- ERASE: LDG_CLR.ERASE written with all four RINGS bits. -/
def execErase (t : Nat) (s : State) : Out := act [.ldg, .bus] t s (·.ldgClrWrite 31)

/-- Records queued during an erase take their positions anew from 0; a FAILOVER record, at most one, takes the reserve's. -/
def renumber : List Nat → List LdgRec → List LdgRec × List Nat
  | acc, [] => ([], acc)
  | acc, r :: rs =>
    if r.ring = 4 then
      let (out, acc) := renumber acc rs
      ({ r with pos := 0, bytes := r.bytes.take 4 ++ leBytes 4 0 ++ r.bytes.drop 8 } :: out, acc)
    else
      let p := acc.getD r.ring 0
      let (out, acc') := renumber (acc.set r.ring (p + 1)) rs
      ({ r with pos := p, bytes := r.bytes.take 4 ++ leBytes 4 (p % 2 ^ 32) ++ r.bytes.drop 8 } :: out, acc')

/-- ERASE_DONE: every position, also the reserve's, restarts at 0 under the new layout, and LDG_FAIL clears if the verify passed (R363). The sizes are
taken as they stand, also where they pass the area's end (DESIGN CHOICE, log entry 157). -/
def State.ldgEraseDone (s : State) (ok : Bool) : State :=
  if !s.is R.LDG_STAT_ERASING then s
  else
    let (q, acc) := renumber [0, 0, 0, 0] s.ldg.queue
    let s := s.fillZero (0x90000000 + 40 * 1048576) (88 * 1048576)
    let s := { s with ldg := { s.ldg with
      queue := q, acc := acc, w := [0, 0, 0, 0], floor := [0, 0, 0, 0], resTop := [0, 0, 0, 0], resW := 0, reserve := []
      size := (List.range 4).map fun r => s.get (R.LDG_RING_CFG r) } }
    let s := (List.range 4).foldl (fun s r => s.ldgHead r) s
    let s := (s.clr R.LDG_STAT_ERASING).set1 R.LDG_INT_STAT_ERASE_DONE
    let s := if ok then (s.clr R.PWR_KA_LDG_FAIL).clr R.LDG_STAT_FAILED else s
    (List.range 4).foldl (fun s p =>
      ((((s.put (R.LDG_RP_CUR_INDEX p) 0).put (R.LDG_RP_GEN p) 0).clr (R.LDG_RP_STAT_VALID p)).set1
        (R.LDG_RP_STAT_EMPTY p)).fillWindow p []) s

def execEraseDone (t : Nat) (ok : Bool) (s : State) : Out := act [.pwr, .ldg, .mem] t s (·.ldgEraseDone ok)

end Sys2Proof.Machine
end

