-- ==== Sys2Proof/Machine/Link.lean ====
section
/-!
DEFINITION. The twin link as a sender and a receiver of frames (chapter 13, R241, R242): which frames wait, which lane takes
the next one, what is kept for sending again, and what a gap in LSEQ asks for.
-/

namespace Sys2Proof.Machine

/-- The payload bytes of a record, by the widths its items have in the spec, which gives no layout (DESIGN CHOICE, log entry
144). -/
def TwMsg.size : TwMsg → Nat
  | .run _ _ _ _ fix => 24 + 12 * fix.words.length + 36
  | .write .. => 16
  | .filter _ _ _ vals _ => 16 + 4 * vals.length
  | .checkpoint .. => 12
  | .verdict .. => 4
  | .health _ => 96
  | .state (.memory _ bs) => 8 + bs.length
  | .state (.engine _ _ _ _ queue _ _ _ wait _ _ _ _) =>
    40 + 16 * queue.length + wait.foldl (fun n k => n + 60 + 12 * k.fix.words.length) 0
  | .state _ => 32
  | .nak _ => 4

/-- The frames a record spans: at most 256 bytes of payload each. -/
def TwMsg.parts (m : TwMsg) : Nat := max 1 ((m.size + 255) / 256)

/-- TYPE and priority of a record's frames (Table 13-1), and its place among records of one SYS cycle: WRITE, then FILTER,
then RUN in engine order (R249). -/
def TwMsg.typ : TwMsg → Nat
  | .run .. | .write .. | .filter .. => 1
  | .checkpoint .. => 2
  | .verdict .. => 3
  | .health _ => 4
  | .state _ => 5
  | .nak _ => 6
def TwMsg.prio (m : TwMsg) : Nat := if m.typ = 1 then 1 else if m.typ = 5 then 2 else 0
def TwMsg.order : TwMsg → Nat
  | .filter .. => 1
  | .run n .. => 2 + n
  | _ => 0

/-- Whether frames are kept for resending: JOURNAL, CHECKPOINT and VERDICT. -/
def TwMsg.kept (m : TwMsg) : Bool := 1 ≤ m.typ && m.typ ≤ 3

/-- The bytes of a frame: K28.5, TYPE, LEN, LSEQ, the payload and the CRC-32. -/
def TwFrame.bytes (f : TwFrame) : Nat := 12 + f.len

/-- What the CRC of a frame covers, most significant byte first: TYPE, LEN, LSEQ, and the payload, whose bytes are free
values for want of a layout (log entry 144). -/
def TwFrame.body (f : TwFrame) : List Byte :=
  beBytes 1 f.typ ++ beBytes 2 f.len ++ beBytes 4 f.lseq ++ (List.range f.len).map (Config.freeByte f.pay)

/-- The characters of a frame (R241): K28.5, then its body and the CRC-32 of R28. -/
def TwFrame.chars (f : TwFrame) : List LineChar := .k285 :: (f.body ++ beBytes 4 (crc32 f.body)).map .data

/-- Sub-ticks of a number of characters of a twin lane: one lasts 2 ns (R241). -/
def twTime (n : Nat) : Nat := 32 * n

/-- The 8b/10b code groups of the frame a twin lane sent last (R178, R241). -/
def State.twCodes (s : State) (l : Nat) : List Nat :=
  match s.twn.wire.getD l none with
  | some (_, f, rd) => (lineCodes rd f.chars).1
  | none => []

/-- The code groups of `n` characters of IDLE that follow on a twin lane. -/
def State.twIdle (s : State) (l n : Nat) : List Nat := (lineCodes (s.twn.rd.getD l false) (idleChars n)).1

/-- The newest frames, whole, that fit into `cap` bytes. -/
def keepNewest (cap : Nat) : List TwFrame → List TwFrame
  | [] => []
  | f :: rest => if f.bytes ≤ cap then f :: keepNewest (cap - f.bytes) rest else []

/-! ### Sending -/

/-- Among the frames that may go at `x` the one of the highest priority, of these the one due first. -/
def twPick (q : List TwOut) (x : Nat) : Option TwOut :=
  (q.filter (·.due ≤ x)).foldl (fun b o =>
    match b with
    | none => some o
    | some c => if lexLt [o.msg.prio, o.due, o.msg.order] [c.msg.prio, c.due, c.msg.order] then some o else b) none

/-- The lane, of those up, that frees first. -/
def State.twLane (s : State) : Option Nat :=
  let up (l : Nat) : Bool := bit (s.get R.TWN_STAT_LANES) l
  let free (l : Nat) : Nat := s.twn.busy.getD l 0
  if up 0 && up 1 then some (if free 1 < free 0 then 1 else 0) else if up 0 then some 0 else if up 1 then some 1 else none

/-- A frame starts on lane `l` at `x`, behind IDLE; its running disparity goes on from there. A HEALTH frame carries the
stamp of its own K28.5. What is left of a longer record waits on. -/
def State.twPlace (s : State) (l x : Nat) (o : TwOut) : State :=
  let m := match o.msg with
    | .health h => .health { h with sent := x }
    | m => m
  let w := s.twn
  let (lseq, pay) := o.again.getD (w.txSeq, s.drawn)
  let f : TwFrame := {
    typ := m.typ, lseq := lseq, part := o.part, len := min 256 (m.size - 256 * o.part), msg := m, pay := pay }
  let more := o.again.isNone && o.part + 1 < m.parts
  let rd := (lineCodes (w.rd.getD l false) (idleChars ((x - w.busy.getD l 0) / twTime 1 % 2))).2
  { s with drawn := if o.again.isNone then s.drawn + 1 else s.drawn, twn := { w with
      queue := if more then w.queue.replace o { o with part := o.part + 1 } else w.queue.erase o
      txSeq := if o.again.isNone then (w.txSeq + 1) % 2 ^ 32 else w.txSeq
      store := if m.kept && o.again.isNone then (keepNewest 65536 (f :: w.store.reverse)).reverse else w.store
      wire := w.wire.set l (some (x, f, rd)), rd := w.rd.set l (lineCodes rd f.chars).2
      busy := w.busy.set l (x + twTime f.bytes) } }

/-- Frames that have started by now. -/
def State.twRunFor : Nat → State → State
  | 0, s => s
  | n + 1, s =>
    match s.twLane, s.twn.queue with
    | some l, o :: rest =>
      let x := max (s.twn.busy.getD l 0) (rest.foldl (fun d o => min d o.due) o.due)
      if s.tb < x then s
      else match twPick s.twn.queue x with
        | some o => State.twRunFor n (s.twPlace l x o)
        | none => s
    | _, _ => s
def State.twRun (s : State) : State := s.twRunFor (s.twn.queue.foldl (fun n o => n + o.msg.parts) 0)

/-- A record handed to the link: it may go from the end of its SYS cycle on. -/
def State.twSend (s : State) (m : TwMsg) : State :=
  if !s.is R.TWN_CTL_EN then s
  else s.twRun.upTwn fun w => { w with queue := w.queue ++ [{ due := (s.tb / s.cycleLen + 1) * s.cycleLen, msg := m }] }

/-- A kept frame sent again. -/
def State.twAgain (s : State) (q : Nat) : State :=
  match s.twn.store.find? (·.lseq = q) with
  | some f => s.twRun.upTwn fun w => { w with
      queue := w.queue ++ [{ due := s.tb, part := f.part, again := some (q, f.pay), msg := f.msg }] }
  | none => s

/-! ### Receiving -/

/-- LSEQ of a received frame, and whether the frame is to be taken. A gap asks for each missing frame, at most as many as the
sender can keep; a frame that came already is no news. The first frame since the link came up sets the count (DESIGN
CHOICE, log entry 145). -/
def State.linkSeq (s : State) (lseq : Nat) : State × Bool :=
  let next := (lseq + 1) % 2 ^ 32
  match s.twn.rxSeq with
  | none => (s.upTwn fun w => { w with rxSeq := some next, missing := [] }, true)
  | some r =>
    let gap := toS 32 (ofS 32 ((lseq : Int) - r))
    if gap < 0 then
      (s.upTwn fun w => { w with missing := w.missing.filter (· ≠ lseq) }, s.twn.missing.contains lseq)
    else
      let lost := (List.range (min gap.toNat 5461)).map fun i => (r + i) % 2 ^ 32
      let s := s.upTwn fun w => { w with rxSeq := some next, missing := lost ++ w.missing.take 5461 }
      (lost.foldl (fun s q => s.twSend (.nak q)) s, true)

/-- A frame from the partner: with a bad CRC it is discarded and counted (`ok` false); otherwise its LSEQ is followed and,
where it completes its record (`whole`), the content of the record taken. -/
def State.twinFrame (s : State) (ok : Bool) (lseq : Nat) (f : State → State) (whole : Bool := true) : State :=
  if !s.is R.TWN_CTL_EN then s
  else if !ok then s.bump R.TWN_CNT2_LINK_CRC
  else
    let (s, new) := s.linkSeq lseq
    if new && whole then f s else s

end Sys2Proof.Machine
end

