-- ==== Sys2Proof/Machine/Recipe.lean ====
section
/-!
DEFINITION. Recipes (R76–R80, R101, R102): the engine's local memory, the recipe instance, the catalogue of Table 6-1
with its operands, lengths and costs, and the recipe check.
-/

namespace Sys2Proof.Machine

/-! ### Local memory (Table 5-1) -/

def ceBase (n : Nat) : Nat := 0x60000000 + n * 0x10000

/-- A word of an engine's local memory. -/
def State.ceWord (s : State) (n off : Nat) : Nat := s.readLe (ceBase n + off) 4
def State.ceSet (s : State) (n off v : Nat) : State := s.writeLe (ceBase n + off) 4 v

/-- Coefficient word of the active bank, and state words, as stored. -/
def State.coefRaw (s : State) (n i : Nat) : Nat :=
  s.ceWord n (0x2000 + 0x1000 * s.get (R.CE_STAT_CBANK n) + 4 * i)
def State.stRaw (s : State) (n i : Nat) : Nat := s.ceWord n (0x6000 + 4 * i)
def State.stSet (s : State) (n i v : Nat) : State := s.ceSet n (0x6000 + 4 * i) v

/-! ### Instances and references (Tables 5-2, 5-3) -/

structure Inst where
  idx : Nat
  op : Nat
  flags : Nat
  out : Nat
  in0 : Nat
  in1 : Nat
  in2 : Nat
  coef : Nat
  state : Nat
  aux : Nat
  deriving DecidableEq, Repr

/-- The instance at index `i` of store `st`. -/
def State.instAt (s : State) (n st i : Nat) : Inst :=
  let b := s.readBytes (ceBase n + 0x1000 * st + 16 * i) 16
  { idx := i, op := leAt b 0 1, flags := leAt b 1 1, out := leAt b 2 2, in0 := leAt b 4 2, in1 := leAt b 6 2,
    in2 := leAt b 8 2, coef := leAt b 10 2, state := leAt b 12 2, aux := leAt b 14 2 }

/-- How many instances a store holds (CEn_RCOUNT). -/
def State.recipeCount (s : State) (n st : Nat) : Nat :=
  if st = 0 then s.get (R.CE_RCOUNT_A n) else s.get (R.CE_RCOUNT_B n)

/-- The instances of a store, in order. -/
def State.recipe (s : State) (n st : Nat) : List Inst :=
  (List.range (min (s.recipeCount n st) 256)).map fun i => s.instAt n st i

/-- An option bit of the instance. -/
def Inst.opt (i : Inst) (b : Nat) : Bool := bit i.flags b

def refSpace (r : Nat) : Nat := bits r 12 4
def refIndex (r : Nat) : Nat := bits r 0 12

/-- The reference `k` places further; NONE stays NONE. -/
def refAt (r k : Nat) : Nat := if r = 0 then 0 else r + k

/-- The size of a reference space. -/
def spaceSize (sp : Nat) : Nat := match sp with | 1 => 1024 | 2 => 64 | 3 => 1024 | 4 => 16 | _ => 0

/-- The word a reference names; 0.0 for NONE. -/
def State.refRaw (s : State) (n r : Nat) : Nat :=
  let i := refIndex r
  match refSpace r with
  | 1 => s.ceWord n (0x4000 + 4 * (i % 1024))
  | 2 => s.ceWord n (0x5000 + 4 * (i % 64))
  | 3 => s.coefRaw n (i % 1024)
  | 4 => s.ceWord n (0x5100 + 4 * (i % 16))
  | _ => 0

/-! ### The catalogue (Table 6-1) -/

/-- Operand kinds: unused, signal read, angle read, signal written, angle written. -/
inductive OpKind where
  | none | sig | ang | sigOut | angOut
  deriving DecidableEq, Repr

/-- An opcode's row for one instance: its operands, its lengths, its cycles, and the FLAGS and AUX bits it defines. -/
structure OpRow where
  in0 : OpKind × Nat := (.none, 0)
  in1 : OpKind × Nat := (.none, 0)
  in2 : OpKind × Nat := (.none, 0)
  out : OpKind × Nat := (.none, 0)
  coef : Nat := 0
  state : Nat := 0
  cycles : Nat
  flags : Nat := 0x01
  aux : Nat := 0
  deriving DecidableEq, Repr

def sg (w : Nat) : OpKind × Nat := (.sig, w)
def so (w : Nat) : OpKind × Nat := (.sigOut, w)
def an : OpKind × Nat := (.ang, 1)
def ao : OpKind × Nat := (.angOut, 1)
def noOp : OpKind × Nat := (.none, 0)

/-- LOAD's source kind and index (Table 6-3). -/
def Inst.loadKind (i : Inst) : Nat := bits i.aux 14 2
def Inst.loadIndex (i : Inst) : Nat :=
  match i.loadKind with | 0 => bits i.aux 0 8 | 1 => bits i.aux 0 4 | _ => bits i.aux 0 2

def Inst.w (i : Inst) : Nat := bits i.aux 0 4 + 1
def Inst.rows (i : Inst) : Nat := bits i.aux 0 4 + 1
def Inst.cols (i : Inst) : Nat := bits i.aux 4 4 + 1
def Inst.obsN (i : Inst) : Nat := bits i.aux 0 3 + 1
def Inst.obsM (i : Inst) : Nat := bits i.aux 4 2 + 1
def Inst.obsP (i : Inst) : Nat := bits i.aux 6 2 + 1
def Inst.emitN (i : Inst) : Nat := bits i.aux 6 6 + 1
def Inst.slot (i : Inst) : Nat := bits i.aux 0 14
def Inst.lutN (i : Inst) : Nat := bits i.aux 0 6

/-- The row of an instance's opcode; none for an opcode absent from the table (R101). -/
def Inst.row (i : Inst) : Option OpRow :=
  let f (b : Nat) (x y : Nat) := if i.opt b then x else y
  match i.op with
  | 0x00 => some { cycles := 1 }
  | 0x01 =>
    let k := i.loadKind
    let out := if k = 2 then ao else if k = 3 then so 2 else if i.opt 4 then so 2 else so 1
    some { out := out, coef := 2, cycles := f 4 6 4, flags := if k < 2 then 0x11 else 0x01,
           aux := 0xC000 + (if k = 0 then 0xFF else if k = 1 then 0x0F else 0x03) }
  | 0x08 => some { in0 := if i.opt 4 then sg 2 else sg 3, out := so 2, cycles := 6, flags := 0x11 }
  | 0x09 => some { in0 := sg 2, out := so 3, cycles := 6 }
  | 0x0A => some { in0 := sg 2, in2 := an, out := so 2, coef := 1, cycles := 14, flags := 0x11 }
  | 0x0B => some { in0 := sg 2, in2 := an, out := so 2, coef := 1, cycles := 14, flags := 0x11 }
  | 0x0C => some { in0 := an, in1 := sg 1, out := if i.opt 4 then so 1 else ao, coef := 1, cycles := 6, flags := 0x11 }
  | 0x10 => some { in0 := sg 1, in1 := sg 1, in2 := if i.opt 5 then sg 2 else noOp, out := so 1, coef := 6, state := 6,
                   cycles := 18, flags := 0x21 }
  | 0x11 => some { in0 := sg 1, in1 := sg 1, in2 := sg 1, out := so 1, coef := 4, state := 5, cycles := 24 }
  | 0x18 => some { in0 := sg i.cols, in1 := if i.opt 4 then sg i.rows else noOp, out := so i.rows,
                   coef := i.rows * i.cols, cycles := 6 + i.rows * i.cols, flags := 0x11, aux := 0xFF }
  | 0x19 =>
    let n := i.obsN
    let c := n * n + n * i.obsM + 2 * n * i.obsP
    some { in0 := sg i.obsM, in1 := sg i.obsP, out := so n, coef := c, state := n, cycles := 10 + n + c, aux := 0xF7 }
  | 0x20 => some { in0 := sg 1, in1 := sg 1, in2 := sg 1, out := so 2, coef := 6, state := 4, cycles := 24, aux := 0xFFFF }
  | 0x21 => some { in0 := sg 1, in1 := sg 1, in2 := sg 1, out := so 1, coef := 3, cycles := 8 }
  | 0x22 => some { in0 := sg 2, in1 := sg 2, in2 := sg 1, out := so 2, coef := 2, cycles := 12 }
  | 0x23 => some { in0 := sg 2, out := so 3, coef := 4, state := 2, cycles := 20 }
  | 0x24 => some { in0 := sg 1, out := so 2, coef := 20, state := 8, cycles := 30 }
  | 0x28 => some { in0 := sg 1, out := so 1, coef := 4, state := 2, cycles := 10, flags := 0x11 }
  | 0x29 => some { in0 := sg 1, out := so 1, coef := 5, state := 2, cycles := 12 }
  | 0x2A => some { in0 := sg 1, in1 := if i.opt 4 then sg 1 else noOp, in2 := if i.opt 5 then sg 1 else noOp, out := so 1,
                   coef := 2, cycles := 4, flags := 0x31 }
  | 0x2B => some { in0 := sg 1, out := so 1, coef := 2 * i.lutN, cycles := 20, aux := 0x3F }
  | 0x30 => some { in0 := sg 2, in1 := sg 2, out := so 2, coef := 1, state := 2, cycles := f 4 16 10, flags := 0x11 }
  | 0x31 => some { in0 := sg 1, out := so 1, coef := 1, state := 3, cycles := 12 }
  | 0x38 => some { in0 := sg 2, in1 := sg 2, in2 := sg 1, out := so 12, coef := 3, cycles := 60 }
  | 0x40 => some { in0 := sg i.w, in1 := sg i.w, in2 := sg 1, out := so i.w, cycles := 2 + i.w, aux := 0x0F }
  | 0x41 => some { in0 := sg 1, in1 := sg 1, out := so 1, coef := 1, state := 1, cycles := 4, flags := 0x31 }
  | 0x42 => some { in0 := sg 1, out := so 2, coef := 4, state := 4, cycles := 10 }
  | 0x44 => some { in0 := sg i.w, in1 := sg i.w, in2 := sg i.w, out := so i.w, cycles := 2 + i.w, aux := 0x0F }
  | 0x45 => some { in0 := sg i.w, in1 := sg i.w, out := so i.w, coef := 1, cycles := 2 + i.w, flags := 0x11, aux := 0x0F }
  | 0x48 => some { in0 := sg i.emitN, in1 := if i.opt 5 then sg 1 else noOp, cycles := 6 + 2 * i.emitN + f 5 4 0,
                   flags := 0x31, aux := 0x0FFF }
  | 0x49 =>
    some { in0 := if i.opt 4 then noOp else sg 14, out := if i.opt 4 then so 16 else noOp, state := 1,
           cycles := f 4 8 22, flags := 0x11, aux := 0x3FFF }
  | 0x4A => some { in0 := sg 1, in1 := sg 8, state := 1, cycles := 8, flags := 0x11, aux := 0x0FFF }
  | 0x4B => some { in0 := sg 1, state := 1, cycles := 4 }
  | _ => none

/-- An instance's cycles (R103). -/
def Inst.cycles (i : Inst) : Nat := match i.row with | some r => r.cycles | none => 0

/-- A reference of the form of Table 5-3: NONE is exactly 0, and no bit lies between the fields. -/
def refFormed (r : Nat) : Bool :=
  r = 0 || (1 ≤ refSpace r && refSpace r ≤ 4 && refIndex r < spaceSize (refSpace r))

/-- Whether an operand's reference is one its kind allows, with its width inside the space (R79, R102). -/
def opndOk (k : OpKind × Nat) (r : Nat) : Bool :=
  let sp := refSpace r
  match k.1 with
  | .none => r = 0
  | .sig => refFormed r && sp ≠ 2 && (r = 0 || refIndex r + k.2 ≤ spaceSize sp)
  | .ang => refFormed r && (sp = 0 || sp = 2)
  | .sigOut => refFormed r && (r = 0 || sp = 1 && refIndex r + k.2 ≤ 1024)
  | .angOut => refFormed r && (sp = 0 || sp = 2)

/-- Code REF for an instance whose opcode has row `p` (R79, R80, R102, R120). -/
def Inst.refsOk (i : Inst) (p : OpRow) : Bool :=
  opndOk p.in0 i.in0 && opndOk p.in1 i.in1 && opndOk p.in2 i.in2 && opndOk p.out i.out &&
  i.flags &&& p.flags = i.flags && i.aux &&& p.aux = i.aux &&
  (i.op ≠ 0x20 || opndOk an i.aux) && (i.op ≠ 0x2B || (2 ≤ i.lutN && i.lutN ≤ 32))

/-- The sources of LOAD kinds 0 and 1, distinct, in recipe order, as 256 × kind + index (R109). -/
def loadSources (is : List Inst) : List Nat :=
  is.foldl (fun l i =>
    if i.op = 0x01 && i.loadKind < 2 then
      let k := 256 * i.loadKind + i.loadIndex
      if l.contains k then l else l ++ [k]
    else l) []

/-- The mailbox slots read, distinct, in recipe order (R125). -/
def mailInputs (is : List Inst) : List Nat :=
  is.foldl (fun l i => if i.op = 0x49 && i.opt 4 then (if l.contains i.slot then l else l ++ [i.slot]) else l) []

/-- Whether a tap number is a tap (R67). -/
def isTap (t : Nat) : Bool := t < 256 && t % 8 ≠ 7

/-- Whether the sheet owns a resource. -/
def State.owns (s : State) (sheet : Nat) (k : ResKind) (i : Nat) : Bool := s.ownerOf k i = some sheet

/-- Whether a channel that an EMIT writes belongs to the sheet and to its group (R124, R159). -/
def State.emitsTo (s : State) (sheet g ch : Nat) : Bool :=
  s.owns sheet .channel ch && s.is (R.PWM_CH_CFG_EN ch) && s.get (R.PWM_CH_CFG_GROUP ch) = g

/-- The code of one instance; `before` are the instances ahead of it (R80, codes 2 to 8). -/
def State.instCode (s : State) (n : Nat) (before : List Inst) (i : Inst) : Nat :=
  match i.row with
  | none => 2
  | some p =>
    let sheet := s.engSheet n
    if !i.refsOk p then 3
    else if 1024 < i.coef + p.coef then 4
    else if 10240 < i.state + p.state then 5
    else if i.op = 0x01 && (i.loadKind = 0 && !isTap i.loadIndex || 64 < (loadSources (before ++ [i])).length) then 6
    else if i.op = 0x49 && (48 < (mailInputs (before ++ [i])).length ||
        !i.opt 4 && !s.owns sheet .mailbox i.slot) then 7
    else if i.op = 0x48 && (!s.owns sheet .group (s.get (R.CE_OUTCFG n)) ||
        (List.range i.emitN).any fun k => !s.emitsTo sheet (s.get (R.CE_OUTCFG n)) (bits i.aux 0 6 + k)) then 8
    else if i.op = 0x01 && 2 ≤ i.loadKind && !s.owns sheet .tracker i.loadIndex then 8
    else 0

/-- The check over a list: its code and the failing index, or 0 (R80). -/
def State.checkList (s : State) (n : Nat) : List Inst → List Inst → Nat × Nat
  | _, [] => (0, 0)
  | before, i :: rest =>
    let c := s.instCode n before i
    if c ≠ 0 then (c, i.idx) else s.checkList n (before ++ [i]) rest

/-- The recipe check on a store: code and index (R80). -/
def State.recipeCheck (s : State) (n st : Nat) : Nat × Nat :=
  let c := s.recipeCount n st
  if c = 0 ∨ 256 < c then (1, 0) else s.checkList n [] (s.recipe n st)

/-- The check's time: 4 cycles per instance judged (R80). -/
def State.recipeCheckTime (s : State) (n st : Nat) : Nat :=
  let c := s.recipeCheck n st
  4 * s.cycleLen * (if c.1 = 1 then 0 else if c.1 = 0 then s.recipeCount n st else c.2 + 1)

/-- Whether an engine whose sheet runs takes a tap of an input: as a tick source or in a LOAD of its active store. -/
def State.takesInput (s : State) (n input : Nat) : Bool :=
  let byTick := s.get (R.CE_TICK_KIND n) = 2 && s.get (R.CE_TICK_SEL n) / 8 = input
  byTick || (loadSources (s.recipe n (s.get (R.CE_STAT_RSTORE n)))).any fun k => k < 256 && k / 8 = input

/-- Whether any engine whose sheet is not quiesced takes a tap of an input (R58, R59). -/
def State.inputTaken (s : State) (input : Nat) : Bool :=
  (List.range 8).any fun n => !s.sheetQuiesced (s.engSheet n) && s.takesInput n input

end Sys2Proof.Machine
end

