-- ==== Sys2Proof/Machine/TwinCore.lean ====
section
/-!
DEFINITION. What the twin unit shares with the engines (chapter 13): sending on the link, the health word, the pair
states, checkpoints, and the judgement of a divergence (R241–R244, R253–R256, R260, R261).
-/

namespace Sys2Proof.Machine

/-- Pair states (Table 13-2). -/
def twAlone : Nat := 0
def twJoining : Nat := 1
def twStandby : Nat := 2
def twActive : Nat := 3
def twHandover : Nat := 4
def twDegraded : Nat := 5

def State.twState (s : State) : Nat := s.get R.TWN_STAT_STATE

/-- Whether the device is a follower in step with its partner. -/
def State.twFollows (s : State) : Bool :=
  s.is R.TWN_CTL_EN && !s.is R.TWN_STAT_JSRC && (s.twState = 2 || s.twState = 3 || s.twState = 4)

/-- Whether a tick of this stamp is the partner's to journal: in a join every engine that already runs in step, and
around a handover the role by H (R263, R265). -/
def State.tickFollows (s : State) (stamp : Nat) : Bool :=
  match s.twn.hand with
  | some h => if s.twn.swapped && stamp < h then s.is R.TWN_CTL_EN && s.is R.TWN_STAT_JSRC && s.twState = 4 else s.twFollows
  | none => s.twFollows || s.is R.TWN_CTL_EN && s.twState = 1

/-- Whether the device executes from its own ticks and taps (Table 13-2): standalone, or journal source. -/
def State.ownSamples (s : State) : Bool := !s.is R.TWN_CTL_EN || s.is R.TWN_STAT_JSRC

/-! ### TIME_OK (R233) -/

def tdDisabled : Nat := 0
def tdListen : Nat := 1
def tdAcquire : Nat := 2
def tdLocked : Nat := 3
def tdHoldover : Nat := 4

def State.tdState (s : State) (d : Nat) : Nat := s.get (R.TSU_TD_STAT_STATE d)
def State.inForce (s : State) : Nat := s.get R.TSU_STAT_INFORCE

/-- TIME_OK: the domain in force is LOCKED, TB is not slewing, and TB is not steered to the partner (R246). -/
def State.showTimeOk (s : State) : State :=
  let ok := s.tdState s.inForce = tdLocked && !s.is R.TSU_STAT_SLEWING && !s.is R.TWN_STAT_STEER
  if ok = s.is R.TSU_STAT_TIME_OK then s
  else (s.put R.TSU_STAT_TIME_OK (b2n ok)).set1 R.TSU_INT_STAT_TIME_OK_CHG

/-! ### Engines start and stop -/

/-- Whether an engine's tick routing has passed to CE7 in a move (R98). -/
def State.moveFrom (s : State) (n : Nat) : Bool := match s.move with | some m => m.src = n && m.phase ≠ 0 | none => false

/-- Whether CE7 holds itself as the spare (R98). -/
def State.spare (s : State) (n : Nat) : Bool := n = 7 && s.is (R.CE_RUNCTL_SPARE 7) && !s.is R.CE7_MOVE_STAT_CARRYING

/-- Whether an engine sheet is paired (R267). -/
def State.paired (s : State) (sheet : Nat) : Bool := bit (s.get R.TWN_SHEETS_PAIRED) (sheet - 1)

/-- Whether an engine's own tick events are latched (R81, R97, R98, R41): in a pair also those of a paired sheet that is
quiesced here or whose engine is faulted, for the journal covers it (R249). -/
def State.engLatches (s : State) (n : Nat) : Bool :=
  let sheet := s.engSheet n
  (s.eng n).ready && s.phys n = n && !s.spare n && s.is (R.CE_RUNCTL_EN n) &&
  (!s.quiesceHeld sheet && (!s.is (R.CE_FAULT n) || s.moveFrom n) || s.is R.TWN_CTL_EN && s.paired sheet)

/-- Whether an engine takes ticks: it latches them, its sheet is not quiesced and, in JOINING or while its one sheet joins,
it already runs in step (R263, R267, Table 13-2). -/
def State.engLive (s : State) (n : Nat) : Bool :=
  s.engLatches n && !s.quiesceHeld (s.engSheet n) && (!s.is (R.CE_FAULT n) || s.moveFrom n) && !(s.is R.TWN_CTL_EN && s.twState = 1 && !s.twn.inStep.contains (s.engUnit n)) &&
  !s.twn.heldJoin.contains (s.engUnit n)

/-- STOPPED follows; an engine that stops discards its ticks without a count (R86), but not what its latch holds in a pair
(R249) and the RUN records of a join in progress (R263). One whose tick routing has passed to
CE7 is stopped, and its ticks wait (R98). -/
def State.showLive (s : State) (n : Nat) : State :=
  if s.engLive n then s.put (R.CE_STAT_STOPPED n) (b2n (s.moveFrom n))
  else
    let keeps := s.engLatches n
    let joins := s.twn.join.isSome || s.twn.heldJoin.contains (s.engUnit n)
    let s := s.upEng n fun e => { e with
      pend := none, wait := if joins then e.wait else [], own := if keeps then e.own else []
      recs := if keeps then e.recs else [] }
    (s.set1 (R.CE_STAT_STOPPED n)).clr (R.CE_STAT_PENDING n)
def State.showAllLive (s : State) : State := (List.range 8).foldl (fun s n => s.showLive n) s

/-- A fault of an engine (R97): its bit, its interrupt and its fault source; the engine takes no more ticks. -/
def State.engFault (s : State) (n : Nat) (f : RF) : State :=
  let s := (s.set1 f).set1 (R.CE_INT_STAT_FAULT n)
  (s.showLive n).fsAssert (116 + s.engUnit n) |>.hltReason 3

/-! ### The health word (R255, R369) -/

/-- FAULT of Table 13-6: an engine fault, an uncorrectable error in a paired sheet's memory since the join, or a failed
online test: a failed residue check on an input of a paired sheet, or the clock condition of R327. -/
def State.healthFault (s : State) : Bool :=
  (List.range 8).any (fun n => s.is (R.CE_FAULT n)) || s.twn.ecc || s.clk.lost ||
  (List.range 32).any fun i => bit (s.get R.HLT_SCREEN) i &&
    (List.range 8).any fun n => s.paired (n + 1) && s.takesInput n i

/-- SAMPLING of Table 13-6. -/
def State.healthSampling (s : State) : Nat :=
  let r := (List.range 4).foldl (fun c a =>
    c + popCount 9 (s.get (R.ADC_STAT_RETIRED a)) + s.get (R.ADC_STAT_CAL_STARVED a)) 0
  let sat := (List.range 32).filter fun i =>
    (List.range 7).any (fun k => bit (s.get (R.SCR_SAT k)) i) &&
    (List.range 8).any fun n => s.paired (n + 1) && s.takesInput n i
  min (r + sat.length) 255

/-! ### Rows in error (R303) -/

/-- The exchange bank of an address. -/
def exchBank (a : Nat) : Option Nat := if 0x70000000 ≤ a ∧ a < 0x70200000 then some ((a - 0x70000000) / 0x20000) else none

/-- An uncorrectable read (R303): counted, and told to the health unit; in a mailbox slot of a paired sheet the twin health
word remembers it (R255). -/
def State.eccUe (s : State) (addr : Nat) : State :=
  let s := ((s.bump R.BNK_ECC_UE).put R.BNK_ECC_UEADDR addr).set1 R.BNK_INT_STAT_ECC_UE
  let s := match exchBank addr with
    | some _ =>
      match s.ownerOf .mailbox ((addr - 0x70000000) / 128) with
      | some n => if s.paired n then { s with twn := { s.twn with ecc := true } } else s
      | none => s
    | none => s
  s.hltReason 5
def State.eccCe (s : State) (addr : Nat) : State :=
  ((s.bump R.BNK_ECC_CE).put R.BNK_ECC_CEADDR addr).set1 R.BNK_INT_STAT_ECC_CE

/-- A read meets a row in error, which stays so until it is rewritten (R303). -/
def State.noteRow (s : State) (r : RowErr) : State :=
  let same (x : RowErr) : Bool := x.addr / 8 = r.addr / 8
  { s with rows := { addr := r.addr / 8 * 8, two := r.two || s.rows.any fun x => same x && x.two } :: s.rows.filter (!same ·) }

/-- The state of a row: 0 good, 1 one bit in error, 2 two. -/
def State.rowState (s : State) (addr : Nat) : Nat :=
  match s.rows.find? fun r => r.addr / 8 = addr / 8 with
  | some r => if r.two then 2 else 1
  | none => 0

/-- What a read of the rows `p` holds of meets: the rows in error already known and those of `l`. They are told to the bank
and the health unit; the answer says whether one has two bits wrong (R303). -/
def State.meetRows (s : State) (p : Nat → Bool) (l : List RowErr) : State × Bool :=
  let s := (l.filter fun r => p r.addr).foldl State.noteRow s
  let met := s.rows.filter fun r => p r.addr
  (met.foldl (fun s r => if r.two then s.eccUe r.addr else s.eccCe r.addr) s, met.any (·.two))

/-! ### HEALTH frames (R242) -/

/-- Whether any domain of this device is LOCKED. -/
def State.anyLocked (s : State) : Bool := s.tdState 0 = tdLocked || s.tdState 1 = tdLocked

/-- The units whose engines run here, and whether the partner runs a unit. -/
def State.runMask (s : State) : Nat :=
  (List.range 8).foldl (fun m u => m + (if s.sheetLoaded (u + 1) && s.engLive (s.phys u) then 2 ^ u else 0)) 0
def State.partnerRuns (s : State) (u : Nat) : Bool := match s.twn.partner with | some h => bit h.runs u | none => false

/-- What this device says of itself. -/
def State.ownHealth (s : State) : Health :=
  { state := s.twState, role := s.get R.TWN_STAT_ROLE, jsrc := s.is R.TWN_STAT_JSRC, carry := s.get R.TWN_SHEETS_CARRY
    fault := s.healthFault, sampling := s.healthSampling, rate := toS 32 (s.get R.TSU_RATE), locked := s.anyLocked
    digests := (List.range 12).map fun n => s.get (R.MLD_SH_DIGEST n), runs := s.runMask, sent := s.tb, heard := s.twn.heard
    hand := s.twn.hand.map fun h => (h, s.get R.TWN_STAT_HO_REASON), revert := s.twn.asks, mutes := s.twn.muteAt
    mask := s.get R.SCR_SYNC_MASK }

/-- A HEALTH frame goes every 10 µs, and at once on any change of state, role or carry mask. -/
def State.healthPush (s : State) : State := s.twSend (.health s.ownHealth)

/-! ### Pair states -/

def State.setTwState (s : State) (v : Nat) : State :=
  if s.twState = v then s else ((s.put R.TWN_STAT_STATE v).set1 R.TWN_INT_STAT_STATE_CHG).showAllLive.healthPush

def State.muteAll (s : State) : State := (List.range 12).foldl (fun s l => s.mute l muteTwin) s
def State.unmuteAll (s : State) : State := (List.range 12).foldl (fun s l => (s.unmute l muteTwin).unmute l muteTraining) s

/-- The carry mask (R259). A group is muted for a local source until the period start at which that mute ends. -/
def State.carries (s : State) (g : Nat) : Bool :=
  s.is R.TWN_CTL_EN && (s.twState = 3 || s.twState = 4 || s.twState = 5) &&
  (match s.groupSheet g with | some n => s.paired n && !s.quiesceHeld n | none => false) &&
  !s.is (R.FMX_PG_STAT_MUTED g) && (s.groupLanes g).all fun l => s.get (R.LNE_LN_STAT_STATE l) = 2
def State.carryMask (s : State) : Nat := (List.range 8).foldl (fun m g => m + (if s.carries g then 2 ^ g else 0)) 0
def State.showCarry (s : State) : State :=
  if s.get R.TWN_SHEETS_CARRY = s.carryMask then s else (s.put R.TWN_SHEETS_CARRY s.carryMask).healthPush

/-- PAIRED follows the digests here and in the partner's last HEALTH frame (R267). -/
def State.refreshPaired (s : State) : State :=
  match s.twn.partner with
  | some h => s.put R.TWN_SHEETS_PAIRED ((List.range 8).foldl (fun m u =>
      m + (if h.digests.getD (u + 1) 0 = s.get (R.MLD_SH_DIGEST (u + 1)) then 2 ^ u else 0)) 0)
  | none => s

/-- The partner carries nothing any more: mutes for its sake become actions, and quiesces that rest on it become the
pulse-block (R41, R172, R261). -/
def State.partnerStops (s : State) : State :=
  let s := s.clr R.TWN_SHEETS_PCARRY
  let s := (List.range 8).foldl (fun s g => s.partnerGone g) s
  let car := s.get R.MLD_QSTAT_CARRIED
  let s := s.clr R.MLD_QSTAT_CARRIED
  (List.range 8).foldl (fun s i =>
    if bit car (i + 1) then
      match s.sheetGroup (i + 1) with
      | some g => ((s.groupLanes g).foldl (fun s l => s.unmute l muteQuiesce) s).updBlock g
      | none => s
    else s) s

/-- The engines stop; a run in progress ends where it is, without a run end (DEDUCED, log entry 172). -/
def State.stopRuns (s : State) : State :=
  (List.range 8).foldl (fun s n =>
    if (s.eng n).run.isNone then s
    else (s.upEng n fun e => { e with run := none, endAt := some s.tb }).clr (R.CE_STAT_RUNNING n)) s

/-- JOINING: every lane muted, pair frames withheld, no role, engines stopped (Table 13-2, R260). A device that is not
DEGRADED any more drops FS127 (R261). -/
def State.goJoining (s : State) : State :=
  let s := (((s.stopRuns.fsRelease 127).muteAll.clr R.TWN_STAT_JSRC).clr R.TWN_STAT_STEER).showTimeOk
  let s := { s with twn := { s.twn with
    joiningAt := s.tb, join := none, got := 0, bytes := 0, late := [], atX := [], inStep := [], heldJoin := [], hand := none, limitAt := none, steerAt := none, healthyAt := none
    verdictBy := none, own := [], theirs := [], held := [], swapped := false, asks := false, serving := [] } }
  (s.setTwState twJoining).showCarry

/-- Own ticks whose stamp has no RUN record run from this device's own latch (R256). -/
def State.ownTicks (s : State) : State :=
  (List.range 8).foldl (fun s n =>
    s.upEng n fun e => { e with
      wait := e.wait ++ e.own.filter (fun k => !e.recs.contains k.stamp && !e.wait.any (·.stamp = k.stamp))
      own := [], recs := [] }) s

/-- DEGRADED: journal source, alone (Table 13-2, R256, R261). -/
def State.goDegraded (s : State) : State :=
  let s := ((s.ownTicks.set1 R.TWN_STAT_JSRC).clr R.TWN_STAT_STEER).showTimeOk.unmuteAll
  let s := { s with twn := { s.twn with
    hand := none, verdictBy := none, join := none, own := [], theirs := [], limitAt := none, steerAt := none
    swapped := false, asks := false, serving := [], heldJoin := [], healthyAt := none } }
  ((s.setTwState twDegraded).partnerStops.fsAssert 127).showCarry

/-! ### Divergence -/

/-- The loser mutes, withholds, asserts FS126, stops its engines and goes to JOINING (R256). -/
def State.divLose (s : State) (n : Nat) : State :=
  let s := s.fsAssert 126
  let s := (s.bump R.TWN_CNT0_DIV_LOST).set1 R.TWN_INT_STAT_DIV_LOST
  let s := s.ldgPostFree 1 0x12 n
  let s := s.goJoining
  { s with twn := { s.twn with divAt := some s.tb, delta := true } }

/-- The winner goes to DEGRADED (R256). -/
def State.divWin (s : State) : State :=
  ((s.bump R.TWN_CNT0_DIV_WON).set1 R.TWN_INT_STAT_DIV_WON).goDegraded

/-- The journal source judges by the first criterion of Table 13-6 that separates the devices (R255). -/
def State.sourceLoses (s : State) : Bool :=
  let f := s.healthFault
  let pf := s.is R.TWN_HEALTH_PFAULT
  let n := s.healthSampling
  let pn := s.get R.TWN_HEALTH_PSAMPLING
  if f != pf then f else if n ≠ pn then pn < n else false

/-- A divergence of engine `n` (R254, R255): the journal source judges it and sends the VERDICT; a follower waits 4 µs. -/
def State.diverge (s : State) (n num idx : Nat) : State :=
  let s := ((s.put (R.TWN_CE_DIVRUN n) num).put (R.TWN_CE_CHK_INDEX n) idx).clr (R.TWN_CE_CHK_MATCHED n)
  let s := { s with twn := { s.twn with runOk := s.twn.runOk.set n false } }
  if s.is R.TWN_STAT_JSRC then
    let lose := s.sourceLoses
    let roleB := s.is R.TWN_STAT_ROLE
    let s := s.twSend (.verdict n (if lose then roleB else !roleB))
    if lose then s.divLose n else s.divWin
  else if s.twn.verdictBy.isSome then s
  else { s with twn := { s.twn with verdictBy := some (s.tb + 64000, n) } }

/-- Whether an engine is compared: the pair runs in step, and it runs on both devices (R254). -/
def State.compares (s : State) (n : Nat) : Bool :=
  s.is R.TWN_CTL_EN && (s.twState = 1 || s.twState = 2 || s.twState = 3 || s.twState = 4 || s.twState = 5 &&
    (match s.twn.partner with | some h => h.state = 1 || h.state = 2 | none => false)) && s.twn.inStep.contains n && s.partnerRuns n

/-- A checkpoint of this device compared with the partner's of the same engine, RUN and index (R253, R254). -/
def State.compareChk (s : State) (mine : Chk) (crc : Nat) : State :=
  let s := if mine.fin then s.put (R.TWN_CE_PSIG mine.n) crc else s
  if mine.crc ≠ crc then s.diverge mine.n mine.num mine.idx
  else if mine.fin then
    let s := if s.twn.runOk.getD mine.n true then s.bump (R.TWN_CE_CHK_MATCHED mine.n) else s
    { s with twn := { s.twn with runOk := s.twn.runOk.set mine.n true } }
  else s

/-- A checkpoint: at each EMIT, each MAILBOX write and, `fin`, the run end (R253). -/
def State.checkpoint (s : State) (n : Nat) (fin : Bool := false) : State :=
  match (s.eng n).run with
  | none => s
  | some r =>
    if !s.is R.TWN_CTL_EN then s
    else
      let crc := r.sig ^^^ 0xFFFFFFFF
      let u := s.engUnit n
      let c : Chk := { n := u, num := r.num, idx := r.chk, crc := crc, at_ := s.tb, fin := fin }
      let s := s.upEng n fun e => { e with run := some { r with chk := r.chk + 1 } }
      let s := s.twSend (.checkpoint u r.num r.chk crc)
      if !s.compares u then s
      else
        match s.twn.theirs.find? fun x => x.n = u && x.num = c.num && x.idx = c.idx with
        | some x =>
          let rest := s.twn.theirs.filter fun x => !(x.n = u && x.num = c.num && x.idx = c.idx)
          ({ s with twn := { s.twn with theirs := rest } }).compareChk c x.crc
        | none => { s with twn := { s.twn with own := s.twn.own ++ [c] } }

/-! ### What follows every command on lanes, faults and engines -/

/-- What follows a command whose effect may drop edges, mute groups or change a lane: the lanes' sources follow at once
(R189), and so does the carry mask, with a HEALTH frame (R242, R259). -/
def State.followed (old new : State) : State :=
  let s := State.laneSources old new
  if s.carryMask = old.carryMask then s else s.showCarry
def laneAct (reach : List Part) (t : Nat) (s : State) (f : State → State) : Out := act reach t s fun s => s.followed (f s)
def laneUnit (reach : List Part) (ok : Prop) [Decidable ok] (t : Nat) (s : State) (f : State → State) : Out :=
  onUnit reach ok t s fun s => s.followed (f s)

/-- FLT_PIN_ASSERTED. -/
def execFltPinAsserted (t k : Nat) (level : Bool) (since : Nat) (s : State) : Out :=
  if s.held then
    -- the matrix is in reset: the pin's level is all there is
    onUnitHeld [.fmx] (k < 16) t s fun s => { s with fltPins := upd s.fltPins k fun _ => { level := level, since := s.tb } }
  else laneUnit [.ce, .pwm, .fmx, .lne, .twn] (k < 16) t s fun s => s.fltPin k level since

/-- FMX_CLEAR. -/
def execFmxClear (t g : Nat) (s : State) : Out := laneUnit [.ce, .pwm, .fmx, .lne, .twn] (g < 8) t s fun s => s.fmxClear g

/-- TIME_FRAME_SEND (R179, R182). -/
def execTimeFrameSend (t l : Nat) (s : State) : Out := laneUnit [.ce, .pwm, .fmx, .lne, .twn] (l < 12) t s fun s => s.queueTime l

/-- EXECUTED_LEVEL_CHANGE: at a sent edge's execution time the channel's executed level changes (R195). -/
def execExecutedLevelChange (t ch : Nat) (s : State) : Out :=
  laneUnit [.ce, .pwm, .fmx, .lne, .twn] (ch < 48) t s fun s => (s.lineRun (ch / 4)).runEdges ch s.tb

end Sys2Proof.Machine
end

