-- ==== Sys2Proof/Machine/Pwm.lean ====
section
/-!
DEFINITION. Pulse generation (chapter 9, R154–R168) and the sending of edges (R182–R184): the commands of the PWM groups.
-/

namespace Sys2Proof.Machine

/-! ### Crossing from SYS to TB (R15, R162, R331) -/

/-- When what SYS hands over now takes effect in TB: 16 ns, then the first TB tick after it; in DLL mode 80 ns, then the next
DLL edge. -/
def State.crossAt (s : State) : Nat :=
  if s.clk.dll then (s.tb + 1280) / 640 * 640 + 640 else (s.tb + 256) / 16 * 16 + 16

/-- What enters the queue behind what is in it. -/
def State.crossPut (s : State) (g : Nat) (load : Option (Nat × List (Nat × Nat))) : State :=
  s.upGroup g fun x => { x with queue := x.queue ++ [{ at_ := max s.crossAt ((x.queue.getLast?.map (·.at_)).getD 0), load := load }] }

/-- Shadow writes at the queue's front that arrive by `upto`: one behind a load of the same period sets LATE_SHADOW
(R165). -/
def State.crossed (s : State) (g upto : Nat) : State :=
  let here := (s.group g).queue.takeWhile fun c => c.load.isNone && c.at_ ≤ upto
  let s := s.upGroup g fun x => { x with queue := x.queue.drop here.length }
  if (s.group g).loaded then here.foldl (fun s c => s.setAt (R.PWM_PG_INT_STAT_LATE_SHADOW g) c.at_) s else s

/-- The pulse units as they stand now: findings shown, shadow writes that have crossed, frames that have gone out. -/
def State.upToDate (s : State) : State :=
  let s := (List.range 8).foldl (fun s g => (s.crossed g s.tb).showFinds g) s
  (List.range 12).foldl (fun s l => s.lineRun l) s

/-! ### Starting and stopping a group (R156) -/

/-- Every channel of a group starts with no waveform behind it; what holds it goes on. -/
def State.freshWaves (s : State) (g : Nat) : State :=
  (s.groupChans g).foldl (fun s ch => s.upChan ch fun c => { c with pend := [], wave := { gate := c.wave.gate } }) s

/-- The group starts its periods with `p`, built ahead from there. -/
def State.startPeriods (s : State) (g : Nat) (p : Period) : State :=
  let s := s.freshWaves g
  let s := s.upGroup g fun x => { x with periods := [], running := false, finds := [] }
  State.buildAhead g buildFuel (s.addPeriod g p)

/-- The period of index `k` of a grid. -/
def gridPeriod (anchor : Int) (v : Nat) (k : Int) (cnt : Nat) : Period :=
  { start := (gridPoint anchor v k).toNat, stop := (gridPoint anchor v (k + 1)).toNat, cnt := cnt, v := v
    gen := { anchor := anchor, v := v, k := k }, next := { anchor := anchor, v := v, k := k + 1 } }

/-- A PERIOD reaches the active register; one too small is replaced (R157). -/
def State.activePeriod (s : State) (g v : Nat) : State :=
  (if v < 0x3E8000 then s.set1 (R.PWM_PG_INT_STAT_PERIOD_CLAMP g) else s).put (R.PWM_PG_PERIOD g) (clampPeriod v)

/-- The group has no periods: it fires no compares and commands every channel off. A PERIOD that waited for its boundary is
active now. -/
def State.stopPeriods (s : State) (g : Nat) : State :=
  let s := if (s.group g).perAt.isSome then s.activePeriod g (s.group g).perVal else s
  let s := s.upGroup g fun x =>
    { x with periods := [], anchors := [], running := false, loaded := false, perAt := none, phaseAt := none, finds := [] }
  let s := s.freshWaves g
  (s.clr (R.PWM_PG_STAT_RUNNING g)).clr (R.PWM_PG_STAT_ALIGNED g)

/-- The lanes' fault sources follow the causes that building edges may have raised (R183, R189). -/
def State.settleLanes (s : State) : State := (List.range 12).foldl (fun s l => s.laneSource l) s

/-- The group follows CTL.EN at instant E. -/
def State.groupFollow (s : State) (g e : Nat) : State :=
  if s.is (R.PWM_PG_CTL_EN g) then
    if (s.group g).enAt.isSome then s.updBlock g
    else
      let s := (s.stopPeriods g).upGroup g fun x => { x with enAt := some e }
      let s := if s.get (R.PWM_PG_CTL_REF g) = 1 then s
        else
          let a : Int := s.get (R.PWM_PG_PHASE g)
          let v := clampPeriod (s.get (R.PWM_PG_PERIOD g))
          s.startPeriods g (gridPeriod a v (gridFirst a v ((e + s.groupLead g : Nat) : Int)) 0)
      s.updBlock g
  else ((s.stopPeriods g).upGroup g fun x => { x with enAt := none }).updBlock g

/-- GROUP_ENABLE: a write of CTL.EN has arrived in TB. -/
def State.groupEnable (s : State) (g : Nat) : State :=
  match (s.group g).enReq with
  | some e => if e ≤ s.tb then (s.upGroup g fun x => { x with enReq := none }).groupFollow g e else s
  | none => s

def execGroupEnable (t g : Nat) (s : State) : Out :=
  laneUnit [.ce, .pwm, .fmx, .lne, .twn] (g < 8) t s fun s => s.groupEnable g

/-! ### Firings, periods and compares -/

/-- TRG_RANGE of the period `p`, with the compares' offsets in force (R168). -/
def State.trgRange (s : State) (g : Nat) (p : Period) : State :=
  let ten := s.get (R.PWM_PG_CTL_TRGEN g)
  if (List.range 4).any fun n => bit ten n && p.stop - p.start ≤ (s.group g).trg.getD n 0 then
    s.set1 (R.PWM_PG_INT_STAT_TRG_RANGE g)
  else s

/-- The periods built so far meet a new anchor `a`, fired at `x`: the last that starts before it ends at it, its edges are
built again for the new length, and what was built behind it follows from the anchor. -/
def State.cutAtAnchor (s : State) (g x a : Nat) : State :=
  let ps := (s.group g).periods
  let p := ((ps.filter (·.start < a)).getLast?).getD {}
  let moves : Bool := a < p.stop
  let s := s.cutPeriods g a
  let s := if moves then s.upGroup g fun y => { y with periods := y.periods.map fun q => if q.start = p.start then { q with stop := a } else q }
    else s
  let s := if (s.group g).running && ps.head?.any (·.start = p.start) && moves then s.trgRange g { p with stop := a } else s
  let s := (s.groupLanes g).foldl (fun s l =>
    s.rebuildLane g l (if moves then max (x + s.lead l) p.start else min a p.stop) true) s
  State.buildAhead g buildFuel s

/-- A firing of the group's time trigger at `x` sets a new anchor (R156, REF = TT). A PHASE written takes effect from the
next firing (R158). -/
def State.pwmFiring (s : State) (g x : Nat) : State :=
  let y := s.group g
  if s.get (R.PWM_PG_CTL_REF g) ≠ 1 || y.enAt.all (x ≤ ·) then s
  else
    let lmax := s.groupLead g
    let old : Bool := y.phaseAt.any (x < ·)
    let ph := if old then y.phaseWas else s.get (R.PWM_PG_PHASE g)
    let s := if old then s else s.upGroup g fun y => { y with phaseAt := none }
    let s := if ph < lmax then s.set1 (R.PWM_PG_INT_STAT_ALIGN_LATE g) else s
    let a := x + max ph lmax
    let s := s.upGroup g fun y => { y with anchors := y.anchors.filter (· < a) ++ [a] }
    if y.periods.all (a ≤ ·.start) then
      let due := y.perAt.any (· + lmax ≤ a)
      s.startPeriods g { gridPeriod a (clampPeriod (if due then y.perVal else s.get (R.PWM_PG_PERIOD g))) 0 0 with
        perNew := if due then some y.perVal else none }
    else s.cutAtAnchor g x a

/-- Of what lies behind `t` a waveform keeps the last edges, the last commanded level and the last hold; a channel that has
resumed is held no longer. -/
def WaveSt.trim (v : WaveSt) (t : Nat) : WaveSt :=
  let last {α : Type} (n : Nat) (old : α → Bool) (xs : List α) : List α :=
    let behind := xs.filter old
    behind.drop (behind.length - n) ++ xs.filter (!old ·)
  { fin := last 3 (·.time < t) v.fin, raw := last 1 (·.time < t) v.raw, ilk := last 1 (·.1 < t) v.ilk
    gate := if v.gate.any (·.resume.any (· ≤ t)) then none else v.gate }

/-- A mute for a local source ends at the first period start after its hold ended (R259). -/
def State.muteEnd (s : State) (g : Nat) : State :=
  if s.is (R.FMX_PG_STAT_MUTED g) && !(s.group g).holds.any (·.mute) then
    let s := ((s.groupLanes g).foldl (fun s l => s.unmute l muteLocal) s).clr (R.FMX_PG_STAT_MUTED g)
    { s with twn := { s.twn with muteAt := s.twn.muteAt.set g none } }
  else s

/-- A period becomes the current one: its count, the PERIOD and PHASE whose boundary it is, its flags and its compares
(R156–R158, R168). -/
def State.enterPeriod (s : State) (g : Nat) (p : Period) : State :=
  let lmax := s.groupLead g
  let x := s.group g
  let perHere : Bool := x.perAt.any (· + lmax ≤ p.start)
  let s := match p.perNew with | some v => s.activePeriod g v | none => s
  let s := s.upGroup g fun x => { x with
    running := true, loaded := false, anchors := x.anchors.filter (p.start ≤ ·)
    trg := (List.range 4).map fun n => s.get (R.PWM_PG_TRG g n)
    perAt := if perHere then none else x.perAt
    phaseAt := if s.get (R.PWM_PG_CTL_REF g) ≠ 1 && x.phaseAt.any (· + lmax ≤ p.start) then none else x.phaseAt }
  let s := (s.put (R.PWM_PG_PERIOD g) p.v).put (R.PWM_PG_PCOUNT g) p.cnt
  let s := (s.set1 (R.PWM_PG_STAT_RUNNING g)).put (R.PWM_PG_STAT_ALIGNED g) (b2n p.grid)
  let s := (s.showFinds g).trgRange g p
  let s := (s.groupChans g).foldl (fun s ch => s.upChan ch fun c => { c with wave := c.wave.trim p.start }) s
  State.buildAhead g buildFuel (s.muteEnd g)

/-- PERIOD_START: the group's next period starts, once its start has come. -/
def State.periodStart (s : State) (g : Nat) : State :=
  let x := s.group g
  match x.running, x.periods with
  | false, p :: _ => if p.start ≤ s.tb then s.enterPeriod g p else s
  | true, _ :: p :: ps =>
    if p.start ≤ s.tb then
      (((s.crossed g (p.start - 1)).upGroup g fun x => { x with periods := p :: ps })).enterPeriod g p
    else s
  | _, _ => s

def execPeriodStart (t g : Nat) (s : State) : Out :=
  laneUnit [.ce, .pwm, .fmx, .lne, .twn] (g < 8) t s fun s => s.periodStart g

/-- COMPARE_FIRE: compare `n` of group `g` fires at t_k + V, stamped to the sub-tick (R168). -/
def State.compareFire (s : State) (g n : Nat) : State :=
  let x := s.group g
  match x.periods with
  | p :: _ =>
    let v := x.trg.getD n 0
    if x.running && bit (s.get (R.PWM_PG_CTL_TRGEN g)) n && v < p.stop - p.start && s.effectAt (p.start + v) ≤ s.tb then
      s.upGroup g fun x => { x with fired := x.fired.set n (some (p.start + v)) }
    else s
  | [] => s

def execCompareFire (t g n : Nat) (s : State) : Out := onUnit [.pwm] (g < 8 ∧ n < 4) t s fun s => s.compareFire g n

/-! ### Shadows and loads (R162, R165) -/

/-- A load requested: it takes the shadows as they stand now. -/
def State.requestLoad (s : State) (g : Nat) : State :=
  let duties := ((List.range 48).filter fun ch => s.get (R.PWM_CH_CFG_GROUP ch) = g).map fun ch => (ch, s.get (R.PWM_CH_DUTY_SH ch))
  let s := s.crossPut g (some (s.get (R.PWM_PG_PERIOD_SH g), duties))
  (s.set1 (R.PWM_PG_LOADALL g)).set1 (R.PWM_PG_STAT_LOADPEND g)

/-- LOADALL_REQUEST. -/
def execLoadallRequest (t g : Nat) (s : State) : Out := onUnit [.pwm] (g < 8) t s fun s => s.requestLoad g

/-- GLOAD: LOADALL of every named group in one cycle. -/
def State.gload (s : State) (mask : Nat) : State :=
  (List.range 8).foldl (fun s g => if bit mask g then s.requestLoad g else s) s
def execGload (t mask : Nat) (s : State) : Out := act [.pwm] t s (·.gload mask)

/-- A shadow write sets out for TB. A channel with EN = 0 belongs to no group (R159), so its write meets no load. -/
def State.shadowDuty (s : State) (ch v : Nat) : State :=
  let s := s.put (R.PWM_CH_DUTY_SH ch) v
  if s.is (R.PWM_CH_CFG_EN ch) then s.crossPut (s.get (R.PWM_CH_CFG_GROUP ch)) none else s
def State.shadowPeriod (s : State) (g v : Nat) : State := (s.put (R.PWM_PG_PERIOD_SH g) v).crossPut g none

/-- SHADOW_WRITE: `duty` selects CHk_DUTY_SH of channel `i`, otherwise PERIOD_SH of group `i`. -/
def execShadowWrite (t : Nat) (duty : Bool) (i v : Nat) (s : State) : Out :=
  onUnit [.pwm] (i < if duty then 48 else 8) t s fun s => if duty then s.shadowDuty i v else s.shadowPeriod i v

/-- The load of a request that arrived at T_L: the shadows it took become active, and the edges not sent are built again
(R158, R162, R163). -/
def State.loadNow (s : State) (g tl per : Nat) (duties : List (Nat × Nat)) : State :=
  let now := max tl s.tb
  let s := (duties.filter fun d => (s.groupChans g).contains d.1).foldl (fun s d => s.put (R.PWM_CH_DUTY d.1) d.2) s
  let s := if (s.group g).periods.isEmpty then
      s.activePeriod g per
    else s.upGroup g fun x => { x with perAt := some now, perVal := per }
  let s := if (s.group g).queue.any (·.load.isSome) then s else (s.clr (R.PWM_PG_LOADALL g)).clr (R.PWM_PG_STAT_LOADPEND g)
  let s := (s.put (R.PWM_PG_LASTLOAD g) tl).set1 (R.PWM_PG_INT_STAT_LOAD_DONE g)
  let s := s.upGroup g fun x => { x with loaded := x.running && x.periods.head?.any (·.start ≤ tl) }
  s.reshape g now

/-- GROUP_LOAD: the first load request whose load instant T_L has come is carried out. LOADALL clears when none is left. -/
def State.groupLoad (s : State) (g : Nat) : State :=
  let s := s.crossed g s.tb
  match (s.group g).queue with
  | ⟨tl, some (per, duties)⟩ :: rest =>
    if s.effectAt tl ≤ s.tb then ((s.upGroup g fun x => { x with queue := rest }).showFinds g).loadNow g tl per duties |>.crossed g s.tb else s
  | _ => s

def execGroupLoad (t g : Nat) (s : State) : Out :=
  laneUnit [.ce, .pwm, .fmx, .lne, .twn] (g < 8) t s fun s => s.groupLoad g

/-! ### Configuration of a running group -/

/-- A new PHASE of a group that runs (R158): with REF = NET the periods from its boundary on follow anew. -/
def State.phaseWrite (s : State) (g old : Nat) : State :=
  if (s.group g).enAt.isNone then s
  else
    let at_ := s.crossAt
    let s := s.upGroup g fun x => { x with phaseAt := some at_, phaseWas := old }
    let b := ((s.group g).periods.filter fun p => at_ + s.groupLead g ≤ p.start).head?
    match b with
    | some p =>
      let s := s.cutPeriods g p.start
      let s := (s.groupLanes g).foldl (fun s l => s.rebuildLane g l p.start true) s
      State.buildAhead g buildFuel s
    | none => s

/-- A write of CTL (R156): EN crosses to TB; with another reference, or with EN set behind a 0 still on its way, the group
starts anew. -/
def State.groupControl (s : State) (g old v : Nat) : State :=
  let refs : Bool := bits old 2 6 ≠ bits v 2 6 && bit v 0
  let s := if refs || (!bit old 0 && bit v 0 && (s.group g).enReq.isSome) then s.upGroup g fun x => { x with enAt := none } else s
  if bit old 0 ≠ bit v 0 || refs then s.upGroup g fun x => { x with enReq := some s.crossAt } else s.reshape g s.tb

/-! ### Sending edges -/

/-- EDGE_SEND: at its send instant the channel's next edge is handed to the line, behind the EDGE frames due before it, and
takes its sequence number, or is dropped, as its frame is to go out (R182–R184): a SOFTOFF that waits goes first. -/
def State.edgeSend (s : State) (ch : Nat) : State :=
  let l := ch / 4
  let s := s.lineRun l
  match (s.chan ch).pend with
  | [] => s
  | e :: rest =>
    let due := e.time - s.lead l
    if s.tb < due then s
    else
      let s := s.upChan ch fun c => { c with pend := rest }
      if !s.is (R.LNE_LN_CTL_EN l) then s
      else if !s.laneClock then s.edgeGo l s.tb (ch % 4) e
      else
        let before (f : Nat × Nat × Edge) : Bool := f.1 < due || f.1 = due && f.2.1 ≤ ch % 4
        (s.upLane l fun x => { x with
          edges := x.edges.filter before ++ (due, ch % 4, e) :: x.edges.filter (!before ·) }).lineRun l

def execEdgeSend (t ch : Nat) (s : State) : Out := laneUnit [.ce, .pwm, .fmx, .lne, .twn] (ch < 48) t s fun s => s.edgeSend ch

/-- QFULL_HOLD_END: causes QFULL and LATE end (R189). -/
def State.qfullEnd (s : State) (l : Nat) : State :=
  match (s.lane l).qfullEnd with
  | some x =>
    if x ≤ s.tb then
      ((s.upLane l fun y => { y with qfullEnd := none }).andn (R.LNE_LN_STAT_FS_CAUSE l) 0xC).laneSource l
    else s
  | none => s

def execQfullHoldEnd (t l : Nat) (s : State) : Out := laneUnit [.ce, .pwm, .fmx, .lne, .twn] (l < 12) t s fun s => s.qfullEnd l

end Sys2Proof.Machine
end

