-- ==== Sys2Proof/Machine/F32.lean ====
section
/-!
DEFINITION. Binary32 as the engines compute it (R6, R104), on 32-bit patterns. Every operand passes the input rule
(`fin`), every result is the exact value rounded once (`ofRat`), to nearest with ties to even.
-/

namespace Sys2Proof.Machine

/-- A number after the input rule of R104: NaN, an infinity, or ± m × 2^e (m = 0 is a signed zero). -/
inductive Fv where
  | nan
  | inf (neg : Bool)
  | num (neg : Bool) (m : Nat) (e : Int)
  deriving DecidableEq, Repr

def nanBits : Nat := 0x7FC00000

/-- The sign bit. -/
def signBit (neg : Bool) : Nat := if neg then 0x80000000 else 0

/-- The input rule: subnormal patterns read as zero of the same sign, any NaN as the quiet NaN (R104). -/
def fin (v : Nat) : Fv :=
  let neg := bit v 31
  let ex := bits v 23 8
  let fr := bits v 0 23
  if ex = 255 then (if fr = 0 then .inf neg else .nan)
  else if ex = 0 then .num neg 0 0
  else .num neg (2 ^ 23 + fr) ((ex : Int) - 150)

/-- A pattern as the input rule reads it. -/
def fcanon (v : Nat) : Nat :=
  let ex := bits v 23 8
  if ex = 255 then (if bits v 0 23 = 0 then v % 2 ^ 32 else nanBits)
  else if ex = 0 then signBit (bit v 31)
  else v % 2 ^ 32

/-- `n / d × 2 ^ e` as a fraction of naturals. -/
def scale2 (n d : Nat) (e : Int) : Nat × Nat :=
  if 0 ≤ e then (n * 2 ^ e.toNat, d) else (n, d * 2 ^ (-e).toNat)

/-- The largest x with 2 ^ x ≤ n / d, for n and d above 0. -/
def floorLog2 (n d : Nat) : Int :=
  let k : Int := (Nat.log2 n : Int) - (Nat.log2 d : Int)
  let (a, b) := scale2 n d (-k)
  if b ≤ a then k else k - 1

/-- ± n / d rounded once to binary32: judged subnormal before rounding (R104), to nearest with ties to even (R6). -/
def ofRat (neg : Bool) (n d : Nat) : Nat :=
  if n = 0 ∨ d = 0 then signBit neg
  else
    let x := floorLog2 n d
    if x < -126 then signBit neg
    else if 128 ≤ x then signBit neg + 0x7F800000
    else
      let (a, b) := scale2 n d (23 - x)
      let q := (divRne (a : Int) b).toNat
      signBit neg + min ((x + 126).toNat * 2 ^ 23 + q) 0x7F800000

/-- An exact integer fraction rounded once. -/
def ofFrac (n : Int) (d : Nat) : Nat := ofRat (n < 0) n.natAbs d

/-- The exact value of a finite number as an integer over a power of two. -/
def Fv.rat (neg : Bool) (m : Nat) (e : Int) : Int × Nat :=
  let (n, d) := scale2 m 1 e
  ((if neg then -(n : Int) else (n : Int)), d)

/-- The exact value of a pattern; none for NaN and infinities. -/
def fval (v : Nat) : Option (Int × Nat) :=
  match fin v with
  | .num s m e => some (Fv.rat s m e)
  | _ => none

def fadd (a b : Nat) : Nat :=
  match fin a, fin b with
  | .nan, _ => nanBits
  | _, .nan => nanBits
  | .inf s, .inf t => if s = t then signBit s + 0x7F800000 else nanBits
  | .inf s, _ => signBit s + 0x7F800000
  | _, .inf t => signBit t + 0x7F800000
  | .num s m e, .num t n f =>
    if m = 0 ∧ n = 0 then signBit (s && t)
    else
      let (x, d) := Fv.rat s m e
      let (y, g) := Fv.rat t n f
      let r := x * g + y * d
      if r = 0 then 0 else ofFrac r (d * g)

/-- The sign reversed. -/
def fneg (a : Nat) : Nat :=
  let c := fcanon a
  if c = nanBits then nanBits else if bit c 31 then c - 0x80000000 else c + 0x80000000

def fsub (a b : Nat) : Nat := fadd a (fneg b)

def fmul (a b : Nat) : Nat :=
  match fin a, fin b with
  | .nan, _ => nanBits
  | _, .nan => nanBits
  | .inf s, .inf t => signBit (s != t) + 0x7F800000
  | .inf s, .num t n _ => if n = 0 then nanBits else signBit (s != t) + 0x7F800000
  | .num s m _, .inf t => if m = 0 then nanBits else signBit (s != t) + 0x7F800000
  | .num s m e, .num t n f =>
    let (x, d) := scale2 (m * n) 1 (e + f)
    ofRat (s != t) x d

def fdiv (a b : Nat) : Nat :=
  match fin a, fin b with
  | .nan, _ => nanBits
  | _, .nan => nanBits
  | .inf _, .inf _ => nanBits
  | .inf s, .num t _ _ => signBit (s != t) + 0x7F800000
  | .num s _ _, .inf t => signBit (s != t)
  | .num s m e, .num t n f =>
    if n = 0 then (if m = 0 then nanBits else signBit (s != t) + 0x7F800000)
    else
      let (x, d) := scale2 m n (e - f)
      ofRat (s != t) x d

/-- One step of the digit-by-digit integer square root: bit `k` of the root. -/
def isqrtGo (n : Nat) : Nat → Nat → Nat
  | 0, r => r
  | k + 1, r =>
    let r' := r + 2 ^ k
    isqrtGo n k (if r' * r' ≤ n then r' else r)

/-- The largest r with r² ≤ n. -/
def isqrt (n : Nat) : Nat := isqrtGo n (Nat.log2 n / 2 + 1) 0

/-- The correctly rounded square root (R104). -/
def fsqrt (a : Nat) : Nat :=
  match fin a with
  | .nan => nanBits
  | .inf s => if s then nanBits else 0x7F800000
  | .num s m e =>
    if m = 0 then signBit s
    else if s then nanBits
    else
      -- m × 2^e with an even exponent and 50 more bits: the root to 25 bits, and a sticky bit below it
      let e2 := if e % 2 = 0 then e - 50 else e - 51
      let n := m * 2 ^ (e - e2).toNat
      let r := isqrt n
      let r2 := 2 * r + (if r * r = n then 0 else 1)
      let (x, d) := scale2 r2 1 (e2 / 2 - 1)
      ofRat false x d

/-- Comparison: the order of two finite numbers or infinities; NaN compares false. -/
def fcmp (a b : Nat) : Option Ordering :=
  match fin a, fin b with
  | .nan, _ => none
  | _, .nan => none
  | .inf s, .inf t => some (if s = t then .eq else if s then .lt else .gt)
  | .inf s, _ => some (if s then .lt else .gt)
  | _, .inf t => some (if t then .gt else .lt)
  | .num s m e, .num t n f =>
    let (x, d) := Fv.rat s m e
    let (y, g) := Fv.rat t n f
    some (compare (x * g) (y * d))

def flt (a b : Nat) : Bool := fcmp a b = some .lt
def fgt (a b : Nat) : Bool := fcmp a b = some .gt
def fle (a b : Nat) : Bool := fcmp a b = some .lt || fcmp a b = some .eq
def fge (a b : Nat) : Bool := fcmp a b = some .gt || fcmp a b = some .eq
def feq (a b : Nat) : Bool := fcmp a b = some .eq

/-- +0.0 or −0.0 as the input rule reads it. -/
def fzero (a : Nat) : Bool := fcanon a = 0 || fcanon a = 0x80000000

def isNan (a : Nat) : Bool := fin a = .nan

/-- The magnitude. -/
def fabs (a : Nat) : Nat := let c := fcanon a; if bit c 31 then c - 0x80000000 else c

/-- sat of R104: a NaN clamps to the lower limit. -/
def fsat (v lo hi : Nat) : Nat :=
  if fge v lo then (if fgt v hi then fcanon hi else fcanon v) else fcanon lo

/-- clamp_flag of R104: the value and whether it changed. -/
def clampFlag (v lo hi : Nat) : Nat × Bool := let w := fsat v lo hi; (w, w ≠ fcanon v)

/-- Constants of R104 and R110. -/
def f0 : Nat := 0
def f1 : Nat := 0x3F800000
def f2 : Nat := 0x40000000
def fm1 : Nat := 0xBF800000
def fmHalf : Nat := 0xBF000000
def k23 : Nat := 0x3F2AAAAB
def k13 : Nat := 0x3EAAAAAB
def kr3 : Nat := 0x3F13CD3A
def kr32 : Nat := 0x3F5DB3D7
def f2p24 : Nat := 0x4B800000

def fbool (b : Bool) : Nat := if b then f1 else f0

/-- An exact integer converted with rounding. -/
def fofInt (i : Int) : Nat := if i = 0 then 0 else ofFrac i 1

/-- max and min of R122: b when b > a (b < a), and a otherwise. -/
def fmax (a b : Nat) : Nat := if fgt b a then fcanon b else fcanon a
def fmin (a b : Nat) : Nat := if flt b a then fcanon b else fcanon a

end Sys2Proof.Machine
end

