-- ==== Sys2Proof/Machine/Tracker.lean ====
section
/-!
DEFINITION. The phasor trackers and the quadrature pins (chapter 8, R144–R152).
-/

namespace Sys2Proof.Machine

/-- The count a model gives at TB time `t` (R149). -/
def CountModel.at (m : CountModel) (t : Int) : Nat :=
  turnMod (m.e + m.g * divRne ((t - m.tc) * m.num) m.i)

/-- θ at a TB time (R149, R151): the model's while the count runs, and otherwise the held count. -/
def State.theta (s : State) (p t : Nat) : Nat :=
  match (s.trk p).model with
  | some m => m.at t
  | none => (s.trk p).hold

/-- VALID = AMP_OK AND RUNNING; a change sets VALID_CHG (R150). -/
def State.trkValid (s : State) (p : Nat) : State :=
  let v := s.is (R.PHT_PT_STAT_AMP_OK p) && s.is (R.PHT_PT_STAT_RUNNING p)
  if v = s.is (R.PHT_PT_STAT_VALID p) then s
  else (s.put (R.PHT_PT_STAT_VALID p) (b2n v)).set1 (R.PHT_PT_INT_STAT_VALID_CHG p)

/-- The count stops at `hold`: no frequency, not running (R148). -/
def State.trkStop (s : State) (p hold : Nat) : State :=
  let s := ((s.clr (R.PHT_PT_FREQ p)).clr (R.PHT_PT_STAT_RUNNING p)).clr (R.PHT_PT_STAT_FIRST p)
  (s.upTrk p fun k => { k with model := none, hold := hold }).trkValid p

/-- The tracker times out: the count freezes (R148). -/
def State.trkTimeout (s : State) (p : Nat) : State :=
  let th := s.theta p s.tb
  ((s.upTrk p fun k => { k with fresh := false }).trkStop p th).set1 (R.PHT_PT_INT_STAT_TIMEOUT p)

/-- FREQ for an interval in sub-ticks, with DIR's sign (R148). -/
def freqOf (i : Nat) (rev : Bool) : Nat := ofRat rev 16000000000 i

def timeoutOf (s : State) (p : Nat) : Nat := 16000000 * max 1 (s.get (R.PHT_PT_TIMING_TIMEOUT p))

/-- The model after a validated edge in the last case of R148, with the slip judged (R149). -/
def State.trkCorrect (s : State) (p : Nat) (tc : Int) (i : Nat) (g : Int) : State :=
  let old := match (s.trk p).model with
    | some m => m.at tc
    | none => (s.trk p).hold
  let e := toS 32 old
  let slip := divRne e 65536
  let s := s.put (R.PHT_PT_SLIP_LAST p) (ofS 16 slip)
  let beyond := s.get (R.PHT_PT_TOL p) < slip.natAbs
  let s := if beyond then (s.bump (R.PHT_PT_SLIP_COUNT p)).set1 (R.PHT_PT_INT_STAT_SLIP p) else s
  let full : Int := (2 ^ 32 : Nat)
  let m : CountModel :=
    if beyond && !s.is (R.PHT_PT_CFG_POLICY p) then { tc := tc, e := 0, g := g, num := full, i := i }
    else { tc := tc, e := e, g := g, num := full - g * e, i := i }
  s.upTrk p fun k => { k with model := some m }

/-- A validated edge (R147–R149). `bc` is β at the crossing, by its sign. -/
def State.trkEdge (s : State) (p : Nat) (tc bc : Int) : State :=
  let was := s.get (R.PHT_PT_STAT_DIR p)
  let dir := if bc < 0 then 0 else if 0 < bc then 1 else was
  let s := if dir = was then s else (s.put (R.PHT_PT_STAT_DIR p) dir).set1 (R.PHT_PT_INT_STAT_DIR_CHG p)
  let s := s.put (R.PHT_PT_EDGE_STAMP p) (ofS 32 tc)
  let k := s.trk p
  let s := s.upTrk p fun k => { k with edge := some tc, fresh := true }
  let i := (tc - k.edge.getD tc).toNat
  let g : Int := if dir = 0 then 1 else -1
  if !k.fresh || timeoutOf s p < i then s.trkStop p 0
  else
    let s := s.put (R.PHT_PT_FREQ p) (freqOf i (dir = 1))
    let run := s.is (R.PHT_PT_STAT_RUNNING p)
    if !run || dir ≠ was then
      let m : CountModel := { tc := tc, e := 0, g := g, num := (2 ^ 32 : Nat), i := i }
      let s := (s.set1 (R.PHT_PT_STAT_FIRST p)).set1 (R.PHT_PT_STAT_RUNNING p)
      (s.upTrk p fun k => { k with model := some m }).trkValid p
    else (s.clr (R.PHT_PT_STAT_FIRST p)).trkCorrect p tc i g

/-- A crossing between two pairs (R145): its instant, and β there times a positive factor. -/
def crossing (t1 : Int) (a1 b1 : Nat) (t2 : Int) (a2 b2 : Nat) : Option (Int × Int) :=
  match fval a1, fval b1, fval a2, fval b2 with
  | some (x1, d1), some (y1, e1), some (x2, d2), some (y2, e2) =>
    -- (−α1) / (α2 − α1) = num / den, den > 0
    let num := -x1 * d2
    let den := x2 * d1 - x1 * d2
    let tc := t1 + divRne ((t2 - t1) * num) den.toNat
    -- β_c = β1 + (β2 − β1) num / den, over the positive e1 e2 den
    some (tc, y1 * e2 * den + (y2 * e1 - y1 * e2) * num)
  | _, _, _, _ => none

/-- Edge detection on a pair (R145, R146). -/
def State.trkCross (s : State) (p : Nat) (t : Int) (a b : Nat) : State :=
  let k := s.trk p
  let s := s.upTrk p fun k => { k with prev := some (t, a, b) }
  let s := match k.prev with
    | none => s
    | some (t1, a1, b1) =>
      if k.armed && flt a1 f0 && fge a f0 then
        let s := s.upTrk p fun k => { k with armed := false }
        match crossing t1 a1 b1 t a b with
        | none => s
        | some (tc, bc) =>
          let early := match k.edge with
            | some te => decide (tc - te < 1600000 * s.get (R.PHT_PT_TIMING_MININT p))
            | none => false
          if early then (s.bump (R.PHT_PT_EDGE_FAULT p)).set1 (R.PHT_PT_INT_STAT_EDGE_FAULT p)
          else s.trkEdge p tc bc
      else s
  if fle a (fneg (s.get (R.PHT_PT_HYST p))) then s.upTrk p fun k => { k with armed := true } else s

/-- The amplitude of a pair and the time spent inside or outside the window (R150). -/
def State.trkAmp (s : State) (p : Nat) (t : Int) (a b : Nat) (bad : Bool) : State :=
  let amp := fsqrt (fadd (fmul a a) (fmul b b))
  let inside := !bad && fle (s.get (R.PHT_PT_AMP_LO p)) amp && fle amp (s.get (R.PHT_PT_AMP_HI p))
  let s := s.put (R.PHT_PT_AMP p) amp
  s.upTrk p fun k =>
    let dt := match k.side with
      | some (t0, was) => if was = inside then (t - t0).toNat else 0
      | none => 0
    let same := match k.side with | some (_, was) => was == inside | none => false
    { k with
      side := some (t, inside)
      inTime := if inside then (if same then k.inTime + dt else 0) else 0
      outTime := if inside then 0 else (if same then k.outTime + dt else 0) }

/-- A tracker takes the oldest pair formed for it (R144–R150). -/
def State.trkPair (s : State) (p : Nat) : State :=
  match (s.trk p).due with
  | [] => s
  | (t, a, b) :: rest =>
    let s := s.upTrk p fun k => { k with due := rest }
    let src := s.get (R.PHT_PT_CFG_SRC p)
    if s.is (R.PHT_PT_STAT_CFGERR p) || src = 0 || src = 3 then s
    else
      let bad := (fval a).isNone || (fval b).isNone
      let s := s.trkAmp p t a b bad
      if bad then s else s.trkCross p t (fcanon a) (fcanon b)

/-- TRACKER_PAIR. -/
def execTrackerPair (t p : Nat) (s : State) : Out := onUnit [.pht] (p < 4) t s fun s => s.trkPair p

/-- TRACKER_TIMEOUT: no validated edge for TIMEOUT after the last one. -/
def execTrackerTimeout (t p : Nat) (s : State) : Out :=
  onUnit [.pht] (p < 4) t s fun s =>
    match (s.trk p).edge with
    | some te => if (s.trk p).fresh && te + timeoutOf s p ≤ s.tb then s.trkTimeout p else s
    | none => s

/-- AMP_FILTER_EXPIRY: AMP_OK follows the window once every pair has lain on one side of it for AFILT (R150). -/
def State.ampExpiry (s : State) (p : Nat) : State :=
  let k := s.trk p
  let af := 1600000 * s.get (R.PHT_PT_TIMING_AFILT p)
  let ok := s.is (R.PHT_PT_STAT_AMP_OK p)
  match k.side with
  | some (_, true) =>
    if !ok && af ≤ k.inTime then (s.set1 (R.PHT_PT_STAT_AMP_OK p)).trkValid p else s
  | some (_, false) =>
    if ok && af ≤ k.outTime then
      ((s.clr (R.PHT_PT_STAT_AMP_OK p)).set1 (R.PHT_PT_INT_STAT_AMP_FAULT p)).trkValid p
    else s
  | none => s

def execAmpFilterExpiry (t p : Nat) (s : State) : Out := onUnit [.pht] (p < 4) t s fun s => s.ampExpiry p

/-! ### Pairs formed -/

/-- A pair formed for a tracker waits to be taken. -/
def State.trkDue (s : State) (p : Nat) (t : Int) (a b : Nat) : State :=
  s.upTrk p fun k => { k with due := k.due ++ [(t, a, b)] }

/-- The group delay from the input to a stage's word, in sub-ticks (Table 4-1). -/
def groupDelay (k : Nat) : Nat :=
  match k with
  | 1 => 4000 | 2 => 12000 | 3 => 28000 | 4 => 60000 | 5 => 124000 | 6 => 354400 | _ => 1327200

/-- α and β of two tap words (R144). -/
def tapPair (gain : Nat) (two : Bool) (a b : Int) : Nat × Nat :=
  let x := fmul (fofInt a) gain
  let y := fmul (fofInt b) gain
  if two then (x, fmul kr3 (fadd x (fmul f2 y))) else (x, y)

/-- A tap's new word reaches the trackers that take it (R144, SRC = 2). A word is unmet once a word of a later stamp follows
it on either tap before one of its own stamp on the other; 16 unmet words in a row are the stamps' difference. A tap that has
had no word reads 0 with stamp 0 (R17), and so differs. -/
def State.trkTap (s : State) (tap : Nat) : State :=
  (List.range 4).foldl (fun s p =>
    let ta := s.get (R.PHT_PT_TAPS_TAP_A p)
    let tb := s.get (R.PHT_PT_TAPS_TAP_B p)
    if s.get (R.PHT_PT_CFG_SRC p) ≠ 2 ∨ s.is (R.PHT_PT_STAT_CFGERR p) ∨ (tap ≠ ta ∧ tap ≠ tb) then s
    else
      let (st, a) := (s.scr.taps.getD ta []).head?.getD (0, 0)
      let (st', b) := (s.scr.taps.getD tb []).head?.getD (0, 0)
      if st = st' then
        let (x, y) := tapPair (s.get (R.PHT_PT_GAIN p)) (s.is (R.PHT_PT_CFG_TWO p)) a b
        (s.upTrk p fun k => { k with miss := 0, unmet := none }).trkDue p
          ((st : Int) - 1600 - groupDelay (ta % 8 + 1)) x y
      else
        let now := if tap = ta then st else st'
        let n := (s.trk p).miss + (if (s.trk p).unmet.any (· ≠ now) then 1 else 0)
        let s := s.upTrk p fun k => { k with miss := n, unmet := some now }
        if 16 ≤ n then s.set1 (R.PHT_PT_STAT_CFGERR p) else s) s

/-- A tracker's configuration as it takes effect at a write of CFG and at a warm start: CFGERR shows an invalid SLOT
(R153), and the stamps are compared anew (R144). -/
def State.trkConfig (s : State) (p : Nat) : State :=
  let s := s.put (R.PHT_PT_STAT_CFGERR p) (b2n (s.get (R.PHT_PT_CFG_SLOT p) = 1023))
  s.upTrk p fun k => { k with miss := 0, unmet := none }

/-! ### The pins -/

/-- The line count per turn (R152), where it is an integer from 1 to 4 096. -/
def State.quadLines (s : State) : Option Nat :=
  let n := 65536 * s.get R.PHT_OUT_DIV_NUM
  let d := s.get R.PHT_OUT_DIV_DEN
  if d = 0 then none
  else if n % d = 0 ∧ 1 ≤ n / d ∧ n / d ≤ 4096 then some (n / d) else none

/-- CFGERR and the pins' enable follow OUT_CTL and OUT_DIV (R152). From when the pins are driven they hold their state for
100 ns. -/
def State.quadConfig (s : State) : State :=
  let bad := s.quadLines.isNone
  let s := s.put R.PHT_OUT_STAT_CFGERR (b2n bad)
  let low := bad || !s.is R.PHT_OUT_CTL_EN
  { s with quad := { s.quad with low := low, since := if s.quad.low && !low then s.tb else s.quad.since } }

/-- ANG_A, ANG_B and ANG_Z, of the state on the turn that OUT_DIV gives. -/
def State.quadPins (s : State) : Bool × Bool × Bool :=
  if s.quad.low then (false, false, false)
  else
    let m := s.quad.pos % 4
    (m = 1 || m = 2, m = 2 || m = 3, s.quadLines.any fun l => s.quad.pos % (4 * l) = 0)

/-- The quarter lines, of `n` in a turn, by which the count that SEL selects is ahead of the pins. -/
def State.quadAhead (s : State) (n : Nat) : Nat :=
  (s.theta (s.get R.PHT_OUT_CTL_SEL) s.tb * n / 2 ^ 32 + n - s.quad.pos % n) % n

/-- OUT_STAT.CATCHUP: driven pins lag the target by more than one state (R152). -/
def State.quadLags (s : State) : Bool :=
  match s.quadLines with
  | some l => let up := s.quadAhead (4 * l); !s.quad.low && 1 < min up (4 * l - up)
  | none => false

/-- The pins step one state toward the target along the shorter way, each held for 100 ns at least (R152). To a target half
a turn away they step up (DESIGN CHOICE, log entry 170). -/
def State.quadStep (s : State) : State :=
  match s.quadLines with
  | none => s
  | some l =>
    let p := s.get R.PHT_OUT_CTL_SEL
    if s.quad.low || !(s.trk p).fresh || s.tb < s.quad.since + 1600 then s
    else
      let n := 4 * l
      let up := s.quadAhead n
      let pos := s.quad.pos % n
      let pos' := if 2 * up ≤ n then (pos + 1) % n else (pos + n - 1) % n
      if up = 0 then s else { s with quad := { s.quad with pos := pos', since := s.tb } }

def execQuadratureStep (t : Nat) (s : State) : Out := act [.pht] t s State.quadStep

end Sys2Proof.Machine
end

