-- ==== Sys2Proof/Machine/Engine.lean ====
section
/-!
DEFINITION. The control engines around their operators (chapter 5): ticks and the tick latch, the run start, swaps,
control writes, trace, faults, and what a run's instances read and write.
-/

namespace Sys2Proof.Machine

/-! ### Operand access during a run -/

/-- A signal or coefficient word as an operator reads it (R104). -/
def State.rdF (s : State) (n r : Nat) : Nat := fcanon (s.refRaw n r)
def State.rdV (s : State) (n r w : Nat) : List Nat := (List.range w).map fun k => s.rdF n (refAt r k)
def State.coF (s : State) (n : Nat) (i : Inst) (k : Nat) : Nat := fcanon (s.coefRaw n (i.coef + k))
def State.stU (s : State) (n : Nat) (i : Inst) (k : Nat) : Nat := s.stRaw n (i.state + k)
def State.stF (s : State) (n : Nat) (i : Inst) (k : Nat) : Nat := fcanon (s.stU n i k)
def State.stPut (s : State) (n : Nat) (i : Inst) (k v : Nat) : State := s.stSet n (i.state + k) v

/-- A state word takes a computed value; a NaN leaves it as it is, and then `true` (R105). -/
def State.stKeep (s : State) (n : Nat) (i : Inst) (k v : Nat) : State × Bool :=
  if isNan v then (s, true) else (s.stPut n i k v, false)

/-- Bytes enter the run's signature (R253). -/
def State.sigAdd (s : State) (n : Nat) (bs : List Byte) : State :=
  s.upEng n fun e => { e with run := e.run.map fun r => { r with sig := crcR 0xEDB88320 r.sig 0 bs } }

/-- A value written by an instance; NONE discards it (R79, R85). -/
def State.wrRef (s : State) (n r v : Nat) : State :=
  let i := refIndex r
  match refSpace r with
  | 1 => (s.ceSet n (0x4000 + 4 * (i % 1024)) v).sigAdd n (leBytes 4 v)
  | 2 => (s.ceSet n (0x5000 + 4 * (i % 64)) v).sigAdd n (leBytes 4 v)
  | _ => s
def State.wrV (s : State) (n r : Nat) : List Nat → State
  | [] => s
  | v :: vs => (s.wrRef n r v).wrV n (refAt r 1) vs

/-- STATUS bits of an instance: XSAT 0, USAT 1, NANHOLD 2 (R105). -/
def State.status (s : State) (n : Nat) (i : Inst) (k b : Nat) (v : Bool) : State :=
  s.stPut n i k (withBit (s.stU n i k) b v)
def State.nanHold (s : State) (n : Nat) (i : Inst) (k : Nat) (v : Bool) : State := if v then s.status n i k 2 true else s

/-! ### Ticks (R81, R82, R86) -/

/-- The engine's tick source had an event of this stamp. -/
def State.tickEvent (s : State) (n stamp : Nat) : Bool :=
  let sel := s.get (R.CE_TICK_SEL n)
  match s.get (R.CE_TICK_KIND n) with
  | 0 => sel < 16 && (s.trig sel).fired = some stamp
  | 1 => sel < 32 && (s.group (sel / 4)).fired.getD (sel % 4) none = some stamp
  | 2 => isTap sel && (s.scr.taps.getD sel []).any (·.1 = stamp)
  | _ => false

/-- A source's newest word stamped at or before a tick, of the two the latch holds; word 0 with stamp 0 where there is
none (R17, R82). -/
def State.latched (s : State) (key stamp : Nat) : Nat × Int × Nat :=
  let h := if key < 256 then s.scr.taps.getD key [] else s.scr.snaps.getD (key - 256) []
  match h.find? fun w => w.1 ≤ stamp with
  | some (st, w) => (key, w, st)
  | none => (key, 0, 0)

/-- What the latch fixes for a tick: the sources of the active store, and of the incoming one while a recipe swap is
pending; the trackers as they stand (R82, R109, R151). -/
def State.fixAt (s : State) (n stamp : Nat) : Fixed :=
  let st := s.get (R.CE_STAT_RSTORE n)
  let a := loadSources (s.recipe n st)
  let b := if s.is (R.CE_SWAP_RECIPE n) then loadSources (s.recipe n (1 - st)) else []
  { words := (a ++ b.filter (!a.contains ·)).map fun k => s.latched k stamp
    trk := (List.range 4).map fun p => (s.theta p s.tb, s.get (R.PHT_PT_FREQ p), s.is (R.PHT_PT_STAT_VALID p)) }

/-- The arrival of a tick stamped `x`: by the crossing, or PAIR_DLY later in a pair (R15, R248). -/
def State.tickDue (s : State) (x : Nat) : Nat :=
  if s.is R.TWN_CTL_EN then x + 16 * clampN 400 4000 (s.get R.TWN_CFG_PAIR_DLY) else s.tbToSys x

/-- A tick reaches the engine: it starts a run, or becomes pending or merges (R83, R86); in a move it is pending for CE7
(R98). -/
def State.tickReach (s : State) (n : Nat) (k : Tick) : State :=
  let e := s.eng n
  let inRun := e.run.isSome || (match e.endAt with | some x => decide (k.due < x + s.cycleLen) | none => false)
  match e.pend with
  | some p =>
    (s.upEng n fun e => { e with
      pend := some { k with merged := p.merged + 1, late := true, waited := p.waited || k.waited } }).set1
        (R.CE_STAT_PENDING n)
  | none =>
    let s := s.upEng n fun e => { e with pend := some { k with late := k.late || inRun } }
    if inRun || s.moveFrom n then s.set1 (R.CE_STAT_PENDING n) else s

/-- Ticks on their way whose arrival has come reach the engine; those of an engine that still joins wait. -/
def State.promote (s : State) (n : Nat) : State :=
  if !s.engLive n then s
  else
  let w := (s.eng n).wait
  let s := s.upEng n fun e => { e with wait := w.filter fun k => s.tb < k.due }
  (w.filter fun k => k.due ≤ s.tb).foldl (fun s k => s.tickReach n k) s

/-- A follower without a RUN record at stamp + PAIR_DLY of one of its own tick events goes to JOINING (R251). -/
def State.journalLate (s : State) (n : Nat) : State :=
  if !(s.twFollows || s.is R.TWN_CTL_EN && s.twState = 1 && s.engLive n) then s
  else
    let e := s.eng n
    let due := e.own.filter fun k => k.due ≤ s.tb
    let late := due.any fun k => !e.recs.contains k.stamp
    let s := s.upEng n fun e => { e with
      own := e.own.filter fun k => s.tb < k.due
      recs := e.recs.filter fun x => !due.any (·.stamp = x) }
    if late && s.get R.TWN_STAT_LANES ≠ 0 then
      ((s.bump R.TWN_CNT1_JLATE).set1 R.TWN_INT_STAT_JLATE).goJoining
    else s

/-- A tick event of an engine (R81, R82, R248, R249). -/
def State.tickArrival (s : State) (n stamp : Nat) : State :=
  let e := s.eng n
  let seen := match e.lastEv with | some x => decide (stamp ≤ x) | none => false
  let s := s.promote n
  if !s.engLatches n || !s.tickEvent n stamp || seen || s.tb < s.tbToSys stamp then s.journalLate n
  else
    let div := s.get (R.CE_TICK_DIV n)
    let s := s.upEng n fun e => { e with lastEv := some stamp }
    if e.div < div then (s.upEng n fun e => { e with div := e.div + 1 }).journalLate n
    else
      let s := s.upEng n fun e => { e with div := 0 }
      let k : Tick := { stamp := stamp, due := s.tickDue stamp, fix := s.fixAt n stamp }
      -- each tick still on its way or pending has a run of its own (DEDUCED, log entry 173)
      let num := (e.runNo + 1 + e.wait.length + b2n e.pend.isSome) % 2 ^ 32
      if !s.engLive n then
        -- the journal source's record of an engine that does not run here (R249)
        let s := s.upEng n fun e => { e with own := (e.own ++ [k]).drop (e.own.length - 7) }
        if !s.is R.TWN_CTL_EN || s.tickFollows stamp then s
        else (s.upEng n fun e => { e with runNo := num }).twSend (.run (s.engUnit n) num stamp 0 k.fix)
      else if s.tickFollows stamp then (s.upEng n fun e => { e with own := e.own ++ [k] }).journalLate n
      else
        let s := s.upEng n fun e => { e with wait := e.wait ++ [k] }
        let s := s.twSend (.run (s.engUnit n) num stamp ((e.pend.map (·.merged)).getD 0) k.fix)
        s.promote n

/-- TICK_ARRIVAL. -/
def execTickArrival (t n stamp : Nat) (s : State) : Out :=
  laneUnit [.ce, .pwm, .fmx, .lne, .tsu, .twn] (n < 8) t s fun s => s.tickArrival n stamp

/-! ### Mailbox writes (R93, R94, R125) -/

/-- Where a slot's buffer lies. -/
def mailBuffer (slot b : Nat) : Nat := 0x70000000 + 128 * slot + 64 * b

/-- The message a MAILBOX write is to send: its number and words 1–15. -/
def State.mailMessage (s : State) (n : Nat) (i : Inst) : Nat × List Byte :=
  let was := s.stU n i 0
  let stamp := ((s.eng n).run.map (·.stamp)).getD 0
  (if was = 0xFFFFFFFF then 1 else was + 1, leBytes 4 stamp ++ (s.rdV n i.in0 14).flatMap (leBytes 4 ·))

/-- The cycles a run has had. -/
def State.runCycles (s : State) (r : Run) : Nat := r.done_ + (s.tb - r.start) / s.cycleLen

/-- Words 1–15 of the writes in progress that are in their buffers by now: the last fifteen cycles before an instance's
last one write one word each, in ascending order (DESIGN CHOICE, log entry 123). Every reader of the exchange banks meets
them so. -/
def State.mailProgress (s : State) : State :=
  (List.range 8).foldl (fun s n =>
    match (s.eng n).run with
    | none => s
    | some r =>
      let st := s.get (R.CE_STAT_RSTORE n)
      let i := s.instAt n st r.idx
      let words := s.runCycles r - r.cyc - 6
      if r.idx < s.recipeCount n st && i.op = 0x49 && !i.opt 4 && words ≠ 0 then
        let (m, body) := s.mailMessage n i
        s.writeBytes (mailBuffer i.slot (m % 2) + 4) (body.take (4 * words))
      else s) s

/-! ### The run start (R83) -/

/-- The mailbox buffer a reader selects: buffer 0 or 1 by serial arithmetic (R94). -/
def State.mailSelect (s : State) (slot : Nat) : Nat :=
  let base := 0x70000000 + 128 * slot
  let a := s.readLe base 4
  let b := s.readLe (base + 64) 4
  if 0 < toS 32 (ofS 32 ((a : Int) - b)) then 0 else 1

/-- Messages skipped between two message numbers; m wraps from 0xFFFF_FFFF to 1 (R94). -/
def mailSkip (prev seq : Nat) : Nat :=
  let d := (seq + 2 ^ 32 - prev) % 2 ^ 32 - (if seq < prev then 1 else 0)
  if seq ≠ 0 ∧ 1 < d ∧ d < 2 ^ 31 then d - 1 else 0

/-- Step 3: a mailbox input is copied, or keeps its copy when its SEQ changed twice or its read met two bits in error. The
read takes both SEQ rows and the buffer it selects. -/
def State.mailRead (s : State) (n : Nat) (torn : List Nat) (errs : List RowErr) (j slot : Nat) : State :=
  let base := mailBuffer slot 0
  let b := s.mailSelect slot
  let (s, bad) := s.meetRows (fun a => a / 128 = base / 128 && (a / 64 % 2 = b || a % 64 < 8)) errs
  if torn.contains slot || bad then s.bump (R.CE_MB_TORN n)
  else
    let msg := s.readBytes (0x70000000 + 128 * slot + 64 * b) 64
    let seq := leAt msg 0 4
    let prev := (((s.eng n).mbSeq.find? (·.1 = slot)).map (·.2)).getD 0
    let k := mailSkip prev seq
    let s := if k = 0 then s else (s.bump (R.CE_MB_SKIP n) k).set1 (R.CE_INT_STAT_MB_SKIP n)
    let s := s.upEng n fun e => { e with mbSeq := (slot, seq) :: e.mbSeq.filter (·.1 ≠ slot) }
    s.writeBytes (ceBase n + 0x5400 + 64 * j) (if seq = 0 then List.replicate 64 0 else msg)

/-- Step 5 for one instance (R89, R108): its new state, and whether the clamp changed it. -/
def State.preset (s : State) (n : Nat) (i : Inst) : State × Bool :=
  match i.op with
  | 0x10 =>
    let x := fsub (s.stF n i 5) (fmul (s.coF n i 0) (s.stF n i 4))
    let (x, hold) := if isNan x then (s.stF n i 3, true) else (x, false)
    let s := s.nanHold n i 2 hold
    let (x, c) := clampFlag x (s.coF n i 2) (s.coF n i 3)
    let (s, h) := s.stKeep n i 3 x
    let s := s.nanHold n i 2 h
    ((if c then s.status n i 2 0 true else s), c)
  | 0x11 =>
    let x1 := s.stF n i 3
    let x2 := s.stF n i 4
    let a2 := fadd (fmul x1 x1) (fmul x2 x2)
    let amax := s.coF n i 3
    if fgt a2 (fmul amax amax) then
      let k := fdiv amax (fsqrt a2)
      let (s, h1) := s.stKeep n i 3 (fmul x1 k)
      let (s, h2) := s.stKeep n i 4 (fmul x2 k)
      let s := s.nanHold n i 2 (h1 || h2)
      let c := s.stF n i 3 ≠ x1 || s.stF n i 4 ≠ x2
      ((if c then s.status n i 2 0 true else s), c)
    else (s, false)
  | 0x20 =>
    let x := fsub (s.stF n i 3) (s.coF n i 2)
    let (x, hold) := if isNan x then (s.stF n i 1, true) else (x, false)
    let s := s.nanHold n i 0 hold
    let (x, c) := clampFlag x (s.coF n i 4) (s.coF n i 5)
    let (s, h) := s.stKeep n i 1 x
    let s := s.nanHold n i 0 h
    ((if c then s.status n i 0 0 true else s), c)
  | 0x28 =>
    let (x, c) := clampFlag (s.stF n i 1) (s.coF n i 2) (s.coF n i 3)
    let (s, h) := s.stKeep n i 1 x
    let s := s.nanHold n i 0 h
    ((if c then s.status n i 0 0 true else s), c)
  | _ => (s, false)

/-- Swap costs of Table 6-2. -/
def Inst.swapCost (i : Inst) : Nat :=
  match i.op with | 0x10 => 6 | 0x11 => 10 | 0x19 => 2 | 0x20 => 6 | 0x28 => 4 | _ => 0

/-- Step 7 for one instance marked INIT (R108). -/
def State.initInst (s : State) (n : Nat) (i : Inst) : State :=
  let zero (s : State) (ks : List Nat) : State := ks.foldl (fun s k => s.stPut n i k 0) s
  match i.op with
  | 0x10 => zero s [2, 3, 4, 5]
  | 0x11 => zero s [2, 3, 4]
  | 0x20 =>
    let (s, h) := s.stKeep n i 3 (s.coF n i 2)
    (zero s [0, 1, 2]).nanHold n i 0 h
  | 0x28 =>
    let s := zero s [0]
    if i.opt 4 then
      let (s, h) := s.stKeep n i 1 (s.rdF n i.in0)
      s.nanHold n i 0 h
    else s.stPut n i 1 0
  | _ => match i.row with
    | some p => zero s (List.range p.state)
    | none => s

/-- INIT costs of Table 6-2. -/
def Inst.initCost (i : Inst) : Nat :=
  match i.op with
  | 0x10 => 4 | 0x11 => 3 | 0x20 => 4 | 0x28 => 2
  | _ => match i.row with | some p => p.state | none => 0

/-- Step 4: a pending recipe swap is applied in the first run whose tick arrived after its check passed (R88, R90). -/
def State.swapRecipe (s : State) (n : Nat) : State :=
  let s := s.put (R.CE_STAT_RSTORE n) (1 - s.get (R.CE_STAT_RSTORE n))
  let s := (s.clr (R.CE_SWAP_RECIPE n)).set1 (R.CE_INT_STAT_SWAP_DONE n)
  s.upEng n fun e => { e with recipeOk := none, initNext := true }

/-- Step 5: the banks exchange roles, and unless the run is a first run every integrating instance is preset and
clamped (R84, R88, R89). -/
def State.swapCoef (s : State) (n : Nat) (is : List Inst) (first : Bool) : State :=
  let s := s.put (R.CE_STAT_CBANK n) (1 - s.get (R.CE_STAT_CBANK n))
  let s := (s.clr (R.CE_SWAP_COEF n)).set1 (R.CE_INT_STAT_SWAP_DONE n)
  let s := s.upEng n fun e => { e with coefAt := none, joined := false }
  let s := (s.clr (R.CE_SWAP_STAT_CLAMPS n)).clr (R.CE_SWAP_STAT_CLAMP_FIRST n)
  if first then s
  else is.foldl (fun s i =>
    let (s, c) := s.preset n i
    if c then
      let s := if s.get (R.CE_SWAP_STAT_CLAMPS n) = 0 then s.put (R.CE_SWAP_STAT_CLAMP_FIRST n) i.idx else s
      (s.bump (R.CE_SWAP_STAT_CLAMPS n)).set1 (R.CE_INT_STAT_SWAP_CLAMP n)
    else s) s

/-- Step 6: queued writes of state words whose write completed at least 2 cycles before the start, in order (R92). -/
def State.applyQueue (s : State) (n : Nat) : State × Nat :=
  let q := (s.eng n).queue
  let now := q.takeWhile fun w => w.2.2 + 2 * s.cycleLen ≤ s.tb
  let s := now.foldl (fun s w => s.stSet n w.1 w.2.1) s
  let s := s.upEng n fun e => { e with queue := q.drop now.length }
  (s.put (R.CE_STAGE_ADDR_QUEUED n) (q.length - now.length), now.length)

/-- The late counters (R86, R87). A tick that waited for a move is late without being an overrun (R98). -/
def State.countLate (s : State) (n : Nat) (k : Tick) : State :=
  if k.waited then s
  else if k.late then
    let s := (s.bump (R.CE_OVR_COUNT n)).bump (R.CE_OVR_MERGED n) k.merged
    (s.bump (R.CE_OVR_CONSEC n)).set1 (R.CE_INT_STAT_OVR n)
  else s.clr (R.CE_OVR_CONSEC n)

/-- The run header (Table 5-4). -/
def headerWords (stamp dSub dt num flags merged : Nat) : List Nat :=
  [stamp % 2 ^ 32, stamp / 2 ^ 32 % 2 ^ 32, dSub, dt, num, flags, merged] ++ List.replicate 9 0

/-- A run starts (R83, R84). -/
def State.runBegin (s : State) (n : Nat) (k : Tick) (torn : List Nat) (errs : List RowErr) : State :=
  let e := s.eng n
  let doR := match e.recipeOk with | some x => decide (x < k.due) | none => false
  let doC := match e.coefAt with | some w => (if e.joined then doR else decide (w + 2 * s.cycleLen ≤ s.tb)) | none => false
  let s := s.countLate n k
  let s := s.clr (R.CE_STAT_PENDING n)
  let s := if doR then s.swapRecipe n else s
  let is := s.recipe n (s.get (R.CE_STAT_RSTORE n))
  -- step 1
  let fixed (key : Nat) : Nat × Int × Nat := (k.fix.words.find? (·.1 = key)).getD (key, 0, 0)
  let srcs := (loadSources is).map fixed
  let s := ((List.range srcs.length).zip srcs).foldl (fun s (j, _, w, st) =>
    (s.ceSet n (0x5200 + 8 * j) (ofS 32 w)).ceSet n (0x5204 + 8 * j) (st % 2 ^ 32)) s
  -- step 2
  let d := k.stamp - e.prev
  let nom := s.get (R.CE_DTNOM n)
  let top := s.get (R.CE_DTMAX n)
  let clamp := !e.firstNext && decide (top < d)
  let dUsed := if e.firstNext then nom else if clamp then top else d
  let dSub := if e.firstNext then nom else min d (2 ^ 32 - 1)
  let dt := ofRat false dUsed 16000000000
  let s := if clamp then s.set1 (R.CE_INT_STAT_DT_CLAMP n) else s
  -- step 3
  let mb := (mailInputs is).take 48
  let s := if mb.isEmpty then s else s.mailProgress
  let s := ((List.range mb.length).zip mb).foldl (fun s (j, slot) => s.mailRead n torn errs j slot) s
  -- step 5
  let s := if doC then s.swapCoef n is e.firstNext else s
  let c5 := if doC && !e.firstNext then is.foldl (fun c i => c + i.swapCost) 0 else 0
  -- the header is in place for what follows
  let num := (e.runNo + 1) % 2 ^ 32
  let flags := b2n e.firstNext + 2 * b2n (k.late || k.waited) + 4 * b2n clamp + 8 * b2n doC + 16 * b2n doR
  let hdr := headerWords k.stamp dSub dt num flags k.merged
  let s := s.writeBytes (ceBase n + 0x5100) (hdr.flatMap (leBytes 4 ·))
  -- step 6
  let (s, q) := s.applyQueue n
  -- step 7
  let ini := (s.eng n).initNext
  let marked := if ini then is.filter fun i => i.opt 0 else []
  let s := marked.foldl (fun s i => s.initInst n i) s
  let c7 := marked.foldl (fun c i => c + i.initCost) 0
  let cyc := 16 + 10 * mb.length + c5 + 2 * q + c7
  let r : Run := {
    start := s.tb, cyc := cyc, stamp := k.stamp, num := num, dUsed := dUsed, dt := dt
    onTime := !(k.late || k.waited)
    fix := { words := srcs, trk := k.fix.trk }
    sig := crcR 0xEDB88320 0xFFFFFFFF 0 ((hdr.take 7).flatMap (leBytes 4 ·)) }
  let s := s.upEng n fun e => { e with
    run := some r, pend := none, prev := k.stamp, firstNext := false, initNext := false, runNo := num, trcNext := false }
  let s := if e.trcNext then s.put (R.CE_TRC_TRIGSTAMP n) k.stamp else s
  let s := ((s.set1 (R.CE_STAT_RUNNING n)).put (R.CE_STAMP n) k.stamp).put (R.CE_DT n) dSub
  s.bumpWrap (R.CE_RUNCNT n)

/-- When the tick that waits may start its run: in the cycle in which it arrives, or in the cycle after the previous run
ends (R83). -/
def State.runDue (s : State) (n : Nat) : Option Tick :=
  let e := s.eng n
  match e.run, e.pend with
  | none, some k =>
    let free := match e.endAt with | some x => decide (x + s.cycleLen ≤ s.tb) | none => true
    let moving := match s.move with
      | some m => m.src = n && m.phase ≠ 0 || n = 7 && m.phase ≠ 0
      | none => false
    if s.engLive n && (free || !k.late) && !moving then some k else none
  | _, _ => none

/-- RUN_START: `torn` names the mailbox slots whose SEQ changed twice under the read, `errs` the rows of the slots that are
in error (R94, R303). -/
def State.runStart (s : State) (n : Nat) (torn : List Nat) (errs : List RowErr) : State :=
  let s := s.promote n
  match s.runDue n with
  | some k => s.runBegin n k torn errs
  | none => s

/-- OVERRUN_LIMIT: the count of late runs in a row reaches OVR_LIMIT (R87). -/
def State.overrunLimit (s : State) (n : Nat) : State :=
  let lim := s.get (R.CE_RUNCTL_OVR_LIMIT n)
  let late := match (s.eng n).run with | some r => !r.onTime | none => false
  if lim = 0 ∨ s.get (R.CE_OVR_CONSEC n) < lim ∨ !late ∨ s.fsOn (108 + s.engUnit n) then s
  else (s.set1 (R.CE_INT_STAT_OVR_LIMIT n)).fsAssert (108 + s.engUnit n)

def execOverrunLimit (t n : Nat) (s : State) : Out := laneUnit [.ce, .pwm, .fmx, .lne, .twn] (n < 8) t s fun s => s.overrunLimit n

/-! ### The instances of a run -/

/-- The next instance of the run in progress, once its last cycle has come (R78, R103). -/
def State.instDue (s : State) (n : Nat) : Option Inst :=
  match (s.eng n).run with
  | none => none
  | some r =>
    let st := s.get (R.CE_STAT_RSTORE n)
    if r.idx < s.recipeCount n st then
      let i := s.instAt n st r.idx
      if r.cyc + i.cycles ≤ s.runCycles r then some i else none
    else none

/-- An instance executes: `f` is its operator's effect. It acts only when the engine's next instance is due and is of
this operator; the run then advances by its cycles (R103). -/
def State.runInst (s : State) (n : Nat) (is : Inst → Bool) (f : State → Inst → State) : State :=
  match s.instDue n with
  | some i =>
    if is i then
      (f s i).upEng n fun e => { e with run := e.run.map fun r => { r with idx := r.idx + 1, cyc := r.cyc + i.cycles } }
    else s
  | none => s

/-- An operator row of engine `n`. -/
def opRow (reach : List Part) (t n op : Nat) (s : State) (f : State → Inst → State) : Out :=
  onUnit reach (n < 8) t s fun s => s.runInst n (fun i => i.op = op) f

/-! ### Trace (R95, R96) -/

/-- Bank `j` of the engine's trace list. -/
def State.traceBank (s : State) (n j : Nat) : Nat := bits (s.get (R.CE_TRC_BANK n (j / 4))) (8 * (j % 4)) 7

/-- A probe's value at the end of a run; space 0 writes 0. -/
def State.probe (s : State) (n p : Nat) : Nat :=
  let r := s.get (R.CE_TRC_PROBE n p)
  match refSpace r with
  | 1 => s.refRaw n r
  | 2 => s.refRaw n r
  | 4 => s.refRaw n r
  | _ => 0

/-- A run's trace record, and the end of a triggered trace. ARMED clears as DONE sets, which frees the banks; the spec does
not say (log entry 122). -/
def State.traceRecord (s : State) (n : Nat) : State :=
  if !s.is (R.CE_TRC_STAT_ARMED n) || s.is (R.CE_TRC_STAT_DONE n) then s
  else
    let e := s.eng n
    let w := e.trcIdx
    let b := s.traceBank n (w / 16384)
    let addr := 0x80000000 + 0x80000 * b + 32 * (w % 16384)
    -- a bank that the engine does not own takes no record: the access is refused and logged (R296, R298)
    let s := if b < 96 && s.bankAllows b (2 + s.engUnit n) then
        s.writeBytes addr ((List.range 8).flatMap fun p => leBytes 4 (s.probe n p))
      else if b < 96 then s.bankViol (2 + s.engUnit n) addr true else s
    let w' := (w + 1) % s.traceCap n
    let s := if w' = 0 then s.set1 (R.CE_TRC_STAT_WRAPPED n) else s
    let s := s.upEng n fun e => { e with trcIdx := w' }
    match e.trcPost with
    | some 0 =>
      let s := s.upEng n fun e => { e with trcPost := none }
      ((s.set1 (R.CE_TRC_STAT_DONE n)).clr (R.CE_TRC_STAT_ARMED n)).set1 (R.CE_INT_STAT_TRC_DONE n)
    | some (k + 1) => s.upEng n fun e => { e with trcPost := some k }
    | none => s

/-- Banks show whether an armed trace lists them (OWN.TRACE, R297). -/
def State.showTrace (s : State) : State :=
  (List.range 96).foldl (fun s b =>
    let listed := (List.range 8).any fun n => s.is (R.CE_TRC_STAT_ARMED n) &&
      (List.range (s.get (R.CE_TRC_CTL_NBANK_M1 n) + 1)).any fun j => s.traceBank n j = b
    if s.is (R.BNK_BK_OWN_TRACE b) = listed then s else s.put (R.BNK_BK_OWN_TRACE b) (b2n listed)) s

/-- Arming (R96): every listed bank must belong to the engine. ARM reads back 1 (R7); each write of 1 arms anew. -/
def State.traceArm (s : State) (n : Nat) : State :=
  let banks := (List.range (s.get (R.CE_TRC_CTL_NBANK_M1 n) + 1)).map fun j => s.traceBank n j
  let s := (s.clr (R.CE_TRC_STAT n)).set1 (R.CE_TRC_CTL_ARM n)
  if banks.all fun b => b < 96 && s.get (R.BNK_BK_OWN_OWNER b) = 2 + s.engUnit n then
    ((s.upEng n fun e => { e with trcIdx := 0, trcPost := none, trcNext := false }).set1 (R.CE_TRC_STAT_ARMED n)).showTrace
  else ((s.set1 (R.CE_TRC_STAT_ERR_NOT_OWNED n)).set1 (R.CE_INT_STAT_TRC_DONE n)).showTrace

/-- TRACE_ARM. -/
def execTraceArm (t n : Nat) (s : State) : Out := onUnit [.bnk, .ce] (n < 8) t s fun s => s.traceArm (s.phys n)

/-- TRC_TRIG. -/
def execTrcTrig (t n : Nat) (s : State) : Out := onUnit [.ce] (n < 8) t s fun s => s.traceTrigger (s.phys n)

/-! ### The run end (R85, R91, R95, R253) -/

/-- MTRACK: in automatic mode the instance's output is written into MAN (R91). -/
def State.mtrack (s : State) (n : Nat) (i : Inst) : State :=
  let mode := s.stU n i 0
  if (i.op = 0x10 || i.op = 0x11) && bit mode 1 && !bit mode 0 then
    (s.stKeep n i 1 (s.stF n i (if i.op = 0x10 then 5 else 3))).1
  else s

/-- The pair of a tracker that takes this engine's slots (R144, SRC = 1). -/
def State.trackRun (s : State) (n stamp : Nat) : State :=
  (List.range 4).foldl (fun s p =>
    let slot := s.get (R.PHT_PT_CFG_SLOT p)
    if s.get (R.PHT_PT_CFG_SRC p) = 1 ∧ s.phys (s.get (R.PHT_PT_CFG_ENG p)) = n ∧ slot < 1023 then
      s.trkDue p ((stamp : Int) - s.get (R.PHT_PT_COMP p)) (s.ceWord n (0x4000 + 4 * slot))
        (s.ceWord n (0x4004 + 4 * slot))
    else s) s

/-- The final signature (R253); a run whose checkpoints all agreed counts as matched (R264). -/
def State.signRun (s : State) (n : Nat) : State :=
  let s := s.checkpoint n true
  match (s.eng n).run with
  | some r => s.put (R.TWN_CE_SIG (s.engUnit n)) (r.sig ^^^ 0xFFFFFFFF)
  | none => s

/-- The last instance of a run has completed. -/
def State.runEnd (s : State) (n : Nat) : State :=
  match (s.eng n).run with
  | none => s
  | some r =>
    let st := s.get (R.CE_STAT_RSTORE n)
    if r.idx < s.recipeCount n st ∨ s.runCycles r < r.cyc then s
    else
      let s := (s.recipe n st).foldl (fun s i => s.mtrack n i) s
      let s := (s.traceRecord n).showTrace
      let s := s.signRun n
      let s := s.put (R.CE_CYCLES_LAST n) (min r.cyc 0xFFFF)
      let s := s.put (R.CE_CYCLES_MAX n) (max (s.get (R.CE_CYCLES_MAX n)) (min r.cyc 0xFFFF))
      let s := s.upEng n fun e => { e with run := none, endAt := some s.tb }
      let s := s.clr (R.CE_STAT_RUNNING n)
      let s := if r.onTime then s.fsRelease (108 + s.engUnit n) else s
      (s.trackRun n r.stamp).promote n

/-- An error in local memory or the latch that cannot be corrected (R97): the fault, and what the twin health word
remembers of it (R255). -/
def State.eccMark (s : State) (n : Nat) : State :=
  let s := if s.paired (s.engSheet n) then { s with twn := { s.twn with ecc := true } } else s
  s.engFault n (R.CE_FAULT_ECC n)

/-- Such an error stops the run in progress where it is (R97). -/
def State.eccFault (s : State) (n : Nat) : State :=
  let mid := (s.eng n).run.isSome
  let s := s.mailProgress
  let s := s.upEng n fun e => { e with run := none, endAt := some s.tb, midrun := e.midrun || mid }
  (s.clr (R.CE_STAT_RUNNING n)).eccMark n

end Sys2Proof.Machine
end

