-- ==== Sys2Proof/Machine/Loops.lean ====
section
/-!
DEFINITION. Operators of the catalogue (chapter 6): input and transforms, loops, matrices and machine behaviour
(R109–R119). Each operator reads all of its inputs before it writes (R103).
-/

namespace Sys2Proof.Machine

/-- Δt, the run's d_used, and its stamp. -/
def State.runDt (s : State) (n : Nat) : Nat := ((s.eng n).run.map (·.dt)).getD 0
def State.runD (s : State) (n : Nat) : Nat := ((s.eng n).run.map (·.dUsed)).getD 0
def State.runStamp (s : State) (n : Nat) : Nat := ((s.eng n).run.map (·.stamp)).getD 0

def vat (v : List Nat) (k : Nat) : Nat := v.getD k 0

/-- NOP (R101). -/
def execNop (t n : Nat) (s : State) : Out := opRow [.ce] t n 0x00 s fun s _ => s

/-! ### LOAD (R109) -/

def State.opLoad (s : State) (n : Nat) (i : Inst) : State :=
  let fix := ((s.eng n).run.map (·.fix)).getD {}
  let k := i.loadKind
  let trk := fix.trk.getD i.loadIndex (0, 0, false)
  if k = 2 then s.wrRef n i.out trk.1
  else if k = 3 then s.wrV n i.out [fcanon trk.2.1, fbool trk.2.2]
  else
    let key := 256 * k + i.loadIndex
    let (_, w, st) := (fix.words.find? (·.1 = key)).getD (key, 0, 0)
    let y := fadd (fmul (fofInt w) (s.coF n i 0)) (s.coF n i 1)
    let age := ofRat false (s.runStamp n - st) 16000000000
    s.wrV n i.out (if i.opt 4 then [y, age] else [y])
def execLoad (t n : Nat) (s : State) : Out := opRow [.ce, .mem] t n 0x01 s fun s i => s.opLoad n i

/-! ### Transforms (R110, R111) -/

def clarke (a b c : Nat) : Nat × Nat :=
  (fsub (fmul k23 a) (fmul k13 (fadd b c)), fmul kr3 (fsub b c))
def clarkeTwo (a b : Nat) : Nat × Nat := (a, fmul kr3 (fadd a (fmul f2 b)))
def iclarke (al be : Nat) : Nat × Nat × Nat :=
  let h := fmul fmHalf al
  let g := fmul kr32 be
  (al, fadd h g, fsub h g)

def State.opClarke (s : State) (n : Nat) (i : Inst) : State :=
  let v := s.rdV n i.in0 3
  let (al, be) := if i.opt 4 then clarkeTwo (vat v 0) (vat v 1) else clarke (vat v 0) (vat v 1) (vat v 2)
  s.wrV n i.out [al, be]
def execClarke (t n : Nat) (s : State) : Out := opRow [.ce, .mem] t n 0x08 s fun s i => s.opClarke n i

def State.opIclarke (s : State) (n : Nat) (i : Inst) : State :=
  let v := s.rdV n i.in0 2
  let (a, b, c) := iclarke (vat v 0) (vat v 1)
  s.wrV n i.out [a, b, c]
def execIclarke (t n : Nat) (s : State) : Out := opRow [.ce, .mem] t n 0x09 s fun s i => s.opIclarke n i

/-- θ of PARK and IPARK: IN2, with OFFS plus the coefficient word as a u32. -/
def State.parkAngle (s : State) (n : Nat) (i : Inst) : Nat :=
  let th := s.refRaw n i.in2
  if i.opt 4 then (th + s.coefRaw n i.coef) % 2 ^ 32 else th

def State.opPark (s : State) (n : Nat) (i : Inst) : State :=
  let v := s.rdV n i.in0 2
  let th := s.parkAngle n i
  let c := cosTurn th
  let sn := sinTurn th
  let d := fadd (fmul (vat v 0) c) (fmul (vat v 1) sn)
  let q := fsub (fmul (vat v 1) c) (fmul (vat v 0) sn)
  s.wrV n i.out [d, q]
def execPark (t n : Nat) (s : State) : Out := opRow [.ce, .mem] t n 0x0A s fun s i => s.opPark n i

def State.opIpark (s : State) (n : Nat) (i : Inst) : State :=
  let v := s.rdV n i.in0 2
  let th := s.parkAngle n i
  let c := cosTurn th
  let sn := sinTurn th
  let al := fsub (fmul (vat v 0) c) (fmul (vat v 1) sn)
  let be := fadd (fmul (vat v 0) sn) (fmul (vat v 1) c)
  s.wrV n i.out [al, be]
def execIpark (t n : Nat) (s : State) : Out := opRow [.ce, .mem] t n 0x0B s fun s i => s.opIpark n i

def State.opAngle (s : State) (n : Nat) (i : Inst) : State :=
  let th := (s.refRaw n i.in0 + turnsOf (s.rdF n i.in1) + s.coefRaw n i.coef) % 2 ^ 32
  if i.opt 4 then s.wrRef n i.out (fmul (fofInt (toS 32 th)) 0x2F800000) else s.wrRef n i.out th
def execAngle (t n : Nat) (s : State) : Out := opRow [.ce, .mem] t n 0x0C s fun s i => s.opAngle n i

/-! ### PI and RES (R91, R112, R113) -/

/-- PI: COEF KP KI XLO XHI ULO UHI; STATE MODE MAN STATUS X EPREV UPREV. -/
def State.opPi (s : State) (n : Nat) (i : Inst) : State :=
  let e := fsub (s.rdF n i.in0) (s.rdF n i.in1)
  let kp := s.coF n i 0
  let ki := s.coF n i 1
  let xlo := s.coF n i 2
  let xhi := s.coF n i 3
  let ulo := s.coF n i 4
  let uhi := s.coF n i 5
  let ext := s.rdV n i.in2 2
  let s := if i.opt 5 then
      let s := s.stPut n i 0 (withBit (s.stU n i 0) 0 (!isNan (vat ext 0) && !fzero (vat ext 0)))
      let (s, h) := s.stKeep n i 1 (vat ext 1)
      s.nanHold n i 2 h
    else s
  let x := s.stF n i 3
  let (s, u) :=
    if bit (s.stU n i 0) 0 then
      let man := s.stF n i 1
      let u := fsat man ulo uhi
      let s := s.status n i 2 1 (u ≠ man)
      let (x', xs) := clampFlag (fsub u (fmul kp e)) xlo xhi
      let s := s.status n i 2 0 xs
      let (s, h) := s.stKeep n i 3 x'
      (s.nanHold n i 2 h, u)
    else
      let xc := fadd x (fmul (fmul ki (s.runDt n)) e)
      let raw := fadd (fmul kp e) xc
      let xc := if (fgt raw uhi && fgt e f0) || (flt raw ulo && flt e f0) then x else xc
      let (x', xs) := clampFlag xc xlo xhi
      let s := if xs then s.status n i 2 0 true
        else if flt xlo xc && flt xc xhi then s.status n i 2 0 false else s
      let (s, h) := s.stKeep n i 3 x'
      let s := s.nanHold n i 2 h
      let raw := fadd (fmul kp e) (s.stF n i 3)
      let u := fsat raw ulo uhi
      (s.status n i 2 1 (u ≠ raw), u)
  let (s, h1) := s.stKeep n i 4 e
  let (s, h2) := s.stKeep n i 5 u
  (s.nanHold n i 2 (h1 || h2)).wrRef n i.out u
def execPi (t n : Nat) (s : State) : Out := opRow [.ce, .mem] t n 0x10 s fun s i => s.opPi n i

/-- RES: COEF KR H FB AMAX; STATE MODE MAN STATUS X1 X2. -/
def State.opRes (s : State) (n : Nat) (i : Inst) : State :=
  let e := fsub (s.rdF n i.in0) (s.rdF n i.in1)
  let kr := s.coF n i 0
  let amax := s.coF n i 3
  let inc := turnInc (rmul (fval (s.coF n i 1)) (fval (s.rdF n i.in2))) (s.coF n i 2) (s.runD n)
  let phi := match inc with | some (a, b) => turnMod (divRne a b) | none => 0
  let s := s.nanHold n i 2 inc.isNone
  let c := cosTurn phi
  let sn := sinTurn phi
  let x1 := s.stF n i 3
  let x2 := s.stF n i 4
  let (x1, x2) :=
    if bit (s.stU n i 0) 0 then (fsat (s.stF n i 1) (fneg amax) amax, f0)
    else
      let r1 := fsub (fmul x1 c) (fmul x2 sn)
      (fadd r1 (fmul (fmul kr (s.runDt n)) e), fadd (fmul x1 sn) (fmul x2 c))
  let a2 := fadd (fmul x1 x1) (fmul x2 x2)
  let ovr := fgt a2 (fmul amax amax)
  let k := fdiv amax (fsqrt a2)
  let (x1, x2) := if ovr then (fmul x1 k, fmul x2 k) else (x1, x2)
  let s := s.status n i 2 0 ovr
  let (s, h1) := s.stKeep n i 3 x1
  let (s, h2) := s.stKeep n i 4 x2
  let s := s.nanHold n i 2 (h1 || h2)
  s.wrRef n i.out (s.stF n i 3)
def execRes (t n : Nat) (s : State) : Out := opRow [.ce, .mem] t n 0x11 s fun s i => s.opRes n i

/-! ### MATVEC and OBS (R114, R115) -/

/-- acc = fl(acc + fl(K[j] × x[j])), j ascending. -/
def dot (acc : Nat) : List Nat → List Nat → Nat
  | k :: ks, x :: xs => dot (fadd acc (fmul k x)) ks xs
  | _, _ => acc

/-- A row of `c` coefficient words from word `k`. -/
def State.coRow (s : State) (n : Nat) (i : Inst) (k c : Nat) : List Nat := (List.range c).map fun j => s.coF n i (k + j)

def State.opMatvec (s : State) (n : Nat) (i : Inst) : State :=
  let x := s.rdV n i.in0 i.cols
  let b := s.rdV n i.in1 i.rows
  s.wrV n i.out ((List.range i.rows).map fun r =>
    dot (if i.opt 4 then vat b r else f0) (s.coRow n i (r * i.cols) i.cols) x)
def execMatvec (t n : Nat) (s : State) : Out := opRow [.ce, .mem] t n 0x18 s fun s i => s.opMatvec n i

/-- OBS: COEF Ac (n × n), Bc (n × m), Lc (n × p), Cm (p × n); STATE x̂. -/
def State.opObs (s : State) (n : Nat) (i : Inst) : State :=
  let d := i.obsN
  let m := i.obsM
  let p := i.obsP
  let u := s.rdV n i.in0 m
  let y := s.rdV n i.in1 p
  let xh := (List.range d).map fun k => s.stF n i k
  let cm := d * d + d * m + d * p
  let r := (List.range p).map fun k => fsub (vat y k) (dot f0 (s.coRow n i (cm + k * d) d) xh)
  let f := (List.range d).map fun k =>
    let a := dot f0 (s.coRow n i (k * d) d) xh
    let a := dot a (s.coRow n i (d * d + k * m) m) u
    dot a (s.coRow n i (d * d + d * m + k * p) p) r
  let dt := s.runDt n
  let s := (List.range d).foldl (fun s k => (s.stKeep n i k (fadd (vat xh k) (fmul dt (vat f k)))).1) s
  s.wrV n i.out ((List.range d).map fun k => s.stF n i k)
def execObs (t n : Nat) (s : State) : Out := opRow [.ce, .mem] t n 0x19 s fun s i => s.opObs n i

/-! ### Machine behaviour (R116–R119) -/

/-- SWING: COEF M D W0 FB DWLO DWHI; STATE STATUS DW FRAC WPREV; AUX the angle θ. -/
def State.opSwing (s : State) (n : Nat) (i : Inst) : State :=
  let pset := s.rdF n i.in0
  let p := s.rdF n i.in1
  let wc := s.rdF n i.in2
  let m := s.coF n i 0
  let d := s.coF n i 1
  let w0 := s.coF n i 2
  let fb := s.coF n i 3
  let th := s.refRaw n i.aux
  let dw := s.stF n i 1
  let frac := s.stF n i 2
  let acc := fsub (fsub pset p) (fmul d (fsub dw wc))
  let dwc := fadd dw (fmul (fdiv (s.runDt n) m) acc)
  let (dw', xs) := clampFlag dwc (s.coF n i 4) (s.coF n i 5)
  let s := s.status n i 0 0 xs
  let (s, h) := s.stKeep n i 1 dw'
  let s := s.nanHold n i 0 h
  let dw := s.stF n i 1
  let t := radd (turnInc (radd (fval w0) (fval dw)) fb (s.runD n)) (fval frac)
  let (s, th) := match t with
    | some (a, b) =>
      let cnt := divRne a b
      let fr := ofFrac (a - cnt * b) b
      (s.stPut n i 2 fr, turnMod ((th : Int) + cnt))
    | none => (s.status n i 0 2 true, th)
  let s := s.wrRef n i.aux th
  let w := fadd w0 dw
  let (s, h) := s.stKeep n i 3 w
  let s := s.nanHold n i 0 h
  s.wrV n i.out [w, dw]
def execSwing (t n : Nat) (s : State) : Out := opRow [.ce, .mem] t n 0x20 s fun s i => s.opSwing n i

/-- DROOP: COEF MD LO HI. -/
def State.opDroop (s : State) (n : Nat) (i : Inst) : State :=
  let v := fadd (s.rdF n i.in2) (fmul (s.coF n i 0) (fsub (s.rdF n i.in0) (s.rdF n i.in1)))
  s.wrRef n i.out (fsat v (s.coF n i 1) (s.coF n i 2))
def execDroop (t n : Nat) (s : State) : Out := opRow [.ce, .mem] t n 0x21 s fun s i => s.opDroop n i

/-- VIMP: COEF RV XV. -/
def State.opVimp (s : State) (n : Nat) (i : Inst) : State :=
  let e := s.rdV n i.in0 2
  let c := s.rdV n i.in1 2
  let rv := s.coF n i 0
  let xw := fmul (s.coF n i 1) (s.rdF n i.in2)
  let vd := fadd (fsub (vat e 0) (fmul rv (vat c 0))) (fmul xw (vat c 1))
  let vq := fsub (fsub (vat e 1) (fmul rv (vat c 1))) (fmul xw (vat c 0))
  s.wrV n i.out [vd, vq]
def execVimp (t n : Nat) (s : State) : Out := opRow [.ce, .mem] t n 0x22 s fun s i => s.opVimp n i

/-- ILIM: COEF IMAX HYST THOLD PRIO; STATE LMODE TIMER. -/
def State.opIlim (s : State) (n : Nat) (i : Inst) : State :=
  let v := s.rdV n i.in0 2
  let id := vat v 0
  let iq := vat v 1
  let imax := s.coF n i 0
  let m2 := fadd (fmul id id) (fmul iq iq)
  let lim2 := fmul imax imax
  let on := !fzero (s.stU n i 0)
  -- TIMER and LMODE are written only where the rule assigns them, and keep their patterns otherwise (R104)
  let s := if on then (s.stKeep n i 1 (fadd (s.stF n i 1) (s.runDt n))).1 else if fgt m2 lim2 then s.stPut n i 1 f0 else s
  let e := fmul imax (fsub f1 (s.coF n i 1))
  let was := on
  let on := if was then !(flt m2 (fmul e e) && fge (s.stF n i 1) (s.coF n i 2)) else fgt m2 lim2
  let s := if on = was then s else s.stPut n i 0 (fbool on)
  let (id, iq) :=
    if on && fgt m2 lim2 then
      if feq (s.coF n i 3) f0 then
        let k := fdiv imax (fsqrt m2)
        (fmul id k, fmul iq k)
      else
        let iq := fsat iq (fneg imax) imax
        let r := fsqrt (fsub lim2 (fmul iq iq))
        (fsat id (fneg r) r, iq)
    else (id, iq)
  s.wrV n i.out [id, iq, fbool on]
def execIlim (t n : Nat) (s : State) : Out := opRow [.ce, .mem] t n 0x23 s fun s i => s.opIlim n i

/-- FRT: COEF VDBL VDBH KQ IQMAX, VL0–3 TL0–3, VH0–3 TH0–3; STATE CL0–3 CH0–3. -/
def State.opFrt (s : State) (n : Nat) (i : Inst) : State :=
  let v := s.rdF n i.in0
  let dt := s.runDt n
  let s := (List.range 4).foldl (fun s k =>
    let lo := flt v (s.coF n i (4 + k))
    let hi := fgt v (s.coF n i (12 + k))
    let s := (s.stKeep n i k (if lo then fadd (s.stF n i k) dt else f0)).1
    (s.stKeep n i (4 + k) (if hi then fadd (s.stF n i (4 + k)) dt else f0)).1) s
  let trip := (List.range 4).any fun k =>
    fgt (s.stF n i k) (s.coF n i (8 + k)) || fgt (s.stF n i (4 + k)) (s.coF n i (16 + k))
  let vl := s.coF n i 0
  let vh := s.coF n i 1
  let kq := s.coF n i 2
  let iqm := s.coF n i 3
  let below := flt v vl
  let above := fgt v vh
  let st := if trip then f2 else if below || above then f1 else f0
  let iq := if below then fsat (fmul kq (fsub vl v)) f0 iqm
    else if above then fsat (fmul (fneg kq) (fsub v vh)) (fneg iqm) f0 else f0
  s.wrV n i.out [st, iq]
def execFrt (t n : Nat) (s : State) : Out := opRow [.ce, .mem] t n 0x24 s fun s i => s.opFrt n i

end Sys2Proof.Machine
end

