-- ==== Sys2Proof/Machine/Shaping.lean ====
section
/-!
DEFINITION. Operators of the catalogue (chapter 6): shaping, measurement, modulation, logic, and output and
housekeeping (R120–R126).
-/

namespace Sys2Proof.Machine

/-! ### Shaping (R120) -/

/-- RAMP: COEF RUP RDN LO HI; STATE STATUS Y. -/
def State.opRamp (s : State) (n : Nat) (i : Inst) : State :=
  let x := s.rdF n i.in0
  let y := s.stF n i 1
  let dt := s.runDt n
  let up := fmul (s.coF n i 0) dt
  let dn := fmul (s.coF n i 1) dt
  let dv := fsub x y
  let y := if fgt dv up then fadd y up else if flt dv (fneg dn) then fsub y dn else x
  let (y, xs) := clampFlag y (s.coF n i 2) (s.coF n i 3)
  let s := s.status n i 0 0 xs
  let (s, h) := s.stKeep n i 1 y
  (s.nanHold n i 0 h).wrRef n i.out (s.stF n i 1)
def execRamp (t n : Nat) (s : State) : Out := opRow [.ce, .mem] t n 0x28 s fun s i => s.opRamp n i

/-- LPF: COEF B0 B1 B2 A1 A2; STATE S1 S2. -/
def State.opLpf (s : State) (n : Nat) (i : Inst) : State :=
  let x := s.rdF n i.in0
  let y := fadd (fmul (s.coF n i 0) x) (s.stF n i 0)
  let s1 := fadd (fsub (fmul (s.coF n i 1) x) (fmul (s.coF n i 3) y)) (s.stF n i 1)
  let s2 := fsub (fmul (s.coF n i 2) x) (fmul (s.coF n i 4) y)
  let s := (s.stKeep n i 0 s1).1
  ((s.stKeep n i 1 s2).1).wrRef n i.out y
def execLpf (t n : Nat) (s : State) : Out := opRow [.ce, .mem] t n 0x29 s fun s i => s.opLpf n i

/-- LIMIT: COEF LO HI, or IN1 and IN2. -/
def State.opLimit (s : State) (n : Nat) (i : Inst) : State :=
  let lo := if i.opt 4 then s.rdF n i.in1 else s.coF n i 0
  let hi := if i.opt 5 then s.rdF n i.in2 else s.coF n i 1
  s.wrRef n i.out (fsat (s.rdF n i.in0) lo hi)
def execLimit (t n : Nat) (s : State) : Out := opRow [.ce, .mem] t n 0x2A s fun s i => s.opLimit n i

/-- LUT: N points X0 … X(N−1), then Y0 … Y(N−1). Where X0 is a NaN no Xk need lie at or below v, and k is then 0 (DESIGN
CHOICE, log entry 168). -/
def lut (xs ys : List Nat) (v : Nat) : Nat :=
  let last := xs.length - 1
  if isNan v || fle v (vat xs 0) then vat ys 0
  else if fge v (vat xs last) then vat ys last
  else
    let k := ((List.range last).filter fun k => fle (vat xs k) v).getLast?.getD 0
    let dx := fsub (vat xs (k + 1)) (vat xs k)
    if fle dx f0 then vat ys k
    else fadd (vat ys k) (fmul (fsub v (vat xs k)) (fdiv (fsub (vat ys (k + 1)) (vat ys k)) dx))

def State.opLut (s : State) (n : Nat) (i : Inst) : State :=
  s.wrRef n i.out (lut (s.coRow n i 0 i.lutN) (s.coRow n i i.lutN i.lutN) (s.rdF n i.in0))
def execLut (t n : Nat) (s : State) : Out := opRow [.ce, .mem] t n 0x2B s fun s i => s.opLut n i

/-! ### Measurement (R121) -/

/-- POWER: COEF TAU; STATE PF QF. -/
def State.opPower (s : State) (n : Nat) (i : Inst) : State :=
  let v := s.rdV n i.in0 2
  let c := s.rdV n i.in1 2
  let p := fadd (fmul (vat v 0) (vat c 0)) (fmul (vat v 1) (vat c 1))
  let q := fsub (fmul (vat v 1) (vat c 0)) (fmul (vat v 0) (vat c 1))
  if i.opt 4 then
    let dt := s.runDt n
    let a := fdiv dt (fadd (s.coF n i 0) dt)
    let pf := s.stF n i 0
    let qf := s.stF n i 1
    let s := (s.stKeep n i 0 (fadd pf (fmul a (fsub p pf)))).1
    let s := (s.stKeep n i 1 (fadd qf (fmul a (fsub q qf)))).1
    s.wrV n i.out [s.stF n i 0, s.stF n i 1]
  else s.wrV n i.out [p, q]
def execPower (t n : Nat) (s : State) : Out := opRow [.ce, .mem] t n 0x30 s fun s i => s.opPower n i

/-- RMS: COEF TW; STATE SUM TIME Y. -/
def State.opRms (s : State) (n : Nat) (i : Inst) : State :=
  let x := s.rdF n i.in0
  let dt := s.runDt n
  let s := (s.stKeep n i 0 (fadd (s.stF n i 0) (fmul (fmul x x) dt))).1
  let s := (s.stKeep n i 1 (fadd (s.stF n i 1) dt)).1
  let s :=
    if fge (s.stF n i 1) (s.coF n i 0) then
      let s := (s.stKeep n i 2 (fsqrt (fdiv (s.stF n i 0) (s.stF n i 1)))).1
      (s.stPut n i 0 f0).stPut n i 1 f0
    else s
  s.wrRef n i.out (s.stF n i 2)
def execRms (t n : Nat) (s : State) : Out := opRow [.ce, .mem] t n 0x31 s fun s i => s.opRms n i

/-! ### Modulation (R122) -/

/-- The four duties of one phase. -/
def svmPhase (v v0 mmax : Nat) : List Nat :=
  let m := fsat (fadd v v0) (fneg mmax) mmax
  let s1 := fmax m f0
  let neg := fmin m f0
  [s1, fadd f1 neg, fsub f1 s1, fneg neg]

/-- SVM3L: COEF KNP V0MAX MMAX. -/
def State.opSvm3l (s : State) (n : Nat) (i : Inst) : State :=
  let v := s.rdV n i.in0 2
  let dc := s.rdV n i.in1 2
  let (va, vb, vc) := iclarke (vat v 0) (vat v 1)
  let hi := fmax (fmax va vb) vc
  let lo := fmin (fmin va vb) vc
  let v0 := fmul fmHalf (fadd hi lo)
  let sgn := if fge (s.rdF n i.in2) f0 then f1 else fm1
  let lim := s.coF n i 1
  let np := fsat (fmul (fmul (s.coF n i 0) (fsub (vat dc 1) (vat dc 0))) sgn) (fneg lim) lim
  let v0 := fadd v0 np
  let mmax := s.coF n i 2
  s.wrV n i.out (svmPhase va v0 mmax ++ svmPhase vb v0 mmax ++ svmPhase vc v0 mmax)
def execSvm3l (t n : Nat) (s : State) : Out := opRow [.ce, .mem] t n 0x38 s fun s i => s.opSvm3l n i

/-! ### Logic (R123) -/

def State.opSelect (s : State) (n : Nat) (i : Inst) : State :=
  s.wrV n i.out (s.rdV n (if fzero (s.rdF n i.in2) then i.in0 else i.in1) i.w)
def execSelect (t n : Nat) (s : State) : Out := opRow [.ce, .mem] t n 0x40 s fun s i => s.opSelect n i

/-- COMPARE: COEF HYST; STATE PREVY; the mode in FLAGS[5:4]. -/
def State.opCompare (s : State) (n : Nat) (i : Inst) : State :=
  let a := s.rdF n i.in0
  let b := s.rdF n i.in1
  let was := !fzero (s.stU n i 0)
  let keep := was && !flt a (fsub b (s.coF n i 0))
  let y :=
    if isNan a || isNan b then false
    else match bits i.flags 4 2 with
      | 0 => fgt a b || keep
      | 1 => fge a b || keep
      | 2 => feq a b
      | _ => !feq a b
  (s.stPut n i 0 (fbool y)).wrRef n i.out (fbool y)
def execCompare (t n : Nat) (s : State) : Out := opRow [.ce, .mem] t n 0x41 s fun s i => s.opCompare n i

/-- GUARD: COEF LO HI RMAX N; STATE PREV CNT LATCH STATUS (bit 3 PRIMED). -/
def State.opGuard (s : State) (n : Nat) (i : Inst) : State :=
  let x := s.rdF n i.in0
  let prev := s.stF n i 0
  let primed := bit (s.stU n i 3) 3
  let inside := fle (s.coF n i 0) x && fle x (s.coF n i 1)
  let slow := fle (fabs (fsub x prev)) (fmul (s.coF n i 2) (s.runDt n))
  let good := inside && (!primed || slow)
  let s :=
    if good then ((s.stPut n i 0 x).stPut n i 1 f0).status n i 3 3 true
    else
      let (s, h) := s.stKeep n i 1 (fmin (fadd (s.stF n i 1) f1) f2p24)
      s.nanHold n i 3 h
  let s := if fge (s.stF n i 1) (s.coF n i 3) then s.stPut n i 2 f1 else s
  s.wrV n i.out [s.stF n i 0, fbool (!fzero (s.stU n i 2))]
def execGuard (t n : Nat) (s : State) : Out := opRow [.ce, .mem] t n 0x42 s fun s i => s.opGuard n i

def State.opSum (s : State) (n : Nat) (i : Inst) : State :=
  let a := s.rdV n i.in0 i.w
  let b := s.rdV n i.in1 i.w
  let c := s.rdV n i.in2 i.w
  s.wrV n i.out ((List.range i.w).map fun k => fsub (fadd (vat a k) (vat b k)) (vat c k))
def execSum (t n : Nat) (s : State) : Out := opRow [.ce, .mem] t n 0x44 s fun s i => s.opSum n i

def State.opMul (s : State) (n : Nat) (i : Inst) : State :=
  let a := s.rdV n i.in0 i.w
  let b := s.rdV n i.in1 i.w
  let k := s.coF n i 0
  s.wrV n i.out ((List.range i.w).map fun j =>
    if i.opt 4 then fadd (fmul (vat a j) k) (vat b j) else fmul (fmul (vat a j) (vat b j)) k)
def execMul (t n : Nat) (s : State) : Out := opRow [.ce, .mem] t n 0x45 s fun s i => s.opMul n i

/-! ### EMIT (R124) -/

/-- A period in seconds as 32.8 sub-ticks. -/
def emitPeriod (v : Nat) : Nat :=
  match fval v with
  | some (a, b) => (clampI 1 (2 ^ 40 - 1) (divRne (a * 4096000000000) b)).toNat
  | none => if fgt v f0 then 2 ^ 40 - 1 else 1

/-- A duty as 32.8 sub-ticks of a period: exact, then rounded. -/
def emitDuty (d p : Nat) : Nat :=
  match fval (fsat d f0 f1) with
  | some (a, b) => (divRne (a * p) b).toNat
  | none => 0

/-- EMIT: shadows in channel order, then LOADALL with LOAD, then the checkpoint of R253. -/
def State.opEmit (s : State) (n : Nat) (i : Inst) : State :=
  let g := s.get (R.CE_OUTCFG n)
  let d := s.rdV n i.in0 i.emitN
  let s := if i.opt 5 then
      let p := emitPeriod (s.rdF n i.in1)
      (s.shadowPeriod g p).sigAdd n (leBytes 8 p)
    else s
  let p := s.get (R.PWM_PG_PERIOD_SH g)
  let first := bits i.aux 0 6
  let s := (List.range i.emitN).foldl (fun s k =>
    let v := emitDuty (vat d k) p
    if first + k < 48 then (s.shadowDuty (first + k) v).sigAdd n (leBytes 8 v) else s) s
  let s := if i.opt 4 then s.requestLoad g else s
  s.checkpoint n
def execEmit (t n : Nat) (s : State) : Out := opRow [.mld, .ce, .pwm, .fmx, .lne, .tsu, .twn, .ldg] t n 0x48 s fun s i => s.opEmit n i

/-! ### MAILBOX (R93, R94, R125) -/

/-- The transmit slots that watch a mailbox slot have its new buffer to send (R218). -/
def State.slotNotice (s : State) (slot b : Nat) : State :=
  let ns := (List.range 16).filter fun n => s.is (R.NET_TXS_CFG_EN n) && s.get (R.NET_TXS_SLOT n) = slot
  s.upNet fun x => { x with slotDue := x.slotDue ++ ns.map (·, b) }

/-- A write: words 1–15 of buffer m mod 2, then SEQ, then the checkpoint of R253. -/
def State.opMailWrite (s : State) (n : Nat) (i : Inst) : State :=
  let (m, body) := s.mailMessage n i
  let s := s.stPut n i 0 m
  let a := mailBuffer i.slot (m % 2)
  let s := (s.writeBytes (a + 4) body).sigAdd n body
  let s := ((s.writeLe a 4 m).slotNotice i.slot (m % 2)).sigAdd n (leBytes 4 m)
  s.checkpoint n
def execMailboxWrite (t n : Nat) (s : State) : Out :=
  laneUnit [.mld, .ce, .pwm, .fmx, .lne, .net, .tsu, .twn, .ldg, .mem] (n < 8) t s fun s => s.runInst n (fun i => i.op = 0x49 && !i.opt 4) fun s i => s.opMailWrite n i

/-- A read of the input copy taken at the run start. -/
def State.opMailRead (s : State) (n : Nat) (i : Inst) : State :=
  let mb := mailInputs (s.recipe n (s.get (R.CE_STAT_RSTORE n)))
  let a := 0x5400 + 64 * mb.idxOf i.slot
  let seq := s.ceWord n a
  let data := (List.range 14).map fun k => fcanon (s.ceWord n (a + 8 + 4 * k))
  let d := (s.runStamp n + 2 ^ 32 - s.ceWord n (a + 4) % 2 ^ 32) % 2 ^ 32
  let age := if seq = 0 then fm1 else ofRat false d 16000000000
  let fresh := fbool (seq ≠ s.stU n i 0)
  let s := s.stPut n i 0 seq
  s.wrV n i.out (data ++ [age, fresh])
def execMailboxRead (t n : Nat) (s : State) : Out :=
  onUnit [.ce, .mem] (n < 8) t s fun s => s.runInst n (fun i => i.op = 0x49 && i.opt 4) fun s i => s.opMailRead n i

/-! ### EVENT and TRACE (R126) -/

/-- The rising transition: STATE word 0 takes IN0's truth; the answer says whether it rose. -/
def State.rising (s : State) (n : Nat) (i : Inst) : State × Bool :=
  let now := !fzero (s.rdF n i.in0)
  (s.stPut n i 0 (fbool now), now && fzero (s.stU n i 0))

/-- EVENT. Of a sheet that CE7 carries the engine number and the record's unit are those of the engine the sheet came from
(DESIGN CHOICE, log entry 169). -/
def State.opEvent (s : State) (n : Nat) (i : Inst) : State :=
  let v := s.rdV n i.in1 8
  let u := s.engUnit n
  let (s, rose) := s.rising n i
  if rose then
    let pay := v.flatMap (leBytes 4 ·) ++ leBytes 4 (s.runStamp n) ++ leBytes 1 u ++ leBytes 1 i.idx ++ [0, 0]
    s.ldgPost (if i.opt 4 then 1 else 2) (bits i.aux 0 8) (bits i.aux 8 4) 0x0A u pay
  else s
def execEvent (t n : Nat) (s : State) : Out := opRow [.ce, .ldg, .mem] t n 0x4A s fun s i => s.opEvent n i

def State.opTrace (s : State) (n : Nat) (i : Inst) : State :=
  let (s, rose) := s.rising n i
  if rose then s.traceTrigger n else s
def execTrace (t n : Nat) (s : State) : Out := opRow [.ce, .mem] t n 0x4B s fun s i => s.opTrace n i

end Sys2Proof.Machine
end

