-- ==== Sys2Proof/Machine/EngineCmd.lean ====
section
/-!
DEFINITION. Commands and checks of the control engines: the recipe check, release, swaps, stage writes, ECC stops, and
the move to CE7 (R80, R88, R92, R97–R99). A command that names an engine's register unit reaches CE7 after a move.
-/

namespace Sys2Proof.Machine

/-! ### The recipe check (R80, R97) -/

/-- The check of the active store (at release) or of the inactive one (for a swap) begins. -/
def State.checkStart (s : State) (n : Nat) (inactive : Bool) : State :=
  (s.upEng n fun e => { e with check := some (inactive, s.tb) }).set1 (R.CE_STAT_CHECKING n)

/-- A tick selection that names no event (R97). -/
def State.tickBad (s : State) (n : Nat) : Bool :=
  let sel := s.get (R.CE_TICK_SEL n)
  match s.get (R.CE_TICK_KIND n) with
  | 0 => 15 < sel
  | 1 => 31 < sel
  | 2 => !isTap sel
  | _ => false

/-- The check of the active store ends: the engine starts, or is faulted. -/
def State.checkRelease (s : State) (n : Nat) (pass : Bool) : State :=
  let s := if pass then s else s.engFault n (R.CE_FAULT_CHECK n)
  let s := if s.tickBad n then s.engFault n (R.CE_FAULT_TICKCFG n) else s
  if !pass || s.tickBad n then s
  else
    let s := (s.upEng n fun e => { e with ready := true }).showLive n
    if s.is (R.CE_SWAP_RECIPE n) && (s.eng n).recipeOk.isNone then s.checkStart n true else s

/-- The check of the inactive store ends (R88): a failure drops the swap, and a coefficient swap that joined it. -/
def State.checkSwap (s : State) (n : Nat) (pass : Bool) : State :=
  if pass then s.upEng n fun e => { e with recipeOk := some s.tb }
  else
    let s := (s.clr (R.CE_SWAP_RECIPE n)).set1 (R.CE_INT_STAT_SWAP_ERR n)
    if (s.eng n).joined then
      (s.clr (R.CE_SWAP_COEF n)).upEng n fun e => { e with coefAt := none, joined := false }
    else s

/-- RECIPE_CHECK_DONE. -/
def State.checkDone (s : State) (n : Nat) : State :=
  match (s.eng n).check with
  | none => s
  | some (inactive, t0) =>
    let st := s.get (R.CE_STAT_RSTORE n)
    let st := if inactive then 1 - st else st
    if s.tb < t0 + s.recipeCheckTime n st then s
    else
      let (code, idx) := s.recipeCheck n st
      let s := (s.put (R.CE_SWAP_STAT_ERR_CODE n) code).put (R.CE_SWAP_STAT_ERR_INDEX n) idx
      let s := (s.upEng n fun e => { e with check := none }).clr (R.CE_STAT_CHECKING n)
      if inactive then s.checkSwap n (code = 0) else s.checkRelease n (code = 0)

def execRecipeCheckDone (t n : Nat) (s : State) : Out := laneUnit [.ce, .pwm, .fmx, .lne, .twn, .ldg, .hlt] (n < 8) t s fun s => s.checkDone n

/-- An engine's sheet is released (R80, R81, R84): the divider and the run number restart and the active store is
checked, and after it the store of a pending recipe swap again; a spare CE7 does nothing (R98). -/
def State.engRelease (s : State) (n : Nat) : State :=
  if s.spare n then s.showLive n
  else
    let s := s.upEng n fun e => { e with ready := false, div := 0, firstNext := true, runNo := 0, recipeOk := none }
    (s.showLive n).checkStart n false

/-- A move refuses with a code of MOVE_STAT.ERR, and sets reason ENGINE. -/
def State.moveRefuse (s : State) (code : Nat) : State :=
  ((s.put R.CE7_MOVE_STAT_ERR code).set1 (R.CE_INT_STAT_MOVE_ERR 7)).hltReason 3

/-- A move's run boundary (R98): tick routing passes to CE7 and the copy begins; an engine that an ECC fault stopped in
mid-run refuses. -/
def State.moveBoundary (s : State) : State :=
  match s.move with
  | some m =>
    if m.phase ≠ 0 || (s.eng m.src).run.isSome then s
    else if (s.eng m.src).midrun then (({ s with move := none }).clr R.CE7_MOVE_STAT_BUSY).moveRefuse 3
    else ({ s with move := some { m with phase := 1, since := s.tb } }).showLive m.src
  | none => s

/-- An uncorrectable error in local memory or in the tick latch (R97). -/
def execEngineEccFault (t n : Nat) (s : State) : Out := laneUnit [.ce, .pwm, .fmx, .lne, .twn, .ldg, .hlt, .mem] (n < 8) t s fun s => (s.eccFault n).moveBoundary

/-! ### Swaps and stage writes (R88, R92) -/

/-- CEn_SWAP.COEF: it joins a recipe swap that is pending or under check. -/
def State.coefSwap (s : State) (n : Nat) : State :=
  if s.is (R.CE_SWAP_COEF n) then s
  else (s.set1 (R.CE_SWAP_COEF n)).upEng n fun e =>
    { e with coefAt := some s.tb, joined := s.is (R.CE_SWAP_RECIPE n) }
def execCoefSwapRequest (t n : Nat) (s : State) : Out := onUnit [.ce] (n < 8) t s fun s => s.coefSwap (s.phys n)

/-- CEn_SWAP.RECIPE: the inactive store's check begins. -/
def State.recipeSwap (s : State) (n : Nat) : State :=
  if s.is (R.CE_SWAP_RECIPE n) then s
  else
    let s := s.set1 (R.CE_SWAP_RECIPE n)
    if (s.eng n).check.isSome then s else s.checkStart n true
def execRecipeSwapRequest (t n : Nat) (s : State) : Out := onUnit [.ce] (n < 8) t s fun s => s.recipeSwap (s.phys n)

/-- Words of a stage target. -/
def stageSize : Nat → Nat
  | 0 => 1024 | 1 => 1024 | 2 => 10240 | _ => 1

/-- Whether a stage write is refused. -/
def State.stageBad (s : State) (n : Nat) : Bool :=
  let tg := s.get (R.CE_STAGE_ADDR_TARGET n)
  stageSize tg ≤ s.get (R.CE_STAGE_ADDR_INDEX n) ||
  (match tg with
    | 0 => s.is (R.CE_SWAP_RECIPE n)
    | 1 => s.is (R.CE_SWAP_COEF n)
    | 2 => 64 ≤ (s.eng n).queue.length
    | _ => s.is (R.CE_SWAP_RECIPE n))

/-- A word written to CEn_STAGE_DATA. -/
def State.stageWrite (s : State) (n v : Nat) : State :=
  if s.stageBad n then (s.set1 (R.CE_INT_STAT_STAGE_ERR n)).errResp
  else
    let i := s.get (R.CE_STAGE_ADDR_INDEX n)
    let st := 1 - s.get (R.CE_STAT_RSTORE n)
    let cb := 1 - s.get (R.CE_STAT_CBANK n)
    let s := match s.get (R.CE_STAGE_ADDR_TARGET n) with
      | 0 => s.ceSet n (0x1000 * st + 4 * i) v
      | 1 => s.ceSet n (0x2000 + 0x1000 * cb + 4 * i) v
      | 2 =>
        let s := s.upEng n fun e => { e with queue := e.queue ++ [(i, v % 2 ^ 32, s.tb)] }
        s.put (R.CE_STAGE_ADDR_QUEUED n) (s.eng n).queue.length
      | _ => if st = 0 then s.put (R.CE_RCOUNT_A n) v else s.put (R.CE_RCOUNT_B n) v
    (s.put (R.CE_STAGE_ADDR_INDEX n) (i + 1)).okResp
def execStageWrite (t n word : Nat) (s : State) : Out := onUnit [.ce, .mem, .bus] (n < 8) t s fun s => s.stageWrite (s.phys n) word

/-- CLR_CYCMAX (R100). -/
def execClrCycmax (t n : Nat) (s : State) : Out := onUnit [.ce] (n < 8) t s fun s => s.clr (R.CE_CYCLES_MAX (s.phys n))

/-! ### The move to CE7 (R98, R99) -/

/-- A range of memory copied, cell by cell. -/
def State.copyMem (s : State) (src dst len : Nat) : State :=
  let cells := s.mem.filter fun c => src ≤ c.1 && c.1 < src + len
  cells.foldl (fun s c => s.setByte (c.1 - src + dst) c.2) (s.fillZero dst len)

/-- A move is requested by firmware, or by AUTOMOVE at a TEST fault. -/
def State.moveStart (s : State) (n : Nat) : State :=
  let busy := !s.is (R.CE_RUNCTL_SPARE 7) || s.is R.CE7_MOVE_STAT_CARRYING || s.move.isSome
  let s := if s.is R.CE7_MOVE_STAT_CARRYING || s.move.isSome then s else s.put R.CE7_MOVE_STAT_SRC n
  if busy then s.moveRefuse 1
  else if n = 7 then s.moveRefuse 2
  else if (s.eng n).midrun then s.moveRefuse 3
  else
    let s := (s.clr R.CE7_MOVE_STAT_ERR).set1 R.CE7_MOVE_STAT_BUSY
    ({ s with move := some { src := n, phase := 0, since := s.tb } }).moveBoundary
def execMoveRequest (t src : Nat) (s : State) : Out := onUnit [.ce, .ldg, .hlt] (src < 8) t s fun s => s.moveStart src

/-- The unit's registers that go with the sheet: all but RUNCTL, whose EN and OVR_LIMIT go, and FAULT, the interrupt
and the ECC count. -/
def State.moveRegs (s : State) (n : Nat) : State :=
  let base := 0x400A0000 + 0x2000 * n
  let keep (i : Nat) : Bool := i ≠ 0 && i ≠ 7 && i ≠ 8 && i ≠ 9 && i ≠ 30
  let s := ((List.range 64).filter keep).foldl (fun s i => s.setWord (0x400AE000 + 4 * i) (s.word (base + 4 * i))) s
  (s.put (R.CE_RUNCTL_EN 7) (s.get (R.CE_RUNCTL_EN n))).put (R.CE_RUNCTL_OVR_LIMIT 7) (s.get (R.CE_RUNCTL_OVR_LIMIT n))

/-- MOVE_COPY_END, 2 048 cycles after the run boundary: local memory and state are at CE7, or an uncorrectable word ends the
move and is a fault of the engine that holds it (R97). -/
def State.moveCopied (s : State) (eccBad : Bool) : State :=
  match s.move with
  | some m =>
    if m.phase ≠ 1 ∨ s.tb < m.since + 2048 * s.cycleLen then s
    else if eccBad then
      (({ s with move := none }).clr R.CE7_MOVE_STAT_BUSY |>.moveRefuse 4).eccMark m.src
    else
      let s := s.copyMem (ceBase m.src) (ceBase 7) 0x10000
      { s with move := some { m with phase := 2, since := s.tb } }
  | none => s
def execMoveCopyEnd (t : Nat) (eccBad : Bool) (s : State) : Out :=
  laneAct [.ce, .pwm, .fmx, .lne, .twn, .ldg, .hlt, .mem] t s (·.moveCopied eccBad)

/-- An engine's test interval begins anew, where the engine is tested from now on (R367). -/
def State.testFrom (s : State) (n : Nat) : State :=
  { s with hlt := { s.hlt with tests := upd s.hlt.tests n fun _ => { from_ := s.tb } } }

/-- CE7 carries the sheet of engine `n` from here on (R99). -/
def State.carry (s : State) (n : Nat) : State :=
  (((s.put R.CE7_MOVE_STAT_SRC n).set1 R.CE7_MOVE_STAT_CARRYING).set1 (R.CE_STAT_MOVED n)).set1 (R.CE_STAT_MOVED 7)

/-- MOVE_DONE, 128 ns later: rebinding ends. The trace goes with the sheet, so the engine left behind arms none; CE7's test
interval counts from here (R367). -/
def State.moveDone (s : State) : State :=
  match s.move with
  | some m =>
    if m.phase ≠ 2 ∨ s.tb < m.since + 2048 then s
    else
      let n := m.src
      let s := (s.promote n).moveRegs n
      let e := s.eng n
      let s := s.upEng 7 fun _ => { e with pend := e.pend.map fun k => { k with waited := true } }
      let s := (s.upEng n fun _ => {}).clr (R.CE_TRC_STAT n)
      let s := (s.put (R.CE_STAT_PENDING 7) (b2n e.pend.isSome)).testFrom 7
      let s := { s with move := none }
      let s := ((s.clr (R.CE_FAULT n)).carry n).clr R.CE7_MOVE_STAT_BUSY
      let s := (s.set1 (R.CE_INT_STAT_MOVE_DONE 7)).showLive 7
      ((s.showLive n).clr (R.CE_STAT_RUNNING n)).fsRelease (116 + n)
  | none => s
def execMoveDone (t : Nat) (s : State) : Out := laneAct [.ce, .pwm, .fmx, .lne, .hlt, .twn] t s State.moveDone

end Sys2Proof.Machine
end

