-- ==== Sys2Proof/Machine/Screen.lean ====
section
/-!
DEFINITION. The screen chains (chapter 4, R62–R75): decimation, taps, phase resets, windows and fast windows.
-/

namespace Sys2Proof.Machine

/-! ### Requesters -/

/-- Requesters of register and memory accesses: cores 0–3, Glean channels from 4, engines from 36, then NET, LDG, TWN and
the Sweeper. -/
def whoGlean (c : Nat) : Nat := 4 + c
def whoNet : Nat := 44
def whoSweeper : Nat := 47

/-- A holding copy taken for a requester (R12, R55, R75); the next one of the same word replaces it. -/
def State.hold (s : State) (who addr word : Nat) : State :=
  { s with holding := { who := who, addr := addr, word := word } ::
      s.holding.filter fun h => !(h.who = who && h.addr = addr) }

/-! ### Stages (R62–R64) -/

/-- The coefficients of stage `k` at odd distances 1, 3, … from the centre (Table 4-2). -/
def stageCoefs (k : Nat) : List Int :=
  if k = 6 then [20224, -5568, 2240, -832, 320]
  else if k = 7 then [20720, -6720, 3776, -2368, 1536, -992, 624, -368, 192, -16]
  else [19840, -4224, 768]

/-- The distance of the last tap from the centre: N of a filter of 2N + 1 taps. -/
def stageHalf (k : Nat) : Nat := 2 * (stageCoefs k).length - 1

/-- Stage `k`'s exact sum over its history, newest first, divided by 2^16 with ties to even. -/
def stageOut (k : Nat) (h : List Int) : Int :=
  let n := stageHalf k
  let at_ (i : Nat) : Int := h.getD i 0
  let cs := stageCoefs k
  let odd := ((List.range cs.length).zip cs).foldl (fun a (i, c) =>
    a + c * (at_ (n - (2 * i + 1)) + at_ (n + (2 * i + 1)))) (0 : Int)
  divRne (32768 * at_ n + odd) 65536

/-- A word enters a history: the first one presets it whole (R65). -/
def stagePush (k : Nat) (h : List Int) (x : Int) : List Int :=
  let len := 2 * stageHalf k + 1
  if h.isEmpty then List.replicate len x else (x :: h).take len

/-! ### Windows (R71, R72) -/

/-- The signed value of a 24-bit bound. -/
def State.s24 (s : State) (f : RF) : Int := toS 24 (s.get f)

/-- Whether a window's configuration never arms (R72). -/
def State.winBad (s : State) (w : Nat) : Bool :=
  let h : Int := s.get (R.SCR_WIN_HYST w)
  s.get (R.SCR_WIN_CFG_STAGE w) = 0 || s.s24 (R.SCR_WIN_HI w) - h < s.s24 (R.SCR_WIN_LO w) + h

/-- CFGERR and the armed state follow a window's configuration. What the spec does not say (log entry 120): OUT stays as
it stands when a fired window is disabled or meets R72, and an armed window stays armed when STAGE, LO, HI or HYST is
written. -/
def State.winConfig (s : State) (w : Nat) : State :=
  let i := w / 2
  let u := w % 2
  let bad := s.is (R.SCR_WIN_CFG_EN w) && s.winBad w
  let was := bit (s.get (R.SCR_WIN_CFGERR u)) i
  let s := s.put (R.SCR_WIN_CFGERR u) (withBit (s.get (R.SCR_WIN_CFGERR u)) i bad)
  let s := if bad && !was then s.set1 R.SCR_INT_STAT_WCFG else s
  if bad || !s.is (R.SCR_WIN_CFG_EN w) then { s with scr := { s.scr with armed := withBit s.scr.armed w false } } else s

/-- A window meets a word of its stage (R71). -/
def State.winWord (s : State) (w : Nat) (x : Int) : State :=
  let i := w / 2
  let u := w % 2
  let lo := s.s24 (R.SCR_WIN_LO w)
  let hi := s.s24 (R.SCR_WIN_HI w)
  let h : Int := s.get (R.SCR_WIN_HYST w)
  if lo + h ≤ x ∧ x ≤ hi - h then
    let s := { s with scr := { s.scr with armed := withBit s.scr.armed w true } }
    s.andn (R.SCR_WIN_OUT u) (2 ^ i)
  else if bit s.scr.armed w && (x < lo || hi < x) then
    let s := { s with scr := { s.scr with armed := withBit s.scr.armed w false } }
    ((s.orr (R.SCR_WIN_OUT u) (2 ^ i)).orr (R.SCR_WIN_FLAG u) (2 ^ i)).set1 R.SCR_INT_STAT_WIN
  else s

/-- The windows of input `i` on stage `k` meet a word. -/
def State.winTap (s : State) (i k : Nat) (x : Int) : State :=
  [2 * i, 2 * i + 1].foldl (fun s w =>
    let s := s.winConfig w
    if s.is (R.SCR_WIN_CFG_EN w) && !s.winBad w && s.get (R.SCR_WIN_CFG_STAGE w) = k then s.winWord w x else s) s

/-! ### Taps (R65–R67) -/

/-- Tap word `x` of stage `k` of input `i`, stamped `st`: shown, latched, and met by windows and trackers. -/
def State.tapEmit (s : State) (i k st : Nat) (x : Int) : State :=
  let tap := 8 * i + (k - 1)
  let s := (s.put (R.SCR_TAP_VAL tap) (ofS 32 x)).put (R.SCR_TAP_STAMP tap) (st % 2 ^ 32)
  let s := { s with scr := { s.scr with taps := upd s.scr.taps tap fun l => ((st, x) :: l).take 2 } }
  (s.winTap i k x).trkTap tap

/-- Stage `k` takes a word and, when its phase condition `emit` holds, delivers one: the word, saturated (R64). -/
def State.stageTake (s : State) (i k : Nat) (emit : Bool) (st : Nat) (x : Int) : State × Option Int :=
  let h := stagePush k ((s.chain i).hist.getD (k - 1) []) x
  let s := s.upChain i fun c => { c with hist := c.hist.set (k - 1) h }
  if emit then
    let y := stageOut k h
    let z := satS 24 y
    let s := if z ≠ y then (s.orr (R.SCR_SAT (k - 1)) (2 ^ i)).set1 R.SCR_INT_STAT_SAT else s
    (s.tapEmit i k st z, some z)
  else (s, none)

/-- Stages `k` on, while each delivers. -/
def State.stagesFrom (s : State) (i st : Nat) (emit : Nat → Bool) : List Nat → Int → State
  | [], _ => s
  | k :: ks, x =>
    match s.stageTake i k (emit k) st x with
    | (s, some y) => s.stagesFrom i st emit ks y
    | (s, none) => s

/-- A main-path word of phase `j` enters its chain (R65). -/
def State.chainWord (s : State) (i j st : Nat) (x : Int) : State :=
  s.stagesFrom i st (fun k => (j + 1) % 2 ^ k = 0) [1, 2, 3, 4, 5, 6, 7] x

/-- A watch word: H1–H4 present it, and it enters H5 directly. -/
def State.chainWatch (s : State) (i j st : Nat) (x : Int) : State :=
  let s := [1, 2, 3, 4].foldl (fun s k => s.tapEmit i k st x) s
  s.stagesFrom i st (fun k => (j + 16) % 2 ^ k = 0) [5, 6, 7] x

/-- A chain's phase count at the next frame `f`, which is its group's watch frame or not (R65, R68). -/
def State.chainFrame (s : State) (i f : Nat) (watch : Bool) : State :=
  let c := s.chain i
  let j := if !c.begun then (f / 800) % 128
    else match c.resetAt with
      | some r => if r ≤ f then ((f - r) / 800) % 128 else (s.get (R.SCR_PH i) + c.adv) % 128
      | none => (s.get (R.SCR_PH i) + c.adv) % 128
  (s.put (R.SCR_PH i) j).upChain i fun c =>
    { c with begun := true, frameAt := f, adv := if watch then 16 else 1, resetAt := c.resetAt.filter (f < ·) }

/-! ### Phase reset and SYNC (R68–R70) -/

/-- Where resets come from, whether SYNC is driven for them, and which chains they select; in a pair the twin unit sets
the direction, and a follower takes the journal source's mask (R247). -/
def State.syncSrc (s : State) : Nat :=
  if s.is R.TWN_CTL_EN && !s.is R.TWN_STAT_JSRC then 1 else s.get R.SCR_SYNC_CFG_SRC
def State.syncDrives (s : State) : Bool :=
  (if s.is R.TWN_CTL_EN then s.is R.TWN_STAT_JSRC else s.is R.SCR_SYNC_CFG_OUT) && s.get R.SCR_SYNC_CFG_SRC ≠ 1
def State.syncMask (s : State) : Nat :=
  match s.twn.partner with
  | some h => if s.is R.TWN_CTL_EN && !s.is R.TWN_STAT_JSRC then h.mask else s.get R.SCR_SYNC_MASK
  | none => s.get R.SCR_SYNC_MASK

/-- The first frame instant at or after `x`. -/
def frameAt (x : Nat) : Nat := (x + 799) / 800 * 800

/-- The accepted reset takes effect at F0: every selected chain restarts its phase, which counts from F0 on; one in watch
mode at the first watch frame instant at or after F0. What the reset shows follows F0 for these chains too (DESIGN CHOICE, log
entry 167). -/
def State.applyReset (s : State) : State :=
  match s.scr.f0 with
  | some f =>
    if s.tb < f then s
    else
      let s := { s with scr := { s.scr with f0 := none } }
      let mask := s.syncMask
      let s := (List.range 32).foldl (fun s i =>
        if !bit mask i then s
        else if (s.adc (i / 8)).watchOn then s.upChain i fun c => { c with resetAt := some ((f + 12799) / 12800 * 12800) }
        else (s.put (R.SCR_PH i) 0).upChain i fun c =>
          { c with adv := (frameAt s.tb - f) / 800, frameAt := f, resetAt := none }) s
      (((s.put R.SCR_SYNC_LAST (f % 2 ^ 32)).bumpWrap R.SCR_SYNC_STAT_COUNT)).set1 R.SCR_INT_STAT_SYNC
  | none => s

/-- A reset request for F0 = `f`; `out` says that it comes from a trigger or a command (R69, R70). -/
def State.resetRequest (s : State) (f : Nat) (out : Bool) : State :=
  let s := s.applyReset
  match s.scr.f0 with
  | some _ => (s.bump R.SCR_SYNC_STAT_IGN).set1 R.SCR_INT_STAT_SYNC_IGN
  | none =>
    let drive := out && s.syncDrives
    { s with scr := { s.scr with f0 := some f, drive := if drive then s.scr.drive ++ [f] else s.scr.drive } }

/-- A rising edge on the SYNC pin. -/
def State.syncPin (s : State) : State :=
  if s.syncSrc = 1 then s.resetRequest (frameAt (s.tb + 1600)) false else s
def execSyncPinEdge (t : Nat) (s : State) : Out := act [.scr] t s State.syncPin

/-- A write of RESET to SCR_SYNC_CMD. -/
def State.syncCommand (s : State) : State := s.resetRequest (frameAt (s.tb + 2400)) true
def execSyncReset (t : Nat) (s : State) : Out := act [.scr] t s State.syncCommand

/-- Time trigger `k` fires at `x`. -/
def State.syncTrigger (s : State) (k x : Nat) : State :=
  if s.syncSrc = 2 ∧ s.get R.SCR_SYNC_CFG_TT = k then s.resetRequest (frameAt (x + 2400)) true else s

/-- PHASE_RESET: the reset frame comes. -/
def execPhaseReset (t : Nat) (s : State) : Out := act [.scr] t s State.applyReset

/-- SYNC_OUTPUT_EDGE: SYNC is high from F0 − 125 ns to F0 + 75 ns (R69). -/
def State.syncOutput (s : State) : State :=
  let high := s.scr.drive.any fun f => f ≤ s.tb + 2000 && s.tb < f + 1200
  { s with scr := { s.scr with syncOut := high, drive := s.scr.drive.filter fun f => s.tb < f + 1200 } }
def execSyncOutputEdge (t : Nat) (s : State) : Out := act [.scr] t s State.syncOutput

/-! ### Fast windows (R73) -/

/-- A fast window meets a main-path word. -/
def State.fastWord (s : State) (i : Nat) (x : Int) : State :=
  if !s.is (R.SCR_FW_CFG_EN i) then s
  else
    let n := s.get (R.SCR_FW_CFG_CNT i) + 1
    let outside := x < s.s24 (R.SCR_FW_LO i) || s.s24 (R.SCR_FW_HI i) < x
    let s := s.upChain i fun c =>
      if outside then { c with outs := min (c.outs + 1) 16, ins := 0 } else { c with outs := 0, ins := min (c.ins + 1) 16 }
    let c := s.chain i
    let on := bit (s.get R.SCR_FW_OUT) i
    if !on && n ≤ c.outs then
      (((s.orr R.SCR_FW_OUT (2 ^ i)).orr R.SCR_FW_FLAG (2 ^ i)).set1 R.SCR_INT_STAT_FW).fsAssert (16 + i)
    else if on && n ≤ c.ins then (s.andn R.SCR_FW_OUT (2 ^ i)).fsRelease (16 + i)
    else s

/-- EN of a fast window changes: the count starts anew; clearing it releases the source. -/
def State.fastEnable (s : State) (i : Nat) (on : Bool) : State :=
  let s := (s.put (R.SCR_FW_CFG_EN i) (b2n on)).upChain i fun c => { c with outs := 0, ins := 0 }
  if on then s
  else
    let was := bit (s.get R.SCR_FW_OUT) i
    let s := s.andn R.SCR_FW_OUT (2 ^ i)
    if was then s.fsRelease (16 + i) else s
def execFastWindowEnable (t i : Nat) (on : Bool) (s : State) : Out := laneUnit [.scr, .pwm, .fmx, .lne, .ce, .twn] (i < 32) t s fun s => s.fastEnable i on

/-- TAP_VAL_READ: the read captures the same word's stamp for the requester (R75). -/
def State.tapRead (s : State) (who tap : Nat) : State :=
  if tap % 8 = 7 then s.dataResp 0
  else
    (s.hold who (R.SCR_TAP_STAMP tap).addr (s.get (R.SCR_TAP_STAMP tap))).dataResp (s.get (R.SCR_TAP_VAL tap))
def execTapValRead (t who tap : Nat) (s : State) : Out := onUnit [.bus] (who < 48 ∧ tap < 256) t s fun s => s.tapRead who tap

end Sys2Proof.Machine
end

