-- ==== Sys2Proof/Machine/Banks.lean ====
section
/-!
DEFINITION. Main and exchange banks, their commands, and the Sweeper (chapter 15, R296–R308).
-/

namespace Sys2Proof.Machine

def State.upMst (s : State) (f : MemState → MemState) : State := { s with mst := f s.mst }

/-! ### Requesters and banks -/

/-- The code of Table 15-1 of a requester. -/
def State.whoCode (s : State) (who : Nat) : Nat :=
  if who < 4 then 1 else if who < 36 then 10 else if who < 44 then 2 + s.engUnit (who - 36)
  else if who = 44 then 11 else if who = 45 then 12 else 13

/-- Registers of a bank: 0–95 BKn, 96–111 XBx. -/
def bankAt (b : Nat) : Nat := if b < 96 then 0x80000000 + 0x80000 * b else 0x70000000 + 0x20000 * (b - 96)
def spareReg (b : Nat) : RF := if b < 96 then R.BNK_BK_SPARE b else R.BNK_XB_SPARE (b - 96)
def spareF (b lsb w : Nat) : RF := ⟨(spareReg b).addr, lsb, w⟩

/-! ### Glean's channels as they stop (R312) -/

def gleanIdle : Nat := 0
def gleanRun : Nat := 1
def gleanHalted : Nat := 2

def State.gleanState (s : State) (c : Nat) : Nat := s.get (R.GLN_GC_STAT_STATE c)
def State.gleanDesc (s : State) (c : Nat) : Option (Nat × Nat) := (s.mst.glean.getD c {}).desc
def State.setGleanDesc (s : State) (c : Nat) (d : Option (Nat × Nat)) : State :=
  s.upMst fun m => { m with glean := upd m.glean c fun x => { x with desc := d } }

/-- A channel's state, with its bits in GLN_RUN and GLN_HALTED. -/
def State.gleanTo (s : State) (c v : Nat) : State :=
  let s := s.put (R.GLN_GC_STAT_STATE c) v
  (s.put R.GLN_RUN (withBit (s.get R.GLN_RUN) c (v = gleanRun))).put R.GLN_HALTED (withBit (s.get R.GLN_HALTED) c (v = gleanHalted))

/-- A halt (R312): the resume state stands, the cause and the failing address are held. -/
def State.gleanHalt (s : State) (c cause faddr : Nat) : State :=
  let s := (s.put (R.GLN_GC_STAT_CAUSE c) cause).put (R.GLN_GC_FADDR c) (faddr % 2 ^ 32)
  (s.gleanTo c gleanHalted).orr R.GLN_INT_HALT (2 ^ c)

/-- A Glean channel's access fails: the channel halts with the cause, where it runs (Table 15-5). -/
def State.gleanFails (s : State) (who cause addr : Nat) : State :=
  if 4 ≤ who && who < 36 && s.gleanState (who - 4) = gleanRun then s.gleanHalt (who - 4) cause addr else s

/-! ### L2 (R297, R298) -/

/-- A row leaves L2: a dirty one is written back. -/
def State.l2Drop (s : State) (row : L2Row) : State :=
  let s := s.upMst fun m => { m with l2 := m.l2.filter (·.addr ≠ row.addr) }
  if row.dirty then s.writeBytes row.addr row.bytes else s

/-- The rows that satisfy `p` leave L2. -/
def State.l2Flush (s : State) (p : Nat → Bool) : State :=
  (s.mst.l2.filter fun r => p r.addr).foldl (fun s r => s.l2Drop r) s

/-- Whether a row has left L2 since it was used last is open, for the spec gives L2 no replacement, no write-back on its own
and no snooping: a free value says so (DESIGN CHOICE, log entry 177). -/
def State.l2Look (s : State) (addr : Nat) : State × Option L2Row :=
  match s.mst.l2.find? (·.addr = addr / 8 * 8) with
  | none => (s, none)
  | some r =>
    let left := (Config.freeWord s.drawn 298).toNat % 2 = 1
    let s := { s with drawn := s.drawn + 1 }
    if left then (s.l2Drop r, none) else (s, some r)

/-- A row enters L2; of 1 MiB of rows the one unused longest leaves. -/
def State.l2Put (s : State) (r : L2Row) : State :=
  let s := s.upMst fun m => { m with l2 := r :: m.l2.filter (·.addr ≠ r.addr) }
  match s.mst.l2.drop 131072 with
  | x :: _ => s.l2Drop x
  | [] => s

/-- Whether an access goes through L2: a core's, to a bank that CORES owns (R298). -/
def State.cached (s : State) (a : Access) : Bool :=
  a.who < 4 && (mainBank a.addr).any fun b => s.get (R.BNK_BK_OWN_OWNER b) = ownCores

/-- Another requester reaches rows that L2 may hold. -/
def State.l2Passed (s : State) (addr n : Nat) : State :=
  (s.mst.l2.filter fun r => addr / 8 ≤ r.addr / 8 && r.addr / 8 ≤ (addr + (n - 1)) / 8).foldl (fun s r => (s.l2Look r.addr).1) s

/-! ### Accesses (R296, R300–R303) -/

/-- Whether an access's alignment is served (R302). -/
def alignedOk (rot atomic : Bool) (addr size : Nat) : Bool :=
  (size = 1 || size = 2 || size = 4 || size = 8) &&
  (addr % size = 0 || rot && !atomic && (size = 2 || size = 4) && addr % 8 + size ≤ 8)

/-- Whether an access passes the checks of its bank; a refused one of a main bank is logged (R296, R302). -/
def State.bankCheck (s : State) (a : Access) : State × Bool :=
  match mainBank a.addr with
  | some b =>
    if !s.bankAllows b (s.whoCode a.who) then
      ((s.bankViol (s.whoCode a.who) a.addr a.write).gleanFails a.who 2 a.addr, false)
    else (s, alignedOk (s.is (R.BNK_BK_OWN_ROT b)) a.atomic a.addr a.size)
  | none =>
    match exchBank a.addr with
    | some x => (s, alignedOk (s.is (R.BNK_XB_CFG_ROT x)) a.atomic a.addr a.size)
    | none => (s, false)

/-- A row is read in the state `ecc`, 0 good, 1 one bit in error, 2 two, which it keeps: what R303 counts. -/
def State.rowRead (s : State) (addr ecc : Nat) : State :=
  if ecc = 0 then s
  else
    let s := s.noteRow ⟨addr, ecc = 2⟩
    if ecc = 2 then s.eccUe addr else s.eccCe addr

/-- A read of a bank. -/
def State.bankRead (s : State) (a : Access) (ecc : Nat) : State :=
  let s := s.rowRead a.addr ecc
  if ecc = 2 then s.errResp.gleanFails a.who 4 a.addr else s.dataResp (s.readLe a.addr a.size)

/-- A write of a bank; a narrower one than a row reads the row first (R302), which counts what it finds, and writes it with
fresh check bits even over two bits in error (DESIGN CHOICE, log entry 178). -/
def State.bankWrite (s : State) (a : Access) (ecc : Nat) : State :=
  let s := if a.size < 8 then s.rowRead a.addr ecc else s
  (s.writeLe a.addr a.size a.value).okResp

/-- A core's access through L2. -/
def State.l2Serve (s : State) (a : Access) (ecc : Nat) : State :=
  let at_ := a.addr / 8 * 8
  let (s, held) := s.l2Look a.addr
  let s := match held with
    | some _ => s
    | none => if a.write && a.size = 8 then s else s.rowRead a.addr ecc
  let row := match held with
    | some r => r
    | none => { addr := at_, dirty := false, bytes := s.readBytes at_ 8 }
  if a.write then
    let bs := leBytes a.size a.value
    let k := a.addr % 8
    (s.l2Put { row with dirty := true, bytes := row.bytes.take k ++ bs ++ row.bytes.drop (k + bs.length) }).okResp
  else if held.isNone && ecc = 2 then s.errResp
  else (s.l2Put row).dataResp (leAt row.bytes (a.addr % 8) a.size)

/-- The port of an exchange bank an access takes (Table 15-2): 0 A, 1 B. -/
def State.exchPort (s : State) (x : Nat) (a : Access) : Nat :=
  if 36 ≤ a.who && a.who ≤ 44 then (if a.write then 0 else 1) else s.get (R.BNK_XB_CFG_CPORT x)

/-- Whether a requester issues a lost write again (R301): engines, NET and the twin unit. -/
def reissues (who : Nat) : Bool := (36 ≤ who && who ≤ 44) || who = 46

/-- A write lost on port `p` of exchange bank `x` is logged. -/
def State.writeLost (s : State) (x p addr : Nat) : State :=
  let s := (s.put (R.BNK_XB_LOST_OFFSET x) ((addr % 0x20000) / 8 * 8)).put (R.BNK_XB_LOST_PORT x) p
  (s.bump (R.BNK_XB_LOST_COUNT x)).set1 R.BNK_INT_STAT_XLOST

/-- An access outside the banks (R23, R24): aligned reads of the boot ROM and of the nonvolatile die; aligned 32- and
64-bit accesses to the local memory of an engine, CE7's after a move (R99), by the engine itself, and by a core while the
engine's sheet is quiesced. A corrected row of local memory is counted (R77); an uncorrectable one faults the engine
(R97). -/
def State.otherServe (s : State) (a : Access) (ecc : Nat) : State :=
  let n := (a.addr - 0x60000000) / 0x10000
  let aligned := (a.size = 1 || a.size = 2 || a.size = 4 || a.size = 8) && a.addr % a.size = 0
  if a.addr < 0x20000 || 0x90000000 ≤ a.addr && a.addr < 0x98000000 then
    if aligned && !a.write then s.dataResp (s.readLe a.addr a.size) else s.errResp
  else if 0x60000000 ≤ a.addr && a.addr < 0x60080000 then
    let at_ := ceBase (s.phys n) + a.addr % 0x10000
    let may := s.whoCode a.who = 2 + n || a.who < 4 && s.sheetQuiesced (n + 1)
    if !aligned || a.size < 4 || !may then s.errResp
    else if a.write && a.size = 8 then (s.writeLe at_ a.size a.value).okResp
    else
      let row := max ecc (s.rowState at_)
      let s := if row = 0 then s else s.noteRow ⟨at_, row = 2⟩
      if row = 2 then ((s.eccFault (s.phys n)).moveBoundary).errResp
      else
        let s := if row = 1 then s.bump (R.CE_ECC_CE (s.phys n)) else s
        if a.write then (s.writeLe at_ a.size a.value).okResp else s.dataResp (s.readLe at_ a.size)
  else s.errResp

/-- The place of a requester in the order of R299, steps 2–5 (the Sweeper's locks are SWEEPER_STEP's own): at a main bank by
its owner and guests, at a port of an exchange bank processors before others (R300). -/
def State.turn (s : State) (a : Access) : Nat :=
  let code := s.whoCode a.who
  let proc := 1 ≤ code && code ≤ 9
  match mainBank a.addr with
  | some b =>
    if s.get (R.BNK_BK_OWN_OWNER b) = code then (if proc then 2 else 4) else if code = ownCores then 3 else 5
  | none => if proc then 2 else 4

/-- Accesses that wait at one bank, in the order in which they are served; the mark says which of them the command's answer
belongs to. Those of one turn keep their order (DESIGN CHOICE, log entry 155). -/
def State.inTurn (s : State) (l : List (Bool × Access)) : List (Bool × Access) :=
  [2, 3, 4, 5].flatMap fun k => l.filter fun x => s.turn x.2 = k

/-- A step of the bank whose answer is the command's only where `mine` holds. -/
def State.answered (s : State) (mine : Bool) (f : State → State) : State :=
  if mine then f s else { f s with resp := s.resp }

/-- One access served. -/
def State.serveOne (s : State) (x : Bool × Access) (ecc : Nat) : State :=
  s.answered x.1 fun s =>
    let a := x.2
    let ecc := max (if x.1 then ecc else 0) (s.rowState a.addr)
    if s.cached a then s.l2Serve a ecc
    else
      let s := s.l2Passed a.addr a.size
      if a.write then s.bankWrite a ecc else s.bankRead a ecc

/-- What an exchange bank does in one cycle with the accesses at its ports A and B (R301): a read returns what stood before a
write of the same cycle; of two writes to one row the one on port WIN stands, the other is lost, and issued again in the
next cycle where its requester does so. The answer tells which of the two have been served. -/
def State.exchCycle (s : State) (x : Nat) (pa pb : Option (Bool × Access)) (ecc : Nat) : State × Bool × Bool :=
  match pa, pb with
  | some a, some b =>
    if a.2.write && b.2.write && a.2.addr / 8 = b.2.addr / 8 then
      let (w, l, p) := if s.get (R.BNK_XB_CFG_WIN x) = 0 then (a, b, 1) else (b, a, 0)
      let s := (s.serveOne w ecc).writeLost x p l.2.addr
      let again := reissues l.2.who
      let s := if again then s else s.answered l.1 fun s => s.errResp.gleanFails l.2.who 5 l.2.addr
      (s, p = 1 || !again, p = 0 || !again)
    else if b.2.write then ((s.serveOne a ecc).serveOne b ecc, true, true)
    else ((s.serveOne b ecc).serveOne a ecc, true, true)
  | some a, none => (s.serveOne a ecc, true, true)
  | none, some b => (s.serveOne b ecc, true, true)
  | none, none => (s, true, true)

/-- The cycles an access holds its port beyond its own: a write narrower than a row takes two (R302). -/
def extraCycle (x : Option (Bool × Access)) : Nat :=
  match x with | some (_, a) => if a.write && a.size < 8 then 1 else 0 | none => 0

/-- The accesses at the ports of exchange bank `x`, cycle by cycle; `wa` and `wb` are the cycles for which a port is still
held. -/
def State.exchServe (x ecc : Nat) : Nat → List (Bool × Access) → List (Bool × Access) → Nat → Nat → State → State
  | 0, _, _, _, _, s => s
  | n + 1, qa, qb, wa, wb, s =>
    if qa.isEmpty && qb.isEmpty then s
    else
      let pa := if wa = 0 then qa.head? else none
      let pb := if wb = 0 then qb.head? else none
      let (s, doneA, doneB) := s.exchCycle x pa pb ecc
      State.exchServe x ecc n (if pa.isSome && doneA then qa.tail else qa) (if pb.isSome && doneB then qb.tail else qb)
        (if pa.isSome && doneA then extraCycle pa else wa - 1) (if pb.isSome && doneB then extraCycle pb else wb - 1) s

/-- BANK_ACCESS: the access `a` and the others that wait in the same cycle at its bank are checked and served in their order
(R296, R299–R303). The answer is `a`'s, and so is the state of the row. -/
def State.bankServe (s : State) (a : Access) (ecc : Nat) (rest : List Access) : State :=
  let s := s.mailProgress
  let bank (x : Access) : Option Nat × Option Nat := (mainBank x.addr, exchBank x.addr)
  if bank a = (none, none) then s.otherServe a ecc
  else
    let all := (true, a) :: (rest.filter fun x => bank x = bank a).map (false, ·)
    match exchBank a.addr with
    | none => (s.inTurn all).foldl (fun s x =>
        let (s, ok) := s.bankCheck x.2
        if ok then s.serveOne x ecc else s.answered x.1 State.errResp) s
    | some x =>
      let ok := all.filter fun y => (s.bankCheck y.2).2
      let s := if (s.bankCheck a).2 then s else s.errResp
      let q := s.inTurn ok
      State.exchServe x ecc (4 * all.length) (q.filter fun y => s.exchPort x y.2 = 0) (q.filter fun y => s.exchPort x y.2 = 1)
        0 0 s
def execBankAccess (t : Nat) (a : Access) (ecc : Nat) (rest : List Access) (s : State) : Out :=
  laneAct [.bnk, .gln, .ce, .pwm, .fmx, .lne, .twn, .ldg, .hlt, .mem, .bus, .mst] t s fun s => s.bankServe a ecc rest

/-! ### Commands (R297, R308) -/

/-- A command fails: its code, and nothing else changes. -/
def State.bnkErr (s : State) (code : Nat) : State := (s.put R.BNK_STAT_ERR code).set1 R.BNK_INT_STAT_CMD_ERR
def State.bnkDone (s : State) : State := (s.clr R.BNK_STAT_ERR).set1 R.BNK_INT_STAT_CMD_DONE

/-- A command while one is in progress has no effect but its code. -/
def State.bnkCmd (s : State) (f : State → State) : State := if s.is R.BNK_STAT_BUSY then s.bnkErr 6 else f s

def State.bankRelease (s : State) (b who : Nat) : State := s.bnkCmd fun s =>
  if 95 < b then s.bnkErr 4
  else if s.get (R.BNK_BK_OWN_OWNER b) = 0 || s.get (R.BNK_BK_OWN_OWNER b) ≠ who then s.bnkErr 1
  else if s.is (R.BNK_BK_OWN_TRACE b) then s.bnkErr 3
  else
    let s := ((s.set1 R.BNK_STAT_BUSY).clr R.BNK_STAT_ERR).set1 (R.BNK_BK_OWN_RELEASING b)
    (s.clr (R.BNK_BK_OWN_G_CORES b)).clr (R.BNK_BK_OWN_G_GLEAN b)
def execRelease (t b who : Nat) (s : State) : Out := act [.bnk] t s fun s => s.bankRelease b who

/-- RELEASE_DONE: the bank in RELEASING becomes FREE; of a CORES bank L2 has then written back and dropped every row. -/
def State.bankFree (s : State) : State :=
  match (List.range 96).find? fun b => s.is (R.BNK_BK_OWN_RELEASING b) with
  | some b =>
    let s := s.l2Flush fun a => mainBank a = some b
    (((s.clr (R.BNK_BK_OWN_RELEASING b)).clr (R.BNK_BK_OWN_OWNER b)).clr R.BNK_STAT_BUSY).bnkDone
  | none => s
def execReleaseDone (t : Nat) (s : State) : Out := act [.bnk, .mem, .mst] t s State.bankFree

def State.bankClaim (s : State) (b who : Nat) : State := s.bnkCmd fun s =>
  if 95 < b || who = 0 || 13 < who then s.bnkErr 4
  else if s.get (R.BNK_BK_OWN_OWNER b) ≠ 0 then s.bnkErr 2
  else (s.put (R.BNK_BK_OWN_OWNER b) who).bnkDone
def execClaim (t b who : Nat) (s : State) : Out := act [.bnk] t s fun s => s.bankClaim b who

/-- GRANT sets and REVOKE clears a guest grant, to CORES or GLEAN. -/
def State.bankGrant (s : State) (b who : Nat) (on : Bool) : State := s.bnkCmd fun s =>
  if 95 < b || !(who = 1 || who = 10) || on && s.get (R.BNK_BK_OWN_OWNER b) = who then s.bnkErr 4
  else (s.put (if who = 1 then R.BNK_BK_OWN_G_CORES b else R.BNK_BK_OWN_G_GLEAN b) (b2n on)).bnkDone
def execGrant (t b who : Nat) (s : State) : Out := act [.bnk] t s fun s => s.bankGrant b who true
def execRevoke (t b who : Nat) (s : State) : Out := act [.bnk] t s fun s => s.bankGrant b who false

/-- A spare of a bank that is neither valid nor being copied to. -/
def State.freeSpare (s : State) (b : Nat) : Option Nat :=
  let used (k : Nat) : Bool := s.is (spareF b (if k = 0 then 7 else 15) 1) || s.mst.repairs.any fun r => r.bank = b && r.spare = k
  if !used 0 then some 0 else if !used 1 then some 1 else none

/-- The bank shows the repair of it that is served first: REPAIRING and the copy pointer. -/
def State.showRepair (s : State) (b : Nat) : State :=
  match s.mst.repairs.find? (·.bank = b) with
  | some r => (s.put (spareF b 16 6) r.piece).set1 (spareF b 22 1)
  | none => s.clr (spareF b 22 1)

/-- A repair starts: a spare is mapped onto the segment, copied from `piece` on; one of the same bank in progress goes
first (DEDUCED, log entry 78). -/
def State.repairStart (s : State) (b seg spare piece : Nat) : State :=
  let s := s.put (if spare = 0 then spareF b 0 7 else spareF b 8 7) seg
  State.showRepair (b := b) <| s.upMst fun m => { m with repairs := m.repairs ++ [{ bank := b, seg := seg, spare := spare, piece := piece, left := 64 }] }

/-- REPAIR. Bits of SEG beyond an exchange bank's 32 segments fail with RANGE (DEDUCED, log entry 36). -/
def State.bankRepair (s : State) (b seg : Nat) : State := s.bnkCmd fun s =>
  if 111 < b || (if b < 96 then 127 else 31) < seg then s.bnkErr 4
  else match s.freeSpare b with
    | some k => (s.repairStart b seg k 0).bnkDone
    | none => s.bnkErr 5
def execRepair (t b seg : Nat) (s : State) : Out := act [.bnk, .mst] t s fun s => s.bankRepair b seg

/-! ### The Sweeper (R304–R308) -/

/-- One piece of the oldest repair is copied. -/
def State.repairPiece (s : State) (r : Repair) (rest : List Repair) : State :=
  let p := (r.piece + 1) % 64
  if r.left = 1 then
    let s := (s.upMst fun m => { m with repairs := rest }).set1 R.SWP_INT_STAT_REPAIR_DONE
    ((s.set1 (if r.spare = 0 then spareF r.bank 7 1 else spareF r.bank 15 1)).put (spareF r.bank 16 6) p).showRepair r.bank
  else
    (s.upMst fun m => { m with repairs := { r with piece := p, left := r.left - 1 } :: rest }).put (spareF r.bank 16 6) p

/-- The position after a step of bank `b` at index `i`, and whether the pass ended. -/
def sweepNext (xb : Bool) (i b : Nat) : Nat × Nat × Bool :=
  let last := if xb && i < 2048 then 111 else 95
  if b < last then (i, b + 1, false) else if i < 8191 then (i + 1, 0, false) else (0, 0, true)

/-- A failing block (R307). -/
def State.segmentFail (s : State) (b i addr : Nat) : State :=
  let s := ((s.bump R.SWP_FAIL).put R.SWP_FAILADDR addr).set1 R.SWP_INT_STAT_FAIL
  match (if s.is R.SWP_CTL_AUTOREP then s.freeSpare b else none) with
  | some k => s.repairStart b (i / 64) k (i % 64)
  | none => (s.set1 R.SWP_INT_STAT_NO_SPARE).hltReason 4

/-- SWEEPER_STEP: a piece of a repair, or one block. `errs`: rows that the save read finds in error, beside those already
known; the restore mends the correctable ones and leaves the others as they were (R306). `fail`: a march read differed. -/
def State.sweepStep (s : State) (errs : List RowErr) (fail : Bool) : State :=
  if !s.is R.SWP_CTL_EN then s
  else match s.mst.repairs with
    | r :: rest => s.repairPiece r rest
    | [] =>
      let i := s.get R.SWP_STAT_S
      let b := s.get R.SWP_STAT_BANK
      let addr := bankAt b + 64 * i
      let here (r : RowErr) : Bool := r.addr / 64 = addr / 64
      let s := (errs.filter here).foldl State.noteRow s
      let scrub := s.rows.any fun r => here r && !r.two
      let ue := s.rows.any fun r => here r && r.two
      let s := { s with rows := s.rows.filter fun r => !here r || r.two }
      let (i', b', done) := sweepNext (s.is R.SWP_CTL_XB) i b
      let s := (s.put R.SWP_STAT_S i').put R.SWP_STAT_BANK b'
      let s := if scrub then s.bump R.SWP_SCRUB else s
      let s := if ue then (s.put R.SWP_UEADDR addr).set1 R.SWP_INT_STAT_UE_FOUND else s
      let s := if fail then s.segmentFail b i addr else s
      if done then (s.bumpWrap R.SWP_PASS).set1 R.SWP_INT_STAT_PASS_DONE else s
def execSweeperStep (t : Nat) (errs : List RowErr) (fail : Bool) (s : State) : Out :=
  act [.bnk, .swp, .ldg, .hlt, .mem, .mst] t s fun s => s.sweepStep errs fail

end Sys2Proof.Machine
end

