-- ==== Sys2Proof/Machine/Sampling.lean ====
section
/-!
DEFINITION. Analog inputs and slice converters (chapter 3, R44–R61): frames, rotation, correction, background calibration,
snapshots, tests and watch mode. Slice codes and calibration results are operands.
-/

namespace Sys2Proof.Machine

/-! ### Rotation (R47, R59) -/

/-- The LFSR advanced by `n` steps. -/
def lfsrStep : Nat → Nat → Nat
  | 0, v => v
  | n + 1, v => lfsrStep n ((2 * v + b2n (bit v 14 != bit v 13)) % 2 ^ 15)

/-- The slices in the rotation, ascending: neither free nor retired. -/
def State.inService (s : State) (a : Nat) : List Nat :=
  (List.range 9).filter fun k => k ≠ s.get (R.ADC_STAT_FREE a) && !bit (s.get (R.ADC_STAT_RETIRED a)) k

/-- The slice of an input: its position among the slices in service. -/
def rotate (v : Nat) (watch : Bool) (slices : List Nat) (i : Nat) : Option Nat :=
  if watch then slices[((i ^^^ bits v 2 2) + bits v 0 2) % 4]? else slices[((i ^^^ bits v 3 3) + bits v 0 3) % 8]?

/-- A group in normal mode calibrates; one in watch mode, disabled or not ready does not, and is not starved (DESIGN CHOICE
for the latter two, log entry 118). -/
def State.calRuns (s : State) (a : Nat) : Bool :=
  s.is (R.ADC_CTL_EN a) && s.is (R.ADC_STAT_READY a) && s.is (R.ADC_CTL_CALEN a) && !s.is (R.ADC_STAT_WATCH a) &&
  s.get (R.ADC_STAT_FREE a) < 9

/-- CALPHASE after `n` steps (Table 3-1). -/
def calPhase (n : Nat) : Nat :=
  if n < 4000 then 1 else if n < 10000 then 2 else if n < 16000 then 3 else if n < 19000 then 4 else 5

/-- CALPHASE shows the phase, 0 when idle (R49). -/
def State.showCal (s : State) (a : Nat) : State :=
  s.put (R.ADC_STAT_CALPHASE a) (if s.calRuns a && s.smpRuns && !(s.adc a).handover then calPhase (s.adc a).steps else 0)

/-- The calibration of the free slice starts from its first step. -/
def State.calRestart (s : State) (a : Nat) : State :=
  (s.upAdc a fun x => { x with steps := 0, calFrom := s.tb }).showCal a

/-- The step in progress was interrupted, and starts anew: a group powered down or up, and SMP stopped or restarted.
The steps completed before count on (DESIGN CHOICE, log entry 115). -/
def State.calInterrupt (s : State) (a : Nat) : State := (s.upAdc a fun x => { x with calFrom := s.tb }).showCal a

/-- The handover to the next slice (R50). A slice whose FAILS is 0 has committed, and is counted. In watch mode a handover
waits for the return to normal mode (DESIGN CHOICE, log entry 116). -/
def State.handover (s : State) (a : Nat) : State :=
  let x := s.adc a
  let k := s.get (R.ADC_STAT_FREE a)
  if !x.handover ∨ x.snap.isSome ∨ s.tb % 800 ≠ 0 ∨ s.is (R.ADC_STAT_WATCH a) ∨ 9 ≤ k then s
  else
    let s := if s.get (R.ADC_SL_SKEW_FAILS a k) = 0 then s.bumpWrap (R.ADC_CALCNT a) else s
    let s := (s.put (R.ADC_STAT_FREE a) ((k + 1) % 9)).upAdc a fun x => { x with handover := false }
    s.calRestart a

/-! ### Watch mode (R59) -/

/-- WATCH_REQUEST: refused while an engine takes a tap of the group. During the 20 µs before a return it cancels the return
(DESIGN CHOICE, log entry 163). -/
def State.watchRequest (s : State) (a : Nat) : State :=
  if (List.range 8).any fun i => s.inputTaken (8 * a + i) then s.set1 (R.ADC_INT_STAT_WATCH_REFUSED a)
  else (s.set1 (R.ADC_CTL_WATCH a)).upAdc a fun x => { x with settle := none }

/-- The group enters watch mode at a frame instant; calibration is suspended. A snapshot or test in progress goes on (DESIGN
CHOICE, log entry 164). -/
def State.watchEnter (s : State) (a : Nat) : State :=
  if !s.smpRuns ∨ !s.is (R.ADC_CTL_WATCH a) ∨ s.is (R.ADC_STAT_WATCH a) ∨ s.tb % 800 ≠ 0 then s
  else
    let s := (s.set1 (R.ADC_STAT_WATCH a)).set1 (R.ADC_INT_STAT_WATCH_CHG a)
    s.calRestart a

/-- WATCH_EXIT_REQUEST: the idle slices are powered and settle for 20 µs. -/
def State.watchExitRequest (s : State) (a : Nat) : State :=
  let s := s.clr (R.ADC_CTL_WATCH a)
  if s.is (R.ADC_STAT_WATCH a) then s.upAdc a fun x => { x with settle := some (s.tb + 320000) } else s

/-- The group returns to normal mode; the histories of H1–H4 are preset with the last watch word. -/
def State.watchExit (s : State) (a : Nat) : State :=
  match (s.adc a).settle with
  | some x =>
    if !s.smpRuns ∨ s.tb < x ∨ s.tb % 12800 ≠ 0 then s
    else
      let s := (s.clr (R.ADC_STAT_WATCH a)).set1 (R.ADC_INT_STAT_WATCH_CHG a)
      let s := (List.range 8).foldl (fun s i =>
        match (s.scr.taps.getD (8 * (8 * a + i) + 3) []).head? with
        | some (_, w) => s.upChain (8 * a + i) fun c => { c with hist := List.replicate 4 (List.replicate 11 w) ++ c.hist.drop 4 }
        | none => s) s
      let s := s.upAdc a fun x => { x with settle := none, watchOn := false, starve := s.tb }
      s.calRestart a
  | none => s

/-! ### Frames (R45, R61) -/

/-- SE and FMT written strictly before the frame come into force (R61). -/
def State.presentation (s : State) (a : Nat) : State :=
  s.upAdc a fun x =>
    let due := x.pres.filter fun p => p.1 < s.tb
    due.foldl (fun x p => if p.2.1 then { x with fmt := p.2.2 } else { x with se := p.2.2 })
      { x with pres := x.pres.filter fun p => s.tb ≤ p.1 }

/-- A group's inputs held in a frame that starts now. -/
def State.holdInputs (s : State) (a : Nat) : State :=
  let x := s.adc a
  let f := s.tb
  let v := lfsrStep 6 (s.get (R.ADC_LFSR a))
  let s := s.put (R.ADC_LFSR a) v
  let s := (List.range 8).foldl (fun s i => s.chainFrame (8 * a + i) f x.watchOn) s
  let js := (List.range 8).map fun i => s.get (R.SCR_PH (8 * a + i))
  let frame (at_ : Nat) (is : List Nat) : HeldFrame :=
    { at_ := at_, slices := is.map fun i => (i, rotate v x.watchOn (s.inService a) i), js := js, watch := x.watchOn
      se := x.se, fmt := x.fmt }
  let new := if x.watchOn then [frame f [0, 1, 2, 3], frame (f + 6400) [4, 5, 6, 7]]
    else [frame f [0, 1, 2, 3, 4, 5, 6, 7]]
  s.upAdc a fun x => { x with held := x.held ++ new }

/-- A group's frame instant. Between STAT.WATCH and the first watch frame the group frames on as before (DESIGN CHOICE, log
entry 163). -/
def State.groupFrame (s : State) (a : Nat) : State :=
  if !s.is (R.ADC_CTL_EN a) || !s.is (R.ADC_STAT_READY a) || (s.adc a).held.any (·.at_ = s.tb) then s
  else
    let s := ((((s.handover a).watchExit a).watchEnter a).presentation a)
    let s := if s.is (R.ADC_STAT_WATCH a) && s.tb % 12800 = 0 then s.upAdc a fun x => { x with watchOn := true } else s
    if (s.adc a).watchOn && s.tb % 12800 ≠ 0 then s else s.holdInputs a

/-- ADC_FRAME: a frame instant of all groups. -/
def State.adcFrame (s : State) : State :=
  if s.tb % 800 ≠ 0 || !s.smpRuns then s else (List.range 4).foldl (fun s a => s.groupFrame a) s.applyReset
def execAdcFrame (t : Nat) (s : State) : Out := act [.adc, .scr] t s State.adcFrame

/-! ### Correction and presentation (R46, R48, R56) -/

/-- `u` and `v` of R48 for slice `k`'s code. -/
def State.slicePart (s : State) (a k : Nat) (q : Int) : Int × Int :=
  let u := q * 256 - toS 16 (s.get (R.ADC_SL_OFF a k))
  (u, u + divRne (u * toS 16 (s.get (R.ADC_SL_GAIN a k))) 1048576)

/-- The bandwidth term of R48. -/
def State.sliceBw (s : State) (a k : Nat) (v prev : Int) : Int :=
  divRne (toS 12 (s.get (R.ADC_SL_BW a k)) * (v - prev)) 16384

/-- A 24-bit word presented (Table 3-3). -/
def present (fmt : Nat) (single : Bool) (w : Int) : Nat :=
  let p := ofS 24 w
  let q := p ^^^ 0x800000
  match fmt with
  | 0 => if single then q else ofS 32 w
  | 1 => if single then q >>> 8 else ofS 32 (toS 16 (p >>> 8))
  | 2 => ((if single then q else p) >>> 8) <<< 16
  | _ => (if single then q else p) <<< 8

/-- An input's sticky over-range bit (R46). -/
def State.overRange (s : State) (a i : Nat) (q w : Int) : State :=
  if q = 0x7FFF ∨ q = -0x8000 ∨ satS 24 w ≠ w then (s.orr (R.ADC_OVR a) (2 ^ i)).set1 (R.ADC_INT_STAT_OVR a) else s

/-- A word counts toward the mean of a test on its input (R57), whatever has become of the group since the test's start
(DESIGN CHOICE, log entry 164). -/
def State.testWord (s : State) (a i hold : Nat) (w : Int) : State :=
  s.upAdc a fun x => { x with test := x.test.map fun t =>
    if t.input = i && t.phase ≠ 2 && t.since ≤ hold && t.cnt < 2 ^ t.avg then { t with sum := t.sum + w, cnt := t.cnt + 1 }
    else t }

/-- The corrected word of input `i` of a held frame. An input no slice in service serves has no stated word: a free
value. -/
def State.mainWord (s : State) (a : Nat) (f : HeldFrame) (i : Nat) (slice : Option Nat) (code : Nat) : State :=
  let q := toS 16 code
  let (s, w) := match slice with
    | some k =>
      let (_, v) := s.slicePart a k q
      let w := v + s.sliceBw a k v ((s.adc a).vprev.getD i 0)
      let s := s.upAdc a fun x => { x with vprev := x.vprev.set i v }
      (s.overRange a i q w, satS 24 w)
    | none => ({ s with drawn := s.drawn + 1 }, toS 24 (Config.freeWord s.drawn i).toNat)
  let st := f.at_ + 1600
  let s := s.put (R.ADC_RAW a i) (present (bits f.fmt (2 * i) 2) (bit f.se i) w)
  let s := s.testWord a i f.at_ w
  let n := 8 * a + i
  let s := s.fastWord n w
  let j := f.js.getD i 0
  if f.watch then s.chainWatch n j st w else s.chainWord n j st w

/-- MAIN_PATH_WORD: the words of the group's oldest held frame, 100 ns after it; `codes` are the slice codes of its inputs
in order, and `residue` the inputs whose residue check fails (R366). -/
def State.mainPath (s : State) (a : Nat) (codes : List Nat) (residue : Nat) : State :=
  match (s.adc a).held with
  | [] => s
  | f :: rest =>
    if s.tb < f.at_ + 1600 then s
    else
      let s := s.upAdc a fun x => { x with held := rest }
      let s := ((List.range f.slices.length).zip f.slices).foldl (fun s (k, i, sl) => s.mainWord a f i sl (codes.getD k 0)) s
      let fails := residue % 256
      if fails = 0 then s else (s.orr R.HLT_SCREEN (fails <<< (8 * a))).hltReason 2
def execMainPathWord (t n : Nat) (codes : List Nat) (residue : Nat) (s : State) : Out :=
  laneUnit [.adc, .scr, .ce, .pht, .pwm, .fmx, .lne, .twn, .ldg, .hlt] (n < 4) t s fun s => s.mainPath n codes residue

/-! ### Background calibration (R49–R51, R54) -/

/-- The result of a slice's calibration: its four measurements against the limits of R51. -/
def calOk (off gain skew bw : Int) : Bool :=
  off.natAbs ≤ 24576 && gain.natAbs ≤ 26214 && -128 ≤ skew && skew ≤ 127 && bw.natAbs ≤ 2047

/-- Coefficients committed; FAILS clears. -/
def State.calStore (s : State) (a k : Nat) (off gain skew bw : Int) : State :=
  let s := (s.put (R.ADC_SL_OFF a k) (ofS 16 off)).put (R.ADC_SL_GAIN a k) (ofS 16 gain)
  let s := (s.put (R.ADC_SL_SKEW_SKEW a k) (ofS 8 skew)).put (R.ADC_SL_BW a k) (ofS 12 bw)
  s.clr (R.ADC_SL_SKEW_FAILS a k)

/-- A slice is retired: the group has no free slice from then on (R51). -/
def State.retire (s : State) (a k : Nat) : State :=
  let s := (s.orr (R.ADC_STAT_RETIRED a) (2 ^ k)).put (R.ADC_STAT_FREE a) 15
  let s := (s.clr (R.ADC_STAT_CALPHASE a)).set1 (R.ADC_INT_STAT_RETIRE a)
  (s.upAdc a fun x => { x with handover := false }).hltReason 1

/-- The end of the commit phase. -/
def State.calCommit (s : State) (a : Nat) (off gain skew bw : Int) : State :=
  let k := s.get (R.ADC_STAT_FREE a)
  let s := (s.clr (R.ADC_STAT_CALPHASE a)).upAdc a fun x => { x with handover := true }
  if calOk off gain skew bw then
    let s := (s.calStore a k off gain skew bw).set1 (R.ADC_INT_STAT_CAL_DONE a)
    (s.clr (R.ADC_STAT_CAL_STARVED a)).upAdc a fun x => { x with starve := s.tb }
  else
    let f := s.get (R.ADC_SL_SKEW_FAILS a k) + 1
    let s := (s.put (R.ADC_SL_SKEW_FAILS a k) f).set1 (R.ADC_INT_STAT_CAL_FAIL a)
    if 2 ≤ f then s.retire a k else s

/-- CAL_STEP: a step of the free slice completes; the results are used at the 20 000th. With CALEN cleared meanwhile the
calibration stops here. -/
def State.calStep (s : State) (a : Nat) (off gain skew bw : Int) : State :=
  let x := s.adc a
  if s.is (R.ADC_STAT_CALPHASE a) && !s.is (R.ADC_CTL_CALEN a) then
    if s.tb < x.calFrom + 6400 then s
    else (s.upAdc a fun y => { y with steps := 0 }).clr (R.ADC_STAT_CALPHASE a)
  else if !s.smpRuns ∨ !s.calRuns a ∨ x.snap.isSome ∨ x.handover ∨ s.tb < x.calFrom + 6400 then s
  else
    let n := x.steps + 1
    let s := s.upAdc a fun y => { y with steps := n, calFrom := x.calFrom + 6400 }
    if n < 20000 then s.put (R.ADC_STAT_CALPHASE a) (calPhase n) else s.calCommit a off gain skew bw
def execCalStep (t n : Nat) (off gain skew bw : Int) (s : State) : Out :=
  onUnit [.adc, .ldg, .hlt] (n < 4) t s fun s => s.calStep n off gain skew bw

/-- CAL_HANDOVER. -/
def execCalHandover (t n : Nat) (s : State) : Out := onUnit [.adc] (n < 4) t s fun s => s.handover n

/-- CAL_STARVED_TIMEOUT: 256 ms without a completed calibration (R54). -/
def State.calStarved (s : State) (a : Nat) : State :=
  if !s.calRuns a ∨ s.tb < (s.adc a).starve + 4096000000 ∨ s.is (R.ADC_STAT_CAL_STARVED a) then s
  else (s.set1 (R.ADC_STAT_CAL_STARVED a)).set1 (R.ADC_INT_STAT_CAL_STARVED a)
def execCalStarvedTimeout (t n : Nat) (s : State) : Out := onUnit [.adc] (n < 4) t s fun s => s.calStarved n

/-- CALEN_CHANGE: cleared, the current step is the last, and nothing is committed; set again, the same slice restarts from
its first step. -/
def State.calenChange (s : State) (a : Nat) (on : Bool) : State :=
  let s := s.put (R.ADC_CTL_CALEN a) (b2n on)
  if on then (s.calRestart a).upAdc a fun x => { x with starve := s.tb } else s
def execCalenChange (t n : Nat) (on : Bool) (s : State) : Out := onUnit [.adc] (n < 4) t s fun s => s.calenChange n on

/-- LFSR_WRITE: a write of 0 loads 1. -/
def State.lfsrWrite (s : State) (a v : Nat) : State :=
  s.put (R.ADC_LFSR a) (if v % 2 ^ 15 = 0 then 1 else v % 2 ^ 15)
def execLfsrWrite (t n v : Nat) (s : State) : Out := onUnit [.adc] (n < 4) t s fun s => s.lfsrWrite n v

/-- PRESENTATION_WRITE: SE or FMT takes effect at the first frame instant after the write (R61). -/
def State.presWrite (s : State) (a : Nat) (fmt : Bool) (v : Nat) : State :=
  let s := if fmt then s.put (R.ADC_FMT a) v else s.put (R.ADC_SE a) v
  s.upAdc a fun x => { x with pres := x.pres ++ [(s.tb, fmt, s.get (if fmt then R.ADC_FMT a else R.ADC_SE a))] }
def execPresentationWrite (t n : Nat) (fmt : Bool) (v : Nat) (s : State) : Out :=
  onUnit [.adc] (n < 4) t s fun s => s.presWrite n fmt v

/-! ### Snapshots (R52, R53, R55) -/

/-- A dropped trigger. -/
def State.snapDrop (s : State) (a : Nat) : State := (s.bump (R.ADC_SNAPMISS a)).set1 (R.ADC_INT_STAT_SNAP_MISS a)

/-- A slot's trigger reaches SMP: the free slice is reserved, or the trigger is dropped. In one SMP cycle the lower slot
is served. -/
def State.snapTake (s : State) (a slot : Nat) : State :=
  let new : Snap := { slot := slot, input := s.get (R.ADC_SNAP_CFG_INPUT a slot), trig := s.tb, hold := s.tb + 384 }
  match (s.adc a).snap with
  | some x =>
    if slot < x.slot ∧ x.trig / 100 = s.tb / 100 then (s.upAdc a fun y => { y with snap := some new }).snapDrop a
    else s.snapDrop a
  | none =>
    if s.get (R.ADC_STAT_FREE a) < 9 ∧ s.is (R.ADC_STAT_READY a) ∧ !s.is (R.ADC_STAT_WATCH a) then
      s.upAdc a fun y => { y with snap := some new }
    else s.snapDrop a

/-- SNAPSHOT_TRIGGER: 16 ns after compares that enabled slots name. A group that is powered down, or without its clock,
takes none; one that is not ready drops it (DESIGN CHOICE, log entry 117). -/
def State.snapTrigger (s : State) (a : Nat) : State :=
  let again := match (s.adc a).snap with | some x => x.trig = s.tb | none => false
  if !s.is (R.ADC_CTL_EN a) || again || !s.smpRuns then s
  else
    let s := s.handover a
    (List.range 4).foldl (fun s slot =>
      let g := s.get (R.ADC_SNAP_CFG_PG a slot)
      let n := s.get (R.ADC_SNAP_CFG_TRG a slot)
      if s.is (R.ADC_SNAP_CFG_EN a slot) && (match (s.group g).fired.getD n none with
          | some x => x + 256 = s.tb
          | none => false) then s.snapTake a slot else s) s
def execSnapshotTrigger (t n : Nat) (s : State) : Out := onUnit [.adc] (n < 4) t s fun s => s.snapTrigger n

/-- SNAPSHOT_DONE: 100 ns after the compare the result is written, with the bandwidth term zero, presented as SE and FMT are in
force then (DESIGN CHOICE, log entry 166). -/
def State.snapDone (s : State) (a code : Nat) : State :=
  match (s.adc a).snap with
  | some x =>
    if s.tb < x.hold + 960 then s
    else
      let q := toS 16 code
      let (_, v) := s.slicePart a (s.get (R.ADC_STAT_FREE a)) q
      let s := s.overRange a x.input q v
      let w := satS 24 v
      let y := s.adc a
      let s := s.put (R.ADC_SNAP_DATA a x.slot) (present (bits y.fmt (2 * x.input) 2) (bit y.se x.input) w)
      let s := (s.put (R.ADC_SNAP_STAMP a x.slot) (x.hold % 2 ^ 32)).bumpWrap (R.ADC_SNAP_COUNT a x.slot)
      let s := s.orr (R.ADC_INT_STAT_SNAP_DONE a) (2 ^ x.slot)
      let s := { s with scr := { s.scr with snaps := upd s.scr.snaps (4 * a + x.slot) fun l => ((x.hold, w) :: l).take 2 } }
      s.upAdc a fun y => { y with snap := none, calFrom := max y.calFrom (x.hold + 960) }
  | none => s
def execSnapshotDone (t n code : Nat) (s : State) : Out := onUnit [.adc, .scr] (n < 4) t s fun s => s.snapDone n code

/-- SNAP_DATA_READ: the read captures STAMP and COUNT for the requester (R55). -/
def State.snapRead (s : State) (who a slot : Nat) : State :=
  let s := s.hold who (R.ADC_SNAP_STAMP a slot).addr (s.get (R.ADC_SNAP_STAMP a slot))
  let s := s.hold who (R.ADC_SNAP_COUNT a slot).addr (s.get (R.ADC_SNAP_COUNT a slot))
  s.dataResp (s.get (R.ADC_SNAP_DATA a slot))
def execSnapDataRead (t who n slot : Nat) (s : State) : Out :=
  onUnit [.bus] (who < 48 ∧ n < 4 ∧ slot < 4) t s fun s => s.snapRead who n slot

/-! ### Tests (R57, R58) -/

/-- A test ends. -/
def State.testEnd (s : State) (a : Nat) : State :=
  let s := (s.clr (R.ADC_TSTAT_BUSY a)).clr (R.ADC_STAT_TESTING a)
  (s.set1 (R.ADC_INT_STAT_TEST_DONE a)).upAdc a fun x => { x with test := none }

/-- TEST_START: refused with a code, or begun. A START while a test runs has no effect; one accepted clears what the last
test showed (DESIGN CHOICE, log entry 165). -/
def State.testStart (s : State) (a : Nat) : State :=
  let i := s.get (R.ADC_TCFG_INPUT a)
  let kind := s.get (R.ADC_TCFG_KIND a)
  let refuse (code : Nat) : State := (s.put (R.ADC_TSTAT_ERR a) code).set1 (R.ADC_INT_STAT_TEST_DONE a)
  if s.is (R.ADC_TSTAT_BUSY a) then s
  else if s.inputTaken (8 * a + i) && s.ownSamples then refuse 1
  else if s.is (R.ADC_STAT_WATCH a) then refuse 2
  else if kind = 3 then refuse 3
  else
    let s := (s.clr (R.ADC_TSTAT_ERR a)).clr (R.ADC_TSTAT_VERDICT a)
    let s := (s.set1 (R.ADC_TSTAT_BUSY a)).set1 (R.ADC_STAT_TESTING a)
    s.upAdc a fun x => { x with test := some {
      phase := if kind = 2 then 1 else 2, input := i, kind := kind, avg := s.get (R.ADC_TCFG_AVG a), since := s.tb } }
def execTestStart (t n : Nat) (s : State) : Out := onUnit [.adc] (n < 4) t s fun s => s.testStart n

/-- TEST_ABORT. -/
def State.testAbort (s : State) (a : Nat) : State :=
  if s.is (R.ADC_TSTAT_BUSY a) then (s.put (R.ADC_TSTAT_ERR a) 3).testEnd a else s
def execTestAbort (t n : Nat) (s : State) : Out := onUnit [.adc] (n < 4) t s fun s => s.testAbort n

/-- TEST_SETTLE_END: SETTLE × 10 µs after the condition was connected. -/
def State.testSettle (s : State) (a : Nat) : State :=
  match (s.adc a).test with
  | some t =>
    if t.phase = 2 ∧ t.since + 160000 * s.get (R.ADC_TTHR_SETTLE a) ≤ s.tb then
      s.upAdc a fun x => { x with test := some { t with phase := 3, since := s.tb, sum := 0, cnt := 0 } }
    else s
  | none => s
def execTestSettleEnd (t n : Nat) (s : State) : Out := onUnit [.adc] (n < 4) t s fun s => s.testSettle n

/-- TEST_MEAN_END: a mean over 2^AVG words is complete. -/
def State.testMean (s : State) (a : Nat) : State :=
  match (s.adc a).test with
  | some t =>
    if t.phase = 2 ∨ t.cnt < 2 ^ t.avg then s
    else
      let m := divRne t.sum (2 ^ t.avg)
      if t.phase = 1 then
        let s := s.put (R.ADC_TBASE a) (ofS 32 m)
        s.upAdc a fun x => { x with test := some { t with phase := 2, since := s.tb, sum := 0, cnt := 0 } }
      else
        let s := s.put (R.ADC_TRES a) (ofS 32 m)
        let gap := (m - toS 32 (s.get (R.ADC_TBASE a))).natAbs
        let s := if t.kind = 2 then s.put (R.ADC_TSTAT_VERDICT a) (if s.get (R.ADC_TTHR_THR a) < gap then 2 else 1) else s
        s.testEnd a
  | none => s
def execTestMeanEnd (t n : Nat) (s : State) : Out := onUnit [.adc] (n < 4) t s fun s => s.testMean n

/-! ### Watch rows -/

def execWatchRequest (t n : Nat) (s : State) : Out := onUnit [.adc] (n < 4) t s fun s => s.watchRequest n
def execWatchEnter (t n : Nat) (s : State) : Out := onUnit [.adc] (n < 4) t s fun s => s.watchEnter n
def execWatchExitRequest (t n : Nat) (s : State) : Out := onUnit [.adc] (n < 4) t s fun s => s.watchExitRequest n
def execWatchExit (t n : Nat) (s : State) : Out := onUnit [.adc, .scr] (n < 4) t s fun s => s.watchExit n

end Sys2Proof.Machine
end

