-- ==== Sys2Proof/Machine/LaneRx.lean ====
section
/-!
DEFINITION. Gate lanes, receiving side and service (R186–R199): status frames and what they decide (link, undervoltage,
desaturation, gate mismatch, diagnostics, configuration), training, and the disabling of a lane.
-/

namespace Sys2Proof.Machine

/-- Lane states (LNE_LNl_STAT.STATE). -/
def laneOff : Nat := 0
def laneTraining : Nat := 1
def laneUp : Nat := 2
def laneLost : Nat := 3
def laneFailed : Nat := 4

/-- A lane's state, with its bit of LNE_UP. A CONFIG that waits for its acknowledgement fails when the lane is not UP
(R199). -/
def State.laneState (s : State) (l v : Nat) : State :=
  let s := (s.put (R.LNE_LN_STAT_STATE l) v).put R.LNE_UP (withBit (s.get R.LNE_UP) l (v = laneUp))
  if v ≠ laneUp && (s.lane l).cfgWait then
    (s.upLane l fun x => { x with cfgWait := false, cfgAt := none }).set1 (R.LNE_LN_INT_STAT_CFG_FAIL l)
  else s

/-- A cause of the lane's fault source set or cleared: bit 0 LINK, 1 UV, 2 QFULL, 3 LATE (R189). -/
def State.laneCause (s : State) (l b : Nat) (on : Bool) : State :=
  (s.put (R.LNE_LN_STAT_FS_CAUSE l) (withBit (s.get (R.LNE_LN_STAT_FS_CAUSE l)) b on)).laneSource l

/-- An UP lane becomes LOST with cause LINK (R188). -/
def State.laneLose (s : State) (l : Nat) : State :=
  if s.get (R.LNE_LN_STAT_STATE l) ≠ laneUp then s
  else
    let s := (s.laneState l laneLost).set1 (R.LNE_LN_INT_STAT_LINK_LOST l)
    (s.upLane l fun x => { x with good := 0 }).laneCause l 0 true

/-- STATUS_TIMEOUT: no CRC-good frame for 384 ns, or the receiver lost lock. -/
def execStatusTimeout (t l : Nat) (lockLost : Bool) (s : State) : Out :=
  laneUnit [.ce, .pwm, .fmx, .lne, .twn] (l < 12) t s fun s =>
    let quiet := match (s.lane l).goodAt with | some x => x + 6144 ≤ s.tb | none => true
    if s.is (R.LNE_LN_CTL_EN l) && (lockLost || quiet) then s.laneLose l else s

/-- A declaration of desaturation is a strike; the third within 100 ms latches the channel (R190–R192). -/
def State.desaturate (s : State) (ch : Nat) : State :=
  let l := ch / 4
  let i := ch % 4
  let recent := (s.chan ch).strikes.filter fun x => s.tb ≤ x + 1600000000
  let latch := 2 ≤ recent.length
  let s := s.upChan ch fun c => { c with strikes := recent ++ [s.tb], desatAt := some s.tb, qual := 0 }
  let s := (s.bump (R.LNE_LN_DESAT_COUNT l)).set1 (R.LNE_LN_INT_STAT_DESAT l)
  let s := s.orr (R.LNE_LN_DESAT_ACTIVE l) (2 ^ i)
  let s := if latch then (s.orr (R.LNE_LN_DESAT_LATCHED l) (2 ^ i)).set1 (R.LNE_LN_INT_STAT_DS_LATCH l) else s
  (s.sendSoftoff l 0 (2 ^ i) true).fsAssert (48 + ch)

/-- A channel's desaturation source released. -/
def State.desatRelease (s : State) (ch : Nat) : State :=
  let s := s.upChan ch fun c => { c with desatAt := none }
  (s.andn (R.LNE_LN_DESAT_ACTIVE (ch / 4)) (2 ^ (ch % 4))).fsRelease (48 + ch)

/-- Whether a sample qualifies for desaturation of a channel: it lies in an on-interval, behind its blanking (R190). -/
def State.qualifies (s : State) (ch sample byte : Nat) : Bool :=
  let blank := 128 * clampN 63 1250 (s.get (R.LNE_LN_BLANK (ch / 4)))
  ((s.chan ch).ons.any fun (a, b) => a + blank ≤ sample && b.all (sample < ·)) && bit byte 0 && !bit byte 2

/-- What a CRC-good frame's channel byte decides: desaturation (R190–R192) and the gate comparison (R195). -/
def State.channelByte (s : State) (ch sample byte : Nat) : State :=
  let l := ch / 4
  let gate := bit byte 1
  let c := s.chan ch
  let s := if s.qualifies ch sample byte then
      (if c.qual = 0 then s.upChan ch fun c => { c with qual := 1 } else s.desaturate ch)
    else s.upChan ch fun c => { c with qual := 0 }
  let s := match (s.chan ch).desatAt with
    | some x => if !bit (s.get (R.LNE_LN_DESAT_LATCHED l)) (ch % 4) && x < sample && !gate then s.desatRelease ch else s
    | none => s
  let c := s.chan ch
  if bit byte 2 then s.upChan ch fun c => { c with gateMis := 0 }
  else if gate ≠ c.level && c.levelAt + 8000 ≤ sample then
    if c.gateMis = 0 then s.upChan ch fun c => { c with gateMis := 1 }
    else (s.upChan ch fun c => { c with gateMis := 0 }).set1 (R.LNE_LN_INT_STAT_GATE_MISMATCH l)
  else s.upChan ch fun c => { c with gateMis := 0 }

/-- The class of an off-state reading (R196): 1 OK, 2 SHORT_DCN, 3 SHORT_DCP, 4 OPEN. -/
def diagClass (t0 t1 t2 r : Nat) : Nat :=
  if r < t0 then 2 else if r ≤ t1 then 1 else if r < t2 then 3 else 4

/-- A slot's diagnostic class. -/
def State.diagPut (s : State) (l i c : Nat) : State :=
  s.put (R.LNE_LN_DIAG_RES l) (setBits (s.get (R.LNE_LN_DIAG_RES l)) (4 * i) 3 c)

/-- The class of every selected slot. -/
def State.diagAll (s : State) (l mask c : Nat) : State :=
  (List.range 4).foldl (fun s i => if bit mask i then s.diagPut l i c else s) s

/-- A reading stored with its class (R197). -/
def State.diagRead (s : State) (l i r : Nat) : State :=
  let s := match i with
    | 0 => s.put (R.LNE_LN_DIAG_VAL0_S1 l) r
    | 1 => s.put (R.LNE_LN_DIAG_VAL0_S2 l) r
    | 2 => s.put (R.LNE_LN_DIAG_VAL1_S3 l) r
    | _ => s.put (R.LNE_LN_DIAG_VAL1_S4 l) r
  s.diagPut l i (diagClass (s.get (R.LNE_LN_DIAG_WIN0_T0 l)) (s.get (R.LNE_LN_DIAG_WIN0_T1 l))
    (s.get (R.LNE_LN_DIAG_WIN1 l)) r)

/-- The diagnostic steps a status frame moves on (R197). `refused` is DIAG_REFUSED, which stays set until CLEAR_FLAGS: it
tells of this DIAG where it was clear when the frame went out. The refused slots are those that are on or hold an edge, or
all selected where none is (DESIGN CHOICE, log entry 129). -/
def State.diagStep (s : State) (l : Nat) (busy refused : Bool) (idx val : Nat) : State :=
  let x := s.lane l
  match x.diag with
  | some (mask, _) =>
    if x.diagAt.isNone then s
    else if busy then s.upLane l fun x => { x with diagBusy := true }
    else if x.diagBusy then
      let ref := if !refused || x.diagFlag then 0
        else
          let m := (List.range 4).foldl (fun m i =>
            if bit mask i && (bit (bits (s.get (R.LNE_LN_HCH l)) (8 * i) 8) 1 || !(s.chan (4 * l + i)).flight.isEmpty)
            then m + 2 ^ i else m) 0
          if m = 0 then mask else m
      let s := s.diagAll l ref 5
      let left := mask - (mask &&& ref)
      let s := s.upLane l fun x => { x with diag := none, diagAt := none, diagBusy := false, diagWait := left }
      if left = 0 then s.set1 (R.LNE_LN_INT_STAT_DIAG_DONE l) else s
    else s
  | none =>
    if idx < 4 && bit x.diagWait idx then
      let s := s.diagRead l idx val
      let left := withBit x.diagWait idx false
      let s := s.upLane l fun x => { x with diagWait := left }
      if left = 0 then s.set1 (R.LNE_LN_INT_STAT_DIAG_DONE l) else s
    else s

/-- A CRC-good status frame mirrored (R188). -/
def State.mirrorFrame (s : State) (l : Nat) (bs : List Byte) : State :=
  let b (i : Nat) : Nat := leAt bs i 1
  let s := s.put (R.LNE_LN_HCH l) (leAt bs 2 4)
  let s := s.put (R.LNE_LN_HSEQ l) (leAt bs 6 4)
  let s := s.put (R.LNE_LN_HSTAT l) (b 10 + 256 * b 11 + 65536 * b 14)
  let idx := bits (b 11) 0 4
  let s := if idx % 2 = 0 then s.put (R.LNE_LN_MUX_EVEN l (idx / 2)) (beAt bs 12 2)
           else s.put (R.LNE_LN_MUX_ODD l (idx / 2)) (beAt bs 12 2)
  let s := s.put (R.LNE_LN_STAT_HEAD_SAFE l) (bits (b 10) 0 1)
  let s := s.put (R.LNE_LN_STAT_HEAD_CAUSE l) (bits (b 10) 1 3)
  let s := s.put (R.LNE_LN_STAT_HEAD_UV l) (bits (b 10) 4 1)
  let s := s.put (R.LNE_LN_STAT_OTHER_LINK l) (bits (b 10) 6 1)
  let s := s.put (R.LNE_LN_STAT_PORT l) (bits (b 10) 7 1)
  s.put (R.LNE_LN_STAT_TSRC l) (bits (b 11) 4 1)

/-- The events a status frame sets against the one before it (R188, R199). -/
def State.frameEvents (s : State) (l c10 c14 c10' c14' : Nat) : State :=
  let s := if bit c10' 0 && !bit c10 0 then
      (s.set1 (R.LNE_LN_INT_STAT_HEAD_SAFE l)).bump (R.LNE_LN_COUNT1_HEADSAFE l) else s
  let s := if bit c10' 4 && !bit c10 4 then s.set1 (R.LNE_LN_INT_STAT_HEAD_UV l) else s
  let s := if !bit c10' 6 then s.set1 (R.LNE_LN_INT_STAT_PORT_LOST l) else s
  let s := if bit c14' 0 && !bit c14 0 then s.set1 (R.LNE_LN_INT_STAT_MISMATCH l) else s
  if (s.lane l).cfgAt.isSome && bit c14' 4 ≠ bit c14 4 then
    (s.upLane l fun x => { x with cfgWait := false, cfgAt := none }).set1 (R.LNE_LN_INT_STAT_CFG_DONE l)
  else s

/-- The link state a good frame leaves (R188). -/
def State.linkFrame (s : State) (l : Nat) (safe : Bool) : State :=
  if safe then
    (s.upLane l fun x => { x with wentSafe := true, good := 0 }).laneLose l
  else
    let s := s.upLane l fun x => { x with good := x.good + 1 }
    if s.get (R.LNE_LN_STAT_STATE l) = laneLost && !(s.lane l).wentSafe && 8 ≤ (s.lane l).good then
      ((s.laneState l laneUp).set1 (R.LNE_LN_INT_STAT_LINK_UP l)).laneCause l 0 false
    else s

/-! ### Training (R198) -/

/-- An arrival offset taken into the measurement. -/
def Train.take (r : Train) (o : Nat) : Train :=
  let first := if r.n = 0 then o else r.first
  let d : Int := (((o + 3072 - first) % 2048 : Nat) : Int) - 1024
  { r with n := r.n + 1, first := first, lo := min d (if r.n = 0 then d else r.lo), hi := max d (if r.n = 0 then d else r.hi)
           sum := d + (if r.n = 0 then 0 else r.sum) }

/-- The offset measured over 64 frames: their mean, rounded down (DESIGN CHOICE, log entry 130). -/
def Train.offset (r : Train) : Nat := (((r.first : Int) + 2048 + r.sum / 64) % 2048).toNat

/-- A training's next step, its counts begun anew. -/
def Train.next (r : Train) (step now : Nat) : Train := { r with step := step, at_ := now, n := 0, tries := 0 }

def State.upTrain (s : State) (l : Nat) (f : Train → Train) : State :=
  s.upLane l fun x => { x with train := x.train.map f }

/-- Steps 5 and 6: the next CONFIG, and after the last one RESYNC with CLEAR_SAFE to a head that is SAFE. -/
def State.trainConfig (s : State) (l : Nat) (r : Train) : State :=
  match (List.range 8).find? fun j => r.cfg ≤ j && s.is (R.LNE_LN_HCFG_VALID l j) with
  | some j =>
    (s.upTrain l fun _ => { r.next 5 s.tb with cfg := j + 1 }).queueCmd l
      (.config (s.get (R.LNE_LN_HCFG_ADDR l j)) (s.get (R.LNE_LN_HCFG_DATA l j)))
  | none =>
    if bit (s.get (R.LNE_LN_HSTAT l)) 0 then
      ((s.upTrain l fun _ => r.next 6 s.tb).sendSoftoff l 3 0xF false).queueCmd l (.config 0x1F 1)
    else s.upTrain l fun _ => { r.next 7 s.tb with skip := true }

/-- A measurement of 64 offsets that spread too far is taken again, four times at most; otherwise it goes to `f`. -/
def State.trainMeasure (s : State) (l : Nat) (r : Train) (o : Nat) (f : Train → State) : State :=
  let r := r.take o
  if r.n < 64 then s.upTrain l fun _ => r
  else if r.hi - r.lo ≤ 32 then f r
  else if r.tries = 3 then s.upTrain l fun _ => { r with err := 4 }
  else s.upTrain l fun _ => { r with n := 0, tries := r.tries + 1 }

/-- A CRC-good status frame moves the training on: its arrival offset, its MUX index, and whether CFG_ACK toggled. -/
def State.trainFrame (s : State) (l o idx : Nat) (ack : Bool) : State :=
  let h := s.get (R.LNE_LN_HSTAT l)
  match (s.lane l).train with
  | none => s
  | some r =>
    if r.err ≠ 0 then s
    else match r.step with
      | 1 => s.upTrain l fun r => if r.n = 7 then r.next 2 s.tb else { r with n := r.n + 1 }
      | 2 =>
        if idx ≠ 14 then s
        else s.upTrain l fun r => if s.get (R.LNE_LN_MUX_EVEN l 7) % 256 = 1 then r.next 3 s.tb else { r with err := 2 }
      | 3 => s.trainMeasure l r o fun r =>
        if r.zero || bit h 13 && bit h 12 ≠ bit h 7 then
          let delay := if r.zero then r.offset / 2 else r.offset
          if 800 < delay then s.upTrain l fun _ => { r with err := 3 }
          else ((s.put (R.LNE_LN_DELAY l) delay).upTrain l fun _ => r.next 4 s.tb).queueTime l
        else ((s.put (R.LNE_LN_DELAY l) 0).upTrain l fun _ => { r.next 3 s.tb with zero := true }).queueTime l
      | 4 =>
        if bit h 12 ≠ bit h 7 then s.trainConfig l r
        else s.trainMeasure l r o fun r =>
          let off : Int := (((r.offset + 3072 - s.get (R.LNE_LN_DELAY l)) % 2048 : Nat) : Int) - 1024
          if 16 < off.natAbs then s.upTrain l fun _ => { r with err := 4 } else s.trainConfig l r
      | 5 => if ack then s.trainConfig l r else s
      | 6 => if bit h 0 then s else s.upTrain l fun r => r.next 7 s.tb
      | _ => s

/-! ### A status frame -/

/-- A complete status frame (R20, R186–R192, R195). Its K28.5 arrived 16 characters ago, and its sample instant is that plus
16 ns minus DELAY. It replaces the newest frame, unread where no register that mirrors it has been read since (DEDUCED, log
entry 49). -/
def State.statusFrame (s : State) (l : Nat) (bs : List Byte) : State :=
  if !s.laneSends l then s
  else if bs.length ≠ 16 ∨ crc8 ((bs.drop 1).take 14) ≠ leAt bs 15 1 then
    let s := (s.bump (R.LNE_LN_COUNT0_CRCERR l)).upLane l fun x => { x with good := 0 }
    s.upTrain l fun r => if r.step = 1 then { r with n := 0 } else r
  else
    let s := s.lineRun l
    let s := if (s.lane l).unread then s.bump (R.LNE_LN_COUNT0_OVWR l) else s
    let old := s.get (R.LNE_LN_HSTAT l)
    let sample := s.tb - 2048 + 256 - s.get (R.LNE_LN_DELAY l)
    let s := s.mirrorFrame l bs
    let new := s.get (R.LNE_LN_HSTAT l)
    let s := s.upLane l fun x => { x with goodAt := some s.tb, sample := some sample, unread := true }
    let s := s.frameEvents l (bits old 0 8) (bits old 16 8) (bits new 0 8) (bits new 16 8)
    let s := s.laneCause l 1 (bit new 4)
    let s := (List.range 4).foldl (fun s i => s.channelByte (4 * l + i) sample (leAt bs (2 + i) 1)) s
    let s := s.diagStep l (bit new 5) (bit new 19) (bits new 8 4) (beAt bs 12 2)
    (s.linkFrame l (bit new 0)).trainFrame l (s.tb % 2048) (bits new 8 4) (bit new 20 ≠ bit old 20)

def execStatusFrameReceive (t l : Nat) (bytes : List Byte) (s : State) : Out :=
  laneUnit [.ce, .pwm, .fmx, .lne, .twn] (l < 12) t s fun s => s.statusFrame l bytes

/-- DESAT_CLEAR: a write to LNE_LNl_DSCLR (R192). -/
def State.desatClear (s : State) (l mask : Nat) : State :=
  (List.range 4).foldl (fun s i =>
    if !bit mask i then s
    else
      let ch := 4 * l + i
      let s := s.upChan ch fun c => { c with strikes := [] }
      if bit (s.get (R.LNE_LN_DESAT_LATCHED l)) i then
        (s.andn (R.LNE_LN_DESAT_LATCHED l) (2 ^ i)).desatRelease ch
      else s) s

def execDesatClear (t l mask : Nat) (s : State) : Out := laneUnit [.ce, .pwm, .fmx, .lne, .twn] (l < 12) t s fun s => s.desatClear l mask

/-- Whether the group of a lane is blocked; a lane that no loaded sheet owns counts as one (R159). -/
def State.laneBlocked (s : State) (l : Nat) : Bool :=
  match s.laneGroup l with | some g => s.blocked g | none => true

/-- DIAG_START: DIAG_CMD.GO (R197). -/
def State.diagStart (s : State) (l mask dur : Nat) : State :=
  if s.get (R.LNE_LN_STAT_STATE l) ≠ laneUp ∨ !s.laneBlocked l then s.diagAll l mask 7
  else
    let d := max 1 dur
    (s.upLane l fun x => { x with diag := some (mask % 16, d), diagAt := none, diagBusy := false, diagWait := 0 }).queueCmd l
      (.diag mask d)

def execDiagStart (t l mask dur : Nat) (s : State) : Out := laneUnit [.ce, .pwm, .fmx, .lne, .twn] (l < 12) t s fun s => s.diagStart l mask dur

/-- DIAG_TIMEOUT: DIAG_BUSY did not rise within 20 µs of the DIAG frame, or did not fall in time (R197). -/
def State.diagTimeout (s : State) (l : Nat) : State :=
  let x := s.lane l
  match x.diag, x.diagAt with
  | some (mask, dur), some t0 =>
    if (if x.diagBusy then t0 + 160000 * dur + 1600000 else t0 + 320000) ≤ s.tb then
      (s.diagAll l mask 6).upLane l fun x => { x with diag := none, diagAt := none, diagBusy := false }
    else s
  | _, _ => s

def execDiagTimeout (t l : Nat) (s : State) : Out := onUnit [.lne] (l < 12) t s fun s => s.diagTimeout l

/-- CONFIG_SEND: CFG_CMD.GO (R199). -/
def State.configSend (s : State) (l addr data : Nat) : State :=
  if s.get (R.LNE_LN_STAT_STATE l) ≠ laneUp then s.set1 (R.LNE_LN_INT_STAT_CFG_FAIL l)
  else (s.upLane l fun x => { x with cfgWait := true, cfgAt := none }).queueCmd l (.config addr data)

def execConfigSend (t l addr data : Nat) (s : State) : Out :=
  laneUnit [.ce, .pwm, .fmx, .lne, .twn] (l < 12) t s fun s => s.configSend l addr data

/-- CONFIG_TIMEOUT: 2 µs without a CFG_ACK toggle since the frame went out. -/
def State.configTimeout (s : State) (l : Nat) : State :=
  if (s.lane l).cfgAt.any (· + 32000 ≤ s.tb) then
    (s.upLane l fun x => { x with cfgWait := false, cfgAt := none }).set1 (R.LNE_LN_INT_STAT_CFG_FAIL l)
  else s
def execConfigTimeout (t l : Nat) (s : State) : Out :=
  laneUnit [.ce, .pwm, .fmx, .lne, .twn] (l < 12) t s fun s => (s.lineRun l).configTimeout l

/-- TRAIN_START: a write of TRAIN (R198). While a training runs it changes nothing. -/
def State.trainStart (s : State) (l : Nat) : State :=
  if (s.lane l).train.isSome then s
  else if !(s.laneBlocked l || s.muted l) then
    ((s.clr (R.LNE_LN_CTL_TRAIN l)).put (R.LNE_LN_STAT_TRAIN_ERR l) 6).set1 (R.LNE_LN_INT_STAT_TRAIN_FAIL l)
  else ((s.set1 (R.LNE_LN_CTL_TRAIN l)).laneState l laneTraining).upLane l fun x =>
    { x with train := some { from_ := s.tb, at_ := s.tb } }

def execTrainStart (t l : Nat) (s : State) : Out := laneUnit [.ce, .pwm, .fmx, .lne, .twn] (l < 12) t s fun s => s.trainStart l

/-- How a training stands (R198): 0 complete, its failure, or none while it runs. A step that waits has its own limit: 200 µs
for the head, 2 µs for an acknowledgement, 10 µs for SAFE; a head that falls silent otherwise ends it after 1 ms as NO_HEAD
(DESIGN CHOICE, log entry 130). -/
def State.trainResult (s : State) (r : Train) : Option Nat :=
  let past (from_ d : Nat) : Bool := from_ + d ≤ s.tb
  if r.err ≠ 0 then some r.err
  else if 7 ≤ r.step then some 0
  else if r.step = 1 && past r.from_ 3200000 then some 1
  else if r.step = 5 && past r.at_ 32000 || r.step = 6 && past r.at_ 160000 then some 5
  else if past r.from_ 16000000 then some 1
  else none

/-- TRAIN_END: training completes or fails (R198). A lane trained under the skip of step 6 stays muted. -/
def State.trainEnd (s : State) (l : Nat) : State :=
  match (s.lane l).train with
  | none => s
  | some r =>
    match s.trainResult r with
    | none => s
    | some e =>
      let s := (s.clr (R.LNE_LN_CTL_TRAIN l)).put (R.LNE_LN_STAT_TRAIN_ERR l) e
      let s := s.upLane l fun x => { x with train := none }
      if e ≠ 0 then (s.laneState l laneFailed).set1 (R.LNE_LN_INT_STAT_TRAIN_FAIL l)
      else
        let s := s.upLane l fun x => { x with wentSafe := false, skip6 := r.skip, good := 0 }
        let s := if r.skip then s.mute l muteTraining else s
        ((s.laneState l laneUp).set1 (R.LNE_LN_INT_STAT_TRAIN_DONE l)).laneCause l 0 false

/-- What waits for the line of a lane that stops is never sent. -/
def State.laneStops (s : State) (l : Nat) : State := s.upLane l Lane.quiet

/-- Every lane stops: the character clock goes (R327, R328). -/
def State.stopLanes (s : State) : State := (List.range 12).foldl (fun s l => (s.lineRun l).laneStops l) s

/-- LANE_DISABLE: CTL.EN was cleared (R202). The lane's causes end; a latched desaturation stays until DSCLR. -/
def State.laneDisable (s : State) (l : Nat) : State :=
  if s.is (R.LNE_LN_CTL_EN l) then s
  else
    let s := ((s.lineRun l).laneState l laneOff).clr (R.LNE_LN_CTL_TRAIN l)
    let s := (s.laneStops l).upLane l fun x =>
      { x with good := 0, goodAt := none, qfullEnd := none, diag := none, diagAt := none, diagBusy := false, diagWait := 0
               cfgWait := false, cfgAt := none, train := none, unread := false }
    let s := (s.put (R.LNE_LN_STAT_FS_CAUSE l) 0).laneSource l
    (List.range 4).foldl (fun s i =>
      let ch := 4 * l + i
      let s := s.upChan ch fun c => { c with pend := [], qual := 0 }
      if (s.chan ch).desatAt.isSome && !bit (s.get (R.LNE_LN_DESAT_LATCHED l)) i then s.desatRelease ch else s) s

def execLaneDisable (t l : Nat) (s : State) : Out := laneUnit [.ce, .pwm, .fmx, .lne, .twn] (l < 12) t s fun s => s.laneDisable l

end Sys2Proof.Machine
end

