-- ==== Sys2Proof/Machine/Net.lean ====
section
/-!
DEFINITION. Network ports, bridges, PRP, host interfaces, engine frames, beacons and the Commons (chapter 11, R203–R225).
Frames are byte lists from the DA on, without their FCS.
-/

namespace Sys2Proof.Machine

/-! ### Frames -/

/-- Whether a frame carries a VLAN tag, and its EtherType with the place of its body. -/
def tagged (f : List Byte) : Bool := beAt f 12 2 = 0x8100
def etherType (f : List Byte) : Nat := beAt f (if tagged f then 16 else 12) 2
def bodyAt (f : List Byte) : Nat := if tagged f then 18 else 14
def frameDa (f : List Byte) : Nat := beAt f 0 6
def frameSa (f : List Byte) : Nat := beAt f 6 6

/-- The device and pair addresses (R204). -/
def State.devMac (s : State) : Nat := s.get R.NET_DEVMAC_HI * 2 ^ 32 + s.get R.NET_DEVMAC_LO
def State.pairMac (s : State) : Nat := s.get R.NET_PAIRMAC_HI * 2 ^ 32 + s.get R.NET_PAIRMAC_LO

/-- The traffic class of a frame (R208). -/
def State.frameClass (s : State) (f : List Byte) : Nat :=
  let pcp := if tagged f then bits (beAt f 14 2) 13 3 else s.get R.NET_PCP_MAP_DEF_PCP
  bits (s.get R.NET_PCP_MAP_CLASS) (2 * pcp) 2

/-- A frame padded to 60 bytes. -/
def padFrame (f : List Byte) : List Byte := f ++ List.replicate (60 - f.length) 0

/-- The redundancy control trailer appended (Table 11-3). -/
def withRct (f : List Byte) (seq lan : Nat) : List Byte :=
  let f := padFrame f
  let size := f.length - 12 - (if tagged f then 4 else 0) + 6
  f ++ beBytes 2 seq ++ beBytes 1 (16 * lan + bits size 8 4) ++ beBytes 1 (size % 256) ++ beBytes 2 0x88FB

/-- A valid RCT: its SeqNr and LanId (R213). -/
def rctOf (f : List Byte) : Option (Nat × Nat) :=
  let n := f.length
  let size := n - 12 - (if tagged f then 4 else 0)
  let lan := beAt f (n - 4) 1 / 16
  if 20 ≤ n && beAt f (n - 2) 2 = 0x88FB && beAt f (n - 4) 2 % 4096 = size && (lan = 0xA || lan = 0xB) then
    some (beAt f (n - 6) 2, lan)
  else none

/-! ### Ports and egress (R203, R206, R208) -/

def State.linked (s : State) (p : Nat) : Bool := s.is (R.NET_P_STAT_LINK p)

/-- Whether the bridge or the service port of port `p` is enabled. -/
def State.portOn (s : State) (p : Nat) : Bool :=
  if p < 2 then s.is R.NET_CTL_EN_A else if p < 4 then s.is R.NET_CTL_EN_B else s.is R.NET_CTL_EN_S

/-- The other external port of a bridge. -/
def otherPort (p : Nat) : Nat := if p % 2 = 0 then p + 1 else p - 1

def State.egress (s : State) (p : Nat) : List TxFrame := s.net.egress.getD p []

/-- Bytes waiting in an egress buffer, FCS included. -/
def txBytes (q : List TxFrame) : Nat := q.foldl (fun n f => n + f.bytes.length + 4) 0

/-- The room of an egress buffer. A frame of the bridge's other port that waits while it still arrives holds the 2 000 bytes
it found free (R206, DEDUCED: log entry 171). -/
def State.txRoom (s : State) (p : Nat) : Nat :=
  32768 - txBytes (s.egress p) - (if p < 4 ∧ s.net.fwd.getD (otherPort p) .none = .wait then 2000 else 0)

/-- An egress queue replaced; TXOCC follows. -/
def State.setEgress (s : State) (p : Nat) (q : List TxFrame) : State :=
  (s.upNet fun n => { n with egress := n.egress.set p q }).put (R.NET_P_BUF_TXOCC p) ((txBytes q + 63) / 64)

/-- A frame joins an egress queue; a port without link discards it and counts. -/
def State.enqueue (s : State) (p : Nat) (f : TxFrame) : State :=
  if s.linked p then s.setEgress p (s.egress p ++ [f]) else s.bump (R.NET_P_CNT_HI p 3)

/-- PORT_LINK_CHANGE. Peer delays of a bridge port without link are not valid (R229). In DLL mode without SDCLK a link stays
down (R328). -/
def State.linkChange (s : State) (p : Nat) (up an : Bool) : State :=
  let was := s.linked p
  let s := (s.put (R.NET_P_STAT_LINK p) (b2n up)).put (R.NET_P_STAT_AN_DONE p) (b2n (up && an && s.is (R.NET_P_CTL_AN p)))
  let s := s.put R.NET_STAT (withBit (s.get R.NET_STAT) p up)
  let s := if was = up then s else s.set1 R.NET_INT_STAT_LINK_CHG
  if up || 4 ≤ p then s
  else
    let s := if (s.pdelay p).asked.isSome then s.bump (R.TSU_P_CNT0_PDLY_FAIL p) else s
    (s.clr (R.TSU_P_LDLY_VALID p)).upPdelay p fun x => { x with seen := false, results := [], asked := none, t1 := none, pend := none }
def execPortLinkChange (t p : Nat) (up an : Bool) (s : State) : Out := onUnit [.net, .tsu] (p < 5) t s fun s => s.linkChange p (up && s.serdesRuns) an

/-! ### Time frames at their SFD (R228–R230) -/

/-- A stamp taken at port `p`: in DLL mode with a resolution of 40 ns (R331), then adjusted (R228). -/
def State.rxStamp (s : State) (p : Nat) (t : Int) : Int := s.grid t + toS 16 (s.get (R.TSU_P_ADJ_RXADJ p))
def State.txStamp (s : State) (p : Nat) (t : Int) : Int := s.grid t + toS 16 (s.get (R.TSU_P_ADJ_TXADJ p))

/-- Sub-ticks added to a frame's correctionField. -/
def addCorrection (f : List Byte) (d : Int) : List Byte :=
  let at_ := bodyAt f + 8
  f.take at_ ++ beBytes 8 (ofS 64 (toS 64 (beAt f at_ 8) + 4096 * d)) ++ f.drop (at_ + 8)

/-- A frame as it leaves port `p` at `t`, with the field that its SFD's stamp completes. -/
def State.atSfd (s : State) (p : Nat) (t : Nat) (m : PtpMark) (f : List Byte) : List Byte :=
  match m with
  | .resp t2 => addCorrection f (s.txStamp p t - t2)
  | .sync rx q =>
    let d := s.txStamp p t - rx + toS 32 (s.get (R.TSU_P_ASYM q))
    addCorrection f (if (s.pdelay q).seen then d + s.get (R.TSU_P_LDLY_DELAY q) else d)
  | _ => f

/-- What the SFD leaves behind: t1 of a request; a Sync relayed without a link delay is counted. -/
def State.markSent (s : State) (p : Nat) (t : Nat) (m : PtpMark) : State :=
  match m with
  | .req q => s.upPdelay p fun x => if x.asked.map (·.1) = some q then { x with t1 := some (q, s.txStamp p t) } else x
  | .sync _ q => if (s.pdelay q).seen then s else s.bump (R.TSU_P_CNT0_NOLD q)
  | _ => s

/-- The mark of a frame relayed from port `p`: a Sync is corrected. -/
def State.relayMark (s : State) (p rx : Nat) (f : List Byte) : PtpMark :=
  if etherType f = 0x88F7 && beAt f (bodyAt f) 1 % 16 = 0 then .sync (s.rxStamp p rx) p else .none

/-! ### Classification (Table 11-2) -/

/-- The hash filter (R205). -/
def State.hashPass (s : State) (f : List Byte) : Bool :=
  let n := crc32 (f.take 6) >>> 26
  bit (if n < 32 then s.get R.NET_MC_HASH0 else s.get R.NET_MC_HASH1) (n % 32)

/-- What a received frame is: whether it loops, is forwarded, is consumed. -/
structure RxClass where
  loop : Bool := false
  fwd : Bool := false
  eat : Bool := false
  deriving DecidableEq, Repr

/-- Whether a group address is consumed (row 7). -/
def State.groupTaken (s : State) (f : List Byte) : Bool :=
  let da := frameDa f
  da = 0xFFFFFFFFFFFF || da = 0x03A7D0000001 || da = 0x01154E000100 || s.hashPass f

/-- Whether port S consumes a frame: rows 3, 5 and 7. -/
def State.eatsS (s : State) (f : List Byte) : Bool :=
  let da := frameDa f
  da / 16 = 0x0180C200000 || etherType f = 0x8808 || da = s.devMac || bit da 40 && s.groupTaken f

def State.classify (s : State) (f : List Byte) : RxClass :=
  let da := frameDa f
  let ty := etherType f
  if frameSa f = s.devMac then { loop := true }
  else if frameSa f = s.pairMac then { fwd := true }
  else if da / 16 = 0x0180C200000 ∨ ty = 0x8808 then { eat := true }
  else if ty = 0x88F7 then { fwd := true, eat := true }
  else if da = s.devMac then { eat := true }
  else if da = s.pairMac then { fwd := true, eat := true }
  else if bit da 40 then
    { fwd := true, eat := s.groupTaken f }
  else { fwd := true }

/-! ### Forwarding (R206) -/

def State.fwdState (s : State) (p : Nat) : Fwd := s.net.fwd.getD p .none
def State.setFwd (s : State) (p : Nat) (f : Fwd) : State := s.upNet fun n => { n with fwd := n.fwd.set p f }

/-- Whether a frame cut through from the bridge's other port is leaving port `q`: the egress is busy until it ends. -/
def State.cutting (s : State) (q : Nat) : Bool :=
  match s.fwdState (otherPort q) with
  | .cut _ _ => q < 4
  | _ => false

/-- Forwarding decided once the EtherType is in: `rx` is the SFD's receive instant. With the egress idle the frame is cut
through at once. Of a fragment that ended before its EtherType none begins. -/
def State.forwardStart (s : State) (p : Nat) (f : List Byte) (rx : Nat) : State :=
  if 4 ≤ p || !s.portOn p || s.fwdState p ≠ .none || f.length < bodyAt f then s
  else if !(s.classify f).fwd || !s.is (R.NET_P_CTL_FWD p) then s.setFwd p .drop
  else
    let q := otherPort p
    if !s.linked q then (s.bump (R.NET_P_CNT_HI q 3)).setFwd p .drop
    else if s.txRoom q < 2000 then (s.bump (R.NET_P_CNT_LO q 2)).setFwd p .drop
    else if (s.egress q).isEmpty && s.net.free.getD q 0 ≤ s.tb then
      let m := s.relayMark p rx f
      (s.setFwd p (.cut s.tb m)).markSent q s.tb m
    else s.setFwd p .wait

def execForwardStart (t p : Nat) (bytes : List Byte) (rx : Nat) (s : State) : Out :=
  onUnit [.net, .tsu] (p < 4) t s fun s => s.forwardStart p bytes rx

/-- The line of port `p` is busy with `n` bytes (FCS, gap and preamble besides) from an SFD at `x`. -/
def State.lineBusy (s : State) (p x n : Nat) : State :=
  s.upNet fun m => { m with free := m.free.set p (x + 128 * (n + 24)) }

/-- Port `p` has sent a frame whose SFD left at `x`. -/
def State.hasSent (s : State) (p x : Nat) (f : List Byte) (good : Bool) : State :=
  s.upNet fun n => { n with sent := n.sent.set p (some ⟨x, f, if good then some (crc32 f) else none⟩) }

/-- The frame has ended: forwarding ends; it is aborted, its bytes up to the length limit sent and ended with /V/ and a
failing FCS; or the whole frame joins the egress queue (one received with an error is not forwarded then: log entry 135). -/
def State.forwardEnd (s : State) (p : Nat) (f : List Byte) (rx : Nat) (good : Bool) : State :=
  let q := otherPort p
  let st := s.fwdState p
  let s := s.setFwd p .none
  match st with
  | .cut out m =>
    let f := f.take 2000
    let s := (s.lineBusy q out f.length).hasSent q out (s.atSfd q out m f) good
    if good then s.bumpWrap (R.NET_P_TX_OK q) else s.bump (R.NET_P_CNT_HI q 2)
  | .wait => if good then s.enqueue q { bytes := f, cls := s.frameClass f, mark := s.relayMark p rx f } else s
  | _ => s

/-- EGRESS_TRANSMIT: the line is free and the first frame of the highest class starts (R208). -/
def State.egressSend (s : State) (p : Nat) : State :=
  let q := s.egress p
  if q.isEmpty || s.cutting p || s.tb < s.net.free.getD p 0 then s
  else
    let top := q.foldl (fun c f => max c f.cls) 0
    match q.find? (·.cls = top) with
    | none => s
    | some f =>
      let s := s.setEgress p (q.eraseP (·.cls = top))
      if !s.linked p then s.bump (R.NET_P_CNT_HI p 3)
      else
        let out := s.atSfd p s.tb f.mark f.bytes
        let s := (s.markSent p s.tb f.mark).lineBusy p s.tb f.bytes.length
        let s := (s.hasSent p s.tb out true).bumpWrap (R.NET_P_TX_OK p)
        match f.own with
        | some (h, d) =>
          -- the first copy's SFD: the descriptor goes back to firmware
          let s := (List.range 5).foldl (fun s p => s.setEgress p ((s.egress p).map fun g =>
            if g.own = some (h, d) then { g with own := none } else g)) s
          -- the bank's checks hold for this write too (R296)
          let s := if s.bankRange ownNet d 16 then
              let s := s.writeLe (d + 4) 4 (setBits (s.readLe (d + 4) 4) 16 8 0)
              (s.writeLe (d + 8) 4 (s.tbShown % 2 ^ 32)).writeLe (d + 12) 4 0
            else s.bankViol ownNet (d + 4) true
          s.set1 (if h = 0 then R.NET_INT_STAT_H0_TX else R.NET_INT_STAT_H1_TX)
        | none => s
def execEgressTransmit (t p : Nat) (s : State) : Out := onUnit [.bnk, .net, .tsu, .mem] (p < 5) t s fun s => s.egressSend p

/-! ### Sending (R211, R212) -/

/-- Ports of the enabled bridges. -/
def State.lanPorts (s : State) : List Nat := [0, 1, 2, 3].filter fun p => s.portOn p
def lanOf (p : Nat) : Nat := if p < 2 then 0xA else 0xB

/-- The next number of the device or pair counter. -/
def State.takeSeq (s : State) (pair : Bool) : State × Nat :=
  let r := if pair then R.NET_PRP_SEQ_PAIR else R.NET_PRP_SEQ_DEVICE
  (s.bumpWrap r, s.get r)

/-- Whether the frame and its trailer fit into every egress buffer it goes to. -/
def State.roomAll (s : State) (ps : List Nat) (f : List Byte) : Bool :=
  ps.all fun p => !s.linked p || (padFrame f).length + 10 ≤ s.txRoom p

/-- A frame sent on both LANs from both ports of each; a copy without room is dropped. The answer counts those. -/
def State.sendPrp (s : State) (f : List Byte) (seq : Nat) (own : Option (Nat × Nat)) : State × Nat :=
  s.lanPorts.foldl (fun (s, n) p =>
    let g := withRct f seq (lanOf p)
    if s.linked p && s.txRoom p < g.length + 4 then (s, n + 1)
    else (s.enqueue p { bytes := g, cls := s.frameClass f, own := own }, n)) (s, 0)

/-- A device withholds its pair frames in JOINING and STANDBY (R212, R260). -/
def State.withholds (s : State) : Bool := s.is R.TWN_CTL_EN && (s.twState = 1 || s.twState = 2)

/-! ### Host interfaces (R216) -/

def State.ringSize (s : State) (r : RF) : Nat := 2 ^ clampN 4 10 (s.get r)

/-- TX_KICK. -/
def execTxKick (t h : Nat) (s : State) : Out :=
  onUnit [.net] (h < 2) t s fun s => s.upNet fun n => { n with tx := n.tx.set h true }

/-- A transmit descriptor fails: OWN clears, ERR shows why, HEAD advances. -/
def State.txFail (s : State) (d w1 err : Nat) : State :=
  (s.writeLe (d + 4) 4 (setBits (setBits w1 16 1 0) 20 4 err)).set1 R.NET_INT_STAT_TXERR

/-- The descriptor at the transmit HEAD is processed; it waits while an egress lacks room. `errs`: rows in error among those
read. With two bits wrong in the descriptor processing stops; in the buffer the descriptor fails as one with ERR = ADDR
(DESIGN CHOICE, log entry 176). -/
def State.hostTx (s : State) (h : Nat) (errs : List RowErr) : State :=
  let rowsOf (a n x : Nat) : Bool := a / 8 ≤ x / 8 && x / 8 ≤ (a + (n - 1)) / 8
  if !s.net.tx.getD h false then s
  else
    let head := s.get (R.NET_H_TXCFG_HEAD h)
    let d := s.get (R.NET_H_TXBASE h) / 16 * 16 + 16 * head
    let stop (s : State) : State := s.upNet fun n => { n with tx := n.tx.set h false }
    if !s.bankRange ownNet d 16 then (stop s).bankViol ownNet d false
    else
      let (s, bad) := s.meetRows (rowsOf d 16) errs
      let w1 := s.readLe (d + 4) 4
      let next (s : State) : State := s.put (R.NET_H_TXCFG_HEAD h) ((head + 1) % s.ringSize (R.NET_H_TXCFG_LOG2N h))
      let len := w1 % 65536
      let buf := s.readLe d 4
      if bad || !bit w1 16 then stop s
      else if len < 14 ∨ (if h = 0 then 1990 else 1996) < len then next (s.txFail d w1 1)
      else if !s.bankRange ownNet buf len then next ((s.bankViol ownNet buf false).txFail d w1 2)
      else
        let (s, bad) := s.meetRows (rowsOf buf len) errs
        let f := s.readBytes buf len
        if bad then next (s.txFail d w1 2)
        else if h = 0 && s.withholds && frameSa f = s.pairMac then
          -- a withheld frame takes its number, and its descriptor goes back to firmware (DEDUCED, log entry 174)
          next ((s.takeSeq true).1.writeLe (d + 4) 4 (setBits w1 16 1 0))
        else if h = 0 then
          if !s.roomAll s.lanPorts f then s
          else
            let (s, q) := s.takeSeq (frameSa f = s.pairMac)
            next (s.sendPrp f q (some (h, d))).1
        else if !s.portOn 4 then next s
        else if s.linked 4 && s.txRoom 4 < (padFrame f).length + 4 then s
        else next (s.enqueue 4 { bytes := padFrame f, cls := s.frameClass f, own := some (h, d) })
def execHostTxDescriptor (t h : Nat) (errs : List RowErr) (s : State) : Out :=
  onUnit [.bnk, .net, .twn, .ldg, .hlt, .mem] (h < 2) t s fun s => s.hostTx h errs

/-- A consumed frame is written to the receive descriptor at HEAD, or dropped. Its stamp has the resolution of R331. -/
def State.hostRx (s : State) (h p sfd : Nat) (f : List Byte) (rct : Option (Nat × Nat)) (wrong : Bool) : State :=
  let head := s.get (R.NET_H_RXCFG_HEAD h)
  let d := s.get (R.NET_H_RXBASE h) / 16 * 16 + 16 * head
  let drop (s : State) : State := (s.bump (R.NET_H_RXDROP h)).set1 R.NET_INT_STAT_RXDROP
  if !s.bankRange ownNet d 16 then drop (s.bankViol ownNet d false)
  else
    let w1 := s.readLe (d + 4) 4
    let buf := s.readLe d 4
    let f := if rct.isSome then f.take (f.length - 6) else f
    if !bit w1 16 then drop s
    else if !s.bankRange ownNet buf f.length then drop (s.bankViol ownNet buf true)
    else
      let s := s.writeBytes buf f
      let s := (s.writeLe (d + 4) 4 f.length).writeLe (d + 8) 4 ((s.grid sfd).toNat % 2 ^ 32)
      let w3 := p + 8 * b2n rct.isSome + 16 * b2n wrong + 65536 * (rct.map (·.1)).getD 0
      let s := s.writeLe (d + 12) 4 w3
      let s := s.put (R.NET_H_RXCFG_HEAD h) ((head + 1) % s.ringSize (R.NET_H_RXCFG_LOG2N h))
      s.set1 (if h = 0 then R.NET_INT_STAT_H0_RX else R.NET_INT_STAT_H1_RX)

/-! ### Engine filters and transmit slots (R217, R218) -/

/-- A message written into a mailbox slot by the network or a twin: m + 1 of the filter's own count, buffer m mod 2, words
1–15 and then SEQ. -/
def State.filterWrite (s : State) (f slot stamp : Nat) (vals : List Nat) : State :=
  let was := s.get (R.NET_RXF_COUNT f)
  let m := if was = 0xFFFFFFFF then 1 else was + 1
  let s := s.put (R.NET_RXF_COUNT f) m
  let a := 0x70000000 + 128 * slot + 64 * (m % 2)
  let s := s.writeBytes (a + 4) (leBytes 4 stamp ++ vals.flatMap (leBytes 4 ·))
  s.writeLe a 4 m

/-- From a write's completion to its apply instant (R249). -/
def State.applyDly (s : State) : Nat :=
  16 * max (s.get R.TWN_CFG_APPLY_DLY) (clampN 400 4000 (s.get R.TWN_CFG_PAIR_DLY) + 2100)

/-- An accepted engine data frame meets a filter. In a pair the journal source records the write of a paired sheet's
filter and holds it until its apply instant; a follower leaves it to the journal. -/
def State.filterTake (s : State) (f : Nat) (body : List Byte) : State :=
  let slot := s.get (R.NET_RXF_SLOT f)
  let stamp := beAt body 8 4
  let vals := (List.range 14).map fun k => beAt body (12 + 4 * k) 4
  let mine := match s.ownerOf .rxf f with | some n => s.paired n | none => false
  if !s.is R.TWN_CTL_EN ∨ !mine then s.filterWrite f slot stamp vals
  else if s.is R.TWN_STAT_JSRC then
    let s := s.twSend (.filter f slot stamp vals s.tb)
    { s with twn := { s.twn with held := s.twn.held ++ [.filter (s.tb + s.applyDly) f slot stamp vals] } }
  else s

/-- The filter that takes an engine data frame: the lowest-numbered enabled one of its CHAN. -/
def State.filterOf (s : State) (chan : Nat) : Option Nat :=
  (List.range 16).find? fun f => s.is (R.NET_RXF_CFG_EN f) && s.get (R.NET_RXF_CFG_CHAN f) = chan

/-- An engine data frame of a transmit slot (Table 11-5). -/
def State.slotFrame (s : State) (n : Nat) (seq stamp : Nat) (vals : List Nat) : List Byte :=
  beBytes 6 (s.get (R.NET_TXS_DA_HI n) * 2 ^ 32 + s.get (R.NET_TXS_DA_LO n)) ++ beBytes 6 s.pairMac ++
  beBytes 2 0x8100 ++ beBytes 2 (8192 * s.get (R.NET_TXS_CFG_PCP n) + s.get (R.NET_TXS_CFG_VID n)) ++
  beBytes 2 0x88B5 ++ [1, 2] ++ beBytes 2 68 ++
  beBytes 2 (s.get (R.NET_TXS_CFG_CHAN n)) ++ [0, 0] ++ beBytes 4 seq ++ beBytes 4 stamp ++ vals.flatMap (beBytes 4 ·)

/-- TRANSMIT_SLOT_FRAME: the writer engine's oldest SEQ write that the transmit slot has yet to answer. `eccBad`: the buffer
does not read correctly (R303). -/
def State.slotSend (s : State) (n ecc : Nat) : State :=
  match s.net.slotDue.find? (·.1 = n) with
  | none => s
  | some (_, b) =>
    let s := s.upNet fun x => { x with slotDue := x.slotDue.eraseP (·.1 = n) }
    if !s.is (R.NET_TXS_CFG_EN n) then s
    else
      let row := 0x70000000 + 128 * s.get (R.NET_TXS_SLOT n) + 64 * b
      let (s, bad) := s.meetRows (fun a => row / 8 ≤ a / 8 && a / 8 < row / 8 + 8)
        (if ecc = 0 then [] else [⟨row, ecc = 2⟩])
      if bad then s.bump (R.NET_TXS_COUNT_DROPS n)
      else
      let w (k : Nat) : Nat := s.readLe (0x70000000 + 128 * s.get (R.NET_TXS_SLOT n) + 64 * b + 4 * k) 4
      let f := s.slotFrame n (w 0) (w 1) ((List.range 14).map fun k => w (k + 2))
      let (s, num) := s.takeSeq true
      if s.withholds then s
      else
        let (s, lost) := s.sendPrp f num none
        (s.bump (R.NET_TXS_COUNT_SENT n)).bump (R.NET_TXS_COUNT_DROPS n) lost
def execTransmitSlotFrame (t n ecc : Nat) (s : State) : Out :=
  onUnit [.bnk, .net, .twn, .ldg, .hlt, .mem] (n < 16) t s fun s => s.slotSend n ecc

/-! ### Supervision and beacons (R214, R219) -/

/-- SUPERVISION_FRAME: every 2 s, in the layout of IEC 62439-3 (PRESUMED, log entry 31). -/
def State.supervision (s : State) : State :=
  if !s.is R.NET_CTL_SUPV_EN ∨ s.tb < s.net.supvAt then s
  else
    let f := beBytes 6 0x01154E000100 ++ beBytes 6 s.devMac ++ beBytes 2 0x88FB ++ beBytes 2 1 ++
      beBytes 2 s.net.supvSeq ++ [20, 6] ++ beBytes 6 s.devMac ++ [0, 0]
    let s := s.upNet fun n => { n with supvSeq := (n.supvSeq + 1) % 65536, supvAt := s.tb + 32000000000 }
    let (s, q) := s.takeSeq false
    (s.sendPrp f q none).1
def execSupervisionFrame (t : Nat) (s : State) : Out := act [.net] t s State.supervision

/-- The beacon period in ms, and whether an instant is a beacon instant. -/
def State.beaconMs (s : State) : Nat := clampN 10 1000 (s.get R.NET_CMN_CFG_PERIOD)
def State.beaconDue (s : State) : Bool :=
  let p := 16000000 * s.beaconMs
  s.tb % p = (s.get R.PWR_STRAP_NODE_ID * 4000000) % p

/-- MOULD_ID of the loaded SH0; 0 where none is loaded. -/
def State.mouldId (s : State) : Nat := if s.sheetLoaded 0 then s.get (R.MLD_SL_ID (s.get (R.MLD_SH_SRC_SLOT 0))) else 0

/-- A beacon (Table 11-6). -/
def State.beacon (s : State) : List Byte :=
  let flags := s.get R.TWN_STAT_ROLE + 2 * s.get R.TWN_CTL_EN + 4 * s.twState + 32 * s.get R.TSU_STAT_TIME_OK
  beBytes 6 0x03A7D0000001 ++ beBytes 6 s.devMac ++ beBytes 2 0x8100 ++ beBytes 2 0xA000 ++ beBytes 2 0x88B5 ++
  [1, 1] ++ beBytes 2 36 ++ beBytes 6 s.pairMac ++ beBytes 1 (s.get R.PWR_STRAP_NODE_ID) ++ beBytes 1 flags ++
  beBytes 2 s.net.bcnSeq ++ beBytes 2 s.beaconMs ++ beBytes 4 s.mouldId ++ beBytes 4 (s.get R.NET_BCN_STATUS) ++
  (List.range 4).flatMap fun j => beBytes 4 (s.get (R.NET_BCN_USER j))

/-- BEACON_SEND. -/
def State.beaconSend (s : State) : State :=
  if !s.is R.NET_CTL_BCN_EN || !s.beaconDue || s.net.bcnAt == some s.tb then s
  else
    let f := s.beacon
    let s := s.upNet fun n => { n with bcnSeq := (n.bcnSeq + 1) % 65536, bcnAt := some s.tb }
    let (s, q) := s.takeSeq false
    (s.sendPrp f q none).1
def execBeaconSend (t : Nat) (s : State) : Out := act [.net] t s State.beaconSend

/-! ### The Commons (R220–R223) -/

def State.ms (s : State) : Nat := s.tb / 16000000
def State.commonsAge (s : State) : Nat := max 1 (s.get R.NET_CMN_CFG_AGE)
def State.peerAt (s : State) (i : Nat) : Option Peer := (s.net.peers.find? (·.1 = i)).map (·.2)
def State.peerOf (s : State) (mac : Nat) : Option (Nat × Peer) := s.net.peers.find? (·.2.mac = mac)
def State.genOf (s : State) (i : Nat) : Nat := ((s.net.gens.find? (·.1 = i)).map (·.2)).getD 0

/-- USED and PINNED follow the entries. -/
def State.showCommons (s : State) : State :=
  (s.put R.NET_CMN_STAT_USED s.net.peers.length).put R.NET_CMN_STAT_PINNED (s.net.peers.filter (·.2.pinned)).length

/-- An entry written, and one removed. -/
def State.setPeer (s : State) (i : Nat) (p : Peer) : State :=
  (s.upNet fun n => { n with peers := (i, p) :: n.peers.filter (·.1 ≠ i) }).showCommons
def State.dropPeer (s : State) (i : Nat) : State :=
  (s.upNet fun n => { n with peers := n.peers.filter (·.1 ≠ i) }).showCommons

/-- GEN of an index and CMN_GEN count an addition or a removal. -/
def State.genStep (s : State) (i : Nat) : State :=
  let g := (s.genOf i + 1) % 65536
  (s.upNet fun n => { n with gens := (i, g) :: n.gens.filter (·.1 ≠ i) }).bumpWrap R.NET_CMN_GEN

/-- The entry that a new peer replaces: the unpinned one with the oldest LAST, the lower index first (R222). -/
def State.evictee (s : State) : Option Nat :=
  (s.net.peers.filter (!·.2.pinned)).foldl (fun b e =>
    match b with
    | none => some e
    | some x => if e.2.last < x.2.last ∨ (e.2.last = x.2.last ∧ e.1 < x.1) then some e else some x) none |>.map (·.1)

/-- A peer added at the lowest free index, or in place of another; false when every entry is pinned. -/
def State.addPeer (s : State) (p : Peer) : State × Bool :=
  match (List.range 512).find? fun i => (s.peerAt i).isNone with
  | some i => ((s.genStep i).setPeer i p, true)
  | none =>
    match s.evictee with
    | some i =>
      let s := (s.bump R.NET_CMN_EVICT).set1 R.NET_INT_STAT_CMN_EVICT
      ((s.genStep i).setPeer i p, true)
    | none => (s, false)

/-- A beacon copy offered to the Commons, received on port `p` (R220). -/
def State.offer (s : State) (port : Nat) (body : List Byte) : State :=
  let mac := beAt body 0 6
  if mac = s.pairMac then s
  else
    let now := s.ms
    let old := s.peerOf mac
    let was : Peer := match old with | some (_, p) => p | none => { mac := mac, first := now }
    let flags := beAt body 7 1
    let a := port < 2
    let roleB := bit flags 0
    let p : Peer := { was with
      node := beAt body 6 1 % 64, flags := flags, seq := beAt body 8 2, mould := beAt body 12 4
      status := beAt body 16 4, user := (List.range 4).map fun j => beAt body (20 + 4 * j) 4
      last := now, stale := false, unheard := false
      lanA := if a then some now else was.lanA
      lanB := if a then was.lanB else some now
      seenA := if roleB then was.seenA else some now
      seenB := if roleB then some now else was.seenB }
    match old with
    | some (i, _) =>
      let s := if was.stale then s.set1 R.NET_INT_STAT_CMN_STALE else s
      s.setPeer i p
    | none =>
      match s.addPeer p with
      | (s, true) => s.set1 R.NET_INT_STAT_CMN_NEW
      | (s, false) => (s.bump R.NET_CMN_REFUSED).set1 R.NET_INT_STAT_CMN_REFUSED

/-- COMMONS_AGING (R221); an entry not heard since the warm start stays STALE (R224). -/
def State.commonsTick (s : State) : State :=
  let now := s.ms
  let age := s.commonsAge
  s.net.peers.foldl (fun s (i, p) =>
    let old := age < now - p.last
    if p.pinned then
      let old := old || p.unheard
      if p.stale = old then s else (s.setPeer i { p with stale := old }).set1 R.NET_INT_STAT_CMN_STALE
    else if old then ((s.genStep i).dropPeer i).set1 R.NET_INT_STAT_CMN_LOST
    else s) s
def execCommonsAging (t : Nat) (s : State) : Out := act [.net] t s State.commonsTick

/-- A Commons command: one at a time; BUSY is answered with ERR = BUSY, an index above 511 with RANGE (R223). -/
def State.commonsCmd (s : State) (i : Nat) (f : State → State) : State :=
  if s.is R.NET_CMN_STAT_BUSY then s.put R.NET_CMN_STAT_ERR 4
  else
    let s := (s.set1 R.NET_CMN_STAT_BUSY).clr R.NET_CMN_STAT_ERR
    if 511 < i then s.put R.NET_CMN_STAT_ERR 3 else f s

/-- Heard within AGE. -/
def heard (now age : Nat) : Option Nat → Nat
  | some x => b2n (now - x ≤ age)
  | none => 0

/-- The window words (Table 11-7). -/
def State.peerWords (s : State) (i : Nat) (p : Peer) : List Nat :=
  let h := heard s.ms s.commonsAge
  [p.mac % 2 ^ 32,
   p.mac / 2 ^ 32 + 2 ^ 16 * p.node + 2 ^ 24 * b2n p.pinned + 2 ^ 25 * b2n p.stale + 2 ^ 26 * h p.seenA +
     2 ^ 27 * h p.seenB + 2 ^ 28 * h p.lanA + 2 ^ 29 * h p.lanB + 2 ^ 30,
   s.genOf i + 65536 * p.seq, p.mould, p.status, p.last % 2 ^ 32, p.first % 2 ^ 32, p.flags] ++ p.user

/-- READ copies the entry into the window; an unused index reads VALID = 0. -/
def State.commonsRead (s : State) (i : Nat) : State :=
  let ws (s : State) (l : List Nat) : State :=
    ((List.range 12).zip l).foldl (fun s (j, v) => s.put (R.NET_CMN_W j) v) s
  match s.peerAt i with
  | some p => ws s (s.peerWords i p)
  | none => (ws s ([0, 0, s.genOf i] ++ List.replicate 9 0)).put R.NET_CMN_STAT_ERR 1

/-- PIN and UNPIN. An entry that is no longer pinned shows no STALE, and that change counts as one (R221). -/
def State.commonsPin (s : State) (i : Nat) (pin : Bool) : State :=
  match s.peerAt i with
  | some p =>
    let s := if p.stale && !pin then s.set1 R.NET_INT_STAT_CMN_STALE else s
    s.setPeer i { p with pinned := pin, stale := p.stale && pin, unheard := p.unheard && pin }
  | none => s.put R.NET_CMN_STAT_ERR 1

/-- DELETE. -/
def State.commonsDelete (s : State) (i : Nat) : State :=
  match s.peerAt i with
  | some _ => (s.genStep i).dropPeer i
  | none => s.put R.NET_CMN_STAT_ERR 1

/-- PRESET pins the entry of the key's MAC and creates it when none exists. -/
def State.commonsPreset (s : State) : State :=
  let mac := s.get R.NET_CMN_KEY_HI * 2 ^ 32 + s.get R.NET_CMN_KEY_LO
  match s.peerOf mac with
  | some (i, p) => s.setPeer i { p with pinned := true }
  | none =>
    match s.addPeer { mac := mac, pinned := true, stale := true } with
    | (s, true) => s
    | (s, false) => s.put R.NET_CMN_STAT_ERR 2

def execRead (t i : Nat) (s : State) : Out := act [.net] t s fun s => s.commonsCmd i (·.commonsRead i)
def execPin (t i : Nat) (s : State) : Out := act [.net] t s fun s => s.commonsCmd i (·.commonsPin i true)
def execUnpin (t i : Nat) (s : State) : Out := act [.net] t s fun s => s.commonsCmd i (·.commonsPin i false)
def execDelete (t i : Nat) (s : State) : Out := act [.net] t s fun s => s.commonsCmd i (·.commonsDelete i)
def execPreset (t : Nat) (s : State) : Out := act [.net] t s fun s => s.commonsCmd 0 State.commonsPreset

/-- CMN_COMMAND_END: within 1 µs the command is over. -/
def execCmnCommandEnd (t : Nat) (s : State) : Out := act [.net] t s fun s =>
  if s.is R.NET_CMN_STAT_BUSY then (s.clr R.NET_CMN_STAT_BUSY).set1 R.NET_INT_STAT_CMN_DONE else s

/-! ### Reception (R205, R209–R213, R215) -/

/-- Whether a consumed vendor frame is discarded (R215): `n` bytes end at the RCT or the FCS. -/
def badVendor (f : List Byte) (n : Nat) : Bool :=
  let b := bodyAt f
  let sub := beAt f (b + 1) 1
  let len := beAt f (b + 2) 2
  beAt f b 1 ≠ 1 || !(sub = 1 || sub = 2) || len < (if sub = 1 then 36 else 68) || n < b + 4 + len

/-- DD_ENTRY_EXPIRY: entries are forgotten FORGET ms after they were made. -/
def State.ddExpire (s : State) : State :=
  let keep := msec * max 1 (s.get R.NET_PRP_CFG)
  s.upNet fun n => { n with dd := n.dd.filter fun e => s.tb < e.2.2 + keep }
def execDdEntryExpiry (t : Nat) (s : State) : Out := act [.net] t s State.ddExpire

/-- Duplicate discard: the state after the lookup, and whether the frame is a duplicate. -/
def State.ddLookup (s : State) (sa seq : Nat) : State × Bool :=
  let s := s.ddExpire
  if s.net.dd.any fun e => e.1 = sa && e.2.1 = seq then (s.bump R.NET_PRP_DUP, true)
  else
    let full := 4096 ≤ s.net.dd.length
    let s := if full then (s.bump R.NET_PRP_DDOVF).set1 R.NET_INT_STAT_DDOVF else s
    (s.upNet fun n => { n with dd := (if full then n.dd.drop 1 else n.dd) ++ [(sa, seq, s.tb)] }, false)

/-- Safety frames go to the island through its queue of 16 frames, where the rows NATIVE_SAFETY_FRAME and NAY2400_SAFETY_FRAME
take them (R288). -/
def State.toIsland (s : State) (p : Nat) (f : List Byte) (n : Nat) : State :=
  if 16 ≤ s.isle.queue.length then s.bump R.WCH_STAT_DISCARD
  else s.upIsle fun i => { i with queue := i.queue ++
    [{ port := p, native := etherType f = 0x88B7, sa := frameSa f, body := (f.take n).drop (bodyAt f) }] }

/-- A time frame at the time unit: delay requests and responses are only relayed, and so are peer delay messages of another
DA (Table 12-1). The rows of chapter 12 take the others. -/
def State.toTime (s : State) (p : Nat) (f : List Byte) : State :=
  let m := beAt f (bodyAt f) 1 % 16
  let s := if m = 1 ∨ m = 9 then s.bump (R.TSU_P_CNT1_E2E p) else s
  if (m = 2 ∨ m = 3 ∨ m = 10) ∧ frameDa f ≠ 0x0180C200000E then s.bump (R.TSU_P_CNT1_BADDA p) else s

/-- A consumed frame of a bridge port, checked whole, goes to its one destination (R205). -/
def State.consume (s : State) (p sfd : Nat) (f : List Byte) : State :=
  let ty := etherType f
  let b := bodyAt f
  let rct := rctOf f
  let n := if rct.isSome then f.length - 6 else f.length
  if ty = 0x8808 then s.bump (R.NET_P_CNT_HI p 1)
  else if ty = 0x88B5 && badVendor f n then s.bump R.NET_BADVND
  else
    let beacon := ty = 0x88B5 && beAt f (b + 1) 1 = 1
    let s := if beacon then s.offer p (f.drop (b + 4)) else s
    let (s, dup, wrong) := match rct with
      | some (seq, lan) =>
        let wrong := lan != lanOf p
        let s := if wrong then s.bump R.NET_PRP_WRONGLAN else s
        let (s, dup) := s.ddLookup (frameSa f) seq
        (s, dup, wrong)
      | none => (s.bump R.NET_PRP_NONPRP, false, false)
    if dup || beacon then s
    else if ty = 0x88F7 then s.toTime p f
    else if ty = 0x88B6 ∨ ty = 0x88B7 then s.toIsland p f n
    else if ty = 0x88B5 then
      match s.filterOf (beAt f (b + 4) 2) with
      | some k => s.filterTake k (f.drop (b + 4))
      | none => s.hostRx 0 p sfd f rct wrong
    else s.hostRx 0 p sfd f rct wrong

/-- A consumed frame of port S goes to H1. -/
def State.consumeS (s : State) (sfd : Nat) (f : List Byte) : State :=
  if etherType f = 0x8808 then s.bump (R.NET_P_CNT_HI 4 1)
  else if etherType f = 0x88B5 && badVendor f f.length then s.bump R.NET_BADVND
  else s.hostRx 1 4 sfd f none false

/-- The bytes of frames held. -/
def rxSize (l : List RxHeld) : Nat := l.foldl (fun n e => n + e.size) 0

/-- What a receive buffer still holds: the frames whose destinations have not taken them by now. -/
def State.rxHeld (s : State) (p : Nat) : List RxHeld := (s.net.rx.getD p []).filter fun e => s.tb < e.till

/-- Whether a consumed frame of `n` bytes has room in the 64 KiB receive buffer, of which classes 0 to 2 together may occupy
56 KiB (R209). -/
def State.rxRoom (s : State) (p cls n : Nat) : Bool :=
  let held := s.rxHeld p
  rxSize held + n ≤ 65536 && (cls = 3 || rxSize (held.filter (·.cls ≠ 3)) + n ≤ 57344)

/-- A frame is in the receive buffer until its destination has taken it: a free time, from a fresh draw. -/
def State.rxHold (s : State) (p cls n : Nat) : State :=
  let e : RxHeld := ⟨cls, n, s.tb + Config.takeTime s.drawn⟩
  let held := s.rxHeld p ++ [e]
  { s with drawn := s.drawn + 1, net := { s.net with rx := s.net.rx.set p held } }

/-- FRAME_RECEIVE: a frame has ended on port `p`. `fcsOk`: no code error, and the FCS passes; `sfd`: when its SFD came. -/
def State.frameReceive (s : State) (p : Nat) (f : List Byte) (fcsOk : Bool) (sfd : Nat) : State :=
  if !s.portOn p || !s.linked p then s
  else
    let long := 2000 < f.length + 4
    let short := f.length + 4 < 64
    let good := fcsOk && !long && !short
    let s := if p < 4 then (s.forwardStart p f sfd).forwardEnd p f sfd good else s
    if long then s.bump (R.NET_P_CNT_HI p 0)
    else if !good then s.bump (R.NET_P_CNT_LO p 0)
    else
      let s := s.bumpWrap (R.NET_P_RX_OK p)
      let c := s.classify f
      if p < 4 && c.loop then (s.bump (R.NET_P_CNT_LO p 3)).set1 R.NET_INT_STAT_LOOP
      else if !(if p < 4 then c.eat else s.eatsS f) then s
      else if !s.rxRoom p (s.frameClass f) (f.length + 4) then s.bump (R.NET_P_CNT_LO p 1)
      else
        let s := s.rxHold p (s.frameClass f) (f.length + 4)
        if p < 4 then s.consume p sfd f else s.consumeS sfd f
def execFrameReceive (t p : Nat) (bytes : List Byte) (fcsOk : Bool) (sfd : Nat) (s : State) : Out :=
  onUnit [.bnk, .net, .tsu, .twn, .wch, .mem] (p < 5) t s fun s => s.frameReceive p bytes fcsOk sfd

end Sys2Proof.Machine
end

