-- ==== Sys2Proof/Machine/Time.lean ====
section
/-!
DEFINITION. Network time, peer delay, the time servos and the time triggers (chapter 12, R226–R239).
-/

namespace Sys2Proof.Machine

/-- A command that may step TB (R234, R246): TB still never runs backward. -/
def actTime (reach : List Part) (t : Nat) (s : State) (f : State → State) : Out :=
  if s.held then act [] t s id
  else
    let r := f (s.at t)
    .next (s.finish reach (max (s.at t).tb (r.tb % 2 ^ 64)) r)
def onUnitTime (reach : List Part) (ok : Prop) [Decidable ok] (t : Nat) (s : State) (f : State → State) : Out :=
  if ok then actTime reach t s f else .fault .noSuchUnit

/-- One second of TB. -/
def second : Nat := 16000000000

/-- 2^`l` seconds in sub-ticks. -/
def logSeconds (l : Int) : Nat := if 0 ≤ l then second * 2 ^ l.toNat else second / 2 ^ (-l).toNat

/-! ### Fractions (R232 computes in ppb) -/

def fracNorm (x : Int × Nat) : Int × Nat :=
  let g := Nat.gcd x.1.natAbs x.2
  if g = 0 then (0, 1) else (x.1 / (g : Int), x.2 / g)
def fracAdd (x y : Int × Nat) : Int × Nat := fracNorm (x.1 * y.2 + y.1 * x.2, x.2 * y.2)
def fracMul (x y : Int × Nat) : Int × Nat := fracNorm (x.1 * y.1, x.2 * y.2)
/-- `n / d` for an integer `d`; zero where `d` is zero. -/
def fracOf (n d : Int) : Int × Nat := if 0 < d then fracNorm (n, d.toNat) else if d < 0 then fracNorm (-n, (-d).toNat) else (0, 1)
/-- Limited to ±`m`. -/
def fracSat (m : Nat) (x : Int × Nat) : Int × Nat :=
  if (m : Int) * x.2 < x.1 then ((m : Int), 1) else if x.1 < -((m : Int) * x.2) then (-(m : Int), 1) else x
/-- In 1/16 ppb as a register shows it. -/
def fracReg (x : Int × Nat) : Nat := ofS 32 (satS 32 (divRne (16 * x.1) x.2))

/-! ### States and rates (R232, R233) -/

/-- The clock generator is locked: LOCKED of its modes (R323). -/
def State.clkLocked (s : State) : Bool := s.get R.CLK_STAT_MODE = 2

/-- A servo changes its state. -/
def State.setTd (s : State) (d v : Nat) : State :=
  if s.tdState d = v then s
  else
    let s := s.put (R.TSU_TD_STAT_STATE d) v
    let s := s.set1 (if d = 0 then R.TSU_INT_STAT_TD0_STATE else R.TSU_INT_STAT_TD1_STATE)
    let s := s.upDom d fun x => { x with good := 0, bad := 0, lockedAt := if v = tdLocked then some s.tb else none }
    let s := if v = tdAcquire then s.upDom d fun x => { x with acq := 0, prev := none, lastAt := some s.tb } else s
    s.showTimeOk

/-- Whether a domain is enabled. -/
def State.tdOn (s : State) (d : Nat) : Bool := s.is R.TSU_CTL_EN && s.is (R.TSU_TD_CFG_EN d)

/-- DISABLED and LISTEN follow the enables (Table 12-2); HOLD forces HOLDOVER on both servos meanwhile (R240). -/
def State.tdEnable (s : State) (d : Nat) : State :=
  if s.is R.TSU_CTL_HOLD then s.setTd d tdHoldover
  else if s.tdOn d then
    if s.tdState d = tdDisabled then s.setTd d tdListen else s
  else s.setTd d tdDisabled

/-- The rate in force, in ppb (R233); while the twin unit steers it is that unit's (R246). -/
def State.rateNow (s : State) : Int × Nat := fracNorm (toS 32 (s.get R.TSU_RATE), 16)
def State.setRate (s : State) (x : Int × Nat) : State :=
  let y := fracSat 100000 x
  let limit := y != x
  let s := if s.clkLocked then s.opsecNow else s
  let s := if limit && !s.is R.TSU_STAT_FREQ_LIMIT then s.set1 R.TSU_INT_STAT_FREQ_LIMIT else s
  let s := (s.put R.TSU_STAT_FREQ_LIMIT (b2n limit)).put R.TSU_RATE (fracReg y)
  if s.clkLocked then s.put R.CLK_RATE (fracReg y) else s

def State.setY (s : State) (d : Nat) (y : Int × Nat) : State :=
  (s.upDom d fun x => { x with y := y }).put (R.TSU_TD_RATE d) (fracReg y)

/-- Thresholds, sub-ticks. -/
def State.lockThr (s : State) (d : Nat) : Nat := 16 * s.get (R.TSU_TD_SERVO_LOCK_THR d)
def State.unlockThr (s : State) (d : Nat) : Nat := 128 * s.get (R.TSU_TD_SERVO_UNLOCK_THR d)
def State.slewMax (s : State) : Nat := clampN 10 200 (s.get R.TSU_SLEW_SLEW_MAX)

/-! ### Switching domains (R235) -/

/-- The offset in force is within LOCK_THR: the slew is over. -/
def State.slewCheck (s : State) (o : Int) : State :=
  if s.is R.TSU_STAT_SLEWING && o.natAbs ≤ s.lockThr s.inForce then
    ((s.clr R.TSU_STAT_SLEWING).set1 R.TSU_INT_STAT_SLEW_DONE).showTimeOk
  else s

/-- Domain `d` is put in force. A servo not in force counts its y against TB as it runs; put in force, its y is the whole
rate (DEDUCED, log entry 33). -/
def State.switchDomain (s : State) (d : Nat) : State :=
  let old := s.inForce
  if old = d then s
  else
    let r := fracSat 100000 (fracAdd s.rateNow (s.dom d).y)
    let s := s.setY old (fracAdd (s.dom old).y (-r.1, r.2))
    let s := (s.setY d r).upDom d fun x => { x with fell := false }
    let s := if s.is R.TWN_STAT_STEER then s else s.setRate r
    let s := (s.put R.TSU_STAT_INFORCE d).set1 R.TSU_STAT_SLEWING
    (s.set1 R.TSU_INT_STAT_SEL_CHG).showTimeOk

/-- The preferred domain is put in force once it is LOCKED; under AUTOSEL its return, after the other domain took its place,
waits for 60 s LOCKED. -/
def State.domainReturn (s : State) : State :=
  let p := s.get R.TSU_CTL_SEL
  if s.inForce = p || s.tdState p ≠ tdLocked then s
  else if s.is R.TSU_CTL_AUTOSEL && (s.dom p).fell && !(match (s.dom p).lockedAt with | some x => x + 60 * second ≤ s.tb | none => false) then s
  else s.switchDomain p
def execDomainReturn (t : Nat) (s : State) : Out := act [.clk, .pwr, .tsu] t s State.domainReturn

/-- A servo enters HOLDOVER; the other one takes over under AUTOSEL when it is LOCKED. -/
def State.holdover (s : State) (d : Nat) : State :=
  if s.tdState d ≠ tdAcquire && s.tdState d ≠ tdLocked then s
  else
    let s := s.setTd d tdHoldover
    if d = s.inForce && s.is R.TSU_CTL_AUTOSEL && s.tdState (1 - d) = tdLocked then
      (s.switchDomain (1 - d)).upDom d fun x => { x with fell := true }
    else s
def State.holdoverAll (s : State) : State :=
  -- a domain switched to by the first step may itself go to HOLDOVER by the second
  let s := [0, 1].foldl (fun s d => if s.tdState d = tdAcquire || s.tdState d = tdLocked then s.setTd d tdHoldover else s) s
  s

/-- SERVO_HOLD: `on` is written to HOLD. A servo that is not enabled leaves HOLDOVER as HOLD clears; the others leave it under
Table 12-2. -/
def State.servoHold (s : State) (on : Bool) : State := ((s.put R.TSU_CTL_HOLD (b2n on)).tdEnable 0).tdEnable 1
def execServoHold (t : Nat) (on : Bool) (s : State) : Out := act [.tsu] t s fun s => s.servoHold on

/-- SYNC_TIMEOUT: no usable Sync for three Sync intervals. -/
def State.syncTimeout (s : State) (d : Nat) : State :=
  match (s.dom d).lastAt with
  | some x => if x + 3 * logSeconds (toS 8 (s.get (R.TSU_TD_STAT_LOG_SYNC d))) ≤ s.tb then s.holdover d else s
  | none => s
def execSyncTimeout (t d : Nat) (s : State) : Out := onUnit [.clk, .pwr, .tsu] (d < 2) t s fun s => s.syncTimeout d

/-! ### Master and port selection (R231) -/

/-- What the dataset comparison of IEEE 1588 compares: of two grandmasters their datasets; of one grandmaster, by R231's own
order, the stepsRemoved and the port, LAN A first, then the lower index; last the sender's identity (log entry 139). -/
def Ann.dataset (a : Ann) : List Nat := [a.msg.p1, a.msg.cls, a.msg.acc, a.msg.var, a.msg.p2, a.msg.gm]
def Ann.path (a : Ann) : List Nat := [a.msg.steps, a.port, a.msg.ident]
def Ann.better (a b : Ann) : Bool := if a.msg.gm = b.msg.gm then lexLt a.path b.path else lexLt a.dataset b.dataset
def bestAnn (l : List Ann) : Option Ann :=
  l.foldl (fun b a => match b with | none => some a | some x => if a.better x then some a else b) none

/-- The qualified Announces of the domain's number and profile, from ports that satisfy `ok`. -/
def State.candidates (s : State) (d : Nat) (ok : Nat → Bool) : List Ann :=
  (s.dom d).anns.filter fun a => a.qualified && ok a.port && a.msg.dom = s.get (R.TSU_TD_CFG_DOMAIN d) &&
    (!s.is (R.TSU_TD_CFG_PROFILE d) || a.msg.tti.isSome)

/-- The best master's port becomes the source port. Another port or another master than the last one is slewed to, also
where none was selected in between (R235). -/
def State.selectMaster (s : State) (d : Nat) : State :=
  match bestAnn (s.candidates d fun _ => true) with
  | none => s.clr (R.TSU_TD_STAT_PORT_VALID d)
  | some a =>
    let moved := (s.dom d).master.isSome && (s.get (R.TSU_TD_STAT_PORT d) != a.port || (s.dom d).master != some a.msg.ident)
    let s := (s.put (R.TSU_TD_STAT_PORT d) a.port).set1 (R.TSU_TD_STAT_PORT_VALID d)
    let s := s.put (R.TSU_TD_STAT_STEPS_REMOVED d) a.msg.steps
    let s := s.put (R.TSU_TD_UTC_UTC_OFFSET d) (ofS 16 a.msg.utc)
    let s := s.put (R.TSU_TD_UTC_VALID d) (b2n a.msg.utcValid)
    let s := s.put (R.TSU_TD_UTC_LI61 d) (b2n a.msg.li61)
    let s := s.put (R.TSU_TD_UTC_LI59 d) (b2n a.msg.li59)
    let s := s.put (R.TSU_TD_GMTTI d) (a.msg.tti.getD 0)
    let s := if s.get (R.TSU_TD_GMID d) = a.msg.gm then s
      else (s.put (R.TSU_TD_GMID d) a.msg.gm).set1 (if d = 0 then R.TSU_INT_STAT_TD0_GM else R.TSU_INT_STAT_TD1_GM)
    let s := s.upDom d fun x => { x with master := some a.msg.ident }
    if s.tdState d = tdListen then
      let s := s.setTd d tdAcquire
      if s.is R.TSU_CTL_HOLD || !s.clkLocked then s.setTd d tdHoldover else s
    else if moved && d = s.inForce then (s.set1 R.TSU_STAT_SLEWING).showTimeOk
    else s

/-- A domain's CFG: its enable, its number and its profile. -/
def State.tdConfig (s : State) (d : Nat) : State :=
  let s := s.tdEnable d
  if s.tdOn d then s.selectMaster d else s

/-- An Announce of domain `d`: the second within four intervals of its sender qualifies it (PRESUMED, log entry 32). -/
def State.announceIn (s : State) (d p : Nat) (m : PtpAnnounce) : State :=
  let s := s.tdEnable d
  if !s.tdOn d || s.get (R.TSU_TD_CFG_DOMAIN d) ≠ m.dom then s
  else if s.is (R.TSU_TD_CFG_PROFILE d) && m.tti.isNone then s
  else
    let same (a : Ann) : Bool := a.port = p && a.msg.ident = m.ident
    let q := match (s.dom d).anns.find? same with
      | some a => a.qualified || s.tb ≤ a.at_ + 4 * logSeconds m.log
      | none => false
    let a : Ann := { port := p, msg := m, at_ := s.tb, qualified := q && m.steps < 255 }
    (s.upDom d fun x => { x with anns := a :: x.anns.filter fun b => !same b }).selectMaster d

def State.announce (s : State) (p : Nat) (m : PtpAnnounce) : State := (s.announceIn 0 p m).announceIn 1 p m
def execAnnounce (t p : Nat) (m : PtpAnnounce) (s : State) : Out := onUnit [.tsu] (p < 4) t s fun s => s.announce p m

/-- ANNOUNCE_TIMEOUT: Announces older than three intervals are forgotten; a servo that loses its master so goes to
HOLDOVER. -/
def State.announceTimeout (s : State) (d : Nat) : State :=
  let old (a : Ann) : Bool := a.at_ + 3 * logSeconds a.msg.log ≤ s.tb
  let mine (a : Ann) : Bool := a.port = s.get (R.TSU_TD_STAT_PORT d) && some a.msg.ident = (s.dom d).master
  let lost := (s.dom d).anns.any fun a => old a && mine a
  let gone := (s.dom d).anns.any old
  let s := s.upDom d fun x => { x with anns := x.anns.filter fun a => !old a }
  if !gone then s
  else
    let s := if lost then (s.bump (R.TSU_TD_CNT_ANN_TO d)).holdover d else s
    s.selectMaster d
def execAnnounceTimeout (t d : Nat) (s : State) : Out := onUnit [.clk, .pwr, .tsu] (d < 2) t s fun s => s.announceTimeout d

/-! ### Triggers (R237, R238) -/

/-- A trigger's period as it acts: 0 is one-shot. -/
def State.ttPeriod (s : State) (k : Nat) : Nat :=
  let p := s.get (R.TSU_TT_PERIOD k)
  if p = 0 then 0 else max p 16000

def State.ttLate (s : State) (k : Nat) : State :=
  (s.orr R.TSU_TT_LATE (2 ^ k)).set1 R.TSU_INT_STAT_TT_LATE

/-- A write of EN that changes it is on its way to TB (Table 1-4). Where it is a 1 behind a 0 still on its way, the 0 stops
the trigger as it arrives, and the 1 starts it anew. -/
def State.ttRequest (s : State) (k : Nat) : State :=
  s.upTrig k fun x =>
    match x.enReq with
    | some f =>
      if s.is (R.TSU_TT_CTL k) then { x with enReq := some s.crossAt, enAt := none, next := x.next.filter (· < f) }
      else { x with enReq := some s.crossAt }
    | none => { x with enReq := some s.crossAt }

/-- TT_ENABLE: EN takes effect at E, the first TB tick after the write has arrived in TB. -/
def State.ttEnable (s : State) (k : Nat) : State :=
  match (s.trig k).enReq with
  | none => s
  | some e =>
  if s.tb < e then s
  else
  let s := s.upTrig k fun x => { x with enReq := none }
  if !s.is (R.TSU_TT_CTL k) then s.upTrig k fun x => { x with next := none, enAt := none }
  else if (s.trig k).enAt.isSome then s
  else
    let st := s.get (R.TSU_TT_START k)
    let p := s.ttPeriod k
    if e < st then s.upTrig k fun x => { x with next := some st, enAt := some e }
    else if p = 0 then (s.clr (R.TSU_TT_CTL k)).ttLate k
    else
      let n := (e - st) / p + 1
      ((s.bump (R.TSU_TT_SKIP k) n).ttLate k).upTrig k fun x => { x with next := some (st + n * p), enAt := some e }
def execTtEnable (t k : Nat) (s : State) : Out := onUnit [.tsu] (k < 16) t s fun s => s.ttEnable k

/-- TT_FIRE: the trigger's instant has come. -/
def State.ttFire (s : State) (k : Nat) : State :=
  match (s.trig k).next with
  | none => s
  | some x =>
    -- a write of EN = 0 that has arrived by the instant stops it
    let stopped := !s.is (R.TSU_TT_CTL k) && (match (s.trig k).enReq with | some e => decide (e ≤ x) | none => true)
    if stopped || s.tb < s.effectAt x then s
    else
      let s := ((s.orr R.TSU_TT_FIRED (2 ^ k)).bumpWrap (R.TSU_TTN_FIRED k)).set1 R.TSU_INT_STAT_TT
      let p := s.ttPeriod k
      let s := s.upTrig k fun y => { y with fired := some x, next := if p = 0 then none else some (x + p) }
      let s := if p = 0 then (s.clr (R.TSU_TT_CTL k)).upTrig k fun y => { y with enAt := none } else s
      let s := s.syncTrigger k x
      (List.range 8).foldl (fun s g => if s.get (R.PWM_PG_CTL_TT g) = k then s.pwmFiring g x else s) s
def execTtFire (t k : Nat) (s : State) : Out := laneUnit [.scr, .ce, .pwm, .fmx, .lne, .tsu, .twn] (k < 16) t s fun s => s.ttFire k

/-- Firing instants that TB has passed without firing are skipped. -/
def State.ttSkip (s : State) (k : Nat) : State :=
  match (s.trig k).next with
  | none => s
  | some x =>
    if s.tb ≤ x then s
    else
      let p := s.ttPeriod k
      if p = 0 then
        ((s.bump (R.TSU_TT_SKIP k)).clr (R.TSU_TT_CTL k)).upTrig k fun y => { y with next := none, enAt := none }
      else
        let n := (s.tb - x + p - 1) / p
        (s.bump (R.TSU_TT_SKIP k) n).upTrig k fun y => { y with next := some (x + n * p) }

/-! ### Setting TB (R234) -/

/-- Durations are counted by clocks that a step of TB leaves alone: the instants they are counted from move with TB. Stamps,
and instants that are TB instants by their rules, stay. -/
def Pdelay.moved (o : Nat) (x : Pdelay) : Pdelay :=
  { x with
    at_ := x.at_.map (· + o), asked := x.asked.map fun (q, a) => (q, a + o), t1 := x.t1.map fun (q, t1) => (q, t1 + o)
    pend := x.pend.map fun (t4, part) => (t4 + o, part) }
def Domain.moved (o : Nat) (x : Domain) : Domain :=
  { x with
    prev := x.prev.map fun (m, t2, q) => (m, t2 + o, q - o)
    lastAt := x.lastAt.map (· + o), lockedAt := x.lockedAt.map (· + o)
    twoStep := x.twoStep.map fun (p, y) => (p, { y with rx := y.rx + o })
    anns := x.anns.map fun a => { a with at_ := a.at_ + o } }
def PtpMark.moved (o : Nat) : PtpMark → PtpMark
  | .resp t2 => .resp (t2 + o)
  | .sync rx p => .sync (rx + o) p
  | .req q => .req q
  | .none => .none
def Net.moved (o : Nat) (n : Net) : Net :=
  { n with
    dd := n.dd.map fun (a, q, x) => (a, q, x + o), free := n.free.map (· + o), supvAt := n.supvAt + o
    rx := n.rx.map fun l => l.map fun e => { e with till := e.till + o }
    egress := n.egress.map fun l => l.map fun f => { f with mark := f.mark.moved o }
    fwd := n.fwd.map fun
      | .cut x m => .cut (x + o) (m.moved o)
      | f => f }
def Lane.moved (o : Nat) (l : Lane) : Lane :=
  { l with
    wire := l.wire.map fun f => { f with at_ := f.at_ + o }, busy := l.busy + o, ran := l.ran + o, soft := l.soft.map fun (d, x) => (d + o, x)
    cmds := l.cmds.map fun (d, x) => (d + o, x), time := l.time.map (· + o), goodAt := l.goodAt.map (· + o)
    sample := l.sample.map (· + o), diagAt := l.diagAt.map (· + o), cfgAt := l.cfgAt.map (· + o)
    train := l.train.map fun t => { t with from_ := t.from_ + o, at_ := t.at_ + o } }
def Chan.moved (o : Nat) (c : Chan) : Chan :=
  { c with
    levelAt := c.levelAt + o, ons := c.ons.map fun (a, b) => (a + o, b.map (· + o)), strikes := c.strikes.map (· + o)
    desatAt := c.desatAt.map (· + o) }
def AdcGroup.moved (o : Nat) (a : AdcGroup) : AdcGroup :=
  { a with
    calFrom := a.calFrom + o, starve := a.starve + o, settle := a.settle.map (· + o)
    test := a.test.map fun t => { t with since := t.since + o }
    snap := a.snap.map fun x => { x with trig := x.trig + o, hold := x.hold + o } }
def Engine.moved (o : Nat) (e : Engine) : Engine :=
  { e with
    queue := e.queue.map fun (a, b, x) => (a, b, x + o), coefAt := e.coefAt.map (· + o), check := e.check.map fun (b, x) => (b, x + o)
    run := e.run.map fun r => { r with start := r.start + o }, endAt := e.endAt.map (· + o) }
def Twin.moved (o : Nat) (w : Twin) : Twin :=
  { w with
    heardAt := w.heardAt.map (· + o), pLockedAt := w.pLockedAt.map (· + o), own := w.own.map fun c => { c with at_ := c.at_ + o }
    theirs := w.theirs.map fun c => { c with at_ := c.at_ + o }, joiningAt := w.joiningAt + o, lostAt := w.lostAt.map (· + o)
    divAt := w.divAt.map (· + o), join := w.join.map fun j => { j with began := j.began + o, timed := j.timed.map (· + o) }
    limitAt := w.limitAt.map (· + o), steerAt := w.steerAt.map (· + o), healthyAt := w.healthyAt.map (· + o)
    muteAt := w.muteAt.map (·.map (· + o)), heard := w.heard.map fun (p, x) => (p, x + o), downAt := w.downAt.map (· + o)
    busy := w.busy.map (· + o), queue := w.queue.map fun q => { q with due := q.due + o } }
def Power.moved (o : Nat) (p : Power) : Power :=
  { p with
    opTb := p.opTb + o, dueAt := p.dueAt + o, start := p.start.map fun x => { x with began := x.began + o }
    confirmAt := p.confirmAt.map (· + o), wdogAt := p.wdogAt.map (· + o) }
def HltState.moved (o : Nat) (h : HltState) : HltState :=
  { h with tests := h.tests.map fun x => { x with from_ := x.from_ + o, last := x.last + o }, hot := h.hot.map (· + o) }

def State.moveClocks (s : State) (o : Nat) : State :=
  { s with
    doms := s.doms.map (·.moved o), pdelays := s.pdelays.map (·.moved o), net := s.net.moved o, lanes := s.lanes.map (·.moved o)
    chans := s.chans.map (·.moved o), adcs := s.adcs.map (·.moved o), engs := s.engs.map (·.moved o), twn := s.twn.moved o
    groups := s.groups.map fun g => { g with
      enReq := g.enReq.map (· + o), queue := g.queue.map fun c => { c with at_ := c.at_ + o }
      blockAt := g.blockAt.map (· + o) }
    trigs := s.trigs.map fun x => { x with enReq := x.enReq.map (· + o) }
    fltPins := s.fltPins.map fun p => { p with since := p.since + o, before := p.before.map (· + o) }
    chains := s.chains.map fun c => { c with frameAt := c.frameAt + o / 6400 * 6400 }
    move := s.move.map fun m => { m with since := m.since + o }, quad := { s.quad with since := s.quad.since + o }
    clk := { s.clk with smpAt := s.clk.smpAt.map (· + o) }, isle := { s.isle with off := s.isle.off - o }, pwr := s.pwr.moved o, hlt := s.hlt.moved o }

/-- TB steps forward by `o`: triggers skip what it passes, and enabled groups, all blocked, start their periods anew. -/
def State.stepTb (s : State) (o : Nat) : State :=
  let s := { s.moveClocks o with tb := (s.tb + o) % 2 ^ 64 }
  let s := ((s.bump R.TSU_STAT_STEPS).set1 R.TSU_STAT_TB_SET).set1 R.TSU_INT_STAT_TB_STEP
  let s := (List.range 16).foldl (fun s k => s.ttSkip k) s
  (List.range 8).foldl (fun s g =>
    if (s.group g).enAt.isSome then (s.upGroup g fun x => { x with enAt := none }).groupFollow g s.tb else s) s

/-! ### Servos (R232) -/

/-- Domain time minus TB of a Sync through port `p`: (m, t2). -/
def State.syncTimes (s : State) (p : Nat) (m : PtpSync) : Int × Int :=
  let e : Int := s.get R.TSU_EPOCH
  ((m.sec - e) * second + 16 * m.ns + divRne m.cf 4096 + s.get (R.TSU_P_LDLY_DELAY p) + toS 32 (s.get (R.TSU_P_ASYM p)),
   s.rxStamp p m.rx)

/-- Residual within LOCK_THR, residual beyond UNLOCK_THR. For the servo not in force the residual is o minus what its y
predicted from the Sync before; without one it is neither. -/
def State.judge (s : State) (d : Nat) (o t2 : Int) : Bool × Bool :=
  if d = s.inForce then (o.natAbs ≤ s.lockThr d, s.unlockThr d < o.natAbs)
  else match (s.dom d).prev with
    | none => (false, false)
    | some (_, u2, q) =>
      let y := (s.dom d).y
      let r := ((o - q) * (y.2 * 1000000000 : Nat) - y.1 * (t2 - u2)).natAbs
      let den := y.2 * 1000000000
      (r ≤ s.lockThr d * den, s.unlockThr d * den < r)

/-- A usable Sync of the source port. -/
def State.servo (s : State) (d : Nat) (m t2 : Int) (log : Int) : State :=
  let s := s.put (R.TSU_TD_STAT_LOG_SYNC d) (ofS 8 log)
  let s := if s.tdState d = tdHoldover then s.setTd d tdAcquire else s
  let s := s.bumpWrap (R.TSU_TD_CNT_SYNC d)
  let x := s.dom d
  let o := m - t2
  let (good, bad) := s.judge d o t2
  -- y from two consecutive Syncs at the start of ACQUIRE
  let s := match x.prev with
    | some (m0, u2, _) =>
      if s.tdState d = tdAcquire && x.acq = 1 then
        let rel := fracOf (((m - m0) - (t2 - u2)) * 1000000000) (t2 - u2)
        s.setY d (if d = s.inForce then fracAdd rel s.rateNow else rel)
      else s
    | none => s
  -- TB steps forward while every group is blocked
  let inf := d = s.inForce
  let thr : Nat := 16000 * max 1 (s.get R.TSU_SLEW_STEP_THR)
  let step := s.is R.TSU_CTL_STEP_EN && decide inf && s.tdState d = tdAcquire && decide ((thr : Int) < o) &&
    (List.range 8).all fun g => s.blocked g
  let s := if step then s.stepTb o.toNat else s
  let s := if decide inf && decide (o < -(thr : Int)) then s.set1 R.TSU_INT_STAT_STEP_BACK else s
  let t2 := if step then t2 + o else t2
  let o := if step then 0 else o
  let s := s.put (R.TSU_TD_OFFSET d) (ofS 64 o)
  -- the correction and the integral
  let dt : Int := match x.prev with | some (m0, _, _) => m - m0 | none => logSeconds log
  let c0 := fracMul (fracMul ((s.get (R.TSU_TD_SERVO_KP d) : Int), 256) (fracOf (o * second) (16 * dt))) (1, 1)
  let c := fracSat s.slewMax c0
  let s := if inf then s.slewCheck o else s
  let slewing := decide inf && s.is R.TSU_STAT_SLEWING
  let s := if c == c0 && !slewing then
      s.setY d (fracAdd (s.dom d).y (fracMul ((s.get (R.TSU_TD_SERVO_KI d) : Int), 256) (fracOf (o * second) (16 * dt))))
    else s
  let s := if decide inf && !s.is R.TWN_STAT_STEER then s.setRate (fracAdd (s.dom d).y c) else s
  let s := s.upDom d fun x => { x with
    prev := some (m, t2, o), lastAt := some s.tb, acq := x.acq + 1
    good := if step || good then x.good + 1 else 0
    bad := if bad && !step then x.bad + 1 else 0 }
  let s := if s.tdState d = tdAcquire && 4 ≤ (s.dom d).good then s.setTd d tdLocked
    else if s.tdState d = tdLocked && 4 ≤ (s.dom d).bad then s.setTd d tdAcquire else s
  s.domainReturn

/-- A complete Sync (with its Follow_Up where it is two-step) offered to domain `d`. -/
def State.syncFor (s : State) (d p : Nat) (y : PtpSync) : State :=
  let s := s.tdEnable d
  if !s.tdOn d || s.tdState d < tdAcquire || s.get (R.TSU_TD_CFG_DOMAIN d) ≠ y.dom || s.is R.TSU_CTL_HOLD || !s.clkLocked ||
      !(s.pdelay p).seen then s
  else
    let (m, t2) := s.syncTimes p y
    let src := s.is (R.TSU_TD_STAT_PORT_VALID d) && s.get (R.TSU_TD_STAT_PORT d) = p && (s.dom d).master = some y.ident
    let other := bestAnn (s.candidates d fun q => (q < 2) != (s.get (R.TSU_TD_STAT_PORT d) < 2))
    let alt := match other with | some a => a.port = p && a.msg.ident = y.ident | none => false
    if !src && !alt then s
    else if m < 0 || (2 : Int) ^ 64 ≤ m then s.set1 R.TSU_INT_STAT_EPOCH_RANGE
    else if src then s.servo d m t2 y.log
    else s.put (R.TSU_TD_ALTOFF d) (ofS 32 (satS 32 (m - t2 - toS 64 (s.get (R.TSU_TD_OFFSET d)))))

def State.syncDone (s : State) (p : Nat) (y : PtpSync) : State := (s.syncFor 0 p y).syncFor 1 p y

/-- SYNC_MESSAGE: a two-step Sync waits for its Follow_Up. While the clock generator is unlocked Syncs are discarded (R232). -/
def State.syncMessage (s : State) (p : Nat) (y : PtpSync) : State :=
  if !s.is R.TSU_CTL_EN || !s.clkLocked then s
  else if y.two then
    s.upDom 0 fun x => { x with twoStep := (p, y) :: x.twoStep.filter fun e => !(e.1 = p && e.2.ident = y.ident && e.2.dom = y.dom) }
  else s.syncDone p y
def execSyncMessage (t p : Nat) (m : PtpSync) (s : State) : Out :=
  onUnitTime [.clk, .pwr, .adc, .scr, .ce, .pht, .pwm, .fmx, .lne, .net, .tsu, .twn, .wch, .hlt] (p < 4) t s fun s => s.followed (s.syncMessage p m)

/-- FOLLOW_UP: the precise origin time, and a correction that adds to the Sync's. -/
def State.followUp (s : State) (p : Nat) (m : PtpSync) : State :=
  let same (e : Nat × PtpSync) : Bool := e.1 = p && e.2.ident = m.ident && e.2.dom = m.dom && e.2.seq = m.seq
  match (s.dom 0).twoStep.find? same with
  | none => s
  | some (_, y) =>
    let s := s.upDom 0 fun x => { x with twoStep := x.twoStep.filter fun e => !same e }
    s.syncDone p { y with sec := m.sec, ns := m.ns, cf := y.cf + m.cf }
def execFollowUp (t p : Nat) (m : PtpSync) (s : State) : Out :=
  onUnitTime [.clk, .pwr, .adc, .scr, .ce, .pht, .pwm, .fmx, .lne, .net, .tsu, .twn, .wch, .hlt] (p < 4) t s fun s => s.followed (s.followUp p m)

/-! ### Peer delay (R229) -/

/-- The request interval. -/
def State.pdelayInterval (s : State) (p : Nat) : Nat := logSeconds (clampI (-3) 3 (toS 4 (s.get (R.TSU_P_CFG_PDLY_LOG p))))

/-- A failed request: PDLY_FAIL counts, and sixteen in a row clear VALID. -/
def State.pdelayFail (s : State) (p : Nat) : State :=
  let s := (s.bump (R.TSU_P_CNT0_PDLY_FAIL p)).upPdelay p fun x => { x with fails := x.fails + 1, asked := none, t1 := none, pend := none }
  if 16 ≤ (s.pdelay p).fails then s.clr (R.TSU_P_LDLY_VALID p) else s

/-- PDELAY_TIMEOUT: the outstanding request got no response within its interval. -/
def State.pdelayTimeout (s : State) (p : Nat) : State :=
  match (s.pdelay p).asked with
  | some (_, x) => if x + s.pdelayInterval p ≤ s.tb then s.pdelayFail p else s
  | none => s
def execPdelayTimeout (t p : Nat) (s : State) : Out := onUnit [.tsu] (p < 4) t s fun s => s.pdelayTimeout p

/-- The device's port identity: its address as an EUI-64, and the port's number (PRESUMED, log entry 32). -/
def State.portIdentity (s : State) (p : Nat) : List Byte :=
  let m := beBytes 6 s.devMac
  m.take 3 ++ [0xFF, 0xFE] ++ m.drop 3 ++ beBytes 2 (p + 1)

/-- A peer delay message in the layout of IEEE 1588 (PRESUMED, log entry 32). -/
def State.pdelayFrame (s : State) (p kind dom seq : Nat) (cf : Int) (body : List Byte) : List Byte :=
  beBytes 6 0x0180C200000E ++ beBytes 6 s.devMac ++ beBytes 2 0x8100 ++ beBytes 2 (8192 * s.get (R.TSU_P_CFG_PCP p)) ++
  beBytes 2 0x88F7 ++ beBytes 1 kind ++ [0x12] ++ beBytes 2 54 ++ beBytes 1 dom ++ [0, 0, 0] ++ beBytes 8 (ofS 64 cf) ++
  [0, 0, 0, 0] ++ s.portIdentity p ++ beBytes 2 seq ++ [5, 0x7F] ++ body

/-- PDELAY_REQ_SEND. A request still without a response has had its interval and fails. -/
def State.pdelaySend (s : State) (p : Nat) : State :=
  let due := match (s.pdelay p).at_ with | some x => decide (x ≤ s.tb) | none => true
  if !s.is R.TSU_CTL_EN || !s.is (R.TSU_P_CFG_PDLY_EN p) || !s.linked p || !s.portOn p || !due then s
  else
    let s := if (s.pdelay p).asked.isSome then s.pdelayFail p else s
    let q := (s.pdelay p).seq
    let f := s.pdelayFrame p 2 (s.get (R.TSU_TD_CFG_DOMAIN 0)) q 0 (List.replicate 20 0)
    let s := s.upPdelay p fun x => { x with
      seq := (q + 1) % 65536, at_ := some (s.tb + s.pdelayInterval p), asked := some (q, s.tb), t1 := none, pend := none }
    s.enqueue p { bytes := padFrame f, cls := s.frameClass f, mark := .req q }
def execPdelayReqSend (t p : Nat) (s : State) : Out := onUnit [.net, .tsu] (p < 4) t s fun s => s.pdelaySend p

/-- PDELAY_REQ: a request of port identity `ident` (ten bytes as a number) is answered one-step. -/
def State.pdelayAnswer (s : State) (p ident seq dom : Nat) (cf : Int) (rx : Int) : State :=
  if !s.is R.TSU_CTL_EN || !s.linked p || !s.portOn p then s
  else
    let f := s.pdelayFrame p 3 dom seq cf (List.replicate 10 0 ++ beBytes 10 ident)
    s.enqueue p { bytes := padFrame f, cls := s.frameClass f, mark := .resp (s.rxStamp p rx) }
def execPdelayReq (t p ident seq dom : Nat) (cf rx : Int) (s : State) : Out :=
  onUnit [.net] (p < 4) t s fun s => s.pdelayAnswer p ident seq dom cf rx

/-- A link delay result: above 10 µs it fails; otherwise the mean over the last eight shows. -/
def State.pdelayResult (s : State) (p : Nat) (d : Int) : State :=
  if 160000 < d then s.pdelayFail p
  else
    let l := (d :: (s.pdelay p).results).take 8
    let mean := divRne (l.foldl (· + ·) 0) l.length
    let s := s.upPdelay p fun x => { x with results := l, fails := 0, seen := true, asked := none, t1 := none, pend := none }
    (s.put (R.TSU_P_LDLY_DELAY p) mean.toNat).set1 (R.TSU_P_LDLY_VALID p)

/-- PDELAY_RESP: a response, or with `fu` its Follow_Up, for request `seq`. `stamp` is its timestamp field in sub-ticks
(t2, in a Follow_Up t3), `cf` its correctionField, `rx` the response's receive stamp. -/
def State.pdelayResp (s : State) (p : Nat) (fu : Bool) (seq : Nat) (two : Bool) (stamp cf rx : Int) : State :=
  match (s.pdelay p).t1 with
  | none => s
  | some (q, t1) =>
    if q ≠ seq then s
    else if fu then
      match (s.pdelay p).pend with
      | none => s
      | some (t4, part) => s.pdelayResult p (divRne (t4 - t1 - (stamp + divRne cf 4096 + part)) 2)
    else
      let t4 := s.rxStamp p rx
      if two then s.upPdelay p fun x => { x with pend := some (t4, divRne cf 4096 - stamp) }
      else s.pdelayResult p (divRne (t4 - t1 - divRne cf 4096) 2)
def execPdelayResp (t p : Nat) (fu : Bool) (seq : Nat) (two : Bool) (stamp cf rx : Int) (s : State) : Out :=
  onUnit [.tsu] (p < 4) t s fun s => s.pdelayResp p fu seq two stamp cf rx

end Sys2Proof.Machine
end

