-- ==== Sys2Proof/Machine/Twin.lean ====
section
/-!
DEFINITION. Twin pair operation (chapter 13, R241–R267): the frames of the twin link, the journal, checkpoints and
verdicts, joins, partner loss, steering and handovers.
-/

namespace Sys2Proof.Machine

/-! ### The link (R241–R243) -/

/-- NAK: the missing frame is sent again while it is kept. -/
def execNak (t : Nat) (ok : Bool) (lseq missing : Nat) (s : State) : Out :=
  act [.twn] t s fun s => s.twinFrame ok lseq (·.twAgain missing)

/-- TWIN_LANE_DOWN and TWIN_LANE_UP. In DLL mode without SDCLK a lane stays down (R328). -/
def State.twinLane (s : State) (l : Nat) (up : Bool) : State :=
  let s := s.put R.TWN_STAT_LANES (withBit (s.get R.TWN_STAT_LANES) l up)
  if up then s
  else (s.set1 R.TWN_INT_STAT_LANE_DOWN).upTwn fun x => { x with downAt := x.downAt.set l s.tb }
def execTwinLaneDown (t l : Nat) (s : State) : Out := onUnit [.twn] (l < 2) t s fun s => s.twinLane l false
def execTwinLaneUp (t l : Nat) (s : State) : Out := onUnit [.twn] (l < 2) t s fun s => if s.serdesRuns then s.twinLane l true else s

/-! ### Groups of paired sheets -/

def State.pairedGroups (s : State) : List Nat :=
  (List.range 8).filter fun g => match s.groupSheet g with | some n => s.paired n | none => false
def State.pairedLanes (s : State) : List Nat :=
  (List.range 12).filter fun l => s.pairedGroups.any fun g => (s.groupLanes g).contains l
def State.lanesUp (s : State) : Bool := s.pairedLanes.all fun l => s.get (R.LNE_LN_STAT_STATE l) = laneUp

/-- Engine units of loaded paired sheets. -/
def State.pairedUnits (s : State) : List Nat :=
  (List.range 8).filter fun u => s.sheetLoaded (u + 1) && s.paired (u + 1)
/-- Of these, the ones whose engines run on both devices (R264). -/
def State.runningUnits (s : State) : List Nat := s.pairedUnits.filter fun u => s.engLive (s.phys u) && s.partnerRuns u

/-! ### Joins (R262–R264) -/

/-- A join fails with a code of TWN_JOIN.ERR; the steering of its step 2 ends. -/
def State.joinFail (s : State) (code : Nat) : State :=
  let s := (s.put R.TWN_JOIN_ERR code).set1 R.TWN_INT_STAT_JOIN_ERR
  let s := (s.upTwn fun x => { x with join := none, inStep := [], late := [], atX := [], steerAt := none }).clr R.TWN_STAT_STEER
  s.showTimeOk.showAllLive

/-- The blocks of a transfer as (address, length): 1 KiB blocks of a unit's engine memory, at the addresses of the engine
whose sheet it is, and the mailbox slots of its sheet. -/
def State.unitBlocks (s : State) (u : Nat) : List (Nat × Nat) :=
  (List.range 64).map (fun i => (ceBase u + 1024 * i, 1024)) ++
  (s.mld.own.filter fun r => r.kind = .mailbox && r.sheet = u + 1).map fun r => (0x70000000 + 128 * r.idx, 128)

/-- Where a block lies on this device: CE7's memory stands for that of the engine it carries (R99). -/
def State.here (s : State) (a : Nat) : Nat :=
  if 0x60000000 ≤ a && a < 0x60080000 then ceBase (s.phys ((a - 0x60000000) / 0x10000)) + a % 0x10000 else a
def State.blockBytes (s : State) (b : Nat × Nat) : List Byte := s.readBytes (s.here b.1) b.2

/-- The CRCs of a unit's blocks go to the device in step, which sends the blocks that differ (R262). -/
def State.joinCrcs (s : State) (u : Nat) : State :=
  (s.unitBlocks u).foldl (fun s b => s.twSend (.state (.crc b.1 b.2 (crc32 (s.blockBytes b))))) s

/-- A join of `units` asks the device in step for its state: everything, or what differs by CRC (R262). -/
def State.joinAsk (s : State) (full : Bool) (units : List Nat) : State :=
  let s := s.upTwn fun x => { x with got := 0, late := [], atX := x.atX.filter fun e => s.tb < e.1 }
  let s := if full then s else units.foldl (fun s u => s.joinCrcs u) s
  s.twSend (.state (.ask full units))

/-- Step 4 of Table 13-9: lanes of paired groups that are not UP train; with all of them UP the transfer goes on. -/
def State.joinLanes (s : State) : State :=
  match s.twn.join with
  | some j =>
    if j.step ≠ 4 then s
    else if s.pairedLanes.any fun l => s.get (R.LNE_LN_STAT_STATE l) = laneFailed then s.joinFail 7
    else if s.lanesUp then s.upTwn fun x => { x with join := some { j with step := 5 } }
    else s
  | none => s

/-- Step 2: the TB difference is within TBD_MAX. -/
def State.tbdMax (s : State) : Nat := 16 * max 2 (s.get R.TWN_TBLIM_TBD_MAX)
def State.tbDiff (s : State) : Int := toS 32 (s.get R.TWN_TBDIFF)
def State.joinTimed (s : State) : State :=
  match s.twn.join with
  | some j =>
    if j.step = 2 && (s.tbDiff.natAbs ≤ s.tbdMax) then
      (s.upTwn fun x => { x with join := some { j with step := 3, timed := some s.tb } }).joinAsk j.full s.pairedUnits
    else s
  | none => s

/-- A join starts from JOINING (Table 13-9, step 1), after the ready point (R345). -/
def State.joinStart (s : State) : State :=
  match s.twn.partner with
  | none => s
  | some h =>
    if !s.is R.PWR_STAT_READY || s.twState ≠ twJoining || s.twn.join.isSome || !(h.state = twActive || h.state = twDegraded) then s
    else if h.role = s.get R.TWN_STAT_ROLE then s.joinFail 1
    else if h.digests.headD 0 ≠ s.get (R.MLD_SH_DIGEST 0) then s.joinFail 2
    else
      let full := !s.twn.delta
      let s := (s.clr R.TWN_JOIN).put R.TWN_JOIN_MODE (b2n full)
      let s := s.upTwn fun x => { x with
        join := some { step := 2, began := s.tb, full := full }, bytes := 0, inStep := [], rounds := [0, 0, 0, 0, 0, 0, 0, 0] }
      s.joinTimed
def execJoin (t : Nat) (s : State) : Out := act [.ce, .tsu, .twn] t s State.joinStart

/-- AUTOJOIN_START: no sooner than 1 s after a lost divergence. -/
def State.autojoin (s : State) : State :=
  let late := match s.twn.divAt with | some x => x + second ≤ s.tb | none => true
  if s.is R.TWN_CTL_AUTOJOIN && late then s.joinStart else s
def execAutojoinStart (t : Nat) (s : State) : Out := act [.ce, .tsu, .twn] t s State.autojoin

/-- Every paired engine has joined: STANDBY. -/
def State.joinComplete (s : State) : State :=
  let s := s.upTwn fun x => { x with join := none, delta := true, divAt := none, own := [], theirs := []
                                     runOk := [true, true, true, true, true, true, true, true], ecc := false }
  let s := (List.range 8).foldl (fun s u => s.clr (R.TWN_CE_CHK_MATCHED u)) s
  ((s.setTwState twStandby).fsRelease 126).set1 R.TWN_INT_STAT_JOIN_DONE

/-- Bound of a join: 50 ms delta, 400 ms full. -/
def Join.bound (j : Join) : Nat := if j.full then 6400000000 else 800000000

/-- The join of one sheet begins, or begins anew (R267). -/
def State.oneJoin (s : State) (u : Nat) : State :=
  (s.upTwn fun x => { x with
    heldJoin := u :: x.heldJoin.filter (· ≠ u), heldFrom := x.heldFrom.set u s.tb, rounds := x.rounds.set u 0
    inStep := x.inStep.filter (· ≠ u) }).joinAsk false [u]

/-- The join of one sheet is a delta join under R263: 64 rounds or its bound end it with DIRTY, and the sheet, which does
not run, asks anew (DESIGN CHOICE, log entry 175). -/
def State.oneJoinLate (s : State) (u : Nat) : State :=
  if s.twn.heldJoin.contains u && (s.twn.heldFrom.getD u 0 + 800000000 ≤ s.tb || 64 ≤ s.twn.rounds.getD u 0) then
    ((s.put R.TWN_JOIN_ERR 5).set1 R.TWN_INT_STAT_JOIN_ERR).oneJoin u
  else s

def State.joinTimeout (s : State) : State :=
  match s.twn.join with
  | some j =>
    match j.timed with
    | some x => if x + j.bound ≤ s.tb || s.twn.rounds.any (64 ≤ ·) then s.joinFail 5 else s
    | none => s
  | none => (List.range 8).foldl (fun s u => s.oneJoinLate u) s
def execJoinTimeout (t : Nat) (s : State) : Out := act [.ce, .tsu, .twn] t s State.joinTimeout

/-- JOIN_TIME_EXPIRY: step 2 has lasted 10 s. -/
def State.joinTimeExpiry (s : State) : State :=
  match s.twn.join with
  | some j => if j.step = 2 && (j.began + 10 * second ≤ s.tb) then s.joinFail 3 else s
  | none => s
def execJoinTimeExpiry (t : Nat) (s : State) : Out := act [.ce, .tsu, .twn] t s State.joinTimeExpiry

/-- The twin unit lets the lanes of a group send, also those trained under the skipped step 6 of R198; a mute for a local
source or a quiesce stays. -/
def State.unmuteGroup (s : State) (g : Nat) : State :=
  (s.groupLanes g).foldl (fun s l => (s.unmute l muteTwin).unmute l muteTraining) s

/-- On the transition to ACTIVE the lanes of each carried group are unmuted (R260). -/
def State.unmuteCarried (s : State) : State := s.pairedGroups.foldl (fun s g => s.unmuteGroup g) s

/-- STANDBY ends, and a sheet joined by itself unmutes, when sixteen runs in a row have matched on every running engine
and the lanes are UP (R264, R267). -/
def State.tryRelease (s : State) : State :=
  let ok := s.runningUnits.all fun u => 16 ≤ s.get (R.TWN_CE_CHK_MATCHED u)
  if !s.is R.TWN_CTL_EN || !ok || !s.lanesUp then s
  else if s.twState = twStandby then
    ((s.setTwState twActive).set1 R.TWN_INT_STAT_RELEASED).unmuteCarried.showCarry
  else if s.twState = twActive then
    s.twn.inStep.foldl (fun s u => match s.sheetGroup (u + 1) with
      | some g => if s.quiesceHeld (u + 1) then s
        else ((s.groupLanes g).foldl (fun s l => s.unmute l muteQuiesce) s).unmuteGroup g
      | none => s) s |>.showCarry
  else s

/-- TRAIN_END (R198), and what waits for lanes to be UP: step 4 of a join, the release from STANDBY. -/
def execTrainEnd (t l : Nat) (s : State) : Out :=
  laneUnit [.ce, .pwm, .fmx, .lne, .tsu, .twn] (l < 12) t s fun s => ((s.lineRun l).trainEnd l).joinLanes.tryRelease

/-- The phase-preserving reset of a journal source (R247): the first frame instant of R68 at which every chain in the
mask reaches j = 0 by counting. -/
def State.phaseReset (s : State) : Option Nat :=
  let last := s.tb / 800
  let mask := s.get R.SCR_SYNC_MASK
  let f := frameAt (s.tb + 2400) / 800
  (((List.range 128).map fun i => f + i).find? fun f =>
    (List.range 32).all fun i => !bit mask i || (s.get (R.SCR_PH i) + (f - last)) % 128 = 0).map (800 * ·)

/-- Items of the transfer sent, counted up to the next mark. -/
def State.sendItems (s : State) (l : List JoinItem) : State :=
  l.foldl (fun s i => (s.twSend (.state i)).upTwn fun x => { x with got := x.got + 1 }) s

/-- The source's picture of a block follows what it sends, or what the joining device is seen to hold. -/
def State.blockKnown (s : State) (b : Nat × Nat) : State :=
  let a := s.here b.1
  s.upTwn fun x => { x with shadow := smix (fun k => a ≤ k && k < a + b.2) x.shadow s.mem }
def State.sendBlock (s : State) (b : Nat × Nat) : State := (s.sendItems [.memory b.1 (s.blockBytes b)]).blockKnown b

/-- The 64-byte blocks of a unit written since they were last sent (Table 13-9; told by their contents: log entry 147). -/
def State.dirtyBlocks (s : State) (u : Nat) : List (Nat × Nat) :=
  let was : State := { s with mem := s.twn.shadow }
  ((s.unitBlocks u).flatMap fun (a, n) => (List.range (n / 64)).map fun i => (a + 64 * i, 64)).filter fun b =>
    s.blockBytes b ≠ was.blockBytes b

/-- The phase-preserving reset a joining partner needs (R247). -/
def State.serveReset (s : State) : State :=
  match s.phaseReset with
  | some f =>
    let s := s.twSend (.state (.phase f))
    if s.syncDrives then { s with scr := { s.scr with drive := s.scr.drive ++ [f] } } else s
  | none => s

/-- The device in step is asked for the state of `units`. -/
def State.serveJoin (s : State) (full : Bool) (units : List Nat) : State :=
  if s.twState ≠ twActive && s.twState ≠ twDegraded && s.twState ≠ twHandover then s
  else
    let s := s.upTwn fun x => { x with
      serving := units ++ x.serving.filter (!units.contains ·), inStep := x.inStep.filter fun u => !units.contains u }
    let s := if s.get R.TWN_STAT_PSTATE = twJoining then s.serveReset else s
    let s := if full then (units.flatMap s.unitBlocks).foldl (fun s b => s.sendBlock b) s else s
    (s.twSend (.state (.bulk s.twn.got))).upTwn fun x => { x with got := 0 }

/-- The device as it will stand at `x`, as far as what is on its way tells: loads and edges due by then have gone. -/
def State.asOf (s : State) (g x : Nat) : State :=
  let s := { s with tb := max s.tb x }
  let s := (s.group g).queue.foldl (fun s _ => s.groupLoad g) s
  ((s.groupChans g).foldl (fun s ch => (s.chan ch).pend.foldl (fun s _ => s.edgeSend ch) s) s).upToDate

/-- The Table 13-8 items of a unit beside its memory, for its round that ends before `x`: latch and swaps, held records, and
its group, lanes and counters as they will stand at `x`. -/
def State.unitItems (s : State) (u x : Nat) : List JoinItem :=
  let n := s.phys u
  let e := s.eng n
  let swap := s.get (R.CE_SWAP_COEF n) + 2 * s.get (R.CE_SWAP_RECIPE n)
  let eng := [JoinItem.engine u e.div e.prev e.runNo e.queue e.coefAt e.recipeOk e.joined e.wait e.pend
    (s.get (R.CE_STAT_RSTORE n)) (s.get (R.CE_STAT_CBANK n)) swap]
  let grp := match s.sheetGroup (u + 1) with
    | some g =>
      let s := s.asOf g x
      let p := ((s.group g).periods.find? fun p => p.start ≤ x && x < p.stop)
      let loads := (s.group g).queue.filterMap fun c => c.load.map fun (per, ds) => (c.at_, per, ds)
      let cnt := match p with | some p => p.cnt | none => s.get (R.PWM_PG_PCOUNT g)
      let anchor : Int := match p with | some p => p.next.anchor | none => s.get (R.PWM_PG_PHASE g)
      [JoinItem.period g (s.get (R.PWM_PG_PERIOD g)) (s.get (R.PWM_PG_PERIOD_SH g)) loads cnt anchor] ++
      (s.groupChans g).map (fun ch => JoinItem.duty ch (s.get (R.PWM_CH_DUTY ch)) (s.get (R.PWM_CH_DUTY_SH ch))) ++
      (s.groupLanes g).map (fun l => JoinItem.seq l (s.get (R.LNE_LN_SEQ l)))
    | none => []
  let cnt := [JoinItem.pairCounter ((s.get R.NET_PRP_SEQ_PAIR + s.net.slotDue.length) % 65536)] ++
    (List.range 16).map (fun f => JoinItem.filterCount f (s.get (R.NET_RXF_COUNT f)))
  -- a held WRITE as its journal record brings it, without its requester
  let held := s.twn.held.map fun h => match h with
    | .write a addr v _ => JoinItem.held (.write a addr v 0)
    | h => .held h
  eng ++ held ++ grp ++ cnt

/-- JOIN_ROUND (R263): at the end of a run of an engine that a partner waits for, its round is sent; X is the next run's
arrival. -/
def State.joinRound (s : State) (n : Nat) : State :=
  let u := s.engUnit n
  if !s.twn.serving.contains u then s
  else
    let e := s.eng n
    let next := match e.wait with
      | k :: _ => k.stamp
      | [] => (match e.pend with | some k => k.stamp | none => e.prev + s.get (R.CE_DT n))
    let x := s.tickDue next
    let s := ((s.dirtyBlocks u).foldl (fun s b => s.sendBlock b) s).sendItems (s.unitItems u x)
    (s.twSend (.state (.final u x s.twn.got))).upTwn fun w => { w with got := 0 }

/-- RUN_END (R85): the run's end, a move that waited for it, and the round of a join; `ce` rows of local memory were
corrected in the run (R77). -/
def State.runEndAll (s : State) (n ce : Nat) : State :=
  let ran := (s.eng n).run.isSome
  let s := if ran then s.bump (R.CE_ECC_CE n) ce else s
  let s := s.runEnd n
  let ended := ran && (s.eng n).run.isNone
  let s := s.moveBoundary
  (if ended then s.joinRound n else s).tryRelease
def execRunEnd (t n ce : Nat) (s : State) : Out := laneUnit [.mld, .bnk, .ce, .pht, .pwm, .fmx, .lne, .tsu, .twn, .ldg, .hlt, .mem] (n < 8) t s fun s =>
  s.runEndAll n ce

/-! ### What a STATE frame transfers (R262) -/

/-- A STATE frame of the bulk was lost: the link does not send those again, so a join fails with LINK, and the join of one
sheet asks anew (DEDUCED, log entry 147). -/
def State.joinLost (s : State) : State :=
  if s.twn.join.isSome then s.joinFail 6
  else (s.put R.TWN_JOIN_ERR 6).set1 R.TWN_INT_STAT_JOIN_ERR |>.joinAsk false s.twn.heldJoin

/-- The mark at the end of the bulk: everything before it has come. -/
def State.joinBulk (s : State) (n : Nat) : State :=
  let whole := s.twn.got = n
  let s := s.upTwn fun t => { t with got := 0 }
  if whole then s else s.joinLost

/-- An engine's round is over: if all of it came before X, the engine runs in step from the run that arrives at X, and
the rest of the items takes effect then. Otherwise the source repeats it at the next boundary; where an item was lost, the
blocks' CRCs tell it which ones to send again (DEDUCED, log entry 147). -/
def State.joinFinal (s : State) (u x n : Nat) : State :=
  let whole := s.twn.got = n
  let late := s.twn.late
  let s := s.upTwn fun t => { t with got := 0, late := [] }
  if whole && s.tb < x then
    let alone := s.twn.heldJoin.contains u
    let s := s.upTwn fun t => { t with
      atX := t.atX ++ late.map (x, ·)
      inStep := u :: t.inStep.filter (· ≠ u), heldJoin := t.heldJoin.filter (· ≠ u), runOk := t.runOk.set u true }
    let s := s.upEng (s.phys u) fun e =>
      -- the source's own copy: its latch holds the run's tick
      let mine := if s.is R.TWN_STAT_JSRC then e.own.filter fun k => !e.wait.any (·.stamp = k.stamp) else []
      { e with wait := (e.wait ++ mine).filter fun k => x ≤ k.due, recs := (e.wait.filter fun k => x ≤ k.due).map (·.stamp) }
    let s := (s.clr (R.TWN_CE_CHK_MATCHED u)).showLive (s.phys u)
    if alone then s
    else if s.pairedUnits.all fun v => !s.engLatches (s.phys v) || s.is (R.CE_FAULT (s.phys v)) || s.twn.inStep.contains v then
      s.joinComplete
    else s
  else
    let s := s.upTwn fun t => { t with rounds := t.rounds.modify u (· + 1) }
    let s := if whole then s else s.joinCrcs u
    s.joinTimeout

/-- A group's period, count and anchor as its partner's. -/
def State.joinPeriod (s : State) (g period shadow : Nat) (loads : List (Nat × Nat × List (Nat × Nat))) (cnt : Nat)
    (anchor : Int) : State :=
  let s := s.put (R.PWM_PG_PERIOD_SH g) shadow
  let s := s.upGroup g fun y => { y with queue := loads.map fun (a, per, ds) => { at_ := a, load := some (per, ds) } }
  let s := (s.put (R.PWM_PG_LOADALL g) (b2n !loads.isEmpty)).put (R.PWM_PG_STAT_LOADPEND g) (b2n !loads.isEmpty)
  let was := s.get (R.PWM_PG_PERIOD g)
  let s := s.put (R.PWM_PG_PERIOD g) period
  match (s.group g).periods with
  | [] => s
  | p :: _ =>
    if was = period && p.next.anchor = anchor then
      s.upGroup g fun y => { y with periods := y.periods.map fun q => { q with cnt := (q.cnt + cnt + 2 ^ 32 - p.cnt) % 2 ^ 32 } }
    else
      let v := clampPeriod period
      let k := gridFirst anchor v ((s.tb + s.groupLead g : Nat) : Int)
      s.startPeriods g (gridPeriod anchor v k cnt)

/-- Whether a block may be written by a transfer: local memory of engines and mailbox slots. -/
def joinRange (a n : Nat) : Bool :=
  (0x60000000 ≤ a && a + n ≤ 0x60080000) || (0x70000000 ≤ a && a + n ≤ 0x70200000)

/-- An item that takes effect at X. -/
def State.joinApply (s : State) : JoinItem → State
  | .period g p sh ld cnt a => if g < 8 then s.joinPeriod g p sh ld cnt a else s
  | .duty ch d sh => if ch < 48 then
      (s.put (R.PWM_CH_DUTY ch) d).put (R.PWM_CH_DUTY_SH ch) sh else s
  | .seq l v => if l < 12 then s.put (R.LNE_LN_SEQ l) v else s
  | .pairCounter v => s.put R.NET_PRP_SEQ_PAIR v
  | .filterCount f v => if f < 16 then s.put (R.NET_RXF_COUNT f) v else s
  | _ => s

/-- The items whose X has come. -/
def State.joinAtX (s : State) : State :=
  let due := s.twn.atX.filter fun e => e.1 ≤ s.tb
  if due.isEmpty then s
  else due.foldl (fun s e => s.joinApply e.2) (s.upTwn fun x => { x with atX := x.atX.filter fun e => s.tb < e.1 })

/-- RUN_START: the run that arrives at X meets the state transferred for X (R263). -/
def execRunStart (t n : Nat) (torn : List Nat) (errs : List RowErr) (s : State) : Out :=
  laneUnit [.bnk, .ce, .pwm, .fmx, .lne, .net, .twn, .ldg, .hlt, .mem] (n < 8) t s fun s => s.joinAtX.runStart n torn errs

/-- The joining side takes an item. -/
def State.joinTake (s : State) (i : JoinItem) : State :=
  let counts := match i with | .phase _ => false | _ => true
  let s := if counts then s.upTwn fun x => { x with got := x.got + 1 } else s
  match i with
  | .memory a bs =>
    if joinRange a bs.length then
      let s := (s.writeBytes (s.here a) bs).upTwn fun x => { x with bytes := x.bytes + bs.length }
      s.put R.TWN_JOIN_PROGRESS (min (s.twn.bytes / 1024) 65535)
    else s
  | .engine u div prev no q ca ro jn w pend rs cb sw =>
    let n := s.phys u
    let came := (s.eng n).wait.filter fun k => !w.any (·.stamp = k.stamp)
    let s := s.upEng n fun e => { e with
      div := div, prev := prev, runNo := no, queue := q, coefAt := ca, recipeOk := ro, joined := jn, wait := w ++ came, pend := pend
      firstNext := false, initNext := false }
    let s := (s.put (R.CE_STAT_RSTORE n) rs).put (R.CE_STAT_CBANK n) cb
    (s.put (R.CE_SWAP_COEF n) (sw % 2)).put (R.CE_SWAP_RECIPE n) (sw / 2 % 2)
  | .period .. | .duty .. | .seq .. | .pairCounter _ | .filterCount .. => s.upTwn fun x => { x with late := x.late ++ [i] }
  | .held h => if s.twn.held.contains h then s else s.upTwn fun x => { x with held := x.held ++ [h] }
  | .final u x n => if u < 8 then s.joinFinal u x (n + 1) else s
  | .bulk n => s.joinBulk (n + 1)
  | .phase f =>
    -- the phase itself comes with the edge on the SYNC pin (R247)
    match s.twn.join with
    | some j =>
      let s := s.upTwn fun x => { x with join := some { j with step := max j.step 4, resets := j.resets + 1, f0 := some f } }
      let s := s.pairedLanes.foldl (fun s l =>
        if s.get (R.LNE_LN_STAT_STATE l) = laneUp then s else s.trainStart l) s
      s.joinLanes
    | none => s
  | _ => s

/-- STATE_FRAME: the device in step answers requests; the joining one takes the state. -/
def State.stateFrame (s : State) (i : JoinItem) : State :=
  match i with
  | .ask full units => s.serveJoin full units
  | .again => s.serveReset
  | .crc a n c =>
    if !joinRange a n then s else if crc32 (s.blockBytes (a, n)) ≠ c then s.sendBlock (a, n) else s.blockKnown (a, n)
  | i => if s.twn.join.isSome || !s.twn.heldJoin.isEmpty then s.joinTake i else s
def execStateFrame (t : Nat) (ok : Bool) (lseq : Nat) (whole : Bool) (item : JoinItem) (s : State) : Out :=
  laneAct [.scr, .ce, .pwm, .fmx, .lne, .net, .tsu, .twn, .mem] t s fun s => s.twinFrame ok lseq (·.stateFrame item) whole

/-- An engine sheet starts after its quiesce (R40, R41). In a pair whose partner runs the sheet, the copy first takes the
join of that one sheet, its lanes muted (R267). -/
def State.sheetStart (s : State) (sheet : Nat) : State :=
  let u := sheet - 1
  let inPair := s.is R.TWN_CTL_EN && 2 ≤ s.twState && s.twState ≤ 4 && s.paired sheet &&
    2 ≤ s.get R.TWN_STAT_PSTATE && s.get R.TWN_STAT_PSTATE ≤ 4 && s.partnerRuns u
  let s := s.setQuiesced sheet false
  let s := s.put R.MLD_QSTAT_CARRIED (withBit (s.get R.MLD_QSTAT_CARRIED) sheet false)
  let s := if inPair then s.oneJoin u
    else match s.sheetGroup sheet with
      | some g =>
        let s := (s.groupLanes g).foldl (fun s l => s.unmute l muteQuiesce) s
        if s.is R.TWN_CTL_EN && twActive ≤ s.twState then s.unmuteGroup g else s
      | none => s
  -- SH8's own engine is not there while CE7 carries a moved sheet (R98)
  let s := if u = 7 && s.is R.CE7_MOVE_STAT_CARRYING then s else s.engRelease (s.phys u)
  match s.sheetGroup sheet with
  | some g => s.updBlock g
  | none => s

/-! ### The journal (R249–R252) -/

/-- The input a latched source belongs to. -/
def State.sourceInput (s : State) (key : Nat) : Nat :=
  if key < 256 then key / 8 else 8 * ((key - 256) / 4) + s.get (R.ADC_SNAP_CFG_INPUT ((key - 256) / 4) ((key - 256) % 4))

/-- This device's own word of a source and stamp. -/
def State.ownWord (s : State) (n tick key st : Nat) : Option Int :=
  let latched := ((s.eng n).own.find? (·.stamp = tick)).bind fun k => k.fix.words.find? fun w => w.1 = key && w.2.2 = st
  let h := if key < 256 then s.scr.taps.getD key [] else s.scr.snaps.getD (key - 256) []
  match latched, h.find? (·.1 = st) with
  | some (_, w, _), _ => some w
  | none, some (_, w) => some w
  | none, none => none

/-- The cross-check of one mirrored word (R252): on the follower XDIFF and XPHASE count, and XCNT in a row flag the input and
tell the health unit. In a join an XPHASE of a word fixed after the phase-preserving reset asks for another, at most three
(Table 13-9). -/
def State.crossCheck (s : State) (n tick : Nat) (w : Nat × Int × Nat) : State :=
  let (key, x, st) := w
  let i := s.sourceInput key
  let mine := s.ownWord n tick key st
  let bad := match mine with
    | some y => decide ((s.get R.TWN_TBLIM_XWIN : Int) < (y - x).natAbs)
    | none => decide (st ≠ 0)
  let c := if bad && s.twFollows then s.twn.xfail.getD i 0 + 1 else 0
  let s := s.upTwn fun t => { t with xfail := t.xfail.set i c }
  let s := if s.twFollows && bad && max 1 (s.get R.TWN_TBLIM_XCNT) ≤ c then
      ((s.orr R.TWN_XFLAG (2 ^ i)).set1 R.TWN_INT_STAT_XCHK).hltReason 10
    else s
  match s.twn.join with
  | some j =>
    let phased := match j.f0 with | some f => decide (f ≤ st) | none => false
    if mine.isNone && phased then
      if 3 ≤ j.resets then s.joinFail 4
      else (s.upTwn fun t => { t with join := some { j with step := 3, f0 := none } }).twSend (.state .again)
    else s
  | none => s

/-- JOURNAL_RUN_RECORD: the follower checks the words and runs at stamp + PAIR_DLY. -/
def State.runRecord (s : State) (u num stamp merged : Nat) (fix : Fixed) : State :=
  if s.is R.TWN_STAT_JSRC && !s.tickFollows stamp && !s.twn.heldJoin.contains u then s
  else
    let n := s.phys u
    let s := fix.words.foldl (fun s w => s.crossCheck n stamp w) s
    let joins := s.twn.join.isSome || s.twn.heldJoin.contains u
    if !s.engLive n && !joins then s.upEng n fun e => { e with recs := (e.recs ++ [stamp]).drop (e.recs.length - 15) }
    else
      let k : Tick := { stamp := stamp, due := s.tickDue stamp, merged := merged, fix := fix }
      s.upEng n fun e => { e with
        wait := if e.wait.any (·.stamp = stamp) then e.wait else e.wait ++ [k]
        recs := e.recs ++ [stamp]
        runNo := if s.engLive n && e.run.isNone && e.pend.isNone && e.wait.isEmpty then (num + 2 ^ 32 - 1) % 2 ^ 32 else e.runNo }
def execJournalRunRecord (t : Nat) (ok : Bool) (lseq : Nat) (whole : Bool) (u num stamp merged : Nat) (fix : Fixed) (s : State) : Out :=
  onUnit [.ce, .tsu, .twn, .ldg, .hlt] (u < 8) t s fun s => s.twinFrame ok lseq (·.runRecord u num stamp merged fix) whole

/-- A record held until its apply instant. -/
def State.holdRecord (s : State) (h : Held) : State := s.upTwn fun x => { x with held := x.held ++ [h] }

/-- JOURNAL_WRITE_RECORD, JOURNAL_FILTER_RECORD. -/
def execJournalWriteRecord (t : Nat) (ok : Bool) (lseq addr value issue : Nat) (s : State) : Out :=
  act [.twn] t s fun s => s.twinFrame ok lseq fun s => s.holdRecord (.write (issue + s.applyDly) addr value 0)
def execJournalFilterRecord (t : Nat) (ok : Bool) (lseq f slot stamp : Nat) (vals : List Nat) (arrive : Nat) (s : State) : Out :=
  onUnit [.twn] (f < 16) t s fun s => s.twinFrame ok lseq fun s => s.holdRecord (.filter (arrive + s.applyDly) f slot stamp vals)

/-- The first unit below `n` whose register has this address. -/
def findUnit (n addr : Nat) (r : Nat → RF) : Option Nat := (List.range n).find? fun i => (r i).addr = addr

/-- The first word of the 64-bit register a word belongs to. -/
def wordBase (addr : Nat) : Nat := addr / 8 * 8

/-- Whether a register is journaled (Table 13-5): the engines' only of paired sheets; of PWM_PGg_CTL, TRGEN. -/
def State.journaled (s : State) (addr : Nat) : Bool :=
  let ce (r : Nat → RF) : Bool := match findUnit 8 addr r with | some n => s.paired (n + 1) | none => false
  ce R.CE_SWAP || ce R.CE_STAGE_ADDR || ce R.CE_STAGE_DATA || addr = R.PWM_GLOAD.addr ||
  (findUnit 8 (wordBase addr) R.PWM_PG_PERIOD_SH).isSome || (findUnit 8 addr R.PWM_PG_LOADALL).isSome ||
  (findUnit 32 addr fun i => R.PWM_PG_TRG (i / 4) (i % 4)).isSome || (findUnit 48 (wordBase addr) R.PWM_CH_DUTY_SH).isSome ||
  (findUnit 8 addr R.FMX_PG_CLR).isSome || (findUnit 12 addr R.LNE_LN_DSCLR).isSome

/-- The effect of a write of a word to a journaled register (R88, R92, R162, R165, R168, R173, R192). -/
def State.journalEffect (s : State) (addr v : Nat) : State :=
  match findUnit 8 addr R.CE_SWAP with
  | some n =>
    let s := if bit v 1 then s.recipeSwap (s.phys n) else s
    if bit v 0 then s.coefSwap (s.phys n) else s
  | none => match findUnit 8 addr R.CE_STAGE_ADDR with
  | some n => (s.put (R.CE_STAGE_ADDR_INDEX (s.phys n)) (bits v 0 14)).put (R.CE_STAGE_ADDR_TARGET (s.phys n)) (bits v 16 2)
  | none => match findUnit 8 addr R.CE_STAGE_DATA with
  | some n => s.stageWrite (s.phys n) v
  | none => if addr = R.PWM_GLOAD.addr then s.gload v
  else match findUnit 8 (wordBase addr) R.PWM_PG_PERIOD_SH with
  | some g => s.shadowPeriod g (setBits (s.get (R.PWM_PG_PERIOD_SH g)) (8 * (addr % 8)) 32 v)
  | none => match findUnit 8 addr R.PWM_PG_LOADALL with
  | some g => if bit v 0 then s.requestLoad g else s
  | none => match findUnit 32 addr (fun i => R.PWM_PG_TRG (i / 4) (i % 4)) with
  | some i => s.put (R.PWM_PG_TRG (i / 4) (i % 4)) v
  | none => match findUnit 8 addr R.PWM_PG_CTL with
  | some g => s.put (R.PWM_PG_CTL_TRGEN g) (bits v 12 4)
  | none => match findUnit 48 (wordBase addr) R.PWM_CH_DUTY_SH with
  | some ch => s.shadowDuty ch (setBits (s.get (R.PWM_CH_DUTY_SH ch)) (8 * (addr % 8)) 32 v)
  | none => match findUnit 8 addr R.FMX_PG_CLR with
  | some g => if bit v 0 then s.fmxClear g else s
  | none => match findUnit 12 addr R.LNE_LN_DSCLR with
  | some l => s.desatClear l v
  | none => s

def heldAt : Held → Nat
  | .write a _ _ _ => a
  | .filter a _ _ _ _ => a
/-- Records due at one instant apply as WRITE, then FILTER. -/
def heldBefore (x y : Held) : Bool :=
  heldAt x < heldAt y || (heldAt x = heldAt y && match x, y with | .filter .., .write .. => false | _, _ => true)

/-- JOURNAL_APPLY: the held records whose apply instant has come. -/
def State.journalApply (s : State) : State :=
  let due := (s.twn.held.filter fun h => heldAt h ≤ s.tb).mergeSort heldBefore
  let s := s.upTwn fun x => { x with held := x.held.filter fun h => s.tb < heldAt h }
  due.foldl (fun s h => match h with
    | .write _ a v _ => s.journalEffect a v
    | .filter _ f slot st vals => s.filterWrite f slot st vals) s
def execJournalApply (t : Nat) (s : State) : Out := laneAct [.ce, .pwm, .fmx, .lne, .net, .twn, .mem, .bus] t s State.journalApply

/-! ### Signatures and divergence (R253–R256) -/

/-- CHECKPOINT: the partner's is compared with the own one, or kept until that is made. -/
def State.checkpointIn (s : State) (n num idx crc : Nat) : State :=
  let s := if s.twn.serving.contains n then
      s.upTwn fun x => { x with serving := x.serving.filter (· ≠ n), inStep := n :: x.inStep.filter (· ≠ n) }
    else s
  match s.twn.own.find? fun c => c.n = n && c.num = num && c.idx = idx with
  | some c =>
    let s := s.upTwn fun x => { x with own := x.own.filter fun c => !(c.n = n && c.num = num && c.idx = idx) }
    (s.compareChk c crc).tryRelease
  | none =>
    let c : Chk := { n := n, num := num, idx := idx, crc := crc, at_ := s.tb }
    s.upTwn fun x => { x with theirs := (x.theirs ++ [c]).drop (x.theirs.length - 255) }
def execCheckpoint (t : Nat) (ok : Bool) (lseq n num idx crc : Nat) (s : State) : Out :=
  laneUnit [.mld, .ce, .pwm, .fmx, .lne, .tsu, .twn, .ldg] (n < 8) t s fun s => s.twinFrame ok lseq (·.checkpointIn n num idx crc)

/-- CHECKPOINT_TIMEOUT: the partner's has not come 20 µs after the own one, while the link is up. -/
def State.checkpointTimeout (s : State) (n : Nat) : State :=
  match s.twn.own.find? fun c => c.n = n && c.at_ + 320000 ≤ s.tb with
  | some c =>
    let s := s.upTwn fun x => { x with own := x.own.filter fun d => !(d.n = n && d.num = c.num && d.idx = c.idx) }
    if s.get R.TWN_STAT_LANES = 0 || !s.compares n then s else s.diverge n c.num c.idx
  | none => s
def execCheckpointTimeout (t n : Nat) (s : State) : Out := laneUnit [.mld, .ce, .pwm, .fmx, .lne, .tsu, .twn, .ldg] (n < 8) t s fun s => s.checkpointTimeout n

/-- VERDICT: the loser leaves, the winner goes on alone. -/
def State.verdict (s : State) (n : Nat) (loserIsB : Bool) : State :=
  if s.is R.TWN_STAT_JSRC || !s.twFollows then s
  else if loserIsB = s.is R.TWN_STAT_ROLE then s.divLose n else s.divWin
def execVerdict (t : Nat) (ok : Bool) (lseq n : Nat) (loserIsB : Bool) (s : State) : Out :=
  laneUnit [.mld, .ce, .pwm, .fmx, .lne, .tsu, .twn, .ldg] (n < 8) t s fun s => s.twinFrame ok lseq (·.verdict n loserIsB)

/-- VERDICT_TIMEOUT: 4 µs after detection. -/
def State.verdictTimeout (s : State) : State :=
  match s.twn.verdictBy with
  | some (x, n) => if x ≤ s.tb then s.divLose n else s
  | none => s
def execVerdictTimeout (t : Nat) (s : State) : Out := laneAct [.ce, .pwm, .fmx, .lne, .tsu, .twn, .ldg] t s State.verdictTimeout

/-! ### HEALTH (R242, R245, R246, R259) -/

/-- Healthy in the sense of R266, and HOLDOFF_LEFT. -/
def State.showHealthy (s : State) : State :=
  let mine := s.is R.TWN_CTL_EN && !s.is R.TWN_STAT_ROLE && !s.is R.TWN_STAT_JSRC && s.twState = twActive
  let ok := mine && !s.healthFault && s.tdState s.inForce = tdLocked &&
    s.pairedLanes.all fun l => s.get (R.LNE_LN_STAT_STATE l) = laneUp && !s.muted l
  let since := if ok then some (s.twn.healthyAt.getD s.tb) else none
  let hold := clampN 10 3600 (s.get R.TWN_HOLDOFF)
  let left := match since with | some x => hold - (s.tb - x) / second | none => if mine then hold else 0
  -- a lapse, or REVERT = 0, ends a request as well
  (s.upTwn fun x => { x with healthyAt := since, asks := x.asks && ok && s.is R.TWN_CTL_REVERT }).put R.TWN_HOLDOFF_LEFT left

/-- HEALTH_SEND. -/
def State.healthSend (s : State) : State :=
  if !s.is R.TWN_CTL_EN then s
  else
    let s := s.showCarry
    let s := (s.put R.TWN_HEALTH_FAULT (b2n s.healthFault)).put R.TWN_HEALTH_SAMPLING s.healthSampling
    let s := s.showHealthy
    s.healthPush
def execHealthSend (t : Nat) (s : State) : Out := act [.twn] t s State.healthSend

/-- A handover accepted or refused (R265). -/
def State.handoverRequest (s : State) (reason : Nat) : State :=
  if !s.is R.TWN_CTL_EN || !s.is R.TWN_STAT_JSRC then s
  else
    let p := s.twn.partner
    let ok := s.twState = twActive && (match p with | some h => h.state = twActive && !h.fault | none => false) &&
      (List.range 8).all fun u => s.paired (u + 1)
    if !ok then s.set1 R.TWN_INT_STAT_HANDOVER_ERR
    else
      let h := (s.tb + 1600000 + 15999) / 16000 * 16000
      let s := s.upTwn fun x => { x with hand := some h, swapped := false }
      (s.put R.TWN_STAT_HO_REASON reason).setTwState twHandover
def execHandover (t : Nat) (s : State) : Out := act [.ce, .twn] t s fun s => s.handoverRequest 1

/-- The correction toward TBDIFF = 0 while steering; the spec bounds it by SLEW_MAX and states no more, so it is a free
value of the right sign within the bound (log entry 8). In 1/16 ppb. -/
def State.steerCorrection (s : State) : Int :=
  let m := (Config.freeWord s.drawn 246).toNat % (16 * s.slewMax + 1)
  if s.tbDiff < 0 then -(m : Int) else if s.tbDiff = 0 then 0 else m

/-- Steering of a follower to the journal source (R246). -/
def State.steer (s : State) : State :=
  let may := s.twFollows || s.twState = twJoining && s.twn.join.isSome
  match s.twn.partner with
  | none => s
  | some h =>
    if !may then s
    else
      let locked := s.tdState s.inForce = tdLocked
      let far := s.tbdMax < s.tbDiff.natAbs
      let start := !locked || far
      let on := s.is R.TWN_STAT_STEER || start
      if !on then s
      else
        let s := (s.set1 R.TWN_STAT_STEER).showTimeOk
        let r := h.rate + s.steerCorrection
        let s := { s with drawn := s.drawn + 1 }
        let s := s.setRate (r, 16)
        let near := locked && (2 * s.tbDiff.natAbs ≤ s.tbdMax)
        s.upTwn fun x => { x with steerAt := if near then some (x.steerAt.getD s.tb) else none }

/-- STEER_RETURN: the domain LOCKED and TBDIFF within TBD_MAX / 2 for 1 s; the return is slewed (R235). -/
def State.steerReturn (s : State) : State :=
  match s.twn.steerAt with
  | some x =>
    if s.is R.TWN_STAT_STEER && (x + second ≤ s.tb) then
      let s := (s.clr R.TWN_STAT_STEER).set1 R.TSU_STAT_SLEWING
      ((s.setRate (s.dom s.inForce).y).upTwn fun x => { x with steerAt := none }).showTimeOk
    else s
  | none => s
def execSteerReturn (t : Nat) (s : State) : Out := act [.clk, .pwr, .tsu, .twn] t s State.steerReturn

/-- TBDIFF by the two-way formula: the own HEALTH sent at `t1` was heard at `t2`, the partner's sent at `t3` and heard at
`t4`. -/
def twoWay (t1 t2 t3 t4 : Int) : Int := divRne ((t2 - t1) + (t3 - t4)) 2

/-- The partner's carry mask and mutes change what this device does on group `g` (R172, R259): where the partner no
longer carries it, a mute of this device becomes its action, unless the partner's own mute came later (or, in the same
nanosecond, this device has ROLE A). -/
def State.carryJudge (s : State) (h : Health) (g : Nat) : State :=
  if s.partnerCarries g then s
  else
    let mine := s.twn.muteAt.getD g none
    let yields := match mine, h.mutes.getD g none with
      | some a, some b => if a / 16 = b / 16 then !s.is R.TWN_STAT_ROLE else a / 16 < b / 16
      | _, _ => false
    if yields then s
    else
      let s := s.partnerGone g
      match s.ownerOf .group g with
      | some n =>
        if bit (s.get R.MLD_QSTAT_CARRIED) n then
          let s := s.put R.MLD_QSTAT_CARRIED (withBit (s.get R.MLD_QSTAT_CARRIED) n false)
          let s := { s with twn := { s.twn with muteAt := s.twn.muteAt.set g none } }
          ((s.groupLanes g).foldl (fun s l => s.unmute l muteQuiesce) s).updBlock g
        else s
      | none => s

/-- PAIRED follows the digests; a sheet held as unpaired whose digests agree, and which the partner runs, now takes its
join (R267). -/
def State.showPaired (s : State) : State :=
  let s := s.refreshPaired
  (List.range 8).foldl (fun s u =>
    if bit (s.get R.TWN_SHEETS_UNPAIRED) u && s.paired (u + 1) && s.partnerRuns u then
      (s.put R.TWN_SHEETS_UNPAIRED (withBit (s.get R.TWN_SHEETS_UNPAIRED) u false)).sheetStart (u + 1)
    else s) s

/-- State changes a HEALTH frame brings (Table 13-3, R265). -/
def State.pairMoves (s : State) (h : Health) : State :=
  if s.twState = twJoining && h.state = twJoining && !s.is R.TWN_STAT_ROLE then s.goDegraded
  else if s.twState = twDegraded && h.state = twActive then
    ((s.setTwState twActive).fsRelease 127).unmuteCarried.showCarry
  else if s.twState = twActive && !s.is R.TWN_STAT_JSRC && h.hand.isSome then
    match h.hand with
    | some (x, r) =>
      let s := s.upTwn fun y => { y with hand := some x, swapped := false, asks := false }
      (s.put R.TWN_STAT_HO_REASON r).setTwState twHandover
    | none => s
  else if h.revert && s.twState = twActive then s.handoverRequest 2
  else s

/-- HEALTH: `rx` is the TB stamp of the frame's K28.5 here. -/
def State.health (s : State) (h : Health) (rx : Nat) : State :=
  let was := s.twn.partner
  let since := if h.locked then some (s.twn.pLockedAt.getD s.tb) else none
  let s := s.upTwn fun x => { x with
    partner := some h, heardAt := some s.tb, heard := some (h.sent, rx), pLockedAt := since, lostAt := none
    -- the partner's join is complete: what the memories showed before it counts no more (Table 13-6)
    ecc := x.ecc && !(was.any (·.state = twJoining) && h.state = twStandby) }
  let s := (s.put R.TWN_STAT_PSTATE h.state).put R.TWN_HEALTH_PFAULT (b2n h.fault)
  let s := (s.put R.TWN_HEALTH_PSAMPLING h.sampling).put R.TWN_SHEETS_PCARRY h.carry
  let s := match h.heard with
    | some (t1, t2) => s.put R.TWN_TBDIFF (ofS 32 (satS 32 (twoWay t1 t2 h.sent rx)))
    | none => s
  if h.role = s.get R.TWN_STAT_ROLE then
    if s.twState = twJoining && (was.isNone || s.get R.TWN_JOIN_ERR ≠ 1) then s.joinFail 1 else s
  else
    let s := s.showPaired
    let s := (List.range 8).foldl (fun s g => s.carryJudge h g) s
    let s := (s.pairMoves h).joinTimed.steer
    let far := s.twFollows && (800 < s.tbDiff.natAbs)
    let s := s.upTwn fun x => { x with limitAt := if far then some (x.limitAt.getD s.tb) else none }
    s.showHealthy.showCarry
def execHealth (t : Nat) (ok : Bool) (lseq : Nat) (h : Health) (rx : Nat) (s : State) : Out :=
  laneAct [.clk, .pwr, .mld, .ce, .pwm, .fmx, .lne, .tsu, .twn] t s fun s => s.twinFrame ok lseq (·.health h rx)

/-! ### Partner loss (R243, R261) and leaving -/

/-- Whether an UP lane has said within the last 1 µs that the partner's port of its head is linked. -/
def State.partnerAlive (s : State) : Bool :=
  (List.range 12).any fun l => s.get (R.LNE_LN_STAT_STATE l) = laneUp && s.is (R.LNE_LN_STAT_OTHER_LINK l) &&
    match (s.lane l).goodAt with | some x => decide (s.tb ≤ x + 16000) | none => false

/-- LINK_LOST: both lanes down, or no HEALTH for 50 µs. -/
def State.linkLost (s : State) : State :=
  let quiet := match s.twn.heardAt with
    | some x => max x s.twn.joiningAt + 800000 ≤ s.tb
    | none => s.twn.joiningAt + 800000 ≤ s.tb
  if !s.is R.TWN_CTL_EN || !(quiet || s.get R.TWN_STAT_LANES = 0) then s
  else
    let s := (s.set1 R.TWN_INT_STAT_PARTNER_LOST).clr R.TWN_STAT_PSTATE
    let s := s.upTwn fun x => { x with
      partner := none, pLockedAt := none, lostAt := some (x.lostAt.getD s.tb), serving := []
      rxSeq := none, missing := [], queue := [], heard := none, got := 0 }
    let roleB := s.is R.TWN_STAT_ROLE
    if s.twState = twJoining then
      let s := if s.twn.join.isSome then s.joinFail 6 else s
      if roleB then s.partnerStops else s.goDegraded
    else if s.twFollows || s.is R.TWN_STAT_JSRC && s.twState ≠ twDegraded then
      let split := s.partnerAlive || !(List.range 12).any fun l => s.get (R.LNE_LN_STAT_STATE l) = laneUp
      if split && roleB then s.goJoining.partnerStops else s.goDegraded
    else s.partnerStops
def execLinkLost (t : Nat) (s : State) : Out := laneAct [.mld, .ce, .pwm, .fmx, .lne, .tsu, .twn] t s State.linkLost

/-- JOIN_WAIT_EXPIRY: the link lost for 2 s. -/
def State.joinWait (s : State) : State :=
  match s.twn.lostAt with
  | some x => if s.twState = twJoining && (max x s.twn.joiningAt + 2 * second ≤ s.tb) then s.goDegraded else s
  | none => s
def execJoinWaitExpiry (t : Nat) (s : State) : Out := laneAct [.mld, .ce, .pwm, .fmx, .lne, .tsu, .twn] t s State.joinWait

/-- LEAVE: mute, withhold, JOINING. -/
def State.leave (s : State) : State :=
  if s.is R.TWN_CTL_EN && (s.twState = twStandby || s.twState = twActive || s.twState = twHandover) then
    { s.goJoining with twn := { s.goJoining.twn with delta := true } }
  else s
def execLeave (t : Nat) (s : State) : Out := laneAct [.ce, .pwm, .fmx, .lne, .tsu, .twn] t s State.leave

/-- TB_LIMIT_EXPIRY: a follower's |TBDIFF| above 50 ns for 1 ms. -/
def State.tbLimit (s : State) : State :=
  match s.twn.limitAt with
  | some x => if s.twFollows && (x + 16000000 ≤ s.tb) then (s.set1 R.TWN_INT_STAT_TB_LIMIT).goJoining else s
  | none => s
def execTbLimitExpiry (t : Nat) (s : State) : Out := laneAct [.ce, .pwm, .fmx, .lne, .tsu, .twn] t s State.tbLimit

/-! ### Handover (R246, R265, R266) -/

/-- HANDOVER_INSTANT: at H the role passes. -/
def State.handoverInstant (s : State) : State :=
  match s.twn.hand with
  | some h =>
    if s.twState ≠ twHandover || s.twn.swapped || s.tb < h then s
    else
      let s := s.put R.TWN_STAT_JSRC (1 - s.get R.TWN_STAT_JSRC)
      let s := (s.upTwn fun x => { x with swapped := true }).healthPush
      if s.is R.TWN_STAT_JSRC then ((s.clr R.TWN_STAT_STEER).setRate s.rateNow).showTimeOk else s
  | none => s
def execHandoverInstant (t : Nat) (s : State) : Out := act [.clk, .pwr, .tsu, .twn] t s State.handoverInstant

/-- HANDOVER_END: at H + PAIR_DLY. -/
def State.handoverEnd (s : State) : State :=
  match s.twn.hand with
  | some h =>
    if s.twState ≠ twHandover || !s.twn.swapped || s.tb < h + 16 * clampN 400 4000 (s.get R.TWN_CFG_PAIR_DLY) then s
    else
      let s := s.upTwn fun x => { x with hand := none, swapped := false, asks := false }
      (((s.bump R.TWN_CNT2_HANDOVERS).set1 R.TWN_INT_STAT_HANDOVER_DONE).setTwState twActive).unmuteCarried
  | none => s
def execHandoverEnd (t : Nat) (s : State) : Out := laneAct [.ce, .pwm, .fmx, .lne, .twn] t s State.handoverEnd

/-- REVERT_HOLDOFF_EXPIRY: a healthy ROLE A follower asks for the role. -/
def State.revertExpiry (s : State) : State :=
  let s := s.showHealthy
  match s.twn.healthyAt with
  | some x =>
    if s.is R.TWN_CTL_REVERT && (x + clampN 10 3600 (s.get R.TWN_HOLDOFF) * second ≤ s.tb) then
      s.upTwn fun y => { y with asks := true }
    else s
  | none => s
def execRevertHoldoffExpiry (t : Nat) (s : State) : Out := act [.twn] t s State.revertExpiry

/-- TIME_HANDOVER: no LOCKED domain here, one at the follower for 10 s. -/
def State.timeHandover (s : State) : State :=
  match s.twn.pLockedAt with
  | some x => if !s.anyLocked && (x + 10 * second ≤ s.tb) then s.handoverRequest 3 else s
  | none => s
def execTimeHandover (t : Nat) (s : State) : Out := act [.ce, .twn] t s State.timeHandover

end Sys2Proof.Machine
end

