-- ==== Sys2Proof/Machine/Clock.lean ====
section
/-!
DEFINITION. The clock generator: references, the PLL, the DLL and the changeovers between them (chapter 16, R319–R332).
-/

namespace Sys2Proof.Machine

/-- CLK_STAT.MODE. -/
def clkDll : Nat := 0
def clkAcquire : Nat := 1
def clkLock : Nat := 2
def clkHoldover : Nat := 3

def State.clkMode (s : State) : Nat := s.get R.CLK_STAT_MODE

/-! ### References (R319, R324) -/

/-- Reference 0 is XIN, 1 is CLKIN. -/
def refOkField (r : Nat) : RF := if r = 0 then R.CLK_STAT_XIN_OK else R.CLK_STAT_CLKIN_OK
def State.refOk (s : State) (r : Nat) : Bool := s.is (refOkField r)
def State.refEnabled (s : State) (r : Nat) : Bool := s.is (if r = 0 then R.CLK_REFCFG_XIN_EN else R.CLK_REFCFG_CLKIN_EN)
def State.refSel (s : State) : Nat := s.get R.CLK_REFCFG_REFSEL

/-- The source of the DLL: the selected reference, else the other one, else BOSC (2). -/
def State.dllSourceOf (s : State) (sel : Nat) : Nat :=
  if s.refOk sel then sel else if s.refOk (1 - sel) then 1 - sel else 2
def State.dllSource (s : State) : Nat := s.dllSourceOf s.refSel

/-- The DLL follows its source; after a change it is off its grid until it has realigned. -/
def State.showDll (s : State) (was : Nat) : State :=
  let now := s.dllSource
  let s := s.put R.CLK_STAT_BOSC (b2n (now = 2))
  if now = was then s else s.clr R.CLK_STAT_DLL_ALIGNED

/-- REFSEL names the other reference. -/
def State.refChange (s : State) : State :=
  let r := 1 - s.refSel
  let s := (s.put R.CLK_REFCFG_REFSEL r).put R.CLK_STAT_REF r
  (s.bump R.CLK_CNT_REFSW).set1 R.CLK_INT_STAT_REF_CHG

/-- Whether the other reference can stand in for the selected one. -/
def State.refOther (s : State) : Bool := s.is R.CLK_CTL_ALTREF && s.refOk (1 - s.refSel)

/-! ### Acquisition (R325, R329) -/

/-- The PLL starts to acquire while the domains run from the DLL, as soon as it has a reference. -/
def State.acquire (s : State) : State :=
  if !s.clk.dll || s.clkMode ≠ clkDll then s
  else if s.refOk s.refSel || s.refOther then
    let s := if s.refOk s.refSel then s.put R.CLK_STAT_REF s.refSel else s.refChange
    let s := { s with clk := { s.clk with search := s.clk.search || !s.is R.CLK_BAND_VALID } }
    s.put R.CLK_STAT_MODE clkAcquire
  else s

/-- An acquisition fails, and starts again; after three in a row it starts with a band search. A band search that fails
sets BAND_FAIL. -/
def State.acquireFail (s : State) : State :=
  let bandFail := s.clk.search
  let third := s.clk.fails = 2
  let clk : Clock := { s.clk with fails := if third then 0 else s.clk.fails + 1, search := s.clk.search || third }
  let s := ({ s with clk := clk }).put R.CLK_STAT_MODE clkDll
  let s := if third then s.clr R.CLK_BAND_VALID else s
  let s := if bandFail then (s.set1 R.CLK_INT_STAT_BAND_FAIL).hltReason 6 else s
  s.acquire

/-! ### Loss of lock (R326, R327) -/

/-- The lock is lost now, with its class: 1 REF, 2 LOOP, 3 DCO. -/
def State.loseLock (s : State) (cls : Nat) : State :=
  if s.clk.dll then (if s.clkMode = clkDll then s else s.acquireFail)
  else if s.clkMode ≠ clkLock then s
  else
    let s := (s.put R.CLK_STAT_MODE clkHoldover).clr R.CLK_STAT_ALIGNED
    let s := (s.set1 R.CLK_INT_STAT_UNLOCK).put R.CLK_STAT_LOSS_CLASS cls
    let s := (s.put R.CLK_EVTSTAMP s.tb).bump R.CLK_CNT_UNLOCKS
    let s := if cls = 3 then ({ s.stopLanes with clk := { s.clk with lanes := false } }).hltReason 6 else s
    ({ s with clk := { s.clk with lost := true } }.fsAssert 125).holdoverAll

/-- LOSS_OF_LOCK: `c` is 0 REF, 1 LOOP, 2 DCO. -/
def execLossOfLock (t c : Nat) (phase : Int) (s : State) : Out :=
  laneUnit [.clk, .pwr, .ce, .pwm, .fmx, .lne, .tsu, .twn, .ldg, .hlt] (c < 3) t s fun s =>
    let s := s.put R.CLK_PHERR (ofS 16 (satS 16 phase))
    if c = 0 then
      let src := s.dllSource
      let s := (s.clr (refOkField s.refSel)).showDll src
      if s.clkMode = clkLock && s.refOther then s.refChange else s.loseLock 1
    else s.loseLock (c + 1)

/-- REFERENCE_ABSENT: a gap of more than 100 ns, or a frequency outside ±500 ppm while locked. -/
def State.referenceAbsent (s : State) (r : Nat) : State :=
  let src := s.dllSource
  let sel := s.refSel
  let s := (s.clr (refOkField r)).showDll src
  if r ≠ sel || s.clkMode = clkDll || s.clkMode = clkHoldover then s
  else if s.refOther then
    let s := s.refChange
    if s.clkMode = clkAcquire then s.acquireFail else s
  else s.loseLock 1
def execReferenceAbsent (t r : Nat) (s : State) : Out := laneUnit [.clk, .pwr, .ce, .pwm, .fmx, .lne, .tsu, .twn, .ldg, .hlt] (r < 2) t s fun s => s.referenceAbsent r

/-- REFERENCE_PRESENT: 64 edges without a gap, its monitor enabled. The PLL acquires in a start (R325), and under RELOCK. -/
def State.referencePresent (s : State) (r : Nat) : State :=
  if !s.refEnabled r then s
  else
    let src := s.dllSource
    let s := (s.set1 (refOkField r)).showDll src
    if s.is R.CLK_CTL_RELOCK || s.pwr.start.isSome then s.acquire else s
def execReferencePresent (t r : Nat) (s : State) : Out := onUnit [.clk] (r < 2) t s fun s => s.referencePresent r

/-! ### The DLL (R324, R327, R328) -/

/-- When the domains move to the DLL after a loss at D. -/
def State.dllDue (s : State) : Nat :=
  let d := s.get R.CLK_EVTSTAMP
  if s.get R.CLK_STAT_LOSS_CLASS = 3 then (d + 639) / 640 * 640
  else (d + 16000 * clampN 10 1000 (s.get R.CLK_HOLD) + 3199) / 3200 * 3200

/-- Runs go on with the new clock's cycles from here (limit case of chapter 16). -/
def State.rebaseRuns (s : State) (dll : Bool) : State :=
  let engs := s.engs.map fun e => { e with run := e.run.map fun r => { r with start := s.tb, done_ := s.runCycles r } }
  let s := s.opsecNow
  { s with engs := engs, clk := { s.clk with dll := dll } }

/-- SMP stops: held frames and the snapshot in progress give no word (R328). -/
def State.smpStop (s : State) : State :=
  let s := { s with adcs := s.adcs.map fun a => { a with held := [], snap := none } }
  (List.range 4).foldl (fun s a => s.calInterrupt a) s

/-- The serial links go down. -/
def State.linksDown (s : State) : State :=
  let s := [0, 1, 2, 3, 4].foldl (fun s p => if s.linked p then s.linkChange p false false else s) s
  [0, 1].foldl (fun s l => if bit (s.get R.TWN_STAT_LANES) l then s.twinLane l false else s) s

/-- Every domain moves to the DLL. -/
def State.toDll (s : State) : State :=
  let s := s.stopLanes.rebaseRuns true
  let s := (s.put R.CLK_STAT_MODE clkDll).clr R.CLK_STAT_ALIGNED
  let s := { s with clk := { s.clk with lanes := false, smp := false, smpAt := none, fails := 0, search := false } }.smpStop
  let s := (List.range 12).foldl (fun s l => s.laneLose l) s
  if s.is R.CLK_CTL_SDCLK_EN && s.is R.CLK_STAT_SDCLK_OK then s.set1 R.CLK_STAT_ON_SDCLK else s.linksDown

/-- DLL_CHANGEOVER. -/
def State.dllChangeover (s : State) : State :=
  if s.clkMode ≠ clkHoldover || s.tb < s.dllDue then s
  else
    let s := s.toDll.set1 R.CLK_INT_STAT_SWITCH_DLL
    if s.is R.CLK_CTL_RELOCK then s.acquire else s
def execDllChangeover (t : Nat) (s : State) : Out := laneAct [.clk, .pwr, .adc, .ce, .pwm, .fmx, .lne, .net, .tsu, .twn] t s State.dllChangeover

/-- DLL_REALIGNED. -/
def execDllRealigned (t : Nat) (s : State) : Out := act [.clk] t s fun s => s.set1 R.CLK_STAT_DLL_ALIGNED

/-- SDCLK_PRESENCE_CHANGE. -/
def State.sdclk (s : State) (on : Bool) : State :=
  let was := s.is R.CLK_STAT_SDCLK_OK
  let s := s.put R.CLK_STAT_SDCLK_OK (b2n on)
  if on || !was then s
  else
    let s := s.set1 R.CLK_INT_STAT_SDCLK_LOSS
    if s.is R.CLK_STAT_ON_SDCLK then (s.clr R.CLK_STAT_ON_SDCLK).linksDown else s
def execSdclkPresenceChange (t : Nat) (on : Bool) (s : State) : Out := act [.clk, .net, .tsu, .twn] t s fun s => s.sdclk on

/-! ### The changeover to the PLL (R322, R323, R325, R329) -/

/-- PLL_LOCKED: the acquisition locks (`ok`) or fails; `band` is what a band search found, `flimit` says that a correction
was clamped, `phase` is the last phase error. -/
def State.pllLocked (s : State) (ok : Bool) (band : Nat) (flimit : Bool) (phase : Int) : State :=
  if s.clkMode ≠ clkAcquire then s
  else
    let s := s.put R.CLK_PHERR (ofS 16 (satS 16 phase))
    let s := if flimit then s.set1 R.CLK_INT_STAT_FLIMIT else s
    if !ok then s.acquireFail
    else
      let s := if s.clk.search then (s.put R.CLK_BAND_BAND band).set1 R.CLK_BAND_VALID else s
      let s := { s with clk := { s.clk with fails := 0, search := false } }
      ((s.opsecNow.put R.CLK_STAT_MODE clkLock)).put R.CLK_RATE (s.get R.TSU_RATE)
def execPllLocked (t : Nat) (ok : Bool) (band : Nat) (flimit : Bool) (phase : Int) (s : State) : Out :=
  act [.clk, .pwr, .ldg, .hlt] t s fun s => s.pllLocked ok band flimit phase

/-- R322 holds while the delays in force of OUT0–OUT3 are 0. -/
def State.undelayed (s : State) : Bool := (s.clk.dly.take 4).all (· = 0)

/-- PLL_CHANGEOVER: the dividers are released at a DLL edge at a multiple of 3 200. -/
def State.pllChangeover (s : State) : State :=
  if !s.clk.dll || s.clkMode ≠ clkLock || s.tb % 3200 ≠ 0 then s
  else
    let dly := (s.clk.dly.zip (List.range 5)).map fun (d, n) => if n < 3 then s.get (R.CLK_OUT_CFG_DLY n) else d
    let s := s.rebaseRuns false
    let s := { s with clk := { s.clk with dly := dly } }
    let s := { s with clk := { s.clk with lanes := true, smpAt := some (s.tb + 320000), lost := s.clk.lost && !s.undelayed } }
    let s := s.put R.CLK_STAT_ALIGNED (b2n s.undelayed)
    let s := (s.set1 R.CLK_INT_STAT_LOCK).set1 R.CLK_INT_STAT_SWITCH_PLL
    (s.clr R.CLK_STAT_ON_SDCLK).fsRelease 125
def execPllChangeover (t : Nat) (s : State) : Out := laneAct [.clk, .pwr, .ce, .pwm, .fmx, .lne, .twn] t s State.pllChangeover

/-- How far chain `i`'s count advances to its next frame, as if it had counted every frame of the gap. -/
def State.chainAdvance (s : State) (i : Nat) : Nat :=
  let f := if (s.adc (i / 8)).watchOn then (s.tb + 12799) / 12800 * 12800 else s.tb
  (f - (s.chain i).frameAt) / 800

/-- SMP_RESTART. -/
def State.smpRestart (s : State) : State :=
  match s.clk.smpAt with
  | none => s
  | some x =>
    if s.tb < x || s.tb % 800 ≠ 0 then s
    else
      let s := { s with clk := { s.clk with smp := true, smpAt := none } }
      let s := (List.range 32).foldl (fun s i =>
        let n := s.chainAdvance i
        s.upChain i fun c => { c with adv := if c.begun then n else c.adv, outs := 0, ins := 0 }) s
      (List.range 4).foldl (fun s a => s.calRestart a) s
def execSmpRestart (t : Nat) (s : State) : Out := act [.clk, .adc, .scr] t s State.smpRestart

/-! ### Outputs (R323) -/

/-- OUTPUT_CONFIG_WRITE: a write of `v` to CLK_OUTn_CFG. ALIGNED shows that R322 holds, so OUT3 set going again with no delay
brings it back. -/
def State.outputConfig (s : State) (n v : Nat) : State :=
  let f := R.CLK_OUT_CFG_DLY n
  if n < 3 then s.put f (bits v 1 8)
  else
    let was := s.is (R.CLK_OUT_CFG_EN n)
    let s := if was then s else s.put f (bits v 1 8)
    let s := if n = 4 && was && !bit v 0 then s.stopLanes else s
    let s := s.put (R.CLK_OUT_CFG_EN n) (bits v 0 1)
    if !bit v 0 then (if n = 3 then s.smpStop else s)
    else if was then s
    else
      let s := { s with clk := { s.clk with dly := s.clk.dly.set n (s.get f) } }
      if n ≠ 3 then s
      else
        let s := (List.range 4).foldl (fun s a => s.calInterrupt a) s
        if s.get f ≠ 0 then s.clr R.CLK_STAT_ALIGNED
        else if s.undelayed && !s.clk.dll && s.clkMode = clkLock then
          ({ s with clk := { s.clk with lost := false } }).set1 R.CLK_STAT_ALIGNED
        else s
def execOutputConfigWrite (t n v : Nat) (s : State) : Out := onUnit [.clk, .adc, .pwm, .lne] (n < 5) t s fun s => s.outputConfig n v

end Sys2Proof.Machine
end

