-- ==== Sys2Proof/Machine/Pins.lean ====
section
/-!
DEFINITION. The pins and the interrupt router: GPIO, UART and the TAP (chapter 20, R381–R388), interrupt sources and
claims (chapter 22, R408–R411).
-/

namespace Sys2Proof.Machine

/-! ### GPIO (R381) -/

/-- The pad of GPIO `n` stands at `level`; the selected edge sets its interrupt bit. -/
def State.pad (s : State) (n : Nat) (level : Bool) : State :=
  let was := bit (s.get R.PIN_GPIO_IN) n
  let sel := s.get (R.PIN_GPIO_CFG_EDGE n)
  let s := s.put R.PIN_GPIO_IN (withBit (s.get R.PIN_GPIO_IN) n level)
  if was != level && bit sel (if level then 0 else 1) then s.orr R.PIN_GPIO_INT_STAT (2 ^ n) else s
def execGpioEdge (t n : Nat) (level : Bool) (s : State) : Out :=
  onUnitHeld [.pin] (n < 24) t s fun s =>
    if s.held then s.put R.PIN_GPIO_IN (withBit (s.get R.PIN_GPIO_IN) n level) else s.pad n level

/-- The pads of driven pins follow PIN_GPIO_OUT. -/
def State.padsDriven (s : State) : State :=
  (List.range 24).foldl (fun s n => if bit (s.get R.PIN_GPIO_OE) n then s.pad n (bit (s.get R.PIN_GPIO_OUT) n) else s) s

/-! ### UART (R385) -/

/-- UART_STAT shows the queues. -/
def State.showUart (s : State) : State :=
  (s.put R.PIN_UART_STAT_TXFREE (16 - s.pins.tx.length)).put R.PIN_UART_STAT_RXCOUNT s.pins.rx.length

/-- UART_TX_WRITE. -/
def State.uartTx (s : State) (b : Nat) : State :=
  if 16 ≤ s.pins.tx.length then s.set1 R.PIN_UART_STAT_TX_OVF
  else ({ s with pins := { s.pins with tx := s.pins.tx ++ [b % 256] } }).showUart
def execUartTxWrite (t b : Nat) (s : State) : Out := act [.pin] t s fun s => s.uartTx b

/-- UART_BYTE_SENT: the oldest byte has gone out. -/
def execUartByteSent (t : Nat) (s : State) : Out :=
  act [.pin] t s fun s => ({ s with pins := { s.pins with tx := s.pins.tx.drop 1 } }).showUart

/-- UART_RECEIVE. A byte whose stop bit is missing sets FRAME, and enters the queue as received (DEDUCED, log entry 37). -/
def State.uartRx (s : State) (b : Nat) (stopOk : Bool) : State :=
  let s := if stopOk then s else s.set1 R.PIN_UART_STAT_FRAME
  if 16 ≤ s.pins.rx.length then s.set1 R.PIN_UART_STAT_RX_OVF
  else ({ s with pins := { s.pins with rx := s.pins.rx ++ [b % 256] } }).showUart
def execUartReceive (t b : Nat) (stopOk : Bool) (s : State) : Out := act [.pin] t s fun s => s.uartRx b stopOk

/-- UART_RX_READ: the oldest byte is answered and removed; an empty queue answers 0. -/
def State.uartRead (s : State) : State :=
  let b := s.pins.rx.headD 0
  (({ s with pins := { s.pins with rx := s.pins.rx.drop 1 } }).showUart).dataResp b
def execUartRxRead (t : Nat) (s : State) : Out := act [.pin, .bus] t s State.uartRead

/-! ### The TAP (R384) -/

/-- The instruction that the TAP holds: 0 BYPASS, 1 IDCODE, 2 SAMPLE/PRELOAD, 3 debug access, 4 EXTEST, 5 EXTEST_PULSE, 6
EXTEST_TRAIN. The last three load BYPASS unless PORST_N is held low. -/
def tapLoad (ir : Nat) (porst : Bool) : Nat := if 4 ≤ ir && !porst then 0 else ir

/-- JTAG_INSTRUCTION: `ir` is loaded. TRST_N low resets the TAP, to IDCODE as IEEE 1149.1 has it (PRESUMED, log entry 38). The
TAP is reached while the domains are held in reset. -/
def State.jtag (s : State) (ir : Nat) (trst : Bool) : State :=
  { s with pins := { s.pins with jtag := if trst then 1 else tapLoad ir s.pwr.porst } }
def execJtagInstruction (t ir : Nat) (trst : Bool) (s : State) : Out := onUnitHeld [.pin] (ir < 7) t s fun s => s.jtag ir trst

/-- The data register that the TAP's instruction selects, with what it captures where the spec gives that: the bypass bit,
or IDCODE; of the boundary register and the cores' debug module the spec gives no content (log entry 38). -/
def State.tapData (s : State) : Option Nat :=
  match s.pins.jtag with
  | 0 => some 0
  | 1 => some 0x148602F5
  | _ => none

/-! ### Interrupt sources (R408, R409) -/

/-- A source that is one status register with its enable register. -/
def State.intOn (s : State) (stat en : RF) : Bool := s.get stat &&& s.get en ≠ 0

/-- The register unit that CEn's addresses reach: CE7's after a move (R99). -/
def State.irqCe (s : State) (n : Nat) : Nat := if s.is (R.CE_STAT_MOVED n) && s.get R.CE7_MOVE_STAT_SRC = n then 7 else n

/-- Whether source `n` of Table 22-3 is asserted. -/
def State.asserted (s : State) (n : Nat) : Bool :=
  match n with
  | 1 => s.intOn R.CLK_INT_STAT R.CLK_INT_EN
  | 2 => s.intOn R.PWR_INT_STAT R.PWR_INT_EN
  | 3 => s.intOn R.MLD_INT_STAT R.MLD_INT_EN
  | 4 => s.intOn R.BNK_INT_STAT R.BNK_INT_EN
  | 5 => s.intOn R.SWP_INT_STAT R.SWP_INT_EN
  | 6 => s.intOn R.GLN_INT_DONE R.GLN_INT_EN_DONE
  | 7 => s.intOn R.GLN_INT_HALT R.GLN_INT_EN_HALT
  | 12 => s.intOn R.SCR_INT_STAT R.SCR_INT_EN
  | 64 => s.intOn R.NET_INT_STAT R.NET_INT_EN
  | 65 => s.intOn R.TSU_INT_STAT R.TSU_INT_EN
  | 66 => s.intOn R.TWN_INT_STAT R.TWN_INT_EN
  | 67 => s.intOn R.WCH_INT_STAT R.WCH_INT_EN
  | 68 => s.intOn R.LDG_INT_STAT R.LDG_INT_EN
  | 69 => s.intOn R.HLT_INT_STAT R.HLT_INT_EN
  | 70 => s.intOn R.PIN_GPIO_INT_STAT R.PIN_GPIO_INT_EN
  | 71 => s.is R.PIN_UART_STAT_RXCOUNT || s.is R.PIN_UART_STAT_TX_OVF || s.is R.PIN_UART_STAT_RX_OVF ||
      s.is R.PIN_UART_STAT_FRAME
  | n =>
    if 8 ≤ n && n < 12 then s.intOn (R.ADC_INT_STAT (n - 8)) (R.ADC_INT_EN (n - 8))
    else if 16 ≤ n && n < 24 then s.intOn (R.CE_INT_STAT (s.irqCe (n - 16))) (R.CE_INT_EN (s.irqCe (n - 16)))
    else if 24 ≤ n && n < 28 then s.intOn (R.PHT_PT_INT_STAT (n - 24)) (R.PHT_PT_INT_EN (n - 24))
    else if 32 ≤ n && n < 40 then s.intOn (R.PWM_PG_INT_STAT (n - 32)) (R.PWM_PG_INT_EN (n - 32))
    else if 40 ≤ n && n < 48 then s.intOn (R.FMX_PG_INT_STAT (n - 40)) (R.FMX_PG_INT_EN (n - 40))
    else if 48 ≤ n && n < 60 then s.intOn (R.LNE_LN_INT_STAT (n - 48)) (R.LNE_LN_INT_EN (n - 48))
    else if 248 ≤ n && n < 256 then bit (s.get R.IRQ_SOFT) (n - 248)
    else false

/-- Reserved numbers of Table 22-3. -/
def irqReserved (n : Nat) : Bool :=
  13 ≤ n && n ≤ 15 || 28 ≤ n && n ≤ 31 || 60 ≤ n && n ≤ 63 || 72 ≤ n && n ≤ 247

/-! ### The router (R410) -/

/-- Whether source `n` is eligible for core `k`. -/
def State.eligible (s : State) (k n : Nat) : Bool :=
  s.asserted n && !s.is (R.IRQ_SRC_CFG_CLAIMED n) && bit (s.get (R.IRQ_SRC_CFG_TGT n)) k &&
  s.get (R.IRQ_C_THRESH k) < s.get (R.IRQ_SRC_CFG_PRIO n)

/-- The eligible source with the highest priority, the lower number on a tie; 0 when none is. -/
def State.irqBest (s : State) (k : Nat) : Nat :=
  ((List.range 256).filter (s.eligible k)).foldl
    (fun b n => if b = 0 || s.get (R.IRQ_SRC_CFG_PRIO b) < s.get (R.IRQ_SRC_CFG_PRIO n) then n else b) 0

/-- Source `n`, or none, is claimed by core `k`. -/
def State.irqTake (s : State) (k n : Nat) : State :=
  let s := if n = 0 then s else (s.set1 (R.IRQ_SRC_CFG_CLAIMED n)).put (R.IRQ_SRC_CFG_BY n) k
  s.dataResp n

/-- IRQ_COMPLETE: a write of `num` to IRQ_Ck_CLAIM. -/
def State.irqComplete (s : State) (k num : Nat) : State :=
  let n := num % 256
  if s.is (R.IRQ_SRC_CFG_CLAIMED n) && s.get (R.IRQ_SRC_CFG_BY n) = k then
    (s.clr (R.IRQ_SRC_CFG_CLAIMED n)).clr (R.IRQ_SRC_CFG_BY n)
  else s
def execIrqComplete (t k num : Nat) (s : State) : Out := onUnit [.irq] (k < 4) t s fun s => s.irqComplete k num

end Sys2Proof.Machine
end

