-- ==== Sys2Proof/Machine/Crypto.lean ====
section
/-!
DEFINITION. What checks a signed image (R28): SHA-256 and the verification of an ECDSA P-256 signature with a public key
of the fuses. The two algorithms' constants and equations are those of the published standards that R28 names.
-/

namespace Sys2Proof.Machine

/-! ### SHA-256 -/

def shaK : List Nat := [
  0x428A2F98, 0x71374491, 0xB5C0FBCF, 0xE9B5DBA5, 0x3956C25B, 0x59F111F1, 0x923F82A4, 0xAB1C5ED5,
  0xD807AA98, 0x12835B01, 0x243185BE, 0x550C7DC3, 0x72BE5D74, 0x80DEB1FE, 0x9BDC06A7, 0xC19BF174,
  0xE49B69C1, 0xEFBE4786, 0x0FC19DC6, 0x240CA1CC, 0x2DE92C6F, 0x4A7484AA, 0x5CB0A9DC, 0x76F988DA,
  0x983E5152, 0xA831C66D, 0xB00327C8, 0xBF597FC7, 0xC6E00BF3, 0xD5A79147, 0x06CA6351, 0x14292967,
  0x27B70A85, 0x2E1B2138, 0x4D2C6DFC, 0x53380D13, 0x650A7354, 0x766A0ABB, 0x81C2C92E, 0x92722C85,
  0xA2BFE8A1, 0xA81A664B, 0xC24B8B70, 0xC76C51A3, 0xD192E819, 0xD6990624, 0xF40E3585, 0x106AA070,
  0x19A4C116, 0x1E376C08, 0x2748774C, 0x34B0BCB5, 0x391C0CB3, 0x4ED8AA4A, 0x5B9CCA4F, 0x682E6FF3,
  0x748F82EE, 0x78A5636F, 0x84C87814, 0x8CC70208, 0x90BEFFFA, 0xA4506CEB, 0xBEF9A3F7, 0xC67178F2]

def shaInit : List Nat := [
  0x6A09E667, 0xBB67AE85, 0x3C6EF372, 0xA54FF53A, 0x510E527F, 0x9B05688C, 0x1F83D9AB, 0x5BE0CD19]

def rotr32 (x n : Nat) : Nat := (x >>> n) ||| ((x <<< (32 - n)) % 2 ^ 32)
def not32 (x : Nat) : Nat := 2 ^ 32 - 1 - x

/-- One round over the working variables, with the schedule word `w` and the constant `k`. -/
def shaRound (v : List Nat) (k w : Nat) : List Nat :=
  match v with
  | [a, b, c, d, e, f, g, h] =>
    let s1 := rotr32 e 6 ^^^ rotr32 e 11 ^^^ rotr32 e 25
    let ch := (e &&& f) ^^^ (not32 e &&& g)
    let t1 := h + s1 + ch + k + w
    let s0 := rotr32 a 2 ^^^ rotr32 a 13 ^^^ rotr32 a 22
    let maj := (a &&& b) ^^^ (a &&& c) ^^^ (b &&& c)
    [(t1 + s0 + maj) % 2 ^ 32, a, b, c, (d + t1) % 2 ^ 32, e, f, g]
  | v => v

/-- The schedule's next word, from the last sixteen. -/
def shaNext (w : List Nat) : Nat :=
  let x := w.getD 1 0
  let y := w.getD 14 0
  let s0 := rotr32 x 7 ^^^ rotr32 x 18 ^^^ (x >>> 3)
  let s1 := rotr32 y 17 ^^^ rotr32 y 19 ^^^ (y >>> 10)
  (w.getD 0 0 + s0 + w.getD 9 0 + s1) % 2 ^ 32

/-- The rounds of one block: the constants left, the sixteen schedule words in use, the working variables. -/
def shaRounds : List Nat → List Nat → List Nat → List Nat
  | [], _, v => v
  | k :: ks, w, v => shaRounds ks (w.drop 1 ++ [shaNext w]) (shaRound v k (w.getD 0 0))

def shaBlock (h : List Nat) (b : List Byte) : List Nat :=
  let w := (List.range 16).map fun i => beAt b (4 * i) 4
  (h.zip (shaRounds shaK w h)).map fun (x, y) => (x + y) % 2 ^ 32

/-- The message with its padding. -/
def shaPad (m : List Byte) : List Byte :=
  m ++ [0x80] ++ List.replicate ((119 - m.length % 64) % 64) 0 ++ beBytes 8 (8 * m.length)

def shaBlocks : Nat → List Nat → List Byte → List Nat
  | 0, h, _ => h
  | n + 1, h, bs => shaBlocks n (shaBlock h (bs.take 64)) (bs.drop 64)

/-- The SHA-256 digest as a number, first byte the most significant. -/
def sha256 (m : List Byte) : Nat :=
  let p := shaPad m
  (shaBlocks (p.length / 64) shaInit p).foldl (fun a x => a * 2 ^ 32 + x) 0

/-! ### ECDSA over P-256 -/

def p256P : Nat := 2 ^ 256 - 2 ^ 224 + 2 ^ 192 + 2 ^ 96 - 1
def p256B : Nat := 0x5AC635D8AA3A93E7B3EBBD55769886BC651D06B0CC53B0F63BCE3C3E27D2604B
def p256N : Nat := 0xFFFFFFFF00000000FFFFFFFFFFFFFFFFBCE6FAADA7179E84F3B9CAC2FC632551
def p256G : Nat × Nat :=
  (0x6B17D1F2E12C4247F8BCE6E563A440F277037D812DEB33A0F4A13945D898C296,
   0x4FE342E2FE1A7F9B8EE7EB4A7C0F9E162BCE33576B315ECECBB6406837BF51F5)

/-- `b ^ e` modulo `m`, over the lowest `k` bits of `e`. -/
def powMod (m : Nat) : Nat → Nat → Nat → Nat
  | 0, _, _ => 1
  | k + 1, b, e =>
    let r := powMod m k (b * b % m) (e / 2)
    if e % 2 = 1 then r * b % m else r

def invMod (m x : Nat) : Nat := powMod m 256 (x % m) (m - 2)

/-- A point of the curve; none is the point at infinity. -/
abbrev Point := Option (Nat × Nat)

def pointAdd (p q : Point) : Point :=
  match p, q with
  | none, q => q
  | p, none => p
  | some (x1, y1), some (x2, y2) =>
    let m := p256P
    if x1 = x2 ∧ (y1 + y2) % m = 0 then none
    else
      let l := if x1 = x2 then (3 * x1 * x1 + (m - 3)) * invMod m (2 * y1) else (y2 + (m - y1)) * invMod m (x2 + (m - x1))
      let x3 := (l * l + (m - x1) + (m - x2)) % m
      some (x3, (l * (x1 + (m - x3)) + (m - y1)) % m)

/-- A multiple of a point, over the lowest `k` bits of the factor. -/
def pointMul : Nat → Nat → Point → Point
  | 0, _, _ => none
  | k + 1, e, p =>
    let r := pointMul k (e / 2) (pointAdd p p)
    if e % 2 = 1 then pointAdd r p else r

def onCurve (x y : Nat) : Bool :=
  x < p256P && y < p256P && y * y % p256P = (x * x * x + (p256P - 3) * x + p256B) % p256P

/-- Whether `(r, s)` signs the digest `e` under the public key `(x, y)`. -/
def ecdsaOk (x y e r s : Nat) : Bool :=
  onCurve x y && 1 ≤ r && r < p256N && 1 ≤ s && s < p256N &&
  let w := invMod p256N s
  match pointAdd (pointMul 256 (e * w % p256N) (some p256G)) (pointMul 256 (r * w % p256N) (some (x, y))) with
  | some (rx, _) => rx % p256N = r
  | none => false

/-- Whether an image's last 64 bytes sign all before them, under the key of slot `k` (R28). Slots 0 to 3 are the Mould
keys, 4 to 7 the firmware keys. -/
def signedBy (k : Nat) (img : List Byte) : Bool :=
  let n := img.length - 64
  ecdsaOk (Config.fuseKey k 0) (Config.fuseKey k 1) (sha256 (img.take n)) (beAt img n 32) (beAt img (n + 32) 32)

end Sys2Proof.Machine
end

