-- ==== Sys2Proof/Machine/Health.lean ====
section
/-!
DEFINITION. The health unit (chapter 19, R366–R374): the engine test, the reasons for replacement, firmware images and the
life account.
-/

namespace Sys2Proof.Machine

def State.upHlt (s : State) (f : HltState → HltState) : State := { s with hlt := f s.hlt }

/-! ### The engine test (R367) -/

def State.engTest (s : State) (n : Nat) : EngTest := s.hlt.tests.getD n {}
def State.upTest (s : State) (n : Nat) (f : EngTest → EngTest) : State := s.upHlt fun h => { h with tests := upd h.tests n f }

/-- The test interval, sub-ticks. -/
def State.testInt (s : State) : Nat := 16000000 * s.get R.HLT_CFG
/-- An engine is tested unless it is held as a spare or faulted; TEST_INT 0 disables the test. -/
def State.tested (s : State) (n : Nat) : Bool :=
  s.testInt ≠ 0 && !s.is (R.CE_FAULT n) && !s.spare n
/-- A piece of 64 cycles fits between the last run, the piece before and now, and no tick waits. -/
def State.pieceFits (s : State) (n : Nat) : Bool :=
  let e := s.eng n
  let len := 64 * s.cycleLen
  e.run.isNone && e.pend.isNone && (s.engTest n).from_ + len ≤ s.tb && (s.engTest n).last + len ≤ s.tb &&
  (match e.endAt with | some x => decide (x + s.cycleLen + len ≤ s.tb) | none => true)

/-- ENGINE_TEST_PIECE: a piece completes; `same` says that the signature is the fixed one. A mismatch faults the engine
(R97), and CE7's AUTOMOVE then moves its sheet (R98). -/
def State.testPiece (s : State) (n : Nat) (same : Bool) : State :=
  if !s.tested n || !s.pieceFits n then s
  else if (s.engTest n).pieces < 255 then s.upTest n fun x => { x with pieces := x.pieces + 1, last := s.tb }
  else
    let s := s.upTest n fun x => { from_ := x.from_ + s.testInt, pieces := 0, last := s.tb }
    let s := s.put R.HLT_TEST_STARVED (withBit (s.get R.HLT_TEST_STARVED) n false)
    if same then s.bumpWrap R.HLT_TEST_COUNT
    else
      let s := (s.set1 R.HLT_INT_STAT_TEST_FAIL).engFault n (R.CE_FAULT_TEST n)
      if s.is (R.CE_RUNCTL_AUTOMOVE 7) then s.moveStart n else s
def execEngineTestPiece (t n : Nat) (same : Bool) (s : State) : Out := laneUnit [.ce, .pwm, .fmx, .lne, .twn, .ldg, .hlt] (n < 8) t s fun s => s.testPiece n same

/-- ENGINE_TEST_STARVED. -/
def State.testStarved (s : State) (n : Nat) : State :=
  if !s.tested n || s.tb < (s.engTest n).from_ + s.testInt then s
  else (s.upTest n fun _ => { from_ := s.tb, pieces := 0, last := s.tb }).orr R.HLT_TEST_STARVED (2 ^ n)
def execEngineTestStarved (t n : Nat) (s : State) : Out := onUnit [.hlt] (n < 8) t s fun s => s.testStarved n

/-! ### Temperature and life (R368, R373) -/

/-- Fixed-point numbers of the life account: 40 fraction bits. -/
def fxOne : Int := 2 ^ 40
/-- Σ r^k / k! from `k` on, over `n` more terms; `a` is the term before. -/
def fxExp (r : Int) : Nat → Int → Int → Int
  | 0, _, acc => acc
  | n + 1, a, acc => let a' := a * r / fxOne / (24 - n : Nat); fxExp r n a' (acc + a')

/-- exp(8 123 K × (1/363.15 K − 1/T)) in 40 fraction bits, for a junction at `temp` 1/128 °C: x / ln 2 is split into its
whole and its fractional part. -/
def lifeRate (temp : Int) : Nat :=
  let tk : Int := 100 * temp + 27315 * 128
  if tk ≤ 0 then 0
  else
    let x : Int := 8123 * (tk - 36315 * 128) * 100 * fxOne / (36315 * tk)
    let ln2 : Int := 762123384786
    let k := x / ln2
    let e := (fxExp (x - k * ln2) 24 fxOne fxOne).toNat
    if 0 ≤ k then e * 2 ^ k.toNat else e / 2 ^ (-k).toNat

/-- A millisecond's hours, 40 fraction bits, added up; a whole hour goes to HLT_LIFE. -/
def State.lifeStep (s : State) (temp : Int) : State :=
  let hour := 3600000 * 2 ^ 40
  let v := s.hlt.life + lifeRate temp
  let s := (s.upHlt fun h => { h with life := v % hour }).bump R.HLT_LIFE (v / hour)
  if 262800 ≤ s.get R.HLT_LIFE then s.hltReason 12 else s

/-- TEMPERATURE_SAMPLE: `temp` in 1/128 °C. -/
def State.temperature (s : State) (temp : Int) : State :=
  let s := s.put R.HLT_TEMP (ofS 16 (satS 16 temp))
  let s := s.upHlt fun h => { h with hot := if 16000 < temp then some (h.hot.getD s.tb) else none }
  s.lifeStep temp
def execTemperatureSample (t : Nat) (temp : Int) (s : State) : Out := act [.ldg, .hlt] t s fun s => s.temperature temp

/-- THERMAL_EXPIRY: above 125 °C for 1 s. -/
def execThermalExpiry (t : Nat) (s : State) : Out :=
  act [.ldg, .hlt] t s fun s => match s.hlt.hot with
    | some x => if x + 16000000000 ≤ s.tb then s.hltReason 13 else s
    | none => s

/-- TWIN_LINK_REASON_EXPIRY: a lane of the twin link down for 60 s. -/
def State.twinLinkReason (s : State) : State :=
  let long := [0, 1].any fun l => !bit (s.get R.TWN_STAT_LANES) l && s.twn.downAt.getD l 0 + 60 * 16000000000 ≤ s.tb
  if s.is R.TWN_CTL_EN && long then s.hltReason 11 else s
def execTwinLinkReasonExpiry (t : Nat) (s : State) : Out := act [.ldg, .hlt] t s State.twinLinkReason

/-- REQ (HLT_CMD). -/
def execReq (t : Nat) (s : State) : Out := act [.ldg, .hlt] t s fun s => s.hltReason 15

/-! ### Images (R26, R370, R371) -/

/-- The nonvolatile die (R23). -/
def nvBase : Nat := 0x90000000

/-- Whether a staging range lies in main banks owned by the core cluster. -/
def State.stageOk (s : State) (base len : Nat) : Bool :=
  match mainBank base, mainBank (base + (len - 1)) with
  | some a, some b => (List.range (b - a + 1)).all fun k => s.get (R.BNK_BK_OWN_OWNER (a + k)) = ownCores
  | _, _ => false

/-- Header fields of a firmware image (Table 19-3). -/
def fwHeaderOk (img : List Byte) (len : Nat) : Bool :=
  let load := leAt img 0x18 4
  let entry := leAt img 0x1C 4
  leAt img 0 4 = 0x4D524946 && leAt img 4 2 = 0x0100 && leAt img 6 2 = 64 && leAt img 0x15 3 = 0 &&
  leAt img 0x20 32 = 0 && load % 4096 = 0 && (mainBank load).isSome && (mainBank (load + (len - 132 - 1))).isSome &&
  load ≤ entry && entry < load + (len - 132)

/-- The checks of a firmware image of which `room` bytes are there: 0, or the code of HLT_FW_STAT.ERR. -/
def State.fwCheckImage (s : State) (img : List Byte) (room : Nat) : Nat :=
  let len := leAt img 8 4
  let key := leAt img 0x14 1
  if len < 132 || 16777216 < len || len % 4 ≠ 0 || room < len then 1
  else if !fwHeaderOk img len then 2
  else if crc32 (img.take (len - 68)) ≠ leAt img (len - 68) 4 then 3
  else if 3 < key || bit (s.get R.SYS_KEYREV_FIRMWARE) key then 4
  else if !signedBy (4 + key) (img.take len) then 5
  else 0

def fwSlotAt (slot : Nat) : Nat := nvBase + slot * 0x1000000
/-- The image a firmware slot holds, as long as its header says and the slot allows. -/
def State.fwStored (s : State) (slot : Nat) : List Byte :=
  s.readBytes (fwSlotAt slot) (min 0x1000000 (max 64 (s.readLe (fwSlotAt slot + 8) 4)))

/-- A firmware command fails with its code; a refused one, and a PROGRAM, with a record. -/
def State.fwErr (s : State) (err : Nat) : State := (s.put R.HLT_FW_STAT_ERR err).set1 R.HLT_INT_STAT_FW_ERR
def State.fwFail (s : State) (err : Nat) : State := (s.fwErr err).ldgPostFree 2 0x15 0

/-- Where an operation writes: a firmware slot, or the island's image slot (Table 14-3). -/
def fwTarget (op slot : Nat) : Nat := if op = 3 then nvBase + 0x2400000 + slot * 0x100000 else fwSlotAt slot

/-- A command begins. A slot about to be written fails its checks until the image stands in it. -/
def State.fwBegin (s : State) (op slot err : Nat) (img : List Byte) : State :=
  let s := (s.set1 R.HLT_FW_STAT_BUSY).upHlt fun h => { h with fw := some ⟨op, slot, err, img⟩ }
  if op = 1 && err = 0 then s.writeLe (fwTarget op slot) 4 0 else s

def State.fwStaged (s : State) : List Byte := s.readBytes (s.get R.HLT_FW_STAGE_BASE) (s.get R.HLT_FW_STAGE_LEN)

/-- PROGRAM, of firmware slot `slot`. -/
def State.fwProgram (s : State) (slot : Nat) : State :=
  if s.is R.HLT_FW_STAT_BUSY then s.fwFail 8
  else if slot = b2n Config.goldenSlot && !s.sealOn then s.fwFail 6
  else if !s.stageOk (s.get R.HLT_FW_STAGE_BASE) (s.get R.HLT_FW_STAGE_LEN) then s.fwFail 7
  else
    -- the image is what its header says; what is staged beyond it is not written
    let img := s.fwStaged
    s.fwBegin 1 slot (s.fwCheckImage img (s.get R.HLT_FW_STAGE_LEN)) (img.take (leAt img 8 4))
def execProgram (t slot : Nat) (s : State) : Out := onUnit [.ldg, .hlt, .mem] (slot < 2) t s fun s => s.fwProgram slot

/-- FW_CHECK. -/
def State.fwCheck (s : State) (slot : Nat) : State :=
  if s.is R.HLT_FW_STAT_BUSY then s.fwFail 8
  else s.fwBegin 2 slot (s.fwCheckImage (s.fwStored slot) 0x1000000) []
def execFwCheck (t slot : Nat) (s : State) : Out := onUnit [.ldg, .hlt, .mem] (slot < 2) t s fun s => s.fwCheck slot

/-- PROGRAM_ISLAND. The island's own check is the outside world's (FW_COMMAND_END). -/
def State.fwIsland (s : State) (slot : Nat) : State :=
  if s.is R.HLT_FW_STAT_BUSY then s.fwFail 8
  else if !s.sealOn then s.fwFail 6
  else if !s.stageOk (s.get R.HLT_FW_STAGE_BASE) (s.get R.HLT_FW_STAGE_LEN) then s.fwFail 7
  else s.fwBegin 3 slot (if 0x100000 < s.get R.HLT_FW_STAGE_LEN then 1 else 0) s.fwStaged
def execProgramIsland (t slot : Nat) (s : State) : Out := onUnit [.ldg, .hlt, .mem] (slot < 2) t s fun s => s.fwIsland slot

/-- FW_COMMAND_END: an image that passed its checks stands in its slot, unless it does not read back (`same` false); `isle`
is what the island's check of its own image answers. A failed programming leaves a byte free (log entry 8). -/
def State.fwEnd (s : State) (same : Bool) (isle : Nat) : State :=
  match s.hlt.fw with
  | none => s
  | some c =>
    let s := (s.clr R.HLT_FW_STAT_BUSY).upHlt fun h => { h with fw := none }
    let err := if c.err ≠ 0 then c.err else if c.op = 3 then isle else 0
    let base := fwTarget c.op c.slot
    let s := if c.op = 2 || err ≠ 0 then s else s.writeBytes base c.img
    let s := if c.op = 2 || err ≠ 0 || same then s
      else
        let k := s.drawn
        ({ s with drawn := k + 1 }).setByte base (Config.freeByte k 0)
    let err := if err ≠ 0 then err else if c.op ≠ 2 && !same then 9 else 0
    if err ≠ 0 then (if c.op = 2 then s.fwErr err else s.fwFail err)
    else
      let s := (s.put R.HLT_FW_STAT_ERR 0).set1 R.HLT_INT_STAT_FW_DONE
      if c.op = 2 then s else s.ldgPostFree 2 0x15 0
def execFwCommandEnd (t : Nat) (same : Bool) (isle : Nat) (s : State) : Out := act [.ldg, .hlt, .mem] t s fun s => s.fwEnd same isle

end Sys2Proof.Machine
end

