-- ==== Sys2Proof/Machine/Sheets.lean ====
section
/-!
DEFINITION. Quiesce and release of sheets (R38, R40, R41, R267, Table 2-4).
-/

namespace Sys2Proof.Machine

def State.upMld (s : State) (f : Loader → Loader) : State := { s with mld := f s.mld }

/-- MLD_QSTAT as it reads: the bits of SH0 and SH9–SH11 follow their conditions. -/
def State.qstatNow (s : State) : Nat :=
  [0, 9, 10, 11].foldl (fun v n => withBit v n (s.sheetQuiesced n)) (s.get R.MLD_QSTAT_QUIESCED)

/-- Whether a channel of a blocked group reads back off (R41). -/
def State.readsOff (s : State) (ch : Nat) (since : Nat) : Bool :=
  let l := ch / 4
  let x := s.lane l
  !s.is (R.LNE_LN_CTL_EN l) ||
  (match x.sample with
    | some t => since ≤ t && (!bit (s.get (R.LNE_LN_HCH l)) (8 * (ch % 4) + 1) || s.is (R.LNE_LN_STAT_HEAD_SAFE l))
    | none => false) ||
  s.get (R.LNE_LN_STAT_STATE l) ≠ laneUp && since + 160000 ≤ s.tb

/-- Whether an engine sheet has come to rest (R41): its engine has stopped, and the group's lanes are muted or every
channel of the group reads back off. -/
def State.atRest (s : State) (sheet : Nat) : Bool :=
  s.quiesceHeld sheet && (sheet = 8 && s.is R.CE7_MOVE_STAT_CARRYING || (s.eng (s.phys (sheet - 1))).run.isNone) &&
  match s.sheetGroup sheet with
  | none => true
  | some g =>
    if bit (s.get R.MLD_QSTAT_CARRIED) sheet then (s.groupLanes g).all s.muted
    else match (s.group g).blockAt with
      | none => false
      | some x => (s.groupChans g).all fun ch => s.readsOff ch x

/-- The QUIESCED bit of a sheet follows its condition. -/
def State.showQuiesced (s : State) (sheet : Nat) : State :=
  if 1 ≤ sheet && sheet ≤ 8 then
    if s.sheetLoaded sheet && s.atRest sheet then s.setQuiesced sheet true else s
  else s.setQuiesced sheet (s.sheetQuiesced sheet)

/-- SHEET_QUIESCED, and QUIESCE_READBACK_TIMEOUT 10 µs after the block. -/
def execSheetQuiesced (t n : Nat) (s : State) : Out := onUnit [.mld] (n < 12) t s fun s => s.showQuiesced n
def execQuiesceReadbackTimeout (t n : Nat) (s : State) : Out := onUnit [.mld] (n < 12) t s fun s => s.showQuiesced n

/-- SHEET_QUIESCE (R41): the sheet's bit is set. Lanes are muted where the partner carries the group; otherwise the group
is blocked with the two-step soft-off. The engine takes no further ticks. -/
def State.sheetQuiesce (s : State) (sheet : Nat) : State :=
  if sheet = 0 || bit (s.get R.MLD_QUIESCE) (sheet - 1) then s
  else
    let s := s.put R.MLD_QUIESCE (withBit (s.get R.MLD_QUIESCE) (sheet - 1) true)
    let s := s.upMld fun m => { m with stay := m.stay.filter (· ≠ sheet) }
    if 8 < sheet || !s.sheetLoaded sheet then s
    else
      let s := match s.sheetGroup sheet with
        | none => s
        | some g =>
          if s.partnerCarries g then
            let s := s.put R.MLD_QSTAT_CARRIED (withBit (s.get R.MLD_QSTAT_CARRIED) sheet true)
            let s := if (s.twn.muteAt.getD g none).isSome then s
              else { s with twn := { s.twn with muteAt := s.twn.muteAt.set g (some s.tb) } }
            (s.groupLanes g).foldl (fun s l => s.mute l muteQuiesce) s
          else s.updBlock g
      ((s.showLive (s.phys (sheet - 1))).showCarry).showQuiesced sheet
def execSheetQuiesce (t n : Nat) (s : State) : Out := laneUnit [.mld, .ce, .pwm, .fmx, .lne, .twn] (n < 12) t s fun s => s.sheetQuiesce n

/-- A sheet whose quiesce bit is clear is released, unless it would run unpaired (R267). -/
def State.releaseSheet (s : State) (sheet : Nat) : State :=
  let s := s.upMld fun m => { m with stay := m.stay.filter (· ≠ sheet) }
  if sheet = 0 || 8 < sheet || !s.sheetLoaded sheet then s
  else
    let p := s.get R.TWN_STAT_PSTATE
    if s.is R.TWN_CTL_EN && 2 ≤ p && p ≤ 4 && !s.paired sheet then
      s.put R.TWN_SHEETS_UNPAIRED (withBit (s.get R.TWN_SHEETS_UNPAIRED) (sheet - 1) true)
    else
      let s := match s.sheetGroup sheet with
        | some g => { s with twn := { s.twn with muteAt := s.twn.muteAt.set g none } }
        | none => s
      (s.sheetStart sheet).showCarry

/-- SHEET_RELEASE: the sheet's bit is cleared; a sheet under RELOAD stays quiesced until the RELOAD ends (R40). -/
def State.sheetRelease (s : State) (sheet : Nat) : State :=
  if sheet = 0 || !bit (s.get R.MLD_QUIESCE) (sheet - 1) then s
  else
    let s := s.put R.MLD_QUIESCE (withBit (s.get R.MLD_QUIESCE) (sheet - 1) false)
    if s.mld.cmd.any fun c => c.op = 3 && c.sheet = sheet then s.upMld fun m => { m with stay := sheet :: m.stay }
    else s.releaseSheet sheet
def execSheetRelease (t n : Nat) (s : State) : Out := laneUnit [.mld, .ce, .pwm, .fmx, .lne, .twn] (n < 12) t s fun s => s.sheetRelease n

end Sys2Proof.Machine
end

