-- ==== Sys2Proof/Machine/Watch.lean ====
section
/-!
DEFINITION. The Watch island (chapter 14, R269–R295): inputs, evaluation steps, outputs, reset, seal, parameter sets and
safety messages. The island's instants are those of its own clock (log entry 34).
-/

namespace Sys2Proof.Machine

def isleStart : Nat := 0
def isleRun : Nat := 1
def isleStop : Nat := 2
def isleParam : Nat := 3
def isleFault : Nat := 4

def State.upPair (s : State) (x : Nat) (f : IslePair → IslePair) : State := s.upIsle fun i => { i with pairs := upd i.pairs x f }
def State.upOut (s : State) (k : Nat) (f : IsleOut → IsleOut) : State := s.upIsle fun i => { i with outs := upd i.outs k f }
def State.upConn (s : State) (c : Nat) (f : IsleConn → IsleConn) : State := s.upIsle fun i => { i with conns := upd i.conns c f }
def State.islePair (s : State) (x : Nat) : IslePair := s.isle.pairs.getD x {}
def State.isleOut (s : State) (k : Nat) : IsleOut := s.isle.outs.getD k {}
def State.isleConn (s : State) (c : Nat) : IsleConn := s.isle.conns.getD c {}
def State.isleState (s : State) : Nat := s.get R.WCH_STAT_STATE

/-- The fields of pair `x` in WCH_PAIR: PERMIT 0, DISC 1, FAULT 2, CROSS 3; of SOk in WCH_SO: ON 0, SOB 1, FAULT 2,
WAIT_RST 3. -/
def pairBit (x k : Nat) : RF := ⟨R.WCH_PAIR.addr, 4 * x + k, 1⟩
def soBit (k b : Nat) : RF := ⟨R.WCH_SO.addr, 4 * k + b, 1⟩

/-- A safety-ring record of the island (R270); its TYPE and PAYLOAD are not stated. -/
def State.isleLog (s : State) (unit : Nat) : State := s.ldgPostFree 0 0x13 unit

/-! ### Parameter sets (R273–R275) -/

def psetAddr (n : Nat) : Nat := 0x92600000 + 0x10000 * n

/-- Little-endian field of the active set; 0 without one. -/
def State.ps (s : State) (off n : Nat) : Nat := leAt s.isle.pset off n
def State.pairOn (s : State) (x : Nat) : Bool := s.ps (0x10 + 8 * x) 1 = 1
def State.pairFilt (s : State) (x : Nat) : Nat := msec * s.ps (0x11 + 8 * x) 1
def State.pairDisc (s : State) (x : Nat) : Nat := msec * s.ps (0x12 + 8 * x) 2
def State.soMap (s : State) (k : Nat) : Nat := s.ps (0x30 + 16 * k) 2
def State.soAuto (s : State) (k : Nat) : Bool := s.ps (0x32 + 16 * k) 1 = 1
def State.soLead (s : State) (k : Nat) : Nat := usec * s.ps (0x34 + 16 * k) 2
def State.soPulse (s : State) (k : Nat) : Nat := usec * s.ps (0x36 + 16 * k) 2
def State.soInt (s : State) (k : Nat) : Nat := 1000 * msec * s.ps (0x38 + 16 * k) 2
def rxOff (c : Nat) : Nat := 0x70 + 32 * c
def txOff (c : Nat) : Nat := 0x170 + 32 * c

/-- One condition of Table 14-4: a field's offset and whether it is in range. -/
def rangeAt (p : List Byte) (off n lo hi : Nat) : List (Nat × Bool) := [(off, lo ≤ leAt p off n && leAt p off n ≤ hi)]
def zerosAt (p : List Byte) (off n : Nat) : List (Nat × Bool) := (List.range n).map fun i => (off + i, leAt p (off + i) 1 = 0)

/-- The RANGE check, in the order of the bytes. -/
def psRange (p : List Byte) : List (Nat × Bool) :=
  rangeAt p 0xC 2 10 1000 ++ zerosAt p 0xE 2 ++
  ((List.range 4).flatMap fun x =>
    let o := 0x10 + 8 * x
    rangeAt p o 1 0 1 ++ rangeAt p (o + 1) 1 1 10 ++ rangeAt p (o + 2) 2 5 2000 ++ zerosAt p (o + 4) 4) ++
  ((List.range 4).flatMap fun k =>
    let o := 0x30 + 16 * k
    rangeAt p o 2 0 0x1FFF ++ rangeAt p (o + 2) 1 0 1 ++ zerosAt p (o + 3) 1 ++ rangeAt p (o + 4) 2 0 500 ++
    rangeAt p (o + 6) 2 100 1000 ++ rangeAt p (o + 8) 2 1 60 ++ zerosAt p (o + 10) 6) ++
  ((List.range 8).flatMap fun c =>
    let o := rxOff c
    rangeAt p o 1 0 2 ++ (if leAt p o 1 = 2 then rangeAt p (o + 1) 1 0 1 else []) ++ rangeAt p (o + 2) 1 0 7 ++
    zerosAt p (o + 3) 1 ++ rangeAt p (o + 8) 2 5 2000 ++ zerosAt p (o + 10) 2 ++ zerosAt p (o + 18) 14) ++
  ((List.range 8).flatMap fun c =>
    let o := txOff c
    rangeAt p o 1 0 2 ++ (if leAt p o 1 = 2 then rangeAt p (o + 1) 1 0 1 else []) ++ zerosAt p (o + 2) 2 ++
    rangeAt p (o + 8) 2 1 100 ++ (if leAt p o 1 = 2 then rangeAt p (o + 10) 2 5 2000 else []) ++ zerosAt p (o + 20) 12) ++
  zerosAt p 0x270 396

/-- The checks of R275: RESULT (1 OK, 2 FORMAT, 3 RANGE, 4 CRC) and the offset of the first failing field. -/
def psCheck (p : List Byte) : Nat × Nat :=
  if leAt p 0 4 ≠ 0x57534554 then (2, 0)
  else if leAt p 4 2 ≠ 0x0100 then (2, 4)
  else if 3 < leAt p 6 2 then (2, 6)
  else match (psRange p).find? (!·.2) with
    | some (o, _) => (3, o)
    | none => if leAt p 0x3FC 4 ≠ crc32 (p.take 0x3FC) then (4, 0x3FC) else (1, 0)

/-- The set the seal selects is loaded; without a valid one PS_INVALID sets (R271, R275). -/
def State.loadSet (s : State) : State :=
  let n := s.get R.WCH_STAT_SEAL % 4
  let p := s.readBytes (psetAddr n) 1024
  if (psCheck p).1 = 1 && leAt p 6 2 = n then
    let s := s.upIsle fun i => { i with
      pset := p, conns := List.replicate 8 {}, txs := List.replicate 8 (s.wt, [])
      nextA := s.wt + msec * leAt p 0xC 2, nextB := s.wt + msec * leAt p 0xC 2 * 3 / 2 }
    let s := (List.range 8).foldl (fun s c =>
      ((s.put (R.WCH_RX_STAT_KIND c) (leAt p (rxOff c) 1)).put (R.WCH_RX_STAT_DEMAND c) (b2n (leAt p (rxOff c) 1 ≠ 0))).put
        (R.WCH_TX_STAT_KIND c) (leAt p (txOff c) 1)) s
    ((s.put R.WCH_ID_SET n).put R.WCH_PSACT (leAt p 0x3FC 4)).clr R.WCH_FAULT_PS_INVALID
  else
    let s := (List.range 8).foldl (fun s c => ((s.clr (R.WCH_RX_STAT_KIND c)).clr (R.WCH_RX_STAT_DEMAND c)).clr (R.WCH_TX_STAT_KIND c)) s
    (s.upIsle fun i => { i with pset := [], conns := List.replicate 8 {} }).set1 R.WCH_FAULT_PS_INVALID

/-! ### States and outputs (R270, R271, R281, R282) -/

/-- FS124 follows: every state but RUN asserts it; in RUN an output demanded off or waiting does. -/
def State.isleFs (s : State) (on : Bool) : State := (s.put R.WCH_STAT_FS124 (b2n on)).fsSet 124 on

/-- An output driven to a level: readback is judged anew from here. -/
def State.driveOut (s : State) (k : Nat) (on : Bool) : State :=
  let s := s.put (soBit k 0) (b2n on)
  s.upOut k fun o => { o with cmdAt := s.wt, miss := 0, offAt := none, broken := false, lowBy := none, highBy := none
                              testAt := if on then s.wt + (if o.broken then 1000 * msec else s.soInt k) else o.testAt }

/-- Whether a receive connection demands (R293). -/
def State.connDemands (s : State) (c : Nat) : Bool :=
  s.get (R.WCH_RX_STAT_KIND c) ≠ 0 &&
  ((s.isleConn c).last.isNone || s.is (R.WCH_RX_STAT_FAULT c) || s.is (R.WCH_RX_STAT_EXPIRED c) ||
   !bit (s.isleConn c).data0 (s.ps (rxOff c + 2) 1))
def State.showConn (s : State) (c : Nat) : State := s.put (R.WCH_RX_STAT_DEMAND c) (b2n (s.connDemands c))

/-- Whether an enabled pair permits, and demands (R278). -/
def State.pairPermits (s : State) (x : Nat) : Bool :=
  s.pairOn x && bits (s.get R.WCH_IN_FILT) (2 * x) 2 = 3 && !s.is (pairBit x 2)
def State.showPair (s : State) (x : Nat) : State := s.put (pairBit x 0) (b2n (s.pairPermits x))
def State.pairDemands (s : State) (x : Nat) : Bool := s.pairOn x && !s.pairPermits x

/-- Whether a source of SOk's MAP demands, or the output holds a fault (R281). -/
def State.soDemand (s : State) (k : Nat) : Bool :=
  let m := s.soMap k
  ((List.range 4).any fun x => bit m x && s.pairDemands x) ||
  ((List.range 8).any fun c => bit m (4 + c) && s.connDemands c) ||
  (bit m 12 && bit (s.get R.WCH_SREQ) k) || s.is (soBit k 2)

/-- A switch-off is decided for an output that is on: it goes low STOPLEAD later, or at once in a test pulse. A test's readback
result not yet complete is discarded (R284). -/
def State.decideOff (s : State) (k : Nat) : State :=
  let o := s.isleOut k
  if !s.is (soBit k 0) || o.offAt.isSome then s
  else
    let s := s.upOut k fun o => { o with lowBy := none, highBy := none }
    if o.pulse.isSome then
      let s := (s.upOut k fun o => { o with broken := true, cmdAt := s.wt, miss := 0 }).clr (soBit k 0)
      if s.soAuto k && s.isleState = isleRun then s else s.set1 (soBit k 3)
    else s.upOut k fun o => { o with offAt := some (s.wt + s.soLead k) }

/-- What an evaluation decides for every output, and FS124 (R281, R282). DEMAND sets where an output is newly demanded off. -/
def State.decideAll (s : State) : State :=
  let run := s.isleState = isleRun
  let s := (List.range 4).foldl (fun s k =>
    let d := !run || s.soDemand k
    let s := if d && !(s.isleOut k).dem then s.set1 R.WCH_INT_STAT_DEMAND else s
    let s := s.upOut k fun o => { o with dem := d }
    if d then s.decideOff k
    else if !s.is (soBit k 0) && !s.is (soBit k 3) then s.driveOut k true
    else s) s
  s.isleFs (!run || (List.range 4).any fun k => s.soDemand k || s.is (soBit k 3) || (s.isleOut k).offAt.isSome)

/-- The island changes its state. -/
def State.isleGo (s : State) (v : Nat) : State :=
  if s.isleState = v then s
  else ((s.put R.WCH_STAT_STATE v).set1 R.WCH_INT_STAT_STATE_CHG).isleLog 0

/-- RUN is left for SAFE_STOP or PARAM: every output goes low and leaves later under MANUAL rules. -/
def State.isleLeave (s : State) (v : Nat) : State :=
  let s := s.isleGo v
  let s := (List.range 4).foldl (fun s k => s.set1 (soBit k 3)) s
  s.decideAll

/-- SAFE_OUTPUT_OFF: STOPLEAD after the decision. -/
def State.outputOff (s : State) (k : Nat) : State :=
  match (s.isleOut k).offAt with
  | some x =>
    if x ≤ s.wt then
      let s := s.driveOut k false
      if s.soAuto k && s.isleState = isleRun && !s.is (soBit k 2) then s else s.set1 (soBit k 3)
    else s
  | none => s
def execSafeOutputOff (t k : Nat) (s : State) : Out := onUnit [.wch] (k < 4) t s fun s => s.outputOff k

/-- An internal fault (R270): every output low by hardware, WDO still, FS124, FAULT until PORST_N. -/
def State.isleFail (s : State) (b : Nat) : State :=
  let s := s.put R.WCH_FAULT (withBit (s.get R.WCH_FAULT) b true)
  let s := (List.range 4).foldl (fun s k => (s.driveOut k false).upOut k fun o => { o with pulse := none }) s
  let s := ((s.put R.WCH_SO_TESTING 0).clr R.WCH_STAT_WDO).upIsle fun i => { i with wdo := false, pulseA := none, pulseB := none }
  ((s.isleGo isleFault).isleFs true).hltReason 8
/-- A supply out of its limits shows in PWR_RAIL (R333, R352). -/
def execInternalFault (t b : Nat) (s : State) : Out :=
  laneUnit [.pwr, .ce, .pwm, .fmx, .lne, .twn, .wch, .ldg, .hlt] (b < 6) t s fun s =>
    let s := if b = 1 then s.andn R.PWR_RAIL 4 else s
    s.isleFail b

/-- An output fault (R283): the output stays low until PORST_N, a test pulse of it ends, and the health unit is told. The next
evaluation step finds it demanded off (R281). -/
def State.outFault (s : State) (k : Nat) : State :=
  if s.is (soBit k 2) then s
  else
    let s := (s.set1 (soBit k 2)).set1 R.WCH_INT_STAT_OUT_FAULT
    let s := if (s.isleOut k).pulse.isSome then s.upIsle fun i => { i with pulseEnd := s.wt } else s
    let s := (s.driveOut k false).upOut k fun o => { o with pulse := none }
    let s := s.put R.WCH_SO_TESTING (withBit (s.get R.WCH_SO_TESTING) k false)
    (s.isleLog k).hltReason 8

/-- What a test pulse awaits of a readback sample: one low by 150 µs from its start, one high by 150 µs from its end, judged
at the first sample at or after that (R284; DEDUCED, log entry 159). The second part says that it failed. -/
def IsleOut.testCheck (o : IsleOut) (now : Nat) (high : Bool) : IsleOut × Bool :=
  let late (d : Option Nat) : Bool := d.any (· ≤ now)
  if high then ({ o with highBy := none }, late o.lowBy) else ({ o with lowBy := none }, late o.highBy)

/-- READBACK_SAMPLE: from 150 µs after a commanded change each SOBk must equal the commanded level. -/
def State.readback (s : State) (sob : Nat) : State :=
  (List.range 4).foldl (fun s k =>
    let s := s.put (soBit k 1) (b2n (bit sob k))
    let (o, failed) := (s.isleOut k).testCheck s.wt (bit sob k)
    let s := s.upOut k fun _ => o
    let level := s.is (soBit k 0) && o.pulse.isNone
    if failed then s.outFault k
    else if s.wt < o.cmdAt + 150 * usec || s.is (soBit k 2) then s
    else if bit sob k = level then s.upOut k fun o => { o with miss := 0 }
    else if 1 ≤ o.miss then s.outFault k
    else s.upOut k fun o => { o with miss := 1 }) s
def execReadbackSample (t sob : Nat) (s : State) : Out := laneAct [.ce, .pwm, .fmx, .lne, .twn, .wch, .ldg, .hlt] t s fun s => s.readback sob

/-- OUTPUT_TEST_PULSE: due, the output on in RUN, and at least 2 ms after any other output's pulse. -/
def State.testPulse (s : State) (k : Nat) : State :=
  let o := s.isleOut k
  let other := s.isle.outs.any fun o => o.pulse.isSome
  if s.isleState ≠ isleRun || !s.is (soBit k 0) || o.offAt.isSome || other || s.wt < o.testAt || s.wt < s.isle.pulseEnd + 2 * msec
  then s
  else
    let s := s.upOut k fun o => { o with
      pulse := some (s.wt + s.soPulse k), cmdAt := s.wt, miss := 0, testAt := s.wt + s.soInt k
      lowBy := some (s.wt + 150 * usec), highBy := none }
    s.put R.WCH_SO_TESTING (withBit (s.get R.WCH_SO_TESTING) k true)
def execOutputTestPulse (t k : Nat) (s : State) : Out := onUnit [.wch] (k < 4) t s fun s => s.testPulse k

/-- OUTPUT_TEST_PULSE_END: high again unless a demand came in the pulse. -/
def State.testPulseEnd (s : State) (k : Nat) : State :=
  match (s.isleOut k).pulse with
  | some x =>
    if s.wt < x then s
    else
      let s := (s.upOut k fun o => { o with
        pulse := none, cmdAt := s.wt, miss := 0, highBy := if o.broken then none else some (s.wt + 150 * usec) }).upIsle fun i => { i with pulseEnd := s.wt }
      s.put R.WCH_SO_TESTING (withBit (s.get R.WCH_SO_TESTING) k false)
  | none => s
def execOutputTestPulseEnd (t k : Nat) (s : State) : Out := onUnit [.wch] (k < 4) t s fun s => s.testPulseEnd k

/-! ### Inputs (R276–R280) -/

/-- A pair fault; `cross` with the pair's CROSS bit. -/
def State.pairFault (s : State) (x : Nat) (cross : Bool) : State :=
  let s := if cross then s.set1 (pairBit x 3) else s
  let s := if s.is (pairBit x 2) then s
    else ((s.set1 (pairBit x 2)).set1 R.WCH_INT_STAT_PAIR_FAULT).isleLog x
  (s.upPair x fun p => { p with zero := false }).showPair x

/-- The pulse check of channel `i` at a sample 0.2, 0.3 or 0.4 ms into its supply's pulse. -/
def State.pulseCheck (s : State) (i : Nat) (high : Bool) : State :=
  let x := i / 2
  match (if i % 2 = 0 then s.isle.pulseA else s.isle.pulseB) with
  | some p =>
    if s.pairOn x && p + 200 * usec ≤ s.wt && s.wt ≤ p + 400 * usec && high then
      let s := s.upPair x fun p => if i % 2 = 0 then { p with okA := false } else { p with okB := false }
      s.pairFault x true
    else s
  | none => s

/-- The discrepancy of a pair follows its filtered channels. -/
def State.discTrack (s : State) (x : Nat) : State :=
  let differ := bits (s.get R.WCH_IN_FILT) (2 * x) 2 = 1 || bits (s.get R.WCH_IN_FILT) (2 * x) 2 = 2
  let p := s.islePair x
  if !s.pairOn x then s
  else if differ then
    if p.since.isNone then (s.upPair x fun p => { p with since := some s.wt, agreed := false, bad := false }).set1 (pairBit x 1)
    else if p.agreed then s.upPair x fun p => { p with since := some s.wt, agreed := false, bad := false, ovr := p.ovr + b2n !p.bad }
    else s
  else if p.since.isSome then s.upPair x fun p => { p with agreed := true }
  else s

/-- SIN_SAMPLE (R277). Without VDD_IO33 every input reads low (R379). -/
def State.sinSample (s : State) (level : Nat) : State :=
  let raw := if s.io33 then level else 0
  let was := s.get R.WCH_IN_RAW
  let since := (List.range 8).map fun c => if bit was c = bit raw c then s.isle.sinSince.getD c 0 else s.wt
  let s := s.upIsle fun i => { i with sinSince := since }
  let s := s.put R.WCH_IN_RAW raw
  let s := (List.range 8).foldl (fun s c =>
    let s := s.pulseCheck c (bit raw c)
    if s.isle.sinSince.getD c 0 + s.pairFilt (c / 2) ≤ s.wt && 0 < s.pairFilt (c / 2) then
      s.put R.WCH_IN_FILT (withBit (s.get R.WCH_IN_FILT) c (bit raw c))
    else s) s
  (List.range 4).foldl (fun s x => (s.discTrack x).showPair x) s
def execSinSample (t raw : Nat) (s : State) : Out := act [.wch, .ldg] t s fun s => s.sinSample raw

/-- INPUT_TEST_PULSE: due every TPP of the active set, TPB's TPP/2 after TPA's, a supply goes low for 0.5 ms, unless an
overcurrent holds it low. -/
def State.inputPulse (s : State) (b : Bool) : State :=
  let next := if b then s.isle.nextB else s.isle.nextA
  if s.isle.pset.isEmpty || s.wt < next then s
  else
    let tpp := msec * s.ps 0xC 2
    let next := next + ((s.wt - next) / tpp + 1) * tpp
    let s := s.upIsle fun i => if b then { i with nextB := next } else { i with nextA := next }
    if (if b then s.isle.lowB else s.isle.lowA) then s
    else
    let s := s.upIsle fun i => if b then { i with pulseB := some s.wt } else { i with pulseA := some s.wt }
    (List.range 4).foldl (fun s x => s.upPair x fun p => if b then { p with okB := true } else { p with okA := true }) s
def execInputTestPulse (t : Nat) (b : Bool) (s : State) : Out := act [.wch] t s fun s => s.inputPulse b

/-- TP_OVERCURRENT: an overcurrent appears on a supply (`on`), or the supply driven low no longer shows it. -/
def State.tpOver (s : State) (b on : Bool) : State :=
  let s := s.upIsle fun i => if b then { i with overB := on } else { i with overA := on }
  if !on then s
  else
    let s := (s.set1 (if b then R.WCH_FAULT_TPB_FAULT else R.WCH_FAULT_TPA_FAULT)).upIsle fun i =>
      if b then { i with lowB := true } else { i with lowA := true }
    (List.range 4).foldl (fun s x => if s.pairOn x then s.pairFault x false else s) s
def execTpOvercurrent (t : Nat) (b on : Bool) (s : State) : Out := act [.wch, .ldg] t s fun s => s.tpOver b on

/-! ### Evaluation steps (R279, R281, R286, R287) -/

/-- Discrepancy of pair `x` at an evaluation step. -/
def State.discJudge (s : State) (x : Nat) : State :=
  let p := s.islePair x
  match p.since with
  | some t0 => if !p.agreed && t0 + s.pairDisc x < s.wt && s.pairOn x then (s.upPair x fun p => { p with bad := true }).pairFault x false else s
  | none => s
def execDiscrepancyTimeout (t x : Nat) (s : State) : Out := onUnit [.wch, .ldg] (x < 4) t s fun s => s.discJudge x

/-- Tolerated discrepancies are counted at the step after the channels agree. -/
def State.discCount (s : State) (x : Nat) : State :=
  let p := s.islePair x
  let ended := p.since.isSome && p.agreed
  let n := p.ovr + b2n (ended && !p.bad)
  let s := if ended then (s.upPair x fun p => { p with since := none, agreed := false }).clr (pairBit x 1) else s
  let s := s.upPair x fun p => { p with ovr := 0 }
  if n = 0 then s else (s.bump R.WCH_PAIR_ACCEPTED n).set1 R.WCH_INT_STAT_DISC_OK

/-- SRST at a step: the press length, and the low run of a release; a release of a stuck press clears STUCK. -/
def State.srstStep (s : State) (high : Bool) : State :=
  let i := s.isle
  if high then
    let n := if i.press = 0 then 1 else i.press + i.lows + 1
    (s.upIsle fun i => { i with press := n, lows := 0 }).set1 R.WCH_SRST_PRESSED
  else if i.press = 0 then s
  else
    let s := s.upIsle fun i => { i with lows := i.lows + 1 }
    if s.isle.lows = 10 && s.is R.WCH_SRST_STUCK then
      ((s.upIsle fun i => { i with press := 0, lows := 0 }).clr R.WCH_SRST_STUCK).clr R.WCH_SRST_PRESSED
    else s

/-- EVALUATION_STEP. -/
def State.evalStep (s : State) (srst : Bool) : State :=
  let s := (List.range 4).foldl (fun s x => (s.discJudge x).discCount x) s
  let s := (List.range 4).foldl (fun s x =>
    let s := if bits (s.get R.WCH_IN_FILT) (2 * x) 2 = 0 then s.upPair x fun p => { p with zero := true } else s
    s.showPair x) s
  let s := (List.range 8).foldl (fun s c => s.showConn c) s
  let s := s.srstStep srst
  if s.isleState = isleFault || s.isleState = isleStart && !s.isle.tested then s
  else
    let s := (s.upIsle fun i => { i with wdo := !i.wdo }).set1 R.WCH_STAT_WDO
    if s.isleState = isleStart then s else s.decideAll
def execEvaluationStep (t : Nat) (srst : Bool) (s : State) : Out := laneAct [.ce, .pwm, .fmx, .lne, .twn, .wch, .ldg] t s fun s => s.evalStep srst

/-- Whether the checks of a supply's last pulse, begun at `p`, are over. -/
def State.pulseOver (s : State) (p : Option Nat) : Bool := p.all (· + 400 * usec ≤ s.wt)

/-- Whether a pair's fault clears at an accepted reset (R280). -/
def State.pairClears (s : State) (x : Nat) : Bool :=
  let p := s.islePair x
  p.zero && bits (s.get R.WCH_IN_FILT) (2 * x) 2 = 3 &&
  (!s.is (pairBit x 3) || p.okA && p.okB && s.pulseOver s.isle.pulseA && s.pulseOver s.isle.pulseB)

/-- What an accepted reset does (R280, R281, R282, R287, R293). -/
def State.resetDo (s : State) : State :=
  let ok := (List.range 4).all fun x => !s.pairOn x || s.pairClears x
  let s := (List.range 4).foldl (fun s x =>
    if s.is (pairBit x 2) && s.pairClears x then ((s.clr (pairBit x 2)).clr (pairBit x 3)).showPair x else s) s
  -- a supply without overcurrent is driven again
  let s := s.upIsle fun i => { i with lowA := i.lowA && i.overA, lowB := i.lowB && i.overB }
  let s := if !s.isle.overA && ok then s.clr R.WCH_FAULT_TPA_FAULT else s
  let s := if !s.isle.overB && ok then s.clr R.WCH_FAULT_TPB_FAULT else s
  let s := (List.range 8).foldl (fun s c =>
    (if s.is (R.WCH_RX_STAT_FAULT c) && (s.isleConn c).since then s.clr (R.WCH_RX_STAT_FAULT c) else s).showConn c) s
  let s := s.clr R.WCH_SREQ
  let stable := decide (s.isle.sealAt + 20 * msec ≤ s.wt ∧ s.isle.sealNew + 20 * msec ≤ s.wt)
  let s := if s.isleState = isleStop && stable && !s.is R.WCH_FAULT_SEAL_ERR && !s.isle.pset.isEmpty then s.isleGo isleRun else s
  if s.isleState ≠ isleRun then s.decideAll
  else
    let s := (List.range 4).foldl (fun s k =>
      if s.is (soBit k 3) && !s.soDemand k && (s.isleOut k).offAt.isNone then (s.clr (soBit k 3)).driveOut k true else s) s
    s.decideAll

/-- RESET_ACCEPT: at the tenth low step the press is judged by its length. -/
def State.resetAccept (s : State) : State :=
  let i := s.isle
  if i.press = 0 || i.lows < 10 || s.is R.WCH_SRST_STUCK then s
  else
    let s := (s.upIsle fun i => { i with press := 0, lows := 0 }).clr R.WCH_SRST_PRESSED
    if 100 ≤ i.press && i.press ≤ 3000 && s.isleState ≠ isleParam && s.isleState ≠ isleFault then
      ((((s.bumpWrap R.WCH_SRST_ACCEPTED).set1 R.WCH_INT_STAT_SRST_ACC).isleLog 0)).resetDo
    else ((s.bump R.WCH_SRST_REJECTED).set1 R.WCH_INT_STAT_SRST_REJ).isleLog 0
def execResetAccept (t : Nat) (s : State) : Out := laneAct [.ce, .pwm, .fmx, .lne, .twn, .wch, .ldg] t s State.resetAccept

/-- SRST_STUCK: the press reaches 3 001 steps. -/
def State.srstStuck (s : State) : State :=
  if s.isle.press < 3001 || s.is R.WCH_SRST_STUCK then s
  else (((s.set1 R.WCH_SRST_STUCK).bump R.WCH_SRST_REJECTED).set1 R.WCH_INT_STAT_SRST_REJ).isleLog 0
def execSrstStuck (t : Nat) (s : State) : Out := act [.wch, .ldg] t s State.srstStuck

/-- SAFETY_STOP_REQUEST: bits set in WCH_SREQ. -/
def execSafetyStopRequest (t mask : Nat) (s : State) : Out := act [.wch] t s fun s => s.orr R.WCH_SREQ (mask % 16)

/-! ### Seal, start and faults (R269–R272) -/

/-- The stable seal has changed (R271, R272). PCHG leads to PARAM from SAFE_STOP too, since a stable PCHG of 1 happens
only in PARAM (DEDUCED, log entry 35). -/
def State.sealChange (s : State) (was v : Nat) : State :=
  let s := (s.put R.WCH_STAT_SEAL v).put R.WCH_FAULT_SEAL_ERR (b2n (v / 8 ≠ 0))
  let dst := if bit v 2 then isleParam else isleStop
  if s.isleState = isleRun then
    if v % 8 ≠ was % 8 || v / 8 ≠ 0 then s.isleLeave dst else s
  else if s.isleState = isleStop then
    -- the count that a reset needs begins again
    let s := if v % 8 ≠ was % 8 then s.upIsle fun i => { i with sealNew := s.wt } else s
    if bit v 2 then s.isleGo isleParam else s
  else if s.isleState = isleParam && !bit v 2 then (s.isleGo isleStop).loadSet
  else s

/-- START ends when its self-test has passed and the seal is stable: the selected set is loaded, and SRST high counts as
stuck (R271, R287). -/
def State.startLeave (s : State) : State :=
  if s.isleState ≠ isleStart || !s.isle.tested || s.wt < s.isle.sealAt + 20 * msec then s
  else
    let v := s.isle.sealRaw
    let s := ((s.put R.WCH_STAT_SEAL v).put R.WCH_FAULT_SEAL_ERR (b2n (v / 8 ≠ 0))).loadSet
    let s := if s.isle.press ≠ 0 && s.isle.lows = 0 then s.set1 R.WCH_SRST_STUCK else s
    let s := (List.range 4).foldl (fun s k => s.set1 (soBit k 3)) s
    (s.isleGo (if bit v 2 then isleParam else isleStop)).isleFs true

/-- SEAL_SAMPLE. -/
def State.sealSample (s : State) (v : Nat) : State :=
  let s := if s.isle.sealRaw = v then s else s.upIsle fun i => { i with sealRaw := v, sealAt := s.wt }
  let was := s.get R.WCH_STAT_SEAL
  if s.wt < s.isle.sealAt + 20 * msec then s
  else if s.isleState = isleStart then ((s.put R.WCH_STAT_SEAL v).put R.WCH_FAULT_SEAL_ERR (b2n (v / 8 ≠ 0))).startLeave
  else if was = v then s
  else s.sealChange was v
def execSealSample (t v : Nat) (s : State) : Out := laneAct [.ce, .pwm, .fmx, .lne, .twn, .wch, .ldg] t s fun s => s.sealSample (v % 256)

/-- ISLAND_START_END: the self-test is over, with a valid image (`image`, of version `ver`) or without one (R270, R271); WDO
toggles from here (R286). -/
def State.isleStarted (s : State) (image : Bool) (ver : Nat) (srst : Bool) : State :=
  if s.isleState ≠ isleStart || s.isle.tested then s
  else if !image then s.isleFail 5
  else
    let s := ((s.put R.WCH_ID_FWVER ver).set1 R.WCH_STAT_WDO).upIsle fun i => { i with tested := true }
    (if srst then (s.upIsle fun i => { i with press := max 1 i.press, lows := 0 }).set1 R.WCH_SRST_PRESSED
      else s.upIsle fun i => { i with press := 0, lows := 0 }).startLeave
def execIslandStartEnd (t : Nat) (image : Bool) (ver : Nat) (srst : Bool) (s : State) : Out :=
  laneAct [.ce, .pwm, .fmx, .lne, .twn, .wch, .ldg, .hlt] t s fun s => s.isleStarted image ver srst

/-- The island's registers: its own state, which its reset returns to START. -/
def isleRegs : List Nat :=
  [R.WCH_ID.addr, R.WCH_STAT.addr, R.WCH_IN.addr, R.WCH_PAIR.addr, R.WCH_SO.addr, R.WCH_SREQ.addr, R.WCH_SRST.addr,
   R.WCH_FAULT.addr, R.WCH_PSCMD.addr, R.WCH_PSSTAT.addr, R.WCH_PSCRC.addr, R.WCH_PSACT.addr] ++
  (List.range 8).flatMap (fun c => (List.range 4).map fun k => (R.WCH_RX_STAT c).addr + 4 * k) ++
  (List.range 8).flatMap (fun c => [(R.WCH_TX_STAT c).addr, (R.WCH_TX_CNT c).addr]) ++
  (List.range 256).map fun w => (R.WCH_PSWIN w).addr

/-- The island is reset into START: PORST_N, or its own supply monitor. -/
def State.isleReset (s : State) : State :=
  let s := isleRegs.foldl (fun s a => s.setWord a (resetWord a).toNat) s
  (s.upIsle fun i => { sealRaw := i.sealRaw, sealAt := s.wt, off := i.off }).isleFs true

/-- VDD_W_RETURN: a change of state like any other (R270). -/
def State.vddReturn (s : State) : State :=
  let s := if s.isleState = isleStart then s else (s.isleLog 0).set1 R.WCH_INT_STAT_STATE_CHG
  s.isleReset.orr R.PWR_RAIL 4
def execVddWReturn (t : Nat) (s : State) : Out := laneAct [.pwr, .ce, .pwm, .fmx, .lne, .twn, .wch, .ldg] t s State.vddReturn

/-! ### Parameter-set operations (R275) -/

/-- CHECK is written to WCH_PSCMD under the seal; one operation at a time. -/
def State.psStart (s : State) (op : Nat) : State := ((s.put R.WCH_PSCMD op).set1 R.WCH_PSSTAT_BUSY).clr R.WCH_PSSTAT_RESULT
def State.psRefuse (s : State) (code : Nat) : State := (s.put R.WCH_PSSTAT_RESULT code).set1 R.WCH_INT_STAT_PS_ERR
def State.psCheckCmd (s : State) : State := if !s.sealOn || s.is R.WCH_PSSTAT_BUSY then s else s.psStart 1
def execCheck (t : Nat) (s : State) : Out := act [.wch] t s State.psCheckCmd

/-- The staged set. -/
def State.psWindow (s : State) : List Byte := (List.range 256).flatMap fun w => leBytes 4 (s.get (R.WCH_PSWIN w))

/-- STORE: refused when a window word was written since the last good CHECK, or when the confirming CRC differs. -/
def State.psStoreCmd (s : State) : State :=
  if !s.sealOn || s.is R.WCH_PSSTAT_BUSY then s
  else if !s.isle.checked then s.psRefuse 7
  else if s.get R.WCH_PSCRC ≠ s.get (R.WCH_PSWIN 255) then s.psRefuse 5
  else s.psStart 2
def execStore (t : Nat) (s : State) : Out := act [.wch] t s State.psStoreCmd

/-- PS_OPERATION_END: the check's result, or the written set read back (`writeOk`). -/
def State.psEnd (s : State) (writeOk : Bool) : State :=
  let op := s.get R.WCH_PSCMD
  if !s.is R.WCH_PSSTAT_BUSY then s
  else
    let s := (s.clr R.WCH_PSCMD).clr R.WCH_PSSTAT_BUSY
    let p := s.psWindow
    if op = 1 then
      let (r, off) := psCheck p
      let s := (s.put R.WCH_PSSTAT_RESULT r).put R.WCH_PSSTAT_ERROFF off
      let s := s.upIsle fun i => { i with checked := r = 1 }
      s.set1 (if r = 1 then R.WCH_INT_STAT_PS_DONE else R.WCH_INT_STAT_PS_ERR)
    else if writeOk then
      ((s.writeBytes (psetAddr (leAt p 6 2 % 4)) p).put R.WCH_PSSTAT_RESULT 1).set1 R.WCH_INT_STAT_PS_DONE
    else
      let k := s.drawn
      let s := { s with drawn := k + 1 }
      (s.writeBytes (psetAddr (leAt p 6 2 % 4)) ((List.range 1024).map fun i => Config.freeByte k i)).psRefuse 6
def execPsOperationEnd (t : Nat) (writeOk : Bool) (s : State) : Out := act [.wch, .mem] t s fun s => s.psEnd writeOk

/-! ### Safety messages (R288–R293) -/

/-- CRC-32C (R289) and the CRC-24 of R291. -/
def crc32c (bs : List Byte) : Nat := crcR 0x82F63B78 0xFFFFFFFF 0xFFFFFFFF bs
def crc24 (bs : List Byte) : Nat := crcM 24 0x5D6DCB 0xFEDCBA 0 bs

/-- The receive connection a frame names: its KIND, its CONN_ID, and SA where the set gives one. -/
def State.connFor (s : State) (kind id sa : Nat) : Option Nat :=
  match (List.range 8).find? fun c => s.get (R.WCH_RX_STAT_KIND c) = kind && s.ps (rxOff c + 4) 4 = id with
  | some c =>
    let want := ofBe (slice s.isle.pset (rxOff c + 12) 6)
    if want = 0 || want = sa then some c else none
  | none => none

/-- A message is accepted (R290, R292, R293). -/
def State.connAccept (s : State) (c seq : Nat) (data : List Byte) : State :=
  let s := (s.put (R.WCH_RX_STAT_SEQ c) seq).put (R.WCH_RX_DATA c) (leAt data 0 4)
  let s := (s.bumpWrap (R.WCH_RX_CNT0_ACCEPTED c)).clr (R.WCH_RX_STAT_EXPIRED c)
  (s.upConn c fun x => { x with
    last := some s.wt, acc := seq :: x.acc.filter fun a => (seq + 65536 - a) % 65536 ≤ 32768 && a ≠ seq
    data0 := leAt data 0 1, since := true }).showConn c

/-- A connection fault. -/
def State.connFault (s : State) (c : Nat) : State :=
  let s := (s.set1 (R.WCH_RX_STAT_FAULT c)).set1 R.WCH_INT_STAT_CONN_FAULT
  ((s.upConn c fun x => { x with since := false }).showConn c).isleLog c

/-- The pending copy is accepted alone. -/
def State.connSingle (s : State) (c : Nat) : State :=
  match (s.isleConn c).pend with
  | some (q, _, body, _) =>
    let s := s.upConn c fun x => { x with pend := none }
    ((s.connAccept c q ((body.drop 8).take 16)).bump (R.WCH_RX_CNT0_SINGLE c)).set1 R.WCH_INT_STAT_SINGLE
  | none => s

/-- SAFETY_COPY_TIMEOUT: 2 ms pass with no second copy. -/
def State.copyTimeout (s : State) (c : Nat) : State :=
  match (s.isleConn c).pend with
  | some (_, _, _, at_) => if at_ + 2 * msec ≤ s.wt then s.connSingle c else s
  | none => s
def execSafetyCopyTimeout (t c : Nat) (s : State) : Out := onUnit [.wch] (c < 8) t s fun s => s.copyTimeout c

/-- A CRC-good native copy, from LAN `lan` (R290). -/
def State.nativeCopy (s : State) (c lan : Nat) (body : List Byte) : State :=
  let s := s.copyTimeout c
  let x := s.isleConn c
  let q := beAt body 6 2
  let body := body.take 28
  let d := (q + 65536 - s.get (R.WCH_RX_STAT_SEQ c)) % 65536
  let newer := x.last.isNone || 1 ≤ d && d ≤ 32767
  let hold (s : State) : State := s.upConn c fun x => { x with pend := some (q, lan, body, s.wt) }
  let old := if x.acc.contains q then s.bump (R.WCH_RX_CNT1_LATE c) else s.bump (R.WCH_RX_CNT1_SEQERR c)
  match x.pend with
  | none => if newer then hold s else old
  | some (pq, pl, pb, _) =>
    if q = pq then
      if pl = lan then s.bump (R.WCH_RX_CNT1_LATE c)
      else
        let s := s.upConn c fun x => { x with pend := none }
        if pb = body then s.connAccept c q ((body.drop 8).take 16)
        else (s.bump (R.WCH_RX_CNT1_UNEQUAL c)).connFault c
    else if newer then hold (s.connSingle c)
    else old

/-- A native frame at the island (R288, R290). -/
def State.nativeFrame (s : State) (f : SafetyIn) : State :=
  let drop := s.bump R.WCH_STAT_DISCARD
  let body := f.body
  if body.length < 28 || beAt body 0 1 ≠ 1 || beAt body 1 1 ≠ 1 then drop
  else match s.connFor 1 (beAt body 2 4) f.sa with
    | none => drop
    | some c =>
      if crc32c (body.take 24) ≠ beAt body 24 4 then s.bump (R.WCH_RX_CNT1_CRCERR c) else s.nativeCopy c (f.port / 2) body

/-- A NAY2400 frame at the island (R288, R292). -/
def State.nayFrame (s : State) (f : SafetyIn) : State :=
  let drop := s.bump R.WCH_STAT_DISCARD
  let body := f.body
  if body.length < 19 then drop
  else match s.connFor 2 (beAt body 0 4) f.sa with
    | none => drop
    | some c =>
      let q := beAt body 4 2
      let d := (q + 65536 - s.get (R.WCH_RX_STAT_SEQ c)) % 65536
      if f.port / 2 ≠ s.ps (rxOff c + 1) 1 then s.bump (R.WCH_RX_CNT1_SEQERR c)
      else if crc24 (body.take 16) ≠ beAt body 16 3 then s.bump (R.WCH_RX_CNT1_CRCERR c)
      else if beAt body 6 2 ≠ s.ps (rxOff c + 8) 2 then s.connFault c
      else if (s.isleConn c).last.isNone || 1 ≤ d && d ≤ 8 then s.connAccept c q ((body.drop 8).take 8)
      else if d = 0 then s.bump (R.WCH_RX_CNT1_LATE c) else s.bump (R.WCH_RX_CNT1_SEQERR c)

/-- The oldest frame of the island's queue, where it is of the row's kind. -/
def State.safetyFrame (s : State) (native : Bool) : State :=
  match s.isle.queue with
  | [] => s
  | f :: rest =>
    if f.native ≠ native then s
    else
      let s := s.upIsle fun i => { i with queue := rest }
      if native then s.nativeFrame f else s.nayFrame f

/-- NATIVE_SAFETY_FRAME and NAY2400_SAFETY_FRAME. -/
def execNativeSafetyFrame (t : Nat) (s : State) : Out := act [.wch, .ldg] t s (·.safetyFrame true)
def execNay2400SafetyFrame (t : Nat) (s : State) : Out := act [.wch, .ldg] t s (·.safetyFrame false)

/-- CONNECTION_WATCHDOG_EXPIRY: WDT after the last acceptance. -/
def State.connExpiry (s : State) (c : Nat) : State :=
  match (s.isleConn c).last with
  | some x =>
    if x + msec * s.ps (rxOff c + 8) 2 ≤ s.wt && s.get (R.WCH_RX_STAT_KIND c) ≠ 0 then
      let s := (s.set1 (R.WCH_RX_STAT_EXPIRED c)).set1 R.WCH_INT_STAT_WDT_EXP
      (s.upConn c fun x => { x with last := none, acc := [] }).showConn c
    else s
  | none => s
def execConnectionWatchdogExpiry (t c : Nat) (s : State) : Out := onUnit [.wch] (c < 8) t s fun s => s.connExpiry c

/-- The data the island sends: pair permits and commanded states, RUN and the active set. -/
def State.txData (s : State) : List Byte :=
  let p := (List.range 4).foldl (fun m x => m + (if s.is (pairBit x 0) then 2 ^ x else 0)) 0
  let o := (List.range 4).foldl (fun m k => m + (if s.is (soBit k 0) then 2 ^ k else 0)) 0
  leBytes 1 (p + 16 * o) ++ leBytes 1 (b2n (s.isleState = isleRun) + 2 * s.get R.WCH_ID_SET)

/-- SAFETY_FRAME_SEND: every CYCLE, or at a step after the data changed (R289, R291). -/
def State.safetySend (s : State) (c : Nat) : State :=
  let kind := s.get (R.WCH_TX_STAT_KIND c)
  let d := s.txData
  let (due, old) := s.isle.txs.getD c (0, [])
  if kind = 0 || s.wt < due && old = d then s
  else
    let o := txOff c
    let q := s.get (R.WCH_TX_STAT_SEQ c)
    let head := slice s.isle.pset (o + 12) 6 ++ beBytes 6 s.devMac ++ beBytes 2 0x8100 ++ beBytes 2 (s.ps (o + 18) 2)
    let f := if kind = 1 then
        let b := [1, 1] ++ beBytes 4 (s.ps (o + 4) 4) ++ beBytes 2 q ++ d ++ List.replicate 14 0
        head ++ beBytes 2 0x88B7 ++ b ++ beBytes 4 (crc32c b)
      else
        let b := beBytes 4 (s.ps (o + 4) 4) ++ beBytes 2 q ++ beBytes 2 (s.ps (o + 10) 2) ++ d ++ List.replicate 6 0
        head ++ beBytes 2 0x88B6 ++ b ++ beBytes 3 (crc24 b)
    let ports := if kind = 1 then [0, 1, 2, 3] else [2 * s.ps (o + 1) 1, 2 * s.ps (o + 1) 1 + 1]
    -- a copy without room is dropped, as in R212
    let room (s : State) (p : Nat) : Bool := !s.linked p || (padFrame f).length + 4 ≤ s.txRoom p
    let s := ports.foldl (fun s p =>
      if s.portOn p && room s p then s.enqueue p { bytes := padFrame f, cls := s.frameClass f } else s) s
    let s := (s.put (R.WCH_TX_STAT_SEQ c) ((q + 1) % 65536)).bumpWrap (R.WCH_TX_CNT c)
    s.upIsle fun i => { i with txs := i.txs.set c (s.wt + msec * s.ps (o + 8) 2, d) }
def execSafetyFrameSend (t c : Nat) (s : State) : Out := onUnit [.net, .wch] (c < 8) t s fun s => s.safetySend c

end Sys2Proof.Machine
end

