-- ==== Sys2Proof/Machine/RegCore.lean ====
section
/-!
DEFINITION. The register space (R7–R12, R25): what a word reads as, which fields of it a write changes, and what a change
of a field sets off. Command registers are in RegWrite.
-/

namespace Sys2Proof.Machine

/-! ### Which unit an address belongs to -/

/-- The unit of an array of `n` units of `stride` bytes from `base` that an address lies in. -/
def unitIn (addr base n stride : Nat) : Option Nat :=
  if base ≤ addr && addr < base + n * stride then some ((addr - base) / stride) else none

/-- The resource of R21 that a register or a mailbox address belongs to. -/
def resourceOf (addr : Nat) : Option (ResKind × Nat) :=
  let u (base n stride : Nat) (k : ResKind) : Option (ResKind × Nat) := (unitIn addr base n stride).map fun i => (k, i)
  match addr / 0x10000 with
  | 0x400D => (u 0x400D0100 8 0x80 .group) <|> (u 0x400D0800 48 0x20 .channel) <|> u 0x400D0E00 12 4 .lane
  | 0x400E => u 0x400E0100 8 0x80 .group
  | 0x400F => u 0x400F0100 12 0x100 .lane
  | 0x4009 => (u 0x40090400 64 0x10 .window) <|> u 0x40090800 32 0x10 .fastWindow
  | 0x400C => u 0x400C0100 4 0x80 .tracker
  | 0x4008 => (unitIn (addr % 0x4000) 0x80 4 0x10).map fun i => (.snap, 4 * (addr % 0x10000 / 0x4000) + i)
  | 0x4010 => (u 0x40100800 16 0x10 .rxf) <|> u 0x40100A00 16 0x20 .txs
  | _ => u 0x70000000 16384 128 .mailbox

/-- An engine's register unit; its addresses reach CE7 after a move (R99). -/
def State.regAt (s : State) (addr : Nat) : Nat :=
  match unitIn addr 0x400A0000 8 0x2000 with
  | some n => if addr % 0x2000 < 0x100 && s.phys n ≠ n then 0x400AE000 + addr % 0x2000 else addr
  | none => addr

/-- The sheet whose quiesce the RWQ fields at an address wait for; none where the field takes writes at any time: a unit of
R21 that no loaded engine sheet names (R9). -/
def State.sheetFor (s : State) (addr : Nat) : Option Nat :=
  match unitIn addr 0x400A0000 8 0x2000 with
  | some n => some (n + 1)
  | none => match resourceOf addr with
    | some (k, i) => s.ownerOf k i
    | none => match addr / 0x10000 with
      | 0x400E => some 0
      | 0x4010 => some 9
      | 0x4011 => some 9
      | 0x4014 => some 11
      | 0x4015 => some 11
      | _ => none

/-- Whether a write takes effect on the fields of an access code (R7, R9). `mld` marks the loader's own writes. -/
def State.fieldTakes (s : State) (addr : Nat) (mld : Bool) : Acc → Bool
  | .rw => true
  | .rwq => mld || (match s.sheetFor addr with | some n => s.sheetQuiesced n | none => true)
  | .rws => s.sealOn
  | _ => false

/-- The bits of a register's word that belong to fields of some access codes. -/
def RegHit.mask (h : RegHit) (p : Acc → Bool) : Nat :=
  h.desc.fields.foldl (fun m f =>
    if p f.acc then m ||| bits ((2 ^ f.width - 1) <<< f.lsb) (32 * h.word) 32 else m) 0

/-! ### Reads -/

/-- Table 22-1: ID, major version (every minor is 0), BASE, COUNT. -/
def capTable : List (Nat × Nat × Nat × Nat) := [
  (0x01, 1, 0x40000000, 1), (0x02, 1, 0x40010100, 5), (0x03, 1, 0x40020000, 1), (0x04, 2, 0x40030040, 4),
  (0x05, 1, 0x40040100, 96), (0x06, 1, 0x40050000, 1), (0x07, 1, 0x40061000, 32), (0x08, 1, 0x40080000, 4),
  (0x09, 1, 0x40090000, 32), (0x0A, 1, 0x400A0000, 8), (0x0C, 1, 0x400C0100, 4), (0x0D, 1, 0x400D0100, 8),
  (0x0E, 1, 0x400E0000, 128), (0x0F, 1, 0x400F0100, 12), (0x10, 1, 0x40100100, 5), (0x11, 1, 0x40110100, 2),
  (0x12, 1, 0x40120000, 1), (0x13, 1, 0x40130000, 1), (0x14, 1, 0x40140040, 4), (0x15, 1, 0x40150000, 1),
  (0x16, 1, 0x40160400, 256), (0x17, 1, 0x40170100, 24), (0x40, 1, 0, 1), (0x41, 1, 0x60000000, 8),
  (0x42, 1, 0x70000000, 16), (0x43, 1, 0x80000000, 96), (0x44, 1, 0x90000000, 1), (0x80, 1, 0, 4),
  (0x81, 1, 0, 32), (0x82, 1, 0, 12), (0x83, 1, 0, 2)]

/-- Word `w` of the capability list (R42, R406). -/
def capWord (w : Nat) : Nat :=
  match capTable[w / 4]? with
  | some (id, maj, base, cnt) =>
    match w % 4 with
    | 0 => id + maj * 0x1000000
    | 1 => if w / 4 = 30 then 0 else 16 * (w / 4 + 1)
    | 2 => base
    | _ => cnt
  | none => 0

/-- What a peek of engine `n` returns (R77). -/
def State.peek (s : State) (n : Nat) : Nat :=
  let r := s.get (R.CE_PEEK_ADDR_REF n)
  if s.is (R.CE_PEEK_ADDR_STATE n) then (if r < 10240 then s.stRaw n r else 0)
  else if refIndex r < spaceSize (refSpace r) then s.refRaw n r else 0

/-- PIN_STATUS (R382): REPLACE, ACTIVE, FAULT, WDO. -/
def State.pinStatus (s : State) : Nat :=
  let ready := s.is R.PWR_STAT_READY
  let active := ready && (s.twState = 0 || 3 ≤ s.twState)
  let bad (g : Nat) : Bool := bit (s.get R.PIN_STATUS_CFG_FMASK) g &&
    (s.get (R.FMX_PG_STAT_ACTION g) ≠ 0 || s.is (R.FMX_PG_STAT_BLOCK g) && s.is R.PIN_STATUS_CFG_BLKEN)
  let fault := !ready || (List.range 8).any bad
  b2n (s.get R.HLT_REPLACE_REASONS ≠ 0) + 2 * b2n active + 4 * b2n fault + 8 * b2n s.isle.wdo

/-! ### Core interrupts (R410) -/

/-- Core `k`'s machine external interrupt: a source is eligible for it, with what the pulse groups did up to now. -/
def State.irqLine (s : State) (k : Nat) : Bool := s.upToDate.irqBest k ≠ 0

/-- IRQ_CLAIM: a read of IRQ_Ck_CLAIM. -/
def State.irqClaim (s : State) (k : Nat) : State := s.irqTake k (s.upToDate.irqBest k)
def execIrqClaim (t k : Nat) (s : State) : Out := onUnit [.irq, .bus] (k < 4) t s fun s => s.irqClaim k

/-! ### Pin levels (Table 20-8, R379, R381, R382) -/

/-- The outputs of Table 20-8 whose level follows from the state. -/
inductive OutPin where
  | so (k : Nat) | tpa | tpb | wdo | replaceN | active | faultN | angA | angB | angZ
  | gpio (n : Nat) | lnTx (l : Nat) | xspiClk | xspiCsN | xspiRstN | xspiDq | uartTx | tdo
  deriving DecidableEq, Repr

/-- What a pin does: it drives a level, it is not driven, or it carries bits one after the other. -/
inductive PinLevel where
  | low | high | off | bits
  deriving DecidableEq, Repr

def pinDrives (b : Bool) : PinLevel := if b then .high else .low

/-- Table 20-8's "during reset": main power absent, or PORST_N low; also with TESTMODE high (R383). -/
def State.pinsReset (s : State) : Bool := !s.is R.PWR_STAT_MPG || s.pwr.porst || s.pwr.testMode

/-- A test-pulse supply is low in its pulse of 0.5 ms, or while an overcurrent holds it (R277). -/
def State.supplyHigh (s : State) (pulse : Option Nat) (held : Bool) : Bool :=
  !held && !(pulse.any fun p => decide (s.wt < p + 500 * usec))

/-- The boot ROM reads the flash in step 5 (R343, R381). -/
def State.flashReads (s : State) : Bool :=
  match s.pwr.start with
  | some r => r.cold && s.get R.PWR_STAT_BOOTSRC = 2 && s.get R.PWR_STAT_STEP = 5
  | none => false

/-- What an output does now. -/
def State.pinLevel (s : State) (p : OutPin) : PinLevel :=
  let rst := s.pinsReset
  match p with
  | .so k => pinDrives (!rst && s.io33 && bit (s.get R.WCH_SO) (4 * k) && (s.isle.outs.getD k {}).pulse.isNone)
  | .tpa => pinDrives (!rst && s.io33 && s.supplyHigh s.isle.pulseA s.isle.lowA)
  | .tpb => pinDrives (!rst && s.io33 && s.supplyHigh s.isle.pulseB s.isle.lowB)
  | .wdo => pinDrives (!rst && s.io33 && s.isle.wdo)
  | .replaceN => if !rst && bit s.pinStatus 0 then .low else .off
  | .active => pinDrives (!rst && bit s.pinStatus 1)
  | .faultN => pinDrives (!rst && !bit s.pinStatus 2)
  | .angA => pinDrives (!rst && s.quadPins.1)
  | .angB => pinDrives (!rst && s.quadPins.2.1)
  | .angZ => pinDrives (!rst && s.quadPins.2.2)
  | .gpio n => if !rst && bit (s.get R.PIN_GPIO_OE) n then pinDrives (bit (s.get R.PIN_GPIO_OUT) n) else .off
  | .lnTx l => if !rst && s.laneClock && s.is (R.LNE_LN_CTL_EN l) then .bits else .off
  | .xspiClk => if !rst && s.flashReads then .bits else .low
  | .xspiCsN => if !rst && s.flashReads then .bits else .high
  | .xspiRstN => .high
  | .xspiDq => if !rst && s.flashReads then .bits else .off
  | .uartTx => if rst then .off else if s.pins.tx.isEmpty then .high else .bits
  | .tdo => if s.tapData.isSome then .bits else .off

/-- A word of a register as it reads (R7, R8), apart from what a read sets off. -/
def State.readWord (s : State) (at_ : Nat) : Nat :=
  let addr := s.regAt at_
  if 0x40000000 ≤ addr && addr < 0x400001F0 then capWord ((addr - 0x40000000) / 4)
  else if addr = R.PWM_TB.addr then s.tbShown % 2 ^ 32
  else if addr = R.PWM_TB.addr + 4 then s.tbShown / 2 ^ 32
  else if addr = R.PWR_OPSEC.addr then s.opsec % 2 ^ 32
  else if addr = R.PWR_OPSEC.addr + 4 then s.opsec / 2 ^ 32
  else if addr = R.MLD_QSTAT.addr then s.qstatNow + 65536 * s.get R.MLD_QSTAT_CARRIED
  else if addr = R.PWM_HOLD0.addr || addr = R.PWM_HOLD1.addr then
    let w := (addr - R.PWM_HOLD0.addr) / 4
    (List.range 32).foldl (fun m b => m + (if 32 * w + b < 48 && s.chanHeld (32 * w + b) then 2 ^ b else 0)) 0
  else if addr = R.LNE_INT_SUM.addr then
    (List.range 12).foldl (fun m l => m + (if s.get (R.LNE_LN_INT_STAT l) &&& s.get (R.LNE_LN_INT_EN l) ≠ 0 then 2 ^ l else 0)) 0
  else if addr = R.PIN_GPIO_OUT_SET.addr || addr = R.PIN_GPIO_OUT_CLR.addr then s.get R.PIN_GPIO_OUT
  else if addr = R.PIN_STATUS.addr then s.pinStatus
  else if 0x40100120 ≤ addr && addr < 0x40100260 && addr % 64 = 0x20 then
    let p := (addr - 0x40100120) / 64
    65536 * s.get (R.NET_P_BUF_TXOCC p) + (rxSize (s.rxHeld p) + 63) / 64
  else if addr = R.PHT_OUT_STAT.addr then s.get R.PHT_OUT_STAT_CFGERR + 2 * b2n s.quadLags
  else match findUnit 8 addr R.IRQ_ASSERT with
  | some w => (List.range 32).foldl (fun m b => m + (if s.asserted (32 * w + b) then 2 ^ b else 0)) 0
  | none => match findUnit 4 addr R.PHT_PT_ANGLE with
  | some p => s.theta p s.tb
  | none => match findUnit 16 (wordBase addr) R.TSU_TT_START with
  | some k =>
    match (s.trig k).next with
    | some x => if s.is (R.TSU_TT_CTL k) then bits x (8 * (addr % 8)) 32 else s.word addr
    | none => s.word addr
  | none => match findUnit 8 addr R.CE_PEEK_DATA with
  | some n => s.peek n
  | none => s.word addr

/-! ### What a field's change sets off -/

/-- CLK: RELOCK starts an acquisition, REFSEL and the enables of the references, the outputs (R318, R319, R323, R329). -/
def State.clkEffect (s : State) (off old v : Nat) : State :=
  match off with
  | 0x000 => if bit v 2 then s.acquire else s
  | 0x010 =>
    let src := s.dllSourceOf (old % 2)
    let s := if bit old 0 = bit v 0 then s
      else if s.clkMode = clkDll then
        let s := s.showDll src
        if s.is R.CLK_CTL_RELOCK || s.pwr.start.isSome then s.acquire else s
      else if s.refOk s.refSel then
        ((s.put R.CLK_STAT_REF s.refSel).bump R.CLK_CNT_REFSW).set1 R.CLK_INT_STAT_REF_CHG |>.showDll src
      else s.loseLock 1
    [0, 1].foldl (fun s r => if bit old (r + 1) && !bit v (r + 1) then s.referenceAbsent r else s) s
  | _ => if 0x100 ≤ off && off < 0x114 then s.outputConfig ((off - 0x100) / 4) v else s

/-- MLD_QUIESCE: each bit that changes quiesces or releases its sheet (R40, R41). -/
def State.quiesceWrite (s : State) (v : Nat) : State :=
  (List.range 11).foldl (fun s i => if bit v (i + 1) then s.sheetQuiesce (i + 1) else s.sheetRelease (i + 1)) s

/-- ADC: the group's enable, calibration and watch mode, its LFSR and its presentation (R44, R49, R59, R61). A snapshot or
test in progress goes on when EN is cleared (DESIGN CHOICE, log entry 164). -/
def State.adcEffect (s : State) (a off old v : Nat) : State :=
  match off with
  | 0x00 =>
    let s := if bit old 0 && !bit v 0 then s.upAdc a fun x => { x with held := [] } else s
    let s := if bit old 0 = bit v 0 then s else s.calInterrupt a
    let s := if bit old 1 = bit v 1 then s else s.calenChange a (bit v 1)
    if bit old 2 = bit v 2 then s else if bit v 2 then s.watchRequest a else s.watchExitRequest a
  | 0x10 => s.lfsrWrite a v
  | 0x18 => s.presWrite a false v
  | 0x1C => s.presWrite a true v
  | _ => s

/-- Engine unit `n`: RUNCTL, the trace's banks, and the swaps and ARM that a 1 requests (R81, R88, R96). CE7 is tested from
when it is no more held as the spare (R367). -/
def State.ceEffect (s : State) (n off old v : Nat) : State :=
  match off with
  | 0x00 => (if n = 7 && bit old 1 && !s.is (R.CE_RUNCTL_SPARE 7) then s.testFrom 7 else s).showLive n
  | 0x50 =>
    let s := if bit v 1 then s.recipeSwap n else s
    if bit v 0 then s.coefSwap n else s
  | 0x80 => if bit v 0 then s.traceArm n else s.showTrace
  | _ => if 0xA0 ≤ off && off < 0xB0 then s.showTrace else s

/-- PHT: the pins, and a tracker's input (R144, R152). -/
def State.phtEffect (s : State) (off : Nat) : State :=
  if off < 8 then s.quadConfig
  else match unitIn off 0x100 4 0x80 with
    | some p =>
      if off % 0x80 ≠ 0 then s
      else
        let s := s.trkConfig p
        let src := s.get (R.PHT_PT_CFG_SRC p)
        if src = 0 || src = 3 then (s.upTrk p fun k => { k with fresh := false, due := [] }).trkStop p (s.theta p s.tb) else s
    | none => s

/-- A channel's assignment (R159): out of its old group, into the new one, which holds it while it is held itself. -/
def State.channelConfig (s : State) (ch : Nat) : State :=
  let s := s.upChan ch fun c => { c with pend := [], wave := {} }
  let g := s.get (R.PWM_CH_CFG_GROUP ch)
  let s := if s.is (R.PWM_CH_CFG_EN ch) && !s.mayResume g then s.holdGroup g else s
  s.reshape g s.tb

/-- PWM: the group's control and PHASE, shadows, LOADALL, the channels' assignment, and the edges built anew under what
changes (R156, R158, R159, R162, R165; the spec does not say when the other fields of a running group take effect, DESIGN
CHOICE, log entry 131). CTL.EN acts when it reaches TB (GROUP_ENABLE). -/
def State.pwmEffect (s : State) (off old v : Nat) : State :=
  match unitIn off 0x100 8 0x80 with
  | some g =>
    match off % 0x80 with
    | 0x10 => s.shadowPeriod g (s.get (R.PWM_PG_PERIOD_SH g))
    | 0x14 => s.shadowPeriod g (s.get (R.PWM_PG_PERIOD_SH g))
    | 0x00 => s.groupControl g old v
    | 0x20 => if old = v then s else s.phaseWrite g old
    | 0x40 => if bit v 0 then s.requestLoad g else s
    | 0x24 => s.reshape g s.tb
    | 0x28 => s.reshape g s.tb
    | 0x2C => s.reshape g s.tb
    | _ => s
  | none => match unitIn off 0x800 48 0x20 with
    | some ch =>
      match off % 0x20 with
      | 0x00 => s.channelConfig ch
      | 0x08 => s.shadowDuty ch (s.get (R.PWM_CH_DUTY_SH ch))
      | 0x0C => s.shadowDuty ch (s.get (R.PWM_CH_DUTY_SH ch))
      | _ => s
    | none => match (unitIn off 0xE00 12 4).bind s.laneGroup with
      | some g => s.reshape g s.tb
      | none => s

/-- FMX: a FLT pin's configuration, and a group's action map (R169, R170). -/
def State.fmxEffect (s : State) (off : Nat) : State :=
  match unitIn off 0x40 16 4 with
  | some k => s.fltJudge k
  | none => match unitIn off 0x100 8 0x80 with
    | some g => if 0x40 ≤ off % 0x80 then s.judgeGroup g else s
    | none => s

/-- LNE: a lane's EN, and the training that a 1 starts (R198). -/
def State.lneEffect (s : State) (off old v : Nat) : State :=
  match unitIn off 0x100 12 0x100 with
  | some l =>
    if off % 0x100 ≠ 0 then s
    else
      let s := if bit old 0 && !s.is (R.LNE_LN_CTL_EN l) then s.laneDisable l else s
      if bit v 1 then s.trainStart l else s
  | none => s

/-- TSU: the domains' enables, HOLD and SEL (R230, R233). TT_CTL.EN acts when it reaches TB (TT_ENABLE). -/
def State.tsuEffect (s : State) (off old v : Nat) : State :=
  match off with
  | 0x000 =>
    let s := (s.tdEnable 0).tdEnable 1
    let s := if bit old 3 = bit v 3 then s else s.servoHold (bit v 3)
    if bit old 1 = s.is R.TSU_CTL_SEL then s else s.domainReturn
  | 0x100 => s.tdConfig 0
  | 0x180 => s.tdConfig 1
  | _ =>
    match unitIn off 0x800 16 0x20 with
    | some k => if off % 0x20 = 0 && bit old 0 != bit v 0 then s.ttRequest k else s
    | none => s

/-- TWN_CTL.EN: into JOINING, or back to STANDALONE (R244). -/
def State.twnEnable (s : State) (was : Bool) : State :=
  let now := s.is R.TWN_CTL_EN
  if now = was then s
  else if now then s.goJoining
  else
    let s := (s.unmuteAll.clr R.TWN_STAT_STEER).upTwn fun x => { x with
      join := none, steerAt := none, limitAt := none, hand := none, swapped := false, asks := false, healthyAt := none
      verdictBy := none, serving := [], inStep := [], heldJoin := [], late := [], atX := [], own := [], theirs := [] }
    (s.showTimeOk.setTwState twAlone).partnerStops.showCarry

/-- WCH: the parameter window and operation, and stop requests (R275, R295). -/
def State.wchEffect (s : State) (off v : Nat) : State :=
  match off with
  | 0x1C => s.orr R.WCH_SREQ (v % 16)
  | 0x28 => if v % 4 = 1 then s.psCheckCmd else if v % 4 = 2 then s.psStoreCmd else s
  | _ => if 0x1000 ≤ off && off < 0x1400 && s.sealOn then s.upIsle fun i => { i with checked := false } else s

/-- PIN: the outputs (R381). -/
def State.pinEffect (s : State) (off v : Nat) : State :=
  match off with
  | 0x04 => s.padsDriven
  | 0x08 => (s.orr R.PIN_GPIO_OUT (v % 2 ^ 24)).padsDriven
  | 0x0C => (s.andn R.PIN_GPIO_OUT (v % 2 ^ 24)).padsDriven
  | 0x10 => s.padsDriven
  | _ => s

/-- What a write of `v` to a word that held `old` sets off, once its fields have changed. -/
def State.regEffect (s : State) (addr old v : Nat) : State :=
  let off := addr % 0x10000
  match addr / 0x10000 with
  | 0x4001 => s.clkEffect off old v
  | 0x4003 => if addr = R.MLD_QUIESCE.addr then s.quiesceWrite v else s
  | 0x4008 => s.adcEffect (off / 0x4000) (off % 0x4000) old v
  | 0x4009 =>
    match unitIn off 0x400 64 0x10 with
    | some w => s.winConfig w
    | none => match unitIn off 0x800 32 0x10 with
      | some i => if off % 0x10 = 0 && bit old 0 ≠ s.is (R.SCR_FW_CFG_EN i) then s.fastEnable i (s.is (R.SCR_FW_CFG_EN i)) else s
      | none => s
  | 0x400A => s.ceEffect (off / 0x2000) (off % 0x2000) old v
  | 0x400C => s.phtEffect off
  | 0x400D => s.pwmEffect off old v
  | 0x400E => s.fmxEffect off
  | 0x400F => s.lneEffect off old v
  | 0x4011 => s.tsuEffect off old v
  | 0x4012 => if off = 0 then s.twnEnable (bit old 0) else s
  | 0x4013 => s.wchEffect off v
  | 0x4015 =>
    if off = 0 then s.upHlt fun h => { h with tests := h.tests.map fun x => { x with from_ := s.tb, pieces := 0 } } else s
  | 0x4017 => s.pinEffect off v
  | _ => s

/-! ### Writes -/

/-- A word whose fields the write would leave at `v`: what the fields' own rules make of it; `old` where a field takes no
write now or where the write acts through `regEffect`. -/
def State.admitted (s : State) (addr old v : Nat) : Nat :=
  let off := addr % 0x10000
  let keepBits (m : Nat) : Nat := (v - (v &&& m)) ||| (old &&& m)
  match addr / 0x10000 with
  | 0x4001 => if 0x100 ≤ off && off < 0x114 then old else v
  | 0x4003 => if addr = R.MLD_QUIESCE.addr then old else if addr = R.MLD_STAGE_BASE.addr then v / 16 * 16 else v
  | 0x4006 =>
    match unitIn off 0x1000 32 0x40 with
    | some c =>
      let o := off % 0x40
      if o = 0x08 then v / 32 * 32
      else if 0x10 ≤ o && o < 0x20 && s.get (R.GLN_GC_STAT_STATE c) ≠ 2 then old else v
    | none => v
  | 0x4008 =>
    match off % 0x4000 with
    | 0x00 => keepBits 4
    | 0x10 => old
    | _ => v
  | 0x400A =>
    if off % 0x2000 = 0 && off ≠ 0xE000 then v - (v &&& 6) else v
  | 0x400E => if off = 0x24 then v % 2 ^ 16 else if off = 0x28 then 0 else v
  | 0x4010 => if addr = (R.NET_H_RXBASE 0).addr || addr = (R.NET_H_RXBASE 1).addr || addr = (R.NET_H_TXBASE 0).addr ||
                 addr = (R.NET_H_TXBASE 1).addr then v / 16 * 16 else v
  | 0x4011 =>
    match unitIn off 0x800 16 0x20 with
    | some k => if 8 ≤ off % 0x20 && off % 0x20 < 0x18 && s.is (R.TSU_TT_CTL k) then old else v
    | none => v
  | 0x4012 =>
    if s.twState = 0 || s.twState = 1 then v
    else if off = 0 then keepBits 1 else if off = 4 || off = 12 then old else v
  | 0x4013 => if off = 0x28 then old else v
  | 0x4014 => if off = 0x10 then old else v
  | 0x4015 => if addr = R.HLT_FW_STAGE_BASE.addr then v / 16 * 16 else v
  | 0x4016 =>
    match unitIn off 0x400 256 4 with
    | some n => if irqReserved n then 0 else v
    | none => if 0x1000 ≤ off && off % 0x10 = 4 then old else v
  | _ => v

/-- A word written to a register (R7, R9): each field by its access code, then what the change sets off. A refused field
stays, and sets nothing off; a bit that hardware sets in the same cycle stays set (R10). The answer says whether every
field took the write. -/
def State.storeWord (s : State) (at_ v : Nat) (mld : Bool) : State × Bool :=
  let addr := s.regAt at_
  match findReg addr with
  | none => (s, true)
  | some h =>
    let old := s.word addr
    let no := h.mask fun a => (a = .rwq || a = .rws) && !s.fieldTakes at_ mld a
    let m := h.mask (s.fieldTakes at_ mld)
    let c := v &&& (if addr = R.PIN_GPIO_OUT_CLR.addr then 0 else h.mask (· = .w1c))
    let c := c - (c &&& s.marked addr)
    let new := (old - (old &&& m)) ||| (v &&& m)
    let s := s.setWord addr (s.admitted addr old (new - (new &&& c)))
    if no = 0 then (s.regEffect addr old v, true)
    else if h.mask (fun a => a ≠ .ro && a ≠ .rwq && a ≠ .rws) = 0 then (s, false)
    else (s.regEffect addr old ((v - (v &&& no)) ||| (old &&& no)), false)

end Sys2Proof.Machine
end

