-- ==== Sys2Proof/Machine/Glean.lean ====
section
/-!
DEFINITION. Glean's channels (chapter 15, R309–R313): descriptors, the checks of a burst, halts, and the channel commands.
The bursts themselves are in Burst.
-/

namespace Sys2Proof.Machine

/-- Whether a range lies in one window that serves the channel (R311). -/
def State.windowOk (s : State) (c addr n : Nat) (write : Bool) : Bool :=
  (List.range 16).any fun w =>
    s.get (R.GLN_GW_BASE w) ≤ addr && addr + (n - 1) ≤ s.get (R.GLN_GW_LIMIT w) && bit (s.get (R.GLN_GW_CHMASK w)) c &&
    s.is (if write then R.GLN_GW_PERM_W w else R.GLN_GW_PERM_R w)

/-- An address of the register space (R25). -/
def isReg (addr : Nat) : Bool :=
  0x40000000 ≤ addr && addr < 0x40180000 && addr / 0x10000 ≠ 0x4007 && addr / 0x10000 ≠ 0x400B
def isNv (addr : Nat) : Bool := 0x90000000 ≤ addr && addr < 0x98000000

/-- The checks of a range before its burst (R311, R296, R23): the cause it fails with, 0 when it passes. A refused access to
a main bank is logged. -/
def State.rangeCheck (s : State) (c addr n : Nat) (write : Bool) : State × Nat :=
  if 2 ^ 32 < addr + n then (s, 7)
  else if !s.windowOk c addr n write then (s, 1)
  else if (mainBank addr).isSome then
    if (mainBank (addr + (n - 1))).isNone then (s, 3)
    else if s.bankRange ownGlean addr n then (s, 0)
    else (s.bankViol ownGlean addr write, 2)
  else if (exchBank addr).isSome then (s, if (exchBank (addr + (n - 1))).isSome then 0 else 3)
  else if isReg addr && addr + n ≤ 0x40180000 then (s, 0)
  else if !write && (addr + n ≤ 0x20000 || isNv addr && addr + n ≤ 0x98000000) then (s, 0)
  else (s, 3)

/-- Whether a row with two bits in error lies in a range of a bank. -/
def rowIn (row : Option Nat) (addr n : Nat) : Option Nat :=
  match row with
  | some r => if addr / 8 ≤ r / 8 && r / 8 ≤ (addr + (n - 1)) / 8 && ((mainBank addr).isSome || (exchBank addr).isSome) then some (r / 8 * 8)
              else none
  | none => none

/-- The row with two bits in error, or with one, that a read of a range meets: the one the command names, or one already
known. -/
def State.rowFound (s : State) (two : Bool) (row : Option Nat) (addr n : Nat) : Option Nat :=
  (rowIn row addr n) <|> ((s.rows.find? fun r => r.two = two && (rowIn (some r.addr) addr n).isSome).map (·.addr))

/-- What Glean's read of a range meets: a row with one bit in error is counted, one with two is told (R303). -/
def State.gleanRows (s : State) (ue ce : Option Nat) (addr n : Nat) : State × Option Nat :=
  let s := s.l2Passed addr n
  match s.rowFound true ue addr n with
  | some r => (s.rowRead r 2, some r)
  | none =>
    match s.rowFound false ce addr n with
    | some r => (s.rowRead r 1, none)
    | none => (s, none)

/-- The bytes of a range, as Glean reads them. -/
def State.gleanRead (s : State) (addr n : Nat) : List Byte :=
  if isReg addr then slice ((List.range (n / 4 + 1)).flatMap fun i => leBytes 4 (s.readWord (addr + 4 * i))) 0 n
  else s.readBytes addr n

/-- A descriptor ends (R309): DESCS, DONE under IRQ, and the next one or the end of the chain. -/
def State.descEnd (s : State) (c ctl next : Nat) : State :=
  let s := (s.bumpWrap (R.GLN_GC_STAT_DESCS c)).setGleanDesc c none
  let s := if bit ctl 2 then s.orr R.GLN_INT_DONE (2 ^ c) else s
  if next = 0 then s.gleanTo c gleanIdle else s.put (R.GLN_GC_CUR c) next

/-- The descriptor at CUR is fetched (R309). `resume` keeps SRC, DST and REM as they stand; `ue` is a row with two bits in
error, `ce` one with one. -/
def State.gleanFetch (s : State) (c : Nat) (resume : Bool) (ue ce : Option Nat) : State :=
  let a := s.get (R.GLN_GC_CUR c)
  let rem0 (s : State) : State := (if resume then s else s.clr (R.GLN_GC_REM c)).setGleanDesc c none
  let (s, cause) := s.rangeCheck c a 32 false
  if cause ≠ 0 then (rem0 s).gleanHalt c cause a
  else match s.gleanRows ue ce a 32 with
    | (s, some _) => (rem0 s).gleanHalt c 4 a
    | (s, none) =>
      let d := s.gleanRead a 32
      let src := leAt d 0 4
      let dst := leAt d 4 4
      let ctl := leAt d 12 4
      let next := leAt d 16 4
      let bad := 8 ≤ ctl || next % 32 ≠ 0 || leAt d 20 12 ≠ 0 || bit ctl 0 && src % 4 ≠ 0 || bit ctl 1 && dst % 4 ≠ 0
      if bad then (rem0 s).gleanHalt c 6 a
      else
        let s := s.setGleanDesc c (some (ctl, next))
        let s := if resume then s
          else ((s.put (R.GLN_GC_SRC c) src).put (R.GLN_GC_DST c) dst).put (R.GLN_GC_REM c) (leAt d 8 4)
        if s.is (R.GLN_GC_REM c) then s else s.descEnd c ctl next

/-- START: ignored unless IDLE. -/
def State.gleanStart (s : State) (c : Nat) (ue ce : Option Nat) : State :=
  if s.gleanState c ≠ gleanIdle then s
  else
    let s := s.mailProgress
    let s := ((s.clr (R.GLN_GC_STAT_DESCS c)).clr (R.GLN_GC_BYTES c)).clr (R.GLN_GC_STAT_CAUSE c)
    ((s.put (R.GLN_GC_CUR c) (s.get (R.GLN_GC_DESC c))).gleanTo c gleanRun).gleanFetch c false ue ce
def execStart (t c : Nat) (ue ce : Option Nat) (s : State) : Out :=
  onUnit [.bnk, .gln, .twn, .ldg, .hlt, .mem, .mst] (c < 32) t s fun s => s.gleanStart c ue ce

/-- RESUME: ignored unless HALTED. With REM = 0 the descriptor is fetched again; otherwise the transfer goes on from the
registers, with the control and next words read again at CUR. -/
def State.gleanResume (s : State) (c : Nat) (ue ce : Option Nat) : State :=
  if s.gleanState c ≠ gleanHalted then s
  else
    let s := s.mailProgress
    let s := (s.clr (R.GLN_GC_STAT_CAUSE c)).gleanTo c gleanRun
    s.gleanFetch c (s.is (R.GLN_GC_REM c)) ue ce
def execResume (t c : Nat) (ue ce : Option Nat) (s : State) : Out :=
  onUnit [.bnk, .gln, .twn, .ldg, .hlt, .mem, .mst] (c < 32) t s fun s => s.gleanResume c ue ce

/-- STOP: the channel ends in IDLE, its resume state kept. -/
def State.gleanStop (s : State) (c : Nat) : State :=
  if s.gleanState c = gleanIdle then s
  else
    let s := if s.gleanState c = gleanRun then s.put (R.GLN_GC_STAT_CAUSE c) 8 else s
    s.gleanTo c gleanIdle
def execStop (t c : Nat) (s : State) : Out := onUnit [.gln] (c < 32) t s fun s => s.gleanStop c

end Sys2Proof.Machine
end

