-- ==== Sys2Proof/Machine/Mould.lean ====
section
/-!
DEFINITION. The Mould loader (chapter 2): the image checks of Table 2-6, the owner table, the application of sheets, and
the commands of Table 2-7.
-/

namespace Sys2Proof.Machine

/-! ### The parts of an image (R26–R31) -/

/-- A directory entry (Table 2-2) with the offset at which it stands. -/
structure Sect where
  pos : Nat
  sheet : Nat
  kind : Nat
  flags : Nat
  off : Nat
  len : Nat
  scrc : Nat
  deriving DecidableEq, Repr, Inhabited

def imgLen (img : List Byte) : Nat := leAt img 0x08 4
def sectCount (img : List Byte) : Nat := leAt img 0x0C 2
def reqCount (img : List Byte) : Nat := leAt img 0x0E 2
def reqOffset (img : List Byte) : Nat := 64 + 16 * sectCount img
/-- Where the bodies end: the offset of the CRC. -/
def imgEnd (img : List Byte) : Nat := imgLen img - 68

def sectAt (img : List Byte) (i : Nat) : Sect :=
  let p := 64 + 16 * i
  { pos := p, sheet := leAt img p 1, kind := leAt img (p + 1) 1, flags := leAt img (p + 2) 2, off := leAt img (p + 4) 4
    len := leAt img (p + 8) 4, scrc := leAt img (p + 12) 4 }
def sects (img : List Byte) : List Sect := (List.range (sectCount img)).map (sectAt img)
def sectBody (img : List Byte) (x : Sect) : List Byte := slice img x.off x.len

/-- The sections of a sheet, or of all, by body offset: image order (R32). -/
def inOrder (l : List Sect) : List Sect := l.mergeSort fun x y => x.off ≤ y.off

/-- A register record: its offset, its sheet, address and value. -/
structure Rec where
  off : Nat
  sheet : Nat
  addr : Nat
  val : Nat
  deriving DecidableEq, Repr, Inhabited

def recsOf (img : List Byte) (x : Sect) : List Rec :=
  if x.kind ≠ 1 then []
  else (List.range (x.len / 8)).map fun i =>
    let p := x.off + 8 * i
    { off := p, sheet := x.sheet, addr := leAt img p 4, val := leAt img (p + 4) 4 }
/-- Every record of the image, in image order. -/
def imgRecs (img : List Byte) : List Rec := (inOrder (sects img)).flatMap (recsOf img)

/-- A sheet's digest (R37). -/
def sheetDigest (img : List Byte) (sheet : Nat) : Nat :=
  crc32 (((sects img).filter (·.sheet = sheet)).flatMap fun x => leBytes 4 x.scrc)

/-! ### Naming of resources (R21, R32, R159) -/

/-- A resource named by a sheet, at the offset of its record or of its section's directory entry (R36). -/
structure Named where
  off : Nat
  sheet : Nat
  kind : ResKind
  idx : Nat
  deriving DecidableEq, Repr, Inhabited

def isEngSheet (n : Nat) : Bool := 1 ≤ n && n ≤ 8

/-- The last value the image records for an address. -/
def lastVal (rs : List Rec) (sheet addr : Nat) : Option Nat :=
  ((rs.filter fun r => r.sheet = sheet && r.addr = addr).getLast?).map (·.val)

/-- The trace banks a record of TRC_BANK lists, as far as the sheet's NBANK_M1 takes them in (R95). -/
def namedBanks (rs : List Rec) (r : Rec) : List Named :=
  let unit := 0x400A0000 + 0x2000 * (r.sheet - 1)
  match unitIn r.addr (unit + 0xA0) 4 4 with
  | none => []
  | some k =>
    let n := bits ((lastVal rs r.sheet (unit + 0x80)).getD 0) 4 4
    (List.range 4).filterMap fun j =>
      let b := bits r.val (8 * j) 7
      if 4 * k + j ≤ n && b < 96 then some ⟨r.off, r.sheet, .bank, b⟩ else none

/-- What a record of an engine sheet names: the unit it writes, the trace banks, the mailbox slot of a receive filter. -/
def recNames (rs : List Rec) (r : Rec) : List Named :=
  if !isEngSheet r.sheet then []
  else
    (match resourceOf r.addr with | some (k, i) => [⟨r.off, r.sheet, k, i⟩] | none => []) ++ namedBanks rs r ++
    (match findUnit 16 r.addr R.NET_RXF_SLOT with | some _ => [⟨r.off, r.sheet, .mailbox, r.val % 16384⟩] | none => [])

/-- What a section names: its records' resources, the slots its recipe's MAILBOX operators write, and the mailbox slots its
data reaches. -/
def sectNames (img : List Byte) (rs : List Rec) (x : Sect) : List Named :=
  if !isEngSheet x.sheet then []
  else match x.kind with
    | 1 => (recsOf img x).flatMap (recNames rs)
    | 2 => (List.range (x.len / 16)).filterMap fun i =>
        let p := x.off + 16 * i
        if leAt img p 1 = 0x49 && !bit (leAt img (p + 1) 1) 4 then some ⟨x.pos, x.sheet, .mailbox, bits (leAt img (p + 14) 2) 0 14⟩
        else none
    | 4 =>
      let a := leAt img x.off 4
      let lo := max a 0x70000000
      let hi := min (a + (x.len - 8)) 0x70200000
      if hi ≤ lo then []
      else (List.range ((hi - 1 - 0x70000000) / 128 - (lo - 0x70000000) / 128 + 1)).map fun i =>
        ⟨x.pos, x.sheet, .mailbox, (lo - 0x70000000) / 128 + i⟩
    | _ => []

def imgNames (img : List Byte) : List Named :=
  let rs := imgRecs img
  (inOrder (sects img)).flatMap (sectNames img rs)

/-- The offset and sheet of the first naming of each resource. -/
def firstNames (l : List Named) : List Named :=
  l.foldl (fun a n => if a.any fun x => x.kind = n.kind && x.idx = n.idx then a else a ++ [n]) []

/-- A sheet that names a lane names the lane's four channels, whose GROUP is a group of the sheet (R159). -/
def laneBad (rs : List Rec) (names : List Named) (n : Named) : Bool :=
  n.kind = .lane && (List.range 4).any fun i =>
    let ch := 4 * n.idx + i
    let g := bits ((lastVal rs n.sheet (R.PWM_CH_CFG ch).addr).getD 0) 1 3
    !(names.any fun x => x.kind = .channel && x.idx = ch && x.sheet = n.sheet) ||
    !(names.any fun x => x.kind = .group && x.idx = g && x.sheet = n.sheet)

/-! ### What a sheet may write (R32, Table 2-4) -/

/-- The register blocks, units and fields listed for a sheet. -/
def inSet (sheet addr : Nat) : Bool :=
  let off := addr % 0x10000
  let blk := addr / 0x10000
  if sheet = 0 then
    match blk with
    | 0x4000 => addr = R.SYS_STRAPOVR.addr
    | 0x4001 => true
    | 0x4017 => true
    | 0x4004 => (unitIn off 0x100 96 8).isSome && off % 8 = 0 || (unitIn off 0x400 16 16).isSome && off % 16 = 0
    | 0x400E => (unitIn off 0x20 4 4).isSome || (unitIn off 0x40 16 4).isSome
    | 0x4008 => [0x00, 0x10, 0x18, 0x1C, 0x214].contains (off % 0x4000)
    | 0x4009 => off = 0 || off = 4
    | 0x400C => off = 0 || off = 4
    | 0x4012 => off = 0 || off = 4 || off = 8 || off = 12
    | _ => false
  else if sheet ≤ 8 then
    (unitIn addr (0x400A0000 + 0x2000 * (sheet - 1)) 1 0x2000).isSome ||
    match resourceOf addr with
    | none => false
    | some (.mailbox, _) => false
    | some (.snap, _) => (off % 0x4000) % 16 = 0
    | some _ => if blk = 0x400E then 0x40 ≤ (off - 0x100) % 0x80 else true
  else if sheet = 9 then blk = 0x4011 || blk = 0x4010 && (resourceOf addr).isNone
  else if sheet = 10 then blk = 0x4013 && (off = 0x28 || off = 0x30 || (unitIn off 0x1000 256 4).isSome)
  else blk = 0x4014 || blk = 0x4015

def writable (a : Acc) : Bool := a = .rw || a = .rwq || a = .rws || a = .w1s

/-- The ownership word of a trace bank that the record's sheet names: its ROT is in the sheet's set (Table 2-4). -/
def bankNamed (names : List Named) (r : Rec) : Bool :=
  isEngSheet r.sheet && r.addr % 8 = 0 &&
  match unitIn r.addr 0x40040100 96 8 with
  | some b => names.any fun n => n.kind = .bank && n.idx = b && n.sheet = r.sheet
  | none => false

/-- A record a sheet may carry: a command record of SH0 (R33), or a word of its set with a field that takes a value. -/
def recOk (names : List Named) (r : Rec) : Bool :=
  if r.addr = R.BNK_CMD.addr then
    r.sheet = 0 && 1 ≤ bits r.val 16 3 && bits r.val 16 3 ≤ 4 && bits r.val 0 7 ≤ 95
  else (inSet r.sheet r.addr || bankNamed names r) && match findReg r.addr with | some h => h.mask writable ≠ 0 | none => false

/-- A DATA target its sheet may write: its engine's local memory or the exchange banks. SH11 has no memory. -/
def dataOk (sheet a n : Nat) : Bool :=
  a % 4 = 0 && isEngSheet sheet &&
  (ceBase (sheet - 1) ≤ a && a + n ≤ ceBase (sheet - 1) + 0x10000 || 0x70000000 ≤ a && a + n ≤ 0x70200000)

/-- A command record replayed on an ownership table (R33, R297): the table after it; none where it fails. -/
def replay (own : List Nat) (v : Nat) : Option (List Nat) :=
  let b := bits v 0 7
  let who := bits v 8 4
  let o := own.getD b 0
  match bits v 16 3 with
  | 1 => if o = 0 || o ≠ who then none else some (own.set b 0)
  | 2 => if who = 0 || 13 < who || o ≠ 0 then none else some (own.set b who)
  | 3 => if (who = 1 || who = 10) && o ≠ who then some own else none
  | _ => if who = 1 || who = 10 then some own else none
def replayAll : List Nat → List Rec → Option Nat
  | _, [] => none
  | own, r :: rs => match replay own r.val with
    | some o => replayAll o rs
    | none => some r.off

/-! ### The image checks (R35, R36, Table 2-6) -/

/-- A failure: its offset and its sheet. -/
abbrev Bad := Nat × Nat

/-- The failure at the lowest offset. -/
def lowest (l : List Bad) : Option Bad :=
  l.foldl (fun m b => match m with | none => some b | some x => if b.1 < x.1 then some b else some x) none

/-- Failures among conditions at offsets without a sheet. -/
def badsAt (l : List (Nat × Bool)) : List Bad := (l.filter fun x => !x.2).map fun x => (x.1, 0)

/-- Header fields (Table 2-1). -/
def headerChecks (img : List Byte) : List (Nat × Bool) :=
  [(0x00, leAt img 0 4 = 0x444C4F4D), (0x04, leAt img 4 2 = 0x0200), (0x06, leAt img 6 2 = 64),
   (0x0C, 1 ≤ sectCount img && sectCount img ≤ 64), (0x0E, reqCount img ≤ 64), (0x10, leAt img 0x10 4 = 64),
   (0x14, leAt img 0x14 4 = reqOffset img), (0x21, leAt img 0x21 1 = 0), (0x22, leAt img 0x22 2 < 4096),
   (0x24, leAt img 0x24 28 = 0)]

def dirBounds (img : List Byte) : List Bad :=
  badsAt ((List.range (sectCount img)).map (fun i => (64 + 16 * i, decide (64 + 16 * (i + 1) ≤ imgEnd img))) ++
    (List.range (reqCount img)).map fun i => (reqOffset img + 8 * i, decide (reqOffset img + 8 * (i + 1) ≤ imgEnd img)))

/-- Bounds of the bodies, with exact sums (R36). -/
def boundsBad (img : List Byte) : List Bad :=
  let l := sects img
  (l.filter fun x => x.off % 16 ≠ 0 || x.off < reqOffset img + 8 * reqCount img || imgEnd img < x.off + x.len ||
    l.any fun y => y.pos ≠ x.pos && x.off < y.off + y.len && y.off < x.off + x.len).map fun x => (x.pos, x.sheet)

def crcBad (img : List Byte) : List Bad :=
  ((sects img).filter fun x => crc32 (sectBody img x) ≠ x.scrc).map fun x => (x.pos, x.sheet)

/-- Whether a section's kind, sheet and flags are allowed (Tables 2-2, 2-3). -/
def kindOk (x : Sect) : Bool :=
  x.sheet ≤ 11 && match x.kind with
    | 1 => x.flags = 0
    | 2 => isEngSheet x.sheet && x.flags ≤ 1
    | 3 => isEngSheet x.sheet && x.flags ≤ 1
    | 4 => (isEngSheet x.sheet || x.sheet = 11) && x.flags = 0
    | _ => false
/-- SHEET_MASK is judged against the entries that name a sheet (log entry 39). -/
def kindBad (img : List Byte) : List Bad :=
  let l := sects img
  let mask := (List.range 12).foldl (fun m n => m + (if l.any (·.sheet = n) then 2 ^ n else 0)) 0
  let twice (x : Sect) : Bool := (x.kind = 2 || x.kind = 3) &&
    l.any fun y => y.pos < x.pos && y.sheet = x.sheet && y.kind = x.kind && y.flags = x.flags
  (if leAt img 0x22 2 = mask then [] else [(0x22, 0)]) ++
  (l.filter fun x => !kindOk x || twice x).map fun x => (x.pos, x.sheet)

def lengthOk (x : Sect) : Bool :=
  match x.kind with
  | 1 => x.len % 8 = 0 && 8 ≤ x.len && x.len ≤ 262144
  | 2 => x.len % 16 = 0 && 16 ≤ x.len && x.len ≤ 4096
  | 3 => x.len % 4 = 0 && 4 ≤ x.len && x.len ≤ 4096
  | _ => x.len % 4 = 0 && 12 ≤ x.len && x.len ≤ 262152
def lengthBad (img : List Byte) : List Bad := ((sects img).filter fun x => !lengthOk x).map fun x => (x.pos, x.sheet)

/-- Requirements (R31). -/
def reqMet (id ver cnt : Nat) : Bool :=
  capTable.any fun c => c.1 = id && c.2.1 = ver / 256 && ver % 256 = 0 && cnt ≤ c.2.2.2
def reqBad (img : List Byte) : List Bad :=
  badsAt ((List.range (reqCount img)).map fun i =>
    let p := reqOffset img + 8 * i
    (p, reqMet (leAt img p 2) (leAt img (p + 2) 2) (leAt img (p + 4) 2)))

/-- Resources named twice, within the image or, with the running sheets' owner table, against them. -/
def conflictBad (img : List Byte) (running : List Owned) : List Bad :=
  let rs := imgRecs img
  let names := imgNames img
  let firsts := firstNames names
  (names.filter fun n =>
    (firsts.any fun x => x.kind = n.kind && x.idx = n.idx && x.sheet ≠ n.sheet) ||
    running.any fun o => o.kind = n.kind && o.idx = n.idx && o.sheet ≠ n.sheet).map (fun n => (n.off, n.sheet)) ++
  (firsts.filter (laneBad rs names)).map fun n => (n.off, n.sheet)

def ownedBad (img : List Byte) : List Bad :=
  let names := imgNames img
  ((imgRecs img).filter fun r => !recOk names r).map (fun r => (r.off, r.sheet)) ++
  ((sects img).filter (·.kind = 4)).flatMap fun x =>
    (if dataOk x.sheet (leAt img x.off 4) (x.len - 8) then [] else [(x.off, x.sheet)]) ++
    (if leAt img (x.off + 4) 4 = 0 then [] else [(x.off + 4, x.sheet)])

def bankBad (img : List Byte) : List Bad :=
  match replayAll (List.replicate 96 1) ((imgRecs img).filter fun r => r.addr = R.BNK_CMD.addr) with
  | some o => [(o, 0)]
  | none => []

/-- A check of Table 2-6: its code, and its failures on an image. -/
def imageChecks (revoked room : Nat) (running : List Owned) : List (Nat × (List Byte → List Bad)) := [
  (0x01, fun img => badsAt [(8, 148 ≤ imgLen img && imgLen img ≤ 1048576 && imgLen img % 4 = 0 && imgLen img ≤ room)]),
  (0x02, fun img => badsAt (headerChecks img)),
  (0x03, fun img => badsAt [(imgEnd img, crc32 (img.take (imgEnd img)) = leAt img (imgEnd img) 4)]),
  (0x04, fun img => badsAt [(0x20, leAt img 0x20 1 ≤ 3 && !bit revoked (leAt img 0x20 1))]),
  (0x05, fun img => badsAt [(imgLen img - 64, signedBy (leAt img 0x20 1) (img.take (imgLen img)))]),
  (0x06, dirBounds), (0x07, boundsBad), (0x08, crcBad), (0x09, kindBad), (0x0A, lengthBad), (0x0B, reqBad),
  (0x0C, fun img => conflictBad img running), (0x0D, ownedBad),
  (0x0E, fun img => badsAt [(0x22, bit (leAt img 0x22 2) 0)]),
  (0x18, bankBad)]

/-- The first check that fails, with its failure at the lowest offset; code 0 where none does. -/
def runChecks (img : List Byte) : List (Nat × (List Byte → List Bad)) → Nat × Bad
  | [] => (0, 0, 0)
  | (code, f) :: rest => match lowest (f img) with
    | some b => (code, b)
    | none => runChecks img rest

def State.checkImage (s : State) (img : List Byte) (room : Nat) (running : List Owned) : Nat × Bad :=
  runChecks img (imageChecks (s.get R.SYS_KEYREV_MOULD) room running)

/-! ### Slots -/

def slotAt (k : Nat) : Nat := nvBase + 0x2000000 + 0x100000 * k
/-- The bytes of a slot, as far as its header says. -/
def State.slotImage (s : State) (k : Nat) : List Byte :=
  s.readBytes (slotAt k) (min 0x100000 (max 148 (s.readLe (slotAt k + 8) 4)))
def State.slotMagic (s : State) (k : Nat) : Bool := s.readLe (slotAt k) 4 = 0x444C4F4D
/-- Whether a slot holds an image (R35). -/
def State.slotValid (s : State) (k : Nat) : Bool := (s.checkImage (s.slotImage k) 0x100000 []).1 = 0

/-- The slot's registers after the image checks of its contents. -/
def State.showSlot (s : State) (k : Nat) (ok : Bool) : State :=
  let s := s.put (R.MLD_SL_STAT_VALID k) (b2n ok)
  if !ok then s
  else
    let img := s.slotImage k
    ((s.put (R.MLD_SL_SERIAL k) (leAt img 0x1C 4)).put (R.MLD_SL_LEN k) (imgLen img)).put (R.MLD_SL_ID k) (leAt img 0x18 4)

/-- IN_USE: the slot is the source of a loaded sheet. -/
def State.showInUse (s : State) : State :=
  (List.range 4).foldl (fun s k =>
    s.put (R.MLD_SL_STAT_IN_USE k) (b2n ((List.range 12).any fun n => s.sheetLoaded n && s.get (R.MLD_SH_SRC_SLOT n) = k))) s

/-- The slot that a start loads: the valid one with the highest SERIAL, the lower-numbered of equal ones (R35). -/
def State.startSlot (s : State) : Option Nat :=
  (List.range 4).foldl (fun b k =>
    if !s.is (R.MLD_SL_STAT_VALID k) then b
    else match b with
      | none => some k
      | some j => if s.get (R.MLD_SL_SERIAL j) < s.get (R.MLD_SL_SERIAL k) then some k else some j) none

/-! ### Applying a sheet (R30, R32, R33) -/

/-- A command record of SH0, with the wait for its end. -/
def State.bankRecord (s : State) (v : Nat) : State :=
  let b := bits v 0 7
  let who := bits v 8 4
  match bits v 16 3 with
  | 1 => (s.bankRelease b who).bankFree
  | 2 => s.bankClaim b who
  | 3 => s.bankGrant b who true
  | _ => s.bankGrant b who false

/-- One record. `banks` says that command records are carried out (not at a warm start), `psOk` what the read back of a
stored parameter set shows. -/
def State.applyRec (s : State) (banks psOk : Bool) (r : Rec) : State :=
  if r.addr = R.BNK_CMD.addr then (if banks then s.bankRecord r.val else s)
  else if r.addr = R.LDG_CLR.addr then { s.ldgClrWrite r.val with resp := s.resp }
  else
    let s := (s.storeWord r.addr r.val true).1
    if r.addr = R.WCH_PSCMD.addr then s.psEnd psOk else s

/-- One section. A RECIPE or COEF section fills its store from the first location, and zeros follow it. -/
def State.applySect (s : State) (img : List Byte) (banks psOk : Bool) (x : Sect) : State :=
  let n := s.phys (x.sheet - 1)
  match x.kind with
  | 1 => (recsOf img x).foldl (fun s r => s.applyRec banks psOk r) s
  | 2 => (s.fillZero (ceBase n + 0x1000 * (x.flags % 2)) 0x1000).writeBytes (ceBase n + 0x1000 * (x.flags % 2)) (sectBody img x)
  | 3 => (s.fillZero (ceBase n + 0x2000 + 0x1000 * (x.flags % 2)) 0x1000).writeBytes
      (ceBase n + 0x2000 + 0x1000 * (x.flags % 2)) (sectBody img x)
  | _ =>
    let a := leAt img x.off 4
    let a := if a < 0x70000000 then ceBase n + a % 0x10000 else a
    s.writeBytes a ((sectBody img x).drop 8)

/-- The owner table takes a sheet's resources over from its image. A resource has one owner (R21): where a warm start loads
a sheet from a slot whose image gives it a resource of a sheet that is kept, the sheet loaded later owns it (DESIGN CHOICE,
log entry 160). -/
def State.ownSheet (s : State) (img : List Byte) (sheet : Nat) : State :=
  let mine := ((firstNames (imgNames img)).filter (·.sheet = sheet)).map fun n => ({ kind := n.kind, idx := n.idx, sheet := sheet } : Owned)
  s.upMld fun m => { m with
    own := (m.own.filter fun o => o.sheet ≠ sheet && !mine.any fun x => x.kind = o.kind && x.idx = o.idx) ++ mine }

/-- A sheet that a warm start cannot load again is there no more: it owns nothing, and its digest is that of no sheet
(DESIGN CHOICE, log entry 161). -/
def State.unloadSheet (s : State) (sheet : Nat) : State :=
  ((s.clr (R.MLD_SH_SRC_LOADED sheet)).put (R.MLD_SH_DIGEST sheet) 0).upMld fun m => { m with own := m.own.filter (·.sheet ≠ sheet) }

/-- A sheet applied from a slot: its sections in image order, then its digest and source (R37). -/
def State.applySheet (s : State) (img : List Byte) (slot sheet : Nat) (banks psOk : Bool) : State :=
  let s := s.ownSheet img sheet
  let s := (inOrder ((sects img).filter (·.sheet = sheet))).foldl (fun s x => s.applySect img banks psOk x) s
  let s := (s.put (R.MLD_SH_DIGEST sheet) (sheetDigest img sheet)).put (R.MLD_SH_SRC_SLOT sheet) slot
  ((s.set1 (R.MLD_SH_SRC_LOADED sheet)).bump R.MLD_LOADCNT).refreshPaired

/-- The loading order of R35. -/
def loadOrder : List Nat := [0, 9, 11, 10, 1, 2, 3, 4, 5, 6, 7, 8]

/-- The groups' blocks follow the owners, and sheets that are not there count as quiesced (R41). -/
def State.loadEnd (s : State) : State :=
  let s := (List.range 8).foldl (fun s g => (s.updBlock g).judgeGroup g) s
  let s := (List.range 8).foldl (fun s n =>
    if s.sheetLoaded (n + 1) then s.showQuiesced (n + 1) else s.setQuiesced (n + 1) true) s
  s.showInUse

/-- An image loaded whole from a slot (R35). -/
def State.loadImage (s : State) (slot : Nat) (psOk : Bool) : State :=
  let img := s.slotImage slot
  let s := loadOrder.foldl (fun s n =>
    if !bit (leAt img 0x22 2) n then s
    else if n = 10 && !s.sealOn then s.set1 R.MLD_STAT_SH10_SKIPPED
    else s.applySheet img slot n true psOk) s
  (s.put R.MLD_STAT_STATE 2).loadEnd.settleLanes

/-! ### Returning a sheet's units to reset (R40) -/

/-- A word's value at reset: that of Table 0-3's reset columns, or the one the sampled straps give (R34, R204, R244);
the override of TWIN_EN counts (R407). -/
def State.resetOf (s : State) (addr : Nat) : Nat :=
  let role := s.get R.PWR_STRAP_ROLE
  let node := s.get R.PWR_STRAP_NODE_ID
  if addr = R.NET_DEVMAC_HI.addr || addr = R.NET_PAIRMAC_HI.addr then 0x02A7
  else if addr = R.NET_DEVMAC_LO.addr then 0xD0000A00 + 0x100 * role + node
  else if addr = R.NET_PAIRMAC_LO.addr then 0xD0000000 + node
  else if addr = R.TWN_CTL.addr then
    setBits (resetWord addr).toNat 0 1 (if s.is R.SYS_STRAPOVR_EN then s.get R.SYS_STRAPOVR_TWIN_EN else s.get R.PWR_STRAP_TWIN_EN)
  else (resetWord addr).toNat

/-- A word's RW, RWQ, RWS and W1S fields return to their reset values. -/
def State.resetWordTo (s : State) (addr : Nat) : State :=
  match findReg addr with
  | none => s
  | some h =>
    if h.mask writable = 0 then s
    else
      let s := (s.storeWord addr (s.resetOf addr &&& h.mask fun a => a = .rw || a = .rwq || a = .rws) true).1
      let m := h.mask (· = .w1s)
      let at_ := s.regAt addr
      if m = 0 then s else s.setWord at_ (s.word at_ - (s.word at_ &&& m))

/-- The words of a range. -/
def wordsIn (base len : Nat) : List Nat := (List.range (len / 4)).map fun i => base + 4 * i

/-- The register words of a resource. -/
def resourceWords (k : ResKind) (i : Nat) : List Nat :=
  match k with
  | .group => wordsIn (0x400D0100 + 0x80 * i) 0x80 ++ wordsIn (0x400E0100 + 0x80 * i) 0x80
  | .channel => wordsIn (0x400D0800 + 0x20 * i) 0x20
  | .lane => (0x400D0E00 + 4 * i) :: wordsIn (0x400F0100 + 0x100 * i) 0x100
  | .window => wordsIn (0x40090400 + 0x10 * i) 0x10
  | .fastWindow => wordsIn (0x40090800 + 0x10 * i) 0x10
  | .tracker => wordsIn (0x400C0100 + 0x80 * i) 0x80
  | .snap => wordsIn (0x40080080 + 0x4000 * (i / 4) + 0x10 * (i % 4)) 0x10
  | .rxf => wordsIn (0x40100800 + 0x10 * i) 0x10
  | .txs => wordsIn (0x40100A00 + 0x20 * i) 0x20
  | .bank => [(R.BNK_BK_OWN i).addr]
  | _ => []

/-- The register words of the units a sheet owns. -/
def State.sheetWords (s : State) (sheet : Nat) : List Nat :=
  let mine := (s.mld.own.filter (·.sheet = sheet)).flatMap fun o => resourceWords o.kind o.idx
  if isEngSheet sheet then wordsIn (0x400A0000 + 0x2000 * (sheet - 1)) 0x100 ++ mine
  else if sheet = 9 then
    (wordsIn 0x40100000 0x1100).filter (fun a => (resourceOf a).isNone) ++ wordsIn 0x40110000 0xA00
  else if sheet = 10 then [0x40130028, 0x40130030] ++ wordsIn 0x40131000 0x400
  else if sheet = 0 then
    (R.SYS_STRAPOVR.addr :: wordsIn 0x40010000 0x120 ++ wordsIn 0x40170000 0x160 ++ wordsIn 0x40040100 0x400 ++
      wordsIn 0x400E0020 0x60 ++ (List.range 4).flatMap (fun a => wordsIn (0x40080000 + 0x4000 * a) 0x218) ++
      wordsIn 0x40090000 8 ++ wordsIn 0x400C0000 8 ++ wordsIn 0x40120000 16).filter (inSet 0)
  else wordsIn 0x40140000 0x500 ++ wordsIn 0x40150000 0x40

/-- A refused move that a RELOAD completes (R99): CE7 takes the sheet over, and the faulted engine holds nothing of it. -/
def State.reloadMove (s : State) (sheet : Nat) : State :=
  let e := s.get R.CE7_MOVE_STAT_ERR
  if isEngSheet sheet && (e = 3 || e = 4) && s.get R.CE7_MOVE_STAT_SRC = sheet - 1 && !s.is R.CE7_MOVE_STAT_CARRYING then
    ((s.carry (sheet - 1)).clr R.CE7_MOVE_STAT_ERR).upEng (sheet - 1) fun _ => {}
  else s

/-- The engine of a reloaded sheet: its local memory, the faults and what it held are gone (R40, R97). -/
def State.resetEngine (s : State) (sheet : Nat) : State :=
  let n := s.phys (sheet - 1)
  let s := s.fillZero (ceBase n) 0x10000
  let s := s.upEng n fun e => { trcIdx := e.trcIdx, trcPost := e.trcPost, trcNext := e.trcNext }
  let s := (s.clr (R.CE_FAULT n)).clr (R.CE_FAULT (sheet - 1))
  (((s.clr (R.CE_STAT_PENDING n)).showLive n).fsRelease (116 + (sheet - 1))).testFrom n

/-- RELOAD's effect: the sheet's units, local memory and mailbox slots return to reset, and it is loaded from the slot. -/
def State.reloadSheet (s : State) (img : List Byte) (slot sheet : Nat) (banks psOk : Bool) : State :=
  let s := s.reloadMove sheet
  let ws := s.sheetWords sheet
  let slots := (s.mld.own.filter fun o => o.sheet = sheet && o.kind = .mailbox).map (·.idx)
  let s := ws.foldl (fun s a => s.resetWordTo a) s
  let s := if isEngSheet sheet then s.resetEngine sheet else s
  let s := match s.sheetGroup sheet with | some g => s.groupFollow g s.tb | none => s
  let s := slots.foldl (fun s m => s.fillZero (0x70000000 + 128 * m) 128) s
  let s := s.applySheet img slot sheet banks psOk
  ((List.range 8).foldl (fun s g => (s.updBlock g).judgeGroup g) s).showInUse.settleLanes

/-! ### Commands (R39, Table 2-7) -/

/-- A command's end is reported and recorded. Records: every load, refusal, PROGRAM and WITHDRAW. The record's unit is the
slot the command names, and 0 for one refused as BUSY (DESIGN CHOICE, log entry 162). -/
def State.mldReport (s : State) (op slot code sheet off : Nat) : State :=
  let s := (s.put R.MLD_ERR_CODE code).put R.MLD_ERR_SHEET sheet
  let s := if code = 0 then s else s.put R.MLD_ERROFF off
  let s := s.set1 (if code = 0 then R.MLD_INT_STAT_DONE else R.MLD_INT_STAT_ERR)
  if code = 0 && op = 2 then s else s.ldgPostFree 2 0x03 slot

/-- A command begins with what its checks gave, or is refused while one is in progress. -/
def State.mldBegin (s : State) (c : State → MldCmd) : State :=
  if s.is R.MLD_STAT_BUSY then
    ((s.put R.MLD_ERR_CODE 0x12).put R.MLD_ERROFF 0).set1 R.MLD_INT_STAT_ERR |>.ldgPostFree 2 0x03 0
  else
    let x := c s
    (s.set1 R.MLD_STAT_BUSY).upMld fun m => { m with cmd := some x }

/-- The first failure of a list: its code and place. -/
def firstCode : List (Nat × Bad) → Nat × Bad
  | [] => (0, 0, 0)
  | x :: rest => if x.1 ≠ 0 then x else firstCode rest

def cmdOf (op slot sheet : Nat) (img : List Byte) (r : Nat × Bad) : MldCmd :=
  { op := op, slot := slot, sheet := sheet, code := r.1, errSheet := if r.2.2 = 0 then sheet else r.2.2, off := r.2.1, img := img }

/-- A slot in use by a loaded sheet. -/
def State.slotUsed (s : State) (k : Nat) : Bool := (List.range 12).any fun n => s.sheetLoaded n && s.get (R.MLD_SH_SRC_SLOT n) = k

/-- PROGRAM. The slot holds no valid image from here until its end. -/
def State.mldProgram (s : State) (slot : Nat) : State :=
  let base := s.get R.MLD_STAGE_BASE
  let len := s.get R.MLD_STAGE_LEN
  let img := s.readBytes base (min len 0x100000)
  let busy := s.is R.MLD_STAT_BUSY
  let r := if !s.stageOk base len then (0x01, 0, 0)
    else firstCode [s.checkImage img (min len 0x100000) [], (if s.slotUsed slot then 0x16 else 0, 0, 0)]
  let s := s.mldBegin fun _ => cmdOf 1 slot 0 img r
  if !busy && r.1 = 0 then s.writeLe (slotAt slot) 4 0 else s
def execMldProgram (t slot : Nat) (s : State) : Out := onUnit [.mld, .ldg, .mem] (slot < 4) t s fun s => s.mldProgram slot

/-- The checks of CHECK and RELOAD on a slot against the running sheets. -/
def State.checkSlot (s : State) (slot : Nat) : Nat × Bad :=
  if !s.slotMagic slot then (0x13, 0, 0) else s.checkImage (s.slotImage slot) 0x100000 s.mld.own

/-- MLD_CHECK. -/
def execMldCheck (t slot : Nat) (s : State) : Out :=
  onUnit [.mld, .ldg] (slot < 4) t s fun s => s.mldBegin fun s => cmdOf 2 slot 0 [] (s.checkSlot slot)

/-- The codes of a RELOAD, in the order of Table 2-6 after the SHEET field and the image. -/
def State.reloadCode (s : State) (slot sheet : Nat) : Nat × Bad :=
  let img := s.slotImage slot
  let sh0 := match (sects img).find? (·.sheet = 0) with | some x => x.pos | none => 0x22
  firstCode [
    (if sheet = 0 then 0x0F else if 11 < sheet then 0x09 else 0, 0, sheet),
    s.checkSlot slot,
    (if s.sheetLoaded 0 && sheetDigest img 0 = s.get (R.MLD_SH_DIGEST 0) then 0 else 0x0F, sh0, sheet),
    (if sheet = 10 || s.sheetQuiesced sheet then 0 else 0x10, 0, sheet),
    (if sheet = 10 && !s.sealOn then 0x11 else 0, 0, sheet),
    (if bit (leAt img 0x22 2) sheet then 0 else 0x15, 0x22, sheet)]

/-- MLD_RELOAD; the sheet field is the command's own, and may be any number of four bits. -/
def execMldReload (t slot sheet : Nat) (s : State) : Out :=
  onUnit [.mld, .ldg] (slot < 4 ∧ sheet < 16) t s fun s => s.mldBegin fun s => cmdOf 3 slot sheet (s.slotImage slot) (s.reloadCode slot sheet)

/-- MLD_WITHDRAW. -/
def State.withdrawCode (s : State) (slot : Nat) : Nat × Bad :=
  firstCode [(if s.slotValid slot then 0 else 0x13, 0, 0), (if s.slotUsed slot then 0x16 else 0, 0, 0)]
def execMldWithdraw (t slot : Nat) (s : State) : Out :=
  onUnit [.mld, .ldg] (slot < 4) t s fun s => s.mldBegin fun s => cmdOf 4 slot 0 [] (s.withdrawCode slot)

/-- MLD_START_LOAD. -/
def State.startLoadCode (s : State) (slot : Nat) : Nat × Bad :=
  let c := if s.slotMagic slot then s.checkImage (s.slotImage slot) 0x100000 [] else (0x13, 0, 0)
  firstCode [c, (if s.get R.MLD_STAT_STATE = 0 then 0 else 0x17, 0, 0)]
def State.mldStartLoad (s : State) (slot : Nat) : State :=
  let busy := s.is R.MLD_STAT_BUSY
  let r := s.startLoadCode slot
  let s := s.mldBegin fun _ => cmdOf 5 slot 0 [] r
  if !busy && r.1 = 0 then s.put R.MLD_STAT_STATE 1 else s
def execMldStartLoad (t slot : Nat) (s : State) : Out := onUnit [.mld, .ldg] (slot < 4) t s fun s => s.mldStartLoad slot

/-- What a good command does at its end. A slot that does not read back equal holds bytes the spec does not state. -/
def State.mldApply (s : State) (c : MldCmd) (readbackOk psOk : Bool) : State :=
  match c.op with
  | 1 =>
    let len := imgLen c.img
    let old := s
    let s := if readbackOk then s.writeBytes (slotAt c.slot) (c.img.take len)
      else { s.writeBytes (slotAt c.slot) (old.freeBytes len) with drawn := old.drawn + 1 }
    s.showSlot c.slot readbackOk
  | 3 => s.reloadSheet c.img c.slot c.sheet true psOk
  | 4 => s.writeLe (slotAt c.slot) 4 0
  | 5 => s.loadImage c.slot psOk
  | _ => s

/-- MLD_COMMAND_END. A sheet whose quiesce bit was cleared during its RELOAD is released now, unless the RELOAD was
refused (R40). -/
def State.mldEnd (s : State) (readbackOk psOk : Bool) : State :=
  match s.mld.cmd with
  | none => s
  | some c =>
    let s := (s.upMld fun m => { m with cmd := none }).clr R.MLD_STAT_BUSY
    let s := if c.code = 0 then s.mldApply c readbackOk psOk else s
    let code := if c.code = 0 && c.op = 1 && !readbackOk then 0x14 else c.code
    let s := s.mldReport c.op c.slot code c.errSheet c.off
    if c.op = 3 && c.code = 0 && s.mld.stay.contains c.sheet then s.releaseSheet c.sheet else s
def execMldCommandEnd (t : Nat) (readbackOk psOk : Bool) (s : State) : Out := laneAct Part.all t s fun s => s.mldEnd readbackOk psOk

end Sys2Proof.Machine
end

