-- ==== Sys2Proof/Machine/Power.lean ====
section
/-!
DEFINITION. Supplies, the keep-alive domain and its mirror, and what a reset leaves (chapter 17, R333–R341, R346).
-/

namespace Sys2Proof.Machine

def State.upPwr (s : State) (f : Power → Power) : State := { s with pwr := f s.pwr }

/-- A command that resets: it returns TB to 0 where `back` holds (R334), and what it clears is no change that QCHG shows. -/
def actReset (reach : List Part) (back : Bool) (t : Nat) (s : State) (f : State → State) : Out :=
  .next (s.settle reach (if back then 0 else (s.at t).tb) (f (s.at t)))

/-! ### The mirror (R335, R337, R338) -/

/-- The valid cell with the higher sequence number. -/
def State.newestCell (s : State) : Option MirrorCell :=
  (s.pwr.cells.filterMap id).foldl (fun b c => match b with
    | none => some c
    | some x => if x.seq < c.seq then some c else some x) none

/-- The older cell: one that is not valid, or the one with the lower sequence number. -/
def State.olderCell (s : State) : Nat :=
  match s.pwr.cells.getD 0 none, s.pwr.cells.getD 1 none with
  | none, _ => 0
  | some _, none => 1
  | some a, some b => if a.seq ≤ b.seq then 0 else 1

/-- A mirror write; `ok` says that it reads back equal. A cell that does not is not valid. Two failures in a row are a
reason for replacement (R368). -/
def State.mirrorWrite (s : State) (clean ok : Bool) : State :=
  let k := s.olderCell
  let seq := match s.pwr.cells.getD (1 - k) none with | some c => (c.seq + 1) % 2 ^ 32 | none => 1
  let c : MirrorCell := { seq := seq, clean := clean, opsec := s.opsec, cycles := s.get R.PWR_CYCLES, boot := s.get R.PWR_BOOTREC
                          failT0 := s.get R.PWR_FAILT0, ldgFail := s.is R.PWR_KA_LDG_FAIL, offsec := s.get R.PWR_OFFSEC
                          life := s.get R.HLT_LIFE }
  let s := s.upPwr fun p => { p with cells := p.cells.set k (if ok then some c else none), fails := if ok then 0 else p.fails + 1 }
  let s := ((s.put R.PWR_MIRROR_SEQ seq).put R.PWR_MIRROR_CELL k).put R.PWR_MIRROR_FAIL (b2n !ok)
  let s := if ok then s else s.set1 R.PWR_INT_STAT_MIRROR_FAIL
  if 2 ≤ s.pwr.fails then s.hltReason 7 else s

/-- POWER_FAIL_WARNING: VDD_IO33 falls below 3.10 V while main power is good. -/
def State.powerWarning (s : State) (ok : Bool) : State :=
  if !s.is R.PWR_STAT_MPG then s
  else
    let s := (s.upPwr fun p => { p with warn := true }).set1 R.PWR_INT_STAT_PFW
    (s.set1 R.LDG_STAT_PFW_MODE).mirrorWrite true ok
def execPowerFailWarning (t : Nat) (ok : Bool) (s : State) : Out := act [.pwr, .ldg, .hlt] t s fun s => s.powerWarning ok

/-- POWER_FAIL_CLEAR: VDD_IO33 rises above 3.15 V again. -/
def State.powerClear (s : State) (ok : Bool) : State :=
  if !s.pwr.warn then s
  else (((s.upPwr fun p => { p with warn := false }).clr R.LDG_STAT_PFW_MODE).mirrorWrite false ok).ldgDropped
def execPowerFailClear (t : Nat) (ok : Bool) (s : State) : Out := act [.pwr, .ldg, .hlt] t s fun s => s.powerClear ok

/-- OPSEC_SECOND: OPSEC reaches a whole second. -/
def State.opsecSecond (s : State) (ok : Bool) : State :=
  if !s.is R.PWR_STAT_MPG then s
  else if s.pwr.warn then s.mirrorWrite true ok
  else if s.opsec / 65536 % 3600 = 0 then s.mirrorWrite false ok
  else s
def execOpsecSecond (t : Nat) (ok : Bool) (s : State) : Out := act [.pwr, .ldg, .hlt] t s fun s => s.opsecSecond ok

/-! ### VKA (R336) -/

/-- VKA_LOW. Without main power the keep-alive contents are lost; with it, PWR keeps a copy. -/
def State.vkaLow (s : State) : State :=
  let s := (s.set1 R.PWR_KA_VKA_LOW).andn R.PWR_RAIL 256
  if s.is R.PWR_STAT_MPG then s.set1 R.PWR_INT_STAT_VKA_LOW else s.upPwr fun p => { p with lost := true }
def execVkaLow (t : Nat) (s : State) : Out := act [.pwr] t s State.vkaLow

/-- VKA_RECOVERY: the copy goes back into the domain. -/
def execVkaRecovery (t : Nat) (s : State) : Out := act [.pwr] t s fun s => (s.clr R.PWR_KA_VKA_LOW).orr R.PWR_RAIL 256

/-! ### Resets (R334, R341, R346) -/

/-- Fields of the keep-alive domain, and those that show a supply. -/
def kaFields : List RF :=
  [R.PWR_CYCLES, R.PWR_BOOTREC, R.PWR_FAILT0, R.PWR_OFFSEC, R.PWR_KA, R.PWR_STAT_MPG, R.PWR_RAIL] ++ (List.range 16).map R.PWR_RET

/-- Fields that the starts of causes 3–6 leave as they are: the straps (R342), the last fatal step (R344), the reasons for
replacement (R368), counts since PORST_N, a move's mapping (R99), and retirements of slices (R51). -/
def softFields : List RF :=
  [R.PWR_STRAP, R.PWR_STAT_STEP_ERR, R.HLT_REPLACE, R.MLD_LOADCNT, R.TSU_STAT_TB_SET, R.CE7_MOVE_STAT_CARRYING,
   R.CE7_MOVE_STAT_SRC] ++ (List.range 8).map R.CE_STAT_MOVED ++ (List.range 4).map R.ADC_STAT_RETIRED

/-- The Ledger at a reset: queued records are lost, and each ring goes on after its last record in the die, in the Ledger
area or in the reserve (R359, R360, R364). -/
def Ledger.restart (l : Ledger) : Ledger :=
  { l with queue := [], acc := (l.w.zip l.resTop).map fun (a, b) => max a b, drops := [0, 0, 0, 0], clears := [] }

/-- Power fails while a record is being programmed: its slot is left unreadable, its bytes free (R359). -/
def State.ldgTorn (s : State) : State :=
  match s.ldg.queue with
  | [] => s
  | r :: _ =>
    if s.ldgHeld then s
    else
      let s' := { s with drawn := s.drawn + 1 }
      if s.is R.LDG_STAT_FAILED || r.ring = 4 then { s' with ldg := s.ldg.intoReserve (s.ldg.resW % 16384) (s.freeBytes 64) }
      else s'.writeBytes (0x90000000 + s.ldg.dieOffset r.ring r.pos) (s.freeBytes 64)

/-- What the Ledger's and the island's parts show as soon as the domains leave reset. -/
def State.showKept (s : State) : State :=
  let s := s.put R.LDG_STAT_FAILED (s.get R.PWR_KA_LDG_FAIL)
  let s := s.put R.LDG_STAT_PFW_MODE (b2n s.pwr.warn)
  let s := (List.range 4).foldl (fun s r => s.ldgHead r) s
  if s.is R.WCH_STAT_FS124 then s.fsAssert 124 else s

/-- Every domain except KA and WCH is reset. `soft`: by a start of causes 3–6; `porst`: by PORST_N, with the WCH block too. -/
def State.domainsReset (s : State) (soft porst : Bool) : State :=
  let w := if porst then [] else s.regs.filter fun e => e.1 / 0x10000 = 0x4013
  let b : State := { State.reset with
    tb := s.tb, hlt := { tests := List.replicate 8 { from_ := s.tb } }, twn := { downAt := [s.tb, s.tb] }, regs := w, mem := s.mem
    rows := s.rows, drawn := s.drawn, isle := s.isle, pins := { jtag := s.pins.jtag }, ldg := s.ldg.restart
    fltPins := s.fltPins.map fun p => { level := p.level, since := s.tb }
    pwr := { s.pwr with start := none, confirmed := false, confirmAt := none, wdogAt := none, fails := 0, image := none } }
  let b := (kaFields ++ if soft then softFields else []).foldl (fun b f => b.put f (s.get f)) b
  let b := b.put R.HLT_LIFE (match s.newestCell with | some c => c.life | none => 0)
  -- a pad that Naylo drove goes to its pull-down, the others stay as they stand outside
  let b := b.put R.PIN_GPIO_IN ((List.range 24).foldl (fun m n =>
    m + if bit (s.get R.PIN_GPIO_IN) n && !bit (s.get R.PIN_GPIO_OE) n then 2 ^ n else 0) 0)
  b.showKept

/-- OPSEC settled to now, after `more` sub-ticks that TB did not count. -/
def State.opsecSettle (s : State) (more : Nat) : State :=
  if !s.is R.PWR_STAT_MPG then s.upPwr fun p => { p with opTb := s.tb }
  else
    let n := s.pwr.opSub + 65536 * (s.refTime (s.tb - s.pwr.opTb) + more)
    s.upPwr fun p => { p with opBase := (p.opBase + n / second) % 2 ^ 48, opSub := n % second, opTb := s.tb }

/-- TB returns to 0, after `more` sub-ticks that it did not count. -/
def State.tbZero (s : State) (more : Nat) : State :=
  let s := s.opsecSettle more
  { s with tb := 0, marks := [], isle := { s.isle with off := s.isle.off + s.tb + more }, pwr := { s.pwr with opTb := 0 } }

/-- A word's value after a warm start, field by field (R346). -/
def RegHit.warmWord (h : RegHit) (old : Nat) : Nat :=
  h.desc.fields.foldl (fun a f =>
    let m := bits ((2 ^ f.width - 1) <<< f.lsb) (32 * h.word) 32
    let v (x : Nat) : Nat := bits (x <<< f.lsb) (32 * h.word) 32
    a + match f.warm with
      | .kept => old &&& m
      | .reset => v (f.resetOf h.inst)
      | .val n => v n) 0

/-- The registers after a warm start. -/
def State.warmRegs (s : State) : State :=
  let w (e : Nat × Word) : Nat × Word := match findReg e.1 with
    | some h => (e.1, BitVec.ofNat 32 (h.warmWord e.2.toNat))
    | none => e
  { s with regs := (s.regs.map w).filter fun e => e.2 ≠ resetWord e.1 }

/-- The network unit (R224): only pinned Commons entries and the sequence counters are kept. -/
def Net.warm (n : Net) : Net :=
  { bcnSeq := n.bcnSeq, supvSeq := n.supvSeq, supvAt := n.supvAt, gens := n.gens
    peers := (n.peers.filter (·.2.pinned)).map fun (i, p) => (i, { p with stale := true, unheard := true }) }

/-- An ADC group after a warm start: its presentation, mode and last words stay, and its calibration begins anew (R60). -/
def AdcGroup.warm (a : AdcGroup) (now : Nat) : AdcGroup :=
  { se := a.se, fmt := a.fmt, pres := a.pres, watchOn := a.watchOn, settle := a.settle, vprev := a.vprev, starve := now }
/-- A screen chain after a warm start: its stages keep their histories. -/
def Chain.warm (c : Chain) : Chain := { c with outs := 0, ins := 0, resetAt := none }

/-- Whether an asserted fault source stays asserted over a warm start: a FLT pin, a latched desaturation until DSCLR
(R192), a faulted engine (R97), a loss of lock until SWITCH_PLL (R329), the island, a divergence lost (R256). -/
def State.staysOn (s : State) (src : Nat) : Bool :=
  src < 16 || src = 124 || src = 125 || src = 126 ||
  (48 ≤ src && src < 96 && bit (s.get (R.LNE_LN_DESAT_LATCHED ((src - 48) / 4))) (src % 4)) ||
  (116 ≤ src && src < 124 && s.is (R.CE_FAULT (s.phys (src - 116))))

/-- The fault sources after a warm start: those whose condition is gone release, the others show on. -/
def State.warmSources (s old : State) : State :=
  (List.range 128).foldl (fun s k =>
    if !old.fsOn k then s
    else
      let s := s.put (R.FMX_SRC_STAT (k / 32)) (withBit (s.get (R.FMX_SRC_STAT (k / 32))) (k % 32) true)
      if old.staysOn k then s else s.fsRelease k) s

/-- A channel after a warm start: a latched desaturation and its strikes stay (R192; the strikes are DESIGN CHOICE, log entry
126). -/
def State.warmChan (s : State) (ch : Nat) (c : Chan) : Chan :=
  if bit (s.get (R.LNE_LN_DESAT_LATCHED (ch / 4))) (ch % 4) then { strikes := c.strikes, desatAt := c.desatAt }
  else { strikes := c.strikes }

/-- The pulse groups and lanes after a warm start: holds stay, the lanes stop, and the groups that are enabled start anew. -/
def State.warmPulses (s old : State) : State :=
  let s := { s with
    chans := s.chans.zipIdx.map (fun (c, ch) => s.warmChan ch c), lanes := List.replicate 12 {}
    groups := s.groups.map fun (g : PwmGroup) => { holds := g.holds.filter (!·.mute), act := g.act } }
  let s := (List.range 12).foldl (fun s l => s.put (R.LNE_LN_DESAT_ACTIVE l) (s.get (R.LNE_LN_DESAT_LATCHED l))) s
  let s := (List.range 8).foldl (fun s g =>
    let s := if (s.group g).act ≠ 0 then (s.holdGroup g).showGroup g else s
    s.groupFollow g s.tb) s
  (List.range 16).foldl (fun s k => s.fltJudge k) (s.warmSources old)

/-- The servos that are enabled go to ACQUIRE with the y they had (R239). -/
def State.warmServos (s : State) : State :=
  let s := { s with doms := s.doms.map fun d => { y := d.y, fell := d.fell }, pdelays := State.reset.pdelays }
  [0, 1].foldl (fun s d =>
    if s.is R.TSU_CTL_EN && s.is (R.TSU_TD_CFG_EN d) then s.setTd d tdAcquire else s) s

/-- What a warm start does to the registers and the units (R346; the Warm columns): every domain except KA, WCH and DBG. TB
counts on, on the DLL. -/
def State.warmReset (s : State) : State :=
  let old := s
  let s := (s.opsecSettle 0).warmRegs
  let s := (s.put R.PIN_GPIO_IN (old.get R.PIN_GPIO_IN)).put R.PWR_RAIL (old.get R.PWR_RAIL)
  let s := (s.put R.SYS_UID (old.get R.SYS_UID)).put R.SYS_KEYREV (old.get R.SYS_KEYREV)
  let s := s.put R.PWR_KA (old.get R.PWR_KA)
  let s := (List.range 4).foldl (fun s a => s.set1 (R.ADC_STAT_READY a)) s
  let s := { s with
    resp := {}, holding := [], move := none, trks := State.reset.trks, ldg := s.ldg.restart, net := s.net.warm
    engs := s.engs.map fun (e : Engine) => { initNext := e.initNext, midrun := e.midrun }, mld := { own := s.mld.own }, pins := { jtag := s.pins.jtag }
    adcs := s.adcs.map (fun (a : AdcGroup) => a.warm s.tb), chains := s.chains.map Chain.warm
    scr := { armed := s.scr.armed }, twn := { delta := true, downAt := [s.tb, s.tb] }
    clk := { dly := s.clk.dly, lost := s.clk.lost }, hlt := { life := s.hlt.life, tests := List.replicate 8 { from_ := s.tb } }
    pwr := { s.pwr with start := none, confirmed := false, wdogAt := none } }
  let s := if old.fsOn 124 then s.put (R.FMX_SRC_STAT 3) (2 ^ 28) else s
  let s := s.showKept.showUart.warmServos
  let s := (List.range 64).foldl (fun s w => s.winConfig w) s
  let s := (List.range 4).foldl (fun s p => s.trkConfig p) s
  let s := s.quadConfig.warmPulses old
  let s := (if s.is R.TWN_CTL_EN then s.goJoining else s).loadEnd.settleLanes
  (List.range 32).foldl (fun s c => if old.gleanState c = gleanRun then s.gleanHalt c 9 (s.get (R.GLN_GC_FADDR c)) else s) s

/-! ### Main power and the reset pins (R334, R336, R339–R341) -/

/-- Memory that main power keeps: everything but the nonvolatile die. -/
def State.dropVolatile (s : State) : State :=
  let nv (a : Nat) : Bool := 0x90000000 ≤ a && a < 0x98000000
  { s with mem := s.mem.filter fun e => nv e.1, rows := s.rows.filter fun r => nv r.addr }

/-- MPG_FALL; `rails` shows which rails are still good. From here every domain except KA and WCH is held in reset. -/
def State.mpgFall (s : State) (rails : Nat) : State :=
  if !s.is R.PWR_STAT_MPG then s
  else
    let low := s.is R.PWR_KA_VKA_LOW
    let offt := s.is R.PWR_CFG_OFFT_EN
    let s := s.ldgTorn.tbZero 0
    let s := ((s.clr R.PWR_STAT_MPG).put R.PWR_RAIL rails).dropVolatile
    let s := s.upPwr fun p => { p with lost := p.lost || low, off := true, offt := offt, warn := false, due := none }
    s.domainsReset false false
def execMpgFall (t rails : Nat) (s : State) : Out := actReset Part.all (s.is R.PWR_STAT_MPG) t s fun s => s.mpgFall rails

/-- The keep-alive domain from the mirror (R339). -/
def State.restoreKa (s : State) : State :=
  let s := (List.range 16).foldl (fun s j => s.clr (R.PWR_RET j)) (s.clr R.PWR_OFFSEC)
  let c := s.newestCell.getD { seq := 0, clean := false, opsec := 0, cycles := 0, boot := 0, failT0 := 0, ldgFail := false, offsec := 0, life := 0 }
  let add := if s.newestCell.isNone then 0 else if c.clean then 65536 else 3600 * 65536
  let s := ((s.put R.PWR_CYCLES c.cycles).put R.PWR_BOOTREC c.boot).put R.PWR_FAILT0 c.failT0
  let s := ((s.put R.PWR_KA_LDG_FAIL (b2n c.ldgFail)).set1 R.PWR_KA_RESTORED).put R.PWR_KA_CLEAN (b2n c.clean)
  s.upPwr fun p => { p with opBase := (c.opsec + add) % 2 ^ 48, opSub := 0, restored := some (c.seq, c.clean) }

/-- MPG_RISE: `crcOk` says that the keep-alive CRC-8 holds, `off` for how many whole seconds main power was absent, `rails`
whether VDD_W and VKA are good, `xtal` whether the 32.768 kHz crystal runs. -/
def State.mpgRise (s : State) (crcOk : Bool) (off rails : Nat) (xtal : Bool) : State :=
  if s.is R.PWR_STAT_MPG then s
  else
    let loss := s.pwr.lost || !crcOk
    let s := s.tbZero 0
    let s := (s.put R.PWR_OFFSEC (s.get R.PWR_OFFSEC + if s.pwr.offt && xtal then off else 0)).put R.PWR_KA_XTAL_OK (b2n xtal)
    let s := (s.clr R.PWR_KA_RESTORED).clr R.PWR_KA_CLEAN
    let s := if loss then s.restoreKa else s
    let s := (s.bump R.PWR_CYCLES).clr R.HLT_REPLACE
    let s := s.put R.HLT_LIFE (match s.newestCell with | some c => c.life | none => 0)
    let s := (s.set1 R.PWR_STAT_MPG).put R.PWR_RAIL (0xFB ||| (rails &&& 0x104))
    let due := if s.pwr.porst || s.pwr.testMode then none else some 1
    s.upPwr fun p => { p with lost := false, off := false, rose := p.porst, due := due, dueAt := 0 }
def execMpgRise (t : Nat) (crcOk : Bool) (offsec rails : Nat) (xtal : Bool) (s : State) : Out :=
  actReset [.pwr, .hlt, .wch] (!s.is R.PWR_STAT_MPG) t s fun s => s.mpgRise crcOk offsec rails xtal

/-- PORST_N_ASSERT: a low pulse that is taken. -/
def State.porstAssert (s : State) : State :=
  let s := s.tbZero 0
  let s := s.upPwr fun p => { p with porst := true, testMode := false, rose := false, due := none }
  (s.domainsReset false true).isleReset
def execPorstNAssert (t : Nat) (s : State) : Out := actReset Part.all true t s State.porstAssert

/-- A failed start is recorded (R348). -/
def State.recordFailure (s : State) : State :=
  let now := s.opsec / 65536
  let s := if s.get R.PWR_BOOTREC_ATTEMPTS = 0 || 600 < now - s.get R.PWR_FAILT0 then
      (s.put R.PWR_BOOTREC_ATTEMPTS 1).put R.PWR_FAILT0 now
    else s.put R.PWR_BOOTREC_ATTEMPTS (min (s.get R.PWR_BOOTREC_ATTEMPTS + 1) 7)
  s.clr R.PWR_BOOTREC_PENDING

/-- A cause of a start that is to begin; what was to begin or in progress ends. -/
def State.startDue (s : State) (cause : Nat) : State :=
  s.upPwr fun p => { p with start := none, due := some cause, dueAt := s.tb }

/-- PORST_N_RELEASE, after `held` sub-ticks: a start of cause 2, or of cause 1 where main power rose meanwhile. With
TESTMODE high Naylo does not start, also where main power rises later (R383). An EXTEST ends with PORST_N low (R384). -/
def State.porstRelease (s : State) (held : Nat) (testMode : Bool) : State :=
  if !s.pwr.porst then s
  else
    let rose := s.pwr.rose
    let s := (s.tbZero held).upPwr fun p => { p with porst := false, testMode := testMode, rose := false }
    let s := { s.upIsle (fun i => { i with sealAt := s.wt }) with pins := { s.pins with jtag := tapLoad s.pins.jtag false } }
    if testMode || !s.is R.PWR_STAT_MPG then s
    else if rose then s.startDue 1
    else (if s.is R.PWR_BOOTREC_PENDING then s.recordFailure else s).startDue 2
def execPorstNRelease (t held : Nat) (testMode : Bool) (s : State) : Out := actReset [.pwr, .wch, .pin] s.pwr.porst t s fun s => s.porstRelease held testMode

/-! ### Warm causes (R341) -/

/-- A warm cause counts only after the ready point. -/
def State.warmTaken (s : State) : Bool := s.is R.PWR_STAT_READY && s.pwr.due.isNone
def State.warmIgnored (s : State) : State := (s.bump R.PWR_CNT_WARM_IGN).set1 R.PWR_INT_STAT_WARM_IGN
def State.warmCause (s : State) (cause : Nat) : State := if s.warmTaken then s.startDue cause else s.warmIgnored

/-- WRST_N_ASSERT: every domain except KA, WCH and DBG is held in reset; only TB counts on. A start in progress waits, and then
goes through its steps anew but for steps 1, 3 and 8, whose results the reset leaves (DESIGN CHOICE, log entry 180). -/
def State.wrstAssert (s : State) : State :=
  if s.held then s.upPwr fun p => { p with wrst := true }
  else
    let n := s.warmReset.upPwr fun p => { p with wrst := true }
    match s.pwr.start with
    | none => n
    | some r => (n.upPwr fun p => { p with start := some { r with ended := r.ended.filter [1, 3, 8].contains } }).put
        R.PWR_STAT_STEP (if r.ended.contains 1 then 2 else 1)
def execWrstNAssert (t : Nat) (s : State) : Out := actReset Part.all false t s State.wrstAssert

/-- WRST_N_RELEASE: cause 7, ignored while a start is to begin or has not reached its ready point. -/
def State.wrstRelease (s : State) : State :=
  if !s.pwr.wrst then s
  else
    let s := s.upPwr fun p => { p with wrst := false }
    if s.pwr.off || s.pwr.porst || s.pwr.testMode then s
    else if s.pwr.due.isSome || s.pwr.start.isSome then s.warmIgnored
    else s.startDue 7
def execWrstNRelease (t : Nat) (s : State) : Out := actHeld [.pwr] t s State.wrstRelease

end Sys2Proof.Machine
end

