-- ==== Sys2Proof/Machine/Start.lean ====
section
/-!
DEFINITION. Cold and warm starts, the start record and the golden image, the watchdog (chapter 17, R342–R351).
-/

namespace Sys2Proof.Machine

/-! ### Commands (R347, R349–R351) -/

/-- A cold cause that records a failure while a start is unconfirmed (Table 17-4). -/
def State.coldCause (s : State) (cause : Nat) : State :=
  (if s.is R.PWR_BOOTREC_PENDING then s.recordFailure else s).startDue cause

/-- PWR_CMD.WARM, COLD, BOOT_OK, GOLDEN_CLR and KICK. -/
def State.cmdWarm (s : State) (key : Nat) : State := if key % 256 = 0xA5 then s.warmCause 8 else s
def State.cmdCold (s : State) (key : Nat) : State := if key % 256 = 0xA5 then s.coldCause 3 else s
/-- A command of a core, which is in reset while its domain is held. -/
def actCore (t : Nat) (s : State) (f : State → State) : Out := act [.pwr] t s fun s => if s.held then s else f s
def execWarm (t key : Nat) (s : State) : Out := actCore t s fun s => s.cmdWarm key
def execCold (t key : Nat) (s : State) : Out := actCore t s fun s => s.cmdCold key

/-- The confirmation time, sub-ticks. -/
def State.confirmTime (s : State) : Nat := second * max 1 (s.get R.PWR_CFG_CONFIRM_T)

def State.bootOk (s : State) : State :=
  let late := match s.pwr.confirmAt with | some x => decide (x + s.confirmTime ≤ s.tb) | none => false
  if !s.warmTaken || late then s
  else
    let s := (s.clr R.PWR_BOOTREC_PENDING).put R.PWR_BOOTREC_ATTEMPTS 0
    s.upPwr fun p => { p with confirmed := true, confirmAt := none }
def execBootOk (t : Nat) (s : State) : Out := actCore t s State.bootOk

def State.goldenClr (s : State) (key : Nat) : State :=
  if key % 256 = 0xA5 && s.pwr.confirmed then s.clr R.PWR_BOOTREC_GOLDEN else s
def execGoldenClr (t key : Nat) (s : State) : Out := actCore t s fun s => s.goldenClr key

def State.kick (s : State) : State := s.upPwr fun p => { p with wdogAt := p.wdogAt.map fun _ => s.tb }
def execKick (t : Nat) (s : State) : Out := actCore t s State.kick

/-- CONFIRM_EXPIRY. -/
def State.confirmExpiry (s : State) : State :=
  match s.pwr.confirmAt with
  | some x =>
    if s.tb < x + s.confirmTime then s
    else (s.recordFailure.upPwr fun p => { p with confirmAt := none }).startDue 4
  | none => s
def execConfirmExpiry (t : Nat) (s : State) : Out := act [.pwr] t s State.confirmExpiry

/-- WATCHDOG_EXPIRY. -/
def State.watchdogExpiry (s : State) : State :=
  let n := s.get R.PWR_CFG_WDOG_T
  match s.pwr.wdogAt with
  | some x => if n = 0 || s.tb < x + 16000000 * n then s else s.warmCause 9
  | none => s
def execWatchdogExpiry (t : Nat) (s : State) : Out := actCore t s State.watchdogExpiry

/-! ### The beginning of a start -/

/-- The causes raised inside the device wait until the Ledger's queue has drained, for at most 340 µs (R360). -/
def State.drained (s : State) : Bool := s.ldg.queue.isEmpty || s.pwr.dueAt + 5440000 ≤ s.tb

/-- The boot source (R343, R349). -/
def State.bootSource (s : State) : State :=
  let g := b2n Config.goldenSlot
  let many := 3 ≤ s.get R.PWR_BOOTREC_ATTEMPTS
  if s.is R.PWR_BOOTREC_GOLDEN then
    let s := (s.set1 R.PWR_STAT_GOLDEN_BOOT).put R.PWR_STAT_BOOTSRC (if many then 3 else g)
    (s.put R.PWR_STAT_DOWNLOAD (b2n many)).hltReason 9
  else if many then
    let s := (s.set1 R.PWR_BOOTREC_GOLDEN).put R.PWR_BOOTREC_ATTEMPTS 0
    ((s.set1 R.PWR_STAT_GOLDEN_BOOT).put R.PWR_STAT_BOOTSRC g).hltReason 9
  else
    let b := s.get R.PWR_STRAP_BOOT
    (s.put R.PWR_STAT_BOOTSRC b).put R.PWR_STAT_DOWNLOAD (b2n (b = 3))

/-- The straps' defaults (R34, R204, R244); `ovr` is the override of TWIN_EN (R407). -/
def State.strapDefaults (s : State) (ovr : Option Nat) : State :=
  let s := (s.put R.TWN_CTL_EN (ovr.getD (s.get R.PWR_STRAP_TWIN_EN))).put R.TWN_STAT_ROLE (s.get R.PWR_STRAP_ROLE)
  let s := [R.NET_DEVMAC_HI, R.NET_DEVMAC_LO, R.NET_PAIRMAC_HI, R.NET_PAIRMAC_LO].foldl
    (fun s f => s.put f (s.resetOf f.addr)) s
  let s := (s.tdEnable 0).tdEnable 1
  if s.is R.TWN_CTL_EN then s.goJoining else s

/-- A start goes into progress. -/
def State.startRun (s : State) (cold : Bool) (cause began : Nat) (ended : List Nat) : State :=
  let s := (s.put R.PWR_CAUSE cause).put R.PWR_STAT_STEP (if cold then 1 else 2)
  s.upPwr fun p => { p with due := none, confirmed := false, start := some { cold := cold, began := began, ended := ended } }

/-- Whether no pin or supply holds the domains in reset. -/
def State.released (s : State) : Bool := !s.pwr.off && !s.pwr.porst && !s.pwr.wrst && !s.pwr.testMode

/-- COLD_START: it begins, once no pin or supply holds the domains. The straps, as PWR_STRAP shows them, are sampled 20 µs
after the pin's release or the rise of main power, and only for causes 1 and 2; the NODE_ID pins are GPIO0–GPIO5, whose pads
show the level (R380). A restore of the keep-alive domain is recorded (R360). -/
def State.coldStart (s : State) (straps : Nat) : State :=
  match s.pwr.due with
  | none => s
  | some c =>
    let hard := c ≤ 2
    let ready := if hard then s.is R.PWR_STAT_MPG && s.pwr.dueAt + 320000 ≤ s.tb else s.drained
    if 6 < c || !s.released || !ready then s
    else
      let ovr := if s.is R.SYS_STRAPOVR_EN then some (s.get R.SYS_STRAPOVR_TWIN_EN) else none
      let s := (s.opsecSettle 0).domainsReset (!hard) false
      let s := if hard then
          (s.put R.PWR_STRAP (straps % 1024)).put R.PIN_GPIO_IN (64 * bits (s.get R.PIN_GPIO_IN) 6 18 + bits straps 4 6)
        else s
      let began := if hard then s.pwr.dueAt else s.tb
      let s := (s.startRun true c began []).strapDefaults ovr
      let s := match s.pwr.restored with
        | some (q, clean) =>
          let k := s.drawn
          let s := { s with drawn := k + 1, pwr := { s.pwr with restored := none } }
          (s.ldgPost 2 0x01 (Config.freeByte k 0).toNat 0x14 0 (leBytes 4 q ++ leBytes 1 (b2n clean))).set1 R.PWR_INT_STAT_RESTORED
        | none => s
      s.bootSource.set1 R.PWR_BOOTREC_PENDING
def execColdStart (t straps : Nat) (s : State) : Out := actReset Part.all false t s fun s => s.coldStart straps

/-- What the domains find as WRST_N lets them go: the warning, the island's request and the fault pins as they stand now. -/
def State.leaveHold (s : State) : State :=
  let s := s.showKept.fsSet 124 (s.is R.WCH_STAT_FS124)
  ((List.range 16).foldl (fun s k => s.fltJudge k) s).settleLanes

/-- WARM_START: it begins. Steps 1, 3, 8 and 10 are skipped. -/
def State.warmStart (s : State) : State :=
  match s.pwr.due with
  | none => s
  | some c =>
    if c < 7 || !s.released || c ≠ 7 && !s.drained then s
    else
      let began := if c = 7 then s.pwr.dueAt else s.tb
      let s := if c = 7 then s.leaveHold else s.warmReset
      (s.startRun false c began [1, 3, 8, 10]).bump R.PWR_CNT_WARMS
def execWarmStart (t : Nat) (s : State) : Out := actReset Part.all false t s State.warmStart

/-- A start step fails fatally (R344). -/
def State.stepFail (s : State) (step : Nat) : State :=
  match s.pwr.start with
  | none => s
  | some r =>
    let s := s.put R.PWR_STAT_STEP_ERR step
    if r.cold then s.recordFailure.startDue 5 else s.coldCause 6

/-! ### What a step does as it ends (Table 17-6) -/

/-- Step 3: every cell has been written and read, the last time as 0, and the spare maps follow the findings (R308). -/
def State.marchEnd (s : State) (fails : List (Nat × Nat)) : State :=
  let s := ((s.fillZero 0x60000000 0x80000).fillZero 0x70000000 0x200000).fillZero 0x80000000 0x3000000
  fails.foldl (fun s f =>
    if 111 < f.1 then s
    else match s.freeSpare f.1 with
      | some k => (s.put (if k = 0 then spareF f.1 0 7 else spareF f.1 8 7) f.2).set1 (if k = 0 then spareF f.1 7 1 else spareF f.1 15 1)
      | none => (s.set1 R.SWP_INT_STAT_NO_SPARE).hltReason 4) s

/-- Step 5, cold: an image that passes its checks stands in main banks, with PWR's record of it (R370). -/
def State.fwLoad (s : State) (img : List Byte) : State :=
  let at_ := leAt img 0x18 4
  let body := slice img 64 (leAt img 8 4 - 132)
  (s.writeBytes at_ body).upPwr fun p => { p with image := some (at_, body.length, crc32 body) }

/-- Step 5: the state after it, and whether it has ended (1), failed (2) or goes on (0). -/
def State.fwStep (s : State) (cold : Bool) (img : List Byte) : State × Nat :=
  if !cold then
    match s.pwr.image with
    | some (a, n, c) => (s, if crc32 (s.readBytes a n) = c then 1 else 2)
    | none => (s, 2)
  else
    let src := s.get R.PWR_STAT_BOOTSRC
    let good (x : List Byte) (room : Nat) : Bool := s.fwCheckImage x room = 0
    if src = 2 then (if good img img.length then (s.fwLoad img, 1) else (s, 2))
    else if src = 3 then (if good img img.length then (s.fwLoad img, 1) else (s, 0))
    else if good (s.fwStored src) 0x1000000 then (s.fwLoad (s.fwStored src), 1)
    else if s.is R.PWR_STAT_GOLDEN_BOOT then ((s.put R.PWR_STAT_BOOTSRC 3).set1 R.PWR_STAT_DOWNLOAD, 0)
    else if good (s.fwStored (1 - src)) 0x1000000 then ((s.put R.PWR_STAT_BOOTSRC (1 - src)).fwLoad (s.fwStored (1 - src)), 1)
    else (s, 2)

/-- Step 6, cold: every slice's calibration under the limits of R51; the rotation starts with SL8 free (R60), or with no free
slice where one is retired. A rejection here retires at once; it sets no CAL_FAIL and counts no FAILS (DESIGN CHOICE, log
entry 119). -/
def State.foreground (s : State) (cal : List (Int × Int × Int × Int)) : State :=
  (List.range 4).foldl (fun s a =>
    let s := s.put (R.ADC_STAT_FREE a) (if s.is (R.ADC_STAT_RETIRED a) then 15 else 8)
    let s := (List.range 9).foldl (fun s k =>
      let (off, gain, skew, bw) := cal.getD (9 * a + k) (0, 0, 0, 0)
      if calOk off gain skew bw then s.calStore a k off gain skew bw
      else if bit (s.get (R.ADC_STAT_RETIRED a)) k then s else s.retire a k) s
    let s := (s.set1 (R.ADC_STAT_READY a)).upAdc a fun x => { x with starve := s.tb }
    s.calRestart a) s

/-- Step 7, cold: the slot that R35 chooses, if any. -/
def State.mouldStep (s : State) (psOk : Bool) : State :=
  let s := ((List.range 4).foldl (fun s k => s.showSlot k (s.slotValid k)) s).clr R.MLD_STAT_BUSY
  match s.startSlot with
  | some k => (s.loadImage k psOk).ldgPostFree 2 0x03 k
  | none => (s.put R.MLD_STAT_STATE 0).loadEnd

/-- Whether a warm start keeps a loaded sheet: its slot still holds the image, and no uncorrectable error stands against its
engine's memory. -/
def State.keepsSheet (s : State) (sheet : Nat) : Bool :=
  let k := s.get (R.MLD_SH_SRC_SLOT sheet)
  let img := s.slotImage k
  s.slotMagic k && leAt img 0x1C 4 = s.get (R.MLD_SL_SERIAL k) && crc32 (img.take (imgLen img - 68)) = leAt img (imgLen img - 68) 4 &&
  !(isEngSheet sheet && s.is (R.CE_FAULT_ECC (s.phys (sheet - 1))))

/-- Step 7, warm: sheets that cannot be kept are loaded again, all of them where SH0 cannot; command records are skipped. A
sheet for which there is no image is unloaded, so that its group is blocked and its engine stays stopped. -/
def State.mouldKeep (s : State) (psOk : Bool) : State :=
  let all := s.sheetLoaded 0 && !s.keepsSheet 0
  let due := loadOrder.filter fun n => s.sheetLoaded n && (all || !s.keepsSheet n)
  let s := s.clr R.MLD_STAT_BUSY
  if due.isEmpty then s
  else
    let s := (List.range 4).foldl (fun s k => s.showSlot k (s.slotValid k)) s
    match s.startSlot with
    | none =>
      let s := (due.foldl (fun s n => s.unloadSheet n) s).refreshPaired
      (if all then s.put R.MLD_STAT_STATE 0 else s).loadEnd
    | some k =>
      let img := s.slotImage k
      let s := due.foldl (fun s n =>
        if !bit (leAt img 0x22 2) n then s.unloadSheet n
        else if n = 10 && !s.sealOn then (s.unloadSheet n).set1 R.MLD_STAT_SH10_SKIPPED
        else s.reloadSheet img k n false psOk) s
      s.refreshPaired.loadEnd.ldgPostFree 2 0x03 k

/-- Step 9 begins: every enabled lane trains, muted (R198). -/
def State.trainAll (s : State) : State :=
  (List.range 12).foldl (fun s l => if s.is (R.LNE_LN_CTL_EN l) then (s.mute l muteStart).trainStart l else s) s

/-- Step 10 begins: diagnostics on the lanes whose heads were SAFE. -/
def State.diagnoseAll (s : State) : State :=
  (List.range 12).foldl (fun s l =>
    if s.get (R.LNE_LN_STAT_STATE l) = laneUp && !(s.lane l).skip6 then s.diagStart l 0xF (max 1 (s.get R.PWR_CFG_DIAG_DUR)) else s) s

/-- The steps that must have ended before a step ends. -/
def stepAfter (step : Nat) : List Nat :=
  match step with
  | 2 => [1] | 3 => [1] | 4 => [1] | 6 => [1]
  | 5 => [1, 2, 3, 4]
  | 7 => [1, 2, 3, 4, 5, 6]
  | 9 => [1, 2, 3, 4, 5, 6, 7, 8]
  | 10 => [1, 2, 3, 4, 5, 6, 7, 8, 9]
  | _ => []

/-- Whether what a step waits for in the device has come: the PLL's lock, beside which steps 3, 4 and 6 run too, the island
out of START, lanes and diagnostics at rest. -/
def State.stepRipe (s : State) (ended : List Nat) (step : Nat) : Bool :=
  match step with
  | 2 => s.clkMode = clkLock
  | 3 | 4 | 6 => s.clkMode = clkLock || ended.contains 2
  | 8 => s.isleState ≠ isleStart
  | 9 => (List.range 12).all fun l => s.get (R.LNE_LN_STAT_STATE l) ≠ laneTraining
  | 10 => (List.range 12).all fun l => (s.lane l).diag.isNone
  | _ => true

/-- The step in progress: the lowest that has not ended. -/
def StartRun.step (r : StartRun) : Nat := ((List.range 10).map (· + 1)).find? (fun k => !r.ended.contains k) |>.getD 10

/-- A start load begins (Table 2-8): BUSY shows it, and at a cold start STARTING. -/
def State.mouldBegins (s : State) (cold : Bool) : State :=
  let s := s.set1 R.MLD_STAT_BUSY
  if cold then s.put R.MLD_STAT_STATE 1 else s

/-- A step ends, and what waited for it begins. -/
def State.stepEnded (s : State) (r : StartRun) (step : Nat) : State :=
  let r' : StartRun := { r with ended := step :: r.ended }
  let s := (s.upPwr fun p => { p with start := some r' }).put R.PWR_STAT_STEP r'.step
  let s := if r.step < 7 && r'.step = 7 then s.mouldBegins r.cold else s
  if r.step < 9 && r'.step = 9 then s.trainAll
  else if r.cold && r.step < 10 && r'.step = 10 && r'.ended.contains 9 then s.diagnoseAll
  else s

/-- START_STEP_END. Steps 1, 2, 4 and 5 may fail fatally. -/
def State.startStep (s : State) (step : Nat) (ok : Bool) (f : StepFound) : State :=
  match s.pwr.start with
  | none => s
  | some r =>
    let fatal := !ok && (step = 1 || step = 2 || step = 4)
    if s.held || step = 0 || r.ended.contains step || !(stepAfter step).all r.ended.contains then s
    else if fatal then s.stepFail step
    else if !s.stepRipe r.ended step then s
    else match step with
      | 1 =>
        let s := (s.put R.SYS_UID f.uid).put R.SYS_KEYREV (f.keysMould % 16 + 16 * (f.keysFw % 16))
        s.stepEnded r 1
      | 3 => (s.marchEnd f.fails).stepEnded r 3
      | 4 => (if f.ecc then s.hltReason 7 else s).stepEnded r 4
      | 5 =>
        let (s, res) := s.fwStep r.cold f.img
        if res = 1 then s.stepEnded r 5 else if res = 2 then s.stepFail 5 else s
      | 6 =>
        let s := if r.cold then s.foreground f.cal else (List.range 4).foldl (fun s a => s.calRestart a) s
        s.stepEnded r 6
      | 7 => (if r.cold then s.mouldStep f.psOk else s.mouldKeep f.psOk).stepEnded r 7
      | k => s.stepEnded r k
def execStartStepEnd (t step : Nat) (ok : Bool) (found : StepFound) (s : State) : Out :=
  laneUnit Part.all (step < 11) t s fun s => s.startStep step ok found

/-- START_TIMEOUT. -/
def State.startTimeout (s : State) : State :=
  match s.pwr.start with
  | none => s
  | some r =>
    let waits := r.cold && s.is R.PWR_STAT_DOWNLOAD && r.step = 5
    if waits || s.tb < r.began + (if r.cold then 2 * second else 1600000000) then s else s.stepFail r.step
def execStartTimeout (t : Nat) (s : State) : Out := act [.pwr] t s State.startTimeout

/-- READY_POINT (R345): the start is over; `ok` says that the mirror write of a cold start reads back. CYCLE-class holds
whose sources did not come back end now, and triggers skip what passed. -/
def State.readyPoint (s : State) (ok : Bool) : State :=
  match s.pwr.start with
  | none => s
  | some r =>
    if s.held || !((List.range 10).all fun k => r.ended.contains (k + 1)) then s
    else
      let s := (s.set1 R.PWR_STAT_READY).set1 R.PWR_INT_STAT_READY
      let s := (s.put R.PWR_READYT ((s.tb - r.began) / 16000)).put R.PWR_STAT_STEP 15
      let s := s.upPwr fun p => { p with
        start := none, wdogAt := some s.tb, confirmAt := if r.cold then some s.tb else p.confirmAt }
      let s := (List.range 8).foldl (fun s i =>
        if s.sheetLoaded (i + 1) && !s.quiesceHeld (i + 1) then s.sheetStart (i + 1) else s) s
      -- the mute of step 9 ends; a pair keeps its own (R260)
      let s := (List.range 12).foldl (fun s l => s.unmute l muteStart) s
      let s := if s.is R.TWN_CTL_EN && s.twState ≤ twStandby then s else s.unmuteAll
      if r.cold then s.mirrorWrite false ok
      else
        let s := (List.range 16).foldl (fun s k => s.ttSkip k) s
        (List.range 8).foldl (fun s g => s.dropHolds g fun h => s.fsLatch h.src && h.act ≠ 1 || s.fsOn h.src) s
def execReadyPoint (t : Nat) (ok : Bool) (s : State) : Out := laneAct [.pwr, .mld, .ce, .pwm, .fmx, .lne, .tsu, .twn, .ldg, .hlt] t s fun s => s.readyPoint ok

end Sys2Proof.Machine
end

