-- ==== Sys2Proof/Machine/RegWrite.lean ====
section
/-!
DEFINITION. Accesses to the register space (R7–R12): command registers, journaled registers (R249, R250), plain ones, and
reads with what they set off.
-/

namespace Sys2Proof.Machine

/-! ### Command registers -/

/-- PWR_CMD: BOOT_OK, GOLDEN_CLR and KICK act before a start that the same write begins; COLD goes before WARM. -/
def State.pwrCmd (s : State) (v : Nat) : State :=
  let key := bits v 8 8
  let s := if bit v 2 then s.bootOk else s
  let s := if bit v 3 then s.goldenClr key else s
  let s := if bit v 4 then s.kick else s
  if bit v 1 then s.cmdCold key else if bit v 0 then s.cmdWarm key else s

def State.mldCmdWrite (s : State) (v : Nat) : State :=
  let slot := bits v 8 2
  let sheet := bits v 16 4
  match bits v 0 4 with
  | 1 => s.mldProgram slot
  | 2 => s.mldBegin fun s => cmdOf 2 slot 0 [] (s.checkSlot slot)
  | 3 => s.mldBegin fun s => cmdOf 3 slot sheet (s.slotImage slot) (s.reloadCode slot sheet)
  | 4 => s.mldBegin fun s => cmdOf 4 slot 0 [] (s.withdrawCode slot)
  | 5 => s.mldStartLoad slot
  | _ => s

def State.bnkCmdWrite (s : State) (v : Nat) : State :=
  let b := bits v 0 7
  let who := bits v 8 4
  match bits v 16 3 with
  | 1 => s.bankRelease b who
  | 2 => s.bankClaim b who
  | 3 => s.bankGrant b who true
  | 4 => s.bankGrant b who false
  | 5 => s.bankRepair b (bits v 20 7)
  | _ => s

def State.cmnCmdWrite (s : State) (v : Nat) : State :=
  let i := bits v 0 10
  match bits v 16 3 with
  | 1 => s.commonsCmd i (·.commonsRead i)
  | 2 => s.commonsCmd i (·.commonsPin i true)
  | 3 => s.commonsCmd i (·.commonsPin i false)
  | 4 => s.commonsCmd i (·.commonsDelete i)
  | 5 => s.commonsCmd 0 State.commonsPreset
  | _ => s

def State.twnCmdWrite (s : State) (v : Nat) : State :=
  let s := if bit v 0 then s.handoverRequest 1 else s
  let s := if bit v 1 then s.joinStart else s
  if bit v 2 then s.leave else s

def State.fwCmdWrite (s : State) (v : Nat) : State :=
  let slot := bits v 8 1
  match bits v 0 2 with
  | 1 => s.fwProgram slot
  | 2 => s.fwCheck slot
  | 3 => s.fwIsland slot
  | _ => s

def State.ldgPortCmd (s : State) (p v : Nat) : State :=
  let s := if bit v 3 then s.clr (R.LDG_RP_STAT_OVERRUN p) else s
  match bits v 0 3 with
  | 1 => s.set1 (R.LDG_RP_STAT_BUSY p)
  | 2 => s.cursorCmd p (s.cursorPos p + 1)
  | 3 => s.cursorCmd p (s.ldg.wOf (s.cursorRing p) - 1)
  | 4 => s.cursorCmd p (s.ldg.oldest (s.cursorRing p))
  | _ => s

def State.glnCmdWrite (s : State) (c v : Nat) : State :=
  let s := if bit v 0 then s.gleanStart c none none else s
  let s := if bit v 1 then s.gleanResume c none none else s
  if bit v 2 then s.gleanStop c else s

/-- ADC_TCMD: START acts before an ABORT of the same write (DEDUCED, log entry 22). -/
def State.adcTcmdWrite (s : State) (a v : Nat) : State :=
  let s := if bit v 0 then s.testStart a else s
  if bit v 1 then s.testAbort a else s

def State.ceCmdWrite (s : State) (n v : Nat) : State :=
  let s := if bit v 0 then s.clr (R.CE_CYCLES_MAX n) else s
  if bit v 1 then s.traceTrigger n else s

/-- A write to a command register: its effect, or none for any other register. -/
def State.cmdWrite (s : State) (addr v : Nat) : Option State :=
  let off := addr % 0x10000
  match addr / 0x10000 with
  | 0x4002 => if off = 4 then some (s.pwrCmd v) else none
  | 0x4003 => if off = 4 then some (s.mldCmdWrite v) else none
  | 0x4004 => if off = 0 then some (s.bnkCmdWrite v) else none
  | 0x4006 => (unitIn addr 0x40061000 32 0x40).bind fun c => if addr % 0x40 = 4 then some (s.glnCmdWrite c v) else none
  | 0x4008 => if off % 0x4000 = 0x204 then some (s.adcTcmdWrite (off / 0x4000) v) else none
  | 0x4009 => if off = 8 then some (if bit v 0 then s.syncCommand else s) else none
  | 0x400A =>
    if addr = R.CE7_MOVE.addr then some (if bit v 8 then s.moveStart (bits v 0 3) else s)
    else if off % 0x2000 = 0x28 then some (s.ceCmdWrite (s.phys (off / 0x2000)) v)
    else if off % 0x2000 = 0x64 then some (s.stageWrite (s.phys (off / 0x2000)) v)
    else none
  | 0x400D => if off = 8 then some (s.gload v) else none
  | 0x400E => (findUnit 8 addr R.FMX_PG_CLR).map fun g => if bit v 0 then s.fmxClear g else s
  | 0x400F => (unitIn addr 0x400F0100 12 0x100).bind fun l =>
    match off % 0x100 with
    | 0x30 => some (s.desatClear l v)
    | 0x34 => some (if bit v 31 then s.diagStart l (bits v 0 4) (bits v 4 8) else s)
    | 0x4C => some (if bit v 31 then s.configSend l (bits v 0 8) (bits v 8 16) else s)
    | _ => none
  | 0x4010 =>
    if off = 0x1008 then some (s.cmnCmdWrite v)
    else (findUnit 2 addr R.NET_H_TXKICK).map fun h => if bit v 0 then s.upNet fun n => { n with tx := n.tx.set h true } else s
  | 0x4012 => if off = 0x1C then some (s.twnCmdWrite v) else none
  | 0x4014 =>
    if off = 0x10 then some (s.ldgClrWrite v)
    else if off = 0x404 then some (if bit v 0 then s.ldgGo else s)
    else (findUnit 4 addr R.LDG_RP_CMD).map fun p => s.ldgPortCmd p v
  | 0x4015 =>
    if off = 0x10 then some (if bit v 0 then s.hltReason 15 else s)
    else if off = 0x30 then some (s.fwCmdWrite v) else none
  | 0x4016 => (findUnit 4 addr R.IRQ_C_CLAIM).map fun k => s.irqComplete k v
  | 0x4017 => if off = 0x34 then some (s.uartTx v) else none
  | _ => none

/-! ### Writes (R7–R9, R11, R249, R250) -/

/-- The registers of the island's block that the main side may write (R295). -/
def wchWritable (addr : Nat) : Bool :=
  addr = R.WCH_INT_STAT.addr || addr = R.WCH_INT_EN.addr || addr = R.WCH_SREQ.addr || addr = R.WCH_PSCMD.addr ||
  addr = R.WCH_PSCRC.addr || 0x40131000 ≤ addr && addr < 0x40131400

/-- A word written where no journal takes part. The answer tells whether every field took the write. -/
def State.plainWrite (s : State) (addr v : Nat) : State :=
  if addr < 0x40000200 then s.okResp
  else if addr / 0x10000 = 0x4013 && !wchWritable addr then s.errResp
  else match s.okResp.cmdWrite addr v with
    | some s => s
    | none => let (s, ok) := s.storeWord addr v false; if ok then s.okResp else s.errResp

/-- A follower's own write to a journaled register is refused (R250). -/
def State.writeRefused (s : State) : State := ((s.bump R.TWN_CNT1_WR_REFUSED).set1 R.TWN_INT_STAT_WR_REFUSED).errResp

/-- The journal source records a write and holds it until its apply instant (R249). -/
def State.writeRecord (s : State) (who addr v : Nat) : State :=
  ((s.twSend (.write addr v s.tb)).holdRecord (.write (s.tb + s.applyDly) addr v who)).okResp

/-- The state an access to `addr` meets: the pulse units, lanes and interrupts are brought up to the present instant.
PWM_TB shows the timebase alone. -/
def State.freshFor (s : State) (addr : Nat) : State :=
  if addr / 8 = R.PWM_TB.addr / 8 then s
  else if [0x400D, 0x400E, 0x400F, 0x4016, 0x4017].contains (addr / 0x10000) then s.upToDate else s

/-- A word written to the register space by requester `who`. Of PWM_PGg_CTL only TRGEN is journaled: its other fields take
the write at once. -/
def State.wordWrite (s : State) (who addr v : Nat) : State :=
  let s := s.freshFor addr
  let source := s.is R.TWN_CTL_EN && s.is R.TWN_STAT_JSRC
  match findUnit 8 addr R.PWM_PG_CTL with
  | some g =>
    let old := s.get (R.PWM_PG_CTL_TRGEN g)
    if bits v 12 4 = old || !(s.twFollows || source) then s.plainWrite addr v
    else
      let s := s.plainWrite addr (setBits v 12 4 old)
      if s.twFollows then s.writeRefused else { (s.writeRecord who addr v) with resp := s.resp }
  | none =>
    if s.journaled addr && s.twFollows then s.writeRefused
    else if s.journaled addr && source then s.writeRecord who addr v
    else s.plainWrite addr v

/-- Whether an access fits the register space (R11): an aligned word, or an aligned 64-bit access of a core to a 64-bit
register. -/
def regAccessOk (who addr size : Nat) : Bool :=
  size = 4 && addr % 4 = 0 ||
  size = 8 && addr % 8 = 0 && who < 4 && (match findReg addr with | some h => h.desc.words = 2 && h.word = 0 | none => false)

/-- REGISTER_WRITE: a write of `size` bytes. An access outside the register space goes to the memories. -/
def State.registerWrite (s : State) (who addr size v : Nat) : State :=
  if !isReg addr then s.bankServe { who := who, addr := addr, size := size, write := true, atomic := false, value := v } 0 []
  else if !regAccessOk who addr size then s.errResp
  else if size = 4 then s.wordWrite who addr (v % 2 ^ 32)
  else
    let s := s.freshFor addr
    if s.journaled addr && s.twFollows then s.writeRefused
    else
    let s := s.wordWrite who addr (v % 2 ^ 32)
    let lowErr := s.resp.err
    let s := s.wordWrite who (addr + 4) (v / 2 ^ 32 % 2 ^ 32)
    if lowErr then s.errResp else s
def execRegisterWrite (t who addr size value : Nat) (s : State) : Out :=
  laneUnit Part.all (who < 48) t s fun s => s.registerWrite who addr size value

/-! ### Reads (R8, R12) -/

/-- A read of a register that mirrors a lane's newest status frame takes the frame as read (R20). -/
def State.laneRead (s : State) (addr : Nat) : State :=
  match unitIn addr 0x400F0100 12 0x100 with
  | some l =>
    let o := addr % 0x100
    if 0x20 ≤ o && o ≤ 0x28 || 0x80 ≤ o && o < 0xA0 then s.upLane l fun x => { x with unread := false } else s
  | none => s

/-- A word read by requester `who`: a holding copy it has of the word, or the register with what a read of it sets off. -/
def State.wordRead (s : State) (who addr : Nat) : State :=
  let s := (s.freshFor addr).laneRead addr
  match s.holding.find? fun h => h.who = who && h.addr = addr with
  | some h => ({ s with holding := s.holding.filter fun x => !(x.who = who && x.addr = addr) }).dataResp h.word
  | none =>
    match findUnit 256 addr R.SCR_TAP_VAL with
    | some tap => s.tapRead who tap
    | none => match findUnit 16 addr (fun i => R.ADC_SNAP_DATA (i / 4) (i % 4)) with
    | some i => s.snapRead who (i / 4) (i % 4)
    | none => match findUnit 4 addr R.IRQ_C_CLAIM with
    | some k => s.irqClaim k
    | none =>
      if addr = R.PIN_UART_RX.addr then s.uartRead
      else
        let v := s.readWord addr
        match findReg addr with
        | some h => if h.desc.words = 2 && h.word = 0 then (s.hold who (addr + 4) (s.readWord (addr + 4))).dataResp v else s.dataResp v
        | none => s.dataResp v

/-- LOW_WORD_READ_CAPTURE and every other read. A 64-bit read returns both halves of one instant and captures nothing. -/
def State.registerRead (s : State) (who addr size : Nat) : State :=
  if !isReg addr then s.bankServe { who := who, addr := addr, size := size, write := false, atomic := false, value := 0 } 0 []
  else if !regAccessOk who addr size then s.errResp
  else if size = 4 then s.wordRead who addr
  else
    let s := s.freshFor addr
    s.dataResp (s.readWord addr + 2 ^ 32 * s.readWord (addr + 4))
def execLowWordReadCapture (t who addr size : Nat) (s : State) : Out :=
  laneUnit [.bnk, .gln, .ce, .pwm, .fmx, .lne, .twn, .ldg, .hlt, .irq, .pin, .mem, .bus, .mst] (who < 48) t s fun s =>
    s.registerRead who addr size

end Sys2Proof.Machine
end

