-- ==== Sys2Proof/Machine/Burst.lean ====
section
/-!
DEFINITION. The Glean transfer engine: which channel it serves and one burst (R309–R313).
-/

namespace Sys2Proof.Machine

/-- The channel served next at priority `p`: the first in RUN after the one served last (R313). -/
def State.gleanAt (s : State) (p : Nat) : Option Nat :=
  let last := s.mst.served.getD p 31
  ((List.range 32).map fun i => (last + 1 + i) % 32).find? fun c => s.gleanState c = gleanRun && s.get (R.GLN_GC_CTL c) = p
def State.gleanNext (s : State) : Option Nat :=
  (s.gleanAt 3) <|> (s.gleanAt 2) <|> (s.gleanAt 1) <|> s.gleanAt 0

/-- Bytes from an address to the end of the nonvolatile die's range or of the register range it lies in. -/
def rangeLeft (addr : Nat) : Nat :=
  if isNv addr then 0x98000000 - addr else if isReg addr then 0x40180000 - addr else 2 ^ 32

/-- The bytes of the next burst (R310). -/
def State.burstLen (s : State) (c ctl : Nat) : Nat :=
  let src := s.get (R.GLN_GC_SRC c)
  let dst := s.get (R.GLN_GC_DST c)
  let rem := s.get (R.GLN_GC_REM c)
  if isReg src || isReg dst || bit ctl 0 || bit ctl 1 then
    min (min rem 4) (min (rangeLeft src) (rangeLeft dst))
  else min (min rem (64 - dst % 64)) (min (rangeLeft src) (rangeLeft dst))

/-- Bytes moved: the channel goes on past them. -/
def State.burstMoved (s : State) (c ctl n : Nat) : State :=
  let s := if bit ctl 0 then s else s.put (R.GLN_GC_SRC c) (s.get (R.GLN_GC_SRC c) + n)
  let s := if bit ctl 1 then s else s.put (R.GLN_GC_DST c) (s.get (R.GLN_GC_DST c) + n)
  let s := s.put (R.GLN_GC_REM c) (s.get (R.GLN_GC_REM c) - n)
  s.put (R.GLN_GC_BYTES c) ((s.get (R.GLN_GC_BYTES c) + n) % 2 ^ (R.GLN_GC_BYTES c).width)

/-- The bytes at the source, or none where a register answers with an error. Its own answer is not the command's. -/
def State.burstRead (s : State) (c addr n : Nat) : State × Option (List Byte) :=
  if isReg addr then
    let old := s.resp
    let s := s.registerRead (whoGlean c) addr n
    ({ s with resp := old }, if s.resp.err then none else some (leBytes n s.resp.data))
  else (s, some (s.readBytes addr n))

/-- The rows that a burst writes only in part are read first (R302). -/
def State.partRows (s : State) (addr n : Nat) : State :=
  let ends := (if addr % 8 = 0 then [] else [addr / 8 * 8]) ++
    (if (addr + n) % 8 = 0 || addr % 8 ≠ 0 && addr / 8 = (addr + n) / 8 then [] else [(addr + n) / 8 * 8])
  ends.foldl (fun s a => s.rowRead a (s.rowState a)) s

/-- The bytes written, and whether they were taken. -/
def State.burstWrite (s : State) (c addr : Nat) (bs : List Byte) : State × Bool :=
  if isReg addr then
    let old := s.resp
    let s := s.registerWrite (whoGlean c) addr bs.length (ofLe bs)
    ({ s with resp := old }, !s.resp.err)
  else (((s.l2Passed addr bs.length).partRows addr bs.length).writeBytes addr bs, true)

/-- One burst of channel `c` under the descriptor in progress. `lost` is a row of an exchange bank whose write meets another
one at the other port and, where CPORT is not the port that wins, is lost (R301): the rest of the burst is written, and the
channel stands at that row. -/
def State.burst (s : State) (c ctl next : Nat) (ue ce lost : Option Nat) : State :=
  let src := s.get (R.GLN_GC_SRC c)
  let dst := s.get (R.GLN_GC_DST c)
  let n := s.burstLen c ctl
  let (s, bad) := s.rangeCheck c src n false
  if bad ≠ 0 then s.gleanHalt c bad src
  else
    let (s, bad) := s.rangeCheck c dst n true
    if bad ≠ 0 then s.gleanHalt c bad dst
    else match s.gleanRows ue ce src n with
      | (s, some r) => s.gleanHalt c 4 r
      | (s, none) =>
        match s.burstRead c src n with
        | (s, none) => s.gleanHalt c 3 src
        | (s, some bs) =>
          let row := match lost with
            | some r => if (exchBank r).isSome && dst / 8 ≤ r / 8 && r / 8 ≤ (dst + (n - 1)) / 8 then some (r / 8 * 8) else none
            | none => none
          match row, exchBank dst with
          | some r, some x =>
            if s.get (R.BNK_XB_CFG_CPORT x) = s.get (R.BNK_XB_CFG_WIN x) then
              let s := (s.burstWrite c dst bs).1.burstMoved c ctl n
              if s.is (R.GLN_GC_REM c) then s else s.descEnd c ctl next
            else
            let keep := s.readBytes r 8
            let before := max r dst - dst
            let s := (s.burstWrite c dst bs).1
            -- bytes of the lost row that the burst does not write are what they were anyway
            let s := s.writeBytes r keep
            let s := s.writeLost x (s.get (R.BNK_XB_CFG_CPORT x)) r
            (s.burstMoved c ctl before).gleanHalt c 5 r
          | _, _ =>
            match s.burstWrite c dst bs with
            | (s, false) => s.gleanHalt c 3 dst
            | (s, true) =>
              let s := s.burstMoved c ctl n
              if s.is (R.GLN_GC_REM c) then s else s.descEnd c ctl next

/-- GLEAN_BURST: the fetch of a descriptor, or one burst. `ue` is a row with two bits in error among those read, `ce` one
with one. -/
def State.gleanBurst (s : State) (ue ce lost : Option Nat) : State :=
  let s := s.mailProgress
  match s.gleanNext with
  | none => s
  | some c =>
    let p := s.get (R.GLN_GC_CTL c)
    let s := s.upMst fun m => { m with served := m.served.set p c }
    match s.gleanDesc c with
    | none =>
      s.gleanFetch c false ue ce
    | some (ctl, next) => s.burst c ctl next ue ce lost
def execGleanBurst (t : Nat) (ue ce lost : Option Nat) (s : State) : Out := laneAct Part.all t s fun s => s.gleanBurst ue ce lost

end Sys2Proof.Machine
end

