-- ==== Sys2Proof/Machine/Dispatch.lean ====
section
/-! DEFINITION. The dispatch: one arm per constructor of `Instr`, each one direct call of that command's meaning. -/

namespace Sys2Proof.Machine

def exec (i : Instr) (s : State) : Host.Outcome State Fault Refusal :=
  match i with
  | .registerWrite t who addr size value => Sys2Proof.Machine.execRegisterWrite t who addr size value s
  | .lowWordReadCapture t who addr size => Sys2Proof.Machine.execLowWordReadCapture t who addr size s
  | .mldProgram t slot => Sys2Proof.Machine.execMldProgram t slot s
  | .mldCheck t slot => Sys2Proof.Machine.execMldCheck t slot s
  | .mldReload t slot sheet => Sys2Proof.Machine.execMldReload t slot sheet s
  | .mldWithdraw t slot => Sys2Proof.Machine.execMldWithdraw t slot s
  | .mldStartLoad t slot => Sys2Proof.Machine.execMldStartLoad t slot s
  | .mldCommandEnd t readbackOk psOk => Sys2Proof.Machine.execMldCommandEnd t readbackOk psOk s
  | .sheetQuiesce t n => Sys2Proof.Machine.execSheetQuiesce t n s
  | .sheetRelease t n => Sys2Proof.Machine.execSheetRelease t n s
  | .sheetQuiesced t n => Sys2Proof.Machine.execSheetQuiesced t n s
  | .quiesceReadbackTimeout t n => Sys2Proof.Machine.execQuiesceReadbackTimeout t n s
  | .adcFrame t => Sys2Proof.Machine.execAdcFrame t s
  | .mainPathWord t n codes residue => Sys2Proof.Machine.execMainPathWord t n codes residue s
  | .calStep t n off gain skew bw => Sys2Proof.Machine.execCalStep t n off gain skew bw s
  | .calHandover t n => Sys2Proof.Machine.execCalHandover t n s
  | .calStarvedTimeout t n => Sys2Proof.Machine.execCalStarvedTimeout t n s
  | .calenChange t n on => Sys2Proof.Machine.execCalenChange t n on s
  | .lfsrWrite t n v => Sys2Proof.Machine.execLfsrWrite t n v s
  | .presentationWrite t n fmt v => Sys2Proof.Machine.execPresentationWrite t n fmt v s
  | .snapshotTrigger t n => Sys2Proof.Machine.execSnapshotTrigger t n s
  | .snapshotDone t n code => Sys2Proof.Machine.execSnapshotDone t n code s
  | .snapDataRead t who n slot => Sys2Proof.Machine.execSnapDataRead t who n slot s
  | .tapValRead t who tap => Sys2Proof.Machine.execTapValRead t who tap s
  | .testStart t n => Sys2Proof.Machine.execTestStart t n s
  | .testAbort t n => Sys2Proof.Machine.execTestAbort t n s
  | .testSettleEnd t n => Sys2Proof.Machine.execTestSettleEnd t n s
  | .testMeanEnd t n => Sys2Proof.Machine.execTestMeanEnd t n s
  | .watchRequest t n => Sys2Proof.Machine.execWatchRequest t n s
  | .watchEnter t n => Sys2Proof.Machine.execWatchEnter t n s
  | .watchExitRequest t n => Sys2Proof.Machine.execWatchExitRequest t n s
  | .watchExit t n => Sys2Proof.Machine.execWatchExit t n s
  | .syncPinEdge t => Sys2Proof.Machine.execSyncPinEdge t s
  | .syncReset t => Sys2Proof.Machine.execSyncReset t s
  | .phaseReset t => Sys2Proof.Machine.execPhaseReset t s
  | .syncOutputEdge t => Sys2Proof.Machine.execSyncOutputEdge t s
  | .fastWindowEnable t k on => Sys2Proof.Machine.execFastWindowEnable t k on s
  | .tickArrival t n stamp => Sys2Proof.Machine.execTickArrival t n stamp s
  | .runStart t n torn errs => Sys2Proof.Machine.execRunStart t n torn errs s
  | .overrunLimit t n => Sys2Proof.Machine.execOverrunLimit t n s
  | .runEnd t n ce => Sys2Proof.Machine.execRunEnd t n ce s
  | .nop t n => Sys2Proof.Machine.execNop t n s
  | .load t n => Sys2Proof.Machine.execLoad t n s
  | .clarke t n => Sys2Proof.Machine.execClarke t n s
  | .iclarke t n => Sys2Proof.Machine.execIclarke t n s
  | .park t n => Sys2Proof.Machine.execPark t n s
  | .ipark t n => Sys2Proof.Machine.execIpark t n s
  | .angle t n => Sys2Proof.Machine.execAngle t n s
  | .pi t n => Sys2Proof.Machine.execPi t n s
  | .res t n => Sys2Proof.Machine.execRes t n s
  | .matvec t n => Sys2Proof.Machine.execMatvec t n s
  | .obs t n => Sys2Proof.Machine.execObs t n s
  | .swing t n => Sys2Proof.Machine.execSwing t n s
  | .droop t n => Sys2Proof.Machine.execDroop t n s
  | .vimp t n => Sys2Proof.Machine.execVimp t n s
  | .ilim t n => Sys2Proof.Machine.execIlim t n s
  | .frt t n => Sys2Proof.Machine.execFrt t n s
  | .ramp t n => Sys2Proof.Machine.execRamp t n s
  | .lpf t n => Sys2Proof.Machine.execLpf t n s
  | .limit t n => Sys2Proof.Machine.execLimit t n s
  | .lut t n => Sys2Proof.Machine.execLut t n s
  | .power t n => Sys2Proof.Machine.execPower t n s
  | .rms t n => Sys2Proof.Machine.execRms t n s
  | .svm3l t n => Sys2Proof.Machine.execSvm3l t n s
  | .select t n => Sys2Proof.Machine.execSelect t n s
  | .compare t n => Sys2Proof.Machine.execCompare t n s
  | .guard t n => Sys2Proof.Machine.execGuard t n s
  | .sum t n => Sys2Proof.Machine.execSum t n s
  | .mul t n => Sys2Proof.Machine.execMul t n s
  | .emit t n => Sys2Proof.Machine.execEmit t n s
  | .mailboxWrite t n => Sys2Proof.Machine.execMailboxWrite t n s
  | .mailboxRead t n => Sys2Proof.Machine.execMailboxRead t n s
  | .event t n => Sys2Proof.Machine.execEvent t n s
  | .trace t n => Sys2Proof.Machine.execTrace t n s
  | .engineEccFault t n => Sys2Proof.Machine.execEngineEccFault t n s
  | .recipeCheckDone t n => Sys2Proof.Machine.execRecipeCheckDone t n s
  | .coefSwapRequest t n => Sys2Proof.Machine.execCoefSwapRequest t n s
  | .recipeSwapRequest t n => Sys2Proof.Machine.execRecipeSwapRequest t n s
  | .stageWrite t n word => Sys2Proof.Machine.execStageWrite t n word s
  | .clrCycmax t n => Sys2Proof.Machine.execClrCycmax t n s
  | .trcTrig t n => Sys2Proof.Machine.execTrcTrig t n s
  | .traceArm t n => Sys2Proof.Machine.execTraceArm t n s
  | .moveRequest t src => Sys2Proof.Machine.execMoveRequest t src s
  | .moveCopyEnd t eccBad => Sys2Proof.Machine.execMoveCopyEnd t eccBad s
  | .moveDone t => Sys2Proof.Machine.execMoveDone t s
  | .periodStart t g => Sys2Proof.Machine.execPeriodStart t g s
  | .compareFire t g n => Sys2Proof.Machine.execCompareFire t g n s
  | .groupEnable t g => Sys2Proof.Machine.execGroupEnable t g s
  | .loadallRequest t g => Sys2Proof.Machine.execLoadallRequest t g s
  | .gload t mask => Sys2Proof.Machine.execGload t mask s
  | .shadowWrite t duty k v => Sys2Proof.Machine.execShadowWrite t duty k v s
  | .groupLoad t g => Sys2Proof.Machine.execGroupLoad t g s
  | .fltPinAsserted t k level since => Sys2Proof.Machine.execFltPinAsserted t k level since s
  | .fmxClear t g => Sys2Proof.Machine.execFmxClear t g s
  | .edgeSend t ch => Sys2Proof.Machine.execEdgeSend t ch s
  | .executedLevelChange t ch => Sys2Proof.Machine.execExecutedLevelChange t ch s
  | .timeFrameSend t l => Sys2Proof.Machine.execTimeFrameSend t l s
  | .statusFrameReceive t l bytes => Sys2Proof.Machine.execStatusFrameReceive t l bytes s
  | .statusTimeout t l lockLost => Sys2Proof.Machine.execStatusTimeout t l lockLost s
  | .qfullHoldEnd t l => Sys2Proof.Machine.execQfullHoldEnd t l s
  | .desatClear t l mask => Sys2Proof.Machine.execDesatClear t l mask s
  | .diagStart t l mask dur => Sys2Proof.Machine.execDiagStart t l mask dur s
  | .diagTimeout t l => Sys2Proof.Machine.execDiagTimeout t l s
  | .trainStart t l => Sys2Proof.Machine.execTrainStart t l s
  | .trainEnd t l => Sys2Proof.Machine.execTrainEnd t l s
  | .configSend t l addr data => Sys2Proof.Machine.execConfigSend t l addr data s
  | .configTimeout t l => Sys2Proof.Machine.execConfigTimeout t l s
  | .laneDisable t l => Sys2Proof.Machine.execLaneDisable t l s
  | .portLinkChange t p up an => Sys2Proof.Machine.execPortLinkChange t p up an s
  | .forwardStart t p bytes rx => Sys2Proof.Machine.execForwardStart t p bytes rx s
  | .frameReceive t p bytes fcsOk sfd => Sys2Proof.Machine.execFrameReceive t p bytes fcsOk sfd s
  | .ddEntryExpiry t => Sys2Proof.Machine.execDdEntryExpiry t s
  | .txKick t h => Sys2Proof.Machine.execTxKick t h s
  | .hostTxDescriptor t h errs => Sys2Proof.Machine.execHostTxDescriptor t h errs s
  | .egressTransmit t p => Sys2Proof.Machine.execEgressTransmit t p s
  | .transmitSlotFrame t n ecc => Sys2Proof.Machine.execTransmitSlotFrame t n ecc s
  | .supervisionFrame t => Sys2Proof.Machine.execSupervisionFrame t s
  | .beaconSend t => Sys2Proof.Machine.execBeaconSend t s
  | .commonsAging t => Sys2Proof.Machine.execCommonsAging t s
  | .read t k => Sys2Proof.Machine.execRead t k s
  | .pin t k => Sys2Proof.Machine.execPin t k s
  | .unpin t k => Sys2Proof.Machine.execUnpin t k s
  | .delete t k => Sys2Proof.Machine.execDelete t k s
  | .preset t => Sys2Proof.Machine.execPreset t s
  | .syncMessage t p m => Sys2Proof.Machine.execSyncMessage t p m s
  | .followUp t p m => Sys2Proof.Machine.execFollowUp t p m s
  | .announce t p m => Sys2Proof.Machine.execAnnounce t p m s
  | .pdelayReqSend t p => Sys2Proof.Machine.execPdelayReqSend t p s
  | .pdelayReq t p ident seq dom cf rx => Sys2Proof.Machine.execPdelayReq t p ident seq dom cf rx s
  | .pdelayResp t p fu seq two stamp cf rx => Sys2Proof.Machine.execPdelayResp t p fu seq two stamp cf rx s
  | .pdelayTimeout t p => Sys2Proof.Machine.execPdelayTimeout t p s
  | .announceTimeout t d => Sys2Proof.Machine.execAnnounceTimeout t d s
  | .syncTimeout t d => Sys2Proof.Machine.execSyncTimeout t d s
  | .servoHold t on => Sys2Proof.Machine.execServoHold t on s
  | .domainReturn t => Sys2Proof.Machine.execDomainReturn t s
  | .ttFire t k => Sys2Proof.Machine.execTtFire t k s
  | .ttEnable t k => Sys2Proof.Machine.execTtEnable t k s
  | .journalRunRecord t ok lseq whole u num stamp merged fix => Sys2Proof.Machine.execJournalRunRecord t ok lseq whole u num stamp merged fix s
  | .journalWriteRecord t ok lseq addr value issue => Sys2Proof.Machine.execJournalWriteRecord t ok lseq addr value issue s
  | .journalFilterRecord t ok lseq f slot stamp vals arrive => Sys2Proof.Machine.execJournalFilterRecord t ok lseq f slot stamp vals arrive s
  | .journalApply t => Sys2Proof.Machine.execJournalApply t s
  | .checkpoint t ok lseq n num idx crc => Sys2Proof.Machine.execCheckpoint t ok lseq n num idx crc s
  | .checkpointTimeout t n => Sys2Proof.Machine.execCheckpointTimeout t n s
  | .verdict t ok lseq n loserIsB => Sys2Proof.Machine.execVerdict t ok lseq n loserIsB s
  | .verdictTimeout t => Sys2Proof.Machine.execVerdictTimeout t s
  | .health t ok lseq h rx => Sys2Proof.Machine.execHealth t ok lseq h rx s
  | .healthSend t => Sys2Proof.Machine.execHealthSend t s
  | .stateFrame t ok lseq whole item => Sys2Proof.Machine.execStateFrame t ok lseq whole item s
  | .nak t ok lseq missing => Sys2Proof.Machine.execNak t ok lseq missing s
  | .twinLaneDown t l => Sys2Proof.Machine.execTwinLaneDown t l s
  | .linkLost t => Sys2Proof.Machine.execLinkLost t s
  | .handover t => Sys2Proof.Machine.execHandover t s
  | .join t => Sys2Proof.Machine.execJoin t s
  | .leave t => Sys2Proof.Machine.execLeave t s
  | .autojoinStart t => Sys2Proof.Machine.execAutojoinStart t s
  | .joinWaitExpiry t => Sys2Proof.Machine.execJoinWaitExpiry t s
  | .joinTimeout t => Sys2Proof.Machine.execJoinTimeout t s
  | .handoverInstant t => Sys2Proof.Machine.execHandoverInstant t s
  | .handoverEnd t => Sys2Proof.Machine.execHandoverEnd t s
  | .revertHoldoffExpiry t => Sys2Proof.Machine.execRevertHoldoffExpiry t s
  | .tbLimitExpiry t => Sys2Proof.Machine.execTbLimitExpiry t s
  | .steerReturn t => Sys2Proof.Machine.execSteerReturn t s
  | .timeHandover t => Sys2Proof.Machine.execTimeHandover t s
  | .sinSample t raw => Sys2Proof.Machine.execSinSample t raw s
  | .inputTestPulse t b => Sys2Proof.Machine.execInputTestPulse t b s
  | .evaluationStep t srst => Sys2Proof.Machine.execEvaluationStep t srst s
  | .discrepancyTimeout t x => Sys2Proof.Machine.execDiscrepancyTimeout t x s
  | .safeOutputOff t k => Sys2Proof.Machine.execSafeOutputOff t k s
  | .readbackSample t sob => Sys2Proof.Machine.execReadbackSample t sob s
  | .outputTestPulse t k => Sys2Proof.Machine.execOutputTestPulse t k s
  | .resetAccept t => Sys2Proof.Machine.execResetAccept t s
  | .srstStuck t => Sys2Proof.Machine.execSrstStuck t s
  | .sealSample t v => Sys2Proof.Machine.execSealSample t v s
  | .internalFault t b => Sys2Proof.Machine.execInternalFault t b s
  | .islandStartEnd t image ver srst => Sys2Proof.Machine.execIslandStartEnd t image ver srst s
  | .check t => Sys2Proof.Machine.execCheck t s
  | .store t => Sys2Proof.Machine.execStore t s
  | .psOperationEnd t writeOk => Sys2Proof.Machine.execPsOperationEnd t writeOk s
  | .safetyStopRequest t mask => Sys2Proof.Machine.execSafetyStopRequest t mask s
  | .nativeSafetyFrame t => Sys2Proof.Machine.execNativeSafetyFrame t s
  | .nay2400SafetyFrame t => Sys2Proof.Machine.execNay2400SafetyFrame t s
  | .safetyCopyTimeout t c => Sys2Proof.Machine.execSafetyCopyTimeout t c s
  | .connectionWatchdogExpiry t c => Sys2Proof.Machine.execConnectionWatchdogExpiry t c s
  | .safetyFrameSend t c => Sys2Proof.Machine.execSafetyFrameSend t c s
  | .bankAccess t a ecc rest => Sys2Proof.Machine.execBankAccess t a ecc rest s
  | .release t b who => Sys2Proof.Machine.execRelease t b who s
  | .releaseDone t => Sys2Proof.Machine.execReleaseDone t s
  | .claim t b who => Sys2Proof.Machine.execClaim t b who s
  | .grant t b who => Sys2Proof.Machine.execGrant t b who s
  | .revoke t b who => Sys2Proof.Machine.execRevoke t b who s
  | .repair t b seg => Sys2Proof.Machine.execRepair t b seg s
  | .sweeperStep t errs fail => Sys2Proof.Machine.execSweeperStep t errs fail s
  | .start t c ue ce => Sys2Proof.Machine.execStart t c ue ce s
  | .resume t c ue ce => Sys2Proof.Machine.execResume t c ue ce s
  | .stop t c => Sys2Proof.Machine.execStop t c s
  | .gleanBurst t ue ce lost => Sys2Proof.Machine.execGleanBurst t ue ce lost s
  | .referenceAbsent t r => Sys2Proof.Machine.execReferenceAbsent t r s
  | .referencePresent t r => Sys2Proof.Machine.execReferencePresent t r s
  | .lossOfLock t c phase => Sys2Proof.Machine.execLossOfLock t c phase s
  | .dllChangeover t => Sys2Proof.Machine.execDllChangeover t s
  | .dllRealigned t => Sys2Proof.Machine.execDllRealigned t s
  | .pllLocked t ok band flimit phase => Sys2Proof.Machine.execPllLocked t ok band flimit phase s
  | .pllChangeover t => Sys2Proof.Machine.execPllChangeover t s
  | .smpRestart t => Sys2Proof.Machine.execSmpRestart t s
  | .outputConfigWrite t n v => Sys2Proof.Machine.execOutputConfigWrite t n v s
  | .mpgRise t crcOk offsec rails xtal => Sys2Proof.Machine.execMpgRise t crcOk offsec rails xtal s
  | .mpgFall t rails => Sys2Proof.Machine.execMpgFall t rails s
  | .porstNAssert t => Sys2Proof.Machine.execPorstNAssert t s
  | .porstNRelease t held testMode => Sys2Proof.Machine.execPorstNRelease t held testMode s
  | .wrstNAssert t => Sys2Proof.Machine.execWrstNAssert t s
  | .wrstNRelease t => Sys2Proof.Machine.execWrstNRelease t s
  | .powerFailWarning t ok => Sys2Proof.Machine.execPowerFailWarning t ok s
  | .powerFailClear t ok => Sys2Proof.Machine.execPowerFailClear t ok s
  | .opsecSecond t ok => Sys2Proof.Machine.execOpsecSecond t ok s
  | .vkaLow t => Sys2Proof.Machine.execVkaLow t s
  | .coldStart t straps => Sys2Proof.Machine.execColdStart t straps s
  | .warmStart t => Sys2Proof.Machine.execWarmStart t s
  | .readyPoint t ok => Sys2Proof.Machine.execReadyPoint t ok s
  | .startTimeout t => Sys2Proof.Machine.execStartTimeout t s
  | .warm t key => Sys2Proof.Machine.execWarm t key s
  | .cold t key => Sys2Proof.Machine.execCold t key s
  | .bootOk t => Sys2Proof.Machine.execBootOk t s
  | .goldenClr t key => Sys2Proof.Machine.execGoldenClr t key s
  | .kick t => Sys2Proof.Machine.execKick t s
  | .confirmExpiry t => Sys2Proof.Machine.execConfirmExpiry t s
  | .watchdogExpiry t => Sys2Proof.Machine.execWatchdogExpiry t s
  | .ledgerPost t ring typ sev block unit payload => Sys2Proof.Machine.execLedgerPost t ring typ sev block unit payload s
  | .go t => Sys2Proof.Machine.execGo t s
  | .recordProgramDone t ok => Sys2Proof.Machine.execRecordProgramDone t ok s
  | .cursorLoad t p => Sys2Proof.Machine.execCursorLoad t p s
  | .next t p => Sys2Proof.Machine.execNext t p s
  | .newest t p => Sys2Proof.Machine.execNewest t p s
  | .oldest t p => Sys2Proof.Machine.execOldest t p s
  | .clrOvr t p => Sys2Proof.Machine.execClrOvr t p s
  | .cursorCopyDone t p => Sys2Proof.Machine.execCursorCopyDone t p s
  | .rings t mask => Sys2Proof.Machine.execRings t mask s
  | .erase t => Sys2Proof.Machine.execErase t s
  | .eraseDone t ok => Sys2Proof.Machine.execEraseDone t ok s
  | .engineTestPiece t n same => Sys2Proof.Machine.execEngineTestPiece t n same s
  | .engineTestStarved t n => Sys2Proof.Machine.execEngineTestStarved t n s
  | .temperatureSample t temp => Sys2Proof.Machine.execTemperatureSample t temp s
  | .thermalExpiry t => Sys2Proof.Machine.execThermalExpiry t s
  | .twinLinkReasonExpiry t => Sys2Proof.Machine.execTwinLinkReasonExpiry t s
  | .req t => Sys2Proof.Machine.execReq t s
  | .program t slot => Sys2Proof.Machine.execProgram t slot s
  | .fwCheck t slot => Sys2Proof.Machine.execFwCheck t slot s
  | .programIsland t slot => Sys2Proof.Machine.execProgramIsland t slot s
  | .fwCommandEnd t same isle => Sys2Proof.Machine.execFwCommandEnd t same isle s
  | .trackerPair t p => Sys2Proof.Machine.execTrackerPair t p s
  | .trackerTimeout t p => Sys2Proof.Machine.execTrackerTimeout t p s
  | .ampFilterExpiry t p => Sys2Proof.Machine.execAmpFilterExpiry t p s
  | .quadratureStep t => Sys2Proof.Machine.execQuadratureStep t s
  | .gpioEdge t n level => Sys2Proof.Machine.execGpioEdge t n level s
  | .uartTxWrite t b => Sys2Proof.Machine.execUartTxWrite t b s
  | .uartByteSent t => Sys2Proof.Machine.execUartByteSent t s
  | .uartReceive t b stopOk => Sys2Proof.Machine.execUartReceive t b stopOk s
  | .uartRxRead t => Sys2Proof.Machine.execUartRxRead t s
  | .irqClaim t k => Sys2Proof.Machine.execIrqClaim t k s
  | .irqComplete t k num => Sys2Proof.Machine.execIrqComplete t k num s
  | .twinLaneUp t l => Sys2Proof.Machine.execTwinLaneUp t l s
  | .sdclkPresenceChange t on => Sys2Proof.Machine.execSdclkPresenceChange t on s
  | .vkaRecovery t => Sys2Proof.Machine.execVkaRecovery t s
  | .vddWReturn t => Sys2Proof.Machine.execVddWReturn t s
  | .tpOvercurrent t b on => Sys2Proof.Machine.execTpOvercurrent t b on s
  | .outputTestPulseEnd t k => Sys2Proof.Machine.execOutputTestPulseEnd t k s
  | .startStepEnd t step ok found => Sys2Proof.Machine.execStartStepEnd t step ok found s
  | .joinTimeExpiry t => Sys2Proof.Machine.execJoinTimeExpiry t s
  | .cmnCommandEnd t => Sys2Proof.Machine.execCmnCommandEnd t s
  | .jtagInstruction t ir trst => Sys2Proof.Machine.execJtagInstruction t ir trst s

end Sys2Proof.Machine
end

