-- ==== Sys2Proof/Safety.lean ====
section
/-!
DEFINITION. What the claims are stated in: how far each command reaches, what stays the same outside a reach, the commands
that return TB to 0, and the states the device can be in.
-/

namespace Sys2Proof.Machine

/-- The parts of the device a command may write; the meaning of each command gives the same list to its wrapper (log entry
2). Every command may also move TB to its instant. -/
def reachOf : Instr → List Part
  | .registerWrite _ _ _ _ _ => Part.all
  | .lowWordReadCapture _ _ _ _ => [.bnk, .gln, .ce, .pwm, .fmx, .lne, .twn, .ldg, .hlt, .irq, .pin, .mem, .bus, .mst]
  | .mldProgram _ _ => [.mld, .ldg, .mem]
  | .mldCheck _ _ => [.mld, .ldg]
  | .mldReload _ _ _ => [.mld, .ldg]
  | .mldWithdraw _ _ => [.mld, .ldg]
  | .mldStartLoad _ _ => [.mld, .ldg]
  | .mldCommandEnd _ _ _ => Part.all
  | .sheetQuiesce _ _ => [.mld, .ce, .pwm, .fmx, .lne, .twn]
  | .sheetRelease _ _ => [.mld, .ce, .pwm, .fmx, .lne, .twn]
  | .sheetQuiesced _ _ => [.mld]
  | .quiesceReadbackTimeout _ _ => [.mld]
  | .adcFrame _ => [.adc, .scr]
  | .mainPathWord _ _ _ _ => [.adc, .scr, .ce, .pht, .pwm, .fmx, .lne, .twn, .ldg, .hlt]
  | .calStep _ _ _ _ _ _ => [.adc, .ldg, .hlt]
  | .calHandover _ _ => [.adc]
  | .calStarvedTimeout _ _ => [.adc]
  | .calenChange _ _ _ => [.adc]
  | .lfsrWrite _ _ _ => [.adc]
  | .presentationWrite _ _ _ _ => [.adc]
  | .snapshotTrigger _ _ => [.adc]
  | .snapshotDone _ _ _ => [.adc, .scr]
  | .snapDataRead _ _ _ _ => [.bus]
  | .tapValRead _ _ _ => [.bus]
  | .testStart _ _ => [.adc]
  | .testAbort _ _ => [.adc]
  | .testSettleEnd _ _ => [.adc]
  | .testMeanEnd _ _ => [.adc]
  | .watchRequest _ _ => [.adc]
  | .watchEnter _ _ => [.adc]
  | .watchExitRequest _ _ => [.adc]
  | .watchExit _ _ => [.adc, .scr]
  | .syncPinEdge _ => [.scr]
  | .syncReset _ => [.scr]
  | .phaseReset _ => [.scr]
  | .syncOutputEdge _ => [.scr]
  | .fastWindowEnable _ _ _ => [.scr, .pwm, .fmx, .lne, .ce, .twn]
  | .tickArrival _ _ _ => [.ce, .pwm, .fmx, .lne, .tsu, .twn]
  | .runStart _ _ _ _ => [.bnk, .ce, .pwm, .fmx, .lne, .net, .twn, .ldg, .hlt, .mem]
  | .overrunLimit _ _ => [.ce, .pwm, .fmx, .lne, .twn]
  | .runEnd _ _ _ => [.mld, .bnk, .ce, .pht, .pwm, .fmx, .lne, .tsu, .twn, .ldg, .hlt, .mem]
  | .nop _ _ => [.ce]
  | .load _ _ => [.ce, .mem]
  | .clarke _ _ => [.ce, .mem]
  | .iclarke _ _ => [.ce, .mem]
  | .park _ _ => [.ce, .mem]
  | .ipark _ _ => [.ce, .mem]
  | .angle _ _ => [.ce, .mem]
  | .pi _ _ => [.ce, .mem]
  | .res _ _ => [.ce, .mem]
  | .matvec _ _ => [.ce, .mem]
  | .obs _ _ => [.ce, .mem]
  | .swing _ _ => [.ce, .mem]
  | .droop _ _ => [.ce, .mem]
  | .vimp _ _ => [.ce, .mem]
  | .ilim _ _ => [.ce, .mem]
  | .frt _ _ => [.ce, .mem]
  | .ramp _ _ => [.ce, .mem]
  | .lpf _ _ => [.ce, .mem]
  | .limit _ _ => [.ce, .mem]
  | .lut _ _ => [.ce, .mem]
  | .power _ _ => [.ce, .mem]
  | .rms _ _ => [.ce, .mem]
  | .svm3l _ _ => [.ce, .mem]
  | .select _ _ => [.ce, .mem]
  | .compare _ _ => [.ce, .mem]
  | .guard _ _ => [.ce, .mem]
  | .sum _ _ => [.ce, .mem]
  | .mul _ _ => [.ce, .mem]
  | .emit _ _ => [.mld, .ce, .pwm, .fmx, .lne, .tsu, .twn, .ldg]
  | .mailboxWrite _ _ => [.mld, .ce, .pwm, .fmx, .lne, .net, .tsu, .twn, .ldg, .mem]
  | .mailboxRead _ _ => [.ce, .mem]
  | .event _ _ => [.ce, .ldg, .mem]
  | .trace _ _ => [.ce, .mem]
  | .engineEccFault _ _ => [.ce, .pwm, .fmx, .lne, .twn, .ldg, .hlt, .mem]
  | .recipeCheckDone _ _ => [.ce, .pwm, .fmx, .lne, .twn, .ldg, .hlt]
  | .coefSwapRequest _ _ => [.ce]
  | .recipeSwapRequest _ _ => [.ce]
  | .stageWrite _ _ _ => [.ce, .mem, .bus]
  | .clrCycmax _ _ => [.ce]
  | .trcTrig _ _ => [.ce]
  | .traceArm _ _ => [.bnk, .ce]
  | .moveRequest _ _ => [.ce, .ldg, .hlt]
  | .moveCopyEnd _ _ => [.ce, .pwm, .fmx, .lne, .twn, .ldg, .hlt, .mem]
  | .moveDone _ => [.ce, .pwm, .fmx, .lne, .hlt, .twn]
  | .periodStart _ _ => [.ce, .pwm, .fmx, .lne, .twn]
  | .compareFire _ _ _ => [.pwm]
  | .groupEnable _ _ => [.ce, .pwm, .fmx, .lne, .twn]
  | .loadallRequest _ _ => [.pwm]
  | .gload _ _ => [.pwm]
  | .shadowWrite _ _ _ _ => [.pwm]
  | .groupLoad _ _ => [.ce, .pwm, .fmx, .lne, .twn]
  | .fltPinAsserted _ _ _ _ => [.ce, .pwm, .fmx, .lne, .twn]
  | .fmxClear _ _ => [.ce, .pwm, .fmx, .lne, .twn]
  | .edgeSend _ _ => [.ce, .pwm, .fmx, .lne, .twn]
  | .executedLevelChange _ _ => [.ce, .pwm, .fmx, .lne, .twn]
  | .timeFrameSend _ _ => [.ce, .pwm, .fmx, .lne, .twn]
  | .statusFrameReceive _ _ _ => [.ce, .pwm, .fmx, .lne, .twn]
  | .statusTimeout _ _ _ => [.ce, .pwm, .fmx, .lne, .twn]
  | .qfullHoldEnd _ _ => [.ce, .pwm, .fmx, .lne, .twn]
  | .desatClear _ _ _ => [.ce, .pwm, .fmx, .lne, .twn]
  | .diagStart _ _ _ _ => [.ce, .pwm, .fmx, .lne, .twn]
  | .diagTimeout _ _ => [.lne]
  | .trainStart _ _ => [.ce, .pwm, .fmx, .lne, .twn]
  | .trainEnd _ _ => [.ce, .pwm, .fmx, .lne, .tsu, .twn]
  | .configSend _ _ _ _ => [.ce, .pwm, .fmx, .lne, .twn]
  | .configTimeout _ _ => [.ce, .pwm, .fmx, .lne, .twn]
  | .laneDisable _ _ => [.ce, .pwm, .fmx, .lne, .twn]
  | .portLinkChange _ _ _ _ => [.net, .tsu]
  | .forwardStart _ _ _ _ => [.net, .tsu]
  | .frameReceive _ _ _ _ _ => [.bnk, .net, .tsu, .twn, .wch, .mem]
  | .ddEntryExpiry _ => [.net]
  | .txKick _ _ => [.net]
  | .hostTxDescriptor _ _ _ => [.bnk, .net, .twn, .ldg, .hlt, .mem]
  | .egressTransmit _ _ => [.bnk, .net, .tsu, .mem]
  | .transmitSlotFrame _ _ _ => [.bnk, .net, .twn, .ldg, .hlt, .mem]
  | .supervisionFrame _ => [.net]
  | .beaconSend _ => [.net]
  | .commonsAging _ => [.net]
  | .read _ _ => [.net]
  | .pin _ _ => [.net]
  | .unpin _ _ => [.net]
  | .delete _ _ => [.net]
  | .preset _ => [.net]
  | .syncMessage _ _ _ => [.clk, .pwr, .adc, .scr, .ce, .pht, .pwm, .fmx, .lne, .net, .tsu, .twn, .wch, .hlt]
  | .followUp _ _ _ => [.clk, .pwr, .adc, .scr, .ce, .pht, .pwm, .fmx, .lne, .net, .tsu, .twn, .wch, .hlt]
  | .announce _ _ _ => [.tsu]
  | .pdelayReqSend _ _ => [.net, .tsu]
  | .pdelayReq _ _ _ _ _ _ _ => [.net]
  | .pdelayResp _ _ _ _ _ _ _ _ => [.tsu]
  | .pdelayTimeout _ _ => [.tsu]
  | .announceTimeout _ _ => [.clk, .pwr, .tsu]
  | .syncTimeout _ _ => [.clk, .pwr, .tsu]
  | .servoHold _ _ => [.tsu]
  | .domainReturn _ => [.clk, .pwr, .tsu]
  | .ttFire _ _ => [.scr, .ce, .pwm, .fmx, .lne, .tsu, .twn]
  | .ttEnable _ _ => [.tsu]
  | .journalRunRecord _ _ _ _ _ _ _ _ _ => [.ce, .tsu, .twn, .ldg, .hlt]
  | .journalWriteRecord _ _ _ _ _ _ => [.twn]
  | .journalFilterRecord _ _ _ _ _ _ _ _ => [.twn]
  | .journalApply _ => [.ce, .pwm, .fmx, .lne, .net, .twn, .mem, .bus]
  | .checkpoint _ _ _ _ _ _ _ => [.mld, .ce, .pwm, .fmx, .lne, .tsu, .twn, .ldg]
  | .checkpointTimeout _ _ => [.mld, .ce, .pwm, .fmx, .lne, .tsu, .twn, .ldg]
  | .verdict _ _ _ _ _ => [.mld, .ce, .pwm, .fmx, .lne, .tsu, .twn, .ldg]
  | .verdictTimeout _ => [.ce, .pwm, .fmx, .lne, .tsu, .twn, .ldg]
  | .health _ _ _ _ _ => [.clk, .pwr, .mld, .ce, .pwm, .fmx, .lne, .tsu, .twn]
  | .healthSend _ => [.twn]
  | .stateFrame _ _ _ _ _ => [.scr, .ce, .pwm, .fmx, .lne, .net, .tsu, .twn, .mem]
  | .nak _ _ _ _ => [.twn]
  | .twinLaneDown _ _ => [.twn]
  | .linkLost _ => [.mld, .ce, .pwm, .fmx, .lne, .tsu, .twn]
  | .handover _ => [.ce, .twn]
  | .join _ => [.ce, .tsu, .twn]
  | .leave _ => [.ce, .pwm, .fmx, .lne, .tsu, .twn]
  | .autojoinStart _ => [.ce, .tsu, .twn]
  | .joinWaitExpiry _ => [.mld, .ce, .pwm, .fmx, .lne, .tsu, .twn]
  | .joinTimeout _ => [.ce, .tsu, .twn]
  | .handoverInstant _ => [.clk, .pwr, .tsu, .twn]
  | .handoverEnd _ => [.ce, .pwm, .fmx, .lne, .twn]
  | .revertHoldoffExpiry _ => [.twn]
  | .tbLimitExpiry _ => [.ce, .pwm, .fmx, .lne, .tsu, .twn]
  | .steerReturn _ => [.clk, .pwr, .tsu, .twn]
  | .timeHandover _ => [.ce, .twn]
  | .sinSample _ _ => [.wch, .ldg]
  | .inputTestPulse _ _ => [.wch]
  | .evaluationStep _ _ => [.ce, .pwm, .fmx, .lne, .twn, .wch, .ldg]
  | .discrepancyTimeout _ _ => [.wch, .ldg]
  | .safeOutputOff _ _ => [.wch]
  | .readbackSample _ _ => [.ce, .pwm, .fmx, .lne, .twn, .wch, .ldg, .hlt]
  | .outputTestPulse _ _ => [.wch]
  | .resetAccept _ => [.ce, .pwm, .fmx, .lne, .twn, .wch, .ldg]
  | .srstStuck _ => [.wch, .ldg]
  | .sealSample _ _ => [.ce, .pwm, .fmx, .lne, .twn, .wch, .ldg]
  | .internalFault _ _ => [.pwr, .ce, .pwm, .fmx, .lne, .twn, .wch, .ldg, .hlt]
  | .islandStartEnd _ _ _ _ => [.ce, .pwm, .fmx, .lne, .twn, .wch, .ldg, .hlt]
  | .check _ => [.wch]
  | .store _ => [.wch]
  | .psOperationEnd _ _ => [.wch, .mem]
  | .safetyStopRequest _ _ => [.wch]
  | .nativeSafetyFrame _ => [.wch, .ldg]
  | .nay2400SafetyFrame _ => [.wch, .ldg]
  | .safetyCopyTimeout _ _ => [.wch]
  | .connectionWatchdogExpiry _ _ => [.wch]
  | .safetyFrameSend _ _ => [.net, .wch]
  | .bankAccess _ _ _ _ => [.bnk, .gln, .ce, .pwm, .fmx, .lne, .twn, .ldg, .hlt, .mem, .bus, .mst]
  | .release _ _ _ => [.bnk]
  | .releaseDone _ => [.bnk, .mem, .mst]
  | .claim _ _ _ => [.bnk]
  | .grant _ _ _ => [.bnk]
  | .revoke _ _ _ => [.bnk]
  | .repair _ _ _ => [.bnk, .mst]
  | .sweeperStep _ _ _ => [.bnk, .swp, .ldg, .hlt, .mem, .mst]
  | .start _ _ _ _ => [.bnk, .gln, .twn, .ldg, .hlt, .mem, .mst]
  | .resume _ _ _ _ => [.bnk, .gln, .twn, .ldg, .hlt, .mem, .mst]
  | .stop _ _ => [.gln]
  | .gleanBurst _ _ _ _ => Part.all
  | .referenceAbsent _ _ => [.clk, .pwr, .ce, .pwm, .fmx, .lne, .tsu, .twn, .ldg, .hlt]
  | .referencePresent _ _ => [.clk]
  | .lossOfLock _ _ _ => [.clk, .pwr, .ce, .pwm, .fmx, .lne, .tsu, .twn, .ldg, .hlt]
  | .dllChangeover _ => [.clk, .pwr, .adc, .ce, .pwm, .fmx, .lne, .net, .tsu, .twn]
  | .dllRealigned _ => [.clk]
  | .pllLocked _ _ _ _ _ => [.clk, .pwr, .ldg, .hlt]
  | .pllChangeover _ => [.clk, .pwr, .ce, .pwm, .fmx, .lne, .twn]
  | .smpRestart _ => [.clk, .adc, .scr]
  | .outputConfigWrite _ _ _ => [.clk, .adc, .pwm, .lne]
  | .mpgRise _ _ _ _ _ => [.pwr, .hlt, .wch]
  | .mpgFall _ _ => Part.all
  | .porstNAssert _ => Part.all
  | .porstNRelease _ _ _ => [.pwr, .wch, .pin]
  | .wrstNAssert _ => Part.all
  | .wrstNRelease _ => [.pwr]
  | .powerFailWarning _ _ => [.pwr, .ldg, .hlt]
  | .powerFailClear _ _ => [.pwr, .ldg, .hlt]
  | .opsecSecond _ _ => [.pwr, .ldg, .hlt]
  | .vkaLow _ => [.pwr]
  | .coldStart _ _ => Part.all
  | .warmStart _ => Part.all
  | .readyPoint _ _ => [.pwr, .mld, .ce, .pwm, .fmx, .lne, .tsu, .twn, .ldg, .hlt]
  | .startTimeout _ => [.pwr]
  | .warm _ _ => [.pwr]
  | .cold _ _ => [.pwr]
  | .bootOk _ => [.pwr]
  | .goldenClr _ _ => [.pwr]
  | .kick _ => [.pwr]
  | .confirmExpiry _ => [.pwr]
  | .watchdogExpiry _ => [.pwr]
  | .ledgerPost _ _ _ _ _ _ _ => [.ldg]
  | .go _ => [.ldg]
  | .recordProgramDone _ _ => [.pwr, .ldg, .hlt, .mem]
  | .cursorLoad _ _ => [.ldg]
  | .next _ _ => [.ldg]
  | .newest _ _ => [.ldg]
  | .oldest _ _ => [.ldg]
  | .clrOvr _ _ => [.ldg]
  | .cursorCopyDone _ _ => [.ldg]
  | .rings _ _ => [.ldg, .bus]
  | .erase _ => [.ldg, .bus]
  | .eraseDone _ _ => [.pwr, .ldg, .mem]
  | .engineTestPiece _ _ _ => [.ce, .pwm, .fmx, .lne, .twn, .ldg, .hlt]
  | .engineTestStarved _ _ => [.hlt]
  | .temperatureSample _ _ => [.ldg, .hlt]
  | .thermalExpiry _ => [.ldg, .hlt]
  | .twinLinkReasonExpiry _ => [.ldg, .hlt]
  | .req _ => [.ldg, .hlt]
  | .program _ _ => [.ldg, .hlt, .mem]
  | .fwCheck _ _ => [.ldg, .hlt, .mem]
  | .programIsland _ _ => [.ldg, .hlt, .mem]
  | .fwCommandEnd _ _ _ => [.ldg, .hlt, .mem]
  | .trackerPair _ _ => [.pht]
  | .trackerTimeout _ _ => [.pht]
  | .ampFilterExpiry _ _ => [.pht]
  | .quadratureStep _ => [.pht]
  | .gpioEdge _ _ _ => [.pin]
  | .uartTxWrite _ _ => [.pin]
  | .uartByteSent _ => [.pin]
  | .uartReceive _ _ _ => [.pin]
  | .uartRxRead _ => [.pin, .bus]
  | .irqClaim _ _ => [.irq, .bus]
  | .irqComplete _ _ _ => [.irq]
  | .twinLaneUp _ _ => [.twn]
  | .sdclkPresenceChange _ _ => [.clk, .net, .tsu, .twn]
  | .vkaRecovery _ => [.pwr]
  | .vddWReturn _ => [.pwr, .ce, .pwm, .fmx, .lne, .twn, .wch, .ldg]
  | .tpOvercurrent _ _ _ => [.wch, .ldg]
  | .outputTestPulseEnd _ _ => [.wch]
  | .startStepEnd _ _ _ _ => Part.all
  | .joinTimeExpiry _ => [.ce, .tsu, .twn]
  | .cmnCommandEnd _ => [.net]
  | .jtagInstruction _ _ _ => [.pin]

/-- Nothing outside `reach` differs: no register word, no byte of memory, and nothing a unit holds beside its registers; only
MLD_INT_STAT.QCHG sets where the command changed what MLD_QSTAT shows of SH0, SH9, SH10 or SH11 (R43). -/
structure SameOutside (reach : List Part) (s s' : State) : Prop where
  word : ∀ a, partOf a ∉ reach → a ≠ R.MLD_INT_STAT_QCHG.addr → s'.word a = s.word a
  qchg : .mld ∉ reach → s'.word R.MLD_INT_STAT_QCHG.addr = s.word R.MLD_INT_STAT_QCHG.addr ∨
    s'.word R.MLD_INT_STAT_QCHG.addr = setBits (s.word R.MLD_INT_STAT_QCHG.addr) 2 1 1 ∧
      ∃ n ∈ [0, 9, 10, 11], s'.sheetQuiesced n ≠ s.sheetQuiesced n
  byte : .mem ∉ reach → ∀ a, s'.byte a = s.byte a
  rows : .mem ∉ reach → s'.rows = s.rows
  bus : .bus ∉ reach → s'.resp = s.resp ∧ s'.holding = s.holding
  ldg : .ldg ∉ reach → s'.ldg = s.ldg
  pwm : .pwm ∉ reach → s'.chans = s.chans ∧ s'.groups = s.groups
  fmx : .fmx ∉ reach → s'.fltPins = s.fltPins
  lne : .lne ∉ reach → s'.lanes = s.lanes
  ce : .ce ∉ reach → s'.engs = s.engs ∧ s'.move = s.move
  mld : .mld ∉ reach → s'.mld = s.mld
  adc : .adc ∉ reach → s'.adcs = s.adcs
  scr : .scr ∉ reach → s'.chains = s.chains ∧ s'.scr = s.scr
  tsu : .tsu ∉ reach → s'.trigs = s.trigs ∧ s'.doms = s.doms ∧ s'.pdelays = s.pdelays
  twn : .twn ∉ reach → s'.twn = s.twn
  pht : .pht ∉ reach → s'.trks = s.trks ∧ s'.quad = s.quad
  net : .net ∉ reach → s'.net = s.net
  wch : .wch ∉ reach → s'.isle = s.isle
  mst : .mst ∉ reach → s'.mst = s.mst
  clk : .clk ∉ reach → s'.clk = s.clk
  hlt : .hlt ∉ reach → s'.hlt = s.hlt
  pwr : .pwr ∉ reach → s'.pwr = s.pwr
  pin : .pin ∉ reach → s'.pins = s.pins

/-- Whether a command returns TB to 0 at a state: main power falling while it is good or rising while it is not, PORST_N going
low, and its release (R334). -/
def returnsTb (c : Instr) (s : State) : Bool :=
  match c with
  | .mpgFall _ _ => s.is R.PWR_STAT_MPG
  | .mpgRise _ _ _ _ _ => !s.is R.PWR_STAT_MPG
  | .porstNAssert _ => true
  | .porstNRelease _ _ _ => s.pwr.porst
  | _ => false

/-- The commands of pins and supplies, and the beginnings of starts, which act also while the domains are held. -/
def actsHeld (c : Instr) : Bool :=
  match c with
  | .mpgFall _ _ | .mpgRise _ _ _ _ _ | .porstNAssert _ | .porstNRelease _ _ _ | .wrstNAssert _ | .wrstNRelease _
  | .coldStart _ _ | .warmStart _ | .gpioEdge _ _ _ | .jtagInstruction _ _ _ | .fltPinAsserted _ _ _ _ => true
  | _ => false

/-- The device has as many of each unit as the spec gives it. -/
structure State.Shaped (s : State) : Prop where
  units : s.adcs.length = 4 ∧ s.chains.length = 32 ∧ s.engs.length = 8 ∧ s.groups.length = 8 ∧ s.chans.length = 48 ∧
    s.lanes.length = 12 ∧ s.trks.length = 4 ∧ s.fltPins.length = 16
  time : s.doms.length = 2 ∧ s.trigs.length = 16 ∧ s.pdelays.length = 4
  net : s.net.egress.length = 5 ∧ s.net.fwd.length = 5 ∧ s.net.rx.length = 5 ∧ s.net.free.length = 5 ∧
    s.net.sent.length = 5 ∧ s.net.tx.length = 2
  isle : s.isle.pairs.length = 4 ∧ s.isle.outs.length = 4 ∧ s.isle.conns.length = 8 ∧ s.isle.txs.length = 8 ∧
    s.isle.sinSince.length = 8
  twn : s.twn.runOk.length = 8 ∧ s.twn.muteAt.length = 8 ∧ s.twn.downAt.length = 2
  rest : s.ldg.w.length = 4 ∧ s.ldg.floor.length = 4 ∧ s.clk.dly.length = 5 ∧ s.hlt.tests.length = 8 ∧ s.pwr.cells.length = 2

/-- What every state the device can be in has: TB within its 64 bits (R3), only well-formed commands waiting, memory in its
canonical form, and as many of each unit as the spec gives. -/
structure State.Ok (s : State) : Prop where
  tb : s.tb < 2 ^ 64
  queue : ∀ c ∈ s.pending, c.wf = true
  mem : Memory.wf s.mem = true
  shape : s.Shaped

/-- Whether bit `j` of the register word at `a` lies in a field. -/
abbrev RF.covers (f : RF) (a j : Nat) : Prop :=
  8 * f.addr + f.lsb ≤ 8 * a + j ∧ 8 * a + j < 8 * f.addr + f.lsb + f.width

/-- Every bit of every register outside the fields listed keeps its value. -/
def KeepsBut (fs : List RF) (s s' : State) : Prop :=
  ∀ a j, j < 32 → (∀ f ∈ fs, ¬ f.covers a j) → (s'.word a).testBit j = (s.word a).testBit j

/-- No lane differs but in how far its line has been run. -/
def SameLanes (s s' : State) : Prop := ∀ l, s'.lane l = { s.lane l with ran := (s'.lane l).ran }

/-- A command answers a next state, in which `P` holds. -/
def Answers (c : Instr) (s : State) (P : State → Prop) : Prop := ∃ s', exec c s = .next s' ∧ P s'

/-- A command answers a next state. Where the device runs, not held in reset by a pin or a supply (R334, R341), `P` holds in
it; what a held device does is another statement's (EveryCommandKeepsToItsReach). -/
def Does (c : Instr) (s : State) (P : State → Prop) : Prop := Answers c s fun s' => s.held = false → P s'

/-! ### The operators of a recipe -/

/-- It is instance `i`'s turn in engine `n`'s run when the command comes at `t`: its last cycle is there (R78, R103). -/
def State.Turn (s : State) (t n : Nat) (i : Inst) : Prop :=
  n < 8 ∧ s.engs.length = 8 ∧ (s.at t).instDue n = some i

/-- An output of `w` words: NONE, or a range within the signal or the angle space (R79, R102). -/
def OutFits (r w : Nat) : Prop :=
  r = 0 ∨ refSpace r = 1 ∧ refIndex r + w ≤ 1024 ∨ refSpace r = 2 ∧ refIndex r + w ≤ 64

/-- Where the signal or angle word a reference names lies in engine `n`'s local memory (Table 5-1). -/
def refAddr (n r : Nat) : Nat := ceBase n + (if refSpace r = 1 then 0x4000 else 0x5000) + 4 * refIndex r

/-- Instance `i` has run: each output listed holds its words in ascending order, or is NONE and discarded; beside them at
most its `m` state words changed; no register changed; and the run went on by the instance's cycles (R79, R103). -/
def Wrote (n : Nat) (i : Inst) (m : Nat) (outs : List (Nat × List Nat)) (s s' : State) : Prop :=
  (∀ o ∈ outs, o.1 ≠ 0 → ∀ j, j < o.2.length → s'.refRaw n (refAt o.1 j) = vat o.2 j % 2 ^ 32) ∧
  (∀ a, (∀ o ∈ outs, o.1 = 0 ∨ a < refAddr n o.1 ∨ refAddr n o.1 + 4 * o.2.length ≤ a) →
    (a < ceBase n + 0x6000 + 4 * i.state ∨ ceBase n + 0x6000 + 4 * (i.state + m) ≤ a) → s'.byte a = s.byte a) ∧
  KeepsBut [] s s' ∧
  (s'.eng n).run.map (fun r => (r.idx, r.cyc)) = (s.eng n).run.map fun r => (r.idx + 1, r.cyc + i.cycles)

end Sys2Proof.Machine
end

