-- ==== Sys2Proof/Certificates/Slice0/Obligations.lean ====
section
/-!
DEFINITION. The statements for the provers.
-/

open Sys2Proof Sys2Proof.Machine

/-- A step with a command at the front of the queue is that command's meaning on the rest
(spec/95_what_each_step_holds.md). -/
def Obligations.StepRunsTheFrontCommand : Prop :=
  ∀ (c : Instr) (s : State) (rest : List Instr), s.pending = c :: rest → step s = exec c { s with pending := rest }

/-- With no command waiting a step changes nothing (the model's choice, log entry 1)
(spec/95_what_each_step_holds.md). -/
def Obligations.StepIdlesOnAnEmptyQueue : Prop :=
  ∀ s : State, s.pending = [] → step s = .next s

/-- Every well-formed command completes, keeps the queue, and changes nothing outside the parts it reaches (log
entries 2, 84) (R3, R154, R334, R341, R25). Rests on the model's readings and choices: log entries 2, 4, 84. -/
def Obligations.EveryCommandKeepsToItsReach : Prop :=
  ∀ (c : Instr) (s : State), c.wf = true → Answers c s fun s' =>
    s'.pending = s.pending ∧ SameOutside (reachOf c) s s' ∧
    (actsHeld c = false → SameOutside (s.reachHeld (reachOf c)) s s') ∧
    (if returnsTb c s then s'.tb = 0 else s.tb ≤ s'.tb)

/-- A command that names a unit the device does not have stops with noSuchUnit, the model's own fault (log entry
11) (R13, R44, R159, R203, R296). Rests on the model's readings and choices: log entry 11. -/
def Obligations.IllFormedCommandsFault : Prop :=
  ∀ (c : Instr) (s : State), c.wf = false → exec c s = .fault .noSuchUnit

/-- From every Ok state (TB, queue, canonical memory, the spec's number of each unit) a step never stops, and its
state is Ok (R3, R154, R334, R44, R159, R203). Rests on the model's readings and choices: log entries 3, 4. -/
def Obligations.EveryStepKeepsTheDeviceRunning : Prop :=
  ∀ s : State, s.Ok → ∃ s', step s = .next s' ∧ s'.Ok ∧ s'.pending = s.pending.tail ∧
    (s.tb ≤ s'.tb ∨ ∃ c rest, s.pending = c :: rest ∧ returnsTb c { s with pending := rest } = true ∧ s'.tb = 0)

/-- The reset state is Ok, its domains run, nothing waits and memory lists nothing (the model's choices: log
entries 3, 7, 84, 114) (R3, R154). Rests on the model's readings and choices: log entries 3, 7, 84, 114. -/
def Obligations.ResetStateIsOk : Prop :=
  State.reset.Ok ∧ State.reset.held = false ∧ State.reset.pending = [] ∧ Memory.wf State.reset.mem = true ∧ State.reset.mem = []

/-- Any register-space access other than an aligned word, or a core's aligned access of a 64-bit register, is
refused (R11). -/
def Obligations.AccessesThatDoNotFitAreRefused : Prop :=
  ∀ (t who addr size v : Nat) (s : State), who < 48 → isReg addr = true →
    let fits := size = 4 ∧ addr % 4 = 0 ∨
      size = 8 ∧ addr % 8 = 0 ∧ who < 4 ∧ ((findReg addr).map fun h => (h.desc.words, h.word)) = some (2, 0)
    (¬ fits →
      (Does (.registerWrite t who addr size v) s fun s' => s'.resp.err = true ∧ KeepsBut [] s s' ∧ SameOutside [.bus] s s') ∧
      (Does (.lowWordReadCapture t who addr size) s fun s' => s'.resp.err = true ∧ KeepsBut [] s s' ∧ SameOutside [.bus] s s')) ∧
    (fits → Does (.lowWordReadCapture t who addr size) s fun s' => s'.resp.err = false) ∧
    (∀ w, w < 10 → addr = (R.LDG_POST_DATA w).addr → size = 4 → Does (.registerWrite t who addr size v) s fun s' =>
      s'.resp.err = false ∧ s'.get (R.LDG_POST_DATA w) = v % 2 ^ 32 ∧ KeepsBut [R.LDG_POST_DATA w] s s' ∧
      ∀ a, s'.byte a = s.byte a)

/-- PWM_TB returns TB at the instant of the read, its high half captured with the low one for the same requester
(R155). -/
def Obligations.TheTimebaseReadsInOnePiece : Prop :=
  ∀ (t who : Nat) (s : State), who < 48 →
    let tb := if s.clk.dll then (s.at t).tb / 640 * 640 else (s.at t).tb
    ((∀ h ∈ s.holding, ¬ (h.who = who ∧ h.addr = R.PWM_TB.addr)) →
      Does (.lowWordReadCapture t who R.PWM_TB.addr 4) s fun s1 =>
        s1.resp = ⟨false, tb % 2 ^ 32⟩ ∧ KeepsBut [] s s1 ∧
        ∀ (t2 : Nat) (s2 : State), s2.holding = s1.holding →
          Does (.lowWordReadCapture t2 who (R.PWM_TB.addr + 4) 4) s2 fun s3 =>
            s3.resp = ⟨false, tb / 2 ^ 32⟩ ∧
            (∀ h ∈ s3.holding, ¬ (h.who = who ∧ h.addr = R.PWM_TB.addr + 4)) ∧ KeepsBut [] s2 s3) ∧
    (who < 4 → s.tb < 2 ^ 64 → Does (.lowWordReadCapture t who R.PWM_TB.addr 8) s fun s' =>
      s'.resp = ⟨false, tb⟩ ∧ s'.holding = s.holding ∧ KeepsBut [] s s')

/-- One register of each access code (RW, W1C, W1S, WO, RO, RWS, RWQ) and a reserved word take a written word as
the code says (R7, R8, R9, R10, R21). Rests on the model's readings and choices: log entry 16. -/
def Obligations.FieldsTakeWritesByTheirAccessCode : Prop :=
  ∀ (t who v : Nat) (s : State), who < 48 → s.is R.TWN_CTL_EN = false →
    let write a := Instr.registerWrite t who a 4 v
    let held k := bit ((s.at t).marked R.LDG_INT_STAT.addr) k
    (Does (write R.LDG_INT_STAT.addr) s fun s' =>
      s'.resp.err = false ∧ s'.get R.LDG_INT_STAT_DROP = (if bit v 0 && !held 0 then 0 else s.get R.LDG_INT_STAT_DROP) ∧
      s'.get R.LDG_INT_STAT_FAIL = (if bit v 1 && !held 1 then 0 else s.get R.LDG_INT_STAT_FAIL) ∧
      s'.get R.LDG_INT_STAT_ERASE_DONE = (if bit v 2 && !held 2 then 0 else s.get R.LDG_INT_STAT_ERASE_DONE) ∧
      s'.get R.LDG_INT_STAT_CLEARED = (if bit v 3 && !held 3 then 0 else s.get R.LDG_INT_STAT_CLEARED) ∧
      s'.get R.LDG_INT_STAT_RES_FAIL = (if bit v 4 && !held 4 then 0 else s.get R.LDG_INT_STAT_RES_FAIL) ∧
      KeepsBut [R.LDG_INT_STAT] s s') ∧
    (∀ w, w < 10 → Does (write (R.LDG_POST_DATA w).addr) s fun s' =>
      s'.resp.err = false ∧ s'.get (R.LDG_POST_DATA w) = v % 2 ^ 32 ∧ KeepsBut [R.LDG_POST_DATA w] s s') ∧
    (Does (write R.WCH_SREQ.addr) s fun s' => s'.resp.err = false ∧ KeepsBut [R.WCH_SREQ] s s' ∧
      ∀ k, k < 4 → bit (s'.get R.WCH_SREQ) k = (bit (s.get R.WCH_SREQ) k || bit v k)) ∧
    (v % 32 = 0 → Does (write R.PWR_CMD_WARM.addr) s fun s' => s'.resp.err = false ∧ KeepsBut [] s s') ∧
    (s.word R.PWR_CMD_WARM.addr = 0 → (∀ h ∈ s.holding, ¬ (h.who = who ∧ h.addr = R.PWR_CMD_WARM.addr)) →
      Does (.lowWordReadCapture t who R.PWR_CMD_WARM.addr 4) s fun s' => s'.resp = {} ∧ KeepsBut [] s s') ∧
    (Does (write R.LDG_FAILPOS.addr) s fun s' => s'.resp.err = false ∧ KeepsBut [] s s') ∧
    (∀ w, w < 256 →
      (s.sealOn = false → Does (write (R.WCH_PSWIN w).addr) s fun s' => s'.resp.err = true ∧ KeepsBut [] s s') ∧
      (s.sealOn = true → Does (write (R.WCH_PSWIN w).addr) s fun s' =>
        s'.resp.err = false ∧ s'.get (R.WCH_PSWIN w) = v % 2 ^ 32 ∧ KeepsBut [R.WCH_PSWIN w] s s')) ∧
    (∀ p, p < 4 →
      ((∀ n, s.ownerOf .tracker p = some n → s.sheetQuiesced n = true) → Does (write (R.PHT_PT_GAIN p).addr) s fun s' =>
        s'.resp.err = false ∧ s'.get (R.PHT_PT_GAIN p) = v % 2 ^ (R.PHT_PT_GAIN p).width ∧ KeepsBut [R.PHT_PT_GAIN p] s s') ∧
      (∀ n, s.ownerOf .tracker p = some n → s.sheetQuiesced n = false → Does (write (R.PHT_PT_GAIN p).addr) s fun s' =>
        s'.resp.err = true ∧ KeepsBut [] s s')) ∧
    (Does (write 0x40000A00) s fun s' => s'.resp.err = false ∧ KeepsBut [] s s') ∧
    (s.word 0x40000A00 = 0 → (∀ h ∈ s.holding, ¬ (h.who = who ∧ h.addr = 0x40000A00)) →
      Does (.lowWordReadCapture t who 0x40000A00 4) s fun s' => s'.resp = {} ∧ KeepsBut [] s s')

/-- A frame holds every input with its slice of the rotation; its words come out corrected and presented, and
over-range sticks (R44, R45, R46, R47, R48, R56, R61). -/
def Obligations.FramesHoldAndPresentTheirWords : Prop :=
  ∀ (t n : Nat) (s : State), n < 4 → s.adcs.length = 4 → s.chains.length = 32 →
    let now := s.at t
    let x := s.adc n
    (now.tb % 800 ≠ 0 ∨ s.smpRuns = false → Does (.adcFrame t) s fun s' =>
      s'.adcs = s.adcs ∧ s'.chains = s.chains ∧ KeepsBut [] s s') ∧
    (now.tb % 800 = 0 ∧ s.smpRuns = true ∧ s.scr.f0 = none → s.is (R.ADC_CTL_EN n) = true ∧ s.is (R.ADC_STAT_READY n) = true ∧
      s.is (R.ADC_STAT_WATCH n) = false ∧ s.is (R.ADC_CTL_WATCH n) = false →
      x.held = [] ∧ x.handover = false ∧ x.settle = none ∧ x.watchOn = false ∧ x.pres = [] → Does (.adcFrame t) s fun s' =>
        let v := lfsrStep 6 (s.get (R.ADC_LFSR n))
        let slices := (List.range 9).filter fun k => k ≠ s.get (R.ADC_STAT_FREE n) && !bit (s.get (R.ADC_STAT_RETIRED n)) k
        s'.get (R.ADC_LFSR n) = v % 2 ^ 15 ∧
        (s'.adc n).held.map (fun f => (f.at_, f.slices, f.se, f.fmt, f.watch)) =
          [(now.tb, (List.range 8).map (fun i => (i, slices[((i ^^^ bits v 3 3) + bits v 0 3) % 8]?)), x.se, x.fmt, false)] ∧
        ∀ i, i < 8 →
          let c := s.chain (8 * n + i)
          let on := (s.get (R.SCR_PH (8 * n + i)) + c.adv) % 128
          s'.get (R.SCR_PH (8 * n + i)) = if c.begun then (match c.resetAt with
            | some r => if r ≤ now.tb then (now.tb - r) / 800 % 128 else on
            | none => on) else now.tb / 800 % 128) ∧
    (∀ codes residue, ∀ f rest, x.held = f :: rest →
      (now.tb < f.at_ + 1600 → Does (.mainPathWord t n codes residue) s fun s' => s'.adcs = s.adcs ∧ KeepsBut [] s s') ∧
      (f.at_ + 1600 ≤ now.tb → f.slices.map (·.1) = List.range 8 → x.vprev.length = 8 → residue = 0 →
        Does (.mainPathWord t n codes residue) s fun s' =>
          (s'.adc n).held = rest ∧
          ∀ i, i < 8 → ∀ k, (f.slices.getD i (0, none)).2 = some k →
            let q := toS 16 (codes.getD i 0)
            let u := q * 256 - toS 16 (s.get (R.ADC_SL_OFF n k))
            let v := u + divRne (u * toS 16 (s.get (R.ADC_SL_GAIN n k))) 1048576
            let w := v + divRne (toS 12 (s.get (R.ADC_SL_BW n k)) * (v - x.vprev.getD i 0)) 16384
            (s'.adc n).vprev.getD i 0 = v ∧
            s'.get (R.ADC_RAW n i) = present (bits f.fmt (2 * i) 2) (bit f.se i) (satS 24 w) % 2 ^ 32 ∧
            (q = 0x7FFF ∨ q = -0x8000 ∨ satS 24 w ≠ w →
              bit (s'.get (R.ADC_OVR n)) i = true ∧ s'.get (R.ADC_INT_STAT_OVR n) = 1)) ∧
      (f.at_ + 1600 ≤ now.tb → residue % 256 ≠ 0 → Does (.mainPathWord t n codes residue) s fun s' =>
        s'.get R.HLT_SCREEN = s.get R.HLT_SCREEN ||| (residue % 256) <<< (8 * n) ∧
        bit (s'.get R.HLT_REPLACE_REASONS) 2 = true ∧ (s'.adc n).held = rest)) ∧
    (∀ codes residue, x.held = [] → Does (.mainPathWord t n codes residue) s fun s' => s'.adcs = s.adcs ∧ KeepsBut [] s s') ∧
    (∀ v, Does (.lfsrWrite t n v) s fun s' =>
      s'.get (R.ADC_LFSR n) = (if v % 2 ^ 15 = 0 then 1 else v % 2 ^ 15) ∧ s'.adcs = s.adcs ∧ KeepsBut [R.ADC_LFSR n] s s') ∧
    (∀ v, Does (.presentationWrite t n true v) s fun s' =>
      s'.get (R.ADC_FMT n) = v % 2 ^ (R.ADC_FMT n).width ∧
      (s'.adc n).pres = x.pres ++ [(now.tb, true, v % 2 ^ (R.ADC_FMT n).width)] ∧ (s'.adc n).fmt = x.fmt ∧
      KeepsBut [R.ADC_FMT n] s s') ∧
    (∀ v, Does (.presentationWrite t n false v) s fun s' =>
      s'.get (R.ADC_SE n) = v % 2 ^ (R.ADC_SE n).width ∧
      (s'.adc n).pres = x.pres ++ [(now.tb, false, v % 2 ^ (R.ADC_SE n).width)] ∧ (s'.adc n).se = x.se ∧
      KeepsBut [R.ADC_SE n] s s')

/-- The free slice calibrates in 20 000 steps, commits or fails within its limits, and hands over; two failures
retire it (R49, R50, R51, R54). Rests on the model's readings and choices: log entries 25, 115, 118. -/
def Obligations.SlicesAreCalibratedInTurn : Prop :=
  ∀ (t n : Nat) (s : State), n < 4 → s.adcs.length = 4 →
    let now := s.at t
    let x := s.adc n
    let k := s.get (R.ADC_STAT_FREE n)
    let live := s.is (R.ADC_CTL_EN n) && s.is (R.ADC_STAT_READY n) && !s.is (R.ADC_STAT_WATCH n)
    (∀ off gain skew bw, live = true → s.smpRuns = true → s.is (R.ADC_CTL_CALEN n) = true → k < 9 → x.snap = none →
      x.handover = false → x.calFrom + 6400 ≤ now.tb →
      (x.steps + 1 < 20000 → Does (.calStep t n off gain skew bw) s fun s' =>
        (s'.adc n).steps = x.steps + 1 ∧ (s'.adc n).calFrom = x.calFrom + 6400 ∧
        s'.get (R.ADC_STAT_CALPHASE n) = (if x.steps + 1 < 4000 then 1 else if x.steps + 1 < 10000 then 2
          else if x.steps + 1 < 16000 then 3 else if x.steps + 1 < 19000 then 4 else 5) ∧
        KeepsBut [R.ADC_STAT_CALPHASE n] s s') ∧
      (20000 ≤ x.steps + 1 → off.natAbs ≤ 24576 ∧ gain.natAbs ≤ 26214 ∧ -128 ≤ skew ∧ skew ≤ 127 ∧ bw.natAbs ≤ 2047 →
        Does (.calStep t n off gain skew bw) s fun s' =>
          s'.get (R.ADC_SL_OFF n k) = ofS 16 off ∧ s'.get (R.ADC_SL_GAIN n k) = ofS 16 gain ∧
          s'.get (R.ADC_SL_SKEW_SKEW n k) = ofS 8 skew ∧ s'.get (R.ADC_SL_BW n k) = ofS 12 bw ∧
          s'.get (R.ADC_SL_SKEW_FAILS n k) = 0 ∧ s'.get (R.ADC_INT_STAT_CAL_DONE n) = 1 ∧
          s'.get (R.ADC_STAT_CAL_STARVED n) = 0 ∧ s'.get (R.ADC_STAT_CALPHASE n) = 0 ∧
          (s'.adc n).handover = true ∧ (s'.adc n).starve = now.tb ∧
          KeepsBut [R.ADC_SL_OFF n k, R.ADC_SL_GAIN n k, R.ADC_SL_SKEW_SKEW n k, R.ADC_SL_BW n k, R.ADC_SL_SKEW_FAILS n k,
            R.ADC_INT_STAT_CAL_DONE n, R.ADC_STAT_CAL_STARVED n, R.ADC_STAT_CALPHASE n] s s') ∧
      (20000 ≤ x.steps + 1 → 24576 < off.natAbs ∨ 26214 < gain.natAbs ∨ skew < -128 ∨ 127 < skew ∨ 2047 < bw.natAbs →
        (s.get (R.ADC_SL_SKEW_FAILS n k) = 0 → Does (.calStep t n off gain skew bw) s fun s' =>
          s'.get (R.ADC_SL_SKEW_FAILS n k) = 1 ∧ s'.get (R.ADC_INT_STAT_CAL_FAIL n) = 1 ∧ (s'.adc n).handover = true ∧
          KeepsBut [R.ADC_SL_SKEW_FAILS n k, R.ADC_INT_STAT_CAL_FAIL n, R.ADC_STAT_CALPHASE n] s s') ∧
        (s.get (R.ADC_SL_SKEW_FAILS n k) = 1 → Does (.calStep t n off gain skew bw) s fun s' =>
          s'.get (R.ADC_SL_SKEW_FAILS n k) = 2 ∧ bit (s'.get (R.ADC_STAT_RETIRED n)) k = true ∧
          s'.get (R.ADC_STAT_FREE n) = 15 ∧ s'.get (R.ADC_STAT_CALPHASE n) = 0 ∧ s'.get (R.ADC_INT_STAT_RETIRE n) = 1 ∧
          bit (s'.get R.HLT_REPLACE_REASONS) 1 = true ∧ (s'.adc n).handover = false))) ∧
    (x.handover = true → x.snap = none → now.tb % 800 = 0 → s.is (R.ADC_STAT_WATCH n) = false → k < 9 →
      Does (.calHandover t n) s fun s' =>
        s'.get (R.ADC_STAT_FREE n) = (k + 1) % 9 ∧
        s'.get (R.ADC_CALCNT n) = (s.get (R.ADC_CALCNT n) + if s.get (R.ADC_SL_SKEW_FAILS n k) = 0 then 1 else 0)
          % 2 ^ (R.ADC_CALCNT n).width ∧
        s'.get (R.ADC_STAT_CALPHASE n) = b2n (live && s.smpRuns && s.is (R.ADC_CTL_CALEN n)) ∧
        (s'.adc n).handover = false ∧ (s'.adc n).steps = 0 ∧ (s'.adc n).calFrom = now.tb ∧
        KeepsBut [R.ADC_STAT_FREE n, R.ADC_CALCNT n, R.ADC_STAT_CALPHASE n] s s') ∧
    (x.handover = false ∨ x.snap.isSome = true ∨ now.tb % 800 ≠ 0 → Does (.calHandover t n) s fun s' =>
      s'.adcs = s.adcs ∧ KeepsBut [] s s') ∧
    (live = true → s.is (R.ADC_CTL_CALEN n) = true → k < 9 → x.starve + 4096000000 ≤ now.tb →
      s.is (R.ADC_STAT_CAL_STARVED n) = false → Does (.calStarvedTimeout t n) s fun s' =>
        s'.get (R.ADC_STAT_CAL_STARVED n) = 1 ∧ s'.get (R.ADC_INT_STAT_CAL_STARVED n) = 1 ∧
        KeepsBut [R.ADC_STAT_CAL_STARVED n, R.ADC_INT_STAT_CAL_STARVED n] s s') ∧
    (now.tb < x.starve + 4096000000 → Does (.calStarvedTimeout t n) s fun s' => s'.adcs = s.adcs ∧ KeepsBut [] s s') ∧
    (s.is (R.ADC_CTL_CALEN n) = false → s.is (R.ADC_STAT_CALPHASE n) = true → x.calFrom + 6400 ≤ now.tb →
      ∀ off gain skew bw, Does (.calStep t n off gain skew bw) s fun s' =>
        s'.get (R.ADC_STAT_CALPHASE n) = 0 ∧ (s'.adc n).steps = 0 ∧ KeepsBut [R.ADC_STAT_CALPHASE n] s s') ∧
    (Does (.calenChange t n false) s fun s' =>
      s'.get (R.ADC_CTL_CALEN n) = 0 ∧ s'.adcs = s.adcs ∧ KeepsBut [R.ADC_CTL_CALEN n] s s') ∧
    (Does (.calenChange t n true) s fun s' =>
      s'.get (R.ADC_CTL_CALEN n) = 1 ∧ (s'.adc n).steps = 0 ∧ (s'.adc n).calFrom = now.tb ∧ (s'.adc n).starve = now.tb ∧
      s'.get (R.ADC_STAT_CALPHASE n) = b2n (live && s.smpRuns && decide (k < 9) && !x.handover) ∧
      KeepsBut [R.ADC_CTL_CALEN n, R.ADC_STAT_CALPHASE n] s s')

/-- A trigger takes the free slice or is dropped and counted; the result and its stamp are written; reads capture
their stamps (R48, R52, R53, R55, R75). Rests on the model's readings and choices: log entries 24, 30, 117,
166. -/
def Obligations.SnapshotsTakeTheFreeSlice : Prop :=
  ∀ (t n : Nat) (s : State), n < 4 → s.adcs.length = 4 →
    let now := s.at t
    let x := s.adc n
    (∀ slot, slot < 4 → s.is (R.ADC_CTL_EN n) = true ∧ s.smpRuns = true ∧ x.handover = false ∧ 256 ≤ now.tb →
      (∀ j, j < 4 → s.is (R.ADC_SNAP_CFG_EN n j) = decide (j = slot)) →
      (s.group (s.get (R.ADC_SNAP_CFG_PG n slot))).fired.getD (s.get (R.ADC_SNAP_CFG_TRG n slot)) none = some (now.tb - 256) →
      (x.snap = none → s.get (R.ADC_STAT_FREE n) < 9 ∧ s.is (R.ADC_STAT_READY n) = true ∧ s.is (R.ADC_STAT_WATCH n) = false →
        Does (.snapshotTrigger t n) s fun s' =>
          (s'.adc n).snap = some ⟨slot, s.get (R.ADC_SNAP_CFG_INPUT n slot), now.tb, now.tb + 384⟩ ∧ KeepsBut [] s s') ∧
      (∀ y, x.snap = some y → y.trig / 100 < now.tb / 100 → Does (.snapshotTrigger t n) s fun s' =>
        s'.get (R.ADC_SNAPMISS n) = min (s.get (R.ADC_SNAPMISS n) + 1) (2 ^ (R.ADC_SNAPMISS n).width - 1) ∧
        s'.get (R.ADC_INT_STAT_SNAP_MISS n) = 1 ∧ s'.adcs = s.adcs ∧
        KeepsBut [R.ADC_SNAPMISS n, R.ADC_INT_STAT_SNAP_MISS n] s s')) ∧
    (s.is (R.ADC_CTL_EN n) = false → Does (.snapshotTrigger t n) s fun s' => s'.adcs = s.adcs ∧ KeepsBut [] s s') ∧
    (∀ code, ∀ y, x.snap = some y → y.slot < 4 → y.input < 8 →
      (now.tb < y.hold + 960 → Does (.snapshotDone t n code) s fun s' => s'.adcs = s.adcs ∧ KeepsBut [] s s') ∧
      (y.hold + 960 ≤ now.tb → Does (.snapshotDone t n code) s fun s' =>
        let k := s.get (R.ADC_STAT_FREE n)
        let u := toS 16 code * 256 - toS 16 (s.get (R.ADC_SL_OFF n k))
        let v := u + divRne (u * toS 16 (s.get (R.ADC_SL_GAIN n k))) 1048576
        s'.get (R.ADC_SNAP_DATA n y.slot) =
          present (bits x.fmt (2 * y.input) 2) (bit x.se y.input) (satS 24 v) % 2 ^ 32 ∧
        s'.get (R.ADC_SNAP_STAMP n y.slot) = y.hold % 2 ^ 32 ∧
        s'.get (R.ADC_SNAP_COUNT n y.slot) =
          (s.get (R.ADC_SNAP_COUNT n y.slot) + 1) % 2 ^ (R.ADC_SNAP_COUNT n y.slot).width ∧
        bit (s'.get (R.ADC_INT_STAT_SNAP_DONE n)) y.slot = true ∧ (s'.adc n).snap = none ∧
        KeepsBut [R.ADC_SNAP_DATA n y.slot, R.ADC_SNAP_STAMP n y.slot, R.ADC_SNAP_COUNT n y.slot, R.ADC_INT_STAT_SNAP_DONE n,
          R.ADC_OVR n, R.ADC_INT_STAT_OVR n] s s')) ∧
    (∀ who slot, who < 48 → slot < 4 → Does (.snapDataRead t who n slot) s fun s' =>
      s'.resp = ⟨false, s.get (R.ADC_SNAP_DATA n slot)⟩ ∧
      ⟨who, (R.ADC_SNAP_STAMP n slot).addr, s.get (R.ADC_SNAP_STAMP n slot)⟩ ∈ s'.holding ∧
      ⟨who, (R.ADC_SNAP_COUNT n slot).addr, s.get (R.ADC_SNAP_COUNT n slot)⟩ ∈ s'.holding ∧ KeepsBut [] s s') ∧
    (∀ who tap, who < 48 → tap < 256 → tap % 8 ≠ 7 → Does (.tapValRead t who tap) s fun s' =>
      s'.resp = ⟨false, s.get (R.SCR_TAP_VAL tap)⟩ ∧
      ⟨who, (R.SCR_TAP_STAMP tap).addr, s.get (R.SCR_TAP_STAMP tap)⟩ ∈ s'.holding ∧ KeepsBut [] s s')

/-- An input test settles, means and gives its verdict, or is refused with its code; watch mode is entered and
left at frames (R57, R58, R59). Rests on the model's readings and choices: log entries 26, 115, 163, 164, 165. -/
def Obligations.TestsAndWatchModeOfAGroup : Prop :=
  ∀ (t n : Nat) (s : State), n < 4 → s.adcs.length = 4 →
    let now := s.at t
    let x := s.adc n
    let i := s.get (R.ADC_TCFG_INPUT n)
    let kind := s.get (R.ADC_TCFG_KIND n)
    let taken := (List.range 8).any fun j => s.inputTaken (8 * n + j)
    (s.is (R.ADC_TSTAT_BUSY n) = false →
      (s.inputTaken (8 * n + i) = true → s.ownSamples = true → Does (.testStart t n) s fun s' =>
        s'.get (R.ADC_TSTAT_ERR n) = 1 ∧ s'.get (R.ADC_INT_STAT_TEST_DONE n) = 1 ∧ s'.adcs = s.adcs ∧
        KeepsBut [R.ADC_TSTAT_ERR n, R.ADC_INT_STAT_TEST_DONE n] s s') ∧
      ((s.inputTaken (8 * n + i) && s.ownSamples) = false →
        (s.is (R.ADC_STAT_WATCH n) = true → Does (.testStart t n) s fun s' =>
          s'.get (R.ADC_TSTAT_ERR n) = 2 ∧ s'.get (R.ADC_INT_STAT_TEST_DONE n) = 1 ∧ s'.adcs = s.adcs) ∧
        (s.is (R.ADC_STAT_WATCH n) = false → kind = 3 → Does (.testStart t n) s fun s' =>
          s'.get (R.ADC_TSTAT_ERR n) = 3 ∧ s'.get (R.ADC_INT_STAT_TEST_DONE n) = 1 ∧ s'.adcs = s.adcs) ∧
        (s.is (R.ADC_STAT_WATCH n) = false → kind ≠ 3 → Does (.testStart t n) s fun s' =>
          s'.get (R.ADC_TSTAT_BUSY n) = 1 ∧ s'.get (R.ADC_STAT_TESTING n) = 1 ∧ s'.get (R.ADC_TSTAT_ERR n) = 0 ∧
          s'.get (R.ADC_TSTAT_VERDICT n) = 0 ∧
          (s'.adc n).test = some ⟨if kind = 2 then 1 else 2, i, kind, s.get (R.ADC_TCFG_AVG n), now.tb, 0, 0⟩ ∧
          KeepsBut [R.ADC_TSTAT_BUSY n, R.ADC_STAT_TESTING n, R.ADC_TSTAT_ERR n, R.ADC_TSTAT_VERDICT n] s s'))) ∧
    (s.is (R.ADC_TSTAT_BUSY n) = true → Does (.testAbort t n) s fun s' =>
      s'.get (R.ADC_TSTAT_ERR n) = 3 ∧ s'.get (R.ADC_TSTAT_BUSY n) = 0 ∧ s'.get (R.ADC_STAT_TESTING n) = 0 ∧
      s'.get (R.ADC_INT_STAT_TEST_DONE n) = 1 ∧ (s'.adc n).test = none) ∧
    (s.is (R.ADC_TSTAT_BUSY n) = false → Does (.testAbort t n) s fun s' => s'.adcs = s.adcs ∧ KeepsBut [] s s') ∧
    (∀ y, x.test = some y →
      (y.phase = 2 → y.since + 160000 * s.get (R.ADC_TTHR_SETTLE n) ≤ now.tb → Does (.testSettleEnd t n) s fun s' =>
        (s'.adc n).test = some ⟨3, y.input, y.kind, y.avg, now.tb, 0, 0⟩ ∧ KeepsBut [] s s') ∧
      (y.phase ≠ 2 ∨ now.tb < y.since + 160000 * s.get (R.ADC_TTHR_SETTLE n) → Does (.testSettleEnd t n) s fun s' =>
        s'.adcs = s.adcs ∧ KeepsBut [] s s') ∧
      (y.phase = 1 → 2 ^ y.avg ≤ y.cnt → Does (.testMeanEnd t n) s fun s' =>
        s'.get (R.ADC_TBASE n) = ofS 32 (divRne y.sum (2 ^ y.avg)) ∧
        (s'.adc n).test = some ⟨2, y.input, y.kind, y.avg, now.tb, 0, 0⟩ ∧ KeepsBut [R.ADC_TBASE n] s s') ∧
      (y.phase = 3 → 2 ^ y.avg ≤ y.cnt → Does (.testMeanEnd t n) s fun s' =>
        let m := divRne y.sum (2 ^ y.avg)
        s'.get (R.ADC_TRES n) = ofS 32 m ∧
        s'.get (R.ADC_TSTAT_VERDICT n) = (if y.kind = 2 then
          (if s.get (R.ADC_TTHR_THR n) < (m - toS 32 (s.get (R.ADC_TBASE n))).natAbs then 2 else 1)
          else s.get (R.ADC_TSTAT_VERDICT n)) ∧
        s'.get (R.ADC_TSTAT_BUSY n) = 0 ∧ s'.get (R.ADC_INT_STAT_TEST_DONE n) = 1 ∧ (s'.adc n).test = none) ∧
      (y.cnt < 2 ^ y.avg → Does (.testMeanEnd t n) s fun s' => s'.adcs = s.adcs ∧ KeepsBut [] s s')) ∧
    (taken = true → Does (.watchRequest t n) s fun s' =>
      s'.get (R.ADC_INT_STAT_WATCH_REFUSED n) = 1 ∧ s'.adcs = s.adcs ∧ KeepsBut [R.ADC_INT_STAT_WATCH_REFUSED n] s s') ∧
    (taken = false → Does (.watchRequest t n) s fun s' =>
      s'.get (R.ADC_CTL_WATCH n) = 1 ∧ (s'.adc n).settle = none ∧ KeepsBut [R.ADC_CTL_WATCH n] s s') ∧
    (s.smpRuns = true → s.is (R.ADC_CTL_WATCH n) = true → s.is (R.ADC_STAT_WATCH n) = false → now.tb % 800 = 0 →
      Does (.watchEnter t n) s fun s' =>
        s'.get (R.ADC_STAT_WATCH n) = 1 ∧ s'.get (R.ADC_INT_STAT_WATCH_CHG n) = 1 ∧ s'.get (R.ADC_STAT_CALPHASE n) = 0 ∧
        (s'.adc n).steps = 0 ∧
        KeepsBut [R.ADC_STAT_WATCH n, R.ADC_INT_STAT_WATCH_CHG n, R.ADC_STAT_CALPHASE n] s s') ∧
    (s.is (R.ADC_CTL_WATCH n) = false ∨ now.tb % 800 ≠ 0 → Does (.watchEnter t n) s fun s' =>
      s'.adcs = s.adcs ∧ KeepsBut [] s s') ∧
    (Does (.watchExitRequest t n) s fun s' => s'.get (R.ADC_CTL_WATCH n) = 0 ∧
      (s'.adc n).settle = (if s.is (R.ADC_STAT_WATCH n) then some (now.tb + 320000) else x.settle) ∧
      KeepsBut [R.ADC_CTL_WATCH n] s s') ∧
    (∀ u, x.settle = some u →
      (s.smpRuns = true → u ≤ now.tb → now.tb % 12800 = 0 → Does (.watchExit t n) s fun s' =>
        s'.get (R.ADC_STAT_WATCH n) = 0 ∧ s'.get (R.ADC_INT_STAT_WATCH_CHG n) = 1 ∧ (s'.adc n).settle = none ∧
        (s'.adc n).watchOn = false ∧ (s'.adc n).steps = 0 ∧
        KeepsBut [R.ADC_STAT_WATCH n, R.ADC_INT_STAT_WATCH_CHG n, R.ADC_STAT_CALPHASE n] s s') ∧
      (now.tb < u ∨ now.tb % 12800 ≠ 0 → Does (.watchExit t n) s fun s' =>
        s'.adcs = s.adcs ∧ s'.chains = s.chains ∧ KeepsBut [] s s'))

/-- A SYNC request accepts one reset frame and drives SYNC for its own; the reset restarts phases; a fast window's
EN restarts it (R68, R69, R70, R73). Rests on the model's readings and choices: log entry 167. -/
def Obligations.ChainsFollowSyncAndFastWindows : Prop :=
  ∀ (t : Nat) (s : State), s.chains.length = 32 → s.adcs.length = 4 →
    let now := s.at t
    (s.scr.f0 = none →
      (s.syncSrc = 1 → Does (.syncPinEdge t) s fun s' =>
        s'.scr = { s.scr with f0 := some ((now.tb + 1600 + 799) / 800 * 800) } ∧ s'.chains = s.chains ∧ KeepsBut [] s s') ∧
      (s.syncDrives = true → Does (.syncReset t) s fun s' =>
        let f := (now.tb + 2400 + 799) / 800 * 800
        s'.scr = { s.scr with f0 := some f, drive := s.scr.drive ++ [f] } ∧ s'.chains = s.chains ∧ KeepsBut [] s s') ∧
      (s.syncDrives = false → Does (.syncReset t) s fun s' =>
        s'.scr = { s.scr with f0 := some ((now.tb + 2400 + 799) / 800 * 800) } ∧ s'.chains = s.chains ∧ KeepsBut [] s s') ∧
      Does (.phaseReset t) s fun s' => s'.scr = s.scr ∧ s'.chains = s.chains ∧ KeepsBut [] s s') ∧
    (s.syncSrc ≠ 1 → Does (.syncPinEdge t) s fun s' => s'.scr = s.scr ∧ s'.chains = s.chains ∧ KeepsBut [] s s') ∧
    (∀ f, s.scr.f0 = some f →
      (now.tb < f → Does (.syncReset t) s fun s' =>
        s'.get R.SCR_SYNC_STAT_IGN = min (s.get R.SCR_SYNC_STAT_IGN + 1) (2 ^ R.SCR_SYNC_STAT_IGN.width - 1) ∧
        s'.get R.SCR_INT_STAT_SYNC_IGN = 1 ∧ s'.scr = s.scr ∧ s'.chains = s.chains ∧
        KeepsBut [R.SCR_SYNC_STAT_IGN, R.SCR_INT_STAT_SYNC_IGN] s s') ∧
      (now.tb < f → Does (.phaseReset t) s fun s' => s'.scr = s.scr ∧ s'.chains = s.chains ∧ KeepsBut [] s s') ∧
      (f ≤ now.tb → Does (.phaseReset t) s fun s' =>
        s'.scr.f0 = none ∧ s'.get R.SCR_SYNC_LAST = f % 2 ^ 32 ∧ s'.get R.SCR_INT_STAT_SYNC = 1 ∧
        s'.get R.SCR_SYNC_STAT_COUNT = (s.get R.SCR_SYNC_STAT_COUNT + 1) % 2 ^ R.SCR_SYNC_STAT_COUNT.width ∧
        ∀ i, i < 32 →
          (bit s.syncMask i = false → s'.get (R.SCR_PH i) = s.get (R.SCR_PH i) ∧ s'.chain i = s.chain i) ∧
          (bit s.syncMask i = true → (s.adc (i / 8)).watchOn = false →
            s'.get (R.SCR_PH i) = 0 ∧
            s'.chain i = { s.chain i with adv := ((now.tb + 799) / 800 * 800 - f) / 800, frameAt := f, resetAt := none }) ∧
          (bit s.syncMask i = true → (s.adc (i / 8)).watchOn = true →
            s'.get (R.SCR_PH i) = s.get (R.SCR_PH i) ∧ 
            s'.chain i = { s.chain i with resetAt := some ((f + 12799) / 12800 * 12800) }))) ∧
    (Does (.syncOutputEdge t) s fun s' =>
      s'.scr.syncOut = (s.scr.drive.any fun f => decide (f ≤ now.tb + 2000) && decide (now.tb < f + 1200)) ∧
      s'.chains = s.chains ∧ KeepsBut [] s s') ∧
    (∀ i, i < 32 →
      (Does (.fastWindowEnable t i true) s fun s' =>
        s'.get (R.SCR_FW_CFG_EN i) = 1 ∧ s'.chain i = { s.chain i with outs := 0, ins := 0 } ∧
        KeepsBut [R.SCR_FW_CFG_EN i] s s') ∧
      (bit (s.get R.SCR_FW_OUT) i = false → Does (.fastWindowEnable t i false) s fun s' =>
        s'.get (R.SCR_FW_CFG_EN i) = 0 ∧ s'.chain i = { s.chain i with outs := 0, ins := 0 } ∧
        KeepsBut [R.SCR_FW_CFG_EN i] s s') ∧
      (bit (s.get R.SCR_FW_OUT) i = true → Does (.fastWindowEnable t i false) s fun s' =>
        s'.get (R.SCR_FW_CFG_EN i) = 0 ∧ bit (s'.get R.SCR_FW_OUT) i = false ∧ s'.fsOn (16 + i) = false ∧
        s'.chain i = { s.chain i with outs := 0, ins := 0 }))

/-- Mould commands begin with what their checks gave and act at their end; a sheet is asked to rest, seen at rest,
and released (R35, R36, R37, R39, R40, R41, R43, R267). Rests on the model's readings and choices: log entries
104, 105, 108. -/
def Obligations.MouldCommandsAndSheetsAtRest : Prop :=
  ∀ (t : Nat) (s : State), s.engs.length = 8 →
    let same (s' : State) := ∀ a, s'.byte a = s.byte a
    (∀ k sh, k < 4 → sh < 16 → ∀ c op (r : Nat × Bad), (c = Instr.mldProgram t k ∧ op = 1 ∧
        r = (if s.stageOk (s.get R.MLD_STAGE_BASE) (s.get R.MLD_STAGE_LEN) then
          firstCode [s.checkImage (s.readBytes (s.get R.MLD_STAGE_BASE) (min (s.get R.MLD_STAGE_LEN) 0x100000))
            (min (s.get R.MLD_STAGE_LEN) 0x100000) [], (if s.slotUsed k then 0x16 else 0, 0, 0)] else (1, 0, 0))) ∨
        (c = .mldCheck t k ∧ op = 2 ∧ r = s.checkSlot k) ∨ (c = .mldReload t k sh ∧ op = 3 ∧ r = s.reloadCode k sh) ∨
        (c = .mldWithdraw t k ∧ op = 4 ∧ r = (if !s.slotValid k then 0x13 else if s.slotUsed k then 0x16 else 0, 0, 0)) ∨
        (c = .mldStartLoad t k ∧ op = 5 ∧ r = s.startLoadCode k) →
      (s.is R.MLD_STAT_BUSY = true → Does c s fun s' => s'.get R.MLD_ERR_CODE = 0x12 ∧ s'.get R.MLD_ERROFF = 0 ∧
        s'.get R.MLD_INT_STAT_ERR = 1 ∧ s'.mld = s.mld ∧ s'.get R.MLD_STAT_STATE = s.get R.MLD_STAT_STATE ∧ same s') ∧
      (s.is R.MLD_STAT_BUSY = false → Does c s fun s' =>
        s'.get R.MLD_STAT_BUSY = 1 ∧ s'.mld.own = s.mld.own ∧
        s'.mld.cmd.map (fun x => (x.op, x.slot, x.code, x.off)) = some (op, k, r.1, r.2.1) ∧
        (op = 3 → s'.mld.cmd.map (·.sheet) = some sh) ∧
        s'.get R.MLD_STAT_STATE = (if op = 5 ∧ r.1 = 0 then 1 else s.get R.MLD_STAT_STATE) ∧
        (if op = 1 ∧ r.1 = 0 then s'.readLe (0x92000000 + 0x100000 * k) 4 = 0 ∧
            ∀ a, a < 0x92000000 + 0x100000 * k ∨ 0x92000004 + 0x100000 * k ≤ a → s'.byte a = s.byte a
          else same s') ∧
        KeepsBut [R.MLD_STAT_BUSY, R.MLD_STAT_STATE, R.MLD_INT_STAT_QCHG] s s')) ∧
    (∀ back ps,
      (s.mld.cmd = none → Does (.mldCommandEnd t back ps) s fun s' => s'.mld = s.mld ∧ KeepsBut [] s s' ∧ same s') ∧
      (∀ c, s.mld.cmd = some c → c.slot < 4 → c.sheet < 12 → c.code < 256 → c.errSheet < 16 → c.off < 2 ^ 32 →
        (c.code ≠ 0 → Does (.mldCommandEnd t back ps) s fun s' => s'.get R.MLD_STAT_BUSY = 0 ∧ s'.mld.cmd = none ∧
          s'.get R.MLD_ERR_CODE = c.code ∧ s'.get R.MLD_ERR_SHEET = c.errSheet ∧ s'.get R.MLD_ERROFF = c.off ∧
          s'.get R.MLD_INT_STAT_ERR = 1 ∧ same s') ∧
        (c.code = 0 →
          (c.op = 2 → Does (.mldCommandEnd t back ps) s fun s' => s'.get R.MLD_STAT_BUSY = 0 ∧ s'.mld.cmd = none ∧
            s'.get R.MLD_ERR_CODE = 0 ∧ s'.get R.MLD_INT_STAT_DONE = 1 ∧ same s') ∧
          (c.op = 4 → Does (.mldCommandEnd t back ps) s fun s' => s'.get R.MLD_STAT_BUSY = 0 ∧ s'.mld.cmd = none ∧
            s'.get R.MLD_ERR_CODE = 0 ∧ s'.get R.MLD_INT_STAT_DONE = 1 ∧ s'.readLe (0x92000000 + 0x100000 * c.slot) 4 = 0 ∧
            ∀ a, a < 0x92000000 + 0x100000 * c.slot ∨ 0x92000004 + 0x100000 * c.slot ≤ a → s'.byte a = s.byte a) ∧
          (c.op = 1 → leAt c.img 8 4 ≤ c.img.length → Does (.mldCommandEnd t back ps) s fun s' => s'.mld.cmd = none ∧
            let at_ := 0x92000000 + 0x100000 * c.slot
            (∀ a, a < at_ ∨ at_ + leAt c.img 8 4 ≤ a → s'.byte a = s.byte a) ∧
            s'.get (R.MLD_SL_STAT_VALID c.slot) = b2n back ∧ s'.get R.MLD_ERR_CODE = (if back then 0 else 0x14) ∧
            s'.get (if back then R.MLD_INT_STAT_DONE else R.MLD_INT_STAT_ERR) = 1 ∧
            (back = true → s'.readBytes at_ (leAt c.img 8 4) = c.img.take (leAt c.img 8 4))) ∧
          (c.op = 3 → Does (.mldCommandEnd t back ps) s fun s' => s'.mld.cmd = none ∧ s'.get R.MLD_ERR_CODE = 0 ∧
            s'.get R.MLD_INT_STAT_DONE = 1 ∧ s'.get (R.MLD_SH_SRC_LOADED c.sheet) = 1 ∧
            s'.get (R.MLD_SH_SRC_SLOT c.sheet) = c.slot ∧ s'.get (R.MLD_SH_DIGEST c.sheet) = sheetDigest c.img c.sheet % 2 ^ 32) ∧
          (c.op = 5 → Does (.mldCommandEnd t back ps) s fun s' => s'.mld.cmd = none ∧ s'.get R.MLD_ERR_CODE = 0 ∧
            s'.get R.MLD_INT_STAT_DONE = 1 ∧ s'.get R.MLD_STAT_STATE = 2)))) ∧
    (∀ n, n < 12 →
      (1 ≤ n → bit (s.get R.MLD_QUIESCE) (n - 1) = false → Does (.sheetQuiesce t n) s fun s' =>
        bit (s'.get R.MLD_QUIESCE) (n - 1) = true ∧ (∀ k, k < 11 → k ≠ n - 1 → bit (s'.get R.MLD_QUIESCE) k = bit (s.get R.MLD_QUIESCE) k) ∧
        (n ≤ 8 → s.sheetLoaded n = true → s.phys (n - 1) < 8 → s.engSheet (s.phys (n - 1)) = n → s'.get (R.CE_STAT_STOPPED (s.phys (n - 1))) = 1 ∧
          (s'.eng (s.phys (n - 1))).pend = none)) ∧
      (n = 0 ∨ bit (s.get R.MLD_QUIESCE) (n - 1) = true → Does (.sheetQuiesce t n) s fun s' => s'.mld = s.mld ∧ KeepsBut [] s s') ∧
      (∀ c, c = Instr.sheetQuiesced t n ∨ c = .quiesceReadbackTimeout t n →
        (1 ≤ n → n ≤ 8 → (s.sheetLoaded n && (s.at t).atRest n) = false → Does c s fun s' => s'.mld = s.mld ∧ KeepsBut [] s s') ∧
        (1 ≤ n → n ≤ 8 → s.sheetLoaded n = true → (s.at t).atRest n = true → Does c s fun s' =>
          bit (s'.get R.MLD_QSTAT_QUIESCED) n = true ∧ s'.sheetQuiesced n = true ∧
          KeepsBut [R.MLD_QSTAT_QUIESCED, R.MLD_INT_STAT_QCHG] s s') ∧
        (n = 0 ∨ 8 < n → Does c s fun s' => bit (s'.get R.MLD_QSTAT_QUIESCED) n = s.sheetQuiesced n ∧
          KeepsBut [R.MLD_QSTAT_QUIESCED, R.MLD_INT_STAT_QCHG] s s')) ∧
      (n = 0 ∨ bit (s.get R.MLD_QUIESCE) (n - 1) = false → Does (.sheetRelease t n) s fun s' => s'.mld = s.mld ∧ KeepsBut [] s s') ∧
      (1 ≤ n → bit (s.get R.MLD_QUIESCE) (n - 1) = true →
        (Does (.sheetRelease t n) s fun s' => bit (s'.get R.MLD_QUIESCE) (n - 1) = false ∧
          ∀ k, k < 11 → k ≠ n - 1 → bit (s'.get R.MLD_QUIESCE) k = bit (s.get R.MLD_QUIESCE) k) ∧
        (∀ c, s.mld.cmd = some c → c.op = 3 → c.sheet = n → Does (.sheetRelease t n) s fun s' =>
          s'.mld.stay = n :: s.mld.stay ∧ KeepsBut [R.MLD_QUIESCE, R.MLD_INT_STAT_QCHG] s s') ∧
        (s.mld.cmd = none → n ≤ 8 → s.sheetLoaded n = true → s.is R.TWN_CTL_EN = false → Does (.sheetRelease t n) s fun s' =>
          bit (s'.get R.MLD_QSTAT_QUIESCED) n = false ∧ bit (s'.get R.MLD_QSTAT_CARRIED) n = false) ∧
        (s.mld.cmd = none → n ≤ 8 → s.sheetLoaded n = true → s.is R.TWN_CTL_EN = true → s.get R.TWN_STAT_PSTATE = 3 →
          s.paired n = false → Does (.sheetRelease t n) s fun s' => bit (s'.get R.TWN_SHEETS_UNPAIRED) (n - 1) = true ∧
            KeepsBut [R.MLD_QUIESCE, R.TWN_SHEETS_UNPAIRED, R.MLD_INT_STAT_QCHG] s s')))

/-- NOP, CLARKE, ICLARKE, PARK, IPARK and ANGLE write the values of their formulas and change nothing else (R101,
R103, R110, R111). -/
def Obligations.TransformOperatorsComputeTheirFormulas : Prop :=
  ∀ (t n : Nat) (s : State) (i : Inst), s.Turn t n i →
    let x k := vat (s.rdV n i.in0 3) k
    let th := s.refRaw n i.in2
    let th := if i.opt 4 then (th + s.coefRaw n i.coef) % 2 ^ 32 else th
    let co := cosTurn th
    let si := sinTurn th
    let sum := (s.refRaw n i.in0 + turnsOf (s.rdF n i.in1) + s.coefRaw n i.coef) % 2 ^ 32
    (i.op = 0x00 → Does (.nop t n) s (Wrote n i 0 [] s)) ∧
    (i.op = 0x08 → OutFits i.out 2 → Does (.clarke t n) s (Wrote n i 0 [(i.out,
      if i.opt 4 then [x 0, fmul 0x3F13CD3A (fadd (x 0) (fmul 0x40000000 (x 1)))]
      else [fsub (fmul 0x3F2AAAAB (x 0)) (fmul 0x3EAAAAAB (fadd (x 1) (x 2))), fmul 0x3F13CD3A (fsub (x 1) (x 2))])] s)) ∧
    (i.op = 0x09 → OutFits i.out 3 → Does (.iclarke t n) s (Wrote n i 0 [(i.out,
      [x 0, fadd (fmul 0xBF000000 (x 0)) (fmul 0x3F5DB3D7 (x 1)), fsub (fmul 0xBF000000 (x 0)) (fmul 0x3F5DB3D7 (x 1))])] s)) ∧
    (i.op = 0x0A → OutFits i.out 2 → Does (.park t n) s (Wrote n i 0 [(i.out,
      [fadd (fmul (x 0) co) (fmul (x 1) si), fsub (fmul (x 1) co) (fmul (x 0) si)])] s)) ∧
    (i.op = 0x0B → OutFits i.out 2 → Does (.ipark t n) s (Wrote n i 0 [(i.out,
      [fsub (fmul (x 0) co) (fmul (x 1) si), fadd (fmul (x 0) si) (fmul (x 1) co)])] s)) ∧
    (i.op = 0x0C → OutFits i.out 1 → Does (.angle t n) s (Wrote n i 0 [(i.out,
      if i.opt 4 then [fmul (fofInt (toS 32 sum)) 0x2F800000] else [sum])] s))

/-- SELECT, SUM, MUL, LIMIT, DROOP and VIMP write the values of their formulas and change nothing else (R103,
R117, R120, R123). -/
def Obligations.ElementwiseOperatorsComputeTheirFormulas : Prop :=
  ∀ (t n : Nat) (s : State) (i : Inst), s.Turn t n i →
    let w := i.aux % 16 + 1
    let a k := s.rdF n (refAt i.in0 k)
    let b k := s.rdF n (refAt i.in1 k)
    let c k := s.rdF n (refAt i.in2 k)
    let co k := s.coF n i k
    let xw := fmul (co 1) (c 0)
    (i.op = 0x40 → OutFits i.out w → Does (.select t n) s (Wrote n i 0
      [(i.out, (List.range w).map fun k => if fzero (c 0) then a k else b k)] s)) ∧
    (i.op = 0x44 → OutFits i.out w → Does (.sum t n) s (Wrote n i 0
      [(i.out, (List.range w).map fun k => fsub (fadd (a k) (b k)) (c k))] s)) ∧
    (i.op = 0x45 → OutFits i.out w → Does (.mul t n) s (Wrote n i 0
      [(i.out, (List.range w).map fun k =>
        if i.opt 4 then fadd (fmul (a k) (co 0)) (b k) else fmul (fmul (a k) (b k)) (co 0))] s)) ∧
    (i.op = 0x2A → OutFits i.out 1 → Does (.limit t n) s (Wrote n i 0
      [(i.out, [fsat (a 0) (if i.opt 4 then b 0 else co 0) (if i.opt 5 then c 0 else co 1)])] s)) ∧
    (i.op = 0x21 → OutFits i.out 1 → Does (.droop t n) s (Wrote n i 0
      [(i.out, [fsat (fadd (c 0) (fmul (co 0) (fsub (a 0) (b 0)))) (co 1) (co 2)])] s)) ∧
    (i.op = 0x22 → OutFits i.out 2 → Does (.vimp t n) s (Wrote n i 0
      [(i.out, [fadd (fsub (a 0) (fmul (co 0) (b 0))) (fmul xw (b 1)),
        fsub (fsub (a 1) (fmul (co 0) (b 1))) (fmul xw (b 0))])] s))

/-- MATVEC computes y = K·x with K row-major, each row from 0.0 or from IN1 with BIAS, j ascending (R114). -/
def Obligations.MatvecAccumulatesRowByRow : Prop :=
  ∀ (t n : Nat) (s : State) (i : Inst), s.Turn t n i → i.op = 0x18 →
    let rows := i.aux % 16 + 1
    let cols := i.aux / 16 % 16 + 1
    OutFits i.out rows → Does (.matvec t n) s (Wrote n i 0 [(i.out, (List.range rows).map fun r =>
      (List.range cols).foldl (fun acc j => fadd acc (fmul (s.coF n i (r * cols + j)) (s.rdF n (refAt i.in0 j))))
        (if i.opt 4 then s.rdF n (refAt i.in1 r) else 0))] s)

/-- PI, RES and OBS integrate their state by their formulas, or hold a word that would be NaN, and output it
(R103, R105, R112, R113, R115). -/
def Obligations.LoopOperatorsIntegrate : Prop :=
  ∀ (t n : Nat) (s : State) (i : Inst), s.Turn t n i →
    let e := fsub (s.rdF n i.in0) (s.rdF n i.in1)
    let co k := s.coF n i k
    let dt := s.runDt n
    let keep k v := if isNan v then s.stU n i k else v % 2 ^ 32
    (i.op = 0x10 → OutFits i.out 1 → i.state + 6 ≤ 10240 →
      let ext k := s.rdF n (refAt i.in2 k)
      let mode := if i.opt 5 then withBit (s.stU n i 0) 0 (!isNan (ext 0) && !fzero (ext 0)) else s.stU n i 0
      let man := if i.opt 5 then keep 1 (ext 1) else s.stU n i 1
      let hand := bit mode 0
      let x := s.stF n i 3
      let xc := fadd x (fmul (fmul (co 1) dt) e)
      let raw := fadd (fmul (co 0) e) xc
      let xc := if (fgt raw (co 5) && fgt e 0) || (flt raw (co 4) && flt e 0) then x else xc
      let uh := fsat (fcanon man) (co 4) (co 5)
      let xv := fsat (if hand then fsub uh (fmul (co 0) e) else xc) (co 2) (co 3)
      let raw := fadd (fmul (co 0) e) (fcanon (keep 3 xv))
      let u := if hand then uh else fsat raw (co 4) (co 5)
      Does (.pi t n) s fun s' =>
        Wrote n i 6 [(i.out, [u])] s s' ∧ s'.stU n i 0 = mode ∧ s'.stU n i 1 = man ∧ s'.stU n i 3 = keep 3 xv ∧
        s'.stU n i 4 = keep 4 e ∧ s'.stU n i 5 = keep 5 u ∧
        bit (s'.stU n i 2) 1 = decide (u ≠ if hand then fcanon man else raw) ∧
        bit (s'.stU n i 2) 2 = (bit (s.stU n i 2) 2 || i.opt 5 && isNan (ext 1) || isNan xv || isNan e || isNan u)) ∧
    (i.op = 0x11 → OutFits i.out 1 → i.state + 5 ≤ 10240 →
      let inc := turnInc (rmul (fval (co 1)) (fval (s.rdF n i.in2))) (co 2) (s.runD n)
      let phi := match inc with
        | some (num, den) => turnMod (divRne num den)
        | none => 0
      let c := cosTurn phi
      let sn := sinTurn phi
      let hand := bit (s.stU n i 0) 0
      let x1 := if hand then fsat (s.stF n i 1) (fneg (co 3)) (co 3)
        else fadd (fsub (fmul (s.stF n i 3) c) (fmul (s.stF n i 4) sn)) (fmul (fmul (co 0) dt) e)
      let x2 := if hand then 0 else fadd (fmul (s.stF n i 3) sn) (fmul (s.stF n i 4) c)
      let a2 := fadd (fmul x1 x1) (fmul x2 x2)
      let ovr := fgt a2 (fmul (co 3) (co 3))
      let k := fdiv (co 3) (fsqrt a2)
      let y1 := if ovr then fmul x1 k else x1
      let y2 := if ovr then fmul x2 k else x2
      Does (.res t n) s fun s' =>
        Wrote n i 5 [(i.out, [fcanon (keep 3 y1)])] s s' ∧ s'.stU n i 3 = keep 3 y1 ∧ s'.stU n i 4 = keep 4 y2 ∧
        s'.stU n i 0 = s.stU n i 0 ∧ s'.stU n i 1 = s.stU n i 1 ∧ bit (s'.stU n i 2) 0 = ovr ∧
        bit (s'.stU n i 2) 2 = (bit (s.stU n i 2) 2 || inc.isNone || isNan y1 || isNan y2)) ∧
    (i.op = 0x19 →
      let d := i.aux % 8 + 1
      let m := i.aux / 16 % 4 + 1
      let p := i.aux / 64 % 4 + 1
      let mul acc (k c : Nat) (v : Nat → Nat) := (List.range c).foldl (fun a j => fadd a (fmul (co (k + j)) (v j))) acc
      let xh k := s.stF n i k
      let r k := fsub (s.rdF n (refAt i.in1 k)) (mul 0 (d * d + d * m + d * p + k * d) d xh)
      let f k := mul (mul (mul 0 (k * d) d xh) (d * d + k * m) m fun j => s.rdF n (refAt i.in0 j))
        (d * d + d * m + k * p) p r
      let x' k := fadd (xh k) (fmul dt (f k))
      OutFits i.out d → i.state + d ≤ 10240 → Does (.obs t n) s fun s' =>
        Wrote n i d [(i.out, (List.range d).map fun k => fcanon (keep k (x' k)))] s s' ∧
        ∀ k, k < d → s'.stU n i k = keep k (x' k))

/-- RAMP, LPF, POWER, RMS, COMPARE and GUARD update their state words and outputs by their formulas (R103, R105,
R120, R121, R123). -/
def Obligations.ShapingOperatorsKeepTheirState : Prop :=
  ∀ (t n : Nat) (s : State) (i : Inst), s.Turn t n i →
    let a k := s.rdF n (refAt i.in0 k)
    let b k := s.rdF n (refAt i.in1 k)
    let co k := s.coF n i k
    let st k := s.stF n i k
    let dt := s.runDt n
    let keep k v := if isNan v then s.stU n i k else v % 2 ^ 32
    (i.op = 0x28 → OutFits i.out 1 → i.state + 2 ≤ 10240 →
      let dv := fsub (a 0) (st 1)
      let y := if fgt dv (fmul (co 0) dt) then fadd (st 1) (fmul (co 0) dt)
        else if flt dv (fneg (fmul (co 1) dt)) then fsub (st 1) (fmul (co 1) dt) else a 0
      let y' := fsat y (co 2) (co 3)
      Does (.ramp t n) s fun s' => Wrote n i 2 [(i.out, [fcanon (keep 1 y')])] s s' ∧ s'.stU n i 1 = keep 1 y' ∧
        bit (s'.stU n i 0) 0 = decide (y' ≠ fcanon y) ∧ bit (s'.stU n i 0) 2 = (bit (s.stU n i 0) 2 || isNan y')) ∧
    (i.op = 0x29 → OutFits i.out 1 → i.state + 2 ≤ 10240 →
      let y := fadd (fmul (co 0) (a 0)) (st 0)
      let s1 := fadd (fsub (fmul (co 1) (a 0)) (fmul (co 3) y)) (st 1)
      let s2 := fsub (fmul (co 2) (a 0)) (fmul (co 4) y)
      Does (.lpf t n) s fun s' => Wrote n i 2 [(i.out, [y])] s s' ∧ s'.stU n i 0 = keep 0 s1 ∧ s'.stU n i 1 = keep 1 s2) ∧
    (i.op = 0x30 → OutFits i.out 2 → i.state + 2 ≤ 10240 →
      let p := fadd (fmul (a 0) (b 0)) (fmul (a 1) (b 1))
      let q := fsub (fmul (a 1) (b 0)) (fmul (a 0) (b 1))
      let al := fdiv dt (fadd (co 0) dt)
      let pf := fadd (st 0) (fmul al (fsub p (st 0)))
      let qf := fadd (st 1) (fmul al (fsub q (st 1)))
      (i.opt 4 = false → Does (.power t n) s (Wrote n i 0 [(i.out, [p, q])] s)) ∧
      (i.opt 4 = true → Does (.power t n) s fun s' => Wrote n i 2 [(i.out, [fcanon (keep 0 pf), fcanon (keep 1 qf)])] s s' ∧
        s'.stU n i 0 = keep 0 pf ∧ s'.stU n i 1 = keep 1 qf)) ∧
    (i.op = 0x31 → OutFits i.out 1 → i.state + 3 ≤ 10240 →
      let sum := keep 0 (fadd (st 0) (fmul (fmul (a 0) (a 0)) dt))
      let time := keep 1 (fadd (st 1) dt)
      let y := fsqrt (fdiv (fcanon sum) (fcanon time))
      (fge (fcanon time) (co 0) = true → Does (.rms t n) s fun s' => Wrote n i 3 [(i.out, [fcanon (keep 2 y)])] s s' ∧
        s'.stU n i 0 = 0 ∧ s'.stU n i 1 = 0 ∧ s'.stU n i 2 = keep 2 y) ∧
      (fge (fcanon time) (co 0) = false → Does (.rms t n) s fun s' => Wrote n i 3 [(i.out, [st 2])] s s' ∧
        s'.stU n i 0 = sum ∧ s'.stU n i 1 = time ∧ s'.stU n i 2 = s.stU n i 2)) ∧
    (i.op = 0x41 → OutFits i.out 1 → i.state + 1 ≤ 10240 →
      let keep := !fzero (s.stU n i 0) && !flt (a 0) (fsub (b 0) (co 0))
      let mode := i.flags / 16 % 4
      let y := !isNan (a 0) && !isNan (b 0) && (if mode = 0 then fgt (a 0) (b 0) || keep
        else if mode = 1 then fge (a 0) (b 0) || keep else if mode = 2 then feq (a 0) (b 0) else !feq (a 0) (b 0))
      Does (.compare t n) s fun s' => Wrote n i 1 [(i.out, [fbool y])] s s' ∧ s'.stU n i 0 = fbool y) ∧
    (i.op = 0x42 → OutFits i.out 2 → i.state + 4 ≤ 10240 →
      let good := fle (co 0) (a 0) && fle (a 0) (co 1) &&
        (!bit (s.stU n i 3) 3 || fle (fabs (fsub (a 0) (st 0))) (fmul (co 2) dt))
      let cnt := if good then 0 else fmin (fadd (st 1) 0x3F800000) 0x4B800000
      let latch := fge cnt (co 3) || !fzero (s.stU n i 2)
      Does (.guard t n) s fun s' =>
        Wrote n i 4 [(i.out, [if good then a 0 else st 0, fbool latch])] s s' ∧
        s'.stU n i 0 = (if good then a 0 else s.stU n i 0) ∧ (bit (s'.stU n i 3) 3 = (good || bit (s.stU n i 3) 3)))

/-- LOAD, LUT and MAILBOX_READ deliver the sources fixed for the run, the table's value and the mailbox input copy
(R94, R103, R109, R120, R125). -/
def Obligations.SourceOperatorsDeliverWhatTheRunFixed : Prop :=
  ∀ (t n : Nat) (s : State) (i : Inst), s.Turn t n i →
    let co k := s.coF n i k
    (i.op = 0x01 →
      let fix := ((s.eng n).run.map (·.fix)).getD {}
      let kind := i.aux / 16384 % 4
      let idx := i.aux % (if kind = 0 then 256 else if kind = 1 then 16 else 4)
      let trk := fix.trk.getD idx (0, 0, false)
      (kind < 2 → OutFits i.out (if i.opt 4 then 2 else 1) → ∀ w st, fix.words.find? (·.1 = 256 * kind + idx) = some (256 * kind + idx, w, st) →
        let y := fadd (fmul (fofInt w) (co 0)) (co 1)
        Does (.load t n) s (Wrote n i 0 [(i.out,
          if i.opt 4 then [y, ofRat false (s.runStamp n - st) 16000000000] else [y])] s)) ∧
      (kind = 2 → OutFits i.out 1 → Does (.load t n) s (Wrote n i 0 [(i.out, [trk.1])] s)) ∧
      (kind = 3 → OutFits i.out 2 → Does (.load t n) s (Wrote n i 0 [(i.out,
        [fcanon trk.2.1, if trk.2.2 then 0x3F800000 else 0])] s))) ∧
    (i.op = 0x2B → OutFits i.out 1 →
      let m := i.aux % 64
      let v := s.rdF n i.in0
      let x k := co k
      let y k := co (m + k)
      2 ≤ m →
      (isNan v = true ∨ fle v (x 0) = true → Does (.lut t n) s (Wrote n i 0 [(i.out, [y 0])] s)) ∧
      (isNan v = false → fle v (x 0) = false → fge v (x (m - 1)) = true →
        Does (.lut t n) s (Wrote n i 0 [(i.out, [y (m - 1)])] s)) ∧
      (∀ k, k + 1 < m → isNan v = false → fle v (x 0) = false → fge v (x (m - 1)) = false → fle (x k) v = true →
        (∀ j, k < j → j + 1 < m → fle (x j) v = false) →
        Does (.lut t n) s (Wrote n i 0 [(i.out, [
          if fle (fsub (x (k + 1)) (x k)) 0 then y k
          else fadd (y k) (fmul (fsub v (x k)) (fdiv (fsub (y (k + 1)) (y k)) (fsub (x (k + 1)) (x k))))])] s))) ∧
    (i.op = 0x49 → i.opt 4 = true → OutFits i.out 16 → i.state + 1 ≤ 10240 →
      let a := 0x5400 + 64 * (mailInputs (s.recipe n (s.get (R.CE_STAT_RSTORE n)))).idxOf i.slot
      let age := (s.runStamp n + 2 ^ 32 - s.ceWord n (a + 4)) % 2 ^ 32
      Does (.mailboxRead t n) s fun s' => Wrote n i 1 [(i.out, ((List.range 14).map fun k => fcanon (s.ceWord n (a + 8 + 4 * k))) ++
        [if s.ceWord n a = 0 then 0xBF800000 else ofRat false age 16000000000,
          if s.ceWord n a = s.stU n i 0 then 0 else 0x3F800000])] s s' ∧ s'.stU n i 0 = s.ceWord n a)

/-- SWING, ILIM, FRT and SVM3L update their state words and outputs by their formulas (R103, R105, R116, R118,
R119, R122). -/
def Obligations.MachineOperatorsComputeTheirFormulas : Prop :=
  ∀ (t n : Nat) (s : State) (i : Inst), s.Turn t n i →
    let a k := s.rdF n (refAt i.in0 k)
    let b k := s.rdF n (refAt i.in1 k)
    let c := s.rdF n i.in2
    let co k := s.coF n i k
    let st k := s.stF n i k
    let dt := s.runDt n
    let keep k v := if isNan v then s.stU n i k else v % 2 ^ 32
    (i.op = 0x20 → (i.out = 0 ∨ refSpace i.out = 1 ∧ refIndex i.out + 2 ≤ 1024) →
      (i.aux = 0 ∨ refSpace i.aux = 2 ∧ refIndex i.aux < 64) →
      i.state + 4 ≤ 10240 →
      let acc := fsub (fsub (a 0) (b 0)) (fmul (co 1) (fsub (st 1) c))
      let dwc := fsat (fadd (st 1) (fmul (fdiv dt (co 0)) acc)) (co 4) (co 5)
      let dw := fcanon (keep 1 dwc)
      let w := fadd (co 2) dw
      let turn := radd (turnInc (radd (fval (co 2)) (fval dw)) (co 3) (s.runD n)) (fval (st 2))
      (∀ num den, turn = some (num, den) →
        let cnt := divRne num den
        Does (.swing t n) s fun s' =>
          Wrote n i 4 [(i.aux, [turnMod ((s.refRaw n i.aux : Int) + cnt)]), (i.out, [w, dw])] s s' ∧
          s'.stU n i 1 = keep 1 dwc ∧ s'.stU n i 2 = ofFrac (num - cnt * den) den % 2 ^ 32 ∧ s'.stU n i 3 = keep 3 w ∧
          bit (s'.stU n i 0) 2 = (bit (s.stU n i 0) 2 || isNan dwc || isNan w)) ∧
      (turn = none → Does (.swing t n) s fun s' =>
          Wrote n i 4 [(i.aux, [s.refRaw n i.aux]), (i.out, [w, dw])] s s' ∧ s'.stU n i 1 = keep 1 dwc ∧
          s'.stU n i 2 = s.stU n i 2 ∧ s'.stU n i 3 = keep 3 w ∧ bit (s'.stU n i 0) 2 = true)) ∧
    (i.op = 0x23 → OutFits i.out 3 → i.state + 2 ≤ 10240 →
      let m2 := fadd (fmul (a 0) (a 0)) (fmul (a 1) (a 1))
      let lim2 := fmul (co 0) (co 0)
      let was := !fzero (s.stU n i 0)
      let timer := if was then keep 1 (fadd (st 1) dt) else if fgt m2 lim2 then 0 else s.stU n i 1
      let e := fmul (co 0) (fsub 0x3F800000 (co 1))
      let on := if was then !(flt m2 (fmul e e) && fge (fcanon timer) (co 2)) else fgt m2 lim2
      let k := fdiv (co 0) (fsqrt m2)
      let iq := fsat (a 1) (fneg (co 0)) (co 0)
      let r := fsqrt (fsub lim2 (fmul iq iq))
      Does (.ilim t n) s fun s' =>
        Wrote n i 2 [(i.out, (if on && fgt m2 lim2 then
          (if feq (co 3) 0 then [fmul (a 0) k, fmul (a 1) k] else [fsat (a 0) (fneg r) r, iq]) else [a 0, a 1]) ++
          [if on then 0x3F800000 else 0])] s s' ∧ 
        s'.stU n i 0 = (if on = was then s.stU n i 0 else if on then 0x3F800000 else 0) ∧ s'.stU n i 1 = timer) ∧
    (i.op = 0x24 → OutFits i.out 2 → i.state + 8 ≤ 10240 →
      let v := a 0
      let cl k := if flt v (co (4 + k)) then keep k (fadd (st k) dt) else 0
      let ch k := if fgt v (co (12 + k)) then keep (4 + k) (fadd (st (4 + k)) dt) else 0
      let trip := (List.range 4).any fun k => fgt (fcanon (cl k)) (co (8 + k)) || fgt (fcanon (ch k)) (co (16 + k))
      Does (.frt t n) s fun s' => Wrote n i 8 [(i.out, [
          if trip then 0x40000000 else if flt v (co 0) || fgt v (co 1) then 0x3F800000 else 0,
          if flt v (co 0) then fsat (fmul (co 2) (fsub (co 0) v)) 0 (co 3)
          else if fgt v (co 1) then fsat (fmul (fneg (co 2)) (fsub v (co 1))) (fneg (co 3)) 0 else 0])] s s' ∧
        ∀ k, k < 4 → s'.stU n i k = cl k ∧ s'.stU n i (4 + k) = ch k) ∧
    (i.op = 0x38 → OutFits i.out 12 →
      let h := fmul 0xBF000000 (a 0)
      let g := fmul 0x3F5DB3D7 (a 1)
      let va := a 0
      let vb := fadd h g
      let vc := fsub h g
      let sg := if fge c 0 then 0x3F800000 else 0xBF800000
      let v0 := fadd (fmul 0xBF000000 (fadd (fmax (fmax va vb) vc) (fmin (fmin va vb) vc)))
        (fsat (fmul (fmul (co 0) (fsub (b 1) (b 0))) sg) (fneg (co 1)) (co 1))
      let duties v :=
        let m := fsat (fadd v v0) (fneg (co 2)) (co 2)
        [fmax m 0, fadd 0x3F800000 (fmin m 0), fsub 0x3F800000 (fmax m 0), fneg (fmin m 0)]
      Does (.svm3l t n) s (Wrote n i 0 [(i.out, duties va ++ duties vb ++ duties vc)] s))

/-- EMIT writes the duty shadows and requests the load; MAILBOX_WRITE sends a message; EVENT and TRACE act on a
rise only (R93, R124, R125, R126, R96, R162). Rests on the model's readings and choices: log entries 123, 169. -/
def Obligations.OutputOperatorsAct : Prop :=
  ∀ (t n : Nat) (s : State) (i : Inst), s.Turn t n i →
    let a k := s.rdF n (refAt i.in0 k)
    let rose := !fzero (a 0) && fzero (s.stU n i 0)
    (i.op = 0x48 → i.opt 5 = false → s.is R.TWN_CTL_EN = false → (i.aux % 64) + (i.aux / 64 % 64 + 1) ≤ 48 →
      let g := s.get (R.CE_OUTCFG n)
      Does (.emit t n) s fun s' =>
        (∀ k, k < i.aux / 64 % 64 + 1 →
          s'.get (R.PWM_CH_DUTY_SH (i.aux % 64 + k)) = emitDuty (a k) (s.get (R.PWM_PG_PERIOD_SH g)) % 2 ^ 40) ∧
        (i.opt 4 = true → s'.get (R.PWM_PG_LOADALL g) = 1 ∧ s'.get (R.PWM_PG_STAT_LOADPEND g) = 1) ∧
        (i.opt 4 = false → s'.get (R.PWM_PG_LOADALL g) = s.get (R.PWM_PG_LOADALL g)) ∧
        KeepsBut ([R.PWM_PG_LOADALL g, R.PWM_PG_STAT_LOADPEND g] ++ (List.range (i.aux / 64 % 64 + 1)).flatMap fun k =>
          [R.PWM_CH_DUTY_SH (i.aux % 64 + k),
            R.PWM_PG_INT_STAT_LATE_SHADOW (s.get (R.PWM_CH_CFG_GROUP (i.aux % 64 + k)))]) s s' ∧
        ∀ x, s'.byte x = s.byte x) ∧
    (i.op = 0x49 → i.opt 4 = false → s.is R.TWN_CTL_EN = false → i.state + 1 ≤ 10240 →
      let m := if s.stU n i 0 = 2 ^ 32 - 1 then 1 else s.stU n i 0 + 1
      let buf := 0x70000000 + 128 * i.slot + 64 * (m % 2)
      Does (.mailboxWrite t n) s fun s' =>
        s'.readLe buf 4 = m ∧ s'.readLe (buf + 4) 4 = s.runStamp n % 2 ^ 32 ∧
        (∀ k, k < 14 → s'.readLe (buf + 8 + 4 * k) 4 = a k) ∧ s'.stU n i 0 = m ∧ KeepsBut [] s s' ∧
        ∀ x, (x < buf ∨ buf + 64 ≤ x) → (x < ceBase n + 0x6000 + 4 * i.state ∨ ceBase n + 0x6000 + 4 * (i.state + 1) ≤ x) →
          s'.byte x = s.byte x) ∧
    (i.op = 0x4A → i.state + 1 ≤ 10240 → Does (.event t n) s fun s' =>
      s'.stU n i 0 = fbool (!fzero (a 0)) ∧
      (rose = false → s'.ldg = s.ldg ∧ KeepsBut [] s s') ∧
      (rose = true → s.ldgAccepts (if i.opt 4 then 1 else 2) 0x0A = true → s'.ldg.queue.length = s.ldg.queue.length + 1)) ∧
    (i.op = 0x4B → i.state + 1 ≤ 10240 → Does (.trace t n) s fun s' =>
      s'.stU n i 0 = fbool (!fzero (a 0)) ∧
      (rose = false → KeepsBut [] s s') ∧
      (rose = true → s.is (R.CE_TRC_STAT_ARMED n) = true → s.is (R.CE_TRC_STAT_TRIGGERED n) = false →
        s.is (R.CE_TRC_STAT_DONE n) = false →
        s'.get (R.CE_TRC_STAT_TRIGGERED n) = 1 ∧ s'.get (R.CE_TRC_TRIGPOS n) = (s.eng n).trcIdx % 2 ^ 18 ∧
        s'.get (R.CE_TRC_TRIGSTAMP n) = s.get (R.CE_STAMP n) ∧
        KeepsBut [R.CE_TRC_STAT_TRIGGERED n, R.CE_TRC_TRIGPOS n, R.CE_TRC_TRIGSTAMP n] s s'))

/-- A tick is divided, waits and starts a run; the run ends and is counted; late runs and ECC errors assert their
sources (R81, R83, R84, R85, R86, R87, R97). Rests on the model's readings and choices: log entries 40, 83. -/
def Obligations.EnginesRunOnTheirTicks : Prop :=
  ∀ (t n : Nat) (s : State), n < 8 → s.engs.length = 8 →
    let now := s.at t
    let e := s.eng n
    (∀ stamp, s.is R.TWN_CTL_EN = false → s.twn.heldJoin = [] → e.wait = [] →
      (s.engLatches n = false → Does (.tickArrival t n stamp) s fun s' => s'.eng n = e ∧ KeepsBut [] s s') ∧
      (s.engLatches n = true → s.tickEvent n stamp = true → (∀ x, e.lastEv = some x → x < stamp) →
        s.tbToSys stamp ≤ now.tb →
        let k : Tick := ⟨stamp, s.tbToSys stamp, 0, false, false, now.fixAt n stamp⟩
        (e.div < s.get (R.CE_TICK_DIV n) → Does (.tickArrival t n stamp) s fun s' =>
          (s'.eng n).div = e.div + 1 ∧ (s'.eng n).lastEv = some stamp ∧ (s'.eng n).pend = e.pend ∧ KeepsBut [] s s') ∧
        (s.get (R.CE_TICK_DIV n) ≤ e.div →
          (e.pend = none → e.run = none → e.endAt = none → Does (.tickArrival t n stamp) s fun s' =>
            (s'.eng n).div = 0 ∧ (s'.eng n).lastEv = some stamp ∧ (s'.eng n).pend = some k ∧
            (s.moveFrom n = true → s'.get (R.CE_STAT_PENDING n) = 1) ∧
            KeepsBut (if s.moveFrom n then [R.CE_STAT_PENDING n] else []) s s') ∧
          (∀ p, e.pend = some p → Does (.tickArrival t n stamp) s fun s' =>
            (s'.eng n).pend.map (fun k => (k.stamp, k.merged, k.late)) = some (stamp, p.merged + 1, true) ∧
            s'.get (R.CE_STAT_PENDING n) = 1 ∧ KeepsBut [R.CE_STAT_PENDING n] s s')))) ∧
    (∀ torn errs, e.wait = [] → (∀ x ∈ s.twn.atX, now.tb < x.1) → ∀ k, now.runDue n = some k → Does (.runStart t n torn errs) s fun s' =>
      s'.get (R.CE_STAT_RUNNING n) = 1 ∧ s'.get (R.CE_STAT_PENDING n) = 0 ∧
      s'.get (R.CE_STAMP n) = k.stamp % 2 ^ 64 ∧ s'.get (R.CE_RUNCNT n) = (s.get (R.CE_RUNCNT n) + 1) % 2 ^ 32 ∧
      s'.get (R.CE_DT n) = (if e.firstNext then s.get (R.CE_DTNOM n) else min (k.stamp - e.prev) (2 ^ 32 - 1)) ∧
      (k.waited = false → k.late = true →
        s'.get (R.CE_OVR_COUNT n) = min (s.get (R.CE_OVR_COUNT n) + 1) (2 ^ 32 - 1) ∧ s'.get (R.CE_INT_STAT_OVR n) = 1) ∧
      (k.waited = false → k.late = false → s'.get (R.CE_OVR_CONSEC n) = 0) ∧
      (s'.eng n).pend = none ∧ (s'.eng n).firstNext = false ∧ (s'.eng n).prev = k.stamp ∧
      (s'.eng n).runNo = (e.runNo + 1) % 2 ^ 32) ∧
    (∀ torn errs, e.wait = [] → (∀ x ∈ s.twn.atX, now.tb < x.1) → now.runDue n = none → Does (.runStart t n torn errs) s fun s' =>
      s'.eng n = e ∧ KeepsBut [] s s' ∧ ∀ a, s'.byte a = s.byte a) ∧
    (∀ ce r, e.run = some r → s.recipeCount n (s.get (R.CE_STAT_RSTORE n)) ≤ r.idx → r.cyc ≤ now.runCycles r →
      s.is R.TWN_CTL_EN = false → Does (.runEnd t n ce) s fun s' =>
        s'.get (R.CE_ECC_CE n) = min (s.get (R.CE_ECC_CE n) + ce) (2 ^ (R.CE_ECC_CE n).width - 1) ∧
        s'.get (R.CE_STAT_RUNNING n) = 0 ∧ s'.get (R.CE_CYCLES_LAST n) = min r.cyc 0xFFFF ∧
        s'.get (R.CE_CYCLES_MAX n) = max (s.get (R.CE_CYCLES_MAX n)) (min r.cyc 0xFFFF) ∧
        s'.get (R.TWN_CE_SIG (s.engUnit n)) = (r.sig ^^^ 0xFFFFFFFF) % 2 ^ 32 ∧
        (s'.eng n).run = none ∧ (s'.eng n).endAt = some now.tb) ∧
    (∀ u, u = s.engUnit n →
      (∀ g, g < 8 → s.mappedAction g (108 + u) = 0) → s.fsOn (108 + u) = false → ∀ r, e.run = some r → r.onTime = false →
      s.get (R.CE_RUNCTL_OVR_LIMIT n) ≠ 0 → s.get (R.CE_RUNCTL_OVR_LIMIT n) ≤ s.get (R.CE_OVR_CONSEC n) →
      Does (.overrunLimit t n) s fun s' =>
        s'.get (R.CE_INT_STAT_OVR_LIMIT n) = 1 ∧ s'.fsOn (108 + u) = true ∧
        KeepsBut [R.CE_INT_STAT_OVR_LIMIT n, R.FMX_SRC_STAT 3, R.FMX_SRC_FLAG 3] s s') ∧
    (∀ u, u = s.engUnit n →
      (∀ g, g < 8 → s.mappedAction g (116 + u) = 0) → s.move = none → Does (.engineEccFault t n) s fun s' =>
        s'.get (R.CE_FAULT_ECC n) = 1 ∧ s'.get (R.CE_INT_STAT_FAULT n) = 1 ∧ s'.get (R.CE_STAT_STOPPED n) = 1 ∧
        s'.get (R.CE_STAT_RUNNING n) = 0 ∧ s'.fsOn (116 + u) = true ∧ bit (s'.get R.HLT_REPLACE_REASONS) 3 = true ∧
        (s'.eng n).run = none ∧ (s'.eng n).pend = none)

/-- Stage writes, swap requests, the recipe check's end, trace commands and CLR_CYCMAX act on the unit's engine
only (R80, R88, R92, R96, R100). Rests on the model's readings and choices: log entry 122. -/
def Obligations.EngineCommandsStageAndSwap : Prop :=
  ∀ (t n : Nat) (s : State), n < 8 → s.engs.length = 8 →
    let now := s.at t
    let p := s.phys n
    let e := s.eng p
    let i := s.get (R.CE_STAGE_ADDR_INDEX p)
    (Does (.clrCycmax t n) s fun s' => s'.get (R.CE_CYCLES_MAX p) = 0 ∧ KeepsBut [R.CE_CYCLES_MAX p] s s') ∧
    (s.is (R.CE_SWAP_COEF p) = false → Does (.coefSwapRequest t n) s fun s' =>
      s'.get (R.CE_SWAP_COEF p) = 1 ∧ (s'.eng p).coefAt = some now.tb ∧ (s'.eng p).joined = s.is (R.CE_SWAP_RECIPE p) ∧
      KeepsBut [R.CE_SWAP_COEF p] s s') ∧
    (s.is (R.CE_SWAP_RECIPE p) = false → e.check = none → Does (.recipeSwapRequest t n) s fun s' =>
      s'.get (R.CE_SWAP_RECIPE p) = 1 ∧ s'.get (R.CE_STAT_CHECKING p) = 1 ∧ (s'.eng p).check = some (true, now.tb) ∧
      KeepsBut [R.CE_SWAP_RECIPE p, R.CE_STAT_CHECKING p] s s') ∧
    (∀ w, s.stageBad p = true → Does (.stageWrite t n w) s fun s' =>
      s'.resp.err = true ∧ s'.get (R.CE_INT_STAT_STAGE_ERR p) = 1 ∧ s'.eng p = e ∧
      KeepsBut [R.CE_INT_STAT_STAGE_ERR p] s s' ∧ ∀ a, s'.byte a = s.byte a) ∧
    (∀ w, s.stageBad p = false →
      let done (off : Nat) (s' : State) : Prop :=
        s'.resp = {} ∧ s'.get (R.CE_STAGE_ADDR_INDEX p) = i + 1 ∧ s'.ceWord p off = w % 2 ^ 32 ∧
        KeepsBut [R.CE_STAGE_ADDR_INDEX p] s s' ∧
        ∀ a, (a < ceBase p + off ∨ ceBase p + off + 4 ≤ a) → s'.byte a = s.byte a
      (s.get (R.CE_STAGE_ADDR_TARGET p) = 0 → Does (.stageWrite t n w) s
        (done (0x1000 * (1 - s.get (R.CE_STAT_RSTORE p)) + 4 * i))) ∧
      (s.get (R.CE_STAGE_ADDR_TARGET p) = 1 → Does (.stageWrite t n w) s
        (done (0x2000 + 0x1000 * (1 - s.get (R.CE_STAT_CBANK p)) + 4 * i))) ∧
      (s.get (R.CE_STAGE_ADDR_TARGET p) = 2 → Does (.stageWrite t n w) s fun s' =>
        (s'.eng p).queue = e.queue ++ [(i, w % 2 ^ 32, now.tb)] ∧ s'.get (R.CE_STAGE_ADDR_INDEX p) = i + 1 ∧
        s'.get (R.CE_STAGE_ADDR_QUEUED p) = e.queue.length + 1 ∧ ∀ a, s'.byte a = s.byte a) ∧
      (s.get (R.CE_STAGE_ADDR_TARGET p) = 3 → Does (.stageWrite t n w) s fun s' =>
        s'.recipeCount p (1 - s.get (R.CE_STAT_RSTORE p)) = w % 2 ^ 9 ∧
        s'.recipeCount p (s.get (R.CE_STAT_RSTORE p)) = s.recipeCount p (s.get (R.CE_STAT_RSTORE p)) ∧
        ∀ a, s'.byte a = s.byte a)) ∧
    ((∀ j, j ≤ s.get (R.CE_TRC_CTL_NBANK_M1 p) → s.traceBank p j < 96 ∧
        s.get (R.BNK_BK_OWN_OWNER (s.traceBank p j)) = 2 + s.engUnit p) → Does (.traceArm t n) s fun s' =>
      s'.get (R.CE_TRC_CTL_ARM p) = 1 ∧ s'.get (R.CE_TRC_STAT_ARMED p) = 1 ∧ s'.get (R.CE_TRC_STAT_DONE p) = 0 ∧ (s'.eng p).trcIdx = 0 ∧
      ∀ j, j ≤ s.get (R.CE_TRC_CTL_NBANK_M1 p) → s'.get (R.BNK_BK_OWN_TRACE (s.traceBank p j)) = 1) ∧
    (∀ j, j ≤ s.get (R.CE_TRC_CTL_NBANK_M1 p) → (96 ≤ s.traceBank p j ∨
        s.get (R.BNK_BK_OWN_OWNER (s.traceBank p j)) ≠ 2 + s.engUnit p) → Does (.traceArm t n) s fun s' =>
      s'.get (R.CE_TRC_STAT_ARMED p) = 0 ∧ s'.get (R.CE_TRC_STAT_ERR_NOT_OWNED p) = 1 ∧
      s'.get (R.CE_INT_STAT_TRC_DONE p) = 1) ∧
    (s.is (R.CE_TRC_STAT_ARMED p) = true → s.is (R.CE_TRC_STAT_TRIGGERED p) = false → s.is (R.CE_TRC_STAT_DONE p) = false →
      Does (.trcTrig t n) s fun s' => s'.get (R.CE_TRC_STAT_TRIGGERED p) = 1 ∧
        s'.get (R.CE_TRC_TRIGPOS p) = e.trcIdx % 2 ^ 18 ∧ s'.get (R.CE_TRC_TRIGSTAMP p) = s.get (R.CE_STAMP p) ∧
        KeepsBut [R.CE_TRC_STAT_TRIGGERED p, R.CE_TRC_TRIGPOS p, R.CE_TRC_TRIGSTAMP p] s s') ∧
    (∀ inactive t0, (s.eng n).check = some (inactive, t0) →
      let st := if inactive then 1 - s.get (R.CE_STAT_RSTORE n) else s.get (R.CE_STAT_RSTORE n)
      t0 + s.recipeCheckTime n st ≤ now.tb →
      (inactive = true → (s.recipeCheck n st).1 = 0 → Does (.recipeCheckDone t n) s fun s' =>
        (s'.eng n).recipeOk = some now.tb ∧ (s'.eng n).check = none ∧ s'.get (R.CE_SWAP_STAT_ERR_CODE n) = 0 ∧
        s'.get (R.CE_STAT_CHECKING n) = 0 ∧
        KeepsBut [R.CE_SWAP_STAT_ERR_CODE n, R.CE_SWAP_STAT_ERR_INDEX n, R.CE_STAT_CHECKING n] s s') ∧
      (inactive = true → (s.recipeCheck n st).1 ≠ 0 → Does (.recipeCheckDone t n) s fun s' =>
        s'.get (R.CE_SWAP_STAT_ERR_CODE n) = (s.recipeCheck n st).1 ∧
        s'.get (R.CE_SWAP_STAT_ERR_INDEX n) = (s.recipeCheck n st).2 ∧ s'.get (R.CE_SWAP_RECIPE n) = 0 ∧
        s'.get (R.CE_INT_STAT_SWAP_ERR n) = 1 ∧ (s'.eng n).check = none) ∧
      (inactive = false → (s.recipeCheck n st).1 = 0 → s.tickBad n = false → s.is (R.CE_SWAP_RECIPE n) = false →
        Does (.recipeCheckDone t n) s fun s' =>
          (s'.eng n).ready = true ∧ s'.get (R.CE_STAT_CHECKING n) = 0 ∧ (s'.eng n).check = none))

/-- A move to CE7 is refused or begins; its copy carries local memory over; at its end CE7 carries the sheet (R98,
R99). Rests on the model's readings and choices: log entries 14, 42. -/
def Obligations.TheSpareEngineTakesOver : Prop :=
  ∀ (t : Nat) (s : State), s.engs.length = 8 →
    let now := s.at t
    let free := s.is (R.CE_RUNCTL_SPARE 7) = true ∧ s.is R.CE7_MOVE_STAT_CARRYING = false ∧ s.move = none
    (∀ n, n < 8 →
      (¬ free → Does (.moveRequest t n) s fun s' =>
        s'.get R.CE7_MOVE_STAT_ERR = 1 ∧ s'.get (R.CE_INT_STAT_MOVE_ERR 7) = 1 ∧ s'.move = s.move) ∧
      (free → n = 7 → Does (.moveRequest t n) s fun s' =>
        s'.get R.CE7_MOVE_STAT_ERR = 2 ∧ s'.get (R.CE_INT_STAT_MOVE_ERR 7) = 1 ∧ s'.move = none) ∧
      (free → n < 7 → (s.eng n).midrun = true → Does (.moveRequest t n) s fun s' =>
        s'.get R.CE7_MOVE_STAT_ERR = 3 ∧ s'.get (R.CE_INT_STAT_MOVE_ERR 7) = 1 ∧ s'.move = none) ∧
      (free → n < 7 → (s.eng n).midrun = false → Does (.moveRequest t n) s fun s' =>
        s'.get R.CE7_MOVE_STAT_BUSY = 1 ∧ s'.get R.CE7_MOVE_STAT_ERR = 0 ∧ s'.get R.CE7_MOVE_STAT_SRC = n ∧
        s'.move = some ⟨n, if (s.eng n).run.isNone then 1 else 0, now.tb⟩ ∧
        ((s.eng n).run = none → s'.get (R.CE_STAT_STOPPED n) = 1) ∧
        KeepsBut [R.CE7_MOVE_STAT_BUSY, R.CE7_MOVE_STAT_ERR, R.CE7_MOVE_STAT_SRC, R.CE_STAT_STOPPED n,
          R.CE_STAT_PENDING n] s s')) ∧
    (∀ m, s.move = some m → m.src < 7 →
      (m.phase = 1 → m.since + 2048 * s.cycleLen ≤ now.tb →
        (Does (.moveCopyEnd t false) s fun s' =>
          (∀ o, o < 0x10000 → s'.byte (ceBase 7 + o) = s.byte (ceBase m.src + o)) ∧
          (∀ a, (a < ceBase 7 ∨ ceBase 7 + 0x10000 ≤ a) → s'.byte a = s.byte a) ∧
          s'.move = some ⟨m.src, 2, now.tb⟩ ∧ KeepsBut [] s s') ∧
        (Does (.moveCopyEnd t true) s fun s' =>
          s'.move = none ∧ s'.get R.CE7_MOVE_STAT_BUSY = 0 ∧ s'.get R.CE7_MOVE_STAT_ERR = 4 ∧
          s'.get (R.CE_INT_STAT_MOVE_ERR 7) = 1 ∧ s'.get (R.CE_FAULT_ECC m.src) = 1 ∧
          s'.get (R.CE_INT_STAT_FAULT m.src) = 1 ∧ ∀ a, s'.byte a = s.byte a)) ∧
      (m.phase = 2 → m.since + 2048 ≤ now.tb → Does (.moveDone t) s fun s' =>
        s'.move = none ∧ s'.get R.CE7_MOVE_STAT_BUSY = 0 ∧ s'.get R.CE7_MOVE_STAT_CARRYING = 1 ∧
        s'.get R.CE7_MOVE_STAT_SRC = m.src ∧ s'.get (R.CE_STAT_MOVED m.src) = 1 ∧ s'.get (R.CE_STAT_MOVED 7) = 1 ∧
        s'.get (R.CE_INT_STAT_MOVE_DONE 7) = 1 ∧ (s'.eng 7).prev = (s.eng m.src).prev ∧
        (s'.eng 7).runNo = (s.eng m.src).runNo ∧ ∀ a, s'.byte a = s.byte a))

/-- Shadows are written, loads requested and taken, and a group's periods start, fire their compares and stop, as
stated (R15, R156, R157, R162, R165, R168, R328). Rests on the model's readings and choices: log entries 44,
131, 133, 134. -/
def Obligations.GroupsLoadAndRunTheirPeriods : Prop :=
  ∀ (t : Nat) (s : State), s.groups.length = 8 → s.chans.length = 48 →
    let now := s.at t
    let quiet := ∀ l, l < 12 → s.get (R.LNE_LN_STAT_FS_CAUSE l) = 0 ∧ s.fsOn (96 + l) = false
    let eff (x : Nat) : Nat := if s.clk.dll then (x + 639) / 640 * 640 else x
    let arrive (g : Nat) : Nat := max (if s.clk.dll then (now.tb + 1280) / 640 * 640 + 640 else (now.tb + 256) / 16 * 16 + 16)
      (((s.group g).queue.getLast?.map (·.at_)).getD 0)
    let request (g : Nat) : Cross := ⟨arrive g, some (s.get (R.PWM_PG_PERIOD_SH g),
      ((List.range 48).filter fun ch => s.get (R.PWM_CH_CFG_GROUP ch) = g).map fun ch => (ch, s.get (R.PWM_CH_DUTY_SH ch)))⟩
    (∀ ch v, ch < 48 →
      let g := s.get (R.PWM_CH_CFG_GROUP ch)
      (s.is (R.PWM_CH_CFG_EN ch) = true → Does (.shadowWrite t true ch v) s fun s' =>
        s'.get (R.PWM_CH_DUTY_SH ch) = v % 2 ^ 40 ∧ (s'.group g).queue = (s.group g).queue ++ [⟨arrive g, none⟩] ∧
        s'.chans = s.chans ∧ KeepsBut [R.PWM_CH_DUTY_SH ch] s s') ∧
      (s.is (R.PWM_CH_CFG_EN ch) = false → Does (.shadowWrite t true ch v) s fun s' =>
        s'.get (R.PWM_CH_DUTY_SH ch) = v % 2 ^ 40 ∧ s'.groups = s.groups ∧ s'.chans = s.chans ∧
        KeepsBut [R.PWM_CH_DUTY_SH ch] s s')) ∧
    (∀ g v, g < 8 →
      (Does (.shadowWrite t false g v) s fun s' =>
        s'.get (R.PWM_PG_PERIOD_SH g) = v % 2 ^ 40 ∧ (s'.group g).queue = (s.group g).queue ++ [⟨arrive g, none⟩] ∧
        s'.chans = s.chans ∧ KeepsBut [R.PWM_PG_PERIOD_SH g] s s') ∧
      (Does (.loadallRequest t g) s fun s' => s'.get (R.PWM_PG_LOADALL g) = 1 ∧ s'.get (R.PWM_PG_STAT_LOADPEND g) = 1 ∧
        (s'.group g).queue = (s.group g).queue ++ [request g] ∧ s'.chans = s.chans ∧
        KeepsBut [R.PWM_PG_LOADALL g, R.PWM_PG_STAT_LOADPEND g] s s') ∧
      (Does (.gload t v) s fun s' => s'.get (R.PWM_PG_LOADALL g) = (if bit v g then 1 else s.get (R.PWM_PG_LOADALL g)) ∧
        s'.get (R.PWM_PG_STAT_LOADPEND g) = (if bit v g then 1 else s.get (R.PWM_PG_STAT_LOADPEND g)) ∧
        (s'.group g).queue = (s.group g).queue ++ (if bit v g then [request g] else []))) ∧
    (∀ g at_ per chs f rest, g < 8 → quiet →
      (s.group g).queue = ⟨at_, some (per, (chs : List Nat).map fun ch => (ch, (f : Nat → Nat) ch))⟩ :: rest →
      (now.tb < eff at_ → Does (.groupLoad t g) s fun s' => s'.chans = s.chans ∧ s'.groups = s.groups ∧ KeepsBut [] s s') ∧
      (eff at_ ≤ now.tb → (s.group g).periods = [] → rest = [] → Does (.groupLoad t g) s fun s' =>
        (∀ ch, ch < 48 → s'.get (R.PWM_CH_DUTY ch) =
          if ch ∈ chs ∧ s.is (R.PWM_CH_CFG_EN ch) = true ∧ s.get (R.PWM_CH_CFG_GROUP ch) = g then f ch % 2 ^ 40
          else s.get (R.PWM_CH_DUTY ch)) ∧
        s'.get (R.PWM_PG_PERIOD g) = max per 0x3E8000 % 2 ^ 40 ∧ (s'.group g).queue = [] ∧
        (per < 0x3E8000 → s'.get (R.PWM_PG_INT_STAT_PERIOD_CLAMP g) = 1) ∧
        s'.get (R.PWM_PG_LOADALL g) = 0 ∧ s'.get (R.PWM_PG_STAT_LOADPEND g) = 0 ∧
        s'.get (R.PWM_PG_LASTLOAD g) = at_ % 2 ^ 64 ∧ s'.get (R.PWM_PG_INT_STAT_LOAD_DONE g) = 1)) ∧
    (∀ g at_, g < 8 → quiet → (s.group g).queue = [⟨at_, none⟩] → at_ ≤ now.tb → Does (.groupLoad t g) s fun s' =>
      (s'.group g).queue = [] ∧ s'.get (R.PWM_PG_INT_STAT_LATE_SHADOW g) =
        (if (s.group g).loaded then 1 else s.get (R.PWM_PG_INT_STAT_LATE_SHADOW g)) ∧
      KeepsBut [R.PWM_PG_INT_STAT_LATE_SHADOW g] s s') ∧
    (∀ g e, g < 8 → (s.group g).enReq = some e →
      (now.tb < e → quiet → Does (.groupEnable t g) s fun s' => s'.groups = s.groups ∧ s'.chans = s.chans ∧ KeepsBut [] s s') ∧
      (e ≤ now.tb → s.is (R.PWM_PG_CTL_EN g) = false → Does (.groupEnable t g) s fun s' =>
        (s'.group g).enAt = none ∧ (s'.group g).periods = [] ∧ s'.get (R.PWM_PG_STAT_RUNNING g) = 0 ∧
        s'.get (R.PWM_PG_STAT_ALIGNED g) = 0) ∧
      (e ≤ now.tb → s.is (R.PWM_PG_CTL_EN g) = true → (s.group g).enAt = none → (s.group g).perAt = none →
        s.blocked g = (s.group g).blockAt.isSome → s.is (R.PWM_PG_STAT_BLOCKED g) = s.blocked g →
        let a : Int := s.get (R.PWM_PG_PHASE g)
        let v := max (s.get (R.PWM_PG_PERIOD g)) 0x3E8000
        Does (.groupEnable t g) s fun s' => (s'.group g).enAt = some e ∧ (s'.group g).enReq = none ∧
          (s.get (R.PWM_PG_CTL_REF g) ≠ 1 → ((s'.group g).periods.head?).map (·.start) =
            some (gridPoint a v (gridFirst a v ((e + s.groupLead g : Nat) : Int))).toNat))) ∧
    (∀ g p, g < 8 → (s.group g).running = false → (s.group g).periods = [p] →
      (now.tb < p.start → quiet → Does (.periodStart t g) s fun s' =>
        s'.groups = s.groups ∧ s'.chans = s.chans ∧ KeepsBut [] s s') ∧
      (p.start ≤ now.tb → Does (.periodStart t g) s fun s' =>
        (s'.group g).running = true ∧ s'.get (R.PWM_PG_STAT_RUNNING g) = 1 ∧ s'.get (R.PWM_PG_PERIOD g) = p.v % 2 ^ 40 ∧
        s'.get (R.PWM_PG_PCOUNT g) = p.cnt % 2 ^ 32 ∧ s'.get (R.PWM_PG_STAT_ALIGNED g) = b2n p.grid ∧
        (s'.group g).trg = (List.range 4).map fun n => s.get (R.PWM_PG_TRG g n))) ∧
    (∀ g p q rest, g < 8 → (s.group g).running = true → (s.group g).periods = p :: q :: rest → q.start ≤ now.tb →
      Does (.periodStart t g) s fun s' =>
        (s'.group g).periods.head? = some q ∧ s'.get (R.PWM_PG_PERIOD g) = q.v % 2 ^ 40 ∧
        s'.get (R.PWM_PG_PCOUNT g) = q.cnt % 2 ^ 32 ∧ s'.get (R.PWM_PG_STAT_ALIGNED g) = b2n q.grid) ∧
    (∀ g n p rest, g < 8 → n < 4 → (s.group g).periods = p :: rest → (s.group g).running = true →
      (s.group g).fired.length = 4 →
      let v := (s.group g).trg.getD n 0
      (bit (s.get (R.PWM_PG_CTL_TRGEN g)) n = true → v < p.stop - p.start → eff (p.start + v) ≤ now.tb →
        Does (.compareFire t g n) s fun s' => (s'.group g).fired = (s.group g).fired.set n (some (p.start + v)) ∧
          KeepsBut [] s s') ∧
      (bit (s.get (R.PWM_PG_CTL_TRGEN g)) n = false ∨ p.stop - p.start ≤ v → Does (.compareFire t g n) s fun s' =>
        s'.groups = s.groups ∧ KeepsBut [] s s'))

/-- An edge is sent in turn with its sequence number or dropped and counted, and executes at its time (R177, R179,
R180, R182, R183, R184, R189, R194, R195). Rests on the model's readings and choices: log entries 46, 124,
126, 127. -/
def Obligations.EdgesGoOutAndExecute : Prop :=
  ∀ (t : Nat) (s : State), s.lanes.length = 12 → s.chans.length = 48 →
    let now := s.at t
    let idle (l : Nat) := (s.lane l).soft = [] ∧ (s.lane l).edges = [] ∧ (s.lane l).cmds = [] ∧ (s.lane l).time = none
    (∀ ch e rest, ch < 48 → idle (ch / 4) → (s.chan ch).pend = e :: rest →
      let l := ch / 4
      let due := e.time - s.lead l
      let st := if s.laneClock then charAt (max due (s.lane l).busy) else now.tb
      let seq := s.get (R.LNE_LN_SEQ l) / 2 ^ (8 * (ch % 4)) % 256
      let frame := edgeFrame (ch % 4) e.on seq e.time
      let late := e.time < st + 10240
      let full := 64 ≤ ((s.chan ch).flight.filter (st < ·.time)).length
      (now.tb < due → Does (.edgeSend t ch) s fun s' => s'.chans = s.chans ∧ SameLanes s s' ∧ KeepsBut [] s s') ∧
      (due ≤ now.tb → s.is (R.LNE_LN_CTL_EN l) = false → Does (.edgeSend t ch) s fun s' =>
        (s'.chan ch).pend = rest ∧ (s'.chan ch).flight = (s.chan ch).flight ∧ SameLanes s s' ∧ KeepsBut [] s s') ∧
      (due ≤ now.tb → s.is (R.LNE_LN_CTL_EN l) = true → now.tb < st → Does (.edgeSend t ch) s fun s' =>
        (s'.lane l).wire = (s.lane l).wire ∧ (s'.lane l).edges = [(due, ch % 4, e)] ∧ (s'.chan ch).pend = rest ∧
        (s'.chan ch).flight = (s.chan ch).flight ∧ KeepsBut [] s s') ∧
      (due ≤ now.tb → s.is (R.LNE_LN_CTL_EN l) = true → st ≤ now.tb → ¬ late → ¬ full → Does (.edgeSend t ch) s fun s' =>
        (s.laneClock = true → (s'.lane l).wire.map (fun f => (f.at_, f.chars)) =
            some (st, if s.muted l then idleChars 7 else frameChars frame) ∧ (s'.lane l).busy = st + 896) ∧
        (s.laneClock = false → (s'.lane l).wire = (s.lane l).wire) ∧
        (s'.lane l).edges = [] ∧ s'.seqOf ch = (seq + 1) % 256 ∧ (s'.chan ch).pend = rest ∧
        (s'.chan ch).flight = (s.chan ch).flight ++ [e] ∧ KeepsBut [R.LNE_LN_SEQ l] s s') ∧
      (due ≤ now.tb → s.is (R.LNE_LN_CTL_EN l) = true → st ≤ now.tb → late ∨ full → Does (.edgeSend t ch) s fun s' =>
        s'.get (R.LNE_LN_COUNT1_DROPS l) = min (s.get (R.LNE_LN_COUNT1_DROPS l) + 1) (2 ^ 16 - 1) ∧
        s'.get (R.LNE_LN_INT_STAT_QFULL l) = 1 ∧ bit (s'.get (R.LNE_LN_STAT_FS_CAUSE l)) 2 = true ∧
        (late → s'.get (R.LNE_LN_INT_STAT_LATE l) = 1) ∧
        ((s.get (R.LNE_LN_STAT_FS_CAUSE l) ≠ 0 → s.fsOn (96 + l) = true) → s'.fsOn (96 + l) = true))) ∧
    (∀ ch e rest, ch < 48 → idle (ch / 4) → (s.chan ch).flight = e :: rest →
      (e.time ≤ now.tb → (∀ q ∈ rest, now.tb < q.time) → Does (.executedLevelChange t ch) s fun s' =>
        (s'.chan ch).level = e.on ∧ (s'.chan ch).flight = rest ∧
        bit (s'.get (if ch < 32 then R.PWM_LEVEL0 else R.PWM_LEVEL1)) (ch % 32) = e.on ∧
        KeepsBut [R.PWM_LEVEL0, R.PWM_LEVEL1] s s') ∧
      (now.tb < e.time → (∀ q ∈ rest, now.tb < q.time) → Does (.executedLevelChange t ch) s fun s' =>
        s'.chans = s.chans ∧ SameLanes s s' ∧ KeepsBut [] s s')) ∧
    (∀ l x, l < 12 → (s.lane l).qfullEnd = some x → x ≤ now.tb → Does (.qfullHoldEnd t l) s fun s' =>
      s'.get (R.LNE_LN_STAT_FS_CAUSE l) = s.get (R.LNE_LN_STAT_FS_CAUSE l) % 4 ∧ (s'.lane l).qfullEnd = none ∧
      (s.get (R.LNE_LN_STAT_FS_CAUSE l) % 4 = 0 → s'.fsOn (96 + l) = false)) ∧
    (∀ l, l < 12 →
      let ready := charAt (max now.tb (s.lane l).busy) = now.tb ∧ ∀ e, s.nextSend l = some e → now.tb + 1152 ≤ e
      let frame := timeFrame (now.tb + s.get (R.LNE_LN_DELAY l))
      (s.laneSends l = true → idle l → (s.lane l).train = none →
        (ready → Does (.timeFrameSend t l) s fun s' =>
          (s'.lane l).wire.map (fun f => (f.at_, f.chars)) =
            some (now.tb, if s.muted l then idleChars 9 else frameChars frame) ∧
          (s'.lane l).busy = now.tb + 1152 ∧ (s'.lane l).time = none ∧ KeepsBut [] s s') ∧
        (¬ ready → Does (.timeFrameSend t l) s fun s' =>
          (s'.lane l).wire = (s.lane l).wire ∧ (s'.lane l).time = some now.tb ∧ KeepsBut [] s s')) ∧
      (s.laneSends l = false → Does (.timeFrameSend t l) s fun s' => s'.lanes = s.lanes ∧ KeepsBut [] s s'))

/-- A FLT pin's source asserts after its persistence, also of an ended pulse, acts on the groups mapped to it and
releases; CLEAR refuses a latched source still on (R169, R170, R171, R173). Rests on the model's readings and
choices: log entry 47. -/
def Obligations.FaultSourcesTakeTheirActions : Prop :=
  ∀ (t : Nat) (s : State), s.groups.length = 8 → s.chans.length = 48 → s.fltPins.length = 16 →
    let now := s.at t
    (∀ k level since, k < 16 →
      let p := (s.fltPins.getD k {}).edge level (min since now.tb)
      let en := s.is (R.FMX_FLT_CFG_EN k)
      let pulse := en = true ∧ now.fltPulse k p = true
      let ended := en = false ∨ p.since + 256 ≤ now.tb
      let on := (en = true ∧ ended ∧ now.fltHeld k p = true) ∨ (pulse ∧ ¬ ended)
      (¬ pulse → ((¬ ended) ∨ (ended ∧ ¬ on ∧ s.fsOn k = false) ∨ (on ∧ s.fsOn k = true)) →
        Does (.fltPinAsserted t k level since) s fun s' =>
          (s'.fltPins.getD k {}).level = level ∧ (s'.fltPins.getD k {}).since = p.since ∧
          s'.groups = s.groups ∧ s'.chans = s.chans ∧ KeepsBut [] s s') ∧
      (ended → ¬ on → s.fsOn k = true → Does (.fltPinAsserted t k level since) s fun s' =>
        s'.fsOn k = false ∧ s'.get (R.FMX_SRC_FLAG 0) = s.get (R.FMX_SRC_FLAG 0)) ∧
      (pulse → ended → s.fsOn k = false → Does (.fltPinAsserted t k level since) s fun s' =>
        s'.fsOn k = false ∧ bit (s'.get (R.FMX_SRC_FLAG 0)) k = true) ∧
      (on → s.fsOn k = false →
        (Does (.fltPinAsserted t k level since) s fun s' => s'.fsOn k = true ∧ bit (s'.get (R.FMX_SRC_FLAG 0)) k = true) ∧
        ((∀ g, g < 8 → s.mappedAction g k = 0) → Does (.fltPinAsserted t k level since) s fun s' =>
          s'.groups = s.groups ∧ s'.chans = s.chans ∧ KeepsBut [R.FMX_SRC_STAT 0, R.FMX_SRC_FLAG 0] s s') ∧
        (∀ g, g < 8 → s.mappedAction g k ≠ 0 → (s.group g).act = 0 →
          (∀ l, l < 12 → s.mappedAction g (96 + l) = 0 ∨ (s.lane l).edges = []) → Does (.fltPinAsserted t k level since) s fun s' =>
          s'.get (R.FMX_PG_STAT_ACTION g) = s.mappedAction g k ∧ (s'.group g).act = s.mappedAction g k ∧
          s'.get (R.FMX_PG_COUNT g) = min (s.get (R.FMX_PG_COUNT g) + 1) (2 ^ 32 - 1) ∧
          s'.get (R.FMX_PG_CAUSE_SRC g) = k ∧ s'.get (R.FMX_PG_CAUSE_VALID g) = 1 ∧
          s'.get (R.FMX_PG_INT_STAT_ACT g) = 1 ∧
          ∀ ch ∈ s.groupChans g, (s'.chan ch).held = true ∧ (s'.chan ch).pend = []))) ∧
    (∀ g, g < 8 →
      ((s.group g).holds.any (fun h => s.fsLatch h.src && h.act ≠ 1 && s.fsOn h.src) = true → Does (.fmxClear t g) s fun s' =>
        s'.get (R.FMX_PG_INT_STAT_CLR_REFUSED g) = 1 ∧ s'.groups = s.groups ∧
        KeepsBut [R.FMX_PG_INT_STAT_CLR_REFUSED g] s s') ∧
      ((s.group g).holds ≠ [] →
        (s.group g).holds.all (fun h => !h.mute && s.fsLatch h.src && h.act ≠ 1 && !s.fsOn h.src) = true →
        (∀ l, l < 12 → s.mappedAction g (96 + l) = 0) →
        Does (.fmxClear t g) s fun s' =>
          s'.get (R.FMX_PG_INT_STAT_CLEARED g) = 1 ∧ s'.get (R.FMX_PG_STAT_ACTION g) = 0 ∧ (s'.group g).act = 0 ∧
          (s'.group g).holds = [] ∧ s'.get (R.FMX_PG_STAT_LATCHED g) = 0 ∧ s'.get (R.FMX_PG_CAUSE_VALID g) = 0))

/-- Lane link states, status frames, training, desaturation clears, diagnostics and configuration act as stated
(R181, R188, R192, R194, R196, R197, R198, R199, R202). Rests on the model's readings and choices: log entries
49, 50, 127, 129, 130. -/
def Obligations.LanesFollowTheirLinkAndService : Prop :=
  ∀ (t l : Nat) (s : State), l < 12 → s.lanes.length = 12 → s.chans.length = 48 →
    let now := s.at t
    let up := s.get (R.LNE_LN_STAT_STATE l) = 2
    let en := s.is (R.LNE_LN_CTL_EN l) = true
    let cls i (s' : State) := s'.get (R.LNE_LN_DIAG_RES l) / 2 ^ (4 * i) % 8
    let idle := (s.lane l).soft = [] ∧ (s.lane l).edges = [] ∧ (s.lane l).cmds = [] ∧ (s.lane l).time = none
    let free (n : Nat) := s.laneSends l = true ∧ idle ∧ charAt (max now.tb (s.lane l).busy) = now.tb ∧
      ∀ e, s.nextSend l = some e → now.tb + 128 * n ≤ e
    let sent (s' : State) := (s'.lane l).wire.map fun f => (f.at_, f.chars)
    (en → up → (∀ x, (s.lane l).goodAt = some x → x + 6144 ≤ now.tb) → ∀ lost, Does (.statusTimeout t l lost) s fun s' =>
      s'.get (R.LNE_LN_STAT_STATE l) = 3 ∧ s'.get (R.LNE_LN_INT_STAT_LINK_LOST l) = 1 ∧ bit (s'.get R.LNE_UP) l = false ∧
      bit (s'.get (R.LNE_LN_STAT_FS_CAUSE l)) 0 = true ∧ s'.fsOn (96 + l) = true) ∧
    (∀ bs, s.laneSends l = true →
      (bs.length ≠ 16 ∨ crc8 ((bs.drop 1).take 14) ≠ leAt bs 15 1 → Does (.statusFrameReceive t l bs) s fun s' =>
        s'.get (R.LNE_LN_COUNT0_CRCERR l) = min (s.get (R.LNE_LN_COUNT0_CRCERR l) + 1) (2 ^ 16 - 1) ∧
        (s'.lane l).good = 0 ∧ KeepsBut [R.LNE_LN_COUNT0_CRCERR l] s s') ∧
      (bs.length = 16 → crc8 ((bs.drop 1).take 14) = leAt bs 15 1 → Does (.statusFrameReceive t l bs) s fun s' =>
        s'.get (R.LNE_LN_HCH l) = leAt bs 2 4 ∧ s'.get (R.LNE_LN_HSEQ l) = leAt bs 6 4 ∧
        s'.get (R.LNE_LN_STAT_HEAD_SAFE l) = leAt bs 10 1 % 2 ∧ (s'.lane l).goodAt = some now.tb ∧
        (s'.lane l).unread = true ∧
        s'.get (R.LNE_LN_COUNT0_OVWR l) = min (s.get (R.LNE_LN_COUNT0_OVWR l) + b2n (s.lane l).unread) (2 ^ 16 - 1) ∧
        (leAt bs 10 1 % 2 = 0 → s.get (R.LNE_LN_STAT_STATE l) = 3 → (s.lane l).wentSafe = false → 7 ≤ (s.lane l).good →
          s'.get (R.LNE_LN_STAT_STATE l) = 2 ∧ s'.get (R.LNE_LN_INT_STAT_LINK_UP l) = 1))) ∧
    (s.is (R.LNE_LN_CTL_EN l) = false → Does (.laneDisable t l) s fun s' =>
      s'.get (R.LNE_LN_STAT_STATE l) = 0 ∧ s'.get (R.LNE_LN_CTL_TRAIN l) = 0 ∧ s'.get (R.LNE_LN_STAT_FS_CAUSE l) = 0 ∧
      s'.fsOn (96 + l) = false ∧ (s'.lane l).soft = [] ∧ (s'.lane l).edges = [] ∧ (s'.lane l).cmds = [] ∧
      (s'.lane l).time = none ∧ (s'.lane l).train = none ∧ ∀ i, i < 4 → (s'.chan (4 * l + i)).pend = []) ∧
    ((s.lane l).train = none → s.laneBlocked l = true ∨ s.muted l = true → Does (.trainStart t l) s fun s' =>
      s'.get (R.LNE_LN_STAT_STATE l) = 1 ∧ s'.get (R.LNE_LN_CTL_TRAIN l) = 1 ∧ bit (s'.get R.LNE_UP) l = false ∧
      (s'.lane l).train = some { from_ := now.tb, at_ := now.tb } ∧
      KeepsBut [R.LNE_LN_STAT_STATE l, R.LNE_LN_CTL_TRAIN l, R.LNE_UP, R.LNE_LN_INT_STAT_CFG_FAIL l, R.TWN_SHEETS_CARRY] s s') ∧
    ((s.lane l).train = none → s.laneBlocked l = false → s.muted l = false → Does (.trainStart t l) s fun s' =>
      s'.get (R.LNE_LN_CTL_TRAIN l) = 0 ∧ s'.get (R.LNE_LN_STAT_TRAIN_ERR l) = 6 ∧
      s'.get (R.LNE_LN_INT_STAT_TRAIN_FAIL l) = 1 ∧ s'.lanes = s.lanes ∧
      KeepsBut [R.LNE_LN_CTL_TRAIN l, R.LNE_LN_STAT_TRAIN_ERR l, R.LNE_LN_INT_STAT_TRAIN_FAIL l] s s') ∧
    (∀ r, (s.lane l).train = some r →
      (Does (.trainStart t l) s fun s' => s'.lanes = s.lanes ∧ KeepsBut [] s s') ∧
      (∀ e, (r.err ≠ 0 ∧ e = r.err) ∨
        (r.err = 0 ∧ r.step = 1 ∧ r.from_ + 3200000 ≤ now.tb ∧ e = 1) ∨
        (r.err = 0 ∧ (s.lane l).cmds = [] ∧
          (r.step = 5 ∧ r.at_ + 32000 ≤ now.tb ∨ r.step = 6 ∧ r.at_ + 160000 ≤ now.tb) ∧ e = 5) →
        Does (.trainEnd t l) s fun s' =>
          s'.get (R.LNE_LN_STAT_STATE l) = 4 ∧ s'.get (R.LNE_LN_STAT_TRAIN_ERR l) = e % 8 ∧
          s'.get (R.LNE_LN_INT_STAT_TRAIN_FAIL l) = 1 ∧ s'.get (R.LNE_LN_CTL_TRAIN l) = 0 ∧ (s'.lane l).train = none ∧
          s'.get (R.LNE_LN_DELAY l) = s.get (R.LNE_LN_DELAY l)) ∧
      (r.err = 0 → 7 ≤ r.step → Does (.trainEnd t l) s fun s' =>
        s'.get (R.LNE_LN_STAT_STATE l) = 2 ∧ s'.get (R.LNE_LN_STAT_TRAIN_ERR l) = 0 ∧ bit (s'.get R.LNE_UP) l = true ∧
        s'.get (R.LNE_LN_INT_STAT_TRAIN_DONE l) = 1 ∧ s'.get (R.LNE_LN_CTL_TRAIN l) = 0 ∧ (s'.lane l).train = none ∧
        bit (s'.get (R.LNE_LN_STAT_FS_CAUSE l)) 0 = false) ∧
      (r.err = 0 → r.step < 7 → now.tb < r.from_ + 3200000 → r.from_ ≤ r.at_ →
        (r.step = 5 → now.tb < r.at_ + 32000) → (r.step = 6 → now.tb < r.at_ + 160000) → idle →
        s.is R.TWN_CTL_EN = false → s.twn.join = none →
        Does (.trainEnd t l) s fun s' => SameLanes s s' ∧ KeepsBut [] s s')) ∧
    (∀ mask i, i < 4 → Does (.desatClear t l mask) s fun s' =>
      bit (s'.get (R.LNE_LN_DESAT_LATCHED l)) i = (bit (s.get (R.LNE_LN_DESAT_LATCHED l)) i && !bit mask i) ∧
      (bit mask i = true → (s'.chan (4 * l + i)).strikes = [])) ∧
    (∀ mask dur i, i < 4 →
      (¬ up ∨ s.laneBlocked l = false → Does (.diagStart t l mask dur) s fun s' =>
        cls i s' = (if bit mask i then 7 else cls i s) ∧ s'.lanes = s.lanes ∧ KeepsBut [R.LNE_LN_DIAG_RES l] s s') ∧
      (up → s.laneBlocked l = true → Does (.diagStart t l mask dur) s fun s' =>
        (s'.lane l).diag = some (mask % 16, max 1 dur)) ∧
      (up → s.laneBlocked l = true → free 4 → Does (.diagStart t l mask dur) s fun s' =>
        sent s' = some (now.tb, frameChars (diagFrame mask (max 1 dur))) ∧ (s'.lane l).diagAt = some now.tb ∧
        KeepsBut [] s s')) ∧
    (∀ m t0, (s.lane l).diag = some m → (s.lane l).diagAt = some t0 →
      (t0 + (if (s.lane l).diagBusy then 160000 * m.2 + 1600000 else 320000) ≤ now.tb → ∀ i, i < 4 →
        Does (.diagTimeout t l) s fun s' => cls i s' = (if bit m.1 i then 6 else cls i s) ∧ (s'.lane l).diag = none ∧
          KeepsBut [R.LNE_LN_DIAG_RES l] s s') ∧
      (now.tb < t0 + 320000 → Does (.diagTimeout t l) s fun s' => s'.lanes = s.lanes ∧ KeepsBut [] s s')) ∧
    (∀ a d, (up → Does (.configSend t l a d) s fun s' => (s'.lane l).cfgWait = true) ∧
      (up → free 6 → (s.lane l).train = none → Does (.configSend t l a d) s fun s' =>
        sent s' = some (now.tb, if s.muted l then idleChars 6 else frameChars (configFrame a d)) ∧
        (s'.lane l).cfgAt = some now.tb ∧ KeepsBut [] s s') ∧
      (¬ up → Does (.configSend t l a d) s fun s' =>
        s'.get (R.LNE_LN_INT_STAT_CFG_FAIL l) = 1 ∧ s'.lanes = s.lanes ∧ KeepsBut [R.LNE_LN_INT_STAT_CFG_FAIL l] s s')) ∧
    (∀ x, (s.lane l).cfgAt = some x → idle →
      (x + 32000 ≤ now.tb → Does (.configTimeout t l) s fun s' =>
        s'.get (R.LNE_LN_INT_STAT_CFG_FAIL l) = 1 ∧ (s'.lane l).cfgWait = false ∧ (s'.lane l).cfgAt = none ∧
        KeepsBut [R.LNE_LN_INT_STAT_CFG_FAIL l] s s') ∧
      (now.tb < x + 32000 → Does (.configTimeout t l) s fun s' => SameLanes s s' ∧ KeepsBut [] s s'))

/-- An edge nearer than MININT to the last validated one is ignored and counted; every other sets DIR by the sign
of beta (R146, R147). -/
def Obligations.TrackersValidateTheirEdges : Prop :=
  ∀ (t p : Nat) (s : State), p < 4 → s.trks.length = 4 → s.is (R.PHT_PT_STAT_CFGERR p) = false →
    s.get (R.PHT_PT_CFG_SRC p) ≠ 0 → s.get (R.PHT_PT_CFG_SRC p) ≠ 3 →
    let k := s.trk p
    ∀ x rest, k.due = x :: rest → ∀ y, k.prev = some y → ∀ c, crossing y.1 y.2.1 y.2.2 x.1 (fcanon x.2.1) (fcanon x.2.2) = some c →
    k.armed = true → flt y.2.1 0 = true → fge (fcanon x.2.1) 0 = true → (fval x.2.1).isSome = true → (fval x.2.2).isSome = true →
    (∀ te, k.edge = some te → c.1 - te < 1600000 * s.get (R.PHT_PT_TIMING_MININT p) → Does (.trackerPair t p) s fun s' =>
      s'.get (R.PHT_PT_EDGE_FAULT p) = min (s.get (R.PHT_PT_EDGE_FAULT p) + 1) (2 ^ 32 - 1) ∧
      s'.get (R.PHT_PT_INT_STAT_EDGE_FAULT p) = 1 ∧
      (s'.trk p).edge = k.edge ∧ (s'.trk p).fresh = k.fresh ∧ (s'.trk p).model = k.model ∧ (s'.trk p).hold = k.hold ∧
      KeepsBut [R.PHT_PT_EDGE_FAULT p, R.PHT_PT_INT_STAT_EDGE_FAULT p, R.PHT_PT_AMP p] s s') ∧
    ((∀ te, k.edge = some te → 1600000 * s.get (R.PHT_PT_TIMING_MININT p) ≤ c.1 - te) → Does (.trackerPair t p) s fun s' =>
      let was := s.get (R.PHT_PT_STAT_DIR p)
      let dir := if c.2 < 0 then 0 else if 0 < c.2 then 1 else was
      s'.get (R.PHT_PT_STAT_DIR p) = dir ∧
      s'.get (R.PHT_PT_INT_STAT_DIR_CHG p) = (if dir = was then s.get (R.PHT_PT_INT_STAT_DIR_CHG p) else 1) ∧
      (s'.trk p).edge = some c.1 ∧ s'.get (R.PHT_PT_EDGE_FAULT p) = s.get (R.PHT_PT_EDGE_FAULT p) ∧
      s'.get (R.PHT_PT_EDGE_STAMP p) = ofS 32 c.1)

/-- A tracker's amplitude, frequency, timeout and VALID follow its pairs, and the quadrature pins step toward the
angle (R144, R148, R150, R152). Rests on the model's readings and choices: log entries 51, 170. -/
def Obligations.TrackersFollowTheirInput : Prop :=
  ∀ (t p : Nat) (s : State), p < 4 → s.trks.length = 4 →
    let now := s.at t
    let k := s.trk p
    let src := s.get (R.PHT_PT_CFG_SRC p)
    let off := s.is (R.PHT_PT_STAT_CFGERR p) || src = 0 || src = 3
    let af := 1600000 * s.get (R.PHT_PT_TIMING_AFILT p)
    (∀ x rest, k.due = x :: rest →
      (off = true → Does (.trackerPair t p) s fun s' =>
        (s'.trk p).due = rest ∧ (s'.trk p).edge = k.edge ∧ KeepsBut [] s s') ∧
      (off = false → Does (.trackerPair t p) s fun s' =>
        (s'.trk p).due = rest ∧
        s'.get (R.PHT_PT_AMP p) = fsqrt (fadd (fmul x.2.1 x.2.1) (fmul x.2.2 x.2.2)) % 2 ^ 32) ∧
      (off = false → k.armed = true → k.fresh = true → ∀ y, k.prev = some y → ∀ c,
        crossing y.1 y.2.1 y.2.2 x.1 (fcanon x.2.1) (fcanon x.2.2) = some c → flt y.2.1 0 = true →
        fge (fcanon x.2.1) 0 = true → (fval x.2.1).isSome = true → (fval x.2.2).isSome = true → ∀ te, k.edge = some te →
        1600000 * s.get (R.PHT_PT_TIMING_MININT p) ≤ c.1 - te → (c.1 - te).toNat ≤ timeoutOf s p →
        s.is (R.PHT_PT_STAT_RUNNING p) = false → Does (.trackerPair t p) s fun s' =>
          s'.get (R.PHT_PT_FREQ p) =
            ofRat (s'.is (R.PHT_PT_STAT_DIR p)) 16000000000 (c.1 - te).toNat % 2 ^ 32 ∧
          s'.get (R.PHT_PT_STAT_RUNNING p) = 1 ∧ s'.get (R.PHT_PT_STAT_FIRST p) = 1 ∧
          s'.get (R.PHT_PT_STAT_VALID p) = s.get (R.PHT_PT_STAT_AMP_OK p))) ∧
    (∀ te, k.edge = some te →
      (k.fresh = true → te + timeoutOf s p ≤ now.tb → Does (.trackerTimeout t p) s fun s' =>
        s'.get (R.PHT_PT_FREQ p) = 0 ∧ s'.get (R.PHT_PT_STAT_RUNNING p) = 0 ∧ s'.get (R.PHT_PT_STAT_VALID p) = 0 ∧
        s'.get (R.PHT_PT_INT_STAT_TIMEOUT p) = 1 ∧ s'.theta p s'.tb = s.theta p now.tb ∧ (s'.trk p).fresh = false) ∧
      (k.fresh = false ∨ now.tb < te + timeoutOf s p → Does (.trackerTimeout t p) s fun s' =>
        s'.trks = s.trks ∧ KeepsBut [] s s')) ∧
    (∀ x, k.side = some (x, true) → s.is (R.PHT_PT_STAT_AMP_OK p) = false → af ≤ k.inTime →
      Does (.ampFilterExpiry t p) s fun s' => s'.get (R.PHT_PT_STAT_AMP_OK p) = 1 ∧
        s'.get (R.PHT_PT_STAT_VALID p) = s.get (R.PHT_PT_STAT_RUNNING p) ∧
        KeepsBut [R.PHT_PT_STAT_AMP_OK p, R.PHT_PT_STAT_VALID p, R.PHT_PT_INT_STAT_VALID_CHG p] s s') ∧
    (∀ x, k.side = some (x, false) → s.is (R.PHT_PT_STAT_AMP_OK p) = true → af ≤ k.outTime →
      Does (.ampFilterExpiry t p) s fun s' => s'.get (R.PHT_PT_STAT_AMP_OK p) = 0 ∧
        s'.get (R.PHT_PT_INT_STAT_AMP_FAULT p) = 1 ∧ s'.get (R.PHT_PT_STAT_VALID p) = 0) ∧
    (∀ l, s.quadLines = some l → s.quad.low = false → (s.trk (s.get R.PHT_OUT_CTL_SEL)).fresh = true →
      s.quad.since + 1600 ≤ now.tb →
      let n := 4 * l
      let pos := s.quad.pos % n
      let up := (s.theta (s.get R.PHT_OUT_CTL_SEL) now.tb * n / 2 ^ 32 + n - pos) % n
      (up = 0 → Does (.quadratureStep t) s fun s' =>
        s'.quad = s.quad ∧ s'.trks = s.trks ∧ KeepsBut [] s s') ∧
      (up ≠ 0 → Does (.quadratureStep t) s fun s' => s'.quad.since = now.tb ∧
        s'.quad.pos = (if 2 * up ≤ n then (pos + 1) % n else (pos + n - 1) % n) ∧
        s'.quad.low = false ∧ s'.trks = s.trks ∧ KeepsBut [] s s')) ∧
    (s.quadLines = none ∨ s.quad.low = true ∨ (s.trk (s.get R.PHT_OUT_CTL_SEL)).fresh = false ∨ now.tb < s.quad.since + 1600 →
      Does (.quadratureStep t) s fun s' => s'.quad = s.quad ∧ s'.trks = s.trks ∧ KeepsBut [] s s')

/-- A port shows its link, cuts through, holds or drops a frame, sends its highest class first, and counts what it
receives (R203, R205, R206, R208, R209, R211). Rests on the model's readings and choices: log entries 52, 53,
54, 55, 135, 171. -/
def Obligations.PortsForwardSendAndReceive : Prop :=
  ∀ (t p : Nat) (s : State), p < 5 → s.net.egress.length = 5 → s.net.fwd.length = 5 → s.net.free.length = 5 → s.net.sent.length = 5 → s.net.rx.length = 5 →
    let now := s.at t
    let q := otherPort p
    (∀ link an, Does (.portLinkChange t p link an) s fun s' =>
      let up := link && s.serdesRuns
      s'.get (R.NET_P_STAT_LINK p) = b2n up ∧
      s'.get (R.NET_P_STAT_AN_DONE p) = b2n (up && an && s.is (R.NET_P_CTL_AN p)) ∧ bit (s'.get R.NET_STAT) p = up ∧
      s'.get R.NET_INT_STAT_LINK_CHG = (if s.is (R.NET_P_STAT_LINK p) = up then s.get R.NET_INT_STAT_LINK_CHG else 1) ∧
      (up = false → p < 4 → s'.get (R.TSU_P_LDLY_VALID p) = 0) ∧ s'.net = s.net) ∧
    (∀ f rx, p < 4 →
      (s.portOn p = false ∨ s.fwdState p ≠ .none ∨ f.length < bodyAt f → Does (.forwardStart t p f rx) s fun s' => s'.net = s.net ∧ KeepsBut [] s s') ∧
      (s.portOn p = true → s.fwdState p = .none → bodyAt f ≤ f.length →
        ((s.classify f).fwd = false ∨ s.is (R.NET_P_CTL_FWD p) = false → Does (.forwardStart t p f rx) s fun s' =>
          s'.fwdState p = .drop ∧ s'.net.egress = s.net.egress ∧ KeepsBut [] s s') ∧
        ((s.classify f).fwd = true → s.is (R.NET_P_CTL_FWD p) = true →
          (s.linked q = false → Does (.forwardStart t p f rx) s fun s' =>
            s'.fwdState p = .drop ∧ s'.get (R.NET_P_CNT_HI q 3) = min (s.get (R.NET_P_CNT_HI q 3) + 1) (2 ^ (R.NET_P_CNT_HI q 3).width - 1) ∧
            KeepsBut [R.NET_P_CNT_HI q 3] s s') ∧
          (s.linked q = true → s.txRoom q < 2000 → Does (.forwardStart t p f rx) s fun s' =>
            s'.fwdState p = .drop ∧ s'.get (R.NET_P_CNT_LO q 2) = min (s.get (R.NET_P_CNT_LO q 2) + 1) (2 ^ (R.NET_P_CNT_LO q 2).width - 1) ∧
            KeepsBut [R.NET_P_CNT_LO q 2] s s') ∧
          (s.linked q = true → 2000 ≤ s.txRoom q →
            ((s.egress q).isEmpty = true ∧ s.net.free.getD q 0 ≤ now.tb → Does (.forwardStart t p f rx) s fun s' =>
              s'.fwdState p = .cut now.tb (s.relayMark p rx f) ∧ s'.net.egress = s.net.egress) ∧
            ((s.egress q).isEmpty = false ∨ now.tb < s.net.free.getD q 0 → Does (.forwardStart t p f rx) s fun s' =>
              s'.fwdState p = .wait ∧ s'.net.egress = s.net.egress ∧ KeepsBut [] s s'))))) ∧
    (∀ f pre post, s.egress p = pre ++ f :: post →
      (now.tb < s.net.free.getD p 0 ∨ s.cutting p = true → Does (.egressTransmit t p) s fun s' => s'.net = s.net ∧ KeepsBut [] s s') ∧
      (s.net.free.getD p 0 ≤ now.tb → s.cutting p = false → (∀ g ∈ pre, g.cls < f.cls) → (∀ g ∈ post, g.cls ≤ f.cls) → s.linked p = true →
        f.own = none → f.mark = .none → Does (.egressTransmit t p) s fun s' =>
          s'.egress p = pre ++ post ∧ s'.net.sent.getD p none = some ⟨now.tb, f.bytes, some (crc32 f.bytes)⟩ ∧
          s'.net.free.getD p 0 = now.tb + 128 * (f.bytes.length + 24) ∧
          s'.get (R.NET_P_TX_OK p) = (s.get (R.NET_P_TX_OK p) + 1) % 2 ^ (R.NET_P_TX_OK p).width ∧
          KeepsBut [R.NET_P_TX_OK p, R.NET_P_BUF_TXOCC p] s s') ∧
      (s.net.free.getD p 0 ≤ now.tb → s.cutting p = false → (∀ g ∈ pre, g.cls < f.cls) → (∀ g ∈ post, g.cls ≤ f.cls) → s.linked p = true →
        ∀ h d, f.own = some (h, d) → f.mark = .none → s.bankRange ownNet d 16 = true → Does (.egressTransmit t p) s fun s' =>
          s'.net.sent.getD p none = some ⟨now.tb, f.bytes, some (crc32 f.bytes)⟩ ∧
          bit (s'.readLe (d + 4) 4) 16 = false ∧ s'.readLe (d + 8) 4 = now.tbShown % 2 ^ 32 ∧ s'.readLe (d + 12) 4 = 0 ∧
          s'.get (if h = 0 then R.NET_INT_STAT_H0_TX else R.NET_INT_STAT_H1_TX) = 1 ∧
          ∀ a, a < d + 4 ∨ d + 16 ≤ a → s'.byte a = s.byte a)) ∧
    (∀ f ok sfd,
      (s.portOn p = false ∨ s.linked p = false → Does (.frameReceive t p f ok sfd) s fun s' =>
        s'.net = s.net ∧ KeepsBut [] s s' ∧ ∀ a, s'.byte a = s.byte a) ∧
      (s.portOn p = true → s.linked p = true →
        (f.length ≤ 1996 → 60 ≤ f.length → ok = false → Does (.frameReceive t p f ok sfd) s fun s' =>
          s'.get (R.NET_P_CNT_LO p 0) = min (s.get (R.NET_P_CNT_LO p 0) + 1) (2 ^ (R.NET_P_CNT_LO p 0).width - 1) ∧
          s'.get (R.NET_P_RX_OK p) = s.get (R.NET_P_RX_OK p) ∧ ∀ a, s'.byte a = s.byte a) ∧
        (1996 < f.length → Does (.frameReceive t p f ok sfd) s fun s' =>
          s'.get (R.NET_P_CNT_HI p 0) = min (s.get (R.NET_P_CNT_HI p 0) + 1) (2 ^ (R.NET_P_CNT_HI p 0).width - 1) ∧
          s'.get (R.NET_P_RX_OK p) = s.get (R.NET_P_RX_OK p) ∧ ∀ a, s'.byte a = s.byte a) ∧
        (p < 4 → f.length ≤ 1996 → 60 ≤ f.length → ok = true → frameSa f = s.devMac →
          Does (.frameReceive t p f ok sfd) s fun s' =>
            s'.get (R.NET_P_RX_OK p) = (s.get (R.NET_P_RX_OK p) + 1) % 2 ^ (R.NET_P_RX_OK p).width ∧
            s'.get (R.NET_P_CNT_LO p 3) = min (s.get (R.NET_P_CNT_LO p 3) + 1) (2 ^ (R.NET_P_CNT_LO p 3).width - 1) ∧
            s'.get R.NET_INT_STAT_LOOP = 1 ∧ ∀ a, s'.byte a = s.byte a) ∧
        (∀ d, d = s.get (R.NET_H_RXBASE 1) / 16 * 16 + 16 * s.get (R.NET_H_RXCFG_HEAD 1) → ∀ b, b = s.readLe d 4 →
          p = 4 → f.length ≤ 1996 ∧ 60 ≤ f.length ∧ ok = true → frameDa f = s.devMac →
          etherType f ≠ 0x8808 ∧ etherType f ≠ 0x88B5 → s.bankRange ownNet d 16 = true ∧ s.bankRange ownNet b f.length = true →
          bit (s.readLe (d + 4) 4) 16 = true → b + f.length ≤ d ∨ d + 16 ≤ b → now.rxRoom 4 (s.frameClass f) (f.length + 4) = true →
          Does (.frameReceive t p f ok sfd) s fun s' =>
            s'.readBytes b f.length = f ∧ s'.readLe (d + 4) 4 = f.length ∧ s'.readLe (d + 8) 4 = (s.grid sfd).toNat % 2 ^ 32 ∧
            s'.readLe (d + 12) 4 = 4 ∧
            (∀ a, a < b ∨ b + f.length ≤ a → a < d + 4 ∨ d + 16 ≤ a → s'.byte a = s.byte a) ∧
            s'.get (R.NET_H_RXCFG_HEAD 1) =
              (s.get (R.NET_H_RXCFG_HEAD 1) + 1) % (2 ^ clampN 4 10 (s.get (R.NET_H_RXCFG_LOG2N 1))) % 2 ^ (R.NET_H_RXCFG_HEAD 1).width ∧
            s'.get R.NET_INT_STAT_H1_RX = 1 ∧
            s'.net.rx.getD 4 [] = now.rxHeld 4 ++ [⟨s.frameClass f, f.length + 4, now.tb + Config.takeTime s.drawn⟩] ∧
            s'.get (R.NET_P_RX_OK 4) = (s.get (R.NET_P_RX_OK 4) + 1) % 2 ^ (R.NET_P_RX_OK 4).width)) ∧
        (p = 4 → f.length ≤ 1996 → 60 ≤ f.length → ok = true → s.eatsS f = true →
          now.rxRoom 4 (s.frameClass f) (f.length + 4) = false → Does (.frameReceive t p f ok sfd) s fun s' =>
            s'.get (R.NET_P_CNT_LO p 1) = min (s.get (R.NET_P_CNT_LO p 1) + 1) (2 ^ (R.NET_P_CNT_LO p 1).width - 1) ∧
            s'.net = s.net ∧ KeepsBut [R.NET_P_CNT_LO p 1, R.NET_P_RX_OK p] s s' ∧ ∀ a, s'.byte a = s.byte a)) ∧
    (Does (.ddEntryExpiry t) s fun s' => KeepsBut [] s s' ∧ s'.net.egress = s.net.egress ∧
      ∀ e, e ∈ s'.net.dd ↔ e ∈ s.net.dd ∧ now.tb < e.2.2 + 16000000 * max 1 (s.get R.NET_PRP_CFG))

/-- Descriptors, watched slots, supervision and beacon instants queue their frames on every port; faults and
withholding are told apart (R211, R212, R214, R216, R218, R219, R303). Rests on the model's readings and
choices: log entries 31, 136, 174, 176. -/
def Obligations.NetworkUnitSendsItsOwnFrames : Prop :=
  ∀ (t : Nat) (s : State), s.net.egress.length = 5 → s.net.tx.length = 2 →
    let now := s.at t
    let seqDev := s.get R.NET_PRP_SEQ_DEVICE
    let seqPair := s.get R.NET_PRP_SEQ_PAIR
    (∀ h, h < 2 →
      let d := s.get (R.NET_H_TXBASE h) / 16 * 16 + 16 * s.get (R.NET_H_TXCFG_HEAD h)
      let w1 := s.readLe (d + 4) 4
      let len := w1 % 65536
      let f := s.readBytes (s.readLe d 4) len
      let next := (s.get (R.NET_H_TXCFG_HEAD h) + 1) % (2 ^ clampN 4 10 (s.get (R.NET_H_TXCFG_LOG2N h))) % 2 ^ (R.NET_H_TXCFG_HEAD h).width
      (Does (.txKick t h) s fun s' => s'.net = { s.net with tx := s.net.tx.set h true } ∧ KeepsBut [] s s') ∧
      (s.net.tx.getD h false = false → ∀ errs, Does (.hostTxDescriptor t h errs) s fun s' =>
        s'.net = s.net ∧ KeepsBut [] s s' ∧ ∀ a, s'.byte a = s.byte a) ∧
      (s.net.tx.getD h false = true → s.bankRange ownNet d 16 = false → ∀ errs, Does (.hostTxDescriptor t h errs) s fun s' =>
        s'.net = { s.net with tx := s.net.tx.set h false } ∧ s'.get R.BNK_INT_STAT_VIOL = 1 ∧ ∀ a, s'.byte a = s.byte a) ∧
      (s.net.tx.getD h false = true → s.bankRange ownNet d 16 = true → Does (.hostTxDescriptor t h [⟨d, true⟩]) s fun s' =>
        s'.net = { s.net with tx := s.net.tx.set h false } ∧ s'.get R.BNK_INT_STAT_ECC_UE = 1 ∧ ∀ a, s'.byte a = s.byte a) ∧
      (s.net.tx.getD h false = true → s.bankRange ownNet d 16 = true → s.rows = [] →
        (bit w1 16 = false → Does (.hostTxDescriptor t h []) s fun s' =>
          s'.net = { s.net with tx := s.net.tx.set h false } ∧ KeepsBut [] s s' ∧ ∀ a, s'.byte a = s.byte a) ∧
        (bit w1 16 = true → len < 14 ∨ (if h = 0 then 1990 else 1996) < len → Does (.hostTxDescriptor t h []) s fun s' =>
          bit (s'.readLe (d + 4) 4) 16 = false ∧ bits (s'.readLe (d + 4) 4) 20 4 = 1 ∧ s'.get R.NET_INT_STAT_TXERR = 1 ∧
          s'.get (R.NET_H_TXCFG_HEAD h) = next ∧ s'.net = s.net ∧
          ∀ a, a < d + 4 ∨ d + 8 ≤ a → s'.byte a = s.byte a) ∧
        (bit w1 16 = true → 14 ≤ len ∧ len ≤ (if h = 0 then 1990 else 1996) →
          ∀ errs, (s.bankRange ownNet (s.readLe d 4) len = false ∧ errs = []) ∨
            (s.bankRange ownNet (s.readLe d 4) len = true ∧ errs = [⟨s.readLe d 4, true⟩] ∧
              (s.readLe d 4 + len ≤ d / 8 * 8 ∨ d / 8 * 8 + 24 ≤ s.readLe d 4)) → Does (.hostTxDescriptor t h errs) s fun s' =>
          bit (s'.readLe (d + 4) 4) 16 = false ∧ bits (s'.readLe (d + 4) 4) 20 4 = 2 ∧ s'.get R.NET_INT_STAT_TXERR = 1 ∧
          s'.get (R.NET_H_TXCFG_HEAD h) = next ∧ s'.net = s.net ∧
          ∀ a, a < d + 4 ∨ d + 8 ≤ a → s'.byte a = s.byte a) ∧
        (bit w1 16 = true → 14 ≤ len ∧ len ≤ (if h = 0 then 1990 else 1996) → s.bankRange ownNet (s.readLe d 4) len = true →
          (h = 1 → s.portOn 4 = true → s.linked 4 = true → (padFrame f).length + 4 ≤ s.txRoom 4 →
            Does (.hostTxDescriptor t h []) s fun s' =>
              s'.egress 4 = s.egress 4 ++ [⟨padFrame f, s.frameClass f, some (1, d), .none⟩] ∧
              s'.get (R.NET_H_TXCFG_HEAD h) = next ∧ KeepsBut [R.NET_H_TXCFG_HEAD h, R.NET_P_BUF_TXOCC 4] s s' ∧
              ∀ a, s'.byte a = s.byte a) ∧
          (h = 0 → s.withholds = true → frameSa f = s.pairMac → Does (.hostTxDescriptor t h []) s fun s' =>
            s'.net = s.net ∧ s'.get R.NET_PRP_SEQ_PAIR = (seqPair + 1) % 2 ^ R.NET_PRP_SEQ_PAIR.width ∧
            bit (s'.readLe (d + 4) 4) 16 = false ∧ s'.get (R.NET_H_TXCFG_HEAD h) = next) ∧
          (h = 0 → s.roomAll s.lanPorts f = true → (s.withholds = true → frameSa f ≠ s.pairMac) → Does (.hostTxDescriptor t h []) s fun s' =>
            s'.get (R.NET_H_TXCFG_HEAD h) = next ∧ (∀ a, s'.byte a = s.byte a) ∧
            (frameSa f ≠ s.pairMac → s'.get R.NET_PRP_SEQ_DEVICE = (seqDev + 1) % 2 ^ R.NET_PRP_SEQ_DEVICE.width) ∧
            ∀ p, p < 4 → s.portOn p = true → s.linked p = true → s'.egress p = s.egress p ++
              [⟨withRct f (if frameSa f = s.pairMac then seqPair else seqDev) (lanOf p), s.frameClass f, some (0, d), .none⟩])))) ∧
    (∀ n ecc, n < 16 → (∀ e ∈ s.net.slotDue, e.1 ≠ n) → Does (.transmitSlotFrame t n ecc) s fun s' =>
      s'.net = s.net ∧ KeepsBut [] s s') ∧
    (∀ n b pre post, n < 16 → s.net.slotDue = pre ++ (n, b) :: post → (∀ e ∈ pre, e.1 ≠ n) →
      let w := fun k => s.readLe (0x70000000 + 128 * s.get (R.NET_TXS_SLOT n) + 64 * b + 4 * k) 4
      let f := s.slotFrame n (w 0) (w 1) ((List.range 14).map fun k => w (k + 2))
      (∀ ecc, s.is (R.NET_TXS_CFG_EN n) = false → Does (.transmitSlotFrame t n ecc) s fun s' =>
        s'.net = { s.net with slotDue := pre ++ post } ∧ KeepsBut [] s s') ∧
      (s.is (R.NET_TXS_CFG_EN n) = true →
        (Does (.transmitSlotFrame t n 2) s fun s' =>
          s'.net = { s.net with slotDue := pre ++ post } ∧ s'.get R.NET_PRP_SEQ_PAIR = seqPair ∧
          s'.get (R.NET_TXS_COUNT_DROPS n) = min (s.get (R.NET_TXS_COUNT_DROPS n) + 1) (2 ^ (R.NET_TXS_COUNT_DROPS n).width - 1) ∧
          s'.get (R.NET_TXS_COUNT_SENT n) = s.get (R.NET_TXS_COUNT_SENT n)) ∧
        (∀ ecc, ecc < 2 → s.rows = [] → s.withholds = true → Does (.transmitSlotFrame t n ecc) s fun s' =>
          s'.net = { s.net with slotDue := pre ++ post } ∧
          s'.get R.NET_PRP_SEQ_PAIR = (seqPair + 1) % 2 ^ R.NET_PRP_SEQ_PAIR.width ∧
          (ecc = 0 → KeepsBut [R.NET_PRP_SEQ_PAIR] s s')) ∧
        (∀ ecc, ecc < 2 → s.rows = [] → s.withholds = false → Does (.transmitSlotFrame t n ecc) s fun s' =>
          s'.net.slotDue = pre ++ post ∧
          s'.get R.NET_PRP_SEQ_PAIR = (seqPair + 1) % 2 ^ R.NET_PRP_SEQ_PAIR.width ∧
          s'.get (R.NET_TXS_COUNT_SENT n) = min (s.get (R.NET_TXS_COUNT_SENT n) + 1) (2 ^ (R.NET_TXS_COUNT_SENT n).width - 1) ∧
          ∀ p, p < 4 → s.portOn p = true → s.linked p = true → (withRct f seqPair (lanOf p)).length + 4 ≤ s.txRoom p →
            s'.egress p = s.egress p ++ [⟨withRct f seqPair (lanOf p), s.frameClass f, none, .none⟩]))) ∧
    (s.is R.NET_CTL_SUPV_EN = false ∨ now.tb < s.net.supvAt → Does (.supervisionFrame t) s fun s' =>
      s'.net = s.net ∧ KeepsBut [] s s') ∧
    (s.is R.NET_CTL_SUPV_EN = true → s.net.supvAt ≤ now.tb → Does (.supervisionFrame t) s fun s' =>
      s'.net.supvSeq = (s.net.supvSeq + 1) % 65536 ∧ s'.net.supvAt = now.tb + 32000000000 ∧
      s'.get R.NET_PRP_SEQ_DEVICE = (seqDev + 1) % 2 ^ R.NET_PRP_SEQ_DEVICE.width ∧
      ∀ p, p < 4 → s.portOn p = true → s.linked p = true → 70 ≤ s.txRoom p →
        (s'.egress p).length = (s.egress p).length + 1) ∧
    (s.is R.NET_CTL_BCN_EN = false ∨ now.beaconDue = false → Does (.beaconSend t) s fun s' =>
      s'.net = s.net ∧ KeepsBut [] s s') ∧
    (s.is R.NET_CTL_BCN_EN = true → now.beaconDue = true → s.net.bcnAt ≠ some now.tb → Does (.beaconSend t) s fun s' =>
      s'.net.bcnSeq = (s.net.bcnSeq + 1) % 65536 ∧ s'.net.bcnAt = some now.tb ∧
      s'.get R.NET_PRP_SEQ_DEVICE = (seqDev + 1) % 2 ^ R.NET_PRP_SEQ_DEVICE.width ∧
      ∀ p, p < 4 → s.portOn p = true → s.linked p = true → (withRct now.beacon seqDev (lanOf p)).length + 4 ≤ s.txRoom p →
        s'.egress p = s.egress p ++ [⟨withRct now.beacon seqDev (lanOf p), s.frameClass now.beacon, none, .none⟩])

/-- A Commons command is refused while one runs, and otherwise reads, pins, unpins, deletes or presets its entry;
aging ends entries (R220, R221, R222, R223). Rests on the model's readings and choices: log entries 56, 57. -/
def Obligations.CommonsCommandsActOnTheirEntry : Prop :=
  ∀ (t i : Nat) (s : State), i < 512 → (s.net.peers.map (·.1)).Nodup →
    let now := s.at t
    (s.is R.NET_CMN_STAT_BUSY = true → ∀ c, c = .read t i ∨ c = .pin t i ∨ c = .unpin t i ∨ c = .delete t i ∨ c = .preset t →
      Does c s fun s' => s'.get R.NET_CMN_STAT_ERR = 4 ∧ s'.net = s.net ∧ KeepsBut [R.NET_CMN_STAT_ERR] s s') ∧
    (s.is R.NET_CMN_STAT_BUSY = false →
      (s.peerAt i = none → ∀ c, c = .read t i ∨ c = .pin t i ∨ c = .unpin t i ∨ c = .delete t i → Does c s fun s' =>
        s'.get R.NET_CMN_STAT_BUSY = 1 ∧ s'.get R.NET_CMN_STAT_ERR = 1 ∧ s'.net = s.net) ∧
      (∀ k, 511 < k → Does (.read t k) s fun s' =>
        s'.get R.NET_CMN_STAT_BUSY = 1 ∧ s'.get R.NET_CMN_STAT_ERR = 3 ∧ s'.net = s.net) ∧
      (∀ p, s.peerAt i = some p →
        (Does (.read t i) s fun s' =>
          s'.get R.NET_CMN_STAT_BUSY = 1 ∧ s'.get R.NET_CMN_STAT_ERR = 0 ∧ s'.net = s.net ∧
          s'.get (R.NET_CMN_W 0) = p.mac % 2 ^ 32 ∧
          bits (s'.get (R.NET_CMN_W 1)) 0 16 = p.mac / 2 ^ 32 % 2 ^ 16 ∧
          (p.mac < 2 ^ 48 → p.node < 64 → bits (s'.get (R.NET_CMN_W 1)) 16 6 = p.node ∧
            bit (s'.get (R.NET_CMN_W 1)) 24 = p.pinned ∧ bit (s'.get (R.NET_CMN_W 1)) 25 = p.stale ∧
            bit (s'.get (R.NET_CMN_W 1)) 30 = true) ∧
          (s.genOf i < 65536 → p.seq < 65536 → s'.get (R.NET_CMN_W 2) = s.genOf i + 65536 * p.seq) ∧
          s'.get (R.NET_CMN_W 3) = p.mould % 2 ^ 32 ∧ s'.get (R.NET_CMN_W 4) = p.status % 2 ^ 32 ∧
          s'.get (R.NET_CMN_W 5) = p.last % 2 ^ 32 ∧ s'.get (R.NET_CMN_W 6) = p.first % 2 ^ 32) ∧
        (Does (.pin t i) s fun s' => s'.peerAt i = some { p with pinned := true } ∧
          s'.get R.NET_CMN_STAT_BUSY = 1 ∧ s'.get R.NET_CMN_STAT_ERR = 0 ∧ ∀ j, j ≠ i → s'.peerAt j = s.peerAt j) ∧
        (Does (.unpin t i) s fun s' => s'.peerAt i = some { p with pinned := false, stale := false, unheard := false } ∧
          s'.get R.NET_INT_STAT_CMN_STALE = (if p.stale then 1 else s.get R.NET_INT_STAT_CMN_STALE) ∧
          s'.get R.NET_CMN_STAT_BUSY = 1 ∧ s'.get R.NET_CMN_STAT_ERR = 0 ∧ ∀ j, j ≠ i → s'.peerAt j = s.peerAt j) ∧
        (Does (.delete t i) s fun s' => s'.peerAt i = none ∧ s'.genOf i = (s.genOf i + 1) % 65536 ∧
          s'.get R.NET_CMN_GEN = (s.get R.NET_CMN_GEN + 1) % 2 ^ R.NET_CMN_GEN.width ∧
          s'.get R.NET_CMN_STAT_BUSY = 1 ∧ s'.get R.NET_CMN_STAT_ERR = 0 ∧ ∀ j, j ≠ i → s'.peerAt j = s.peerAt j)) ∧
      (let mac := s.get R.NET_CMN_KEY_HI * 2 ^ 32 + s.get R.NET_CMN_KEY_LO
       (∀ k p, s.peerOf mac = some (k, p) → Does (.preset t) s fun s' =>
         s'.peerAt k = some { p with pinned := true } ∧ s'.get R.NET_CMN_STAT_ERR = 0) ∧
       (s.peerOf mac = none → s.peerAt i = none → (∀ j, j < i → s.peerAt j ≠ none) → Does (.preset t) s fun s' =>
         (s'.peerAt i).map (fun p => (p.mac, p.pinned, p.stale)) = some (mac, true, true) ∧
         s'.get R.NET_CMN_STAT_ERR = 0 ∧ s'.get R.NET_CMN_GEN = (s.get R.NET_CMN_GEN + 1) % 2 ^ R.NET_CMN_GEN.width))) ∧
    (s.is R.NET_CMN_STAT_BUSY = true → Does (.cmnCommandEnd t) s fun s' =>
      s'.get R.NET_CMN_STAT_BUSY = 0 ∧ s'.get R.NET_INT_STAT_CMN_DONE = 1 ∧ s'.net = s.net ∧
      KeepsBut [R.NET_CMN_STAT_BUSY, R.NET_INT_STAT_CMN_DONE] s s') ∧
    (∀ p, s.peerAt i = some p →
      let old := max 1 (s.get R.NET_CMN_CFG_AGE) < now.tb / 16000000 - p.last
      (p.pinned = true → Does (.commonsAging t) s fun s' => s'.peerAt i = some { p with stale := decide old || p.unheard } ∧
        (p.stale ≠ (decide old || p.unheard) → s'.get R.NET_INT_STAT_CMN_STALE = 1) ∧ s'.genOf i = s.genOf i) ∧
      (p.pinned = false → old → Does (.commonsAging t) s fun s' =>
        s'.peerAt i = none ∧ s'.genOf i = (s.genOf i + 1) % 65536 ∧ s'.get R.NET_INT_STAT_CMN_LOST = 1) ∧
      (p.pinned = false → ¬ old → Does (.commonsAging t) s fun s' => s'.peerAt i = some p ∧ s'.genOf i = s.genOf i))

/-- A due request goes out; an answered one gives a link delay, its mean over eight shown; a failed one counts and
the 16th ends VALID (R228, R229, R230). Rests on the model's readings and choices: log entries 32, 63, 143. -/
def Obligations.PeerDelayIsMeasured : Prop :=
  ∀ (t p : Nat) (s : State), p < 4 → s.pdelays.length = 4 → s.net.egress.length = 5 →
    let now := s.at t
    let x := s.pdelay p
    (s.is R.TSU_CTL_EN = true ∧ s.is (R.TSU_P_CFG_PDLY_EN p) = true ∧ s.linked p = true ∧ s.portOn p = true →
      x.at_ = none ∨ (∃ u, x.at_ = some u ∧ u ≤ now.tb) → Does (.pdelayReqSend t p) s fun s' =>
        s'.egress p = s.egress p ++ [⟨padFrame (s.pdelayFrame p 2 (s.get (R.TSU_TD_CFG_DOMAIN 0)) x.seq 0 (List.replicate 20 0)),
          s.frameClass (s.pdelayFrame p 2 (s.get (R.TSU_TD_CFG_DOMAIN 0)) x.seq 0 (List.replicate 20 0)), none, .req x.seq⟩] ∧
        (s'.pdelay p).seq = (x.seq + 1) % 65536 ∧
        (s'.pdelay p).at_ = some (now.tb + logSeconds (clampI (-3) 3 (toS 4 (s.get (R.TSU_P_CFG_PDLY_LOG p))))) ∧
        (s'.pdelay p).asked = some (x.seq, now.tb) ∧ (s'.pdelay p).t1 = none ∧
        s'.get (R.TSU_P_CNT0_PDLY_FAIL p) = min (s.get (R.TSU_P_CNT0_PDLY_FAIL p) + b2n x.asked.isSome)
          (2 ^ (R.TSU_P_CNT0_PDLY_FAIL p).width - 1) ∧
        KeepsBut (R.NET_P_BUF_TXOCC p :: if x.asked.isSome then [R.TSU_P_CNT0_PDLY_FAIL p, R.TSU_P_LDLY_VALID p] else []) s s') ∧
    (s.is R.TSU_CTL_EN = false ∨ s.is (R.TSU_P_CFG_PDLY_EN p) = false ∨ s.linked p = false → Does (.pdelayReqSend t p) s fun s' =>
      s'.net = s.net ∧ s'.pdelays = s.pdelays ∧ KeepsBut [] s s') ∧
    (∀ ident seq dom cf rx, s.is R.TSU_CTL_EN = true → s.linked p = true → s.portOn p = true →
      let f := s.pdelayFrame p 3 dom seq cf (List.replicate 10 0 ++ beBytes 10 ident)
      Does (.pdelayReq t p ident seq dom cf rx) s fun s' =>
        s'.egress p = s.egress p ++ [⟨padFrame f, s.frameClass f, none, .resp (s.grid rx + toS 16 (s.get (R.TSU_P_ADJ_RXADJ p)))⟩] ∧
        KeepsBut [R.NET_P_BUF_TXOCC p] s s') ∧
    (∀ seq stamp cf rx, ∀ y, x.t1 = some y →
      (y.1 ≠ seq → ∀ fu two, Does (.pdelayResp t p fu seq two stamp cf rx) s fun s' =>
        s'.pdelays = s.pdelays ∧ KeepsBut [] s s') ∧
      (y.1 = seq →
        let t4 := s.grid rx + toS 16 (s.get (R.TSU_P_ADJ_RXADJ p))
        (Does (.pdelayResp t p false seq true stamp cf rx) s fun s' =>
          s'.pdelay p = { x with pend := some (t4, divRne cf 4096 - stamp) } ∧ KeepsBut [] s s') ∧
        ∀ fu d, (fu = false ∧ d = divRne (t4 - y.2 - divRne cf 4096) 2) ∨
          (fu = true ∧ ∃ z, x.pend = some z ∧ d = divRne (z.1 - y.2 - (stamp + divRne cf 4096 + z.2)) 2) →
          (d ≤ 160000 → Does (.pdelayResp t p fu seq false stamp cf rx) s fun s' =>
            let l := (d :: x.results).take 8
            s'.pdelay p = { x with results := l, fails := 0, seen := true, asked := none, t1 := none, pend := none } ∧
            s'.get (R.TSU_P_LDLY_DELAY p) = (divRne (l.foldl (· + ·) 0) l.length).toNat % 2 ^ (R.TSU_P_LDLY_DELAY p).width ∧
            s'.get (R.TSU_P_LDLY_VALID p) = 1 ∧ KeepsBut [R.TSU_P_LDLY_DELAY p, R.TSU_P_LDLY_VALID p] s s') ∧
          (160000 < d → Does (.pdelayResp t p fu seq false stamp cf rx) s fun s' =>
            s'.pdelay p = { x with fails := x.fails + 1, asked := none, t1 := none, pend := none } ∧
            s'.get (R.TSU_P_CNT0_PDLY_FAIL p) =
              min (s.get (R.TSU_P_CNT0_PDLY_FAIL p) + 1) (2 ^ (R.TSU_P_CNT0_PDLY_FAIL p).width - 1) ∧
            s'.get (R.TSU_P_LDLY_DELAY p) = s.get (R.TSU_P_LDLY_DELAY p)))) ∧
    (∀ y, x.asked = some y →
      let due := y.2 + logSeconds (clampI (-3) 3 (toS 4 (s.get (R.TSU_P_CFG_PDLY_LOG p))))
      (now.tb < due → Does (.pdelayTimeout t p) s fun s' => s'.pdelays = s.pdelays ∧ KeepsBut [] s s') ∧
      (due ≤ now.tb → Does (.pdelayTimeout t p) s fun s' =>
        s'.pdelay p = { x with fails := x.fails + 1, asked := none, t1 := none, pend := none } ∧
        s'.get (R.TSU_P_CNT0_PDLY_FAIL p) =
          min (s.get (R.TSU_P_CNT0_PDLY_FAIL p) + 1) (2 ^ (R.TSU_P_CNT0_PDLY_FAIL p).width - 1) ∧
        s'.get (R.TSU_P_LDLY_VALID p) = (if 16 ≤ x.fails + 1 then 0 else s.get (R.TSU_P_LDLY_VALID p)) ∧
        KeepsBut [R.TSU_P_CNT0_PDLY_FAIL p, R.TSU_P_LDLY_VALID p] s s'))

/-- A servo acquires its qualified master, takes its Syncs, locks after four good ones, and holds over when they
or the master end (R231, R232, R233, R235, R236). Rests on the model's readings and choices: log entries 32,
33, 59, 60, 61, 62, 138, 139, 141. -/
def Obligations.ServosFollowTheirMaster : Prop :=
  ∀ (t d p : Nat) (s : State), d < 2 → p < 4 → s.doms.length = 2 → s.pdelays.length = 4 →
    let now := s.at t
    let x := s.dom d
    let td := s.get (R.TSU_TD_STAT_STATE d)
    (∀ m a, s.is R.TSU_CTL_EN = true → s.is (R.TSU_TD_CFG_EN d) = true → s.get (R.TSU_TD_CFG_DOMAIN d) = m.dom →
      s.is (R.TSU_TD_CFG_PROFILE d) = false → s.is (R.TSU_TD_CFG_EN (1 - d)) = false →
      s.is R.TSU_CTL_HOLD = false → td = 1 → x.anns = [a] → a.port = p → a.msg.ident = m.ident → m.steps < 255 → now.tb ≤ a.at_ + 4 * logSeconds m.log →
      Does (.announce t p m) s fun s' =>
        s'.get (R.TSU_TD_STAT_PORT d) = p ∧ s'.get (R.TSU_TD_STAT_PORT_VALID d) = 1 ∧
        s'.get (R.TSU_TD_STAT_STATE d) = (if s.clkLocked then 2 else 4) ∧ (s'.dom d).master = some m.ident ∧
        s'.get (R.TSU_TD_GMID d) = m.gm % 2 ^ 64 ∧ (s'.dom d).anns = [⟨p, m, now.tb, true⟩]) ∧
    (∀ y, s.is R.TSU_CTL_EN = true →
      (s.clkLocked = false → Does (.syncMessage t p y) s fun s' => s'.doms = s.doms ∧
        s'.get (R.TSU_TD_OFFSET d) = s.get (R.TSU_TD_OFFSET d) ∧ s'.tb = now.tb) ∧
      (y.two = true → s.clkLocked = true → Does (.syncMessage t p y) s fun s' => (p, y) ∈ (s'.dom 0).twoStep ∧
        s'.get (R.TSU_TD_OFFSET d) = s.get (R.TSU_TD_OFFSET d)) ∧
      ((s.dom 0).twoStep = [] → Does (.followUp t p y) s fun s' =>
        s'.get (R.TSU_TD_OFFSET d) = s.get (R.TSU_TD_OFFSET d) ∧ s'.tb = now.tb) ∧
      (s.is (R.TSU_TD_CFG_EN d) = true ∧ s.is (R.TSU_TD_CFG_EN (1 - d)) = false ∧ s.get (R.TSU_TD_CFG_DOMAIN d) = y.dom →
        s.is R.TSU_CTL_HOLD = false ∧ s.is R.TSU_CTL_STEP_EN = false ∧ s.clkLocked = true ∧ (s.pdelay p).seen = true →
        s.get (R.TSU_TD_STAT_STATE (1 - d)) = 0 → td = 2 ∨ td = 3 → s.get R.TSU_STAT_INFORCE = d ∧ s.get R.TSU_CTL_SEL = d →
        s.is (R.TSU_TD_STAT_PORT_VALID d) = true ∧ s.get (R.TSU_TD_STAT_PORT d) = p ∧ x.master = some y.ident →
        let m := (y.sec - (s.get R.TSU_EPOCH : Int)) * second + 16 * y.ns + divRne y.cf 4096 + s.get (R.TSU_P_LDLY_DELAY p) +
          toS 32 (s.get (R.TSU_P_ASYM p))
        let t2 := s.grid y.rx + toS 16 (s.get (R.TSU_P_ADJ_RXADJ p))
        let close := decide ((m - t2).natAbs ≤ 16 * s.get (R.TSU_TD_SERVO_LOCK_THR d))
        0 ≤ m → m < 2 ^ 64 → ∀ c, (c = Instr.syncMessage t p y ∧ y.two = false) ∨
            (c = Instr.followUp t p y ∧ ∃ z, (s.dom 0).twoStep = [(p, z)] ∧ z.ident = y.ident ∧ z.dom = y.dom ∧ z.seq = y.seq ∧
              z.cf = 0 ∧ z.rx = y.rx ∧ z.log = y.log) →
          Does c s fun s' =>
            s'.get (R.TSU_TD_OFFSET d) = ofS 64 (m - t2) ∧
            s'.get (R.TSU_TD_CNT_SYNC d) = (s.get (R.TSU_TD_CNT_SYNC d) + 1) % 2 ^ (R.TSU_TD_CNT_SYNC d).width ∧
            s'.get (R.TSU_TD_STAT_LOG_SYNC d) = ofS 8 y.log ∧ s'.tb = now.tb ∧
            (td = 2 → (s'.dom d).prev = some (m, t2, m - t2) ∧ (s'.dom d).lastAt = some now.tb ∧
              s'.get (R.TSU_TD_STAT_STATE d) = if close = true ∧ 3 ≤ x.good then 3 else 2) ∧
            (td = 2 → s.is R.TSU_STAT_SLEWING = false → s.is R.TWN_STAT_STEER = false → ∀ z, x.prev = some z →
              let c := fracSat (clampN 10 200 (s.get R.TSU_SLEW_SLEW_MAX))
                (fracMul (fracMul ((s.get (R.TSU_TD_SERVO_KP d) : Int), 256) (fracOf ((m - t2) * second) (16 * (m - z.1)))) (1, 1))
              s'.get R.TSU_RATE = fracReg (fracSat 100000 (fracAdd (s'.dom d).y c))))) ∧
    (∀ z, x.lastAt = some z →
      let due := z + 3 * logSeconds (toS 8 (s.get (R.TSU_TD_STAT_LOG_SYNC d)))
      (now.tb < due ∨ td < 2 ∨ td = 4 → Does (.syncTimeout t d) s fun s' =>
        s'.get (R.TSU_TD_STAT_STATE d) = td ∧ s'.doms = s.doms) ∧
      (due ≤ now.tb → td = 2 ∨ td = 3 → Does (.syncTimeout t d) s fun s' => s'.get (R.TSU_TD_STAT_STATE d) = 4 ∧
        (s.is R.TSU_CTL_AUTOSEL = false → s'.get R.TSU_STAT_INFORCE = s.get R.TSU_STAT_INFORCE))) ∧
    (∀ a, x.anns = [a] → a.port = s.get (R.TSU_TD_STAT_PORT d) → x.master = some a.msg.ident →
      (now.tb < a.at_ + 3 * logSeconds a.msg.log → Does (.announceTimeout t d) s fun s' => s'.doms = s.doms ∧ KeepsBut [] s s') ∧
      (a.at_ + 3 * logSeconds a.msg.log ≤ now.tb → td = 2 ∨ td = 3 → Does (.announceTimeout t d) s fun s' =>
        s'.get (R.TSU_TD_STAT_STATE d) = 4 ∧ (s'.dom d).anns = [] ∧
        s'.get (R.TSU_TD_STAT_PORT_VALID d) = 0 ∧
        s'.get (R.TSU_TD_CNT_ANN_TO d) = min (s.get (R.TSU_TD_CNT_ANN_TO d) + 1) (2 ^ (R.TSU_TD_CNT_ANN_TO d).width - 1))) ∧
    (Does (.servoHold t false) s fun s' => s'.get R.TSU_CTL_HOLD = 0 ∧
      s'.get (R.TSU_TD_STAT_STATE d) = (if s.tdOn d then (if td = 0 then 1 else td) else 0)) ∧
    ((∀ k, k < 2 → s.tdOn k = true ∧ s.get (R.TSU_TD_STAT_STATE k) ≠ 0) → Does (.servoHold t false) s fun s' =>
      s'.doms = s.doms ∧ KeepsBut [R.TSU_CTL_HOLD] s s') ∧
    (Does (.servoHold t true) s fun s' => s'.get R.TSU_CTL_HOLD = 1 ∧ s'.get (R.TSU_TD_STAT_STATE d) = 4) ∧
    (s.get R.TSU_CTL_SEL = d →
      (s.get R.TSU_STAT_INFORCE = d ∨ td ≠ 3 → Does (.domainReturn t) s fun s' => s'.doms = s.doms ∧ KeepsBut [] s s') ∧
      (s.is R.TSU_CTL_AUTOSEL = true → x.fell = true → (∀ z, x.lockedAt = some z → now.tb < z + 60 * second) →
        Does (.domainReturn t) s fun s' => s'.doms = s.doms ∧ KeepsBut [] s s') ∧
      (s.get R.TSU_STAT_INFORCE = 1 - d → td = 3 →
        s.is R.TSU_CTL_AUTOSEL = false ∨ x.fell = false ∨ (∃ z, x.lockedAt = some z ∧ z + 60 * second ≤ now.tb) → Does (.domainReturn t) s fun s' =>
        s'.get R.TSU_STAT_INFORCE = d ∧ s'.get R.TSU_STAT_SLEWING = 1 ∧ s'.get R.TSU_INT_STAT_SEL_CHG = 1 ∧
        s'.get R.TSU_STAT_TIME_OK = 0))

/-- A trigger is armed for its START or the next instant of its period, or is late; its firing is recorded and the
next one set (R237, R238, R328). Rests on the model's readings and choices: log entries 64, 83, 142. -/
def Obligations.TriggersFireAtTheirInstants : Prop :=
  ∀ (t k : Nat) (s : State), k < 16 → s.trigs.length = 16 →
    let now := s.at t
    let eff (x : Nat) : Nat := if s.clk.dll then (x + 639) / 640 * 640 else x
    let x := s.trig k
    let st := s.get (R.TSU_TT_START k)
    let p := if s.get (R.TSU_TT_PERIOD k) = 0 then 0 else max (s.get (R.TSU_TT_PERIOD k)) 16000
    (x.enReq = none → Does (.ttEnable t k) s fun s' => s'.trigs = s.trigs ∧ KeepsBut [] s s') ∧
    (∀ e, x.enReq = some e →
      (now.tb < e → Does (.ttEnable t k) s fun s' => s'.trigs = s.trigs ∧ KeepsBut [] s s') ∧
      (e ≤ now.tb → s.is (R.TSU_TT_CTL k) = false → Does (.ttEnable t k) s fun s' =>
        s'.trig k = { x with next := none, enAt := none, enReq := none } ∧ KeepsBut [] s s') ∧
      (e ≤ now.tb → s.is (R.TSU_TT_CTL k) = true → x.enAt = none →
        (e < st → Does (.ttEnable t k) s fun s' =>
          s'.trig k = { x with next := some st, enAt := some e, enReq := none } ∧ KeepsBut [] s s') ∧
        (st ≤ e → p = 0 → Does (.ttEnable t k) s fun s' =>
          s'.get (R.TSU_TT_CTL k) = 0 ∧ bit (s'.get R.TSU_TT_LATE) k = true ∧ s'.get R.TSU_INT_STAT_TT_LATE = 1 ∧
          s'.trig k = { x with enReq := none } ∧ KeepsBut [R.TSU_TT_CTL k, R.TSU_TT_LATE, R.TSU_INT_STAT_TT_LATE] s s') ∧
        (st ≤ e → p ≠ 0 → Does (.ttEnable t k) s fun s' =>
          let n := (e - st) / p + 1
          s'.trig k = { x with next := some (st + n * p), enAt := some e, enReq := none } ∧
          s'.get (R.TSU_TT_SKIP k) = min (s.get (R.TSU_TT_SKIP k) + n) (2 ^ (R.TSU_TT_SKIP k).width - 1) ∧
          bit (s'.get R.TSU_TT_LATE) k = true ∧ s'.get R.TSU_INT_STAT_TT_LATE = 1 ∧
          KeepsBut [R.TSU_TT_SKIP k, R.TSU_TT_LATE, R.TSU_INT_STAT_TT_LATE] s s'))) ∧
    (∀ u, x.next = some u →
      (s.is (R.TSU_TT_CTL k) = true → eff u ≤ now.tb → Does (.ttFire t k) s fun s' =>
        bit (s'.get R.TSU_TT_FIRED) k = true ∧ s'.get R.TSU_INT_STAT_TT = 1 ∧
        s'.get (R.TSU_TTN_FIRED k) = (s.get (R.TSU_TTN_FIRED k) + 1) % 2 ^ (R.TSU_TTN_FIRED k).width ∧
        (s'.trig k).fired = some u ∧ (s'.trig k).next = (if p = 0 then none else some (u + p)) ∧
        s'.get (R.TSU_TT_CTL k) = (if p = 0 then 0 else s.get (R.TSU_TT_CTL k)) ∧
        ∀ j, j < 16 → j ≠ k → s'.trig j = s.trig j) ∧
      (now.tb < eff u ∨ (s.is (R.TSU_TT_CTL k) = false ∧ ∀ e, x.enReq = some e → e ≤ u) → Does (.ttFire t k) s fun s' =>
        s'.trigs = s.trigs ∧ s'.get R.TSU_TT_FIRED = s.get R.TSU_TT_FIRED))

/-- A twin frame with a bad CRC is only counted; records are taken in order, a gap is asked for, and held records
apply at their instant (R241, R242, R249, R250, R251, R252). Rests on the model's readings and choices: log
entries 68, 144, 145, 149, 173. -/
def Obligations.JournalRecordsAreHeldAndApplied : Prop :=
  ∀ (t : Nat) (s : State), s.engs.length = 8 → s.twn.downAt.length = 2 →
    let now := s.at t
    let next (q : Nat) := some ((q + 1) % 2 ^ 32)
    (s.is R.TWN_CTL_EN = true → ∀ lseq whole u num stamp merged fix addr v f slot st vals n idx crc loser missing item,
      u < 8 → f < 16 → n < 8 → ∀ c, c = Instr.journalRunRecord t false lseq whole u num stamp merged fix ∨
        c = Instr.journalWriteRecord t false lseq addr v st ∨ c = Instr.journalFilterRecord t false lseq f slot st vals num ∨
        c = Instr.checkpoint t false lseq n num idx crc ∨ c = Instr.verdict t false lseq n loser ∨
        c = Instr.nak t false lseq missing ∨ c = Instr.stateFrame t false lseq whole item →
        Does c s fun s' =>
          s'.get R.TWN_CNT2_LINK_CRC = min (s.get R.TWN_CNT2_LINK_CRC + 1) (2 ^ R.TWN_CNT2_LINK_CRC.width - 1) ∧
          s'.twn = s.twn ∧ KeepsBut [R.TWN_CNT2_LINK_CRC] s s' ∧ ∀ a, s'.byte a = s.byte a) ∧
    (s.is R.TWN_CTL_EN = true → s.twn.rxSeq = none → ∀ lseq addr v issue, Does (.journalWriteRecord t true lseq addr v issue) s fun s' =>
      s'.twn = { s.twn with
        rxSeq := some ((lseq + 1) % 2 ^ 32), missing := [], held := s.twn.held ++ [.write (issue + s.applyDly) addr v 0] } ∧
      KeepsBut [] s s') ∧
    (s.is R.TWN_CTL_EN = true → ∀ q, s.twn.rxSeq = some q → q < 2 ^ 32 →
      (∀ addr v issue, Does (.journalWriteRecord t true q addr v issue) s fun s' =>
        s'.twn = { s.twn with
          rxSeq := some ((q + 1) % 2 ^ 32), missing := s.twn.missing.take 5461
          held := s.twn.held ++ [.write (issue + s.applyDly) addr v 0] } ∧ KeepsBut [] s s') ∧
      (∀ addr v issue, Does (.journalWriteRecord t true ((q + 1) % 2 ^ 32) addr v issue) s fun s' =>
        s'.twn.rxSeq = some ((q + 2) % 2 ^ 32) ∧ s'.twn.missing = q :: s.twn.missing.take 5461 ∧
        s'.twn.held = s.twn.held ++ [.write (issue + s.applyDly) addr v 0] ∧
        s'.twn.queue.getLast?.map (·.msg) = some (.nak q) ∧ KeepsBut [] s s') ∧
      (∀ f slot st vals arrive, f < 16 → Does (.journalFilterRecord t true q f slot st vals arrive) s fun s' =>
        s'.twn = { s.twn with
          rxSeq := next q, missing := s.twn.missing.take 5461
          held := s.twn.held ++ [.filter (arrive + s.applyDly) f slot st vals] } ∧ KeepsBut [] s s') ∧
      (∀ u num stamp merged fix, u < 8 → Does (.journalRunRecord t true q false u num stamp merged fix) s fun s' =>
        s'.twn = { s.twn with rxSeq := next q, missing := s.twn.missing.take 5461 } ∧ s'.engs = s.engs ∧ KeepsBut [] s s') ∧
      (∀ u num stamp merged fix, u < 8 → s.is R.TWN_STAT_JSRC = false ∧ s.engLive (s.phys u) = true → s.phys u < 8 →
        s.twn.join = none → ((s.eng (s.phys u)).wait.any fun k => decide (k.stamp = stamp)) = false →
        Does (.journalRunRecord t true q true u num stamp merged fix) s fun s' =>
          (s'.eng (s.phys u)).wait.map (fun k => (k.stamp, k.due, k.merged)) =
            (s.eng (s.phys u)).wait.map (fun k => (k.stamp, k.due, k.merged)) ++ [(stamp, s.tickDue stamp, merged)] ∧
          stamp ∈ (s'.eng (s.phys u)).recs ∧ s'.twn.rxSeq = next q) ∧
      (∀ k f, s.twn.store.find? (fun e => decide (e.lseq = k)) = some f → Does (.nak t true q k) s fun s' =>
        s'.twn.rxSeq = some ((q + 1) % 2 ^ 32) ∧ s'.twn.held = s.twn.held ∧
        s'.twn.queue.getLast? = some { due := now.tb, part := f.part, again := some (k, f.pay), msg := f.msg } ∧ KeepsBut [] s s') ∧
      (∀ k, s.twn.store.find? (fun e => decide (e.lseq = k)) = none → Does (.nak t true q k) s fun s' =>
        s'.twn = { s.twn with rxSeq := some ((q + 1) % 2 ^ 32), missing := s.twn.missing.take 5461 } ∧ KeepsBut [] s s')) ∧
    ((∀ h ∈ s.twn.held, now.tb < heldAt h) → Does (.journalApply t) s fun s' =>
      s'.twn = s.twn ∧ KeepsBut [] s s' ∧ ∀ a, s'.byte a = s.byte a) ∧
    (∀ x i v z, x ≤ now.tb → i < 32 → s.twn.held = [.write x (R.PWM_PG_TRG (i / 4) (i % 4)).addr v z] →
      Does (.journalApply t) s fun s' => s'.twn.held = [] ∧ s'.get (R.PWM_PG_TRG (i / 4) (i % 4)) = v % 2 ^ 32 ∧
        KeepsBut [R.PWM_PG_TRG (i / 4) (i % 4)] s s' ∧ ∀ a, s'.byte a = s.byte a) ∧
    (∀ x f slot st vals, x ≤ now.tb → f < 16 → slot < 16384 → vals.length = 14 → s.twn.held = [.filter x f slot st vals] →
      let m := if s.get (R.NET_RXF_COUNT f) = 0xFFFFFFFF then 1 else s.get (R.NET_RXF_COUNT f) + 1
      let a := 0x70000000 + 128 * slot + 64 * (m % 2)
      Does (.journalApply t) s fun s' => s'.twn.held = [] ∧ s'.get (R.NET_RXF_COUNT f) = m ∧ s'.readLe a 4 = m ∧
        s'.readLe (a + 4) 4 = st % 2 ^ 32 ∧ (∀ k, k < 14 → s'.readLe (a + 8 + 4 * k) 4 = vals.getD k 0 % 2 ^ 32) ∧
        KeepsBut [R.NET_RXF_COUNT f] s s' ∧ ∀ b, b < a ∨ a + 64 ≤ b → s'.byte b = s.byte b) ∧
    (∀ l, l < 2 →
      (Does (.twinLaneDown t l) s fun s' => bit (s'.get R.TWN_STAT_LANES) l = false ∧ s'.get R.TWN_INT_STAT_LANE_DOWN = 1 ∧
        s'.twn.downAt.getD l 0 = now.tb ∧ KeepsBut [R.TWN_STAT_LANES, R.TWN_INT_STAT_LANE_DOWN] s s') ∧
      (Does (.twinLaneUp t l) s fun s' =>
        bit (s'.get R.TWN_STAT_LANES) l = (bit (s.get R.TWN_STAT_LANES) l || s.serdesRuns) ∧ s'.twn = s.twn ∧
        KeepsBut [R.TWN_STAT_LANES] s s'))

/-- Equal checkpoints go on; unequal or missing ones make a divergence, whose winner is alone and whose loser
joins anew (R243, R246, R253, R254, R255, R256, R260, R261, R264). Rests on the model's readings and choices:
log entries 144, 172. -/
def Obligations.PairStatesChangeOnDivergenceAndLoss : Prop :=
  ∀ (t : Nat) (s : State), s.engs.length = 8 → s.lanes.length = 12 → s.groups.length = 8 → s.chans.length = 48 →
    s.twn.runOk.length = 8 → s.is R.TWN_CTL_EN = true → ∀ q, s.twn.rxSeq = some q → q < 2 ^ 32 →
    let now := s.at t
    let st := s.get R.TWN_STAT_STATE
    (∀ n num idx crc, n < 8 → s.twn.serving = [] →
      (s.twn.own = [] → Does (.checkpoint t true q n num idx crc) s fun s' =>
        s'.twn.theirs = (s.twn.theirs ++ [Chk.mk n num idx crc now.tb false]).drop (s.twn.theirs.length - 255) ∧
        s'.twn.own = [] ∧ KeepsBut [] s s') ∧
      (∀ at_, s.twn.own = [⟨n, num, idx, crc, at_, false⟩] → Does (.checkpoint t true q n num idx crc) s fun s' =>
        s'.twn.own = [] ∧ s'.get (R.TWN_CE_DIVRUN n) = s.get (R.TWN_CE_DIVRUN n) ∧
        s'.get R.TWN_CNT0_DIV_WON = s.get R.TWN_CNT0_DIV_WON ∧ s'.get R.TWN_CNT0_DIV_LOST = s.get R.TWN_CNT0_DIV_LOST) ∧
      (∀ x, s.twn.own = [x] → x.n = n → ∀ c, (c = Instr.checkpoint t true q n x.num x.idx crc ∧ crc ≠ x.crc ∧ x.fin = false) ∨
          (c = Instr.checkpointTimeout t n ∧ x.at_ + 320000 ≤ now.tb ∧ s.get R.TWN_STAT_LANES ≠ 0 ∧ s.compares n = true) →
        (s.is R.TWN_STAT_JSRC = true → s.sourceLoses = false → Does c s fun s' =>
          s'.get (R.TWN_CE_DIVRUN n) = x.num % 2 ^ 32 ∧ s'.get (R.TWN_CE_CHK_MATCHED n) = 0 ∧
          s'.get R.TWN_CNT0_DIV_WON = min (s.get R.TWN_CNT0_DIV_WON + 1) (2 ^ R.TWN_CNT0_DIV_WON.width - 1) ∧
          s'.get R.TWN_INT_STAT_DIV_WON = 1 ∧ s'.get R.TWN_STAT_STATE = 5 ∧ s'.get R.TWN_STAT_JSRC = 1) ∧
        (s.is R.TWN_STAT_JSRC = true → s.sourceLoses = true → Does c s fun s' =>
          s'.get R.TWN_CNT0_DIV_LOST = min (s.get R.TWN_CNT0_DIV_LOST + 1) (2 ^ R.TWN_CNT0_DIV_LOST.width - 1) ∧
          s'.get R.TWN_STAT_STATE = 1 ∧ s'.get R.TWN_STAT_JSRC = 0) ∧
        (s.is R.TWN_STAT_JSRC = false → s.twn.verdictBy = none → Does c s fun s' =>
          s'.get (R.TWN_CE_DIVRUN n) = x.num % 2 ^ 32 ∧ s'.twn.verdictBy = some (now.tb + 64000, n) ∧
          (st ≠ 2 ∨ n ∈ s.runningUnits → s'.get R.TWN_STAT_STATE = st)))) ∧
    (∀ n x, n < 8 → s.twn.own = [x] → now.tb < x.at_ + 320000 → Does (.checkpointTimeout t n) s fun s' =>
      s'.twn = s.twn ∧ KeepsBut [] s s') ∧
    (∀ n loser, n < 8 → s.is R.TWN_STAT_JSRC = false → st = 2 ∨ st = 3 ∨ st = 4 →
      (loser = s.is R.TWN_STAT_ROLE → Does (.verdict t true q n loser) s fun s' =>
        s'.get R.TWN_STAT_STATE = 1 ∧ s'.get R.TWN_INT_STAT_DIV_LOST = 1 ∧ s'.fsOn 126 = true ∧
        s'.get R.TWN_CNT0_DIV_LOST = min (s.get R.TWN_CNT0_DIV_LOST + 1) (2 ^ R.TWN_CNT0_DIV_LOST.width - 1)) ∧
      (loser ≠ s.is R.TWN_STAT_ROLE → Does (.verdict t true q n loser) s fun s' =>
        s'.get R.TWN_STAT_STATE = 5 ∧ s'.get R.TWN_STAT_JSRC = 1 ∧ s'.get R.TWN_INT_STAT_DIV_WON = 1 ∧ s'.fsOn 127 = true)) ∧
    (∀ x, s.twn.verdictBy = some x →
      (x.1 ≤ now.tb → Does (.verdictTimeout t) s fun s' =>
        s'.get R.TWN_STAT_STATE = 1 ∧ s'.get R.TWN_INT_STAT_DIV_LOST = 1 ∧ s'.twn.verdictBy = none) ∧
      (now.tb < x.1 → Does (.verdictTimeout t) s fun s' => s'.twn = s.twn ∧ KeepsBut [] s s')) ∧
    (let split := now.partnerAlive || !((List.range 12).any fun l => decide (s.get (R.LNE_LN_STAT_STATE l) = 2))
     s.get R.TWN_STAT_LANES = 0 → st = 2 ∨ st = 3 ∨ st = 4 → (split && s.is R.TWN_STAT_ROLE) = false →
       Does (.linkLost t) s fun s' => s'.get R.TWN_STAT_STATE = 5 ∧ s'.get R.TWN_STAT_JSRC = 1 ∧
         s'.get R.TWN_INT_STAT_PARTNER_LOST = 1 ∧ s'.get R.TWN_STAT_PSTATE = 0 ∧ s'.twn.partner = none) ∧
    (let split := now.partnerAlive || !((List.range 12).any fun l => decide (s.get (R.LNE_LN_STAT_STATE l) = 2))
     s.get R.TWN_STAT_LANES = 0 → st = 2 ∨ st = 3 ∨ st = 4 → (split && s.is R.TWN_STAT_ROLE) = true →
       Does (.linkLost t) s fun s' => s'.get R.TWN_STAT_STATE = 1 ∧ s'.get R.TWN_STAT_JSRC = 0 ∧
         s'.get R.TWN_INT_STAT_PARTNER_LOST = 1 ∧ s'.twn.partner = none ∧ s'.twn.rxSeq = none) ∧
    (∀ x, s.twn.heardAt = some x → s.get R.TWN_STAT_LANES ≠ 0 → now.tb < max x s.twn.joiningAt + 800000 →
      Does (.linkLost t) s fun s' => s'.twn = s.twn ∧ s'.get R.TWN_STAT_STATE = st) ∧
    (∀ x, s.twn.lostAt = some x → st = 1 →
      (max x s.twn.joiningAt + 32000000000 ≤ now.tb → Does (.joinWaitExpiry t) s fun s' =>
        s'.get R.TWN_STAT_STATE = 5 ∧ s'.get R.TWN_STAT_JSRC = 1 ∧ s'.fsOn 127 = true) ∧
      (now.tb < max x s.twn.joiningAt + 32000000000 → Does (.joinWaitExpiry t) s fun s' => s'.twn = s.twn ∧ KeepsBut [] s s')) ∧
    (st = 2 ∨ st = 3 ∨ st = 4 → Does (.leave t) s fun s' =>
      s'.get R.TWN_STAT_STATE = 1 ∧ s'.get R.TWN_STAT_JSRC = 0 ∧ s'.twn.delta = true ∧ s'.twn.joiningAt = now.tb) ∧
    (st = 0 ∨ st = 1 ∨ st = 5 → Does (.leave t) s fun s' => s'.twn = s.twn ∧ KeepsBut [] s s') ∧
    (∀ x, s.twn.limitAt = some x →
      (s.is R.TWN_STAT_JSRC = false → st = 2 ∨ st = 3 ∨ st = 4 → x + 16000000 ≤ now.tb → Does (.tbLimitExpiry t) s fun s' =>
        s'.get R.TWN_INT_STAT_TB_LIMIT = 1 ∧ s'.get R.TWN_STAT_STATE = 1) ∧
      (now.tb < x + 16000000 → Does (.tbLimitExpiry t) s fun s' => s'.twn = s.twn ∧ KeepsBut [] s s'))

/-- HEALTH shows the partner and its moves; a join begins or fails with its code; a handover swaps the role at its
instant (R242, R245, R246, R257, R259, R262, R263, R264, R265, R266). Rests on the model's readings and
choices: log entries 67, 69, 70, 146, 147, 148, 175. -/
def Obligations.JoinsHandoversAndHealthFrames : Prop :=
  ∀ (t : Nat) (s : State), s.engs.length = 8 → s.lanes.length = 12 → s.groups.length = 8 → s.is R.TWN_CTL_EN = true →
    ∀ q, s.twn.rxSeq = some q → q < 2 ^ 32 →
    let now := s.at t
    let st := s.get R.TWN_STAT_STATE
    let close := decide ((toS 32 (s.get R.TWN_TBDIFF)).natAbs ≤ 16 * max 2 (s.get R.TWN_TBLIM_TBD_MAX))
    (Does (.healthSend t) s fun s' => s'.get R.TWN_HEALTH_FAULT = b2n s.healthFault ∧
      s'.get R.TWN_HEALTH_SAMPLING = s.healthSampling % 256 ∧
      ∃ o, s'.twn.queue.getLast? = some o ∧ o.due = (now.tb / s.cycleLen + 1) * s.cycleLen ∧
        (match o.msg with
          | .health h => h.state == st && h.role == s.get R.TWN_STAT_ROLE && h.fault == s.healthFault &&
              h.sampling == s.healthSampling && h.heard == s.twn.heard
          | _ => false) = true) ∧
    (∀ h rx, h.state < 8 → h.sampling < 256 →
      (Does (.health t true q h rx) s fun s' => s'.get R.TWN_STAT_PSTATE = h.state ∧
        s'.get R.TWN_HEALTH_PFAULT = b2n h.fault ∧ s'.get R.TWN_HEALTH_PSAMPLING = h.sampling ∧
        s'.twn.partner = some h ∧ s'.twn.heardAt = some now.tb ∧ s'.twn.heard = some (h.sent, rx) ∧
        s'.get R.TWN_TBDIFF = (match h.heard with
          | none => s.get R.TWN_TBDIFF
          | some (t1, t2) => ofS 32 (satS 32 (divRne ((t2 - t1 : Int) + (h.sent - rx)) 2)))) ∧
      (h.role ≠ s.get R.TWN_STAT_ROLE → h.state = 1 → st = 1 → s.is R.TWN_STAT_ROLE = false →
        s.get R.TWN_SHEETS_UNPAIRED = 0 → Does (.health t true q h rx) s fun s' =>
          s'.get R.TWN_STAT_STATE = 5 ∧ s'.get R.TWN_STAT_JSRC = 1) ∧
      (h.role ≠ s.get R.TWN_STAT_ROLE → h.state = 3 → st = 5 → s.get R.TWN_SHEETS_UNPAIRED = 0 →
        Does (.health t true q h rx) s fun s' => s'.get R.TWN_STAT_STATE = 3 ∧ s'.fsOn 127 = false)) ∧
    (s.is R.PWR_STAT_READY = false → Does (.join t) s fun s' => s'.twn = s.twn ∧ KeepsBut [] s s') ∧
    (s.is R.PWR_STAT_READY = true → st = 1 → s.twn.join = none → ∀ h, s.twn.partner = some h → h.state = 3 ∨ h.state = 5 →
      ∀ c, c = Instr.join t ∨ (c = Instr.autojoinStart t ∧ s.is R.TWN_CTL_AUTOJOIN = true ∧ s.twn.divAt = none) →
      (h.role = s.get R.TWN_STAT_ROLE → Does c s fun s' => s'.get R.TWN_JOIN_ERR = 1 ∧ s'.get R.TWN_INT_STAT_JOIN_ERR = 1 ∧
        s'.twn.join = none) ∧
      (h.role ≠ s.get R.TWN_STAT_ROLE → h.digests.headD 0 ≠ s.get (R.MLD_SH_DIGEST 0) → Does c s fun s' =>
        s'.get R.TWN_JOIN_ERR = 2 ∧ s'.get R.TWN_INT_STAT_JOIN_ERR = 1 ∧ s'.twn.join = none) ∧
      (h.role ≠ s.get R.TWN_STAT_ROLE → h.digests.headD 0 = s.get (R.MLD_SH_DIGEST 0) → Does c s fun s' =>
        s'.get R.TWN_JOIN_ERR = 0 ∧ s'.get R.TWN_JOIN_MODE = b2n (!s.twn.delta) ∧
        s'.twn.join = some ⟨if close then 3 else 2, now.tb, if close then some now.tb else none, !s.twn.delta, 0, none⟩ ∧
        s'.get R.TWN_STAT_STATE = 1)) ∧
    (s.is R.TWN_CTL_AUTOJOIN = false → Does (.autojoinStart t) s fun s' => s'.twn = s.twn ∧ KeepsBut [] s s') ∧
    (∀ j, s.twn.join = some j →
      (∀ x, j.timed = some x → x + (if j.full then 6400000000 else 800000000) ≤ now.tb ∨
          s.twn.rounds.any (64 ≤ ·) = true → Does (.joinTimeout t) s fun s' =>
        s'.get R.TWN_JOIN_ERR = 5 ∧ s'.get R.TWN_INT_STAT_JOIN_ERR = 1 ∧ s'.twn.join = none ∧ s'.get R.TWN_STAT_STEER = 0) ∧
      (j.timed = none → Does (.joinTimeout t) s fun s' => s'.twn = s.twn ∧ KeepsBut [] s s') ∧
      (j.step = 2 → j.began + 160000000000 ≤ now.tb → Does (.joinTimeExpiry t) s fun s' =>
        s'.get R.TWN_JOIN_ERR = 3 ∧ s'.get R.TWN_INT_STAT_JOIN_ERR = 1 ∧ s'.twn.join = none) ∧
      (j.step ≠ 2 → Does (.joinTimeExpiry t) s fun s' => s'.twn = s.twn ∧ KeepsBut [] s s') ∧
      (∀ a bs, (0x60000000 ≤ a ∧ a + bs.length ≤ 0x60080000) ∨ (0x70000000 ≤ a ∧ a + bs.length ≤ 0x70200000) →
        Does (.stateFrame t true q true (.memory a bs)) s fun s' => s'.readBytes (s.here a) bs.length = bs ∧
          s'.twn = { s.twn with
            rxSeq := some ((q + 1) % 2 ^ 32), missing := s.twn.missing.take 5461
            got := s.twn.got + 1, bytes := s.twn.bytes + bs.length } ∧
          s'.get R.TWN_JOIN_PROGRESS = min ((s.twn.bytes + bs.length) / 1024) 65535 ∧ KeepsBut [R.TWN_JOIN_PROGRESS] s s' ∧
          ∀ b, b < s.here a ∨ s.here a + bs.length ≤ b → s'.byte b = s.byte b)) ∧
    (let ok := decide (st = 3) && (match s.twn.partner with | some h => decide (h.state = 3) && !h.fault | none => false) &&
       (List.range 8).all fun u => s.paired (u + 1)
     s.is R.TWN_STAT_JSRC = true → ∀ c r, (c = Instr.handover t ∧ r = 1) ∨
         (c = Instr.timeHandover t ∧ r = 3 ∧ s.anyLocked = false ∧ ∃ x, s.twn.pLockedAt = some x ∧ x + 160000000000 ≤ now.tb) →
       (ok = true → Does c s fun s' => s'.get R.TWN_STAT_STATE = 4 ∧ s'.get R.TWN_STAT_HO_REASON = r ∧
         s'.twn.hand = some ((now.tb + 1600000 + 15999) / 16000 * 16000) ∧ s'.twn.swapped = false) ∧
       (ok = false → Does c s fun s' => s'.get R.TWN_INT_STAT_HANDOVER_ERR = 1 ∧ s'.twn = s.twn ∧
         KeepsBut [R.TWN_INT_STAT_HANDOVER_ERR] s s')) ∧
    (∀ h, s.twn.hand = some h → st = 4 →
      (s.twn.swapped = false → h ≤ now.tb → Does (.handoverInstant t) s fun s' =>
        s'.get R.TWN_STAT_JSRC = 1 - s.get R.TWN_STAT_JSRC ∧ s'.twn.swapped = true) ∧
      (now.tb < h → Does (.handoverInstant t) s fun s' => s'.twn = s.twn ∧ KeepsBut [] s s') ∧
      (s.twn.swapped = true → h + 16 * clampN 400 4000 (s.get R.TWN_CFG_PAIR_DLY) ≤ now.tb → Does (.handoverEnd t) s fun s' =>
        s'.get R.TWN_STAT_STATE = 3 ∧ s'.get R.TWN_INT_STAT_HANDOVER_DONE = 1 ∧ s'.twn.hand = none ∧
        s'.get R.TWN_CNT2_HANDOVERS = min (s.get R.TWN_CNT2_HANDOVERS + 1) (2 ^ R.TWN_CNT2_HANDOVERS.width - 1)) ∧
      (s.twn.swapped = false → Does (.handoverEnd t) s fun s' => s'.twn = s.twn ∧ KeepsBut [] s s')) ∧
    (∀ x, s.twn.healthyAt = some x → s.is R.TWN_STAT_ROLE = false ∧ s.is R.TWN_STAT_JSRC = false ∧ st = 3 →
      s.healthFault = false ∧ s.tdState s.inForce = 3 →
      (s.pairedLanes.all fun l => decide (s.get (R.LNE_LN_STAT_STATE l) = 2) && !s.muted l) = true →
      s.is R.TWN_CTL_REVERT = true → x + clampN 10 3600 (s.get R.TWN_HOLDOFF) * 16000000000 ≤ now.tb →
      Does (.revertHoldoffExpiry t) s fun s' => s'.twn.asks = true ∧ s'.get R.TWN_HOLDOFF_LEFT = 0 ∧
        KeepsBut [R.TWN_HOLDOFF_LEFT] s s') ∧
    (s.is R.TWN_CTL_REVERT = false → Does (.revertHoldoffExpiry t) s fun s' => s'.twn.asks = false ∧
      KeepsBut [R.TWN_HOLDOFF_LEFT] s s') ∧
    (∀ x, s.twn.steerAt = some x →
      (s.is R.TWN_STAT_STEER = true → x + 16000000000 ≤ now.tb → Does (.steerReturn t) s fun s' =>
        s'.get R.TWN_STAT_STEER = 0 ∧ s'.get R.TSU_STAT_SLEWING = 1 ∧ s'.twn.steerAt = none ∧
        s'.get R.TSU_RATE = fracReg (fracSat 100000 (s.dom s.inForce).y)) ∧
      (now.tb < x + 16000000000 → Does (.steerReturn t) s fun s' => s'.twn = s.twn ∧ KeepsBut [] s s'))

/-- Inputs filter and pulse-check; a discrepancy or overcurrent faults its pair; a step decides outputs, which go
low, are read back and tested (R277, R278, R279, R281, R282, R283, R284, R285). Rests on the model's readings
and choices: log entries 72, 74, 75, 150, 151, 159. -/
def Obligations.IslandInputsAndOutputsFollowTheSet : Prop :=
  ∀ (t : Nat) (s : State), s.isle.pairs.length = 4 → s.isle.outs.length = 4 → s.isle.sinSince.length = 8 →
    let now := s.at t
    let st := s.get R.WCH_STAT_STATE
    (∀ level, level < 256 → Does (.sinSample t level) s fun s' =>
      let raw := if s.io33 then level else 0
      s'.get R.WCH_IN_RAW = raw ∧
      ∀ c, c < 8 → bit (s'.get R.WCH_IN_FILT) c =
        if bit (s.get R.WCH_IN_RAW) c = bit raw c ∧ 0 < s.pairFilt (c / 2) ∧
            s.isle.sinSince.getD c 0 + s.pairFilt (c / 2) ≤ now.wt then bit raw c
        else bit (s.get R.WCH_IN_FILT) c) ∧
    (s.isle.pset ≠ [] →
      let tpp := 16000000 * s.ps 0xC 2
      let next (d : Nat) := d + ((now.wt - d) / tpp + 1) * tpp
      (s.isle.nextA ≤ now.wt → s.isle.lowA = false → Does (.inputTestPulse t false) s fun s' =>
        s'.isle.pulseA = some now.wt ∧ s'.isle.nextA = next s.isle.nextA ∧ s'.isle.pulseB = s.isle.pulseB ∧
        (∀ x, x < 4 → (s'.islePair x).okA = true) ∧ KeepsBut [] s s') ∧
      (s.isle.nextB ≤ now.wt → s.isle.lowB = false → Does (.inputTestPulse t true) s fun s' =>
        s'.isle.pulseB = some now.wt ∧ s'.isle.nextB = next s.isle.nextB ∧ s'.isle.pulseA = s.isle.pulseA ∧
        (∀ x, x < 4 → (s'.islePair x).okB = true) ∧ KeepsBut [] s s') ∧
      (s.isle.nextA ≤ now.wt → s.isle.lowA = true → Does (.inputTestPulse t false) s fun s' =>
        s'.isle = { s.isle with nextA := next s.isle.nextA } ∧ KeepsBut [] s s')) ∧
    (∀ b, now.wt < (if b then s.isle.nextB else s.isle.nextA) ∨ s.isle.pset = [] → Does (.inputTestPulse t b) s fun s' =>
      s'.isle = s.isle ∧ KeepsBut [] s s') ∧
    (Does (.tpOvercurrent t false true) s fun s' => s'.get R.WCH_FAULT_TPA_FAULT = 1 ∧ s'.isle.overA = true ∧ s'.isle.lowA = true ∧
      ∀ x, x < 4 → s.pairOn x = true → s'.get (pairBit x 2) = 1 ∧ s'.get (pairBit x 0) = 0) ∧
    (∀ b, Does (.tpOvercurrent t b false) s fun s' => KeepsBut [] s s' ∧
      s'.isle = if b then { s.isle with overB := false } else { s.isle with overA := false }) ∧
    (∀ x, x < 4 →
      (∀ t0, (s.islePair x).since = some t0 → (s.islePair x).agreed = false → t0 + s.pairDisc x < now.wt → s.pairOn x = true →
        s.is (pairBit x 2) = false → Does (.discrepancyTimeout t x) s fun s' =>
          s'.get (pairBit x 2) = 1 ∧ s'.get (pairBit x 0) = 0 ∧ s'.get R.WCH_INT_STAT_PAIR_FAULT = 1 ∧
          (s'.islePair x).zero = false) ∧
      ((s.islePair x).since = none → Does (.discrepancyTimeout t x) s fun s' => s'.isle = s.isle ∧ KeepsBut [] s s')) ∧
    (∀ srst,
      (st = 4 → Does (.evaluationStep t srst) s fun s' => s'.isle.wdo = s.isle.wdo ∧ s'.isle.outs = s.isle.outs ∧
        s'.get R.WCH_STAT = s.get R.WCH_STAT ∧ s'.get R.WCH_SO = s.get R.WCH_SO ∧
        (srst = true → s'.get R.WCH_SRST_PRESSED = 1 ∧ s'.isle.lows = 0 ∧
          s'.isle.press = if s.isle.press = 0 then 1 else s.isle.press + s.isle.lows + 1)) ∧
      (st = 1 → Does (.evaluationStep t srst) s fun s' =>
        s'.isle.wdo = !s.isle.wdo ∧ s'.get R.WCH_STAT_WDO = 1 ∧ s'.get R.WCH_STAT_STATE = 1 ∧
        ∀ k, k < 4 → (s.isleOut k).offAt = none →
          (s'.soDemand k = true → s.is (soBit k 0) = true → (s.isleOut k).pulse = none →
            (s'.isleOut k).offAt = some (now.wt + s.soLead k) ∧ s'.get R.WCH_STAT_FS124 = 1) ∧
          (s'.soDemand k = true → (s.isleOut k).dem = false → s'.get R.WCH_INT_STAT_DEMAND = 1) ∧
          (s'.soDemand k = false → s.is (soBit k 0) = false → s.is (soBit k 3) = false → s'.get (soBit k 0) = 1))) ∧
    (∀ k, k < 4 →
      let o := s.isleOut k
      (∀ x, o.offAt = some x →
        (x ≤ now.wt → Does (.safeOutputOff t k) s fun s' => s'.get (soBit k 0) = 0 ∧ (s'.isleOut k).offAt = none ∧
          s'.get (soBit k 3) = (if s.soAuto k && decide (st = 1) && !s.is (soBit k 2) then s.get (soBit k 3) else 1) ∧
          KeepsBut [soBit k 0, soBit k 3] s s') ∧
        (now.wt < x → Does (.safeOutputOff t k) s fun s' => s'.isle = s.isle ∧ KeepsBut [] s s')) ∧
      (∀ sob, (∀ j, j < 4 → j ≠ k → bit sob j = (s.is (soBit j 0) && (s.isleOut j).pulse.isNone)) →
        s.is (soBit k 2) = false → (∀ j, j < 4 → j ≠ k → (s.isleOut j).lowBy = none ∧ (s.isleOut j).highBy = none) →
        (o.cmdAt + 2400000 ≤ now.wt → bit sob k ≠ (s.is (soBit k 0) && o.pulse.isNone) → o.lowBy = none → o.highBy = none →
        (o.miss = 0 → Does (.readbackSample t sob) s fun s' => (s'.isleOut k).miss = 1 ∧
          s'.get (soBit k 1) = b2n (bit sob k) ∧ s'.get (soBit k 2) = 0) ∧
        (1 ≤ o.miss → Does (.readbackSample t sob) s fun s' => s'.get (soBit k 2) = 1 ∧ s'.get (soBit k 0) = 0 ∧
          s'.get R.WCH_INT_STAT_OUT_FAULT = 1 ∧ bit (s'.get R.HLT_REPLACE_REASONS) 8 = true)) ∧
        -- a test whose readback was not low, or not high again, in time
        ((if bit sob k then o.lowBy else o.highBy).any (· ≤ now.wt) = true → Does (.readbackSample t sob) s fun s' =>
          s'.get (soBit k 2) = 1 ∧ s'.get (soBit k 0) = 0 ∧ s'.get R.WCH_INT_STAT_OUT_FAULT = 1 ∧
          (s'.isleOut k).pulse = none ∧ (o.pulse.isSome = true → s'.isle.pulseEnd = now.wt))) ∧
      (st = 1 ∧ s.is (soBit k 0) = true ∧ o.offAt = none → (∀ j, j < 4 → (s.isleOut j).pulse = none) →
        o.testAt ≤ now.wt ∧ s.isle.pulseEnd + 32000000 ≤ now.wt → Does (.outputTestPulse t k) s fun s' =>
          (s'.isleOut k).pulse = some (now.wt + s.soPulse k) ∧ (s'.isleOut k).testAt = now.wt + s.soInt k ∧
          (s'.isleOut k).lowBy = some (now.wt + 2400000) ∧
          bit (s'.get R.WCH_SO_TESTING) k = true ∧ KeepsBut [R.WCH_SO_TESTING] s s') ∧
      (st ≠ 1 ∨ s.is (soBit k 0) = false ∨ now.wt < o.testAt → Does (.outputTestPulse t k) s fun s' =>
        s'.isle = s.isle ∧ KeepsBut [] s s') ∧
      (∀ x, o.pulse = some x →
        (x ≤ now.wt → Does (.outputTestPulseEnd t k) s fun s' => (s'.isleOut k).pulse = none ∧ s'.isle.pulseEnd = now.wt ∧
          bit (s'.get R.WCH_SO_TESTING) k = false ∧ s'.get (soBit k 0) = s.get (soBit k 0) ∧ KeepsBut [R.WCH_SO_TESTING] s s') ∧
        (now.wt < x → Does (.outputTestPulseEnd t k) s fun s' => s'.isle = s.isle ∧ KeepsBut [] s s')))

/-- The self-test, the seal, a reset press and an internal fault move the island; a parameter set is checked and
stored under the seal (R270, R271, R272, R273, R275, R286, R287). Rests on the model's readings and choices:
log entries 35, 73, 76, 152, 153. -/
def Obligations.IslandStatesFollowSealResetAndFaults : Prop :=
  ∀ (t : Nat) (s : State), s.isle.outs.length = 4 → s.isle.pairs.length = 4 → s.isle.conns.length = 8 →
    let now := s.at t
    let st := s.get R.WCH_STAT_STATE
    let i := s.isle
    (∀ ver srst, ver < 65536 → st = 0 → i.tested = false →
      (Does (.islandStartEnd t false ver srst) s fun s' => s'.get R.WCH_STAT_STATE = 4 ∧ bit (s'.get R.WCH_FAULT) 5 = true) ∧
      (i.sealAt + 320000000 ≤ now.wt → Does (.islandStartEnd t true ver srst) s fun s' =>
        s'.get R.WCH_STAT_STATE = (if bit i.sealRaw 2 then 3 else 2) ∧ s'.get R.WCH_ID_FWVER = ver ∧
        s'.get R.WCH_STAT_SEAL = i.sealRaw % 2 ^ R.WCH_STAT_SEAL.width ∧
        s'.get R.WCH_STAT_WDO = 1 ∧ (∀ k, k < 4 → s'.get (soBit k 3) = 1) ∧
        s'.get R.WCH_SRST_STUCK = if srst then 1 else s.get R.WCH_SRST_STUCK) ∧
      (now.wt < i.sealAt + 320000000 → Does (.islandStartEnd t true ver srst) s fun s' =>
        s'.get R.WCH_STAT_STATE = 0 ∧ s'.get R.WCH_ID_FWVER = ver ∧ s'.isle.tested = true)) ∧
    (∀ v, v < 256 →
      (i.sealRaw ≠ v → Does (.sealSample t v) s fun s' => s'.isle = { i with sealRaw := v, sealAt := now.wt } ∧
        KeepsBut [] s s') ∧
      (i.sealRaw = v → i.sealAt + 320000000 ≤ now.wt → s.get R.WCH_STAT_SEAL ≠ v →
        (st = 2 → Does (.sealSample t v) s fun s' => s'.get R.WCH_STAT_SEAL = v ∧
          s'.get R.WCH_STAT_STATE = if bit v 2 then 3 else 2) ∧
        (st = 1 → v % 8 ≠ s.get R.WCH_STAT_SEAL % 8 ∨ 8 ≤ v → Does (.sealSample t v) s fun s' => s'.get R.WCH_STAT_SEAL = v ∧
          s'.get R.WCH_STAT_STATE = (if bit v 2 then 3 else 2) ∧ ∀ k, k < 4 → s'.get (soBit k 3) = 1) ∧
        (st = 3 → bit v 2 = false → Does (.sealSample t v) s fun s' => s'.get R.WCH_STAT_SEAL = v ∧ s'.get R.WCH_STAT_STATE = 2) ∧
        (st = 4 → Does (.sealSample t v) s fun s' => s'.get R.WCH_STAT_SEAL = v ∧ s'.get R.WCH_STAT_STATE = 4 ∧ s'.isle = i))) ∧
    (i.press ≠ 0 → 10 ≤ i.lows → s.is R.WCH_SRST_STUCK = false →
      (i.press < 100 ∨ 3000 < i.press ∨ st = 3 ∨ st = 4 → Does (.resetAccept t) s fun s' =>
        s'.get R.WCH_SRST_REJECTED = min (s.get R.WCH_SRST_REJECTED + 1) (2 ^ R.WCH_SRST_REJECTED.width - 1) ∧
        s'.get R.WCH_INT_STAT_SRST_REJ = 1 ∧ s'.isle = { i with press := 0, lows := 0 } ∧ s'.get R.WCH_STAT_STATE = st) ∧
      (100 ≤ i.press → i.press ≤ 3000 → st ≠ 3 → st ≠ 4 → Does (.resetAccept t) s fun s' =>
        s'.get R.WCH_SRST_ACCEPTED = (s.get R.WCH_SRST_ACCEPTED + 1) % 2 ^ R.WCH_SRST_ACCEPTED.width ∧
        s'.get R.WCH_INT_STAT_SRST_ACC = 1 ∧ s'.get R.WCH_SREQ = 0 ∧ s'.isle.press = 0 ∧
        s'.get R.WCH_STAT_STATE = if st ≠ 2 then st else if (now.wt < max i.sealAt i.sealNew + 320000000 ∨ s.is R.WCH_FAULT_SEAL_ERR = true ∨ i.pset = [])
          then 2 else 1)) ∧
    (i.press = 0 ∨ i.lows < 10 → Does (.resetAccept t) s fun s' => s'.isle = i ∧ KeepsBut [] s s') ∧
    (3001 ≤ i.press → s.is R.WCH_SRST_STUCK = false → Does (.srstStuck t) s fun s' => s'.get R.WCH_SRST_STUCK = 1 ∧
      s'.get R.WCH_SRST_REJECTED = min (s.get R.WCH_SRST_REJECTED + 1) (2 ^ R.WCH_SRST_REJECTED.width - 1) ∧
      s'.get R.WCH_INT_STAT_SRST_REJ = 1) ∧
    (i.press < 3001 → Does (.srstStuck t) s fun s' => s'.isle = i ∧ KeepsBut [] s s') ∧
    (∀ b, b < 6 → Does (.internalFault t b) s fun s' => s'.get R.WCH_STAT_STATE = 4 ∧ bit (s'.get R.WCH_FAULT) b = true ∧
      (∀ k, k < 4 → s'.get (soBit k 0) = 0) ∧ s'.get R.WCH_STAT_WDO = 0 ∧ s'.isle.wdo = false ∧
      s'.get R.WCH_STAT_FS124 = 1 ∧ s'.fsOn 124 = true ∧ bit (s'.get R.HLT_REPLACE_REASONS) 8 = true ∧
      (b = 1 → bit (s'.get R.PWR_RAIL) 2 = false)) ∧
    (st ≠ 3 ∨ s.is R.WCH_PSSTAT_BUSY = true → ∀ c, c = Instr.check t ∨ c = Instr.store t → Does c s fun s' =>
      s'.isle = i ∧ KeepsBut [] s s') ∧
    (st = 3 → s.is R.WCH_PSSTAT_BUSY = false →
      (Does (.check t) s fun s' => s'.get R.WCH_PSCMD = 1 ∧ s'.get R.WCH_PSSTAT_BUSY = 1 ∧ s'.get R.WCH_PSSTAT_RESULT = 0 ∧
        KeepsBut [R.WCH_PSCMD, R.WCH_PSSTAT_BUSY, R.WCH_PSSTAT_RESULT] s s') ∧
      (i.checked = false → Does (.store t) s fun s' => s'.get R.WCH_PSSTAT_RESULT = 7 ∧ s'.get R.WCH_INT_STAT_PS_ERR = 1 ∧
        KeepsBut [R.WCH_PSSTAT_RESULT, R.WCH_INT_STAT_PS_ERR] s s') ∧
      (i.checked = true → s.get R.WCH_PSCRC ≠ s.get (R.WCH_PSWIN 255) → Does (.store t) s fun s' =>
        s'.get R.WCH_PSSTAT_RESULT = 5 ∧ s'.get R.WCH_INT_STAT_PS_ERR = 1) ∧
      (i.checked = true → s.get R.WCH_PSCRC = s.get (R.WCH_PSWIN 255) → Does (.store t) s fun s' =>
        s'.get R.WCH_PSCMD = 2 ∧ s'.get R.WCH_PSSTAT_BUSY = 1 ∧ s'.get R.WCH_PSSTAT_RESULT = 0)) ∧
    (s.is R.WCH_PSSTAT_BUSY = true →
      (s.get R.WCH_PSCMD = 1 → ∀ w, Does (.psOperationEnd t w) s fun s' =>
        s'.get R.WCH_PSSTAT_RESULT = (psCheck s.psWindow).1 ∧ s'.isle.checked = decide ((psCheck s.psWindow).1 = 1) ∧
        s'.get R.WCH_PSSTAT_ERROFF = (psCheck s.psWindow).2 % 2 ^ R.WCH_PSSTAT_ERROFF.width ∧
        s'.get R.WCH_PSSTAT_BUSY = 0 ∧ ∀ a, s'.byte a = s.byte a) ∧
      (s.get R.WCH_PSCMD = 2 → Does (.psOperationEnd t true) s fun s' =>
        let a := 0x92600000 + 0x10000 * (leAt s.psWindow 6 2 % 4)
        s'.readBytes a 1024 = s.psWindow ∧ s'.get R.WCH_PSSTAT_RESULT = 1 ∧ s'.get R.WCH_INT_STAT_PS_DONE = 1 ∧
        s'.get R.WCH_PSSTAT_BUSY = 0 ∧ ∀ b, b < a ∨ a + 1024 ≤ b → s'.byte b = s.byte b) ∧
      (s.get R.WCH_PSCMD = 2 → Does (.psOperationEnd t false) s fun s' =>
        s'.get R.WCH_PSSTAT_RESULT = 6 ∧ s'.get R.WCH_INT_STAT_PS_ERR = 1 ∧ s'.get R.WCH_PSSTAT_BUSY = 0)) ∧
    (∀ m, Does (.safetyStopRequest t m) s fun s' => s'.get R.WCH_SREQ = (s.get R.WCH_SREQ ||| m % 16) % 2 ^ R.WCH_SREQ.width ∧
      s'.isle = i ∧ KeepsBut [R.WCH_SREQ] s s')

/-- A native frame waits for its other copy, a NAY2400 frame counts alone; bad ones are counted by kind; silence
expires a connection (R288, R289, R290, R291, R292, R293). Rests on the model's readings and choices: log
entries 137, 154. -/
def Obligations.SafetyMessagesAreAcceptedByTheirRules : Prop :=
  ∀ (t : Nat) (s : State), s.isle.conns.length = 8 → s.isle.txs.length = 8 → s.net.egress.length = 5 →
    let now := s.at t
    let i := s.isle
    (∀ c, c = Instr.nativeSafetyFrame t ∨ c = Instr.nay2400SafetyFrame t → i.queue = [] → Does c s fun s' =>
      s'.isle = i ∧ KeepsBut [] s s') ∧
    (∀ f rest, i.queue = f :: rest →
      let body := f.body
      let left (s' : State) := s'.isle.queue = rest
      let taken (s' : State) := s'.isle = { i with queue := rest }
      (∀ c, (c = Instr.nativeSafetyFrame t ∧ f.native = false) ∨ (c = Instr.nay2400SafetyFrame t ∧ f.native = true) →
        Does c s fun s' => s'.isle = i ∧ KeepsBut [] s s') ∧
      (∀ c, (c = Instr.nativeSafetyFrame t ∧ f.native = true ∧ (body.length < 28 ∨ beAt body 0 1 ≠ 1 ∨ beAt body 1 1 ≠ 1 ∨
            s.connFor 1 (beAt body 2 4) f.sa = none)) ∨
          (c = Instr.nay2400SafetyFrame t ∧ f.native = false ∧ (body.length < 19 ∨ s.connFor 2 (beAt body 0 4) f.sa = none)) →
        Does c s fun s' => taken s' ∧ KeepsBut [R.WCH_STAT_DISCARD] s s' ∧
          s'.get R.WCH_STAT_DISCARD = min (s.get R.WCH_STAT_DISCARD + 1) (2 ^ R.WCH_STAT_DISCARD.width - 1)) ∧
      (∀ c, s.connFor 1 (beAt body 2 4) f.sa = some c → c < 8 → f.native = true → 28 ≤ body.length →
        beAt body 0 1 = 1 ∧ beAt body 1 1 = 1 →
        let x := s.isleConn c
        let q := beAt body 6 2
        let lan := f.port / 2
        let d := (q + 65536 - s.get (R.WCH_RX_STAT_SEQ c)) % 65536
        (crc32c (body.take 24) ≠ beAt body 24 4 → Does (.nativeSafetyFrame t) s fun s' =>
          s'.get (R.WCH_RX_CNT1_CRCERR c) = min (s.get (R.WCH_RX_CNT1_CRCERR c) + 1) (2 ^ (R.WCH_RX_CNT1_CRCERR c).width - 1) ∧
          taken s' ∧ KeepsBut [R.WCH_RX_CNT1_CRCERR c] s s') ∧
        (crc32c (body.take 24) = beAt body 24 4 →
          (x.pend = none → x.last = none ∨ (1 ≤ d ∧ d ≤ 32767) → Does (.nativeSafetyFrame t) s fun s' =>
            s'.isleConn c = { x with pend := some (q, lan, body.take 28, now.wt) } ∧ left s' ∧ KeepsBut [] s s') ∧
          (x.pend = none → x.last ≠ none → d = 0 ∨ 32767 < d → Does (.nativeSafetyFrame t) s fun s' =>
            let r := if x.acc.contains q then R.WCH_RX_CNT1_LATE c else R.WCH_RX_CNT1_SEQERR c
            s'.get r = min (s.get r + 1) (2 ^ r.width - 1) ∧ taken s' ∧ KeepsBut [r] s s') ∧
          (∀ y, x.pend = some y → y.1 = q → y.2.1 ≠ lan → now.wt < y.2.2.2 + 32000000 →
            (y.2.2.1 = body.take 28 → Does (.nativeSafetyFrame t) s fun s' =>
              s'.get (R.WCH_RX_STAT_SEQ c) = q ∧ s'.get (R.WCH_RX_DATA c) = leAt body 8 4 % 2 ^ 32 ∧ left s' ∧
              s'.get (R.WCH_RX_CNT0_ACCEPTED c) = (s.get (R.WCH_RX_CNT0_ACCEPTED c) + 1) % 2 ^ (R.WCH_RX_CNT0_ACCEPTED c).width ∧
              s'.get (R.WCH_RX_STAT_EXPIRED c) = 0 ∧ (s'.isleConn c).last = some now.wt ∧ (s'.isleConn c).pend = none) ∧
            (y.2.2.1 ≠ body.take 28 → Does (.nativeSafetyFrame t) s fun s' =>
              s'.get (R.WCH_RX_STAT_FAULT c) = 1 ∧ s'.get R.WCH_INT_STAT_CONN_FAULT = 1 ∧ s'.get (R.WCH_RX_STAT_DEMAND c) =
                b2n (decide (s.get (R.WCH_RX_STAT_KIND c) ≠ 0)) ∧ (s'.isleConn c).pend = none ∧ left s')))) ∧
      (∀ c, s.connFor 2 (beAt body 0 4) f.sa = some c → c < 8 → f.native = false → 19 ≤ body.length →
        f.port / 2 = s.ps (0x70 + 32 * c + 1) 1 →
        let x := s.isleConn c
        let q := beAt body 4 2
        let d := (q + 65536 - s.get (R.WCH_RX_STAT_SEQ c)) % 65536
        (crc24 (body.take 16) ≠ beAt body 16 3 → Does (.nay2400SafetyFrame t) s fun s' =>
          s'.get (R.WCH_RX_CNT1_CRCERR c) = min (s.get (R.WCH_RX_CNT1_CRCERR c) + 1) (2 ^ (R.WCH_RX_CNT1_CRCERR c).width - 1) ∧
          taken s' ∧ KeepsBut [R.WCH_RX_CNT1_CRCERR c] s s') ∧
        (crc24 (body.take 16) = beAt body 16 3 → beAt body 6 2 = s.ps (0x70 + 32 * c + 8) 2 →
          x.last = none ∨ (1 ≤ d ∧ d ≤ 8) → Does (.nay2400SafetyFrame t) s fun s' =>
            s'.get (R.WCH_RX_STAT_SEQ c) = q ∧ s'.get (R.WCH_RX_DATA c) = leAt body 8 4 % 2 ^ 32 ∧ left s' ∧
            s'.get (R.WCH_RX_CNT0_ACCEPTED c) = (s.get (R.WCH_RX_CNT0_ACCEPTED c) + 1) % 2 ^ (R.WCH_RX_CNT0_ACCEPTED c).width ∧
            (s'.isleConn c).last = some now.wt))) ∧
    (∀ c, c < 8 →
      let x := s.isleConn c
      (∀ y, x.pend = some y →
        (y.2.2.2 + 32000000 ≤ now.wt → Does (.safetyCopyTimeout t c) s fun s' =>
          s'.get (R.WCH_RX_STAT_SEQ c) = y.1 % 65536 ∧ (s'.isleConn c).pend = none ∧ (s'.isleConn c).last = some now.wt ∧
          s'.get (R.WCH_RX_CNT0_SINGLE c) = min (s.get (R.WCH_RX_CNT0_SINGLE c) + 1) (2 ^ (R.WCH_RX_CNT0_SINGLE c).width - 1) ∧
          s'.get R.WCH_INT_STAT_SINGLE = 1) ∧
        (now.wt < y.2.2.2 + 32000000 → Does (.safetyCopyTimeout t c) s fun s' => s'.isle = i ∧ KeepsBut [] s s')) ∧
      (∀ u, x.last = some u → s.get (R.WCH_RX_STAT_KIND c) ≠ 0 →
        (u + 16000000 * s.ps (0x70 + 32 * c + 8) 2 ≤ now.wt → Does (.connectionWatchdogExpiry t c) s fun s' =>
          s'.get (R.WCH_RX_STAT_EXPIRED c) = 1 ∧ s'.get R.WCH_INT_STAT_WDT_EXP = 1 ∧ s'.get (R.WCH_RX_STAT_DEMAND c) = 1 ∧
          (s'.isleConn c).last = none ∧
          KeepsBut [R.WCH_RX_STAT_EXPIRED c, R.WCH_INT_STAT_WDT_EXP, R.WCH_RX_STAT_DEMAND c] s s') ∧
        (now.wt < u + 16000000 * s.ps (0x70 + 32 * c + 8) 2 → Does (.connectionWatchdogExpiry t c) s fun s' =>
          s'.isle = i ∧ KeepsBut [] s s')) ∧
      (let old := s.isle.txs.getD c (0, [])
       (s.get (R.WCH_TX_STAT_KIND c) = 0 ∨ (now.wt < old.1 ∧ s.txData = old.2) → Does (.safetyFrameSend t c) s fun s' =>
          s'.isle = i ∧ s'.net = s.net ∧ KeepsBut [] s s') ∧
       (s.get (R.WCH_TX_STAT_KIND c) = 1 ∨ s.get (R.WCH_TX_STAT_KIND c) = 2 → old.1 ≤ now.wt ∨ s.txData ≠ old.2 →
        Does (.safetyFrameSend t c) s fun s' =>
          s'.get (R.WCH_TX_STAT_SEQ c) = (s.get (R.WCH_TX_STAT_SEQ c) + 1) % 65536 ∧
          s'.get (R.WCH_TX_CNT c) = (s.get (R.WCH_TX_CNT c) + 1) % 2 ^ (R.WCH_TX_CNT c).width ∧
          s'.isle.txs.getD c (0, []) = (now.wt + 16000000 * s.ps (0x170 + 32 * c + 8) 2, s.txData) ∧
          (s.get (R.WCH_TX_STAT_KIND c) = 1 → ∀ p, p < 4 → s.portOn p = true → s.linked p = true → 64 ≤ s.txRoom p →
            (s'.egress p).length = (s.egress p).length + 1))))

/-- RELEASE, RELEASE_DONE, CLAIM, GRANT and REVOKE change a main bank's owner and guests as Table 15-1's owner
rules say (R296, R297). Rests on the model's readings and choices: log entry 177. -/
def Obligations.BankCommandsMoveOwnership : Prop :=
  ∀ (t b who : Nat) (s : State), b < 96 →
    (s.is R.BNK_STAT_BUSY = false →
      (who < 16 → who ≠ 0 → s.get (R.BNK_BK_OWN_OWNER b) = who → s.is (R.BNK_BK_OWN_TRACE b) = false →
        Does (.release t b who) s fun s' =>
          s'.get (R.BNK_BK_OWN_RELEASING b) = 1 ∧ s'.get R.BNK_STAT_BUSY = 1 ∧ s'.get (R.BNK_BK_OWN_G_CORES b) = 0 ∧
          s'.get (R.BNK_BK_OWN_G_GLEAN b) = 0 ∧ s'.get (R.BNK_BK_OWN_OWNER b) = who ∧
          KeepsBut [R.BNK_BK_OWN_RELEASING b, R.BNK_BK_OWN_G_CORES b, R.BNK_BK_OWN_G_GLEAN b, R.BNK_STAT_BUSY,
            R.BNK_STAT_ERR] s s') ∧
      (1 ≤ who → who ≤ 13 → s.get (R.BNK_BK_OWN_OWNER b) = 0 → Does (.claim t b who) s fun s' =>
        s'.get (R.BNK_BK_OWN_OWNER b) = who ∧ s'.get R.BNK_INT_STAT_CMD_DONE = 1 ∧
        KeepsBut [R.BNK_BK_OWN_OWNER b, R.BNK_STAT_ERR, R.BNK_INT_STAT_CMD_DONE] s s') ∧
      (s.get (R.BNK_BK_OWN_OWNER b) ≠ 1 →
        (Does (.grant t b 1) s fun s' => s'.get (R.BNK_BK_OWN_G_CORES b) = 1 ∧
          KeepsBut [R.BNK_BK_OWN_G_CORES b, R.BNK_STAT_ERR, R.BNK_INT_STAT_CMD_DONE] s s')) ∧
      (s.get (R.BNK_BK_OWN_OWNER b) ≠ 10 →
        (Does (.grant t b 10) s fun s' => s'.get (R.BNK_BK_OWN_G_GLEAN b) = 1 ∧
          KeepsBut [R.BNK_BK_OWN_G_GLEAN b, R.BNK_STAT_ERR, R.BNK_INT_STAT_CMD_DONE] s s')) ∧
      (Does (.revoke t b 1) s fun s' => s'.get (R.BNK_BK_OWN_G_CORES b) = 0 ∧
        KeepsBut [R.BNK_BK_OWN_G_CORES b, R.BNK_STAT_ERR, R.BNK_INT_STAT_CMD_DONE] s s') ∧
      (Does (.revoke t b 10) s fun s' => s'.get (R.BNK_BK_OWN_G_GLEAN b) = 0 ∧
        KeepsBut [R.BNK_BK_OWN_G_GLEAN b, R.BNK_STAT_ERR, R.BNK_INT_STAT_CMD_DONE] s s')) ∧
    (s.is (R.BNK_BK_OWN_RELEASING b) = true → (∀ k, k < b → s.is (R.BNK_BK_OWN_RELEASING k) = false) →
      Does (.releaseDone t) s fun s' =>
        s'.get (R.BNK_BK_OWN_OWNER b) = 0 ∧ s'.get (R.BNK_BK_OWN_RELEASING b) = 0 ∧ s'.get R.BNK_STAT_BUSY = 0 ∧
        s'.get R.BNK_INT_STAT_CMD_DONE = 1 ∧
        KeepsBut [R.BNK_BK_OWN_RELEASING b, R.BNK_BK_OWN_OWNER b, R.BNK_STAT_BUSY, R.BNK_STAT_ERR,
          R.BNK_INT_STAT_CMD_DONE] s s' ∧
        (∀ r ∈ s'.mst.l2, mainBank r.addr ≠ some b) ∧
        (∀ a, (∀ r ∈ s.mst.l2, a < r.addr ∨ r.addr + r.bytes.length ≤ a) → s'.byte a = s.byte a)) ∧
    (s.is R.BNK_STAT_BUSY = true → ∀ c ∈ [Instr.release t b who, .claim t b who, .grant t b who, .revoke t b who],
      Does c s fun s' => s'.get R.BNK_STAT_ERR = 6 ∧ s'.get R.BNK_INT_STAT_CMD_ERR = 1 ∧
        KeepsBut [R.BNK_STAT_ERR, R.BNK_INT_STAT_CMD_ERR] s s')

/-- REPAIR maps a free spare; a Sweeper step copies a piece of a waiting repair, or visits the next block and acts
on what its march and its rows show (R304, R306, R307, R308). Rests on the model's readings and choices: log
entries 36, 78, 179. -/
def Obligations.RepairsAndTheSweeper : Prop :=
  ∀ (t b seg : Nat) (s : State),
    (b < 112 → seg < (if b < 96 then 128 else 32) → s.is R.BNK_STAT_BUSY = false →
      (∀ k, s.freeSpare b = some k → Does (.repair t b seg) s fun s' =>
        s'.get (spareF b (8 * k) 7) = seg ∧ s'.get (spareF b 22 1) = 1 ∧
        s'.get (spareF b 16 6) = ((s.mst.repairs.find? (·.bank = b)).elim 0 (·.piece)) % 64 ∧
        s'.mst.repairs = s.mst.repairs ++ [⟨b, seg, k, 0, 64⟩] ∧ s'.get R.BNK_INT_STAT_CMD_DONE = 1 ∧
        KeepsBut [spareF b (8 * k) 7, spareF b 22 1, spareF b 16 6, R.BNK_STAT_ERR, R.BNK_INT_STAT_CMD_DONE] s s') ∧
      (s.freeSpare b = none → Does (.repair t b seg) s fun s' =>
        s'.get R.BNK_STAT_ERR = 5 ∧ s'.mst = s.mst ∧ KeepsBut [R.BNK_STAT_ERR, R.BNK_INT_STAT_CMD_ERR] s s')) ∧
    (∀ errs fail, s.is R.SWP_CTL_EN = false → Does (.sweeperStep t errs fail) s fun s' =>
      s'.mst = s.mst ∧ s'.rows = s.rows ∧ KeepsBut [] s s') ∧
    (∀ errs fail r rest, s.is R.SWP_CTL_EN = true → s.mst.repairs = r :: rest → r.bank < 112 → r.spare < 2 → r.piece < 64 →
      let p := (r.piece + 1) % 64
      (r.left ≠ 1 → Does (.sweeperStep t errs fail) s fun s' =>
        s'.mst.repairs = { r with piece := p, left := r.left - 1 } :: rest ∧ s'.get (spareF r.bank 16 6) = p ∧
        KeepsBut [spareF r.bank 16 6] s s' ∧ ∀ a, s'.byte a = s.byte a) ∧
      (r.left = 1 → Does (.sweeperStep t errs fail) s fun s' =>
        s'.mst.repairs = rest ∧ s'.get R.SWP_INT_STAT_REPAIR_DONE = 1 ∧ s'.get (spareF r.bank (8 * r.spare + 7) 1) = 1 ∧
        s'.get (spareF r.bank 22 1) = b2n (rest.any (·.bank = r.bank)) ∧
        (rest.any (·.bank = r.bank) = false → s'.get (spareF r.bank 16 6) = p) ∧
        KeepsBut [spareF r.bank (8 * r.spare + 7) 1, spareF r.bank 16 6, spareF r.bank 22 1, R.SWP_INT_STAT_REPAIR_DONE] s s' ∧
        ∀ a, s'.byte a = s.byte a)) ∧
    (∀ errs fail, s.is R.SWP_CTL_EN = true → s.mst.repairs = [] →
      let i := s.get R.SWP_STAT_S
      let k := s.get R.SWP_STAT_BANK
      let at_ := bankAt k + 64 * i
      let last := if s.is R.SWP_CTL_XB && i < 2048 then 111 else 95
      let here (r : RowErr) : Bool := r.addr / 64 = at_ / 64
      let rows := ((errs.filter here).foldl State.noteRow s).rows
      let scrub := rows.any fun r => here r && !r.two
      (fail = true → k < 112) → Does (.sweeperStep t errs fail) s fun s' =>
        s'.get R.SWP_STAT_BANK = (if k < last then k + 1 else 0) ∧
        s'.get R.SWP_STAT_S = (if k < last then i else if i < 8191 then i + 1 else 0) ∧
        (¬ k < last → ¬ i < 8191 → s'.get R.SWP_PASS = (s.get R.SWP_PASS + 1) % 2 ^ 32 ∧
          s'.get R.SWP_INT_STAT_PASS_DONE = 1) ∧
        s'.get R.SWP_SCRUB = (if scrub then min (s.get R.SWP_SCRUB + 1) (2 ^ 32 - 1) else s.get R.SWP_SCRUB) ∧
        (rows.any (fun r => here r && r.two) = true → s'.get R.SWP_UEADDR = at_ % 2 ^ 32 ∧ s'.get R.SWP_INT_STAT_UE_FOUND = 1) ∧
        s'.rows = rows.filter (fun r => !here r || r.two) ∧ (∀ a, s'.byte a = s.byte a) ∧
        (fail = false → s'.mst = s.mst ∧ KeepsBut [R.SWP_STAT_S, R.SWP_STAT_BANK, R.SWP_SCRUB, R.SWP_UEADDR,
          R.SWP_INT_STAT_UE_FOUND, R.SWP_PASS, R.SWP_INT_STAT_PASS_DONE] s s') ∧
        (fail = true → s'.get R.SWP_FAIL = min (s.get R.SWP_FAIL + 1) (2 ^ R.SWP_FAIL.width - 1) ∧
          s'.get R.SWP_FAILADDR = at_ % 2 ^ 32 ∧ s'.get R.SWP_INT_STAT_FAIL = 1 ∧
          (∀ j, s.is R.SWP_CTL_AUTOREP = true → s.freeSpare k = some j →
            s'.mst.repairs = [⟨k, i / 64, j, i % 64, 64⟩] ∧ s'.get (spareF k (8 * j) 7) = i / 64 ∧
            s'.get (spareF k 16 6) = i % 64 ∧ s'.get (spareF k 22 1) = 1) ∧
          (s.is R.SWP_CTL_AUTOREP = false ∨ s.freeSpare k = none → s'.mst = s.mst ∧
            s'.get R.SWP_INT_STAT_NO_SPARE = 1 ∧ bit (s'.get R.HLT_REPLACE_REASONS) 4 = true)))

/-- A bank serves its owner and guests and logs any other; rows in error count or fail; writes at both ports of a
row collide; local memory serves its engine (R77, R97, R296, R298, R299, R300, R301, R302, R303). Rests on the
model's readings and choices: log entries 13, 77, 155, 156, 177, 178, 179. -/
def Obligations.BankAccessServesOnlyTheOwner : Prop :=
  ∀ (t : Nat) (a : Access) (s : State),
    let m := (s.at t).mailProgress
    let whole (b : Access) : Prop := b.size = 8 ∧ b.addr % 8 = 0
    let sized (b : Access) : Prop := b.size ∈ [1, 2, 4, 8] ∧ b.addr % b.size = 0
    let gl (b : Access) : Bool := decide (4 ≤ b.who ∧ b.who < 36) && decide (s.gleanState (b.who - 4) = 1)
    let halts (b : Access) : List RF := let c := b.who - 4
      if gl b then [R.GLN_GC_STAT_STATE c, R.GLN_GC_STAT_CAUSE c, R.GLN_GC_FADDR c, R.GLN_RUN, R.GLN_HALTED, R.GLN_INT_HALT] else []
    let halted (b : Access) (cause : Nat) (s' : State) : Prop := gl b = true →
      s'.gleanState (b.who - 4) = 2 ∧ s'.get (R.GLN_GC_STAT_CAUSE (b.who - 4)) = cause ∧
      s'.get (R.GLN_GC_FADDR (b.who - 4)) = b.addr % 2 ^ 32
    let ce (s' : State) : Prop := s'.get R.BNK_ECC_CE = min (s.get R.BNK_ECC_CE + 1) (2 ^ 32 - 1) ∧
      s'.get R.BNK_ECC_CEADDR = a.addr % 2 ^ 32 ∧ s'.get R.BNK_INT_STAT_ECC_CE = 1
    let ue (s' : State) : Prop := s'.get R.BNK_ECC_UE = min (s.get R.BNK_ECC_UE + 1) (2 ^ 32 - 1) ∧
      s'.get R.BNK_ECC_UEADDR = a.addr % 2 ^ 32 ∧ s'.get R.BNK_INT_STAT_ECC_UE = 1 ∧ bit (s'.get R.HLT_REPLACE_REASONS) 5 = true
    let same (s' : State) : Prop := ∀ x, s'.byte x = m.byte x
    let holds (s' : State) (b : Access) : Prop := ∀ i, i < b.size → s'.byte (b.addr + i) = BitVec.ofNat 8 (b.value >>> (8 * i))
    let data : Nat := ofLe ((List.range a.size).map fun i => m.byte (a.addr + i))
    (∀ b, mainBank a.addr = some b →
      (s.bankAllows b (s.whoCode a.who) = false → ∀ ecc, Does (.bankAccess t a ecc []) s fun s' =>
        s'.resp.err = true ∧ s'.get R.BNK_VIOL_ADDR = a.addr % 2 ^ 32 ∧ s'.get R.BNK_VIOL_INFO_WHO = s.whoCode a.who % 16 ∧
        s'.get R.BNK_VIOL_INFO_WRITE = b2n a.write ∧
        s'.get R.BNK_VIOL_INFO_COUNT = min (s.get R.BNK_VIOL_INFO_COUNT + 1) (2 ^ 16 - 1) ∧
        s'.get R.BNK_INT_STAT_VIOL = 1 ∧ halted a 2 s' ∧
        KeepsBut (halts a ++ [R.BNK_VIOL_ADDR, R.BNK_VIOL_INFO_WHO, R.BNK_VIOL_INFO_WRITE, R.BNK_VIOL_INFO_COUNT,
          R.BNK_INT_STAT_VIOL]) s s' ∧ same s') ∧
      (s.bankAllows b (s.whoCode a.who) = true → sized a → s.cached a = false → (∀ r ∈ s.mst.l2, r.addr / 8 ≠ a.addr / 8) →
        (∀ ecc, a.write = true → a.size = 8 ∨ (ecc = 0 ∧ m.rowState a.addr = 0) → Does (.bankAccess t a ecc []) s fun s' =>
          s'.resp = {} ∧ KeepsBut [] s s' ∧ holds s' a ∧ s'.rowState a.addr = 0 ∧
          ∀ x, x < a.addr ∨ a.addr + a.size ≤ x → s'.byte x = m.byte x) ∧
        (∀ ecc, a.write = false →
          (max ecc (m.rowState a.addr) = 0 → Does (.bankAccess t a ecc []) s fun s' =>
            s'.resp = { data := data } ∧ KeepsBut [] s s' ∧ same s') ∧
          (max ecc (m.rowState a.addr) = 1 → Does (.bankAccess t a ecc []) s fun s' =>
            s'.resp = { data := data } ∧ ce s' ∧ 1 ≤ s'.rowState a.addr ∧ same s' ∧
            KeepsBut [R.BNK_ECC_CE, R.BNK_ECC_CEADDR, R.BNK_INT_STAT_ECC_CE] s s') ∧
          (max ecc (m.rowState a.addr) = 2 → Does (.bankAccess t a ecc []) s fun s' =>
            s'.resp = { err := true } ∧ ue s' ∧ s'.rowState a.addr = 2 ∧ halted a 4 s' ∧ same s'))) ∧
      (s.bankAllows b (s.whoCode a.who) = true → sized a → s.cached a = true → a.write = true → a.size = 8 → s.mst.l2 = [] →
        ∀ ecc, Does (.bankAccess t a ecc []) s fun s' =>
          s'.resp = {} ∧ s'.mst.l2 = [⟨a.addr, true, leBytes 8 a.value⟩] ∧ same s' ∧ KeepsBut [] s s') ∧
      (∀ o : Access, mainBank o.addr = some b → s.bankAllows b (s.whoCode a.who) = true → s.bankAllows b (s.whoCode o.who) = true →
        sized a → sized o → a.write = true → o.write = true → s.turn a ≠ s.turn o → s.cached a = false → s.cached o = false →
        s.mst.l2 = [] → s.rows = [] →
        let first := if s.turn a < s.turn o then a else o
        let last := if s.turn a < s.turn o then o else a
        Does (.bankAccess t a 0 [o]) s fun s' =>
          s'.resp = {} ∧ KeepsBut [] s s' ∧ holds s' last ∧
          (∀ i, i < first.size → first.addr + i < last.addr ∨ last.addr + last.size ≤ first.addr + i →
            s'.byte (first.addr + i) = BitVec.ofNat 8 (first.value >>> (8 * i))) ∧
          ∀ x, x < first.addr ∨ first.addr + first.size ≤ x → x < last.addr ∨ last.addr + last.size ≤ x →
            s'.byte x = m.byte x)) ∧
    (∀ x o, exchBank a.addr = some x → whole a → whole o → a.addr = o.addr → s.exchPort x a ≠ s.exchPort x o →
      (∀ r ∈ s.mst.l2, r.addr / 8 ≠ a.addr / 8) →
      (a.write = true → o.write = true →
        let lose := if s.exchPort x a = s.get (R.BNK_XB_CFG_WIN x) then o else a
        let win := if s.exchPort x a = s.get (R.BNK_XB_CFG_WIN x) then a else o
        Does (.bankAccess t a 0 [o]) s fun s' =>
          s'.get (R.BNK_XB_LOST_OFFSET x) = a.addr % 0x20000 ∧ s'.get (R.BNK_XB_LOST_PORT x) = s.exchPort x lose ∧
          s'.get (R.BNK_XB_LOST_COUNT x) = min (s.get (R.BNK_XB_LOST_COUNT x) + 1) 255 ∧ s'.get R.BNK_INT_STAT_XLOST = 1 ∧
          (reissues lose.who = true → s'.resp = {} ∧ holds s' lose) ∧
          (reissues lose.who = false → holds s' win ∧ halted lose 5 s' ∧
            s'.resp.err = decide (s.exchPort x a ≠ s.get (R.BNK_XB_CFG_WIN x))) ∧
          (∀ y, y < a.addr ∨ a.addr + 8 ≤ y → s'.byte y = m.byte y) ∧
          KeepsBut (halts lose ++ [R.BNK_XB_LOST_OFFSET x, R.BNK_XB_LOST_PORT x, R.BNK_XB_LOST_COUNT x, R.BNK_INT_STAT_XLOST])
            s s') ∧
      (a.write = false → o.write = true → m.rowState a.addr = 0 → Does (.bankAccess t a 0 [o]) s fun s' =>
        s'.resp = { data := data } ∧ holds s' o ∧ (∀ y, y < a.addr ∨ a.addr + 8 ≤ y → s'.byte y = m.byte y) ∧
        KeepsBut [] s s')) ∧
    (∀ n off ecc, n < 8 → off < 65536 → a.addr = 0x60000000 + 65536 * n + off → a.size = 4 ∨ a.size = 8 → a.addr % a.size = 0 →
      let may := decide (s.whoCode a.who = 2 + n) || decide (a.who < 4) && s.sheetQuiesced (n + 1)
      let at_ := ceBase (s.phys n) + off
      let row := max ecc (m.rowState at_)
      (may = true → a.write = true → a.size = 8 ∨ row = 0 → Does (.bankAccess t a ecc []) s fun s' =>
        s'.resp = {} ∧ KeepsBut [] s s' ∧
        (∀ i, i < a.size → s'.byte (at_ + i) = BitVec.ofNat 8 (a.value >>> (8 * i))) ∧
        ∀ x, x < at_ ∨ at_ + a.size ≤ x → s'.byte x = m.byte x) ∧
      (may = true → a.write = false → row ≤ 1 → Does (.bankAccess t a ecc []) s fun s' =>
        s'.resp = { data := ofLe ((List.range a.size).map fun i => m.byte (at_ + i)) } ∧ same s' ∧
        s'.get (R.CE_ECC_CE (s.phys n)) = min (s.get (R.CE_ECC_CE (s.phys n)) + row) (2 ^ 32 - 1) ∧
        KeepsBut [R.CE_ECC_CE (s.phys n)] s s') ∧
      (may = true → a.write = false → row = 2 → Does (.bankAccess t a ecc []) s fun s' =>
        s'.resp = { err := true } ∧ s'.get (R.CE_FAULT_ECC (s.phys n)) = 1 ∧ s'.get (R.CE_INT_STAT_FAULT (s.phys n)) = 1) ∧
      (a.who < 4 → s.sheetQuiesced (n + 1) = false → Does (.bankAccess t a ecc []) s fun s' =>
        s'.resp = { err := true } ∧ KeepsBut [] s s' ∧ same s'))

/-- Every command, a bank access among them, keeps memory in its canonical form (a rule of the model's own memory,
log entry 3) (R23, R296). Rests on the model's readings and choices: log entry 3. -/
def Obligations.EveryCommandKeepsTheMemoryForm : Prop :=
  (∀ (c : Instr) (s s' : State), Memory.wf s.mem = true → exec c s = .next s' → Memory.wf s'.mem = true) ∧
  (∀ (t : Nat) (a : Access) (ecc : Nat) (rest : List Access) (s : State), Memory.wf s.mem = true →
    (Instr.bankAccess t a ecc rest).wf = true → Answers (.bankAccess t a ecc rest) s fun s' => Memory.wf s'.mem = true)

/-- START fetches a channel's first descriptor or halts on it, RESUME goes on from the registers, STOP ends it and
keeps its resume state (R309, R311, R312). Rests on the model's readings and choices: log entries 79, 179. -/
def Obligations.GleanChannelCommands : Prop :=
  ∀ (t c : Nat) (s : State), c < 32 → s.mst.l2 = [] → s.rows = [] →
    let m := (s.at t).mailProgress
    let good (d : List Byte) : Prop := leAt d 12 4 < 8 ∧ leAt d 16 4 % 32 = 0 ∧ leAt d 20 12 = 0 ∧
      (bit (leAt d 12 4) 0 = true → leAt d 0 4 % 4 = 0) ∧ (bit (leAt d 12 4) 1 = true → leAt d 4 4 % 4 = 0)
    let a := s.get (R.GLN_GC_DESC c)
    let d := m.readBytes a 32
    (s.gleanState c = 0 → isReg a = false →
      ((s.rangeCheck c a 32 false).2 = 0 →
        (good d → leAt d 8 4 ≠ 0 → Does (.start t c none none) s fun s' =>
          s'.get (R.GLN_GC_STAT_STATE c) = 1 ∧ s'.get (R.GLN_GC_CUR c) = a ∧
          s'.get (R.GLN_GC_SRC c) = leAt d 0 4 ∧ s'.get (R.GLN_GC_DST c) = leAt d 4 4 ∧ s'.get (R.GLN_GC_REM c) = leAt d 8 4 ∧
          s'.get (R.GLN_GC_STAT_DESCS c) = 0 ∧ s'.get (R.GLN_GC_BYTES c) = 0 ∧ ∀ a, s'.byte a = m.byte a) ∧
        (¬ good d → Does (.start t c none none) s fun s' => s'.get (R.GLN_GC_STAT_STATE c) = 2 ∧
          s'.get (R.GLN_GC_STAT_CAUSE c) = 6 ∧ s'.get (R.GLN_GC_FADDR c) = a ∧ ∀ a, s'.byte a = m.byte a) ∧
        (∀ r, rowIn (some r) a 32 ≠ none → Does (.start t c (some r) none) s fun s' => s'.get (R.GLN_GC_STAT_STATE c) = 2 ∧
          s'.get (R.GLN_GC_STAT_CAUSE c) = 4 ∧ s'.get (R.GLN_GC_FADDR c) = a ∧ s'.get R.BNK_INT_STAT_ECC_UE = 1)) ∧
      ((s.rangeCheck c a 32 false).2 ≠ 0 → ∀ ue ce, Does (.start t c ue ce) s fun s' => s'.get (R.GLN_GC_STAT_STATE c) = 2 ∧
        s'.get (R.GLN_GC_STAT_CAUSE c) = (s.rangeCheck c a 32 false).2 ∧ s'.get (R.GLN_GC_FADDR c) = a)) ∧
    (s.gleanState c = 2 → isReg (s.get (R.GLN_GC_CUR c)) = false → s.get (R.GLN_GC_REM c) ≠ 0 →
      (s.rangeCheck c (s.get (R.GLN_GC_CUR c)) 32 false).2 = 0 → good (m.readBytes (s.get (R.GLN_GC_CUR c)) 32) →
      Does (.resume t c none none) s fun s' =>
        s'.get (R.GLN_GC_STAT_STATE c) = 1 ∧ s'.get (R.GLN_GC_STAT_CAUSE c) = 0 ∧
        KeepsBut [R.GLN_GC_STAT_STATE c, R.GLN_GC_STAT_CAUSE c, R.GLN_RUN, R.GLN_HALTED] s s' ∧
        ∀ a, s'.byte a = m.byte a) ∧
    (s.gleanState c = 1 → Does (.stop t c) s fun s' =>
      s'.get (R.GLN_GC_STAT_STATE c) = 0 ∧ s'.get (R.GLN_GC_STAT_CAUSE c) = 8 ∧
      KeepsBut [R.GLN_GC_STAT_STATE c, R.GLN_GC_STAT_CAUSE c, R.GLN_RUN, R.GLN_HALTED] s s') ∧
    (s.gleanState c = 2 → Does (.stop t c) s fun s' =>
      s'.get (R.GLN_GC_STAT_STATE c) = 0 ∧ KeepsBut [R.GLN_GC_STAT_STATE c, R.GLN_RUN, R.GLN_HALTED] s s') ∧
    (s.gleanState c ≠ 0 → ∀ ue ce, Does (.start t c ue ce) s fun s' => s'.mst = s.mst ∧ KeepsBut [] s s') ∧
    (s.gleanState c ≠ 2 → ∀ ue ce, Does (.resume t c ue ce) s fun s' => s'.mst = s.mst ∧ KeepsBut [] s s') ∧
    (s.gleanState c = 0 → Does (.stop t c) s fun s' => s'.mst = s.mst ∧ KeepsBut [] s s')

/-- A burst of the channel served next fetches its descriptor or copies its bytes and goes on past them, ends the
descriptor after the last, or halts (R301, R303, R309, R310, R312, R313). Rests on the model's readings and
choices: log entries 79, 80, 179. -/
def Obligations.GleanBurstCopiesMemory : Prop :=
  ∀ (t c : Nat) (s : State), s.gleanNext = some c → s.mst.l2 = [] → s.rows = [] → s.mst.glean.length = 32 →
    let m := (s.at t).mailProgress
    let halted (s' : State) (cause faddr : Nat) : Prop := s'.gleanState c = 2 ∧ s'.get (R.GLN_GC_STAT_CAUSE c) = cause ∧
      s'.get (R.GLN_GC_FADDR c) = faddr ∧ bit (s'.get R.GLN_INT_HALT) c = true
    (∀ ctl next, s.gleanDesc c = some (ctl, next) → bit ctl 0 = false → bit ctl 1 = false →
      let src := s.get (R.GLN_GC_SRC c)
      let dst := s.get (R.GLN_GC_DST c)
      let n := s.burstLen c ctl
      isReg src = false → isReg dst = false → 0 < n →
      ((s.rangeCheck c src n false).2 ≠ 0 → ∀ ue ce lost, Does (.gleanBurst t ue ce lost) s fun s' =>
        halted s' (s.rangeCheck c src n false).2 src ∧ ∀ a, s'.byte a = m.byte a) ∧
      ((s.rangeCheck c src n false).2 = 0 → (s.rangeCheck c dst n true).2 ≠ 0 → ∀ ue ce lost,
        Does (.gleanBurst t ue ce lost) s fun s' => halted s' (s.rangeCheck c dst n true).2 dst ∧ ∀ a, s'.byte a = m.byte a) ∧
      ((s.rangeCheck c src n false).2 = 0 → (s.rangeCheck c dst n true).2 = 0 →
        (Does (.gleanBurst t none none none) s fun s' =>
          (∀ i, i < n → s'.byte (dst + i) = m.byte (src + i)) ∧
          (∀ a, a < dst ∨ dst + n ≤ a → s'.byte a = m.byte a) ∧
          s'.get (R.GLN_GC_SRC c) = (src + n) % 2 ^ 32 ∧ s'.get (R.GLN_GC_DST c) = (dst + n) % 2 ^ 32 ∧
          s'.get (R.GLN_GC_REM c) = s.get (R.GLN_GC_REM c) - n ∧
          (n < s.get (R.GLN_GC_REM c) → s'.gleanDesc c = some (ctl, next) ∧
            KeepsBut [R.GLN_GC_SRC c, R.GLN_GC_DST c, R.GLN_GC_REM c, R.GLN_GC_BYTES c] s s') ∧
          (n = s.get (R.GLN_GC_REM c) →
            s'.get (R.GLN_GC_STAT_DESCS c) = (s.get (R.GLN_GC_STAT_DESCS c) + 1) % 65536 ∧ s'.gleanDesc c = none ∧
            bit (s'.get R.GLN_INT_DONE) c = (bit (s.get R.GLN_INT_DONE) c || bit ctl 2) ∧
            (next = 0 → s'.gleanState c = 0 ∧ s'.get (R.GLN_GC_CUR c) = s.get (R.GLN_GC_CUR c)) ∧
            (next ≠ 0 → s'.gleanState c = 1 ∧ s'.get (R.GLN_GC_CUR c) = next % 2 ^ 32))) ∧
        (∀ r x, rowIn (some r) src n = some x → ∀ ce lost, Does (.gleanBurst t (some r) ce lost) s fun s' =>
          halted s' 4 (x % 2 ^ 32) ∧ s'.get R.BNK_ECC_UE = min (s.get R.BNK_ECC_UE + 1) (2 ^ 32 - 1) ∧ ∀ a, s'.byte a = m.byte a) ∧
        (∀ r x, exchBank dst = some x → exchBank r ≠ none → dst / 8 ≤ r / 8 → r / 8 ≤ (dst + (n - 1)) / 8 →
          s.get (R.BNK_XB_CFG_CPORT x) ≠ s.get (R.BNK_XB_CFG_WIN x) → Does (.gleanBurst t none none (some r)) s fun s' =>
            halted s' 5 (r / 8 * 8) ∧ s'.get (R.BNK_XB_LOST_OFFSET x) = r % 0x20000 / 8 * 8 ∧
            s'.get (R.BNK_XB_LOST_COUNT x) = min (s.get (R.BNK_XB_LOST_COUNT x) + 1) 255 ∧ s'.get R.BNK_INT_STAT_XLOST = 1 ∧
            s'.get (R.GLN_GC_REM c) = s.get (R.GLN_GC_REM c) - (max (r / 8 * 8) dst - dst) ∧
            (∀ i, i < 8 → s'.byte (r / 8 * 8 + i) = m.byte (r / 8 * 8 + i)) ∧
            ∀ a, a < dst ∨ dst + n ≤ a → s'.byte a = m.byte a))) ∧
    (s.gleanDesc c = none →
      let a := s.get (R.GLN_GC_CUR c)
      let d := m.readBytes a 32
      let good : Prop := leAt d 12 4 < 8 ∧ leAt d 16 4 % 32 = 0 ∧ leAt d 20 12 = 0 ∧
        (bit (leAt d 12 4) 0 = true → leAt d 0 4 % 4 = 0) ∧ (bit (leAt d 12 4) 1 = true → leAt d 4 4 % 4 = 0)
      isReg a = false →
      ((s.rangeCheck c a 32 false).2 = 0 → good → leAt d 8 4 ≠ 0 → Does (.gleanBurst t none none none) s fun s' =>
        s'.get (R.GLN_GC_SRC c) = leAt d 0 4 ∧ s'.get (R.GLN_GC_DST c) = leAt d 4 4 ∧ s'.get (R.GLN_GC_REM c) = leAt d 8 4 ∧
        s'.gleanDesc c = some (leAt d 12 4, leAt d 16 4) ∧
        KeepsBut [R.GLN_GC_SRC c, R.GLN_GC_DST c, R.GLN_GC_REM c] s s' ∧ ∀ a, s'.byte a = m.byte a) ∧
      ((s.rangeCheck c a 32 false).2 = 0 → ¬ good → Does (.gleanBurst t none none none) s fun s' => halted s' 6 a) ∧
      ((s.rangeCheck c a 32 false).2 ≠ 0 → ∀ ue ce lost, Does (.gleanBurst t ue ce lost) s fun s' =>
        halted s' (s.rangeCheck c a 32 false).2 a))

/-- Losing the reference switches it or loses the lock; the domains move to the DLL after the holdover and back to
the PLL at its lock (R319, R323, R325, R326, R327, R328, R329). Rests on the model's readings and choices: log
entries 81, 82, 83, 85, 109. -/
def Obligations.ClockFollowsItsReferences : Prop :=
  ∀ (t : Nat) (s : State), s.clk.dly.length = 5 → s.chains.length = 32 →
    let now := s.at t
    let mode := s.get R.CLK_STAT_MODE
    let sel := s.get R.CLK_REFCFG_REFSEL
    (∀ r, r < 2 →
      (r ≠ sel → Does (.referenceAbsent t r) s fun s' => s'.is (refOkField r) = false ∧ s'.clk = s.clk ∧
        s'.get R.CLK_STAT_MODE = mode ∧ s'.get R.CLK_REFCFG_REFSEL = sel) ∧
      (s.refEnabled r = false → Does (.referencePresent t r) s fun s' => s'.clk = s.clk ∧ KeepsBut [] s s') ∧
      (s.refEnabled r = true → s.is R.CLK_CTL_RELOCK = false → s.pwr.start = none → Does (.referencePresent t r) s fun s' =>
        s'.is (refOkField r) = true ∧ s'.clk = s.clk ∧ s'.get R.CLK_STAT_MODE = mode) ∧
      (s.refEnabled r = true → s.is R.CLK_CTL_RELOCK = true ∨ s.pwr.start.isSome = true → mode = 0 → s.clk.dll = true → r = sel →
        Does (.referencePresent t r) s fun s' => s'.is (refOkField r) = true ∧ s'.get R.CLK_STAT_MODE = 1 ∧
          s'.get R.CLK_STAT_REF = sel ∧ s'.clk.search = (s.clk.search || !s.is R.CLK_BAND_VALID))) ∧
    (mode = 2 → ∀ ph,
      (s.refOther = true → ∀ c, c = Instr.referenceAbsent t sel ∨ c = .lossOfLock t 0 ph → Does c s fun s' =>
        s'.get R.CLK_REFCFG_REFSEL = 1 - sel ∧ s'.get R.CLK_STAT_REF = 1 - sel ∧ s'.get R.CLK_INT_STAT_REF_CHG = 1 ∧
        s'.get R.CLK_CNT_REFSW = min (s.get R.CLK_CNT_REFSW + 1) (2 ^ R.CLK_CNT_REFSW.width - 1) ∧
        s'.get R.CLK_STAT_MODE = 2 ∧ s'.is (refOkField sel) = false ∧ s'.fsOn 125 = s.fsOn 125) ∧
      ∀ c k, s.clk.dll = false → (s.refOther = false ∧ k = 1 ∧ (c = Instr.referenceAbsent t sel ∨ c = .lossOfLock t 0 ph)) ∨
          (k = 2 ∧ c = .lossOfLock t 1 ph) ∨ (k = 3 ∧ c = .lossOfLock t 2 ph) → Does c s fun s' =>
        s'.get R.CLK_STAT_MODE = 3 ∧ s'.get R.CLK_STAT_ALIGNED = 0 ∧ s'.get R.CLK_INT_STAT_UNLOCK = 1 ∧
        s'.get R.CLK_STAT_LOSS_CLASS = k ∧ s'.get R.CLK_EVTSTAMP = now.tb % 2 ^ 64 ∧ s'.fsOn 125 = true ∧
        s'.get R.CLK_CNT_UNLOCKS = min (s.get R.CLK_CNT_UNLOCKS + 1) (2 ^ R.CLK_CNT_UNLOCKS.width - 1) ∧
        s'.clk.lanes = (s.clk.lanes && decide (k ≠ 3)) ∧ (k = 3 → bit (s'.get R.HLT_REPLACE_REASONS) 6 = true) ∧
        ∀ d, d < 2 → s.get (R.TSU_TD_STAT_STATE d) = 2 ∨ s.get (R.TSU_TD_STAT_STATE d) = 3 →
          s'.get (R.TSU_TD_STAT_STATE d) = 4) ∧
    (let d := s.get R.CLK_EVTSTAMP
     let due := if s.get R.CLK_STAT_LOSS_CLASS = 3 then (d + 639) / 640 * 640
       else (d + 16000 * clampN 10 1000 (s.get R.CLK_HOLD) + 3199) / 3200 * 3200
     (mode ≠ 3 ∨ now.tb < due → Does (.dllChangeover t) s fun s' => s'.clk = s.clk ∧ KeepsBut [] s s') ∧
     (mode = 3 → due ≤ now.tb → Does (.dllChangeover t) s fun s' =>
       s'.clk.dll = true ∧ s'.clk.lanes = false ∧ s'.clk.smp = false ∧ s'.get R.CLK_STAT_ALIGNED = 0 ∧
       s'.get R.CLK_INT_STAT_SWITCH_DLL = 1 ∧
       s'.get R.CLK_STAT_MODE = b2n (s.is R.CLK_CTL_RELOCK && (s.refOk sel || s.refOther)) ∧
       (∀ l, l < 12 → s.get (R.LNE_LN_STAT_STATE l) = 2 → s'.get (R.LNE_LN_STAT_STATE l) = 3) ∧
       (s.is R.CLK_CTL_SDCLK_EN = true → s.is R.CLK_STAT_SDCLK_OK = true → s'.get R.CLK_STAT_ON_SDCLK = 1) ∧
       (s.is R.CLK_CTL_SDCLK_EN = false ∨ s.is R.CLK_STAT_SDCLK_OK = false → ∀ p, p < 5 → s'.linked p = false))) ∧
    (Does (.dllRealigned t) s fun s' => s'.get R.CLK_STAT_DLL_ALIGNED = 1 ∧ s'.clk = s.clk ∧
      KeepsBut [R.CLK_STAT_DLL_ALIGNED] s s') ∧
    (Does (.sdclkPresenceChange t true) s fun s' => s'.get R.CLK_STAT_SDCLK_OK = 1 ∧ KeepsBut [R.CLK_STAT_SDCLK_OK] s s') ∧
    (s.is R.CLK_STAT_SDCLK_OK = true → Does (.sdclkPresenceChange t false) s fun s' => s'.get R.CLK_STAT_SDCLK_OK = 0 ∧
      s'.get R.CLK_INT_STAT_SDCLK_LOSS = 1 ∧ s'.get R.CLK_STAT_ON_SDCLK = 0 ∧
      (s.is R.CLK_STAT_ON_SDCLK = true → ∀ p, p < 5 → s'.linked p = false)) ∧
    (∀ ok band fl ph,
      (mode ≠ 1 → Does (.pllLocked t ok band fl ph) s fun s' => s'.clk = s.clk ∧ KeepsBut [] s s') ∧
      (mode = 1 → Does (.pllLocked t true band fl ph) s fun s' => s'.get R.CLK_STAT_MODE = 2 ∧ s'.clk.fails = 0 ∧
        s'.clk.search = false ∧ s'.get R.CLK_RATE = s.get R.TSU_RATE ∧ s'.get R.CLK_PHERR = ofS 16 (satS 16 ph) ∧
        s'.get R.CLK_INT_STAT_FLIMIT = (if fl then 1 else s.get R.CLK_INT_STAT_FLIMIT) ∧
        (s.clk.search = true → s'.get R.CLK_BAND_BAND = band % 64 ∧ s'.get R.CLK_BAND_VALID = 1)) ∧
      (mode = 1 → Does (.pllLocked t false band fl ph) s fun s' =>
        s'.clk.fails = (if s.clk.fails = 2 then 0 else s.clk.fails + 1) ∧
        s'.get R.CLK_STAT_MODE = b2n (s.clk.dll && (s.refOk sel || s.refOther)) ∧
        (s.clk.fails = 2 → s'.get R.CLK_BAND_VALID = 0 ∧ s'.clk.search = true) ∧
        (s.clk.search = true → s'.get R.CLK_INT_STAT_BAND_FAIL = 1 ∧ bit (s'.get R.HLT_REPLACE_REASONS) 6 = true))) ∧
    (s.clk.dll = false ∨ mode ≠ 2 ∨ now.tb % 3200 ≠ 0 → Does (.pllChangeover t) s fun s' => s'.clk = s.clk ∧ KeepsBut [] s s') ∧
    (s.clk.dll = true → mode = 2 → now.tb % 3200 = 0 → Does (.pllChangeover t) s fun s' =>
      s'.clk.dll = false ∧ s'.clk.lanes = true ∧ s'.clk.smpAt = some (now.tb + 320000) ∧ s'.get R.CLK_INT_STAT_LOCK = 1 ∧
      s'.get R.CLK_INT_STAT_SWITCH_PLL = 1 ∧ s'.get R.CLK_STAT_ON_SDCLK = 0 ∧ s'.fsOn 125 = false ∧
      (∀ n, n < 3 → s'.clk.dly.getD n 0 = s.get (R.CLK_OUT_CFG_DLY n)) ∧
      s'.get R.CLK_STAT_ALIGNED = b2n ((s'.clk.dly.take 4).all (· = 0))) ∧
    (∀ x, s.clk.smpAt = some x →
      (now.tb < x ∨ now.tb % 800 ≠ 0 → Does (.smpRestart t) s fun s' => s'.clk = s.clk ∧ s'.chains = s.chains ∧ KeepsBut [] s s') ∧
      (x ≤ now.tb → now.tb % 800 = 0 → Does (.smpRestart t) s fun s' => s'.clk.smp = true ∧ s'.clk.smpAt = none ∧
        ∀ i, i < 32 → (s.chain i).begun = true → (s'.chain i).adv =
          ((if (s.adc (i / 8)).watchOn then (now.tb + 12799) / 12800 * 12800 else now.tb) - (s.chain i).frameAt) / 800)) ∧
    (∀ n v, n < 5 →
      (n < 3 → Does (.outputConfigWrite t n v) s fun s' => s'.get (R.CLK_OUT_CFG_DLY n) = bits v 1 8 ∧ s'.clk = s.clk ∧
        KeepsBut [R.CLK_OUT_CFG_DLY n] s s') ∧
      (3 ≤ n → s.is (R.CLK_OUT_CFG_EN n) = true → Does (.outputConfigWrite t n v) s fun s' =>
        s'.get (R.CLK_OUT_CFG_EN n) = bits v 0 1 ∧ s'.clk = s.clk ∧ (n = 3 ∨ bit v 0 = true →
          KeepsBut (R.CLK_OUT_CFG_EN n :: (List.range 4).map R.ADC_STAT_CALPHASE) s s')) ∧
      (3 ≤ n → s.is (R.CLK_OUT_CFG_EN n) = false → Does (.outputConfigWrite t n v) s fun s' =>
        s'.get (R.CLK_OUT_CFG_EN n) = bits v 0 1 ∧ s'.get (R.CLK_OUT_CFG_DLY n) = bits v 1 8 ∧
        s'.clk.dly.getD n 0 = (if bit v 0 then bits v 1 8 else s.clk.dly.getD n 0) ∧
        (n = 3 → bit v 0 = true → bits v 1 8 ≠ 0 → s'.get R.CLK_STAT_ALIGNED = 0)))

/-- Main power, the reset pins and the keep-alive domain do what a fall, a rise, a press and a warning mean (R334,
R336, R337, R338, R339, R340, R341). Rests on the model's readings and choices: log entries 84, 85, 86, 89,
90, 91, 93, 94, 180. -/
def Obligations.SuppliesResetsAndTheMirror : Prop :=
  ∀ (t : Nat) (s : State), s.pwr.cells.length = 2 →
    let now := s.at t
    let p := s.pwr
    let mpg := s.is R.PWR_STAT_MPG
    let same (s' : State) := ∀ a, s'.byte a = s.byte a
    let mirrored (clean ok : Bool) (s' : State) :=
      s'.pwr.cells.getD (1 - s.olderCell) none = p.cells.getD (1 - s.olderCell) none ∧
      s'.get R.PWR_MIRROR_FAIL = b2n (!ok) ∧ s'.get R.PWR_MIRROR_CELL = s.olderCell ∧
      (ok = false → s'.pwr.cells.getD s.olderCell none = none ∧ s'.get R.PWR_INT_STAT_MIRROR_FAIL = 1) ∧
      (ok = true → ∃ c, s'.pwr.cells.getD s.olderCell none = some c ∧ c.clean = clean ∧ c.opsec = now.opsec ∧
        c.cycles = s.get R.PWR_CYCLES ∧ c.boot = s.get R.PWR_BOOTREC ∧ c.life = s.get R.HLT_LIFE)
    (∀ ok,
      (mpg = true → Answers (.powerFailWarning t ok) s fun s' => s'.pwr.warn = true ∧ s'.get R.PWR_INT_STAT_PFW = 1 ∧
        mirrored true ok s' ∧ (s.held = false → s'.get R.LDG_STAT_PFW_MODE = 1)) ∧
      (mpg = false → Answers (.powerFailWarning t ok) s fun s' => s'.pwr = p ∧ KeepsBut [] s s') ∧
      (p.warn = true → Answers (.powerFailClear t ok) s fun s' => s'.pwr.warn = false ∧ mirrored false ok s' ∧
        (s.held = false → s'.get R.LDG_STAT_PFW_MODE = 0)) ∧
      (p.warn = false → Answers (.powerFailClear t ok) s fun s' => s'.pwr = p ∧ KeepsBut [] s s') ∧
      (mpg = true → p.warn = true ∨ now.opsec / 65536 % 3600 = 0 → Answers (.opsecSecond t ok) s (mirrored p.warn ok)) ∧
      (mpg = false ∨ (p.warn = false ∧ now.opsec / 65536 % 3600 ≠ 0) → Answers (.opsecSecond t ok) s fun s' =>
        s'.pwr = p ∧ KeepsBut [] s s')) ∧
    (Answers (.vkaLow t) s fun s' => s'.get R.PWR_KA_VKA_LOW = 1 ∧ bit (s'.get R.PWR_RAIL) 8 = false ∧
      s'.get R.PWR_INT_STAT_VKA_LOW = (if mpg then 1 else s.get R.PWR_INT_STAT_VKA_LOW) ∧
      s'.pwr = { p with lost := p.lost || !mpg } ∧ KeepsBut [R.PWR_KA_VKA_LOW, R.PWR_RAIL, R.PWR_INT_STAT_VKA_LOW] s s') ∧
    (Answers (.vkaRecovery t) s fun s' => s'.get R.PWR_KA_VKA_LOW = 0 ∧ bit (s'.get R.PWR_RAIL) 8 = true ∧ s'.pwr = p ∧
      KeepsBut [R.PWR_KA_VKA_LOW, R.PWR_RAIL] s s') ∧
    (Does (.vddWReturn t) s fun s' => s'.get R.WCH_STAT_STATE = 0 ∧ s'.isle.tested = false ∧ s'.isle.sealAt = now.wt ∧
      s'.isle.pset = [] ∧ s'.get R.WCH_STAT_FS124 = 1 ∧ s'.fsOn 124 = true ∧ bit (s'.get R.PWR_RAIL) 2 = true) ∧
    (∀ rails,
      (mpg = false → Answers (.mpgFall t rails) s fun s' => s'.pwr = p ∧ KeepsBut [] s s' ∧ same s') ∧
      (mpg = true → Answers (.mpgFall t rails) s fun s' =>
        s'.tb = 0 ∧ s'.get R.PWR_STAT_MPG = 0 ∧ s'.get R.PWR_RAIL = rails % 512 ∧ s'.pwr.due = none ∧ s'.pwr.start = none ∧
        s'.pwr.opBase = now.opsec ∧ s'.pwr.cells = p.cells ∧ s'.get R.PWR_STAT_READY = 0 ∧
        s'.get R.PWR_CYCLES = s.get R.PWR_CYCLES ∧ s'.get R.PWR_BOOTREC = s.get R.PWR_BOOTREC ∧
        (∀ a, 0x90000000 ≤ a → a < 0x98000000 → (∀ r, s.ldg.queue.head? = some r →
          let slot := 0x90000000 + s.ldg.dieOffset r.ring r.pos
          a < slot ∨ slot + 64 ≤ a) → s'.byte a = s.byte a) ∧
        (∀ a, (0x20000 ≤ a ∧ a < 0x90000000) ∨ 0x98000000 ≤ a → s'.byte a = 0) ∧ s'.held = true)) ∧
    (∀ crc off rails xtal,
      (mpg = true → Answers (.mpgRise t crc off rails xtal) s fun s' => s'.pwr = p ∧ KeepsBut [] s s') ∧
      (mpg = false → Answers (.mpgRise t crc off rails xtal) s fun s' =>
        s'.get R.PWR_STAT_MPG = 1 ∧ s'.get R.HLT_REPLACE = 0 ∧ s'.pwr.due = (if p.porst || p.testMode then none else some 1) ∧
        s'.tb = 0 ∧ s'.pwr.dueAt = 0 ∧ s'.pwr.off = false ∧ s'.held = true ∧ s'.pwr.rose = p.porst ∧ s'.get R.PWR_KA_XTAL_OK = b2n xtal ∧
        (crc = true → p.lost = false → s'.get R.PWR_KA_RESTORED = 0 ∧ s'.pwr.opBase = p.opBase ∧
          s'.get R.PWR_CYCLES = min (s.get R.PWR_CYCLES + 1) (2 ^ 32 - 1) ∧
          s'.get R.PWR_BOOTREC = s.get R.PWR_BOOTREC) ∧
        (∀ c, crc = false ∨ p.lost = true → s.newestCell = some c → s'.get R.PWR_KA_RESTORED = 1 ∧
          s'.get R.PWR_KA_CLEAN = b2n c.clean ∧ s'.get R.PWR_CYCLES = min (c.cycles % 2 ^ 32 + 1) (2 ^ 32 - 1) ∧
          s'.get R.PWR_BOOTREC = c.boot % 2 ^ 32 ∧ s'.get R.HLT_LIFE = c.life % 2 ^ 32 ∧
          s'.pwr.opBase = (c.opsec + (if c.clean then 1 else 3600) * 65536) % 2 ^ 48))) ∧
    (Answers (.porstNAssert t) s fun s' => s'.tb = 0 ∧ s'.pwr.porst = true ∧ s'.pwr.due = none ∧ s'.pwr.start = none ∧
      s'.get R.PWR_STAT_MPG = s.get R.PWR_STAT_MPG ∧ s'.get R.PWR_STAT_READY = 0 ∧ s'.get R.WCH_STAT_STATE = 0 ∧
      s'.get R.PWR_CYCLES = s.get R.PWR_CYCLES ∧ s'.pwr.opBase = now.opsec ∧ s'.held = true ∧ same s') ∧
    (∀ after test,
      (p.porst = false → Answers (.porstNRelease t after test) s fun s' => s'.pwr = p ∧ KeepsBut [] s s') ∧
      (p.porst = true → Answers (.porstNRelease t after test) s fun s' => s'.pwr.porst = false ∧ s'.tb = 0 ∧ s'.pwr.testMode = test ∧
        (test = true ∨ mpg = false → s'.pwr.due = p.due ∧ KeepsBut [] s s') ∧
        (test = false → mpg = true → s'.pwr.due = some (if p.rose then 1 else 2) ∧ s'.pwr.start = none ∧
          s'.get R.PWR_BOOTREC_PENDING = if p.rose then s.get R.PWR_BOOTREC_PENDING else 0))) ∧
    (s.held = true → Answers (.wrstNAssert t) s fun s' => s'.pwr = { p with wrst := true } ∧ KeepsBut [] s s') ∧
    (s.held = false → Answers (.wrstNAssert t) s fun s' => s'.pwr.wrst = true ∧ s'.held = true ∧ s'.tb = now.tb ∧
      s'.get R.PWR_STAT_READY = 0 ∧ s'.pwr.due = p.due ∧ s'.isle = s.isle ∧ s'.mem = s.mem ∧
      s'.pwr.start = p.start.map fun r => { r with ended := r.ended.filter fun k => k = 1 ∨ k = 3 ∨ k = 8 }) ∧
    (p.wrst = false → Answers (.wrstNRelease t) s fun s' => s'.pwr = p ∧ KeepsBut [] s s') ∧
    (p.wrst = true →
      (p.off = true ∨ p.porst = true ∨ p.testMode = true → Answers (.wrstNRelease t) s fun s' =>
        s'.pwr = { p with wrst := false } ∧ KeepsBut [] s s') ∧
      (p.off = false → p.porst = false → p.testMode = false →
        (p.due = none → p.start = none → Answers (.wrstNRelease t) s fun s' =>
          s'.pwr = { p with wrst := false, due := some 7, dueAt := now.tb } ∧ KeepsBut [] s s') ∧
        (p.due ≠ none ∨ p.start ≠ none → Answers (.wrstNRelease t) s fun s' => s'.pwr = { p with wrst := false } ∧
          s'.get R.PWR_CNT_WARM_IGN = min (s.get R.PWR_CNT_WARM_IGN + 1) (2 ^ 16 - 1) ∧ s'.get R.PWR_INT_STAT_WARM_IGN = 1 ∧
          KeepsBut [R.PWR_CNT_WARM_IGN, R.PWR_INT_STAT_WARM_IGN] s s')))

/-- A due cause begins its start, steps end in order or fail, the ready point ends it; commands and timers make
causes due (R340, R341, R342, R343, R344, R345, R346, R347, R348, R349, R351). Rests on the model's readings
and choices: log entries 87, 88, 92, 93, 95, 96, 97, 98, 99, 119. -/
def Obligations.StartsRunTheirStepsInOrder : Prop :=
  ∀ (t : Nat) (s : State),
    let now := s.at t
    let p := s.pwr
    let ready := s.is R.PWR_STAT_READY && p.due.isNone
    let idle (c : Instr) := Does c s fun s' => s'.pwr = p ∧ KeepsBut [] s s' ∧ ∀ a, s'.byte a = s.byte a
    let dueIs (n : Nat) (s' : State) := s'.pwr.due = some n ∧ s'.pwr.start = none ∧ s'.pwr.dueAt = now.tb
    (∀ key,
      (key % 256 ≠ 0xA5 → idle (.warm t key) ∧ idle (.cold t key) ∧ idle (.goldenClr t key)) ∧
      (key % 256 = 0xA5 →
        (ready = true → Does (.warm t key) s fun s' => dueIs 8 s' ∧ KeepsBut [] s s') ∧
        (ready = false → Does (.warm t key) s fun s' => s'.pwr = p ∧ s'.get R.PWR_INT_STAT_WARM_IGN = 1 ∧
          s'.get R.PWR_CNT_WARM_IGN = min (s.get R.PWR_CNT_WARM_IGN + 1) (2 ^ 16 - 1) ∧
          KeepsBut [R.PWR_CNT_WARM_IGN, R.PWR_INT_STAT_WARM_IGN] s s') ∧
        (s.is R.PWR_BOOTREC_PENDING = false → Does (.cold t key) s fun s' => dueIs 3 s' ∧ KeepsBut [] s s') ∧
        (s.is R.PWR_BOOTREC_PENDING = true → Does (.cold t key) s fun s' => dueIs 3 s' ∧ s'.get R.PWR_BOOTREC_PENDING = 0 ∧
          1 ≤ s'.get R.PWR_BOOTREC_ATTEMPTS ∧ KeepsBut [R.PWR_BOOTREC_PENDING, R.PWR_BOOTREC_ATTEMPTS, R.PWR_FAILT0] s s') ∧
        (p.confirmed = true → Does (.goldenClr t key) s fun s' => s'.pwr = p ∧ s'.get R.PWR_BOOTREC_GOLDEN = 0 ∧
          KeepsBut [R.PWR_BOOTREC_GOLDEN] s s') ∧
        (p.confirmed = false → idle (.goldenClr t key)))) ∧
    (let conf := 16000000000 * max 1 (s.get R.PWR_CFG_CONFIRM_T)
     (ready = true → (∀ x, p.confirmAt = some x → now.tb < x + conf) → Does (.bootOk t) s fun s' =>
       s'.pwr = { p with confirmed := true, confirmAt := none } ∧ s'.get R.PWR_BOOTREC_PENDING = 0 ∧
       s'.get R.PWR_BOOTREC_ATTEMPTS = 0 ∧ KeepsBut [R.PWR_BOOTREC_PENDING, R.PWR_BOOTREC_ATTEMPTS] s s') ∧
     (ready = false → idle (.bootOk t)) ∧
     (∀ x, p.confirmAt = some x →
       (x + conf ≤ now.tb → idle (.bootOk t)) ∧
       (x + conf ≤ now.tb → Does (.confirmExpiry t) s fun s' => dueIs 4 s' ∧ s'.pwr.confirmAt = none ∧
         s'.get R.PWR_BOOTREC_PENDING = 0) ∧
       (now.tb < x + conf → idle (.confirmExpiry t))) ∧
     (p.confirmAt = none → idle (.confirmExpiry t))) ∧
    (Does (.kick t) s fun s' => s'.pwr = { p with wdogAt := p.wdogAt.map fun _ => now.tb } ∧ KeepsBut [] s s') ∧
    (let n := s.get R.PWR_CFG_WDOG_T
     (∀ x, p.wdogAt = some x → n ≠ 0 → x + 16000000 * n ≤ now.tb → ready = true → Does (.watchdogExpiry t) s fun s' =>
       dueIs 9 s' ∧ KeepsBut [] s s') ∧
     (n = 0 ∨ p.wdogAt = none → idle (.watchdogExpiry t)) ∧
     (∀ x, p.wdogAt = some x → now.tb < x + 16000000 * n → idle (.watchdogExpiry t))) ∧
    (∀ straps,
      let ripe (c : Nat) := !p.off && !p.porst && !p.wrst && !p.testMode &&
        (if c ≤ 2 then s.is R.PWR_STAT_MPG && decide (p.dueAt + 320000 ≤ now.tb) else now.drained)
      (∀ c, p.due = some c →
        (c ≤ 6 → ripe c = true → Answers (.coldStart t straps) s fun s' =>
          s'.get R.PWR_CAUSE = c ∧ s'.get R.PWR_STAT_STEP = 1 ∧ s'.get R.PWR_BOOTREC_PENDING = 1 ∧ s'.pwr.due = none ∧
          s'.pwr.start = some ⟨true, if c ≤ 2 then p.dueAt else now.tb, []⟩ ∧ s'.pwr.confirmed = false ∧
          s'.get R.PWR_STRAP % 1024 = (if c ≤ 2 then straps else s.get R.PWR_STRAP) % 1024 ∧
          (c ≤ 2 → s'.get R.PIN_GPIO_IN % 64 = straps / 16 % 64) ∧ s'.held = false) ∧
        (6 < c ∨ ripe c = false → Answers (.coldStart t straps) s fun s' => s'.pwr = p ∧ KeepsBut [] s s')) ∧
      (p.due = none → Answers (.coldStart t straps) s fun s' => s'.pwr = p ∧ KeepsBut [] s s')) ∧
    (let released := !p.off && !p.porst && !p.wrst && !p.testMode
     ∀ c, p.due = some c →
      (7 ≤ c → c < 16 → released = true → c = 7 ∨ now.drained = true → Answers (.warmStart t) s fun s' => s'.get R.PWR_CAUSE = c ∧
        s'.get R.PWR_STAT_STEP = 2 ∧ s'.pwr.due = none ∧
        s'.pwr.start = some ⟨false, if c = 7 then p.dueAt else now.tb, [1, 3, 8, 10]⟩ ∧
        s'.get R.PWR_CNT_WARMS = min (s.get R.PWR_CNT_WARMS + 1) (2 ^ 16 - 1) ∧ s'.isle = s.isle ∧ s'.mem = s.mem) ∧
      (c < 7 ∨ released = false ∨ (c ≠ 7 ∧ now.drained = false) → Answers (.warmStart t) s fun s' => s'.pwr = p ∧ KeepsBut [] s s')) ∧
    (p.due = none → Answers (.warmStart t) s fun s' => s'.pwr = p ∧ KeepsBut [] s s') ∧
    (p.start = none → idle (.startTimeout t) ∧ (∀ ok, idle (.readyPoint t ok)) ∧
      ∀ k ok f, k ≤ 10 → idle (.startStepEnd t k ok f)) ∧
    (∀ r, p.start = some r →
      let failed (k : Nat) (s' : State) := s'.get R.PWR_STAT_STEP_ERR = k ∧ dueIs (if r.cold then 5 else 6) s' ∧
        (r.cold = true → s'.get R.PWR_BOOTREC_PENDING = 0)
      (∀ k ok f, k ≤ 10 →
        (k = 0 ∨ r.ended.contains k = true ∨ (stepAfter k).all r.ended.contains = false → idle (.startStepEnd t k ok f)) ∧
        (k ≠ 0 → r.ended.contains k = false → (stepAfter k).all r.ended.contains = true →
          (ok = false → k = 1 ∨ k = 2 ∨ k = 4 → Does (.startStepEnd t k ok f) s (failed k)) ∧
          (ok = true ∨ (k ≠ 1 ∧ k ≠ 2 ∧ k ≠ 4) → now.stepRipe r.ended k = false → idle (.startStepEnd t k ok f)) ∧
          (ok = true ∨ (k ≠ 1 ∧ k ≠ 2 ∧ k ≠ 4) → now.stepRipe r.ended k = true → k ≠ 5 → Does (.startStepEnd t k ok f) s fun s' =>
            s'.pwr.start = some { r with ended := k :: r.ended } ∧
            (k = 1 → s'.get R.SYS_UID = f.uid % 2 ^ R.SYS_UID.width)) ∧
          (k = 5 → r.cold = false → (∀ x, p.image = some x → crc32 (s.readBytes x.1 x.2.1) = x.2.2 →
              Does (.startStepEnd t k ok f) s fun s' => s'.pwr.start = some { r with ended := k :: r.ended }) ∧
            (p.image = none → Does (.startStepEnd t k ok f) s (failed 5))) ∧
          (k = 5 → r.cold = true → s.get R.PWR_STAT_BOOTSRC = 2 →
            Does (.startStepEnd t k ok f) s fun s' =>
              (s.fwCheckImage f.img f.img.length = 0 →
                s'.pwr.start = some { r with ended := k :: r.ended } ∧ s'.pwr.image.isSome = true) ∧
              (s.fwCheckImage f.img f.img.length ≠ 0 → failed 5 s')))) ∧
      (let limit := if r.cold then 32000000000 else 1600000000
       let waits := r.cold && s.is R.PWR_STAT_DOWNLOAD && decide (r.step = 5)
       (now.tb < r.began + limit ∨ waits = true → idle (.startTimeout t)) ∧
       (r.began + limit ≤ now.tb → waits = false → Does (.startTimeout t) s (failed r.step))) ∧
      (∀ ok,
        ((List.range 10).all (fun k => r.ended.contains (k + 1)) = false → idle (.readyPoint t ok)) ∧
        ((List.range 10).all (fun k => r.ended.contains (k + 1)) = true → Does (.readyPoint t ok) s fun s' =>
          s'.get R.PWR_STAT_READY = 1 ∧ s'.get R.PWR_INT_STAT_READY = 1 ∧ s'.get R.PWR_STAT_STEP = 15 ∧
          s'.get R.PWR_READYT = (now.tb - r.began) / 16000 % 2 ^ 32 ∧ s'.pwr.start = none ∧
          s'.pwr.wdogAt = some now.tb ∧ s'.pwr.confirmAt = if r.cold then some now.tb else p.confirmAt)))

/-- A post is queued at its ring's next position when the Ledger takes it; refused, it is counted, DROP sets, and
a DROPPED record follows where an entry is free (R357, R356, R360, R364). Rests on the model's readings and
choices: log entry 181. -/
def Obligations.LedgerPostIsTakenWholeOrCounted : Prop :=
  ∀ (t ring typ sev block unit : Nat) (pay : List Byte) (s : State), ring < 4 →
    (s.ldgAccepts ring block = true → Does (.ledgerPost t ring typ sev block unit pay) s fun s' =>
      s'.ldg.queue = s.ldg.queue ++ [⟨ring, s.ldg.acc.getD ring 0,
        ldgBytes (s.at t) ring typ sev block unit (s.ldg.acc.getD ring 0 % 2 ^ 32) pay, 0⟩] ∧
      s'.ldg.acc = s.ldg.acc.set ring (s.ldg.acc.getD ring 0 + 1) ∧
      s'.get R.LDG_STAT_QUEUED = (s.ldg.queued + 1) % 2 ^ 7 ∧
      s'.get R.MLD_INT_STAT_QCHG = (if s.sheetQuiesced 11 then 1 else s.get R.MLD_INT_STAT_QCHG) ∧
      KeepsBut [R.LDG_STAT_QUEUED, R.MLD_INT_STAT_QCHG] s s' ∧ ∀ a, s'.byte a = s.byte a) ∧
    (s.ldgAccepts ring block = false → s.ldgAccepts 2 0x14 = false → Does (.ledgerPost t ring typ sev block unit pay) s fun s' =>
      s'.ldg.queue = s.ldg.queue ∧
      s'.get (R.LDG_RING_DROPS ring) = min (s.get (R.LDG_RING_DROPS ring) + 1) (2 ^ 32 - 1) ∧
      s'.get R.LDG_INT_STAT_DROP = 1 ∧
      KeepsBut [R.LDG_RING_DROPS ring, R.LDG_INT_STAT_DROP] s s' ∧ ∀ a, s'.byte a = s.byte a) ∧
    (s.ldgAccepts ring block = false → s.ldgAccepts 2 0x14 = true → s.ldg.drops.length = 4 →
      Does (.ledgerPost t ring typ sev block unit pay) s fun s' =>
      s'.ldg.drops = [0, 0, 0, 0] ∧ (∃ sev, sev < 256 ∧ s'.ldg.queue = s.ldg.queue ++ [⟨2, s.ldg.acc.getD 2 0,
        ldgBytes (s.at t) 2 3 sev 0x14 0 (s.ldg.acc.getD 2 0 % 2 ^ 32)
          ((upd s.ldg.drops ring (satInc 32 ·)).flatMap (leBytes 4 ·)), 0⟩]) ∧
      s'.get (R.LDG_RING_DROPS ring) = min (s.get (R.LDG_RING_DROPS ring) + 1) (2 ^ 32 - 1) ∧ s'.get R.LDG_INT_STAT_DROP = 1 ∧
      KeepsBut [R.LDG_RING_DROPS ring, R.LDG_INT_STAT_DROP, R.LDG_STAT_QUEUED, R.MLD_INT_STAT_QCHG] s s' ∧
      ∀ a, s'.byte a = s.byte a)

/-- GO queues the record that POST_HDR and POST_DATA describe, and refuses the safety ring to firmware (R355,
R357). Rests on the model's readings and choices: log entry 181. -/
def Obligations.FirmwarePostUsesThePostRegisters : Prop :=
  ∀ (t : Nat) (s : State),
    (s.get R.LDG_POST_HDR_RING ≠ 0 → s.ldgAccepts (s.get R.LDG_POST_HDR_RING) 0xFF = true → Does (.go t) s fun s' =>
      s'.ldg.queue = s.ldg.queue ++ [⟨
        s.get R.LDG_POST_HDR_RING, s.ldg.acc.getD (s.get R.LDG_POST_HDR_RING) 0,
        ldgBytes (s.at t) (s.get R.LDG_POST_HDR_RING) (s.get R.LDG_POST_HDR_TYPE) (s.get R.LDG_POST_HDR_SEV) 0xFF
          (s.get R.LDG_POST_HDR_UNIT) (s.ldg.acc.getD (s.get R.LDG_POST_HDR_RING) 0 % 2 ^ 32)
          ((List.range 10).flatMap fun w => leBytes 4 (s.get (R.LDG_POST_DATA w))), 0⟩] ∧
      KeepsBut [R.LDG_STAT_QUEUED, R.MLD_INT_STAT_QCHG] s s' ∧ ∀ a, s'.byte a = s.byte a) ∧
    (let r := s.get R.LDG_POST_HDR_RING
     r = 0 ∨ s.ldgAccepts r 0xFF = false →
     (s.ldgAccepts 2 0x14 = false → Does (.go t) s fun s' =>
      s'.ldg.queue = s.ldg.queue ∧ s'.get (R.LDG_RING_DROPS r) = min (s.get (R.LDG_RING_DROPS r) + 1) (2 ^ 32 - 1) ∧
      s'.get R.LDG_INT_STAT_DROP = 1 ∧ KeepsBut [R.LDG_RING_DROPS r, R.LDG_INT_STAT_DROP] s s' ∧
      ∀ a, s'.byte a = s.byte a) ∧
     (s.ldgAccepts 2 0x14 = true → s.ldg.drops.length = 4 → Does (.go t) s fun s' =>
      s'.ldg.drops = [0, 0, 0, 0] ∧ (∃ sev, sev < 256 ∧ s'.ldg.queue = s.ldg.queue ++ [⟨2, s.ldg.acc.getD 2 0,
        ldgBytes (s.at t) 2 3 sev 0x14 0 (s.ldg.acc.getD 2 0 % 2 ^ 32)
          ((upd s.ldg.drops r (satInc 32 ·)).flatMap (leBytes 4 ·)), 0⟩]) ∧
      s'.get (R.LDG_RING_DROPS r) = min (s.get (R.LDG_RING_DROPS r) + 1) (2 ^ 32 - 1) ∧ s'.get R.LDG_INT_STAT_DROP = 1 ∧
      KeepsBut [R.LDG_RING_DROPS r, R.LDG_INT_STAT_DROP, R.LDG_STAT_QUEUED, R.MLD_INT_STAT_QCHG] s s' ∧
      ∀ a, s'.byte a = s.byte a))

/-- The cursor commands place a port's cursor and make it busy; the copy ends in VALID or EMPTY; CLR_OVR clears
OVERRUN (R361, R362). Rests on the model's readings and choices: log entries 100, 181. -/
def Obligations.CursorCommandsPlaceTheCursor : Prop :=
  ∀ (t p : Nat) (s : State), p < 4 →
    let ring := s.get (R.LDG_RP_CUR_RING p)
    let n := s.ldg.n ring
    let placed (pos : Nat) (s' : State) : Prop :=
      s'.get (R.LDG_RP_STAT_BUSY p) = 1 ∧ s'.get (R.LDG_RP_CUR_INDEX p) = pos % n % 2 ^ 21 ∧
      s'.get (R.LDG_RP_GEN p) = pos / n % 2 ^ 32 ∧
      KeepsBut [R.LDG_RP_STAT_BUSY p, R.LDG_RP_CUR_INDEX p, R.LDG_RP_GEN p] s s' ∧ ∀ a, s'.byte a = s.byte a
    (Does (.cursorLoad t p) s fun s' => s'.get (R.LDG_RP_STAT_BUSY p) = 1 ∧
      KeepsBut [R.LDG_RP_STAT_BUSY p] s s' ∧ ∀ a, s'.byte a = s.byte a) ∧
    (n ≠ 0 → Does (.next t p) s (placed (s.get (R.LDG_RP_GEN p) * n + s.get (R.LDG_RP_CUR_INDEX p) + 1)) ∧
      Does (.newest t p) s (placed (s.ldg.wOf ring - 1)) ∧ Does (.oldest t p) s (placed (s.ldg.oldest ring))) ∧
    (Does (.clrOvr t p) s fun s' => s'.get (R.LDG_RP_STAT_OVERRUN p) = 0 ∧
      KeepsBut [R.LDG_RP_STAT_OVERRUN p] s s' ∧ ∀ a, s'.byte a = s.byte a) ∧
    (s.is (R.LDG_RP_STAT_BUSY p) = true → Does (.cursorCopyDone t p) s fun s' =>
      s'.get (R.LDG_RP_STAT_BUSY p) = 0 ∧
      (4 < ring ∨ s.ldg.wOf ring ≤ s.cursorPos p ∨ s.ldg.wOf ring ≤ s.ldg.oldest ring →
        s'.get (R.LDG_RP_STAT_EMPTY p) = 1 ∧ s'.get (R.LDG_RP_STAT_VALID p) = 0) ∧
      (ring ≤ 4 → s.cursorPos p < s.ldg.wOf ring → s.ldg.oldest ring < s.ldg.wOf ring →
        s'.get (R.LDG_RP_STAT_EMPTY p) = 0 ∧ s'.get (R.LDG_RP_STAT_VALID p) = 1 ∧
        ∀ w, w < 16 → s'.get (R.LDG_RP_WIN p w) =
          leAt (s.recordAt ring (max (s.cursorPos p) (s.ldg.oldest ring))) (4 * w) 4) ∧
      (ring ≤ 4 → s.cursorPos p < s.ldg.wOf ring → s.cursorPos p < s.ldg.oldest ring →
        s'.get (R.LDG_RP_STAT_OVERRUN p) = 1 ∧ s'.get (R.LDG_RP_LOST p) =
          min (s.get (R.LDG_RP_LOST p) + (s.ldg.oldest ring - s.cursorPos p)) (2 ^ 32 - 1)) ∧
      ∀ a, s'.byte a = s.byte a)

/-- A record that reads back equal is in its slot of the die, leaves the queue, and its ring's W advances (R359,
R353, R356, R365). Rests on the model's readings and choices: log entry 181. -/
def Obligations.RecordProgrammedLeavesTheQueue : Prop :=
  ∀ (t : Nat) (s : State) (r : LdgRec) (rest : List LdgRec), s.ldg.queue = r :: rest → r.ring < 4 →
    r.bytes.length = 64 → s.ldg.drops = [0, 0, 0, 0] → s.ldg.clears = [] → s.ldgHeld = false → s.is R.LDG_STAT_FAILED = false →
    s.ldg.w.length = 4 → s.ldg.n r.ring ≠ 0 →
    let base := 0x90000000 + s.ldg.dieOffset r.ring r.pos
    Does (.recordProgramDone t true) s fun s' =>
      s'.ldg.queue = rest ∧ s'.ldg.w = s.ldg.w.set r.ring (r.pos + 1) ∧
      s'.get (R.LDG_RING_HEAD r.ring) = (r.pos + 1) % s.ldg.n r.ring % 2 ^ 21 ∧
      s'.get (R.LDG_RING_GEN r.ring) = (r.pos + 1) / s.ldg.n r.ring % 2 ^ 32 ∧
      (∀ i (h : i < r.bytes.length), s'.byte (base + i) = r.bytes[i]) ∧
      (∀ a, a < base ∨ base + 64 ≤ a → s'.byte a = s.byte a) ∧
      KeepsBut [R.LDG_STAT_QUEUED, R.LDG_RING_HEAD r.ring, R.LDG_RING_GEN r.ring] s s'

/-- RINGS and ERASE act only under the seal; without it they answer with an error and change no register and no
byte (R363, R9). Rests on the model's readings and choices: log entries 20, 100, 157, 181. -/
def Obligations.LedgerClearsOnlyUnderTheSeal : Prop :=
  ∀ (t rings : Nat) (s : State),
    (s.sealOn = false →
      (Does (.rings t rings) s fun s' =>
        s'.resp.err = true ∧ s'.ldg = s.ldg ∧ KeepsBut [] s s' ∧ ∀ a, s'.byte a = s.byte a) ∧
      (Does (.erase t) s fun s' =>
        s'.resp.err = true ∧ s'.ldg = s.ldg ∧ KeepsBut [] s s' ∧ ∀ a, s'.byte a = s.byte a)) ∧
    (s.sealOn = true →
      (rings % 16 ≠ 0 → Does (.rings t rings) s fun s' =>
        s'.resp.err = false ∧ s'.get R.LDG_INT_STAT_CLEARED = 1 ∧ s'.get R.LDG_CLR = rings % 16 ∧
        (∀ r, r < 4 → s.ldg.floor.length = 4 →
          s'.ldg.floor.getD r 0 = if bit rings r then s.ldg.w.getD r 0 else s.ldg.floor.getD r 0) ∧
        (s.ldg.clears = [] → s.ldg.queued ≤ 60 → s'.ldg.clears = [] ∧ s'.ldg.queue.map (·.ring) =
          s.ldg.queue.map (·.ring) ++ (List.range 4).filter (bit rings ·)) ∧
        (s.ldg.clears = [] → 64 ≤ s.ldg.queued → s'.ldg.queue = s.ldg.queue ∧
          s'.ldg.clears.map (·.1) = (List.range 4).filter (bit rings ·)) ∧ ∀ a, s'.byte a = s.byte a) ∧
      (Does (.erase t) s fun s' =>
        s'.resp.err = false ∧ s'.get R.LDG_STAT_ERASING = 1 ∧ s'.get R.LDG_CLR = 31 ∧
        KeepsBut [R.LDG_CLR, R.LDG_STAT_ERASING] s s' ∧ ∀ a, s'.byte a = s.byte a)) ∧
    (s.is R.LDG_STAT_ERASING = false → ∀ ok, Does (.eraseDone t ok) s fun s' =>
      s'.ldg = s.ldg ∧ KeepsBut [] s s' ∧ ∀ a, s'.byte a = s.byte a) ∧
    (s.is R.LDG_STAT_ERASING = true → Does (.eraseDone t true) s fun s' =>
      s'.get R.LDG_STAT_ERASING = 0 ∧ s'.get R.LDG_INT_STAT_ERASE_DONE = 1 ∧ s'.get R.PWR_KA_LDG_FAIL = 0 ∧
      s'.get R.LDG_STAT_FAILED = 0 ∧ s'.ldg.w = [0, 0, 0, 0] ∧ s'.ldg.floor = [0, 0, 0, 0] ∧ s'.ldg.resW = 0 ∧ s'.ldg.reserve = [] ∧
      (∀ a, 0x92800000 ≤ a → a < 0x98000000 → s'.byte a = 0) ∧
      ∀ a, a < 0x92800000 ∨ 0x98000000 ≤ a → s'.byte a = s.byte a)

/-- Engine tests count, fail and starve; heat, life and requests raise reasons; a firmware command is checked
first and writes its slot last (R367, R368, R370, R371, R373). Rests on the model's readings and choices: log
entries 102, 103, 110. -/
def Obligations.HealthTestsReasonsAndFirmware : Prop :=
  ∀ (t : Nat) (s : State), s.hlt.tests.length = 8 → s.engs.length = 8 →
    let now := s.at t
    let reason (k : Nat) (s' : State) := bit (s'.get R.HLT_REPLACE_REASONS) k = true
    (∀ n same, n < 8 →
      (s.tested n = false ∨ now.pieceFits n = false → Does (.engineTestPiece t n same) s fun s' => s'.hlt = s.hlt ∧ KeepsBut [] s s') ∧
      (s.tested n = true → now.pieceFits n = true →
        ((s.engTest n).pieces < 255 → Does (.engineTestPiece t n same) s fun s' =>
          s'.engTest n = { s.engTest n with pieces := (s.engTest n).pieces + 1, last := now.tb } ∧ KeepsBut [] s s') ∧
        (255 ≤ (s.engTest n).pieces → same = true → Does (.engineTestPiece t n same) s fun s' =>
          s'.engTest n = { from_ := (s.engTest n).from_ + s.testInt, pieces := 0, last := now.tb } ∧
          s'.get R.HLT_TEST_COUNT = (s.get R.HLT_TEST_COUNT + 1) % 2 ^ R.HLT_TEST_COUNT.width ∧
          bit (s'.get R.HLT_TEST_STARVED) n = false ∧ KeepsBut [R.HLT_TEST_COUNT, R.HLT_TEST_STARVED] s s') ∧
        (255 ≤ (s.engTest n).pieces → same = false → Does (.engineTestPiece t n same) s fun s' =>
          s'.get R.HLT_INT_STAT_TEST_FAIL = 1 ∧ s'.get (R.CE_FAULT_TEST n) = 1 ∧ s'.get R.HLT_TEST_COUNT = s.get R.HLT_TEST_COUNT ∧
          reason 3 s'))) ∧
    (∀ n, n < 8 →
      (s.tested n = true → (s.engTest n).from_ + s.testInt ≤ now.tb → Does (.engineTestStarved t n) s fun s' =>
        bit (s'.get R.HLT_TEST_STARVED) n = true ∧ s'.engTest n = { from_ := now.tb, pieces := 0, last := now.tb } ∧
        KeepsBut [R.HLT_TEST_STARVED] s s') ∧
      (s.tested n = false ∨ now.tb < (s.engTest n).from_ + s.testInt → Does (.engineTestStarved t n) s fun s' =>
        s'.hlt = s.hlt ∧ KeepsBut [] s s')) ∧
    (∀ temp, Does (.temperatureSample t temp) s fun s' =>
      let v := s.hlt.life + lifeRate temp
      let hour := 3600000 * 2 ^ 40
      s'.get R.HLT_TEMP = ofS 16 (satS 16 temp) ∧
      s'.hlt.hot = (if 16000 < temp then some (s.hlt.hot.getD now.tb) else none) ∧
      s'.hlt.life = v % hour ∧ s'.get R.HLT_LIFE = min (s.get R.HLT_LIFE + v / hour) (2 ^ 32 - 1) ∧
      (262800 ≤ s.get R.HLT_LIFE + v / hour → reason 12 s')) ∧
    (∀ x, s.hlt.hot = some x → x + 16000000000 ≤ now.tb → Does (.thermalExpiry t) s fun s' => reason 13 s' ∧ s'.hlt = s.hlt) ∧
    ((∀ x, s.hlt.hot = some x → now.tb < x + 16000000000) → Does (.thermalExpiry t) s fun s' => s'.hlt = s.hlt ∧ KeepsBut [] s s') ∧
    (∀ l, l < 2 → s.is R.TWN_CTL_EN = true → bit (s.get R.TWN_STAT_LANES) l = false →
      s.twn.downAt.getD l 0 + 960000000000 ≤ now.tb → Does (.twinLinkReasonExpiry t) s fun s' => reason 11 s') ∧
    (s.is R.TWN_CTL_EN = false ∨ s.get R.TWN_STAT_LANES % 4 = 3 → Does (.twinLinkReasonExpiry t) s fun s' => KeepsBut [] s s') ∧
    (Does (.req t) s fun s' => reason 15 s' ∧ s'.hlt = s.hlt ∧ (s.get R.HLT_REPLACE = 0 → s'.get R.HLT_REPLACE_FIRST = 15)) ∧
    (∀ slot, slot < 2 →
      let ok := s.stageOk (s.get R.HLT_FW_STAGE_BASE) (s.get R.HLT_FW_STAGE_LEN)
      let fails (c : Instr) (e : Nat) := Does c s fun s' => s'.get R.HLT_FW_STAT_ERR = e ∧ s'.get R.HLT_INT_STAT_FW_ERR = 1 ∧
        s'.hlt = s.hlt ∧ ∀ a, s'.byte a = s.byte a
      (s.is R.HLT_FW_STAT_BUSY = true → fails (.program t slot) 8 ∧ fails (.fwCheck t slot) 8 ∧ fails (.programIsland t slot) 8) ∧
      (s.is R.HLT_FW_STAT_BUSY = false →
        (slot = b2n Config.goldenSlot → s.sealOn = false → fails (.program t slot) 6) ∧
        (slot ≠ b2n Config.goldenSlot ∨ s.sealOn = true → ok = false → fails (.program t slot) 7) ∧
        (slot ≠ b2n Config.goldenSlot ∨ s.sealOn = true → ok = true → Does (.program t slot) s fun s' =>
          s'.get R.HLT_FW_STAT_BUSY = 1 ∧
          s'.hlt.fw = some ⟨1, slot, s.fwCheckImage s.fwStaged (s.get R.HLT_FW_STAGE_LEN), s.fwStaged.take (leAt s.fwStaged 8 4)⟩ ∧
          KeepsBut [R.HLT_FW_STAT_BUSY] s s' ∧
          ∀ a, a < 0x90000000 + 0x1000000 * slot ∨ 0x90000004 + 0x1000000 * slot ≤ a → s'.byte a = s.byte a) ∧
        (Does (.fwCheck t slot) s fun s' => s'.get R.HLT_FW_STAT_BUSY = 1 ∧
          s'.hlt.fw = some ⟨2, slot, s.fwCheckImage (s.fwStored slot) 0x1000000, []⟩ ∧ KeepsBut [R.HLT_FW_STAT_BUSY] s s' ∧
          ∀ a, s'.byte a = s.byte a) ∧
        (s.sealOn = false → fails (.programIsland t slot) 6) ∧
        (s.sealOn = true → ok = false → fails (.programIsland t slot) 7) ∧
        (s.sealOn = true → ok = true → Does (.programIsland t slot) s fun s' => s'.get R.HLT_FW_STAT_BUSY = 1 ∧
          s'.hlt.fw = some ⟨3, slot, if 0x100000 < s.get R.HLT_FW_STAGE_LEN then 1 else 0, s.fwStaged⟩ ∧
          KeepsBut [R.HLT_FW_STAT_BUSY] s s' ∧
          ∀ a, s'.byte a = s.byte a))) ∧
    (∀ same isle,
      (s.hlt.fw = none → Does (.fwCommandEnd t same isle) s fun s' => s'.hlt = s.hlt ∧ KeepsBut [] s s' ∧ ∀ a, s'.byte a = s.byte a) ∧
      (∀ c, s.hlt.fw = some c → c.slot < 2 → 1 ≤ c.op ∧ c.op ≤ 3 → c.err < 16 →
        (c.err ≠ 0 → Does (.fwCommandEnd t same isle) s fun s' => s'.get R.HLT_FW_STAT_BUSY = 0 ∧ s'.hlt.fw = none ∧
          s'.get R.HLT_FW_STAT_ERR = c.err ∧ s'.get R.HLT_INT_STAT_FW_ERR = 1 ∧ ∀ a, s'.byte a = s.byte a) ∧
        (c.err = 0 → c.op = 2 → Does (.fwCommandEnd t same isle) s fun s' => s'.get R.HLT_FW_STAT_BUSY = 0 ∧
          s'.hlt.fw = none ∧ s'.get R.HLT_FW_STAT_ERR = 0 ∧ s'.get R.HLT_INT_STAT_FW_DONE = 1 ∧ ∀ a, s'.byte a = s.byte a) ∧
        (c.err = 0 → c.op = 3 → isle ≠ 0 → isle < 16 → Does (.fwCommandEnd t same isle) s fun s' => s'.hlt.fw = none ∧
          s'.get R.HLT_FW_STAT_ERR = isle ∧ s'.get R.HLT_INT_STAT_FW_ERR = 1 ∧ ∀ a, s'.byte a = s.byte a) ∧
        (c.err = 0 → c.op = 1 ∨ c.op = 3 ∧ isle = 0 →
          let at_ := if c.op = 3 then 0x92400000 + 0x100000 * c.slot else 0x90000000 + 0x1000000 * c.slot
          (same = true → Does (.fwCommandEnd t same isle) s fun s' => s'.get R.HLT_FW_STAT_BUSY = 0 ∧ s'.hlt.fw = none ∧
            s'.get R.HLT_FW_STAT_ERR = 0 ∧ s'.get R.HLT_INT_STAT_FW_DONE = 1 ∧ s'.readBytes at_ c.img.length = c.img ∧
            ∀ a, a < at_ ∨ at_ + c.img.length ≤ a → s'.byte a = s.byte a) ∧
          (same = false → 0 < c.img.length → Does (.fwCommandEnd t same isle) s fun s' => s'.hlt.fw = none ∧
            s'.get R.HLT_FW_STAT_ERR = 9 ∧ s'.get R.HLT_INT_STAT_FW_ERR = 1 ∧
            ∀ a, a < at_ ∨ at_ + c.img.length ≤ a → s'.byte a = s.byte a))))

/-- GPIO edges set their selected bits; the UART's queues take, send and give bytes in order; a claim gives the
best source (R381, R384, R385, R409, R410). Rests on the model's readings and choices: log entries 37, 38, 84. -/
def Obligations.PinsUartAndInterruptClaims : Prop :=
  ∀ (t : Nat) (s : State),
    (∀ n level, n < 24 → Does (.gpioEdge t n level) s fun s' =>
      bit (s'.get R.PIN_GPIO_IN) n = level ∧ (∀ k, k < 24 → k ≠ n → bit (s'.get R.PIN_GPIO_IN) k = bit (s.get R.PIN_GPIO_IN) k) ∧
      (∀ k, k < 24 → bit (s'.get R.PIN_GPIO_INT_STAT) k = (bit (s.get R.PIN_GPIO_INT_STAT) k ||
        decide (k = n) && bit (s.get R.PIN_GPIO_IN) n != level && bit (s.get (R.PIN_GPIO_CFG_EDGE n)) (if level then 0 else 1))) ∧
      KeepsBut [R.PIN_GPIO_IN, R.PIN_GPIO_INT_STAT] s s') ∧
    (∀ n level, n < 24 → s.held = true → Answers (.gpioEdge t n level) s fun s' =>
      bit (s'.get R.PIN_GPIO_IN) n = level ∧ KeepsBut [R.PIN_GPIO_IN] s s') ∧
    (∀ b,
      (s.pins.tx.length < 16 → Does (.uartTxWrite t b) s fun s' =>
        s'.pins = { s.pins with tx := s.pins.tx ++ [b % 256] } ∧ s'.get R.PIN_UART_STAT_TXFREE = 15 - s.pins.tx.length ∧
        KeepsBut [R.PIN_UART_STAT_TXFREE, R.PIN_UART_STAT_RXCOUNT] s s') ∧
      (16 ≤ s.pins.tx.length → Does (.uartTxWrite t b) s fun s' => s'.pins = s.pins ∧ s'.get R.PIN_UART_STAT_TX_OVF = 1 ∧
        KeepsBut [R.PIN_UART_STAT_TX_OVF] s s') ∧
      (∀ stop, s.pins.rx.length < 16 → Does (.uartReceive t b stop) s fun s' =>
        s'.pins = { s.pins with rx := s.pins.rx ++ [b % 256] } ∧ s'.get R.PIN_UART_STAT_RXCOUNT = s.pins.rx.length + 1 ∧
        s'.get R.PIN_UART_STAT_FRAME = (if stop then s.get R.PIN_UART_STAT_FRAME else 1) ∧
        KeepsBut [R.PIN_UART_STAT_TXFREE, R.PIN_UART_STAT_RXCOUNT, R.PIN_UART_STAT_FRAME] s s') ∧
      (∀ stop, 16 ≤ s.pins.rx.length → Does (.uartReceive t b stop) s fun s' => s'.pins = s.pins ∧
        s'.get R.PIN_UART_STAT_RX_OVF = 1 ∧ s'.get R.PIN_UART_STAT_FRAME = (if stop then s.get R.PIN_UART_STAT_FRAME else 1) ∧
        KeepsBut [R.PIN_UART_STAT_RX_OVF, R.PIN_UART_STAT_FRAME] s s')) ∧
    (Does (.uartByteSent t) s fun s' => s'.pins = { s.pins with tx := s.pins.tx.drop 1 } ∧
      s'.get R.PIN_UART_STAT_TXFREE = 16 - (s.pins.tx.length - 1) ∧
      KeepsBut [R.PIN_UART_STAT_TXFREE, R.PIN_UART_STAT_RXCOUNT] s s') ∧
    (Does (.uartRxRead t) s fun s' => s'.pins = { s.pins with rx := s.pins.rx.drop 1 } ∧ s'.resp = { data := s.pins.rx.headD 0 } ∧
      s'.get R.PIN_UART_STAT_RXCOUNT = (s.pins.rx.length - 1) % 32 ∧
      KeepsBut [R.PIN_UART_STAT_TXFREE, R.PIN_UART_STAT_RXCOUNT] s s') ∧
    (∀ ir trst, ir < 7 → Answers (.jtagInstruction t ir trst) s fun s' =>
      (s'.pins.jtag = 1 → s'.tapData = some 0x148602F5) ∧
      s'.pins = { s.pins with jtag := if trst then 1 else if 4 ≤ ir ∧ s.pwr.porst = false then 0 else ir } ∧ KeepsBut [] s s') ∧
    (∀ k, k < 4 →
      let u := (s.at t).upToDate
      (∀ n, n < 256 → u.eligible k n = true → (∀ m, m < 256 → u.eligible k m = true →
          u.get (R.IRQ_SRC_CFG_PRIO m) < u.get (R.IRQ_SRC_CFG_PRIO n) ∨
          u.get (R.IRQ_SRC_CFG_PRIO m) = u.get (R.IRQ_SRC_CFG_PRIO n) ∧ n ≤ m) → Does (.irqClaim t k) s fun s' =>
        s'.resp = { data := n } ∧ s'.get (R.IRQ_SRC_CFG_CLAIMED n) = 1 ∧ s'.get (R.IRQ_SRC_CFG_BY n) = k ∧
        KeepsBut [R.IRQ_SRC_CFG_CLAIMED n, R.IRQ_SRC_CFG_BY n] s s') ∧
      ((∀ m, m < 256 → u.eligible k m = false) → Does (.irqClaim t k) s fun s' => s'.resp = {} ∧ KeepsBut [] s s') ∧
      ((s.at t).irqLine k = true ↔ ∃ m, m < 256 ∧ u.eligible k m = true) ∧
      (∀ n, n < 256 →
        (s.is (R.IRQ_SRC_CFG_CLAIMED n) = true → s.get (R.IRQ_SRC_CFG_BY n) = k → Does (.irqComplete t k n) s fun s' =>
          s'.get (R.IRQ_SRC_CFG_CLAIMED n) = 0 ∧ s'.get (R.IRQ_SRC_CFG_BY n) = 0 ∧
          KeepsBut [R.IRQ_SRC_CFG_CLAIMED n, R.IRQ_SRC_CFG_BY n] s s') ∧
        (s.is (R.IRQ_SRC_CFG_CLAIMED n) = false ∨ s.get (R.IRQ_SRC_CFG_BY n) ≠ k → Does (.irqComplete t k n) s fun s' =>
          KeepsBut [] s s')))
end

