-- ==== Sys2Proof/Laws/Bits.lean ====
section
/-!
SUPPORT. Laws of bit fields: a field written is read back, a field elsewhere keeps its value.
-/

namespace Sys2Proof.Machine

@[simp] theorem bits_zero_left (lsb w : Nat) : bits 0 lsb w = 0 := by simp [bits]

theorem bits_lt (v lsb w : Nat) : bits v lsb w < 2 ^ w := Nat.mod_lt _ (Nat.two_pow_pos w)

theorem testBit_bits (v lsb w i : Nat) : (bits v lsb w).testBit i = (decide (i < w) && v.testBit (lsb + i)) := by
  simp [bits, Nat.testBit_mod_two_pow, Nat.testBit_shiftRight]

/-- A number as the part above a field, the field, and the part below it. -/
theorem bits_split (v lsb w : Nat) : v = v % 2 ^ lsb + 2 ^ lsb * (bits v lsb w + 2 ^ w * (v / 2 ^ (lsb + w))) := by
  have h1 := Nat.mod_add_div v (2 ^ lsb)
  have h2 := Nat.mod_add_div (v / 2 ^ lsb) (2 ^ w)
  rw [bits, Nat.shiftRight_eq_div_pow, pow_add, ← Nat.div_div_eq_div_mul, h2, h1]

/-- What `setBits` makes: the same parts around the new field. -/
theorem setBits_eq (v lsb w x : Nat) :
    setBits v lsb w x = v % 2 ^ lsb + 2 ^ lsb * (x % 2 ^ w + 2 ^ w * (v / 2 ^ (lsb + w))) := by
  have h := bits_split v lsb w
  have h' : v = v % 2 ^ lsb + (2 ^ lsb * bits v lsb w + 2 ^ lsb * (2 ^ w * (v / 2 ^ (lsb + w)))) := by
    rw [← Nat.mul_add]; exact h
  simp only [setBits, Nat.shiftLeft_eq, Nat.mul_comm _ (2 ^ lsb), Nat.mul_add] at *
  omega

/-- A field written reads as what was written, modulo its width. -/
@[simp] theorem bits_setBits_same (v lsb w x : Nat) : bits (setBits v lsb w x) lsb w = x % 2 ^ w := by
  have h : v % 2 ^ lsb < 2 ^ lsb := Nat.mod_lt _ (Nat.two_pow_pos _)
  rw [setBits_eq, bits, Nat.shiftRight_eq_div_pow, Nat.add_mul_div_left _ _ (Nat.two_pow_pos _),
    Nat.div_eq_of_lt h, Nat.zero_add, Nat.add_mul_mod_self_left, Nat.mod_mod]

theorem testBit_setBits (v lsb w x i : Nat) : (setBits v lsb w x).testBit i =
    if lsb ≤ i ∧ i < lsb + w then x.testBit (i - lsb) else v.testBit i := by
  have h : v % 2 ^ lsb < 2 ^ lsb := Nat.mod_lt _ (Nat.two_pow_pos _)
  have hx : x % 2 ^ w < 2 ^ w := Nat.mod_lt _ (Nat.two_pow_pos _)
  rw [setBits_eq, Nat.add_comm (v % 2 ^ lsb), Nat.testBit_two_pow_mul_add _ h, Nat.add_comm (x % 2 ^ w),
    Nat.testBit_two_pow_mul_add _ hx]
  by_cases h1 : i < lsb
  · have : ¬ (lsb ≤ i) := by omega
    simp [h1, this, Nat.testBit_mod_two_pow]
  · by_cases h2 : i - lsb < w
    · have h3 : lsb ≤ i ∧ i < lsb + w := by omega
      simp [h1, h2, h3, Nat.testBit_mod_two_pow]
    · have h3 : ¬ (lsb ≤ i ∧ i < lsb + w) := by omega
      have h4 : lsb + w + (i - lsb - w) = i := by omega
      simp [h1, h2, h3, ← Nat.shiftRight_eq_div_pow, Nat.testBit_shiftRight, h4]

/-- A field that shares no bit with the one written keeps its value. -/
theorem bits_setBits_disjoint (v lsb w x l' w' : Nat) (h : lsb + w ≤ l' ∨ l' + w' ≤ lsb) :
    bits (setBits v lsb w x) l' w' = bits v l' w' := by
  apply Nat.eq_of_testBit_eq
  intro i
  rw [testBit_bits, testBit_bits, testBit_setBits]
  by_cases hi : i < w'
  · have : ¬ (lsb ≤ l' + i ∧ l' + i < lsb + w) := by omega
    simp [this]
  · simp [hi]

theorem setBits_lt {v lsb w x n : Nat} (hv : v < 2 ^ n) (h : lsb + w ≤ n) : setBits v lsb w x < 2 ^ n := by
  apply Nat.lt_pow_two_of_testBit
  intro i hi
  rw [testBit_setBits]
  have : ¬ (lsb ≤ i ∧ i < lsb + w) := by omega
  simp [this, Nat.testBit_lt_two_pow (Nat.lt_of_lt_of_le hv (Nat.pow_le_pow_right (by omega) hi))]

end Sys2Proof.Machine
end

