-- ==== Sys2Proof/Laws/Sparse.lean ====
section
/-!
SUPPORT. Laws of the sparse maps: a read after a write, every other address, and the canonical form.
-/

namespace Sys2Proof.Machine

variable {α : Type}

/-- An entry put in by `sins` hides every other entry of its address. -/
theorem sget_sins_eq (d : Nat → α) (l : List (Nat × α)) (a : Nat) (x : α) : sget d (sins l a x) a = x := by
  induction l with
  | nil => simp [sins, sget]
  | cons e l ih =>
    by_cases hk : a ≤ e.1
    · simp [sins, sget, hk]
    · have : e.1 ≠ a := by omega
      simp [sins, sget, hk, this, ih]

theorem sget_sins_ne (d : Nat → α) (l : List (Nat × α)) (a b : Nat) (x : α) (h : b ≠ a) :
    sget d (sins l a x) b = sget d l b := by
  induction l with
  | nil => simp [sins, sget, Ne.symm h]
  | cons e l ih => by_cases hk : a ≤ e.1 <;> simp [sins, sget, hk, Ne.symm h, ih]

theorem sget_filter_in (d : Nat → α) (p : Nat → Bool) (l : List (Nat × α)) (b : Nat) (h : p b = true) :
    sget d (l.filter fun e => p e.1) b = sget d l b := by
  induction l with
  | nil => rfl
  | cons e l ih =>
    by_cases hp : p e.1 = true
    · simp [sget, hp, ih]
    · have : e.1 ≠ b := fun he => hp (he ▸ h)
      simp [sget, hp, ih, this]

theorem sget_filter_out (d : Nat → α) (p : Nat → Bool) (l : List (Nat × α)) (b : Nat) (h : p b = false) :
    sget d (l.filter fun e => p e.1) b = d b := by
  induction l with
  | nil => rfl
  | cons e l ih =>
    by_cases hp : p e.1 = true
    · have : e.1 ≠ b := fun he => by simp [he, h] at hp
      simp [sget, hp, ih, this]
    · simp [hp, ih]

/-- A write is read back. -/
theorem sget_sset_same [DecidableEq α] (d : Nat → α) (l : List (Nat × α)) (a : Nat) (x : α) :
    sget d (sset d l a x) a = x := by
  unfold sset
  split
  · next h => rw [sget_filter_out d (fun k => decide (k ≠ a)) l a (by simp), h]
  · exact sget_sins_eq ..

/-- A write leaves every other address as it was. -/
theorem sget_sset_ne [DecidableEq α] (d : Nat → α) (l : List (Nat × α)) (a b : Nat) (x : α) (h : b ≠ a) :
    sget d (sset d l a x) b = sget d l b := by
  unfold sset
  split
  · exact sget_filter_in d (fun k => decide (k ≠ a)) l b (by simpa using h)
  · rw [sget_sins_ne d _ a b x h]
    exact sget_filter_in d (fun k => decide (k ≠ a)) l b (by simpa using h)

theorem sget_foldr_sins (d : Nat → α) (m : List (Nat × α)) (l : List (Nat × α)) (b : Nat) :
    sget d (l.foldr (fun e l => sins l e.1 e.2) m) b = sget (sget d m) l b := by
  induction l with
  | nil => rfl
  | cons e l ih =>
    by_cases hb : e.1 = b
    · subst hb; simp [sget, sget_sins_eq]
    · simp [sget, hb, sget_sins_ne d _ _ b _ (Ne.symm hb), ih]

/-- Within `p`, the mix reads as the new map. -/
theorem sget_smix_in (d : Nat → α) (p : Nat → Bool) (old new : List (Nat × α)) (b : Nat) (h : p b = true) :
    sget d (smix p old new) b = sget d new b := by
  unfold smix
  rw [sget_foldr_sins, sget_filter_out _ (fun k => !p k) old b (by simp [h])]
  exact sget_filter_in d p new b h

theorem sget_default_congr (d d' : Nat → α) (l : List (Nat × α)) (b : Nat) (h : d b = d' b) :
    sget d l b = sget d' l b := by
  induction l with
  | nil => exact h
  | cons e l ih => simp [sget, ih]

/-- Outside `p`, the mix reads as the old map. -/
theorem sget_smix_out (d : Nat → α) (p : Nat → Bool) (old new : List (Nat × α)) (b : Nat) (h : p b = false) :
    sget d (smix p old new) b = sget d old b := by
  unfold smix
  rw [sget_foldr_sins, sget_default_congr _ d _ b (sget_filter_out d p new b h)]
  exact sget_filter_in d (fun k => !p k) old b (by simp [h])

/-! ### The canonical form -/

theorem rising_iff_pairwise (l : List (Nat × α)) : rising l = true ↔ l.Pairwise fun a b => a.1 < b.1 := by
  induction l with
  | nil => simp [rising]
  | cons e l ih =>
    cases l with
    | nil => simp [rising]
    | cons e' l =>
      rw [List.pairwise_cons, ← ih]
      simp only [rising, Bool.and_eq_true, decide_eq_true_eq, List.mem_cons, forall_eq_or_imp]
      constructor
      · rintro ⟨h, hr⟩
        refine ⟨⟨h, fun x hx => ?_⟩, hr⟩
        have := (List.pairwise_cons.mp (ih.mp hr)).1 x hx
        omega
      · rintro ⟨⟨h, _⟩, hr⟩
        exact ⟨h, hr⟩

theorem swf_iff [DecidableEq α] (d : Nat → α) (l : List (Nat × α)) :
    swf d l = true ↔ (l.Pairwise fun a b => a.1 < b.1) ∧ ∀ e ∈ l, e.2 ≠ d e.1 := by
  simp [swf, rising_iff_pairwise]

theorem mem_sins {l : List (Nat × α)} {a : Nat} {x : α} {e : Nat × α} : e ∈ sins l a x ↔ e = (a, x) ∨ e ∈ l := by
  induction l with
  | nil => simp [sins]
  | cons b l ih =>
    by_cases hk : a ≤ b.1
    · simp [sins, hk]
    · simp [sins, hk, ih]; tauto

theorem swf_filter [DecidableEq α] (d : Nat → α) (p : Nat × α → Bool) {l : List (Nat × α)} (h : swf d l = true) :
    swf d (l.filter p) = true := by
  rw [swf_iff] at *
  exact ⟨h.1.sublist List.filter_sublist, fun e he => h.2 e (List.mem_of_mem_filter he)⟩

theorem swf_sins [DecidableEq α] (d : Nat → α) {l : List (Nat × α)} {a : Nat} {x : α} (h : swf d l = true)
    (ha : ∀ e ∈ l, e.1 ≠ a) (hx : x ≠ d a) : swf d (sins l a x) = true := by
  rw [swf_iff] at *
  refine ⟨?_, fun e he => ?_⟩
  · obtain ⟨hr, -⟩ := h
    induction l with
    | nil => simp [sins]
    | cons b l ih =>
      have hb := ha b (by simp)
      rw [List.pairwise_cons] at hr
      by_cases hk : a ≤ b.1
      · simp only [sins, hk, if_true, List.pairwise_cons]
        refine ⟨fun e he => ?_, hr⟩
        rcases List.mem_cons.mp he with rfl | he
        · simp; omega
        · have := hr.1 e he; simp; omega
      · simp only [sins, hk, if_false, List.pairwise_cons]
        refine ⟨fun e he => ?_, ih (fun e he => ha e (by simp [he])) hr.2⟩
        rcases mem_sins.mp he with rfl | he
        · simp; omega
        · exact hr.1 e he
  · rcases mem_sins.mp he with rfl | he
    · exact hx
    · exact h.2 e he

/-- A write keeps the canonical form. -/
theorem swf_sset [DecidableEq α] (d : Nat → α) {l : List (Nat × α)} (a : Nat) (x : α) (h : swf d l = true) :
    swf d (sset d l a x) = true := by
  unfold sset
  have hf := swf_filter d (fun e => decide (e.1 ≠ a)) h
  split
  · exact hf
  · next hx => exact swf_sins d hf (fun e he => by simpa using (List.of_mem_filter he)) hx

theorem swf_foldr_sins [DecidableEq α] (d : Nat → α) {m : List (Nat × α)} :
    ∀ {l : List (Nat × α)}, swf d m = true → swf d l = true → (∀ e ∈ l, ∀ f ∈ m, f.1 ≠ e.1) →
      swf d (l.foldr (fun e l => sins l e.1 e.2) m) = true ∧
        ∀ f ∈ l.foldr (fun e l => sins l e.1 e.2) m, f ∈ l ∨ f ∈ m
  | [], hm, _, _ => ⟨hm, fun f hf => .inr hf⟩
  | e :: l, hm, hl, hd => by
    have hl' := (swf_iff d _).mp hl
    rw [List.pairwise_cons] at hl'
    have hlw : swf d l = true := (swf_iff d _).mpr ⟨hl'.1.2, fun e he => hl'.2 e (by simp [he])⟩
    obtain ⟨h1, h2⟩ := swf_foldr_sins d hm hlw (fun e he => hd e (by simp [he]))
    constructor
    · refine swf_sins d h1 (fun f hf => ?_) (hl'.2 e (by simp))
      rcases h2 f hf with hf | hf
      · have := hl'.1.1 f hf; omega
      · exact hd e (by simp) f hf
    · intro f hf
      rcases mem_sins.mp hf with rfl | hf
      · simp
      · rcases h2 f hf with hf | hf
        · simp [hf]
        · exact .inr hf

/-- A mix of two canonical maps is canonical. -/
theorem swf_smix [DecidableEq α] (d : Nat → α) (p : Nat → Bool) {old new : List (Nat × α)} (ho : swf d old = true)
    (hn : swf d new = true) : swf d (smix p old new) = true := by
  refine (swf_foldr_sins d (swf_filter d _ hn) (swf_filter d _ ho) ?_).1
  intro e he f hf heq
  have h1 := List.of_mem_filter he
  have h2 := List.of_mem_filter hf
  simp [heq] at h2
  simp [h2] at h1

end Sys2Proof.Machine
end

