-- ==== Sys2Proof/Laws/Regs.lean ====
section
/-!
SUPPORT. Laws of the registers: a word or a field written is read back, and every word and field apart from it keeps its
value.
-/

namespace Sys2Proof.Machine

theorem regWord_lt (r : List (Nat × Word)) (a : Nat) : regWord r a < 2 ^ 32 := (sget resetWord r a).isLt

@[simp] theorem regWord_regSet_same (r : List (Nat × Word)) (a v : Nat) : regWord (regSet r a v) a = v % 2 ^ 32 := by
  simp [regWord, regSet, sget_sset_same]

theorem regWord_regSet_ne (r : List (Nat × Word)) {a b : Nat} (v : Nat) (h : b ≠ a) : regWord (regSet r a v) b = regWord r b := by
  simp [regWord, regSet, sget_sset_ne _ _ _ _ _ h]

theorem regWord_regSet (r : List (Nat × Word)) (a b v : Nat) :
    regWord (regSet r a v) b = if b = a then v % 2 ^ 32 else regWord r b := by
  split
  · next h => rw [h, regWord_regSet_same]
  · next h => exact regWord_regSet_ne r v h

/-- Two fields share no bit: as ranges of bits of the register map, one ends before the other begins. -/
abbrev RF.apart (f g : RF) : Prop :=
  8 * f.addr + f.lsb + f.width ≤ 8 * g.addr + g.lsb ∨ 8 * g.addr + g.lsb + g.width ≤ 8 * f.addr + f.lsb

theorem testBit_regWord (r : List (Nat × Word)) (a i : Nat) (h : 32 ≤ i) : (regWord r a).testBit i = false :=
  Nat.testBit_lt_two_pow (Nat.lt_of_lt_of_le (regWord_lt r a) (Nat.pow_le_pow_right (by omega) h))

theorem testBit_regPair (r : List (Nat × Word)) (a i : Nat) :
    (regWord r a + 2 ^ 32 * regWord r (a + 4)).testBit i = (regWord r (a + 4 * (i / 32))).testBit (i % 32) ∨ 64 ≤ i := by
  by_cases h : 64 ≤ i
  · exact .inr h
  · left
    rw [Nat.add_comm, Nat.testBit_two_pow_mul_add _ (regWord_lt r a)]
    by_cases h1 : i < 32
    · simp [h1, Nat.div_eq_of_lt h1, Nat.mod_eq_of_lt h1]
    · have h2 : i / 32 = 1 := by omega
      have h3 : i % 32 = i - 32 := by omega
      simp [h1, h2, h3]

/-- A bit of a field is a bit of a register word. -/
theorem testBit_regGet (r : List (Nat × Word)) (f : RF) (hf : f.lsb + f.width ≤ 64) (i : Nat) : (regGet r f).testBit i =
    (decide (i < f.width) && (regWord r (f.addr + 4 * ((f.lsb + i) / 32))).testBit ((f.lsb + i) % 32)) := by
  unfold regGet
  split
  · next h =>
    rw [testBit_bits]
    by_cases hi : i < f.width
    · have h1 : (f.lsb + i) / 32 = 0 := by omega
      have h2 : (f.lsb + i) % 32 = f.lsb + i := by omega
      simp [h1, h2]
    · simp [hi]
  · next h =>
    rw [testBit_bits]
    by_cases hi : i < f.width
    · rcases testBit_regPair r f.addr (f.lsb + i) with h1 | h1
      · rw [h1]
      · omega
    · simp [hi]

/-- A bit of a register word after a field is written. -/
theorem testBit_regWord_put (r : List (Nat × Word)) (f : RF) (hf : f.lsb + f.width ≤ 64) (v a j : Nat) (hj : j < 32) :
    (regWord (regPut r f v) a).testBit j =
      if (a = f.addr ∧ f.lsb ≤ j ∧ j < f.lsb + f.width) ∨ (a = f.addr + 4 ∧ f.lsb ≤ j + 32 ∧ j + 32 < f.lsb + f.width) then
        v.testBit (8 * a + j - (8 * f.addr + f.lsb))
      else (regWord r a).testBit j := by
  unfold regPut
  split
  · next h =>
    rw [regWord_regSet]
    by_cases ha : a = f.addr
    · subst ha
      rw [if_pos rfl, Nat.mod_eq_of_lt (setBits_lt (regWord_lt r _) h), testBit_setBits]
      by_cases hr : f.lsb ≤ j ∧ j < f.lsb + f.width
      · have e : 8 * f.addr + j - (8 * f.addr + f.lsb) = j - f.lsb := by omega
        rw [if_pos hr, if_pos (.inl ⟨rfl, hr⟩), e]
      · rw [if_neg hr, if_neg (by omega)]
    · rw [if_neg ha, if_neg (by omega)]
  · next h =>
    have hp : regWord r f.addr + 2 ^ 32 * regWord r (f.addr + 4) < 2 ^ 64 := by
      have := regWord_lt r f.addr; have := regWord_lt r (f.addr + 4); omega
    have hx := setBits_lt (x := v) hp hf
    generalize hX : setBits (regWord r f.addr + 2 ^ 32 * regWord r (f.addr + 4)) f.lsb f.width v = x at hx
    have hxb : ∀ i, x.testBit i = if f.lsb ≤ i ∧ i < f.lsb + f.width then v.testBit (i - f.lsb)
        else (regWord r f.addr + 2 ^ 32 * regWord r (f.addr + 4)).testBit i := fun i => by
      rw [← hX, testBit_setBits]
    dsimp only
    rw [regWord_regSet, regWord_regSet]
    by_cases ha : a = f.addr + 4
    · subst ha
      have hs : x >>> 32 < 2 ^ 32 := by rw [Nat.shiftRight_eq_div_pow]; omega
      rw [if_pos rfl, Nat.mod_eq_of_lt hs, Nat.testBit_shiftRight, hxb]
      by_cases hr : f.lsb ≤ 32 + j ∧ 32 + j < f.lsb + f.width
      · have e : 8 * (f.addr + 4) + j - (8 * f.addr + f.lsb) = 32 + j - f.lsb := by omega
        rw [if_pos hr, if_pos (by omega), e]
      · rw [if_neg hr, if_neg (by omega), Nat.add_comm (regWord r f.addr), Nat.testBit_two_pow_mul_add _ (regWord_lt r _)]
        simp
    · rw [if_neg ha]
      by_cases ha' : a = f.addr
      · subst ha'
        rw [if_pos rfl, Nat.mod_mod, Nat.testBit_mod_two_pow, hxb]
        by_cases hr : f.lsb ≤ j ∧ j < f.lsb + f.width
        · have e : 8 * f.addr + j - (8 * f.addr + f.lsb) = j - f.lsb := by omega
          rw [if_pos hr, if_pos (.inl ⟨rfl, hr⟩), e]; simp [hj]
        · rw [if_neg hr, if_neg (by omega), Nat.add_comm (regWord r f.addr), Nat.testBit_two_pow_mul_add _ (regWord_lt r _)]
          simp [hj]
      · rw [if_neg ha', if_neg (by omega)]

/-- A field that shares no bit with the one written keeps its value. -/
theorem regGet_regPut_apart (r : List (Nat × Word)) (f g : RF) (v : Nat) (hf : f.lsb + f.width ≤ 64) (hg : g.lsb + g.width ≤ 64)
    (h : f.apart g) : regGet (regPut r f v) g = regGet r g := by
  apply Nat.eq_of_testBit_eq
  intro i
  rw [testBit_regGet _ g hg, testBit_regGet _ g hg]
  by_cases hi : i < g.width
  · rw [testBit_regWord_put r f hf _ _ _ (Nat.mod_lt _ (by omega)), if_neg]
    rcases h with h | h <;> omega
  · simp [hi]

/-- A field written reads as what was written, modulo its width. -/
theorem regGet_regPut_same (r : List (Nat × Word)) (f : RF) (v : Nat) (hf : f.lsb + f.width ≤ 64) :
    regGet (regPut r f v) f = v % 2 ^ f.width := by
  apply Nat.eq_of_testBit_eq
  intro i
  rw [testBit_regGet _ f hf, Nat.testBit_mod_two_pow]
  by_cases hi : i < f.width
  · rw [testBit_regWord_put r f hf _ _ _ (Nat.mod_lt _ (by omega)), if_pos (by omega)]
    congr 2
    omega
  · simp [hi]

theorem regGet_lt (r : List (Nat × Word)) (f : RF) : regGet r f < 2 ^ f.width := by
  unfold regGet; split <;> exact bits_lt ..

/-- A word that a field does not lie in keeps its value. -/
theorem regWord_regPut_ne (r : List (Nat × Word)) (f : RF) (v a : Nat) (h : a ≠ f.addr) (h4 : a ≠ f.addr + 4) :
    regWord (regPut r f v) a = regWord r a := by
  unfold regPut
  split
  · exact regWord_regSet_ne r _ h
  · rw [regWord_regSet_ne _ _ h4, regWord_regSet_ne _ _ h]

/-- A field of one word leaves every other word. -/
theorem regWord_regPut_one (r : List (Nat × Word)) (f : RF) (v a : Nat) (hw : f.lsb + f.width ≤ 32) (h : a ≠ f.addr) :
    regWord (regPut r f v) a = regWord r a := by
  unfold regPut; rw [if_pos hw]; exact regWord_regSet_ne r _ h

/-! ### The same on states -/

theorem State.word_lt (s : State) (a : Nat) : s.word a < 2 ^ 32 := regWord_lt ..
theorem State.get_lt (s : State) (f : RF) : s.get f < 2 ^ f.width := regGet_lt ..
@[simp] theorem State.word_setWord_same (s : State) (a v : Nat) : (s.setWord a v).word a = v % 2 ^ 32 :=
  regWord_regSet_same ..
theorem State.word_setWord_ne (s : State) {a b : Nat} (v : Nat) (h : b ≠ a) : (s.setWord a v).word b = s.word b :=
  regWord_regSet_ne _ v h
theorem State.testBit_get (s : State) (f : RF) (hf : f.lsb + f.width ≤ 64) (i : Nat) : (s.get f).testBit i =
    (decide (i < f.width) && (s.word (f.addr + 4 * ((f.lsb + i) / 32))).testBit ((f.lsb + i) % 32)) :=
  testBit_regGet s.regs f hf i
theorem State.testBit_word_put (s : State) (f : RF) (hf : f.lsb + f.width ≤ 64) (v a j : Nat) (hj : j < 32) :
    ((s.put f v).word a).testBit j =
      if (a = f.addr ∧ f.lsb ≤ j ∧ j < f.lsb + f.width) ∨ (a = f.addr + 4 ∧ f.lsb ≤ j + 32 ∧ j + 32 < f.lsb + f.width) then
        v.testBit (8 * a + j - (8 * f.addr + f.lsb))
      else (s.word a).testBit j := testBit_regWord_put s.regs f hf v a j hj
theorem State.get_put_same (s : State) (f : RF) (v : Nat) (hf : f.lsb + f.width ≤ 64) :
    (s.put f v).get f = v % 2 ^ f.width := regGet_regPut_same _ f v hf
theorem State.get_put_apart (s : State) (f g : RF) (v : Nat) (hf : f.lsb + f.width ≤ 64) (hg : g.lsb + g.width ≤ 64)
    (h : f.apart g) : (s.put f v).get g = s.get g := regGet_regPut_apart _ f g v hf hg h
theorem State.word_put_ne (s : State) (f : RF) (v a : Nat) (h : a ≠ f.addr) (h4 : a ≠ f.addr + 4) :
    (s.put f v).word a = s.word a := regWord_regPut_ne _ f v a h h4

theorem State.is_put_same (s : State) (f : RF) (v : Nat) (hf : f.lsb + f.width ≤ 64) :
    (s.put f v).is f = decide (v % 2 ^ f.width ≠ 0) := by
  simp only [State.is, State.get_put_same s f v hf]
theorem State.is_put_apart (s : State) (f g : RF) (v : Nat) (hf : f.lsb + f.width ≤ 64) (hg : g.lsb + g.width ≤ 64)
    (h : f.apart g) : (s.put f v).is g = s.is g := by
  simp only [State.is, State.get_put_apart s f g v hf hg h]

theorem State.get_set1_same (s : State) (f : RF) (hf : f.lsb + f.width ≤ 64) (hw : 0 < f.width) :
    (s.set1 f).get f = 1 := by
  rw [State.set1, show ((s.put f 1).mark f 1).get f = (s.put f 1).get f from rfl, State.get_put_same s f 1 hf, Nat.mod_eq_of_lt (Nat.one_lt_two_pow (by omega))]
theorem State.get_clr_same (s : State) (f : RF) (hf : f.lsb + f.width ≤ 64) : (s.clr f).get f = 0 := by
  rw [State.clr, State.get_put_same s f 0 hf, Nat.zero_mod]
theorem State.get_set1_apart (s : State) (f g : RF) (hf : f.lsb + f.width ≤ 64) (hg : g.lsb + g.width ≤ 64)
    (h : f.apart g) : (s.set1 f).get g = s.get g := State.get_put_apart s f g 1 hf hg h
theorem State.get_clr_apart (s : State) (f g : RF) (hf : f.lsb + f.width ≤ 64) (hg : g.lsb + g.width ≤ 64)
    (h : f.apart g) : (s.clr f).get g = s.get g := State.get_put_apart s f g 0 hf hg h
theorem State.get_bump_same (s : State) (f : RF) (n : Nat) (hf : f.lsb + f.width ≤ 64) :
    (s.bump f n).get f = min (s.get f + n) (2 ^ f.width - 1) := by
  have := Nat.two_pow_pos f.width
  rw [State.bump, State.get_put_same s f _ hf, satInc, Nat.mod_eq_of_lt (by omega)]
theorem State.get_bump_apart (s : State) (f g : RF) (n : Nat) (hf : f.lsb + f.width ≤ 64) (hg : g.lsb + g.width ≤ 64)
    (h : f.apart g) : (s.bump f n).get g = s.get g := State.get_put_apart s f g _ hf hg h

@[simp] theorem satInc_mod (w v n : Nat) : satInc w v n % 2 ^ w = satInc w v n :=
  Nat.mod_eq_of_lt (Nat.lt_of_le_of_lt (Nat.min_le_right ..) (Nat.sub_lt (Nat.two_pow_pos w) Nat.one_pos))

/-! ### The registers alone decide what a register reads as -/

theorem State.word_congr {s s' : State} (h : s'.regs = s.regs) (a : Nat) : s'.word a = s.word a := by
  simp [State.word, h]
theorem State.get_congr {s s' : State} (h : s'.regs = s.regs) (f : RF) : s'.get f = s.get f := by
  simp [State.get, h]
theorem State.is_congr {s s' : State} (h : s'.regs = s.regs) (f : RF) : s'.is f = s.is f := by
  simp only [State.is, State.get_congr h]

end Sys2Proof.Machine
end

