-- ==== Sys2Proof/Laws/State.lean ====
section
/-!
SUPPORT. What each update of the state leaves as it was: one lemma per field per update, true by computation.
-/

namespace Sys2Proof.Machine

@[simp] theorem State.setWord_tb (s : State) (a v : Nat) : (s.setWord a v).tb = s.tb := rfl
@[simp] theorem State.setWord_pending (s : State) (a v : Nat) : (s.setWord a v).pending = s.pending := rfl
@[simp] theorem State.setWord_mem (s : State) (a v : Nat) : (s.setWord a v).mem = s.mem := rfl
@[simp] theorem State.setWord_resp (s : State) (a v : Nat) : (s.setWord a v).resp = s.resp := rfl
@[simp] theorem State.setWord_holding (s : State) (a v : Nat) : (s.setWord a v).holding = s.holding := rfl
@[simp] theorem State.setWord_drawn (s : State) (a v : Nat) : (s.setWord a v).drawn = s.drawn := rfl
@[simp] theorem State.setWord_marks (s : State) (a v : Nat) : (s.setWord a v).marks = s.marks := rfl
@[simp] theorem State.setWord_rows (s : State) (a v : Nat) : (s.setWord a v).rows = s.rows := rfl
@[simp] theorem State.setWord_ldg (s : State) (a v : Nat) : (s.setWord a v).ldg = s.ldg := rfl
@[simp] theorem State.setWord_chans (s : State) (a v : Nat) : (s.setWord a v).chans = s.chans := rfl
@[simp] theorem State.setWord_groups (s : State) (a v : Nat) : (s.setWord a v).groups = s.groups := rfl
@[simp] theorem State.setWord_fltPins (s : State) (a v : Nat) : (s.setWord a v).fltPins = s.fltPins := rfl
@[simp] theorem State.setWord_lanes (s : State) (a v : Nat) : (s.setWord a v).lanes = s.lanes := rfl
@[simp] theorem State.setWord_engs (s : State) (a v : Nat) : (s.setWord a v).engs = s.engs := rfl
@[simp] theorem State.setWord_mld (s : State) (a v : Nat) : (s.setWord a v).mld = s.mld := rfl
@[simp] theorem State.setWord_adcs (s : State) (a v : Nat) : (s.setWord a v).adcs = s.adcs := rfl
@[simp] theorem State.setWord_chains (s : State) (a v : Nat) : (s.setWord a v).chains = s.chains := rfl
@[simp] theorem State.setWord_scr (s : State) (a v : Nat) : (s.setWord a v).scr = s.scr := rfl
@[simp] theorem State.setWord_move (s : State) (a v : Nat) : (s.setWord a v).move = s.move := rfl
@[simp] theorem State.setWord_trigs (s : State) (a v : Nat) : (s.setWord a v).trigs = s.trigs := rfl
@[simp] theorem State.setWord_twn (s : State) (a v : Nat) : (s.setWord a v).twn = s.twn := rfl
@[simp] theorem State.setWord_trks (s : State) (a v : Nat) : (s.setWord a v).trks = s.trks := rfl
@[simp] theorem State.setWord_quad (s : State) (a v : Nat) : (s.setWord a v).quad = s.quad := rfl
@[simp] theorem State.setWord_net (s : State) (a v : Nat) : (s.setWord a v).net = s.net := rfl
@[simp] theorem State.setWord_doms (s : State) (a v : Nat) : (s.setWord a v).doms = s.doms := rfl
@[simp] theorem State.setWord_pdelays (s : State) (a v : Nat) : (s.setWord a v).pdelays = s.pdelays := rfl
@[simp] theorem State.setWord_isle (s : State) (a v : Nat) : (s.setWord a v).isle = s.isle := rfl
@[simp] theorem State.setWord_mst (s : State) (a v : Nat) : (s.setWord a v).mst = s.mst := rfl
@[simp] theorem State.setWord_clk (s : State) (a v : Nat) : (s.setWord a v).clk = s.clk := rfl
@[simp] theorem State.setWord_hlt (s : State) (a v : Nat) : (s.setWord a v).hlt = s.hlt := rfl
@[simp] theorem State.setWord_pwr (s : State) (a v : Nat) : (s.setWord a v).pwr = s.pwr := rfl
@[simp] theorem State.setWord_pins (s : State) (a v : Nat) : (s.setWord a v).pins = s.pins := rfl
@[simp] theorem State.setWord_byte (s : State) (a v : Nat) (x : Nat) : (s.setWord a v).byte x = s.byte x := rfl

@[simp] theorem State.setByte_tb (s : State) (a : Nat) (b : Byte) : (s.setByte a b).tb = s.tb := rfl
@[simp] theorem State.setByte_pending (s : State) (a : Nat) (b : Byte) : (s.setByte a b).pending = s.pending := rfl
@[simp] theorem State.setByte_regs (s : State) (a : Nat) (b : Byte) : (s.setByte a b).regs = s.regs := rfl
@[simp] theorem State.setByte_resp (s : State) (a : Nat) (b : Byte) : (s.setByte a b).resp = s.resp := rfl
@[simp] theorem State.setByte_holding (s : State) (a : Nat) (b : Byte) : (s.setByte a b).holding = s.holding := rfl
@[simp] theorem State.setByte_drawn (s : State) (a : Nat) (b : Byte) : (s.setByte a b).drawn = s.drawn := rfl
@[simp] theorem State.setByte_marks (s : State) (a : Nat) (b : Byte) : (s.setByte a b).marks = s.marks := rfl
@[simp] theorem State.setByte_ldg (s : State) (a : Nat) (b : Byte) : (s.setByte a b).ldg = s.ldg := rfl
@[simp] theorem State.setByte_chans (s : State) (a : Nat) (b : Byte) : (s.setByte a b).chans = s.chans := rfl
@[simp] theorem State.setByte_groups (s : State) (a : Nat) (b : Byte) : (s.setByte a b).groups = s.groups := rfl
@[simp] theorem State.setByte_fltPins (s : State) (a : Nat) (b : Byte) : (s.setByte a b).fltPins = s.fltPins := rfl
@[simp] theorem State.setByte_lanes (s : State) (a : Nat) (b : Byte) : (s.setByte a b).lanes = s.lanes := rfl
@[simp] theorem State.setByte_engs (s : State) (a : Nat) (b : Byte) : (s.setByte a b).engs = s.engs := rfl
@[simp] theorem State.setByte_mld (s : State) (a : Nat) (b : Byte) : (s.setByte a b).mld = s.mld := rfl
@[simp] theorem State.setByte_adcs (s : State) (a : Nat) (b : Byte) : (s.setByte a b).adcs = s.adcs := rfl
@[simp] theorem State.setByte_chains (s : State) (a : Nat) (b : Byte) : (s.setByte a b).chains = s.chains := rfl
@[simp] theorem State.setByte_scr (s : State) (a : Nat) (b : Byte) : (s.setByte a b).scr = s.scr := rfl
@[simp] theorem State.setByte_move (s : State) (a : Nat) (b : Byte) : (s.setByte a b).move = s.move := rfl
@[simp] theorem State.setByte_trigs (s : State) (a : Nat) (b : Byte) : (s.setByte a b).trigs = s.trigs := rfl
@[simp] theorem State.setByte_twn (s : State) (a : Nat) (b : Byte) : (s.setByte a b).twn = s.twn := rfl
@[simp] theorem State.setByte_trks (s : State) (a : Nat) (b : Byte) : (s.setByte a b).trks = s.trks := rfl
@[simp] theorem State.setByte_quad (s : State) (a : Nat) (b : Byte) : (s.setByte a b).quad = s.quad := rfl
@[simp] theorem State.setByte_net (s : State) (a : Nat) (b : Byte) : (s.setByte a b).net = s.net := rfl
@[simp] theorem State.setByte_doms (s : State) (a : Nat) (b : Byte) : (s.setByte a b).doms = s.doms := rfl
@[simp] theorem State.setByte_pdelays (s : State) (a : Nat) (b : Byte) : (s.setByte a b).pdelays = s.pdelays := rfl
@[simp] theorem State.setByte_isle (s : State) (a : Nat) (b : Byte) : (s.setByte a b).isle = s.isle := rfl
@[simp] theorem State.setByte_mst (s : State) (a : Nat) (b : Byte) : (s.setByte a b).mst = s.mst := rfl
@[simp] theorem State.setByte_clk (s : State) (a : Nat) (b : Byte) : (s.setByte a b).clk = s.clk := rfl
@[simp] theorem State.setByte_hlt (s : State) (a : Nat) (b : Byte) : (s.setByte a b).hlt = s.hlt := rfl
@[simp] theorem State.setByte_pwr (s : State) (a : Nat) (b : Byte) : (s.setByte a b).pwr = s.pwr := rfl
@[simp] theorem State.setByte_pins (s : State) (a : Nat) (b : Byte) : (s.setByte a b).pins = s.pins := rfl
@[simp] theorem State.setByte_word (s : State) (a : Nat) (b : Byte) (x : Nat) : (s.setByte a b).word x = s.word x := rfl
@[simp] theorem State.setByte_get (s : State) (a : Nat) (b : Byte) (x : RF) : (s.setByte a b).get x = s.get x := rfl
@[simp] theorem State.setByte_is (s : State) (a : Nat) (b : Byte) (x : RF) : (s.setByte a b).is x = s.is x := rfl

@[simp] theorem State.fillZero_tb (s : State) (a n : Nat) : (s.fillZero a n).tb = s.tb := rfl
@[simp] theorem State.fillZero_pending (s : State) (a n : Nat) : (s.fillZero a n).pending = s.pending := rfl
@[simp] theorem State.fillZero_regs (s : State) (a n : Nat) : (s.fillZero a n).regs = s.regs := rfl
@[simp] theorem State.fillZero_resp (s : State) (a n : Nat) : (s.fillZero a n).resp = s.resp := rfl
@[simp] theorem State.fillZero_holding (s : State) (a n : Nat) : (s.fillZero a n).holding = s.holding := rfl
@[simp] theorem State.fillZero_drawn (s : State) (a n : Nat) : (s.fillZero a n).drawn = s.drawn := rfl
@[simp] theorem State.fillZero_marks (s : State) (a n : Nat) : (s.fillZero a n).marks = s.marks := rfl
@[simp] theorem State.fillZero_ldg (s : State) (a n : Nat) : (s.fillZero a n).ldg = s.ldg := rfl
@[simp] theorem State.fillZero_chans (s : State) (a n : Nat) : (s.fillZero a n).chans = s.chans := rfl
@[simp] theorem State.fillZero_groups (s : State) (a n : Nat) : (s.fillZero a n).groups = s.groups := rfl
@[simp] theorem State.fillZero_fltPins (s : State) (a n : Nat) : (s.fillZero a n).fltPins = s.fltPins := rfl
@[simp] theorem State.fillZero_lanes (s : State) (a n : Nat) : (s.fillZero a n).lanes = s.lanes := rfl
@[simp] theorem State.fillZero_engs (s : State) (a n : Nat) : (s.fillZero a n).engs = s.engs := rfl
@[simp] theorem State.fillZero_mld (s : State) (a n : Nat) : (s.fillZero a n).mld = s.mld := rfl
@[simp] theorem State.fillZero_adcs (s : State) (a n : Nat) : (s.fillZero a n).adcs = s.adcs := rfl
@[simp] theorem State.fillZero_chains (s : State) (a n : Nat) : (s.fillZero a n).chains = s.chains := rfl
@[simp] theorem State.fillZero_scr (s : State) (a n : Nat) : (s.fillZero a n).scr = s.scr := rfl
@[simp] theorem State.fillZero_move (s : State) (a n : Nat) : (s.fillZero a n).move = s.move := rfl
@[simp] theorem State.fillZero_trigs (s : State) (a n : Nat) : (s.fillZero a n).trigs = s.trigs := rfl
@[simp] theorem State.fillZero_twn (s : State) (a n : Nat) : (s.fillZero a n).twn = s.twn := rfl
@[simp] theorem State.fillZero_trks (s : State) (a n : Nat) : (s.fillZero a n).trks = s.trks := rfl
@[simp] theorem State.fillZero_quad (s : State) (a n : Nat) : (s.fillZero a n).quad = s.quad := rfl
@[simp] theorem State.fillZero_net (s : State) (a n : Nat) : (s.fillZero a n).net = s.net := rfl
@[simp] theorem State.fillZero_doms (s : State) (a n : Nat) : (s.fillZero a n).doms = s.doms := rfl
@[simp] theorem State.fillZero_pdelays (s : State) (a n : Nat) : (s.fillZero a n).pdelays = s.pdelays := rfl
@[simp] theorem State.fillZero_isle (s : State) (a n : Nat) : (s.fillZero a n).isle = s.isle := rfl
@[simp] theorem State.fillZero_mst (s : State) (a n : Nat) : (s.fillZero a n).mst = s.mst := rfl
@[simp] theorem State.fillZero_clk (s : State) (a n : Nat) : (s.fillZero a n).clk = s.clk := rfl
@[simp] theorem State.fillZero_hlt (s : State) (a n : Nat) : (s.fillZero a n).hlt = s.hlt := rfl
@[simp] theorem State.fillZero_pwr (s : State) (a n : Nat) : (s.fillZero a n).pwr = s.pwr := rfl
@[simp] theorem State.fillZero_pins (s : State) (a n : Nat) : (s.fillZero a n).pins = s.pins := rfl
@[simp] theorem State.fillZero_word (s : State) (a n : Nat) (x : Nat) : (s.fillZero a n).word x = s.word x := rfl
@[simp] theorem State.fillZero_get (s : State) (a n : Nat) (x : RF) : (s.fillZero a n).get x = s.get x := rfl
@[simp] theorem State.fillZero_is (s : State) (a n : Nat) (x : RF) : (s.fillZero a n).is x = s.is x := rfl

@[simp] theorem State.at_pending (s : State) (t : Nat) : (s.at t).pending = s.pending := rfl
@[simp] theorem State.at_regs (s : State) (t : Nat) : (s.at t).regs = s.regs := rfl
@[simp] theorem State.at_mem (s : State) (t : Nat) : (s.at t).mem = s.mem := rfl
@[simp] theorem State.at_resp (s : State) (t : Nat) : (s.at t).resp = s.resp := rfl
@[simp] theorem State.at_holding (s : State) (t : Nat) : (s.at t).holding = s.holding := rfl
@[simp] theorem State.at_drawn (s : State) (t : Nat) : (s.at t).drawn = s.drawn := rfl
@[simp] theorem State.at_rows (s : State) (t : Nat) : (s.at t).rows = s.rows := rfl
@[simp] theorem State.at_ldg (s : State) (t : Nat) : (s.at t).ldg = s.ldg := rfl
@[simp] theorem State.at_chans (s : State) (t : Nat) : (s.at t).chans = s.chans := rfl
@[simp] theorem State.at_groups (s : State) (t : Nat) : (s.at t).groups = s.groups := rfl
@[simp] theorem State.at_fltPins (s : State) (t : Nat) : (s.at t).fltPins = s.fltPins := rfl
@[simp] theorem State.at_lanes (s : State) (t : Nat) : (s.at t).lanes = s.lanes := rfl
@[simp] theorem State.at_engs (s : State) (t : Nat) : (s.at t).engs = s.engs := rfl
@[simp] theorem State.at_mld (s : State) (t : Nat) : (s.at t).mld = s.mld := rfl
@[simp] theorem State.at_adcs (s : State) (t : Nat) : (s.at t).adcs = s.adcs := rfl
@[simp] theorem State.at_chains (s : State) (t : Nat) : (s.at t).chains = s.chains := rfl
@[simp] theorem State.at_scr (s : State) (t : Nat) : (s.at t).scr = s.scr := rfl
@[simp] theorem State.at_move (s : State) (t : Nat) : (s.at t).move = s.move := rfl
@[simp] theorem State.at_trigs (s : State) (t : Nat) : (s.at t).trigs = s.trigs := rfl
@[simp] theorem State.at_twn (s : State) (t : Nat) : (s.at t).twn = s.twn := rfl
@[simp] theorem State.at_trks (s : State) (t : Nat) : (s.at t).trks = s.trks := rfl
@[simp] theorem State.at_quad (s : State) (t : Nat) : (s.at t).quad = s.quad := rfl
@[simp] theorem State.at_net (s : State) (t : Nat) : (s.at t).net = s.net := rfl
@[simp] theorem State.at_doms (s : State) (t : Nat) : (s.at t).doms = s.doms := rfl
@[simp] theorem State.at_pdelays (s : State) (t : Nat) : (s.at t).pdelays = s.pdelays := rfl
@[simp] theorem State.at_isle (s : State) (t : Nat) : (s.at t).isle = s.isle := rfl
@[simp] theorem State.at_mst (s : State) (t : Nat) : (s.at t).mst = s.mst := rfl
@[simp] theorem State.at_clk (s : State) (t : Nat) : (s.at t).clk = s.clk := rfl
@[simp] theorem State.at_hlt (s : State) (t : Nat) : (s.at t).hlt = s.hlt := rfl
@[simp] theorem State.at_pwr (s : State) (t : Nat) : (s.at t).pwr = s.pwr := rfl
@[simp] theorem State.at_pins (s : State) (t : Nat) : (s.at t).pins = s.pins := rfl
@[simp] theorem State.at_word (s : State) (t : Nat) (x : Nat) : (s.at t).word x = s.word x := rfl
@[simp] theorem State.at_get (s : State) (t : Nat) (x : RF) : (s.at t).get x = s.get x := rfl
@[simp] theorem State.at_is (s : State) (t : Nat) (x : RF) : (s.at t).is x = s.is x := rfl
@[simp] theorem State.at_byte (s : State) (t : Nat) (x : Nat) : (s.at t).byte x = s.byte x := rfl

@[simp] theorem State.upChan_tb (s : State) (k : Nat) (f : Chan → Chan) : (s.upChan k f).tb = s.tb := rfl
@[simp] theorem State.upChan_pending (s : State) (k : Nat) (f : Chan → Chan) : (s.upChan k f).pending = s.pending := rfl
@[simp] theorem State.upChan_regs (s : State) (k : Nat) (f : Chan → Chan) : (s.upChan k f).regs = s.regs := rfl
@[simp] theorem State.upChan_mem (s : State) (k : Nat) (f : Chan → Chan) : (s.upChan k f).mem = s.mem := rfl
@[simp] theorem State.upChan_resp (s : State) (k : Nat) (f : Chan → Chan) : (s.upChan k f).resp = s.resp := rfl
@[simp] theorem State.upChan_holding (s : State) (k : Nat) (f : Chan → Chan) : (s.upChan k f).holding = s.holding := rfl
@[simp] theorem State.upChan_drawn (s : State) (k : Nat) (f : Chan → Chan) : (s.upChan k f).drawn = s.drawn := rfl
@[simp] theorem State.upChan_marks (s : State) (k : Nat) (f : Chan → Chan) : (s.upChan k f).marks = s.marks := rfl
@[simp] theorem State.upChan_rows (s : State) (k : Nat) (f : Chan → Chan) : (s.upChan k f).rows = s.rows := rfl
@[simp] theorem State.upChan_ldg (s : State) (k : Nat) (f : Chan → Chan) : (s.upChan k f).ldg = s.ldg := rfl
@[simp] theorem State.upChan_groups (s : State) (k : Nat) (f : Chan → Chan) : (s.upChan k f).groups = s.groups := rfl
@[simp] theorem State.upChan_fltPins (s : State) (k : Nat) (f : Chan → Chan) : (s.upChan k f).fltPins = s.fltPins := rfl
@[simp] theorem State.upChan_lanes (s : State) (k : Nat) (f : Chan → Chan) : (s.upChan k f).lanes = s.lanes := rfl
@[simp] theorem State.upChan_engs (s : State) (k : Nat) (f : Chan → Chan) : (s.upChan k f).engs = s.engs := rfl
@[simp] theorem State.upChan_mld (s : State) (k : Nat) (f : Chan → Chan) : (s.upChan k f).mld = s.mld := rfl
@[simp] theorem State.upChan_adcs (s : State) (k : Nat) (f : Chan → Chan) : (s.upChan k f).adcs = s.adcs := rfl
@[simp] theorem State.upChan_chains (s : State) (k : Nat) (f : Chan → Chan) : (s.upChan k f).chains = s.chains := rfl
@[simp] theorem State.upChan_scr (s : State) (k : Nat) (f : Chan → Chan) : (s.upChan k f).scr = s.scr := rfl
@[simp] theorem State.upChan_move (s : State) (k : Nat) (f : Chan → Chan) : (s.upChan k f).move = s.move := rfl
@[simp] theorem State.upChan_trigs (s : State) (k : Nat) (f : Chan → Chan) : (s.upChan k f).trigs = s.trigs := rfl
@[simp] theorem State.upChan_twn (s : State) (k : Nat) (f : Chan → Chan) : (s.upChan k f).twn = s.twn := rfl
@[simp] theorem State.upChan_trks (s : State) (k : Nat) (f : Chan → Chan) : (s.upChan k f).trks = s.trks := rfl
@[simp] theorem State.upChan_quad (s : State) (k : Nat) (f : Chan → Chan) : (s.upChan k f).quad = s.quad := rfl
@[simp] theorem State.upChan_net (s : State) (k : Nat) (f : Chan → Chan) : (s.upChan k f).net = s.net := rfl
@[simp] theorem State.upChan_doms (s : State) (k : Nat) (f : Chan → Chan) : (s.upChan k f).doms = s.doms := rfl
@[simp] theorem State.upChan_pdelays (s : State) (k : Nat) (f : Chan → Chan) : (s.upChan k f).pdelays = s.pdelays := rfl
@[simp] theorem State.upChan_isle (s : State) (k : Nat) (f : Chan → Chan) : (s.upChan k f).isle = s.isle := rfl
@[simp] theorem State.upChan_mst (s : State) (k : Nat) (f : Chan → Chan) : (s.upChan k f).mst = s.mst := rfl
@[simp] theorem State.upChan_clk (s : State) (k : Nat) (f : Chan → Chan) : (s.upChan k f).clk = s.clk := rfl
@[simp] theorem State.upChan_hlt (s : State) (k : Nat) (f : Chan → Chan) : (s.upChan k f).hlt = s.hlt := rfl
@[simp] theorem State.upChan_pwr (s : State) (k : Nat) (f : Chan → Chan) : (s.upChan k f).pwr = s.pwr := rfl
@[simp] theorem State.upChan_pins (s : State) (k : Nat) (f : Chan → Chan) : (s.upChan k f).pins = s.pins := rfl
@[simp] theorem State.upChan_word (s : State) (k : Nat) (f : Chan → Chan) (x : Nat) : (s.upChan k f).word x = s.word x := rfl
@[simp] theorem State.upChan_get (s : State) (k : Nat) (f : Chan → Chan) (x : RF) : (s.upChan k f).get x = s.get x := rfl
@[simp] theorem State.upChan_is (s : State) (k : Nat) (f : Chan → Chan) (x : RF) : (s.upChan k f).is x = s.is x := rfl
@[simp] theorem State.upChan_byte (s : State) (k : Nat) (f : Chan → Chan) (x : Nat) : (s.upChan k f).byte x = s.byte x := rfl

@[simp] theorem State.upGroup_tb (s : State) (k : Nat) (f : PwmGroup → PwmGroup) : (s.upGroup k f).tb = s.tb := rfl
@[simp] theorem State.upGroup_pending (s : State) (k : Nat) (f : PwmGroup → PwmGroup) : (s.upGroup k f).pending = s.pending := rfl
@[simp] theorem State.upGroup_regs (s : State) (k : Nat) (f : PwmGroup → PwmGroup) : (s.upGroup k f).regs = s.regs := rfl
@[simp] theorem State.upGroup_mem (s : State) (k : Nat) (f : PwmGroup → PwmGroup) : (s.upGroup k f).mem = s.mem := rfl
@[simp] theorem State.upGroup_resp (s : State) (k : Nat) (f : PwmGroup → PwmGroup) : (s.upGroup k f).resp = s.resp := rfl
@[simp] theorem State.upGroup_holding (s : State) (k : Nat) (f : PwmGroup → PwmGroup) : (s.upGroup k f).holding = s.holding := rfl
@[simp] theorem State.upGroup_drawn (s : State) (k : Nat) (f : PwmGroup → PwmGroup) : (s.upGroup k f).drawn = s.drawn := rfl
@[simp] theorem State.upGroup_marks (s : State) (k : Nat) (f : PwmGroup → PwmGroup) : (s.upGroup k f).marks = s.marks := rfl
@[simp] theorem State.upGroup_rows (s : State) (k : Nat) (f : PwmGroup → PwmGroup) : (s.upGroup k f).rows = s.rows := rfl
@[simp] theorem State.upGroup_ldg (s : State) (k : Nat) (f : PwmGroup → PwmGroup) : (s.upGroup k f).ldg = s.ldg := rfl
@[simp] theorem State.upGroup_chans (s : State) (k : Nat) (f : PwmGroup → PwmGroup) : (s.upGroup k f).chans = s.chans := rfl
@[simp] theorem State.upGroup_fltPins (s : State) (k : Nat) (f : PwmGroup → PwmGroup) : (s.upGroup k f).fltPins = s.fltPins := rfl
@[simp] theorem State.upGroup_lanes (s : State) (k : Nat) (f : PwmGroup → PwmGroup) : (s.upGroup k f).lanes = s.lanes := rfl
@[simp] theorem State.upGroup_engs (s : State) (k : Nat) (f : PwmGroup → PwmGroup) : (s.upGroup k f).engs = s.engs := rfl
@[simp] theorem State.upGroup_mld (s : State) (k : Nat) (f : PwmGroup → PwmGroup) : (s.upGroup k f).mld = s.mld := rfl
@[simp] theorem State.upGroup_adcs (s : State) (k : Nat) (f : PwmGroup → PwmGroup) : (s.upGroup k f).adcs = s.adcs := rfl
@[simp] theorem State.upGroup_chains (s : State) (k : Nat) (f : PwmGroup → PwmGroup) : (s.upGroup k f).chains = s.chains := rfl
@[simp] theorem State.upGroup_scr (s : State) (k : Nat) (f : PwmGroup → PwmGroup) : (s.upGroup k f).scr = s.scr := rfl
@[simp] theorem State.upGroup_move (s : State) (k : Nat) (f : PwmGroup → PwmGroup) : (s.upGroup k f).move = s.move := rfl
@[simp] theorem State.upGroup_trigs (s : State) (k : Nat) (f : PwmGroup → PwmGroup) : (s.upGroup k f).trigs = s.trigs := rfl
@[simp] theorem State.upGroup_twn (s : State) (k : Nat) (f : PwmGroup → PwmGroup) : (s.upGroup k f).twn = s.twn := rfl
@[simp] theorem State.upGroup_trks (s : State) (k : Nat) (f : PwmGroup → PwmGroup) : (s.upGroup k f).trks = s.trks := rfl
@[simp] theorem State.upGroup_quad (s : State) (k : Nat) (f : PwmGroup → PwmGroup) : (s.upGroup k f).quad = s.quad := rfl
@[simp] theorem State.upGroup_net (s : State) (k : Nat) (f : PwmGroup → PwmGroup) : (s.upGroup k f).net = s.net := rfl
@[simp] theorem State.upGroup_doms (s : State) (k : Nat) (f : PwmGroup → PwmGroup) : (s.upGroup k f).doms = s.doms := rfl
@[simp] theorem State.upGroup_pdelays (s : State) (k : Nat) (f : PwmGroup → PwmGroup) : (s.upGroup k f).pdelays = s.pdelays := rfl
@[simp] theorem State.upGroup_isle (s : State) (k : Nat) (f : PwmGroup → PwmGroup) : (s.upGroup k f).isle = s.isle := rfl
@[simp] theorem State.upGroup_mst (s : State) (k : Nat) (f : PwmGroup → PwmGroup) : (s.upGroup k f).mst = s.mst := rfl
@[simp] theorem State.upGroup_clk (s : State) (k : Nat) (f : PwmGroup → PwmGroup) : (s.upGroup k f).clk = s.clk := rfl
@[simp] theorem State.upGroup_hlt (s : State) (k : Nat) (f : PwmGroup → PwmGroup) : (s.upGroup k f).hlt = s.hlt := rfl
@[simp] theorem State.upGroup_pwr (s : State) (k : Nat) (f : PwmGroup → PwmGroup) : (s.upGroup k f).pwr = s.pwr := rfl
@[simp] theorem State.upGroup_pins (s : State) (k : Nat) (f : PwmGroup → PwmGroup) : (s.upGroup k f).pins = s.pins := rfl
@[simp] theorem State.upGroup_word (s : State) (k : Nat) (f : PwmGroup → PwmGroup) (x : Nat) : (s.upGroup k f).word x = s.word x := rfl
@[simp] theorem State.upGroup_get (s : State) (k : Nat) (f : PwmGroup → PwmGroup) (x : RF) : (s.upGroup k f).get x = s.get x := rfl
@[simp] theorem State.upGroup_is (s : State) (k : Nat) (f : PwmGroup → PwmGroup) (x : RF) : (s.upGroup k f).is x = s.is x := rfl
@[simp] theorem State.upGroup_byte (s : State) (k : Nat) (f : PwmGroup → PwmGroup) (x : Nat) : (s.upGroup k f).byte x = s.byte x := rfl

@[simp] theorem State.upLane_tb (s : State) (k : Nat) (f : Lane → Lane) : (s.upLane k f).tb = s.tb := rfl
@[simp] theorem State.upLane_pending (s : State) (k : Nat) (f : Lane → Lane) : (s.upLane k f).pending = s.pending := rfl
@[simp] theorem State.upLane_regs (s : State) (k : Nat) (f : Lane → Lane) : (s.upLane k f).regs = s.regs := rfl
@[simp] theorem State.upLane_mem (s : State) (k : Nat) (f : Lane → Lane) : (s.upLane k f).mem = s.mem := rfl
@[simp] theorem State.upLane_resp (s : State) (k : Nat) (f : Lane → Lane) : (s.upLane k f).resp = s.resp := rfl
@[simp] theorem State.upLane_holding (s : State) (k : Nat) (f : Lane → Lane) : (s.upLane k f).holding = s.holding := rfl
@[simp] theorem State.upLane_drawn (s : State) (k : Nat) (f : Lane → Lane) : (s.upLane k f).drawn = s.drawn := rfl
@[simp] theorem State.upLane_marks (s : State) (k : Nat) (f : Lane → Lane) : (s.upLane k f).marks = s.marks := rfl
@[simp] theorem State.upLane_rows (s : State) (k : Nat) (f : Lane → Lane) : (s.upLane k f).rows = s.rows := rfl
@[simp] theorem State.upLane_ldg (s : State) (k : Nat) (f : Lane → Lane) : (s.upLane k f).ldg = s.ldg := rfl
@[simp] theorem State.upLane_chans (s : State) (k : Nat) (f : Lane → Lane) : (s.upLane k f).chans = s.chans := rfl
@[simp] theorem State.upLane_groups (s : State) (k : Nat) (f : Lane → Lane) : (s.upLane k f).groups = s.groups := rfl
@[simp] theorem State.upLane_fltPins (s : State) (k : Nat) (f : Lane → Lane) : (s.upLane k f).fltPins = s.fltPins := rfl
@[simp] theorem State.upLane_engs (s : State) (k : Nat) (f : Lane → Lane) : (s.upLane k f).engs = s.engs := rfl
@[simp] theorem State.upLane_mld (s : State) (k : Nat) (f : Lane → Lane) : (s.upLane k f).mld = s.mld := rfl
@[simp] theorem State.upLane_adcs (s : State) (k : Nat) (f : Lane → Lane) : (s.upLane k f).adcs = s.adcs := rfl
@[simp] theorem State.upLane_chains (s : State) (k : Nat) (f : Lane → Lane) : (s.upLane k f).chains = s.chains := rfl
@[simp] theorem State.upLane_scr (s : State) (k : Nat) (f : Lane → Lane) : (s.upLane k f).scr = s.scr := rfl
@[simp] theorem State.upLane_move (s : State) (k : Nat) (f : Lane → Lane) : (s.upLane k f).move = s.move := rfl
@[simp] theorem State.upLane_trigs (s : State) (k : Nat) (f : Lane → Lane) : (s.upLane k f).trigs = s.trigs := rfl
@[simp] theorem State.upLane_twn (s : State) (k : Nat) (f : Lane → Lane) : (s.upLane k f).twn = s.twn := rfl
@[simp] theorem State.upLane_trks (s : State) (k : Nat) (f : Lane → Lane) : (s.upLane k f).trks = s.trks := rfl
@[simp] theorem State.upLane_quad (s : State) (k : Nat) (f : Lane → Lane) : (s.upLane k f).quad = s.quad := rfl
@[simp] theorem State.upLane_net (s : State) (k : Nat) (f : Lane → Lane) : (s.upLane k f).net = s.net := rfl
@[simp] theorem State.upLane_doms (s : State) (k : Nat) (f : Lane → Lane) : (s.upLane k f).doms = s.doms := rfl
@[simp] theorem State.upLane_pdelays (s : State) (k : Nat) (f : Lane → Lane) : (s.upLane k f).pdelays = s.pdelays := rfl
@[simp] theorem State.upLane_isle (s : State) (k : Nat) (f : Lane → Lane) : (s.upLane k f).isle = s.isle := rfl
@[simp] theorem State.upLane_mst (s : State) (k : Nat) (f : Lane → Lane) : (s.upLane k f).mst = s.mst := rfl
@[simp] theorem State.upLane_clk (s : State) (k : Nat) (f : Lane → Lane) : (s.upLane k f).clk = s.clk := rfl
@[simp] theorem State.upLane_hlt (s : State) (k : Nat) (f : Lane → Lane) : (s.upLane k f).hlt = s.hlt := rfl
@[simp] theorem State.upLane_pwr (s : State) (k : Nat) (f : Lane → Lane) : (s.upLane k f).pwr = s.pwr := rfl
@[simp] theorem State.upLane_pins (s : State) (k : Nat) (f : Lane → Lane) : (s.upLane k f).pins = s.pins := rfl
@[simp] theorem State.upLane_word (s : State) (k : Nat) (f : Lane → Lane) (x : Nat) : (s.upLane k f).word x = s.word x := rfl
@[simp] theorem State.upLane_get (s : State) (k : Nat) (f : Lane → Lane) (x : RF) : (s.upLane k f).get x = s.get x := rfl
@[simp] theorem State.upLane_is (s : State) (k : Nat) (f : Lane → Lane) (x : RF) : (s.upLane k f).is x = s.is x := rfl
@[simp] theorem State.upLane_byte (s : State) (k : Nat) (f : Lane → Lane) (x : Nat) : (s.upLane k f).byte x = s.byte x := rfl

@[simp] theorem State.upEng_tb (s : State) (k : Nat) (f : Engine → Engine) : (s.upEng k f).tb = s.tb := rfl
@[simp] theorem State.upEng_pending (s : State) (k : Nat) (f : Engine → Engine) : (s.upEng k f).pending = s.pending := rfl
@[simp] theorem State.upEng_regs (s : State) (k : Nat) (f : Engine → Engine) : (s.upEng k f).regs = s.regs := rfl
@[simp] theorem State.upEng_mem (s : State) (k : Nat) (f : Engine → Engine) : (s.upEng k f).mem = s.mem := rfl
@[simp] theorem State.upEng_resp (s : State) (k : Nat) (f : Engine → Engine) : (s.upEng k f).resp = s.resp := rfl
@[simp] theorem State.upEng_holding (s : State) (k : Nat) (f : Engine → Engine) : (s.upEng k f).holding = s.holding := rfl
@[simp] theorem State.upEng_drawn (s : State) (k : Nat) (f : Engine → Engine) : (s.upEng k f).drawn = s.drawn := rfl
@[simp] theorem State.upEng_marks (s : State) (k : Nat) (f : Engine → Engine) : (s.upEng k f).marks = s.marks := rfl
@[simp] theorem State.upEng_rows (s : State) (k : Nat) (f : Engine → Engine) : (s.upEng k f).rows = s.rows := rfl
@[simp] theorem State.upEng_ldg (s : State) (k : Nat) (f : Engine → Engine) : (s.upEng k f).ldg = s.ldg := rfl
@[simp] theorem State.upEng_chans (s : State) (k : Nat) (f : Engine → Engine) : (s.upEng k f).chans = s.chans := rfl
@[simp] theorem State.upEng_groups (s : State) (k : Nat) (f : Engine → Engine) : (s.upEng k f).groups = s.groups := rfl
@[simp] theorem State.upEng_fltPins (s : State) (k : Nat) (f : Engine → Engine) : (s.upEng k f).fltPins = s.fltPins := rfl
@[simp] theorem State.upEng_lanes (s : State) (k : Nat) (f : Engine → Engine) : (s.upEng k f).lanes = s.lanes := rfl
@[simp] theorem State.upEng_mld (s : State) (k : Nat) (f : Engine → Engine) : (s.upEng k f).mld = s.mld := rfl
@[simp] theorem State.upEng_adcs (s : State) (k : Nat) (f : Engine → Engine) : (s.upEng k f).adcs = s.adcs := rfl
@[simp] theorem State.upEng_chains (s : State) (k : Nat) (f : Engine → Engine) : (s.upEng k f).chains = s.chains := rfl
@[simp] theorem State.upEng_scr (s : State) (k : Nat) (f : Engine → Engine) : (s.upEng k f).scr = s.scr := rfl
@[simp] theorem State.upEng_move (s : State) (k : Nat) (f : Engine → Engine) : (s.upEng k f).move = s.move := rfl
@[simp] theorem State.upEng_trigs (s : State) (k : Nat) (f : Engine → Engine) : (s.upEng k f).trigs = s.trigs := rfl
@[simp] theorem State.upEng_twn (s : State) (k : Nat) (f : Engine → Engine) : (s.upEng k f).twn = s.twn := rfl
@[simp] theorem State.upEng_trks (s : State) (k : Nat) (f : Engine → Engine) : (s.upEng k f).trks = s.trks := rfl
@[simp] theorem State.upEng_quad (s : State) (k : Nat) (f : Engine → Engine) : (s.upEng k f).quad = s.quad := rfl
@[simp] theorem State.upEng_net (s : State) (k : Nat) (f : Engine → Engine) : (s.upEng k f).net = s.net := rfl
@[simp] theorem State.upEng_doms (s : State) (k : Nat) (f : Engine → Engine) : (s.upEng k f).doms = s.doms := rfl
@[simp] theorem State.upEng_pdelays (s : State) (k : Nat) (f : Engine → Engine) : (s.upEng k f).pdelays = s.pdelays := rfl
@[simp] theorem State.upEng_isle (s : State) (k : Nat) (f : Engine → Engine) : (s.upEng k f).isle = s.isle := rfl
@[simp] theorem State.upEng_mst (s : State) (k : Nat) (f : Engine → Engine) : (s.upEng k f).mst = s.mst := rfl
@[simp] theorem State.upEng_clk (s : State) (k : Nat) (f : Engine → Engine) : (s.upEng k f).clk = s.clk := rfl
@[simp] theorem State.upEng_hlt (s : State) (k : Nat) (f : Engine → Engine) : (s.upEng k f).hlt = s.hlt := rfl
@[simp] theorem State.upEng_pwr (s : State) (k : Nat) (f : Engine → Engine) : (s.upEng k f).pwr = s.pwr := rfl
@[simp] theorem State.upEng_pins (s : State) (k : Nat) (f : Engine → Engine) : (s.upEng k f).pins = s.pins := rfl
@[simp] theorem State.upEng_word (s : State) (k : Nat) (f : Engine → Engine) (x : Nat) : (s.upEng k f).word x = s.word x := rfl
@[simp] theorem State.upEng_get (s : State) (k : Nat) (f : Engine → Engine) (x : RF) : (s.upEng k f).get x = s.get x := rfl
@[simp] theorem State.upEng_is (s : State) (k : Nat) (f : Engine → Engine) (x : RF) : (s.upEng k f).is x = s.is x := rfl
@[simp] theorem State.upEng_byte (s : State) (k : Nat) (f : Engine → Engine) (x : Nat) : (s.upEng k f).byte x = s.byte x := rfl

@[simp] theorem State.upAdc_tb (s : State) (k : Nat) (f : AdcGroup → AdcGroup) : (s.upAdc k f).tb = s.tb := rfl
@[simp] theorem State.upAdc_pending (s : State) (k : Nat) (f : AdcGroup → AdcGroup) : (s.upAdc k f).pending = s.pending := rfl
@[simp] theorem State.upAdc_regs (s : State) (k : Nat) (f : AdcGroup → AdcGroup) : (s.upAdc k f).regs = s.regs := rfl
@[simp] theorem State.upAdc_mem (s : State) (k : Nat) (f : AdcGroup → AdcGroup) : (s.upAdc k f).mem = s.mem := rfl
@[simp] theorem State.upAdc_resp (s : State) (k : Nat) (f : AdcGroup → AdcGroup) : (s.upAdc k f).resp = s.resp := rfl
@[simp] theorem State.upAdc_holding (s : State) (k : Nat) (f : AdcGroup → AdcGroup) : (s.upAdc k f).holding = s.holding := rfl
@[simp] theorem State.upAdc_drawn (s : State) (k : Nat) (f : AdcGroup → AdcGroup) : (s.upAdc k f).drawn = s.drawn := rfl
@[simp] theorem State.upAdc_marks (s : State) (k : Nat) (f : AdcGroup → AdcGroup) : (s.upAdc k f).marks = s.marks := rfl
@[simp] theorem State.upAdc_rows (s : State) (k : Nat) (f : AdcGroup → AdcGroup) : (s.upAdc k f).rows = s.rows := rfl
@[simp] theorem State.upAdc_ldg (s : State) (k : Nat) (f : AdcGroup → AdcGroup) : (s.upAdc k f).ldg = s.ldg := rfl
@[simp] theorem State.upAdc_chans (s : State) (k : Nat) (f : AdcGroup → AdcGroup) : (s.upAdc k f).chans = s.chans := rfl
@[simp] theorem State.upAdc_groups (s : State) (k : Nat) (f : AdcGroup → AdcGroup) : (s.upAdc k f).groups = s.groups := rfl
@[simp] theorem State.upAdc_fltPins (s : State) (k : Nat) (f : AdcGroup → AdcGroup) : (s.upAdc k f).fltPins = s.fltPins := rfl
@[simp] theorem State.upAdc_lanes (s : State) (k : Nat) (f : AdcGroup → AdcGroup) : (s.upAdc k f).lanes = s.lanes := rfl
@[simp] theorem State.upAdc_engs (s : State) (k : Nat) (f : AdcGroup → AdcGroup) : (s.upAdc k f).engs = s.engs := rfl
@[simp] theorem State.upAdc_mld (s : State) (k : Nat) (f : AdcGroup → AdcGroup) : (s.upAdc k f).mld = s.mld := rfl
@[simp] theorem State.upAdc_chains (s : State) (k : Nat) (f : AdcGroup → AdcGroup) : (s.upAdc k f).chains = s.chains := rfl
@[simp] theorem State.upAdc_scr (s : State) (k : Nat) (f : AdcGroup → AdcGroup) : (s.upAdc k f).scr = s.scr := rfl
@[simp] theorem State.upAdc_move (s : State) (k : Nat) (f : AdcGroup → AdcGroup) : (s.upAdc k f).move = s.move := rfl
@[simp] theorem State.upAdc_trigs (s : State) (k : Nat) (f : AdcGroup → AdcGroup) : (s.upAdc k f).trigs = s.trigs := rfl
@[simp] theorem State.upAdc_twn (s : State) (k : Nat) (f : AdcGroup → AdcGroup) : (s.upAdc k f).twn = s.twn := rfl
@[simp] theorem State.upAdc_trks (s : State) (k : Nat) (f : AdcGroup → AdcGroup) : (s.upAdc k f).trks = s.trks := rfl
@[simp] theorem State.upAdc_quad (s : State) (k : Nat) (f : AdcGroup → AdcGroup) : (s.upAdc k f).quad = s.quad := rfl
@[simp] theorem State.upAdc_net (s : State) (k : Nat) (f : AdcGroup → AdcGroup) : (s.upAdc k f).net = s.net := rfl
@[simp] theorem State.upAdc_doms (s : State) (k : Nat) (f : AdcGroup → AdcGroup) : (s.upAdc k f).doms = s.doms := rfl
@[simp] theorem State.upAdc_pdelays (s : State) (k : Nat) (f : AdcGroup → AdcGroup) : (s.upAdc k f).pdelays = s.pdelays := rfl
@[simp] theorem State.upAdc_isle (s : State) (k : Nat) (f : AdcGroup → AdcGroup) : (s.upAdc k f).isle = s.isle := rfl
@[simp] theorem State.upAdc_mst (s : State) (k : Nat) (f : AdcGroup → AdcGroup) : (s.upAdc k f).mst = s.mst := rfl
@[simp] theorem State.upAdc_clk (s : State) (k : Nat) (f : AdcGroup → AdcGroup) : (s.upAdc k f).clk = s.clk := rfl
@[simp] theorem State.upAdc_hlt (s : State) (k : Nat) (f : AdcGroup → AdcGroup) : (s.upAdc k f).hlt = s.hlt := rfl
@[simp] theorem State.upAdc_pwr (s : State) (k : Nat) (f : AdcGroup → AdcGroup) : (s.upAdc k f).pwr = s.pwr := rfl
@[simp] theorem State.upAdc_pins (s : State) (k : Nat) (f : AdcGroup → AdcGroup) : (s.upAdc k f).pins = s.pins := rfl
@[simp] theorem State.upAdc_word (s : State) (k : Nat) (f : AdcGroup → AdcGroup) (x : Nat) : (s.upAdc k f).word x = s.word x := rfl
@[simp] theorem State.upAdc_get (s : State) (k : Nat) (f : AdcGroup → AdcGroup) (x : RF) : (s.upAdc k f).get x = s.get x := rfl
@[simp] theorem State.upAdc_is (s : State) (k : Nat) (f : AdcGroup → AdcGroup) (x : RF) : (s.upAdc k f).is x = s.is x := rfl
@[simp] theorem State.upAdc_byte (s : State) (k : Nat) (f : AdcGroup → AdcGroup) (x : Nat) : (s.upAdc k f).byte x = s.byte x := rfl

@[simp] theorem State.upChain_tb (s : State) (k : Nat) (f : Chain → Chain) : (s.upChain k f).tb = s.tb := rfl
@[simp] theorem State.upChain_pending (s : State) (k : Nat) (f : Chain → Chain) : (s.upChain k f).pending = s.pending := rfl
@[simp] theorem State.upChain_regs (s : State) (k : Nat) (f : Chain → Chain) : (s.upChain k f).regs = s.regs := rfl
@[simp] theorem State.upChain_mem (s : State) (k : Nat) (f : Chain → Chain) : (s.upChain k f).mem = s.mem := rfl
@[simp] theorem State.upChain_resp (s : State) (k : Nat) (f : Chain → Chain) : (s.upChain k f).resp = s.resp := rfl
@[simp] theorem State.upChain_holding (s : State) (k : Nat) (f : Chain → Chain) : (s.upChain k f).holding = s.holding := rfl
@[simp] theorem State.upChain_drawn (s : State) (k : Nat) (f : Chain → Chain) : (s.upChain k f).drawn = s.drawn := rfl
@[simp] theorem State.upChain_marks (s : State) (k : Nat) (f : Chain → Chain) : (s.upChain k f).marks = s.marks := rfl
@[simp] theorem State.upChain_rows (s : State) (k : Nat) (f : Chain → Chain) : (s.upChain k f).rows = s.rows := rfl
@[simp] theorem State.upChain_ldg (s : State) (k : Nat) (f : Chain → Chain) : (s.upChain k f).ldg = s.ldg := rfl
@[simp] theorem State.upChain_chans (s : State) (k : Nat) (f : Chain → Chain) : (s.upChain k f).chans = s.chans := rfl
@[simp] theorem State.upChain_groups (s : State) (k : Nat) (f : Chain → Chain) : (s.upChain k f).groups = s.groups := rfl
@[simp] theorem State.upChain_fltPins (s : State) (k : Nat) (f : Chain → Chain) : (s.upChain k f).fltPins = s.fltPins := rfl
@[simp] theorem State.upChain_lanes (s : State) (k : Nat) (f : Chain → Chain) : (s.upChain k f).lanes = s.lanes := rfl
@[simp] theorem State.upChain_engs (s : State) (k : Nat) (f : Chain → Chain) : (s.upChain k f).engs = s.engs := rfl
@[simp] theorem State.upChain_mld (s : State) (k : Nat) (f : Chain → Chain) : (s.upChain k f).mld = s.mld := rfl
@[simp] theorem State.upChain_adcs (s : State) (k : Nat) (f : Chain → Chain) : (s.upChain k f).adcs = s.adcs := rfl
@[simp] theorem State.upChain_scr (s : State) (k : Nat) (f : Chain → Chain) : (s.upChain k f).scr = s.scr := rfl
@[simp] theorem State.upChain_move (s : State) (k : Nat) (f : Chain → Chain) : (s.upChain k f).move = s.move := rfl
@[simp] theorem State.upChain_trigs (s : State) (k : Nat) (f : Chain → Chain) : (s.upChain k f).trigs = s.trigs := rfl
@[simp] theorem State.upChain_twn (s : State) (k : Nat) (f : Chain → Chain) : (s.upChain k f).twn = s.twn := rfl
@[simp] theorem State.upChain_trks (s : State) (k : Nat) (f : Chain → Chain) : (s.upChain k f).trks = s.trks := rfl
@[simp] theorem State.upChain_quad (s : State) (k : Nat) (f : Chain → Chain) : (s.upChain k f).quad = s.quad := rfl
@[simp] theorem State.upChain_net (s : State) (k : Nat) (f : Chain → Chain) : (s.upChain k f).net = s.net := rfl
@[simp] theorem State.upChain_doms (s : State) (k : Nat) (f : Chain → Chain) : (s.upChain k f).doms = s.doms := rfl
@[simp] theorem State.upChain_pdelays (s : State) (k : Nat) (f : Chain → Chain) : (s.upChain k f).pdelays = s.pdelays := rfl
@[simp] theorem State.upChain_isle (s : State) (k : Nat) (f : Chain → Chain) : (s.upChain k f).isle = s.isle := rfl
@[simp] theorem State.upChain_mst (s : State) (k : Nat) (f : Chain → Chain) : (s.upChain k f).mst = s.mst := rfl
@[simp] theorem State.upChain_clk (s : State) (k : Nat) (f : Chain → Chain) : (s.upChain k f).clk = s.clk := rfl
@[simp] theorem State.upChain_hlt (s : State) (k : Nat) (f : Chain → Chain) : (s.upChain k f).hlt = s.hlt := rfl
@[simp] theorem State.upChain_pwr (s : State) (k : Nat) (f : Chain → Chain) : (s.upChain k f).pwr = s.pwr := rfl
@[simp] theorem State.upChain_pins (s : State) (k : Nat) (f : Chain → Chain) : (s.upChain k f).pins = s.pins := rfl
@[simp] theorem State.upChain_word (s : State) (k : Nat) (f : Chain → Chain) (x : Nat) : (s.upChain k f).word x = s.word x := rfl
@[simp] theorem State.upChain_get (s : State) (k : Nat) (f : Chain → Chain) (x : RF) : (s.upChain k f).get x = s.get x := rfl
@[simp] theorem State.upChain_is (s : State) (k : Nat) (f : Chain → Chain) (x : RF) : (s.upChain k f).is x = s.is x := rfl
@[simp] theorem State.upChain_byte (s : State) (k : Nat) (f : Chain → Chain) (x : Nat) : (s.upChain k f).byte x = s.byte x := rfl

@[simp] theorem State.upTrk_tb (s : State) (k : Nat) (f : Tracker → Tracker) : (s.upTrk k f).tb = s.tb := rfl
@[simp] theorem State.upTrk_pending (s : State) (k : Nat) (f : Tracker → Tracker) : (s.upTrk k f).pending = s.pending := rfl
@[simp] theorem State.upTrk_regs (s : State) (k : Nat) (f : Tracker → Tracker) : (s.upTrk k f).regs = s.regs := rfl
@[simp] theorem State.upTrk_mem (s : State) (k : Nat) (f : Tracker → Tracker) : (s.upTrk k f).mem = s.mem := rfl
@[simp] theorem State.upTrk_resp (s : State) (k : Nat) (f : Tracker → Tracker) : (s.upTrk k f).resp = s.resp := rfl
@[simp] theorem State.upTrk_holding (s : State) (k : Nat) (f : Tracker → Tracker) : (s.upTrk k f).holding = s.holding := rfl
@[simp] theorem State.upTrk_drawn (s : State) (k : Nat) (f : Tracker → Tracker) : (s.upTrk k f).drawn = s.drawn := rfl
@[simp] theorem State.upTrk_marks (s : State) (k : Nat) (f : Tracker → Tracker) : (s.upTrk k f).marks = s.marks := rfl
@[simp] theorem State.upTrk_rows (s : State) (k : Nat) (f : Tracker → Tracker) : (s.upTrk k f).rows = s.rows := rfl
@[simp] theorem State.upTrk_ldg (s : State) (k : Nat) (f : Tracker → Tracker) : (s.upTrk k f).ldg = s.ldg := rfl
@[simp] theorem State.upTrk_chans (s : State) (k : Nat) (f : Tracker → Tracker) : (s.upTrk k f).chans = s.chans := rfl
@[simp] theorem State.upTrk_groups (s : State) (k : Nat) (f : Tracker → Tracker) : (s.upTrk k f).groups = s.groups := rfl
@[simp] theorem State.upTrk_fltPins (s : State) (k : Nat) (f : Tracker → Tracker) : (s.upTrk k f).fltPins = s.fltPins := rfl
@[simp] theorem State.upTrk_lanes (s : State) (k : Nat) (f : Tracker → Tracker) : (s.upTrk k f).lanes = s.lanes := rfl
@[simp] theorem State.upTrk_engs (s : State) (k : Nat) (f : Tracker → Tracker) : (s.upTrk k f).engs = s.engs := rfl
@[simp] theorem State.upTrk_mld (s : State) (k : Nat) (f : Tracker → Tracker) : (s.upTrk k f).mld = s.mld := rfl
@[simp] theorem State.upTrk_adcs (s : State) (k : Nat) (f : Tracker → Tracker) : (s.upTrk k f).adcs = s.adcs := rfl
@[simp] theorem State.upTrk_chains (s : State) (k : Nat) (f : Tracker → Tracker) : (s.upTrk k f).chains = s.chains := rfl
@[simp] theorem State.upTrk_scr (s : State) (k : Nat) (f : Tracker → Tracker) : (s.upTrk k f).scr = s.scr := rfl
@[simp] theorem State.upTrk_move (s : State) (k : Nat) (f : Tracker → Tracker) : (s.upTrk k f).move = s.move := rfl
@[simp] theorem State.upTrk_trigs (s : State) (k : Nat) (f : Tracker → Tracker) : (s.upTrk k f).trigs = s.trigs := rfl
@[simp] theorem State.upTrk_twn (s : State) (k : Nat) (f : Tracker → Tracker) : (s.upTrk k f).twn = s.twn := rfl
@[simp] theorem State.upTrk_quad (s : State) (k : Nat) (f : Tracker → Tracker) : (s.upTrk k f).quad = s.quad := rfl
@[simp] theorem State.upTrk_net (s : State) (k : Nat) (f : Tracker → Tracker) : (s.upTrk k f).net = s.net := rfl
@[simp] theorem State.upTrk_doms (s : State) (k : Nat) (f : Tracker → Tracker) : (s.upTrk k f).doms = s.doms := rfl
@[simp] theorem State.upTrk_pdelays (s : State) (k : Nat) (f : Tracker → Tracker) : (s.upTrk k f).pdelays = s.pdelays := rfl
@[simp] theorem State.upTrk_isle (s : State) (k : Nat) (f : Tracker → Tracker) : (s.upTrk k f).isle = s.isle := rfl
@[simp] theorem State.upTrk_mst (s : State) (k : Nat) (f : Tracker → Tracker) : (s.upTrk k f).mst = s.mst := rfl
@[simp] theorem State.upTrk_clk (s : State) (k : Nat) (f : Tracker → Tracker) : (s.upTrk k f).clk = s.clk := rfl
@[simp] theorem State.upTrk_hlt (s : State) (k : Nat) (f : Tracker → Tracker) : (s.upTrk k f).hlt = s.hlt := rfl
@[simp] theorem State.upTrk_pwr (s : State) (k : Nat) (f : Tracker → Tracker) : (s.upTrk k f).pwr = s.pwr := rfl
@[simp] theorem State.upTrk_pins (s : State) (k : Nat) (f : Tracker → Tracker) : (s.upTrk k f).pins = s.pins := rfl
@[simp] theorem State.upTrk_word (s : State) (k : Nat) (f : Tracker → Tracker) (x : Nat) : (s.upTrk k f).word x = s.word x := rfl
@[simp] theorem State.upTrk_get (s : State) (k : Nat) (f : Tracker → Tracker) (x : RF) : (s.upTrk k f).get x = s.get x := rfl
@[simp] theorem State.upTrk_is (s : State) (k : Nat) (f : Tracker → Tracker) (x : RF) : (s.upTrk k f).is x = s.is x := rfl
@[simp] theorem State.upTrk_byte (s : State) (k : Nat) (f : Tracker → Tracker) (x : Nat) : (s.upTrk k f).byte x = s.byte x := rfl

@[simp] theorem State.upTrig_tb (s : State) (k : Nat) (f : Trigger → Trigger) : (s.upTrig k f).tb = s.tb := rfl
@[simp] theorem State.upTrig_pending (s : State) (k : Nat) (f : Trigger → Trigger) : (s.upTrig k f).pending = s.pending := rfl
@[simp] theorem State.upTrig_regs (s : State) (k : Nat) (f : Trigger → Trigger) : (s.upTrig k f).regs = s.regs := rfl
@[simp] theorem State.upTrig_mem (s : State) (k : Nat) (f : Trigger → Trigger) : (s.upTrig k f).mem = s.mem := rfl
@[simp] theorem State.upTrig_resp (s : State) (k : Nat) (f : Trigger → Trigger) : (s.upTrig k f).resp = s.resp := rfl
@[simp] theorem State.upTrig_holding (s : State) (k : Nat) (f : Trigger → Trigger) : (s.upTrig k f).holding = s.holding := rfl
@[simp] theorem State.upTrig_drawn (s : State) (k : Nat) (f : Trigger → Trigger) : (s.upTrig k f).drawn = s.drawn := rfl
@[simp] theorem State.upTrig_marks (s : State) (k : Nat) (f : Trigger → Trigger) : (s.upTrig k f).marks = s.marks := rfl
@[simp] theorem State.upTrig_rows (s : State) (k : Nat) (f : Trigger → Trigger) : (s.upTrig k f).rows = s.rows := rfl
@[simp] theorem State.upTrig_ldg (s : State) (k : Nat) (f : Trigger → Trigger) : (s.upTrig k f).ldg = s.ldg := rfl
@[simp] theorem State.upTrig_chans (s : State) (k : Nat) (f : Trigger → Trigger) : (s.upTrig k f).chans = s.chans := rfl
@[simp] theorem State.upTrig_groups (s : State) (k : Nat) (f : Trigger → Trigger) : (s.upTrig k f).groups = s.groups := rfl
@[simp] theorem State.upTrig_fltPins (s : State) (k : Nat) (f : Trigger → Trigger) : (s.upTrig k f).fltPins = s.fltPins := rfl
@[simp] theorem State.upTrig_lanes (s : State) (k : Nat) (f : Trigger → Trigger) : (s.upTrig k f).lanes = s.lanes := rfl
@[simp] theorem State.upTrig_engs (s : State) (k : Nat) (f : Trigger → Trigger) : (s.upTrig k f).engs = s.engs := rfl
@[simp] theorem State.upTrig_mld (s : State) (k : Nat) (f : Trigger → Trigger) : (s.upTrig k f).mld = s.mld := rfl
@[simp] theorem State.upTrig_adcs (s : State) (k : Nat) (f : Trigger → Trigger) : (s.upTrig k f).adcs = s.adcs := rfl
@[simp] theorem State.upTrig_chains (s : State) (k : Nat) (f : Trigger → Trigger) : (s.upTrig k f).chains = s.chains := rfl
@[simp] theorem State.upTrig_scr (s : State) (k : Nat) (f : Trigger → Trigger) : (s.upTrig k f).scr = s.scr := rfl
@[simp] theorem State.upTrig_move (s : State) (k : Nat) (f : Trigger → Trigger) : (s.upTrig k f).move = s.move := rfl
@[simp] theorem State.upTrig_twn (s : State) (k : Nat) (f : Trigger → Trigger) : (s.upTrig k f).twn = s.twn := rfl
@[simp] theorem State.upTrig_trks (s : State) (k : Nat) (f : Trigger → Trigger) : (s.upTrig k f).trks = s.trks := rfl
@[simp] theorem State.upTrig_quad (s : State) (k : Nat) (f : Trigger → Trigger) : (s.upTrig k f).quad = s.quad := rfl
@[simp] theorem State.upTrig_net (s : State) (k : Nat) (f : Trigger → Trigger) : (s.upTrig k f).net = s.net := rfl
@[simp] theorem State.upTrig_doms (s : State) (k : Nat) (f : Trigger → Trigger) : (s.upTrig k f).doms = s.doms := rfl
@[simp] theorem State.upTrig_pdelays (s : State) (k : Nat) (f : Trigger → Trigger) : (s.upTrig k f).pdelays = s.pdelays := rfl
@[simp] theorem State.upTrig_isle (s : State) (k : Nat) (f : Trigger → Trigger) : (s.upTrig k f).isle = s.isle := rfl
@[simp] theorem State.upTrig_mst (s : State) (k : Nat) (f : Trigger → Trigger) : (s.upTrig k f).mst = s.mst := rfl
@[simp] theorem State.upTrig_clk (s : State) (k : Nat) (f : Trigger → Trigger) : (s.upTrig k f).clk = s.clk := rfl
@[simp] theorem State.upTrig_hlt (s : State) (k : Nat) (f : Trigger → Trigger) : (s.upTrig k f).hlt = s.hlt := rfl
@[simp] theorem State.upTrig_pwr (s : State) (k : Nat) (f : Trigger → Trigger) : (s.upTrig k f).pwr = s.pwr := rfl
@[simp] theorem State.upTrig_pins (s : State) (k : Nat) (f : Trigger → Trigger) : (s.upTrig k f).pins = s.pins := rfl
@[simp] theorem State.upTrig_word (s : State) (k : Nat) (f : Trigger → Trigger) (x : Nat) : (s.upTrig k f).word x = s.word x := rfl
@[simp] theorem State.upTrig_get (s : State) (k : Nat) (f : Trigger → Trigger) (x : RF) : (s.upTrig k f).get x = s.get x := rfl
@[simp] theorem State.upTrig_is (s : State) (k : Nat) (f : Trigger → Trigger) (x : RF) : (s.upTrig k f).is x = s.is x := rfl
@[simp] theorem State.upTrig_byte (s : State) (k : Nat) (f : Trigger → Trigger) (x : Nat) : (s.upTrig k f).byte x = s.byte x := rfl

@[simp] theorem State.upDom_tb (s : State) (k : Nat) (f : Domain → Domain) : (s.upDom k f).tb = s.tb := rfl
@[simp] theorem State.upDom_pending (s : State) (k : Nat) (f : Domain → Domain) : (s.upDom k f).pending = s.pending := rfl
@[simp] theorem State.upDom_regs (s : State) (k : Nat) (f : Domain → Domain) : (s.upDom k f).regs = s.regs := rfl
@[simp] theorem State.upDom_mem (s : State) (k : Nat) (f : Domain → Domain) : (s.upDom k f).mem = s.mem := rfl
@[simp] theorem State.upDom_resp (s : State) (k : Nat) (f : Domain → Domain) : (s.upDom k f).resp = s.resp := rfl
@[simp] theorem State.upDom_holding (s : State) (k : Nat) (f : Domain → Domain) : (s.upDom k f).holding = s.holding := rfl
@[simp] theorem State.upDom_drawn (s : State) (k : Nat) (f : Domain → Domain) : (s.upDom k f).drawn = s.drawn := rfl
@[simp] theorem State.upDom_marks (s : State) (k : Nat) (f : Domain → Domain) : (s.upDom k f).marks = s.marks := rfl
@[simp] theorem State.upDom_rows (s : State) (k : Nat) (f : Domain → Domain) : (s.upDom k f).rows = s.rows := rfl
@[simp] theorem State.upDom_ldg (s : State) (k : Nat) (f : Domain → Domain) : (s.upDom k f).ldg = s.ldg := rfl
@[simp] theorem State.upDom_chans (s : State) (k : Nat) (f : Domain → Domain) : (s.upDom k f).chans = s.chans := rfl
@[simp] theorem State.upDom_groups (s : State) (k : Nat) (f : Domain → Domain) : (s.upDom k f).groups = s.groups := rfl
@[simp] theorem State.upDom_fltPins (s : State) (k : Nat) (f : Domain → Domain) : (s.upDom k f).fltPins = s.fltPins := rfl
@[simp] theorem State.upDom_lanes (s : State) (k : Nat) (f : Domain → Domain) : (s.upDom k f).lanes = s.lanes := rfl
@[simp] theorem State.upDom_engs (s : State) (k : Nat) (f : Domain → Domain) : (s.upDom k f).engs = s.engs := rfl
@[simp] theorem State.upDom_mld (s : State) (k : Nat) (f : Domain → Domain) : (s.upDom k f).mld = s.mld := rfl
@[simp] theorem State.upDom_adcs (s : State) (k : Nat) (f : Domain → Domain) : (s.upDom k f).adcs = s.adcs := rfl
@[simp] theorem State.upDom_chains (s : State) (k : Nat) (f : Domain → Domain) : (s.upDom k f).chains = s.chains := rfl
@[simp] theorem State.upDom_scr (s : State) (k : Nat) (f : Domain → Domain) : (s.upDom k f).scr = s.scr := rfl
@[simp] theorem State.upDom_move (s : State) (k : Nat) (f : Domain → Domain) : (s.upDom k f).move = s.move := rfl
@[simp] theorem State.upDom_trigs (s : State) (k : Nat) (f : Domain → Domain) : (s.upDom k f).trigs = s.trigs := rfl
@[simp] theorem State.upDom_twn (s : State) (k : Nat) (f : Domain → Domain) : (s.upDom k f).twn = s.twn := rfl
@[simp] theorem State.upDom_trks (s : State) (k : Nat) (f : Domain → Domain) : (s.upDom k f).trks = s.trks := rfl
@[simp] theorem State.upDom_quad (s : State) (k : Nat) (f : Domain → Domain) : (s.upDom k f).quad = s.quad := rfl
@[simp] theorem State.upDom_net (s : State) (k : Nat) (f : Domain → Domain) : (s.upDom k f).net = s.net := rfl
@[simp] theorem State.upDom_pdelays (s : State) (k : Nat) (f : Domain → Domain) : (s.upDom k f).pdelays = s.pdelays := rfl
@[simp] theorem State.upDom_isle (s : State) (k : Nat) (f : Domain → Domain) : (s.upDom k f).isle = s.isle := rfl
@[simp] theorem State.upDom_mst (s : State) (k : Nat) (f : Domain → Domain) : (s.upDom k f).mst = s.mst := rfl
@[simp] theorem State.upDom_clk (s : State) (k : Nat) (f : Domain → Domain) : (s.upDom k f).clk = s.clk := rfl
@[simp] theorem State.upDom_hlt (s : State) (k : Nat) (f : Domain → Domain) : (s.upDom k f).hlt = s.hlt := rfl
@[simp] theorem State.upDom_pwr (s : State) (k : Nat) (f : Domain → Domain) : (s.upDom k f).pwr = s.pwr := rfl
@[simp] theorem State.upDom_pins (s : State) (k : Nat) (f : Domain → Domain) : (s.upDom k f).pins = s.pins := rfl
@[simp] theorem State.upDom_word (s : State) (k : Nat) (f : Domain → Domain) (x : Nat) : (s.upDom k f).word x = s.word x := rfl
@[simp] theorem State.upDom_get (s : State) (k : Nat) (f : Domain → Domain) (x : RF) : (s.upDom k f).get x = s.get x := rfl
@[simp] theorem State.upDom_is (s : State) (k : Nat) (f : Domain → Domain) (x : RF) : (s.upDom k f).is x = s.is x := rfl
@[simp] theorem State.upDom_byte (s : State) (k : Nat) (f : Domain → Domain) (x : Nat) : (s.upDom k f).byte x = s.byte x := rfl

@[simp] theorem State.upPdelay_tb (s : State) (k : Nat) (f : Pdelay → Pdelay) : (s.upPdelay k f).tb = s.tb := rfl
@[simp] theorem State.upPdelay_pending (s : State) (k : Nat) (f : Pdelay → Pdelay) : (s.upPdelay k f).pending = s.pending := rfl
@[simp] theorem State.upPdelay_regs (s : State) (k : Nat) (f : Pdelay → Pdelay) : (s.upPdelay k f).regs = s.regs := rfl
@[simp] theorem State.upPdelay_mem (s : State) (k : Nat) (f : Pdelay → Pdelay) : (s.upPdelay k f).mem = s.mem := rfl
@[simp] theorem State.upPdelay_resp (s : State) (k : Nat) (f : Pdelay → Pdelay) : (s.upPdelay k f).resp = s.resp := rfl
@[simp] theorem State.upPdelay_holding (s : State) (k : Nat) (f : Pdelay → Pdelay) : (s.upPdelay k f).holding = s.holding := rfl
@[simp] theorem State.upPdelay_drawn (s : State) (k : Nat) (f : Pdelay → Pdelay) : (s.upPdelay k f).drawn = s.drawn := rfl
@[simp] theorem State.upPdelay_marks (s : State) (k : Nat) (f : Pdelay → Pdelay) : (s.upPdelay k f).marks = s.marks := rfl
@[simp] theorem State.upPdelay_rows (s : State) (k : Nat) (f : Pdelay → Pdelay) : (s.upPdelay k f).rows = s.rows := rfl
@[simp] theorem State.upPdelay_ldg (s : State) (k : Nat) (f : Pdelay → Pdelay) : (s.upPdelay k f).ldg = s.ldg := rfl
@[simp] theorem State.upPdelay_chans (s : State) (k : Nat) (f : Pdelay → Pdelay) : (s.upPdelay k f).chans = s.chans := rfl
@[simp] theorem State.upPdelay_groups (s : State) (k : Nat) (f : Pdelay → Pdelay) : (s.upPdelay k f).groups = s.groups := rfl
@[simp] theorem State.upPdelay_fltPins (s : State) (k : Nat) (f : Pdelay → Pdelay) : (s.upPdelay k f).fltPins = s.fltPins := rfl
@[simp] theorem State.upPdelay_lanes (s : State) (k : Nat) (f : Pdelay → Pdelay) : (s.upPdelay k f).lanes = s.lanes := rfl
@[simp] theorem State.upPdelay_engs (s : State) (k : Nat) (f : Pdelay → Pdelay) : (s.upPdelay k f).engs = s.engs := rfl
@[simp] theorem State.upPdelay_mld (s : State) (k : Nat) (f : Pdelay → Pdelay) : (s.upPdelay k f).mld = s.mld := rfl
@[simp] theorem State.upPdelay_adcs (s : State) (k : Nat) (f : Pdelay → Pdelay) : (s.upPdelay k f).adcs = s.adcs := rfl
@[simp] theorem State.upPdelay_chains (s : State) (k : Nat) (f : Pdelay → Pdelay) : (s.upPdelay k f).chains = s.chains := rfl
@[simp] theorem State.upPdelay_scr (s : State) (k : Nat) (f : Pdelay → Pdelay) : (s.upPdelay k f).scr = s.scr := rfl
@[simp] theorem State.upPdelay_move (s : State) (k : Nat) (f : Pdelay → Pdelay) : (s.upPdelay k f).move = s.move := rfl
@[simp] theorem State.upPdelay_trigs (s : State) (k : Nat) (f : Pdelay → Pdelay) : (s.upPdelay k f).trigs = s.trigs := rfl
@[simp] theorem State.upPdelay_twn (s : State) (k : Nat) (f : Pdelay → Pdelay) : (s.upPdelay k f).twn = s.twn := rfl
@[simp] theorem State.upPdelay_trks (s : State) (k : Nat) (f : Pdelay → Pdelay) : (s.upPdelay k f).trks = s.trks := rfl
@[simp] theorem State.upPdelay_quad (s : State) (k : Nat) (f : Pdelay → Pdelay) : (s.upPdelay k f).quad = s.quad := rfl
@[simp] theorem State.upPdelay_net (s : State) (k : Nat) (f : Pdelay → Pdelay) : (s.upPdelay k f).net = s.net := rfl
@[simp] theorem State.upPdelay_doms (s : State) (k : Nat) (f : Pdelay → Pdelay) : (s.upPdelay k f).doms = s.doms := rfl
@[simp] theorem State.upPdelay_isle (s : State) (k : Nat) (f : Pdelay → Pdelay) : (s.upPdelay k f).isle = s.isle := rfl
@[simp] theorem State.upPdelay_mst (s : State) (k : Nat) (f : Pdelay → Pdelay) : (s.upPdelay k f).mst = s.mst := rfl
@[simp] theorem State.upPdelay_clk (s : State) (k : Nat) (f : Pdelay → Pdelay) : (s.upPdelay k f).clk = s.clk := rfl
@[simp] theorem State.upPdelay_hlt (s : State) (k : Nat) (f : Pdelay → Pdelay) : (s.upPdelay k f).hlt = s.hlt := rfl
@[simp] theorem State.upPdelay_pwr (s : State) (k : Nat) (f : Pdelay → Pdelay) : (s.upPdelay k f).pwr = s.pwr := rfl
@[simp] theorem State.upPdelay_pins (s : State) (k : Nat) (f : Pdelay → Pdelay) : (s.upPdelay k f).pins = s.pins := rfl
@[simp] theorem State.upPdelay_word (s : State) (k : Nat) (f : Pdelay → Pdelay) (x : Nat) : (s.upPdelay k f).word x = s.word x := rfl
@[simp] theorem State.upPdelay_get (s : State) (k : Nat) (f : Pdelay → Pdelay) (x : RF) : (s.upPdelay k f).get x = s.get x := rfl
@[simp] theorem State.upPdelay_is (s : State) (k : Nat) (f : Pdelay → Pdelay) (x : RF) : (s.upPdelay k f).is x = s.is x := rfl
@[simp] theorem State.upPdelay_byte (s : State) (k : Nat) (f : Pdelay → Pdelay) (x : Nat) : (s.upPdelay k f).byte x = s.byte x := rfl

@[simp] theorem State.upNet_tb (s : State) (f : Net → Net) : (s.upNet f).tb = s.tb := rfl
@[simp] theorem State.upNet_pending (s : State) (f : Net → Net) : (s.upNet f).pending = s.pending := rfl
@[simp] theorem State.upNet_regs (s : State) (f : Net → Net) : (s.upNet f).regs = s.regs := rfl
@[simp] theorem State.upNet_mem (s : State) (f : Net → Net) : (s.upNet f).mem = s.mem := rfl
@[simp] theorem State.upNet_resp (s : State) (f : Net → Net) : (s.upNet f).resp = s.resp := rfl
@[simp] theorem State.upNet_holding (s : State) (f : Net → Net) : (s.upNet f).holding = s.holding := rfl
@[simp] theorem State.upNet_drawn (s : State) (f : Net → Net) : (s.upNet f).drawn = s.drawn := rfl
@[simp] theorem State.upNet_marks (s : State) (f : Net → Net) : (s.upNet f).marks = s.marks := rfl
@[simp] theorem State.upNet_rows (s : State) (f : Net → Net) : (s.upNet f).rows = s.rows := rfl
@[simp] theorem State.upNet_ldg (s : State) (f : Net → Net) : (s.upNet f).ldg = s.ldg := rfl
@[simp] theorem State.upNet_chans (s : State) (f : Net → Net) : (s.upNet f).chans = s.chans := rfl
@[simp] theorem State.upNet_groups (s : State) (f : Net → Net) : (s.upNet f).groups = s.groups := rfl
@[simp] theorem State.upNet_fltPins (s : State) (f : Net → Net) : (s.upNet f).fltPins = s.fltPins := rfl
@[simp] theorem State.upNet_lanes (s : State) (f : Net → Net) : (s.upNet f).lanes = s.lanes := rfl
@[simp] theorem State.upNet_engs (s : State) (f : Net → Net) : (s.upNet f).engs = s.engs := rfl
@[simp] theorem State.upNet_mld (s : State) (f : Net → Net) : (s.upNet f).mld = s.mld := rfl
@[simp] theorem State.upNet_adcs (s : State) (f : Net → Net) : (s.upNet f).adcs = s.adcs := rfl
@[simp] theorem State.upNet_chains (s : State) (f : Net → Net) : (s.upNet f).chains = s.chains := rfl
@[simp] theorem State.upNet_scr (s : State) (f : Net → Net) : (s.upNet f).scr = s.scr := rfl
@[simp] theorem State.upNet_move (s : State) (f : Net → Net) : (s.upNet f).move = s.move := rfl
@[simp] theorem State.upNet_trigs (s : State) (f : Net → Net) : (s.upNet f).trigs = s.trigs := rfl
@[simp] theorem State.upNet_twn (s : State) (f : Net → Net) : (s.upNet f).twn = s.twn := rfl
@[simp] theorem State.upNet_trks (s : State) (f : Net → Net) : (s.upNet f).trks = s.trks := rfl
@[simp] theorem State.upNet_quad (s : State) (f : Net → Net) : (s.upNet f).quad = s.quad := rfl
@[simp] theorem State.upNet_doms (s : State) (f : Net → Net) : (s.upNet f).doms = s.doms := rfl
@[simp] theorem State.upNet_pdelays (s : State) (f : Net → Net) : (s.upNet f).pdelays = s.pdelays := rfl
@[simp] theorem State.upNet_isle (s : State) (f : Net → Net) : (s.upNet f).isle = s.isle := rfl
@[simp] theorem State.upNet_mst (s : State) (f : Net → Net) : (s.upNet f).mst = s.mst := rfl
@[simp] theorem State.upNet_clk (s : State) (f : Net → Net) : (s.upNet f).clk = s.clk := rfl
@[simp] theorem State.upNet_hlt (s : State) (f : Net → Net) : (s.upNet f).hlt = s.hlt := rfl
@[simp] theorem State.upNet_pwr (s : State) (f : Net → Net) : (s.upNet f).pwr = s.pwr := rfl
@[simp] theorem State.upNet_pins (s : State) (f : Net → Net) : (s.upNet f).pins = s.pins := rfl
@[simp] theorem State.upNet_word (s : State) (f : Net → Net) (x : Nat) : (s.upNet f).word x = s.word x := rfl
@[simp] theorem State.upNet_get (s : State) (f : Net → Net) (x : RF) : (s.upNet f).get x = s.get x := rfl
@[simp] theorem State.upNet_is (s : State) (f : Net → Net) (x : RF) : (s.upNet f).is x = s.is x := rfl
@[simp] theorem State.upNet_byte (s : State) (f : Net → Net) (x : Nat) : (s.upNet f).byte x = s.byte x := rfl

@[simp] theorem State.upIsle_tb (s : State) (f : Island → Island) : (s.upIsle f).tb = s.tb := rfl
@[simp] theorem State.upIsle_pending (s : State) (f : Island → Island) : (s.upIsle f).pending = s.pending := rfl
@[simp] theorem State.upIsle_regs (s : State) (f : Island → Island) : (s.upIsle f).regs = s.regs := rfl
@[simp] theorem State.upIsle_mem (s : State) (f : Island → Island) : (s.upIsle f).mem = s.mem := rfl
@[simp] theorem State.upIsle_resp (s : State) (f : Island → Island) : (s.upIsle f).resp = s.resp := rfl
@[simp] theorem State.upIsle_holding (s : State) (f : Island → Island) : (s.upIsle f).holding = s.holding := rfl
@[simp] theorem State.upIsle_drawn (s : State) (f : Island → Island) : (s.upIsle f).drawn = s.drawn := rfl
@[simp] theorem State.upIsle_marks (s : State) (f : Island → Island) : (s.upIsle f).marks = s.marks := rfl
@[simp] theorem State.upIsle_rows (s : State) (f : Island → Island) : (s.upIsle f).rows = s.rows := rfl
@[simp] theorem State.upIsle_ldg (s : State) (f : Island → Island) : (s.upIsle f).ldg = s.ldg := rfl
@[simp] theorem State.upIsle_chans (s : State) (f : Island → Island) : (s.upIsle f).chans = s.chans := rfl
@[simp] theorem State.upIsle_groups (s : State) (f : Island → Island) : (s.upIsle f).groups = s.groups := rfl
@[simp] theorem State.upIsle_fltPins (s : State) (f : Island → Island) : (s.upIsle f).fltPins = s.fltPins := rfl
@[simp] theorem State.upIsle_lanes (s : State) (f : Island → Island) : (s.upIsle f).lanes = s.lanes := rfl
@[simp] theorem State.upIsle_engs (s : State) (f : Island → Island) : (s.upIsle f).engs = s.engs := rfl
@[simp] theorem State.upIsle_mld (s : State) (f : Island → Island) : (s.upIsle f).mld = s.mld := rfl
@[simp] theorem State.upIsle_adcs (s : State) (f : Island → Island) : (s.upIsle f).adcs = s.adcs := rfl
@[simp] theorem State.upIsle_chains (s : State) (f : Island → Island) : (s.upIsle f).chains = s.chains := rfl
@[simp] theorem State.upIsle_scr (s : State) (f : Island → Island) : (s.upIsle f).scr = s.scr := rfl
@[simp] theorem State.upIsle_move (s : State) (f : Island → Island) : (s.upIsle f).move = s.move := rfl
@[simp] theorem State.upIsle_trigs (s : State) (f : Island → Island) : (s.upIsle f).trigs = s.trigs := rfl
@[simp] theorem State.upIsle_twn (s : State) (f : Island → Island) : (s.upIsle f).twn = s.twn := rfl
@[simp] theorem State.upIsle_trks (s : State) (f : Island → Island) : (s.upIsle f).trks = s.trks := rfl
@[simp] theorem State.upIsle_quad (s : State) (f : Island → Island) : (s.upIsle f).quad = s.quad := rfl
@[simp] theorem State.upIsle_net (s : State) (f : Island → Island) : (s.upIsle f).net = s.net := rfl
@[simp] theorem State.upIsle_doms (s : State) (f : Island → Island) : (s.upIsle f).doms = s.doms := rfl
@[simp] theorem State.upIsle_pdelays (s : State) (f : Island → Island) : (s.upIsle f).pdelays = s.pdelays := rfl
@[simp] theorem State.upIsle_mst (s : State) (f : Island → Island) : (s.upIsle f).mst = s.mst := rfl
@[simp] theorem State.upIsle_clk (s : State) (f : Island → Island) : (s.upIsle f).clk = s.clk := rfl
@[simp] theorem State.upIsle_hlt (s : State) (f : Island → Island) : (s.upIsle f).hlt = s.hlt := rfl
@[simp] theorem State.upIsle_pwr (s : State) (f : Island → Island) : (s.upIsle f).pwr = s.pwr := rfl
@[simp] theorem State.upIsle_pins (s : State) (f : Island → Island) : (s.upIsle f).pins = s.pins := rfl
@[simp] theorem State.upIsle_word (s : State) (f : Island → Island) (x : Nat) : (s.upIsle f).word x = s.word x := rfl
@[simp] theorem State.upIsle_get (s : State) (f : Island → Island) (x : RF) : (s.upIsle f).get x = s.get x := rfl
@[simp] theorem State.upIsle_is (s : State) (f : Island → Island) (x : RF) : (s.upIsle f).is x = s.is x := rfl
@[simp] theorem State.upIsle_byte (s : State) (f : Island → Island) (x : Nat) : (s.upIsle f).byte x = s.byte x := rfl

@[simp] theorem State.upTwn_tb (s : State) (f : Twin → Twin) : (s.upTwn f).tb = s.tb := rfl
@[simp] theorem State.upTwn_pending (s : State) (f : Twin → Twin) : (s.upTwn f).pending = s.pending := rfl
@[simp] theorem State.upTwn_regs (s : State) (f : Twin → Twin) : (s.upTwn f).regs = s.regs := rfl
@[simp] theorem State.upTwn_mem (s : State) (f : Twin → Twin) : (s.upTwn f).mem = s.mem := rfl
@[simp] theorem State.upTwn_resp (s : State) (f : Twin → Twin) : (s.upTwn f).resp = s.resp := rfl
@[simp] theorem State.upTwn_holding (s : State) (f : Twin → Twin) : (s.upTwn f).holding = s.holding := rfl
@[simp] theorem State.upTwn_drawn (s : State) (f : Twin → Twin) : (s.upTwn f).drawn = s.drawn := rfl
@[simp] theorem State.upTwn_marks (s : State) (f : Twin → Twin) : (s.upTwn f).marks = s.marks := rfl
@[simp] theorem State.upTwn_rows (s : State) (f : Twin → Twin) : (s.upTwn f).rows = s.rows := rfl
@[simp] theorem State.upTwn_ldg (s : State) (f : Twin → Twin) : (s.upTwn f).ldg = s.ldg := rfl
@[simp] theorem State.upTwn_chans (s : State) (f : Twin → Twin) : (s.upTwn f).chans = s.chans := rfl
@[simp] theorem State.upTwn_groups (s : State) (f : Twin → Twin) : (s.upTwn f).groups = s.groups := rfl
@[simp] theorem State.upTwn_fltPins (s : State) (f : Twin → Twin) : (s.upTwn f).fltPins = s.fltPins := rfl
@[simp] theorem State.upTwn_lanes (s : State) (f : Twin → Twin) : (s.upTwn f).lanes = s.lanes := rfl
@[simp] theorem State.upTwn_engs (s : State) (f : Twin → Twin) : (s.upTwn f).engs = s.engs := rfl
@[simp] theorem State.upTwn_mld (s : State) (f : Twin → Twin) : (s.upTwn f).mld = s.mld := rfl
@[simp] theorem State.upTwn_adcs (s : State) (f : Twin → Twin) : (s.upTwn f).adcs = s.adcs := rfl
@[simp] theorem State.upTwn_chains (s : State) (f : Twin → Twin) : (s.upTwn f).chains = s.chains := rfl
@[simp] theorem State.upTwn_scr (s : State) (f : Twin → Twin) : (s.upTwn f).scr = s.scr := rfl
@[simp] theorem State.upTwn_move (s : State) (f : Twin → Twin) : (s.upTwn f).move = s.move := rfl
@[simp] theorem State.upTwn_trigs (s : State) (f : Twin → Twin) : (s.upTwn f).trigs = s.trigs := rfl
@[simp] theorem State.upTwn_trks (s : State) (f : Twin → Twin) : (s.upTwn f).trks = s.trks := rfl
@[simp] theorem State.upTwn_quad (s : State) (f : Twin → Twin) : (s.upTwn f).quad = s.quad := rfl
@[simp] theorem State.upTwn_net (s : State) (f : Twin → Twin) : (s.upTwn f).net = s.net := rfl
@[simp] theorem State.upTwn_doms (s : State) (f : Twin → Twin) : (s.upTwn f).doms = s.doms := rfl
@[simp] theorem State.upTwn_pdelays (s : State) (f : Twin → Twin) : (s.upTwn f).pdelays = s.pdelays := rfl
@[simp] theorem State.upTwn_isle (s : State) (f : Twin → Twin) : (s.upTwn f).isle = s.isle := rfl
@[simp] theorem State.upTwn_mst (s : State) (f : Twin → Twin) : (s.upTwn f).mst = s.mst := rfl
@[simp] theorem State.upTwn_clk (s : State) (f : Twin → Twin) : (s.upTwn f).clk = s.clk := rfl
@[simp] theorem State.upTwn_hlt (s : State) (f : Twin → Twin) : (s.upTwn f).hlt = s.hlt := rfl
@[simp] theorem State.upTwn_pwr (s : State) (f : Twin → Twin) : (s.upTwn f).pwr = s.pwr := rfl
@[simp] theorem State.upTwn_pins (s : State) (f : Twin → Twin) : (s.upTwn f).pins = s.pins := rfl
@[simp] theorem State.upTwn_word (s : State) (f : Twin → Twin) (x : Nat) : (s.upTwn f).word x = s.word x := rfl
@[simp] theorem State.upTwn_get (s : State) (f : Twin → Twin) (x : RF) : (s.upTwn f).get x = s.get x := rfl
@[simp] theorem State.upTwn_is (s : State) (f : Twin → Twin) (x : RF) : (s.upTwn f).is x = s.is x := rfl
@[simp] theorem State.upTwn_byte (s : State) (f : Twin → Twin) (x : Nat) : (s.upTwn f).byte x = s.byte x := rfl

@[simp] theorem State.mark_tb (s : State) (f : RF) (m : Nat) : (s.mark f m).tb = s.tb := rfl
@[simp] theorem State.mark_pending (s : State) (f : RF) (m : Nat) : (s.mark f m).pending = s.pending := rfl
@[simp] theorem State.mark_regs (s : State) (f : RF) (m : Nat) : (s.mark f m).regs = s.regs := rfl
@[simp] theorem State.mark_mem (s : State) (f : RF) (m : Nat) : (s.mark f m).mem = s.mem := rfl
@[simp] theorem State.mark_resp (s : State) (f : RF) (m : Nat) : (s.mark f m).resp = s.resp := rfl
@[simp] theorem State.mark_holding (s : State) (f : RF) (m : Nat) : (s.mark f m).holding = s.holding := rfl
@[simp] theorem State.mark_drawn (s : State) (f : RF) (m : Nat) : (s.mark f m).drawn = s.drawn := rfl
@[simp] theorem State.mark_rows (s : State) (f : RF) (m : Nat) : (s.mark f m).rows = s.rows := rfl
@[simp] theorem State.mark_ldg (s : State) (f : RF) (m : Nat) : (s.mark f m).ldg = s.ldg := rfl
@[simp] theorem State.mark_chans (s : State) (f : RF) (m : Nat) : (s.mark f m).chans = s.chans := rfl
@[simp] theorem State.mark_groups (s : State) (f : RF) (m : Nat) : (s.mark f m).groups = s.groups := rfl
@[simp] theorem State.mark_fltPins (s : State) (f : RF) (m : Nat) : (s.mark f m).fltPins = s.fltPins := rfl
@[simp] theorem State.mark_lanes (s : State) (f : RF) (m : Nat) : (s.mark f m).lanes = s.lanes := rfl
@[simp] theorem State.mark_engs (s : State) (f : RF) (m : Nat) : (s.mark f m).engs = s.engs := rfl
@[simp] theorem State.mark_mld (s : State) (f : RF) (m : Nat) : (s.mark f m).mld = s.mld := rfl
@[simp] theorem State.mark_adcs (s : State) (f : RF) (m : Nat) : (s.mark f m).adcs = s.adcs := rfl
@[simp] theorem State.mark_chains (s : State) (f : RF) (m : Nat) : (s.mark f m).chains = s.chains := rfl
@[simp] theorem State.mark_scr (s : State) (f : RF) (m : Nat) : (s.mark f m).scr = s.scr := rfl
@[simp] theorem State.mark_move (s : State) (f : RF) (m : Nat) : (s.mark f m).move = s.move := rfl
@[simp] theorem State.mark_trigs (s : State) (f : RF) (m : Nat) : (s.mark f m).trigs = s.trigs := rfl
@[simp] theorem State.mark_twn (s : State) (f : RF) (m : Nat) : (s.mark f m).twn = s.twn := rfl
@[simp] theorem State.mark_trks (s : State) (f : RF) (m : Nat) : (s.mark f m).trks = s.trks := rfl
@[simp] theorem State.mark_quad (s : State) (f : RF) (m : Nat) : (s.mark f m).quad = s.quad := rfl
@[simp] theorem State.mark_net (s : State) (f : RF) (m : Nat) : (s.mark f m).net = s.net := rfl
@[simp] theorem State.mark_doms (s : State) (f : RF) (m : Nat) : (s.mark f m).doms = s.doms := rfl
@[simp] theorem State.mark_pdelays (s : State) (f : RF) (m : Nat) : (s.mark f m).pdelays = s.pdelays := rfl
@[simp] theorem State.mark_isle (s : State) (f : RF) (m : Nat) : (s.mark f m).isle = s.isle := rfl
@[simp] theorem State.mark_mst (s : State) (f : RF) (m : Nat) : (s.mark f m).mst = s.mst := rfl
@[simp] theorem State.mark_clk (s : State) (f : RF) (m : Nat) : (s.mark f m).clk = s.clk := rfl
@[simp] theorem State.mark_hlt (s : State) (f : RF) (m : Nat) : (s.mark f m).hlt = s.hlt := rfl
@[simp] theorem State.mark_pwr (s : State) (f : RF) (m : Nat) : (s.mark f m).pwr = s.pwr := rfl
@[simp] theorem State.mark_pins (s : State) (f : RF) (m : Nat) : (s.mark f m).pins = s.pins := rfl
@[simp] theorem State.mark_word (s : State) (f : RF) (m : Nat) (x : Nat) : (s.mark f m).word x = s.word x := rfl
@[simp] theorem State.mark_get (s : State) (f : RF) (m : Nat) (x : RF) : (s.mark f m).get x = s.get x := rfl
@[simp] theorem State.mark_is (s : State) (f : RF) (m : Nat) (x : RF) : (s.mark f m).is x = s.is x := rfl
@[simp] theorem State.mark_byte (s : State) (f : RF) (m : Nat) (x : Nat) : (s.mark f m).byte x = s.byte x := rfl

@[simp] theorem State.put_tb (s : State) (f : RF) (v : Nat) : (s.put f v).tb = s.tb := rfl
@[simp] theorem State.put_pending (s : State) (f : RF) (v : Nat) : (s.put f v).pending = s.pending := rfl
@[simp] theorem State.put_mem (s : State) (f : RF) (v : Nat) : (s.put f v).mem = s.mem := rfl
@[simp] theorem State.put_resp (s : State) (f : RF) (v : Nat) : (s.put f v).resp = s.resp := rfl
@[simp] theorem State.put_holding (s : State) (f : RF) (v : Nat) : (s.put f v).holding = s.holding := rfl
@[simp] theorem State.put_drawn (s : State) (f : RF) (v : Nat) : (s.put f v).drawn = s.drawn := rfl
@[simp] theorem State.put_marks (s : State) (f : RF) (v : Nat) : (s.put f v).marks = s.marks := rfl
@[simp] theorem State.put_rows (s : State) (f : RF) (v : Nat) : (s.put f v).rows = s.rows := rfl
@[simp] theorem State.put_ldg (s : State) (f : RF) (v : Nat) : (s.put f v).ldg = s.ldg := rfl
@[simp] theorem State.put_chans (s : State) (f : RF) (v : Nat) : (s.put f v).chans = s.chans := rfl
@[simp] theorem State.put_groups (s : State) (f : RF) (v : Nat) : (s.put f v).groups = s.groups := rfl
@[simp] theorem State.put_fltPins (s : State) (f : RF) (v : Nat) : (s.put f v).fltPins = s.fltPins := rfl
@[simp] theorem State.put_lanes (s : State) (f : RF) (v : Nat) : (s.put f v).lanes = s.lanes := rfl
@[simp] theorem State.put_engs (s : State) (f : RF) (v : Nat) : (s.put f v).engs = s.engs := rfl
@[simp] theorem State.put_mld (s : State) (f : RF) (v : Nat) : (s.put f v).mld = s.mld := rfl
@[simp] theorem State.put_adcs (s : State) (f : RF) (v : Nat) : (s.put f v).adcs = s.adcs := rfl
@[simp] theorem State.put_chains (s : State) (f : RF) (v : Nat) : (s.put f v).chains = s.chains := rfl
@[simp] theorem State.put_scr (s : State) (f : RF) (v : Nat) : (s.put f v).scr = s.scr := rfl
@[simp] theorem State.put_move (s : State) (f : RF) (v : Nat) : (s.put f v).move = s.move := rfl
@[simp] theorem State.put_trigs (s : State) (f : RF) (v : Nat) : (s.put f v).trigs = s.trigs := rfl
@[simp] theorem State.put_twn (s : State) (f : RF) (v : Nat) : (s.put f v).twn = s.twn := rfl
@[simp] theorem State.put_trks (s : State) (f : RF) (v : Nat) : (s.put f v).trks = s.trks := rfl
@[simp] theorem State.put_quad (s : State) (f : RF) (v : Nat) : (s.put f v).quad = s.quad := rfl
@[simp] theorem State.put_net (s : State) (f : RF) (v : Nat) : (s.put f v).net = s.net := rfl
@[simp] theorem State.put_doms (s : State) (f : RF) (v : Nat) : (s.put f v).doms = s.doms := rfl
@[simp] theorem State.put_pdelays (s : State) (f : RF) (v : Nat) : (s.put f v).pdelays = s.pdelays := rfl
@[simp] theorem State.put_isle (s : State) (f : RF) (v : Nat) : (s.put f v).isle = s.isle := rfl
@[simp] theorem State.put_mst (s : State) (f : RF) (v : Nat) : (s.put f v).mst = s.mst := rfl
@[simp] theorem State.put_clk (s : State) (f : RF) (v : Nat) : (s.put f v).clk = s.clk := rfl
@[simp] theorem State.put_hlt (s : State) (f : RF) (v : Nat) : (s.put f v).hlt = s.hlt := rfl
@[simp] theorem State.put_pwr (s : State) (f : RF) (v : Nat) : (s.put f v).pwr = s.pwr := rfl
@[simp] theorem State.put_pins (s : State) (f : RF) (v : Nat) : (s.put f v).pins = s.pins := rfl
@[simp] theorem State.put_byte (s : State) (f : RF) (v : Nat) (x : Nat) : (s.put f v).byte x = s.byte x := rfl

@[simp] theorem State.set1_tb (s : State) (f : RF) : (s.set1 f).tb = s.tb := rfl
@[simp] theorem State.set1_pending (s : State) (f : RF) : (s.set1 f).pending = s.pending := rfl
@[simp] theorem State.set1_mem (s : State) (f : RF) : (s.set1 f).mem = s.mem := rfl
@[simp] theorem State.set1_resp (s : State) (f : RF) : (s.set1 f).resp = s.resp := rfl
@[simp] theorem State.set1_holding (s : State) (f : RF) : (s.set1 f).holding = s.holding := rfl
@[simp] theorem State.set1_drawn (s : State) (f : RF) : (s.set1 f).drawn = s.drawn := rfl
@[simp] theorem State.set1_rows (s : State) (f : RF) : (s.set1 f).rows = s.rows := rfl
@[simp] theorem State.set1_ldg (s : State) (f : RF) : (s.set1 f).ldg = s.ldg := rfl
@[simp] theorem State.set1_chans (s : State) (f : RF) : (s.set1 f).chans = s.chans := rfl
@[simp] theorem State.set1_groups (s : State) (f : RF) : (s.set1 f).groups = s.groups := rfl
@[simp] theorem State.set1_fltPins (s : State) (f : RF) : (s.set1 f).fltPins = s.fltPins := rfl
@[simp] theorem State.set1_lanes (s : State) (f : RF) : (s.set1 f).lanes = s.lanes := rfl
@[simp] theorem State.set1_engs (s : State) (f : RF) : (s.set1 f).engs = s.engs := rfl
@[simp] theorem State.set1_mld (s : State) (f : RF) : (s.set1 f).mld = s.mld := rfl
@[simp] theorem State.set1_adcs (s : State) (f : RF) : (s.set1 f).adcs = s.adcs := rfl
@[simp] theorem State.set1_chains (s : State) (f : RF) : (s.set1 f).chains = s.chains := rfl
@[simp] theorem State.set1_scr (s : State) (f : RF) : (s.set1 f).scr = s.scr := rfl
@[simp] theorem State.set1_move (s : State) (f : RF) : (s.set1 f).move = s.move := rfl
@[simp] theorem State.set1_trigs (s : State) (f : RF) : (s.set1 f).trigs = s.trigs := rfl
@[simp] theorem State.set1_twn (s : State) (f : RF) : (s.set1 f).twn = s.twn := rfl
@[simp] theorem State.set1_trks (s : State) (f : RF) : (s.set1 f).trks = s.trks := rfl
@[simp] theorem State.set1_quad (s : State) (f : RF) : (s.set1 f).quad = s.quad := rfl
@[simp] theorem State.set1_net (s : State) (f : RF) : (s.set1 f).net = s.net := rfl
@[simp] theorem State.set1_doms (s : State) (f : RF) : (s.set1 f).doms = s.doms := rfl
@[simp] theorem State.set1_pdelays (s : State) (f : RF) : (s.set1 f).pdelays = s.pdelays := rfl
@[simp] theorem State.set1_isle (s : State) (f : RF) : (s.set1 f).isle = s.isle := rfl
@[simp] theorem State.set1_mst (s : State) (f : RF) : (s.set1 f).mst = s.mst := rfl
@[simp] theorem State.set1_clk (s : State) (f : RF) : (s.set1 f).clk = s.clk := rfl
@[simp] theorem State.set1_hlt (s : State) (f : RF) : (s.set1 f).hlt = s.hlt := rfl
@[simp] theorem State.set1_pwr (s : State) (f : RF) : (s.set1 f).pwr = s.pwr := rfl
@[simp] theorem State.set1_pins (s : State) (f : RF) : (s.set1 f).pins = s.pins := rfl
@[simp] theorem State.set1_byte (s : State) (f : RF) (x : Nat) : (s.set1 f).byte x = s.byte x := rfl

@[simp] theorem State.clr_tb (s : State) (f : RF) : (s.clr f).tb = s.tb := rfl
@[simp] theorem State.clr_pending (s : State) (f : RF) : (s.clr f).pending = s.pending := rfl
@[simp] theorem State.clr_mem (s : State) (f : RF) : (s.clr f).mem = s.mem := rfl
@[simp] theorem State.clr_resp (s : State) (f : RF) : (s.clr f).resp = s.resp := rfl
@[simp] theorem State.clr_holding (s : State) (f : RF) : (s.clr f).holding = s.holding := rfl
@[simp] theorem State.clr_drawn (s : State) (f : RF) : (s.clr f).drawn = s.drawn := rfl
@[simp] theorem State.clr_marks (s : State) (f : RF) : (s.clr f).marks = s.marks := rfl
@[simp] theorem State.clr_rows (s : State) (f : RF) : (s.clr f).rows = s.rows := rfl
@[simp] theorem State.clr_ldg (s : State) (f : RF) : (s.clr f).ldg = s.ldg := rfl
@[simp] theorem State.clr_chans (s : State) (f : RF) : (s.clr f).chans = s.chans := rfl
@[simp] theorem State.clr_groups (s : State) (f : RF) : (s.clr f).groups = s.groups := rfl
@[simp] theorem State.clr_fltPins (s : State) (f : RF) : (s.clr f).fltPins = s.fltPins := rfl
@[simp] theorem State.clr_lanes (s : State) (f : RF) : (s.clr f).lanes = s.lanes := rfl
@[simp] theorem State.clr_engs (s : State) (f : RF) : (s.clr f).engs = s.engs := rfl
@[simp] theorem State.clr_mld (s : State) (f : RF) : (s.clr f).mld = s.mld := rfl
@[simp] theorem State.clr_adcs (s : State) (f : RF) : (s.clr f).adcs = s.adcs := rfl
@[simp] theorem State.clr_chains (s : State) (f : RF) : (s.clr f).chains = s.chains := rfl
@[simp] theorem State.clr_scr (s : State) (f : RF) : (s.clr f).scr = s.scr := rfl
@[simp] theorem State.clr_move (s : State) (f : RF) : (s.clr f).move = s.move := rfl
@[simp] theorem State.clr_trigs (s : State) (f : RF) : (s.clr f).trigs = s.trigs := rfl
@[simp] theorem State.clr_twn (s : State) (f : RF) : (s.clr f).twn = s.twn := rfl
@[simp] theorem State.clr_trks (s : State) (f : RF) : (s.clr f).trks = s.trks := rfl
@[simp] theorem State.clr_quad (s : State) (f : RF) : (s.clr f).quad = s.quad := rfl
@[simp] theorem State.clr_net (s : State) (f : RF) : (s.clr f).net = s.net := rfl
@[simp] theorem State.clr_doms (s : State) (f : RF) : (s.clr f).doms = s.doms := rfl
@[simp] theorem State.clr_pdelays (s : State) (f : RF) : (s.clr f).pdelays = s.pdelays := rfl
@[simp] theorem State.clr_isle (s : State) (f : RF) : (s.clr f).isle = s.isle := rfl
@[simp] theorem State.clr_mst (s : State) (f : RF) : (s.clr f).mst = s.mst := rfl
@[simp] theorem State.clr_clk (s : State) (f : RF) : (s.clr f).clk = s.clk := rfl
@[simp] theorem State.clr_hlt (s : State) (f : RF) : (s.clr f).hlt = s.hlt := rfl
@[simp] theorem State.clr_pwr (s : State) (f : RF) : (s.clr f).pwr = s.pwr := rfl
@[simp] theorem State.clr_pins (s : State) (f : RF) : (s.clr f).pins = s.pins := rfl
@[simp] theorem State.clr_byte (s : State) (f : RF) (x : Nat) : (s.clr f).byte x = s.byte x := rfl

@[simp] theorem State.orr_tb (s : State) (f : RF) (m : Nat) : (s.orr f m).tb = s.tb := rfl
@[simp] theorem State.orr_pending (s : State) (f : RF) (m : Nat) : (s.orr f m).pending = s.pending := rfl
@[simp] theorem State.orr_mem (s : State) (f : RF) (m : Nat) : (s.orr f m).mem = s.mem := rfl
@[simp] theorem State.orr_resp (s : State) (f : RF) (m : Nat) : (s.orr f m).resp = s.resp := rfl
@[simp] theorem State.orr_holding (s : State) (f : RF) (m : Nat) : (s.orr f m).holding = s.holding := rfl
@[simp] theorem State.orr_drawn (s : State) (f : RF) (m : Nat) : (s.orr f m).drawn = s.drawn := rfl
@[simp] theorem State.orr_rows (s : State) (f : RF) (m : Nat) : (s.orr f m).rows = s.rows := rfl
@[simp] theorem State.orr_ldg (s : State) (f : RF) (m : Nat) : (s.orr f m).ldg = s.ldg := rfl
@[simp] theorem State.orr_chans (s : State) (f : RF) (m : Nat) : (s.orr f m).chans = s.chans := rfl
@[simp] theorem State.orr_groups (s : State) (f : RF) (m : Nat) : (s.orr f m).groups = s.groups := rfl
@[simp] theorem State.orr_fltPins (s : State) (f : RF) (m : Nat) : (s.orr f m).fltPins = s.fltPins := rfl
@[simp] theorem State.orr_lanes (s : State) (f : RF) (m : Nat) : (s.orr f m).lanes = s.lanes := rfl
@[simp] theorem State.orr_engs (s : State) (f : RF) (m : Nat) : (s.orr f m).engs = s.engs := rfl
@[simp] theorem State.orr_mld (s : State) (f : RF) (m : Nat) : (s.orr f m).mld = s.mld := rfl
@[simp] theorem State.orr_adcs (s : State) (f : RF) (m : Nat) : (s.orr f m).adcs = s.adcs := rfl
@[simp] theorem State.orr_chains (s : State) (f : RF) (m : Nat) : (s.orr f m).chains = s.chains := rfl
@[simp] theorem State.orr_scr (s : State) (f : RF) (m : Nat) : (s.orr f m).scr = s.scr := rfl
@[simp] theorem State.orr_move (s : State) (f : RF) (m : Nat) : (s.orr f m).move = s.move := rfl
@[simp] theorem State.orr_trigs (s : State) (f : RF) (m : Nat) : (s.orr f m).trigs = s.trigs := rfl
@[simp] theorem State.orr_twn (s : State) (f : RF) (m : Nat) : (s.orr f m).twn = s.twn := rfl
@[simp] theorem State.orr_trks (s : State) (f : RF) (m : Nat) : (s.orr f m).trks = s.trks := rfl
@[simp] theorem State.orr_quad (s : State) (f : RF) (m : Nat) : (s.orr f m).quad = s.quad := rfl
@[simp] theorem State.orr_net (s : State) (f : RF) (m : Nat) : (s.orr f m).net = s.net := rfl
@[simp] theorem State.orr_doms (s : State) (f : RF) (m : Nat) : (s.orr f m).doms = s.doms := rfl
@[simp] theorem State.orr_pdelays (s : State) (f : RF) (m : Nat) : (s.orr f m).pdelays = s.pdelays := rfl
@[simp] theorem State.orr_isle (s : State) (f : RF) (m : Nat) : (s.orr f m).isle = s.isle := rfl
@[simp] theorem State.orr_mst (s : State) (f : RF) (m : Nat) : (s.orr f m).mst = s.mst := rfl
@[simp] theorem State.orr_clk (s : State) (f : RF) (m : Nat) : (s.orr f m).clk = s.clk := rfl
@[simp] theorem State.orr_hlt (s : State) (f : RF) (m : Nat) : (s.orr f m).hlt = s.hlt := rfl
@[simp] theorem State.orr_pwr (s : State) (f : RF) (m : Nat) : (s.orr f m).pwr = s.pwr := rfl
@[simp] theorem State.orr_pins (s : State) (f : RF) (m : Nat) : (s.orr f m).pins = s.pins := rfl
@[simp] theorem State.orr_byte (s : State) (f : RF) (m : Nat) (x : Nat) : (s.orr f m).byte x = s.byte x := rfl

@[simp] theorem State.andn_tb (s : State) (f : RF) (m : Nat) : (s.andn f m).tb = s.tb := rfl
@[simp] theorem State.andn_pending (s : State) (f : RF) (m : Nat) : (s.andn f m).pending = s.pending := rfl
@[simp] theorem State.andn_mem (s : State) (f : RF) (m : Nat) : (s.andn f m).mem = s.mem := rfl
@[simp] theorem State.andn_resp (s : State) (f : RF) (m : Nat) : (s.andn f m).resp = s.resp := rfl
@[simp] theorem State.andn_holding (s : State) (f : RF) (m : Nat) : (s.andn f m).holding = s.holding := rfl
@[simp] theorem State.andn_drawn (s : State) (f : RF) (m : Nat) : (s.andn f m).drawn = s.drawn := rfl
@[simp] theorem State.andn_marks (s : State) (f : RF) (m : Nat) : (s.andn f m).marks = s.marks := rfl
@[simp] theorem State.andn_rows (s : State) (f : RF) (m : Nat) : (s.andn f m).rows = s.rows := rfl
@[simp] theorem State.andn_ldg (s : State) (f : RF) (m : Nat) : (s.andn f m).ldg = s.ldg := rfl
@[simp] theorem State.andn_chans (s : State) (f : RF) (m : Nat) : (s.andn f m).chans = s.chans := rfl
@[simp] theorem State.andn_groups (s : State) (f : RF) (m : Nat) : (s.andn f m).groups = s.groups := rfl
@[simp] theorem State.andn_fltPins (s : State) (f : RF) (m : Nat) : (s.andn f m).fltPins = s.fltPins := rfl
@[simp] theorem State.andn_lanes (s : State) (f : RF) (m : Nat) : (s.andn f m).lanes = s.lanes := rfl
@[simp] theorem State.andn_engs (s : State) (f : RF) (m : Nat) : (s.andn f m).engs = s.engs := rfl
@[simp] theorem State.andn_mld (s : State) (f : RF) (m : Nat) : (s.andn f m).mld = s.mld := rfl
@[simp] theorem State.andn_adcs (s : State) (f : RF) (m : Nat) : (s.andn f m).adcs = s.adcs := rfl
@[simp] theorem State.andn_chains (s : State) (f : RF) (m : Nat) : (s.andn f m).chains = s.chains := rfl
@[simp] theorem State.andn_scr (s : State) (f : RF) (m : Nat) : (s.andn f m).scr = s.scr := rfl
@[simp] theorem State.andn_move (s : State) (f : RF) (m : Nat) : (s.andn f m).move = s.move := rfl
@[simp] theorem State.andn_trigs (s : State) (f : RF) (m : Nat) : (s.andn f m).trigs = s.trigs := rfl
@[simp] theorem State.andn_twn (s : State) (f : RF) (m : Nat) : (s.andn f m).twn = s.twn := rfl
@[simp] theorem State.andn_trks (s : State) (f : RF) (m : Nat) : (s.andn f m).trks = s.trks := rfl
@[simp] theorem State.andn_quad (s : State) (f : RF) (m : Nat) : (s.andn f m).quad = s.quad := rfl
@[simp] theorem State.andn_net (s : State) (f : RF) (m : Nat) : (s.andn f m).net = s.net := rfl
@[simp] theorem State.andn_doms (s : State) (f : RF) (m : Nat) : (s.andn f m).doms = s.doms := rfl
@[simp] theorem State.andn_pdelays (s : State) (f : RF) (m : Nat) : (s.andn f m).pdelays = s.pdelays := rfl
@[simp] theorem State.andn_isle (s : State) (f : RF) (m : Nat) : (s.andn f m).isle = s.isle := rfl
@[simp] theorem State.andn_mst (s : State) (f : RF) (m : Nat) : (s.andn f m).mst = s.mst := rfl
@[simp] theorem State.andn_clk (s : State) (f : RF) (m : Nat) : (s.andn f m).clk = s.clk := rfl
@[simp] theorem State.andn_hlt (s : State) (f : RF) (m : Nat) : (s.andn f m).hlt = s.hlt := rfl
@[simp] theorem State.andn_pwr (s : State) (f : RF) (m : Nat) : (s.andn f m).pwr = s.pwr := rfl
@[simp] theorem State.andn_pins (s : State) (f : RF) (m : Nat) : (s.andn f m).pins = s.pins := rfl
@[simp] theorem State.andn_byte (s : State) (f : RF) (m : Nat) (x : Nat) : (s.andn f m).byte x = s.byte x := rfl

@[simp] theorem State.bump_tb (s : State) (f : RF) (n : Nat) : (s.bump f n).tb = s.tb := rfl
@[simp] theorem State.bump_pending (s : State) (f : RF) (n : Nat) : (s.bump f n).pending = s.pending := rfl
@[simp] theorem State.bump_mem (s : State) (f : RF) (n : Nat) : (s.bump f n).mem = s.mem := rfl
@[simp] theorem State.bump_resp (s : State) (f : RF) (n : Nat) : (s.bump f n).resp = s.resp := rfl
@[simp] theorem State.bump_holding (s : State) (f : RF) (n : Nat) : (s.bump f n).holding = s.holding := rfl
@[simp] theorem State.bump_drawn (s : State) (f : RF) (n : Nat) : (s.bump f n).drawn = s.drawn := rfl
@[simp] theorem State.bump_marks (s : State) (f : RF) (n : Nat) : (s.bump f n).marks = s.marks := rfl
@[simp] theorem State.bump_rows (s : State) (f : RF) (n : Nat) : (s.bump f n).rows = s.rows := rfl
@[simp] theorem State.bump_ldg (s : State) (f : RF) (n : Nat) : (s.bump f n).ldg = s.ldg := rfl
@[simp] theorem State.bump_chans (s : State) (f : RF) (n : Nat) : (s.bump f n).chans = s.chans := rfl
@[simp] theorem State.bump_groups (s : State) (f : RF) (n : Nat) : (s.bump f n).groups = s.groups := rfl
@[simp] theorem State.bump_fltPins (s : State) (f : RF) (n : Nat) : (s.bump f n).fltPins = s.fltPins := rfl
@[simp] theorem State.bump_lanes (s : State) (f : RF) (n : Nat) : (s.bump f n).lanes = s.lanes := rfl
@[simp] theorem State.bump_engs (s : State) (f : RF) (n : Nat) : (s.bump f n).engs = s.engs := rfl
@[simp] theorem State.bump_mld (s : State) (f : RF) (n : Nat) : (s.bump f n).mld = s.mld := rfl
@[simp] theorem State.bump_adcs (s : State) (f : RF) (n : Nat) : (s.bump f n).adcs = s.adcs := rfl
@[simp] theorem State.bump_chains (s : State) (f : RF) (n : Nat) : (s.bump f n).chains = s.chains := rfl
@[simp] theorem State.bump_scr (s : State) (f : RF) (n : Nat) : (s.bump f n).scr = s.scr := rfl
@[simp] theorem State.bump_move (s : State) (f : RF) (n : Nat) : (s.bump f n).move = s.move := rfl
@[simp] theorem State.bump_trigs (s : State) (f : RF) (n : Nat) : (s.bump f n).trigs = s.trigs := rfl
@[simp] theorem State.bump_twn (s : State) (f : RF) (n : Nat) : (s.bump f n).twn = s.twn := rfl
@[simp] theorem State.bump_trks (s : State) (f : RF) (n : Nat) : (s.bump f n).trks = s.trks := rfl
@[simp] theorem State.bump_quad (s : State) (f : RF) (n : Nat) : (s.bump f n).quad = s.quad := rfl
@[simp] theorem State.bump_net (s : State) (f : RF) (n : Nat) : (s.bump f n).net = s.net := rfl
@[simp] theorem State.bump_doms (s : State) (f : RF) (n : Nat) : (s.bump f n).doms = s.doms := rfl
@[simp] theorem State.bump_pdelays (s : State) (f : RF) (n : Nat) : (s.bump f n).pdelays = s.pdelays := rfl
@[simp] theorem State.bump_isle (s : State) (f : RF) (n : Nat) : (s.bump f n).isle = s.isle := rfl
@[simp] theorem State.bump_mst (s : State) (f : RF) (n : Nat) : (s.bump f n).mst = s.mst := rfl
@[simp] theorem State.bump_clk (s : State) (f : RF) (n : Nat) : (s.bump f n).clk = s.clk := rfl
@[simp] theorem State.bump_hlt (s : State) (f : RF) (n : Nat) : (s.bump f n).hlt = s.hlt := rfl
@[simp] theorem State.bump_pwr (s : State) (f : RF) (n : Nat) : (s.bump f n).pwr = s.pwr := rfl
@[simp] theorem State.bump_pins (s : State) (f : RF) (n : Nat) : (s.bump f n).pins = s.pins := rfl
@[simp] theorem State.bump_byte (s : State) (f : RF) (n : Nat) (x : Nat) : (s.bump f n).byte x = s.byte x := rfl

@[simp] theorem State.bumpWrap_tb (s : State) (f : RF) (n : Nat) : (s.bumpWrap f n).tb = s.tb := rfl
@[simp] theorem State.bumpWrap_pending (s : State) (f : RF) (n : Nat) : (s.bumpWrap f n).pending = s.pending := rfl
@[simp] theorem State.bumpWrap_mem (s : State) (f : RF) (n : Nat) : (s.bumpWrap f n).mem = s.mem := rfl
@[simp] theorem State.bumpWrap_resp (s : State) (f : RF) (n : Nat) : (s.bumpWrap f n).resp = s.resp := rfl
@[simp] theorem State.bumpWrap_holding (s : State) (f : RF) (n : Nat) : (s.bumpWrap f n).holding = s.holding := rfl
@[simp] theorem State.bumpWrap_drawn (s : State) (f : RF) (n : Nat) : (s.bumpWrap f n).drawn = s.drawn := rfl
@[simp] theorem State.bumpWrap_marks (s : State) (f : RF) (n : Nat) : (s.bumpWrap f n).marks = s.marks := rfl
@[simp] theorem State.bumpWrap_rows (s : State) (f : RF) (n : Nat) : (s.bumpWrap f n).rows = s.rows := rfl
@[simp] theorem State.bumpWrap_ldg (s : State) (f : RF) (n : Nat) : (s.bumpWrap f n).ldg = s.ldg := rfl
@[simp] theorem State.bumpWrap_chans (s : State) (f : RF) (n : Nat) : (s.bumpWrap f n).chans = s.chans := rfl
@[simp] theorem State.bumpWrap_groups (s : State) (f : RF) (n : Nat) : (s.bumpWrap f n).groups = s.groups := rfl
@[simp] theorem State.bumpWrap_fltPins (s : State) (f : RF) (n : Nat) : (s.bumpWrap f n).fltPins = s.fltPins := rfl
@[simp] theorem State.bumpWrap_lanes (s : State) (f : RF) (n : Nat) : (s.bumpWrap f n).lanes = s.lanes := rfl
@[simp] theorem State.bumpWrap_engs (s : State) (f : RF) (n : Nat) : (s.bumpWrap f n).engs = s.engs := rfl
@[simp] theorem State.bumpWrap_mld (s : State) (f : RF) (n : Nat) : (s.bumpWrap f n).mld = s.mld := rfl
@[simp] theorem State.bumpWrap_adcs (s : State) (f : RF) (n : Nat) : (s.bumpWrap f n).adcs = s.adcs := rfl
@[simp] theorem State.bumpWrap_chains (s : State) (f : RF) (n : Nat) : (s.bumpWrap f n).chains = s.chains := rfl
@[simp] theorem State.bumpWrap_scr (s : State) (f : RF) (n : Nat) : (s.bumpWrap f n).scr = s.scr := rfl
@[simp] theorem State.bumpWrap_move (s : State) (f : RF) (n : Nat) : (s.bumpWrap f n).move = s.move := rfl
@[simp] theorem State.bumpWrap_trigs (s : State) (f : RF) (n : Nat) : (s.bumpWrap f n).trigs = s.trigs := rfl
@[simp] theorem State.bumpWrap_twn (s : State) (f : RF) (n : Nat) : (s.bumpWrap f n).twn = s.twn := rfl
@[simp] theorem State.bumpWrap_trks (s : State) (f : RF) (n : Nat) : (s.bumpWrap f n).trks = s.trks := rfl
@[simp] theorem State.bumpWrap_quad (s : State) (f : RF) (n : Nat) : (s.bumpWrap f n).quad = s.quad := rfl
@[simp] theorem State.bumpWrap_net (s : State) (f : RF) (n : Nat) : (s.bumpWrap f n).net = s.net := rfl
@[simp] theorem State.bumpWrap_doms (s : State) (f : RF) (n : Nat) : (s.bumpWrap f n).doms = s.doms := rfl
@[simp] theorem State.bumpWrap_pdelays (s : State) (f : RF) (n : Nat) : (s.bumpWrap f n).pdelays = s.pdelays := rfl
@[simp] theorem State.bumpWrap_isle (s : State) (f : RF) (n : Nat) : (s.bumpWrap f n).isle = s.isle := rfl
@[simp] theorem State.bumpWrap_mst (s : State) (f : RF) (n : Nat) : (s.bumpWrap f n).mst = s.mst := rfl
@[simp] theorem State.bumpWrap_clk (s : State) (f : RF) (n : Nat) : (s.bumpWrap f n).clk = s.clk := rfl
@[simp] theorem State.bumpWrap_hlt (s : State) (f : RF) (n : Nat) : (s.bumpWrap f n).hlt = s.hlt := rfl
@[simp] theorem State.bumpWrap_pwr (s : State) (f : RF) (n : Nat) : (s.bumpWrap f n).pwr = s.pwr := rfl
@[simp] theorem State.bumpWrap_pins (s : State) (f : RF) (n : Nat) : (s.bumpWrap f n).pins = s.pins := rfl
@[simp] theorem State.bumpWrap_byte (s : State) (f : RF) (n : Nat) (x : Nat) : (s.bumpWrap f n).byte x = s.byte x := rfl

@[simp] theorem State.okResp_tb (s : State) : (s.okResp).tb = s.tb := rfl
@[simp] theorem State.okResp_pending (s : State) : (s.okResp).pending = s.pending := rfl
@[simp] theorem State.okResp_regs (s : State) : (s.okResp).regs = s.regs := rfl
@[simp] theorem State.okResp_mem (s : State) : (s.okResp).mem = s.mem := rfl
@[simp] theorem State.okResp_holding (s : State) : (s.okResp).holding = s.holding := rfl
@[simp] theorem State.okResp_drawn (s : State) : (s.okResp).drawn = s.drawn := rfl
@[simp] theorem State.okResp_marks (s : State) : (s.okResp).marks = s.marks := rfl
@[simp] theorem State.okResp_rows (s : State) : (s.okResp).rows = s.rows := rfl
@[simp] theorem State.okResp_ldg (s : State) : (s.okResp).ldg = s.ldg := rfl
@[simp] theorem State.okResp_chans (s : State) : (s.okResp).chans = s.chans := rfl
@[simp] theorem State.okResp_groups (s : State) : (s.okResp).groups = s.groups := rfl
@[simp] theorem State.okResp_fltPins (s : State) : (s.okResp).fltPins = s.fltPins := rfl
@[simp] theorem State.okResp_lanes (s : State) : (s.okResp).lanes = s.lanes := rfl
@[simp] theorem State.okResp_engs (s : State) : (s.okResp).engs = s.engs := rfl
@[simp] theorem State.okResp_mld (s : State) : (s.okResp).mld = s.mld := rfl
@[simp] theorem State.okResp_adcs (s : State) : (s.okResp).adcs = s.adcs := rfl
@[simp] theorem State.okResp_chains (s : State) : (s.okResp).chains = s.chains := rfl
@[simp] theorem State.okResp_scr (s : State) : (s.okResp).scr = s.scr := rfl
@[simp] theorem State.okResp_move (s : State) : (s.okResp).move = s.move := rfl
@[simp] theorem State.okResp_trigs (s : State) : (s.okResp).trigs = s.trigs := rfl
@[simp] theorem State.okResp_twn (s : State) : (s.okResp).twn = s.twn := rfl
@[simp] theorem State.okResp_trks (s : State) : (s.okResp).trks = s.trks := rfl
@[simp] theorem State.okResp_quad (s : State) : (s.okResp).quad = s.quad := rfl
@[simp] theorem State.okResp_net (s : State) : (s.okResp).net = s.net := rfl
@[simp] theorem State.okResp_doms (s : State) : (s.okResp).doms = s.doms := rfl
@[simp] theorem State.okResp_pdelays (s : State) : (s.okResp).pdelays = s.pdelays := rfl
@[simp] theorem State.okResp_isle (s : State) : (s.okResp).isle = s.isle := rfl
@[simp] theorem State.okResp_mst (s : State) : (s.okResp).mst = s.mst := rfl
@[simp] theorem State.okResp_clk (s : State) : (s.okResp).clk = s.clk := rfl
@[simp] theorem State.okResp_hlt (s : State) : (s.okResp).hlt = s.hlt := rfl
@[simp] theorem State.okResp_pwr (s : State) : (s.okResp).pwr = s.pwr := rfl
@[simp] theorem State.okResp_pins (s : State) : (s.okResp).pins = s.pins := rfl
@[simp] theorem State.okResp_word (s : State) (x : Nat) : (s.okResp).word x = s.word x := rfl
@[simp] theorem State.okResp_get (s : State) (x : RF) : (s.okResp).get x = s.get x := rfl
@[simp] theorem State.okResp_is (s : State) (x : RF) : (s.okResp).is x = s.is x := rfl
@[simp] theorem State.okResp_byte (s : State) (x : Nat) : (s.okResp).byte x = s.byte x := rfl

@[simp] theorem State.errResp_tb (s : State) : (s.errResp).tb = s.tb := rfl
@[simp] theorem State.errResp_pending (s : State) : (s.errResp).pending = s.pending := rfl
@[simp] theorem State.errResp_regs (s : State) : (s.errResp).regs = s.regs := rfl
@[simp] theorem State.errResp_mem (s : State) : (s.errResp).mem = s.mem := rfl
@[simp] theorem State.errResp_holding (s : State) : (s.errResp).holding = s.holding := rfl
@[simp] theorem State.errResp_drawn (s : State) : (s.errResp).drawn = s.drawn := rfl
@[simp] theorem State.errResp_marks (s : State) : (s.errResp).marks = s.marks := rfl
@[simp] theorem State.errResp_rows (s : State) : (s.errResp).rows = s.rows := rfl
@[simp] theorem State.errResp_ldg (s : State) : (s.errResp).ldg = s.ldg := rfl
@[simp] theorem State.errResp_chans (s : State) : (s.errResp).chans = s.chans := rfl
@[simp] theorem State.errResp_groups (s : State) : (s.errResp).groups = s.groups := rfl
@[simp] theorem State.errResp_fltPins (s : State) : (s.errResp).fltPins = s.fltPins := rfl
@[simp] theorem State.errResp_lanes (s : State) : (s.errResp).lanes = s.lanes := rfl
@[simp] theorem State.errResp_engs (s : State) : (s.errResp).engs = s.engs := rfl
@[simp] theorem State.errResp_mld (s : State) : (s.errResp).mld = s.mld := rfl
@[simp] theorem State.errResp_adcs (s : State) : (s.errResp).adcs = s.adcs := rfl
@[simp] theorem State.errResp_chains (s : State) : (s.errResp).chains = s.chains := rfl
@[simp] theorem State.errResp_scr (s : State) : (s.errResp).scr = s.scr := rfl
@[simp] theorem State.errResp_move (s : State) : (s.errResp).move = s.move := rfl
@[simp] theorem State.errResp_trigs (s : State) : (s.errResp).trigs = s.trigs := rfl
@[simp] theorem State.errResp_twn (s : State) : (s.errResp).twn = s.twn := rfl
@[simp] theorem State.errResp_trks (s : State) : (s.errResp).trks = s.trks := rfl
@[simp] theorem State.errResp_quad (s : State) : (s.errResp).quad = s.quad := rfl
@[simp] theorem State.errResp_net (s : State) : (s.errResp).net = s.net := rfl
@[simp] theorem State.errResp_doms (s : State) : (s.errResp).doms = s.doms := rfl
@[simp] theorem State.errResp_pdelays (s : State) : (s.errResp).pdelays = s.pdelays := rfl
@[simp] theorem State.errResp_isle (s : State) : (s.errResp).isle = s.isle := rfl
@[simp] theorem State.errResp_mst (s : State) : (s.errResp).mst = s.mst := rfl
@[simp] theorem State.errResp_clk (s : State) : (s.errResp).clk = s.clk := rfl
@[simp] theorem State.errResp_hlt (s : State) : (s.errResp).hlt = s.hlt := rfl
@[simp] theorem State.errResp_pwr (s : State) : (s.errResp).pwr = s.pwr := rfl
@[simp] theorem State.errResp_pins (s : State) : (s.errResp).pins = s.pins := rfl
@[simp] theorem State.errResp_word (s : State) (x : Nat) : (s.errResp).word x = s.word x := rfl
@[simp] theorem State.errResp_get (s : State) (x : RF) : (s.errResp).get x = s.get x := rfl
@[simp] theorem State.errResp_is (s : State) (x : RF) : (s.errResp).is x = s.is x := rfl
@[simp] theorem State.errResp_byte (s : State) (x : Nat) : (s.errResp).byte x = s.byte x := rfl

@[simp] theorem State.dataResp_tb (s : State) (v : Nat) : (s.dataResp v).tb = s.tb := rfl
@[simp] theorem State.dataResp_pending (s : State) (v : Nat) : (s.dataResp v).pending = s.pending := rfl
@[simp] theorem State.dataResp_regs (s : State) (v : Nat) : (s.dataResp v).regs = s.regs := rfl
@[simp] theorem State.dataResp_mem (s : State) (v : Nat) : (s.dataResp v).mem = s.mem := rfl
@[simp] theorem State.dataResp_holding (s : State) (v : Nat) : (s.dataResp v).holding = s.holding := rfl
@[simp] theorem State.dataResp_drawn (s : State) (v : Nat) : (s.dataResp v).drawn = s.drawn := rfl
@[simp] theorem State.dataResp_marks (s : State) (v : Nat) : (s.dataResp v).marks = s.marks := rfl
@[simp] theorem State.dataResp_rows (s : State) (v : Nat) : (s.dataResp v).rows = s.rows := rfl
@[simp] theorem State.dataResp_ldg (s : State) (v : Nat) : (s.dataResp v).ldg = s.ldg := rfl
@[simp] theorem State.dataResp_chans (s : State) (v : Nat) : (s.dataResp v).chans = s.chans := rfl
@[simp] theorem State.dataResp_groups (s : State) (v : Nat) : (s.dataResp v).groups = s.groups := rfl
@[simp] theorem State.dataResp_fltPins (s : State) (v : Nat) : (s.dataResp v).fltPins = s.fltPins := rfl
@[simp] theorem State.dataResp_lanes (s : State) (v : Nat) : (s.dataResp v).lanes = s.lanes := rfl
@[simp] theorem State.dataResp_engs (s : State) (v : Nat) : (s.dataResp v).engs = s.engs := rfl
@[simp] theorem State.dataResp_mld (s : State) (v : Nat) : (s.dataResp v).mld = s.mld := rfl
@[simp] theorem State.dataResp_adcs (s : State) (v : Nat) : (s.dataResp v).adcs = s.adcs := rfl
@[simp] theorem State.dataResp_chains (s : State) (v : Nat) : (s.dataResp v).chains = s.chains := rfl
@[simp] theorem State.dataResp_scr (s : State) (v : Nat) : (s.dataResp v).scr = s.scr := rfl
@[simp] theorem State.dataResp_move (s : State) (v : Nat) : (s.dataResp v).move = s.move := rfl
@[simp] theorem State.dataResp_trigs (s : State) (v : Nat) : (s.dataResp v).trigs = s.trigs := rfl
@[simp] theorem State.dataResp_twn (s : State) (v : Nat) : (s.dataResp v).twn = s.twn := rfl
@[simp] theorem State.dataResp_trks (s : State) (v : Nat) : (s.dataResp v).trks = s.trks := rfl
@[simp] theorem State.dataResp_quad (s : State) (v : Nat) : (s.dataResp v).quad = s.quad := rfl
@[simp] theorem State.dataResp_net (s : State) (v : Nat) : (s.dataResp v).net = s.net := rfl
@[simp] theorem State.dataResp_doms (s : State) (v : Nat) : (s.dataResp v).doms = s.doms := rfl
@[simp] theorem State.dataResp_pdelays (s : State) (v : Nat) : (s.dataResp v).pdelays = s.pdelays := rfl
@[simp] theorem State.dataResp_isle (s : State) (v : Nat) : (s.dataResp v).isle = s.isle := rfl
@[simp] theorem State.dataResp_mst (s : State) (v : Nat) : (s.dataResp v).mst = s.mst := rfl
@[simp] theorem State.dataResp_clk (s : State) (v : Nat) : (s.dataResp v).clk = s.clk := rfl
@[simp] theorem State.dataResp_hlt (s : State) (v : Nat) : (s.dataResp v).hlt = s.hlt := rfl
@[simp] theorem State.dataResp_pwr (s : State) (v : Nat) : (s.dataResp v).pwr = s.pwr := rfl
@[simp] theorem State.dataResp_pins (s : State) (v : Nat) : (s.dataResp v).pins = s.pins := rfl
@[simp] theorem State.dataResp_word (s : State) (v : Nat) (x : Nat) : (s.dataResp v).word x = s.word x := rfl
@[simp] theorem State.dataResp_get (s : State) (v : Nat) (x : RF) : (s.dataResp v).get x = s.get x := rfl
@[simp] theorem State.dataResp_is (s : State) (v : Nat) (x : RF) : (s.dataResp v).is x = s.is x := rfl
@[simp] theorem State.dataResp_byte (s : State) (v : Nat) (x : Nat) : (s.dataResp v).byte x = s.byte x := rfl

/-! ### The register list after each update, and a read in terms of it -/

@[simp] theorem State.put_regs (s : State) (f : RF) (v : Nat) : (s.put f v).regs = regPut s.regs f v := rfl
@[simp] theorem State.set1_regs (s : State) (f : RF) : (s.set1 f).regs = regPut s.regs f 1 := rfl
@[simp] theorem State.clr_regs (s : State) (f : RF) : (s.clr f).regs = regPut s.regs f 0 := rfl
@[simp] theorem State.orr_regs (s : State) (f : RF) (m : Nat) :
    (s.orr f m).regs = regPut s.regs f (regGet s.regs f ||| m) := rfl
@[simp] theorem State.andn_regs (s : State) (f : RF) (m : Nat) :
    (s.andn f m).regs = regPut s.regs f (regGet s.regs f - (regGet s.regs f &&& m)) := rfl
@[simp] theorem State.bump_regs (s : State) (f : RF) (n : Nat) :
    (s.bump f n).regs = regPut s.regs f (satInc f.width (regGet s.regs f) n) := rfl
@[simp] theorem State.bumpWrap_regs (s : State) (f : RF) (n : Nat) :
    (s.bumpWrap f n).regs = regPut s.regs f ((regGet s.regs f + n) % 2 ^ f.width) := rfl
theorem State.get_eq (s : State) (f : RF) : s.get f = regGet s.regs f := rfl
theorem State.is_eq (s : State) (f : RF) : s.is f = decide (regGet s.regs f ≠ 0) := rfl

end Sys2Proof.Machine
end

