-- ==== Sys2Proof/Laws/Reach.lean ====
section
/-!
SUPPORT. What the shared wrappers of the commands answer: a register of a part within the reach reads as the effect left it,
one of a part outside it as before; the queue stays; TB never runs backward.
-/

namespace Sys2Proof.Machine

/-- Within the reach a word reads as the effect left it. -/
theorem State.word_confine_in {reach : List Part} {old new : State} {a : Nat} (h : partOf a ∈ reach) :
    (old.confine reach new).word a = new.word a := by
  unfold State.word regWord State.confine
  rw [sget_smix_in]; simpa using h

/-- Outside the reach a word reads as before. -/
theorem State.word_confine_out {reach : List Part} {old new : State} {a : Nat} (h : partOf a ∉ reach) :
    (old.confine reach new).word a = old.word a := by
  unfold State.word regWord State.confine
  rw [sget_smix_out]; simpa using h

theorem State.get_confine_in {reach : List Part} {old new : State} {f : RF} (h : partOf f.addr ∈ reach)
    (h4 : f.lsb + f.width ≤ 32 ∨ partOf (f.addr + 4) ∈ reach) : (old.confine reach new).get f = new.get f := by
  unfold State.get regGet
  have h1 := State.word_confine_in (old := old) (new := new) h
  split
  · exact congrArg (bits · f.lsb f.width) h1
  · have h2 := State.word_confine_in (old := old) (new := new) (h4.resolve_left ‹_›)
    unfold State.word at h1 h2
    rw [h1, h2]

theorem State.get_confine_out {reach : List Part} {old new : State} {f : RF} (h : partOf f.addr ∉ reach)
    (h4 : f.lsb + f.width ≤ 32 ∨ partOf (f.addr + 4) ∉ reach) : (old.confine reach new).get f = old.get f := by
  unfold State.get regGet
  have h1 := State.word_confine_out (old := old) (new := new) h
  split
  · exact congrArg (bits · f.lsb f.width) h1
  · have h2 := State.word_confine_out (old := old) (new := new) (h4.resolve_left ‹_›)
    unfold State.word at h1 h2
    rw [h1, h2]

theorem State.is_confine_in {reach : List Part} {old new : State} {f : RF} (h : partOf f.addr ∈ reach)
    (h4 : f.lsb + f.width ≤ 32 ∨ partOf (f.addr + 4) ∈ reach) : (old.confine reach new).is f = new.is f := by
  simp only [State.is, State.get_confine_in h h4]

theorem State.mem_confine_out {reach : List Part} {old new : State} (h : Part.mem ∉ reach) :
    (old.confine reach new).mem = old.mem := by simp [State.confine, h]
theorem State.mem_confine_in {reach : List Part} {old new : State} (h : Part.mem ∈ reach) :
    (old.confine reach new).mem = new.mem := by simp [State.confine, h]

/-! ### The state a command leaves -/

variable {reach : List Part} {s n : State} {tb : Nat}

@[simp] theorem State.settle_tb : (s.settle reach tb n).tb = tb := rfl
@[simp] theorem State.settle_pending : (s.settle reach tb n).pending = s.pending := rfl
@[simp] theorem State.settle_drawn : (s.settle reach tb n).drawn = n.drawn := rfl
theorem State.settle_resp_in (h : Part.bus ∈ reach) : (s.settle reach tb n).resp = n.resp := by
  simp [State.settle, State.confine, h]
theorem State.settle_resp_out (h : Part.bus ∉ reach) : (s.settle reach tb n).resp = s.resp := by
  simp [State.settle, State.confine, h]
theorem State.settle_holding_in (h : Part.bus ∈ reach) : (s.settle reach tb n).holding = n.holding := by
  simp [State.settle, State.confine, h]
theorem State.settle_holding_out (h : Part.bus ∉ reach) : (s.settle reach tb n).holding = s.holding := by
  simp [State.settle, State.confine, h]
theorem State.settle_mem_in (h : Part.mem ∈ reach) : (s.settle reach tb n).mem = n.mem := by
  simp [State.settle, State.confine, h]
theorem State.settle_mem_out (h : Part.mem ∉ reach) : (s.settle reach tb n).mem = s.mem := by
  simp [State.settle, State.confine, h]
theorem State.settle_rows_in (h : Part.mem ∈ reach) : (s.settle reach tb n).rows = n.rows := by
  simp [State.settle, State.confine, h]
theorem State.settle_rows_out (h : Part.mem ∉ reach) : (s.settle reach tb n).rows = s.rows := by
  simp [State.settle, State.confine, h]
theorem State.settle_ldg_in (h : Part.ldg ∈ reach) : (s.settle reach tb n).ldg = n.ldg := by
  simp [State.settle, State.confine, h]
theorem State.settle_ldg_out (h : Part.ldg ∉ reach) : (s.settle reach tb n).ldg = s.ldg := by
  simp [State.settle, State.confine, h]
theorem State.settle_chans_in (h : Part.pwm ∈ reach) : (s.settle reach tb n).chans = n.chans := by
  simp [State.settle, State.confine, h]
theorem State.settle_chans_out (h : Part.pwm ∉ reach) : (s.settle reach tb n).chans = s.chans := by
  simp [State.settle, State.confine, h]
theorem State.settle_groups_in (h : Part.pwm ∈ reach) : (s.settle reach tb n).groups = n.groups := by
  simp [State.settle, State.confine, h]
theorem State.settle_groups_out (h : Part.pwm ∉ reach) : (s.settle reach tb n).groups = s.groups := by
  simp [State.settle, State.confine, h]
theorem State.settle_fltPins_in (h : Part.fmx ∈ reach) : (s.settle reach tb n).fltPins = n.fltPins := by
  simp [State.settle, State.confine, h]
theorem State.settle_fltPins_out (h : Part.fmx ∉ reach) : (s.settle reach tb n).fltPins = s.fltPins := by
  simp [State.settle, State.confine, h]
theorem State.settle_lanes_in (h : Part.lne ∈ reach) : (s.settle reach tb n).lanes = n.lanes := by
  simp [State.settle, State.confine, h]
theorem State.settle_lanes_out (h : Part.lne ∉ reach) : (s.settle reach tb n).lanes = s.lanes := by
  simp [State.settle, State.confine, h]
theorem State.settle_engs_in (h : Part.ce ∈ reach) : (s.settle reach tb n).engs = n.engs := by
  simp [State.settle, State.confine, h]
theorem State.settle_engs_out (h : Part.ce ∉ reach) : (s.settle reach tb n).engs = s.engs := by
  simp [State.settle, State.confine, h]
theorem State.settle_move_in (h : Part.ce ∈ reach) : (s.settle reach tb n).move = n.move := by
  simp [State.settle, State.confine, h]
theorem State.settle_move_out (h : Part.ce ∉ reach) : (s.settle reach tb n).move = s.move := by
  simp [State.settle, State.confine, h]
theorem State.settle_mld_in (h : Part.mld ∈ reach) : (s.settle reach tb n).mld = n.mld := by
  simp [State.settle, State.confine, h]
theorem State.settle_mld_out (h : Part.mld ∉ reach) : (s.settle reach tb n).mld = s.mld := by
  simp [State.settle, State.confine, h]
theorem State.settle_adcs_in (h : Part.adc ∈ reach) : (s.settle reach tb n).adcs = n.adcs := by
  simp [State.settle, State.confine, h]
theorem State.settle_adcs_out (h : Part.adc ∉ reach) : (s.settle reach tb n).adcs = s.adcs := by
  simp [State.settle, State.confine, h]
theorem State.settle_chains_in (h : Part.scr ∈ reach) : (s.settle reach tb n).chains = n.chains := by
  simp [State.settle, State.confine, h]
theorem State.settle_chains_out (h : Part.scr ∉ reach) : (s.settle reach tb n).chains = s.chains := by
  simp [State.settle, State.confine, h]
theorem State.settle_scr_in (h : Part.scr ∈ reach) : (s.settle reach tb n).scr = n.scr := by
  simp [State.settle, State.confine, h]
theorem State.settle_scr_out (h : Part.scr ∉ reach) : (s.settle reach tb n).scr = s.scr := by
  simp [State.settle, State.confine, h]
theorem State.settle_trigs_in (h : Part.tsu ∈ reach) : (s.settle reach tb n).trigs = n.trigs := by
  simp [State.settle, State.confine, h]
theorem State.settle_trigs_out (h : Part.tsu ∉ reach) : (s.settle reach tb n).trigs = s.trigs := by
  simp [State.settle, State.confine, h]
theorem State.settle_doms_in (h : Part.tsu ∈ reach) : (s.settle reach tb n).doms = n.doms := by
  simp [State.settle, State.confine, h]
theorem State.settle_doms_out (h : Part.tsu ∉ reach) : (s.settle reach tb n).doms = s.doms := by
  simp [State.settle, State.confine, h]
theorem State.settle_pdelays_in (h : Part.tsu ∈ reach) : (s.settle reach tb n).pdelays = n.pdelays := by
  simp [State.settle, State.confine, h]
theorem State.settle_pdelays_out (h : Part.tsu ∉ reach) : (s.settle reach tb n).pdelays = s.pdelays := by
  simp [State.settle, State.confine, h]
theorem State.settle_twn_in (h : Part.twn ∈ reach) : (s.settle reach tb n).twn = n.twn := by
  simp [State.settle, State.confine, h]
theorem State.settle_twn_out (h : Part.twn ∉ reach) : (s.settle reach tb n).twn = s.twn := by
  simp [State.settle, State.confine, h]
theorem State.settle_trks_in (h : Part.pht ∈ reach) : (s.settle reach tb n).trks = n.trks := by
  simp [State.settle, State.confine, h]
theorem State.settle_trks_out (h : Part.pht ∉ reach) : (s.settle reach tb n).trks = s.trks := by
  simp [State.settle, State.confine, h]
theorem State.settle_quad_in (h : Part.pht ∈ reach) : (s.settle reach tb n).quad = n.quad := by
  simp [State.settle, State.confine, h]
theorem State.settle_quad_out (h : Part.pht ∉ reach) : (s.settle reach tb n).quad = s.quad := by
  simp [State.settle, State.confine, h]
theorem State.settle_net_in (h : Part.net ∈ reach) : (s.settle reach tb n).net = n.net := by
  simp [State.settle, State.confine, h]
theorem State.settle_net_out (h : Part.net ∉ reach) : (s.settle reach tb n).net = s.net := by
  simp [State.settle, State.confine, h]
theorem State.settle_isle_in (h : Part.wch ∈ reach) : (s.settle reach tb n).isle = n.isle := by
  simp [State.settle, State.confine, h]
theorem State.settle_isle_out (h : Part.wch ∉ reach) : (s.settle reach tb n).isle = s.isle := by
  simp [State.settle, State.confine, h]
theorem State.settle_mst_in (h : Part.mst ∈ reach) : (s.settle reach tb n).mst = n.mst := by
  simp [State.settle, State.confine, h]
theorem State.settle_mst_out (h : Part.mst ∉ reach) : (s.settle reach tb n).mst = s.mst := by
  simp [State.settle, State.confine, h]
theorem State.settle_clk_in (h : Part.clk ∈ reach) : (s.settle reach tb n).clk = n.clk := by
  simp [State.settle, State.confine, h]
theorem State.settle_clk_out (h : Part.clk ∉ reach) : (s.settle reach tb n).clk = s.clk := by
  simp [State.settle, State.confine, h]
theorem State.settle_hlt_in (h : Part.hlt ∈ reach) : (s.settle reach tb n).hlt = n.hlt := by
  simp [State.settle, State.confine, h]
theorem State.settle_hlt_out (h : Part.hlt ∉ reach) : (s.settle reach tb n).hlt = s.hlt := by
  simp [State.settle, State.confine, h]
theorem State.settle_pwr_in (h : Part.pwr ∈ reach) : (s.settle reach tb n).pwr = n.pwr := by
  simp [State.settle, State.confine, h]
theorem State.settle_pwr_out (h : Part.pwr ∉ reach) : (s.settle reach tb n).pwr = s.pwr := by
  simp [State.settle, State.confine, h]
theorem State.settle_pins_in (h : Part.pin ∈ reach) : (s.settle reach tb n).pins = n.pins := by
  simp [State.settle, State.confine, h]
theorem State.settle_pins_out (h : Part.pin ∉ reach) : (s.settle reach tb n).pins = s.pins := by
  simp [State.settle, State.confine, h]

theorem State.settle_word_in {a : Nat} (h : partOf a ∈ reach) : (s.settle reach tb n).word a = n.word a :=
  State.word_confine_in h
theorem State.settle_word_out {a : Nat} (h : partOf a ∉ reach) : (s.settle reach tb n).word a = s.word a :=
  State.word_confine_out h
theorem State.settle_get_in {f : RF} (h : partOf f.addr ∈ reach)
    (h4 : f.lsb + f.width ≤ 32 ∨ partOf (f.addr + 4) ∈ reach) : (s.settle reach tb n).get f = n.get f :=
  State.get_confine_in h h4
theorem State.settle_get_out {f : RF} (h : partOf f.addr ∉ reach)
    (h4 : f.lsb + f.width ≤ 32 ∨ partOf (f.addr + 4) ∉ reach) : (s.settle reach tb n).get f = s.get f :=
  State.get_confine_out h h4
theorem State.settle_is_in {f : RF} (h : partOf f.addr ∈ reach)
    (h4 : f.lsb + f.width ≤ 32 ∨ partOf (f.addr + 4) ∈ reach) : (s.settle reach tb n).is f = n.is f :=
  State.is_confine_in h h4
theorem State.settle_byte_in (h : Part.mem ∈ reach) (a : Nat) : (s.settle reach tb n).byte a = n.byte a := by
  simp only [State.byte, State.settle_mem_in h]
theorem State.settle_byte_out (h : Part.mem ∉ reach) (a : Nat) : (s.settle reach tb n).byte a = s.byte a := by
  simp only [State.byte, State.settle_mem_out h]

/-! ### QCHG beside the reach -/

@[simp] theorem State.follow_tb (o : State) : (o.follow s).tb = s.tb := by unfold State.follow; split <;> rfl
@[simp] theorem State.follow_pending (o : State) : (o.follow s).pending = s.pending := by unfold State.follow; split <;> rfl
@[simp] theorem State.follow_mem (o : State) : (o.follow s).mem = s.mem := by unfold State.follow; split <;> rfl
@[simp] theorem State.follow_rows (o : State) : (o.follow s).rows = s.rows := by unfold State.follow; split <;> rfl
@[simp] theorem State.follow_resp (o : State) : (o.follow s).resp = s.resp := by unfold State.follow; split <;> rfl
@[simp] theorem State.follow_holding (o : State) : (o.follow s).holding = s.holding := by unfold State.follow; split <;> rfl
@[simp] theorem State.follow_drawn (o : State) : (o.follow s).drawn = s.drawn := by unfold State.follow; split <;> rfl
@[simp] theorem State.follow_ldg (o : State) : (o.follow s).ldg = s.ldg := by unfold State.follow; split <;> rfl
@[simp] theorem State.follow_chans (o : State) : (o.follow s).chans = s.chans := by unfold State.follow; split <;> rfl
@[simp] theorem State.follow_groups (o : State) : (o.follow s).groups = s.groups := by unfold State.follow; split <;> rfl
@[simp] theorem State.follow_fltPins (o : State) : (o.follow s).fltPins = s.fltPins := by unfold State.follow; split <;> rfl
@[simp] theorem State.follow_lanes (o : State) : (o.follow s).lanes = s.lanes := by unfold State.follow; split <;> rfl
@[simp] theorem State.follow_engs (o : State) : (o.follow s).engs = s.engs := by unfold State.follow; split <;> rfl
@[simp] theorem State.follow_mld (o : State) : (o.follow s).mld = s.mld := by unfold State.follow; split <;> rfl
@[simp] theorem State.follow_adcs (o : State) : (o.follow s).adcs = s.adcs := by unfold State.follow; split <;> rfl
@[simp] theorem State.follow_chains (o : State) : (o.follow s).chains = s.chains := by unfold State.follow; split <;> rfl
@[simp] theorem State.follow_scr (o : State) : (o.follow s).scr = s.scr := by unfold State.follow; split <;> rfl
@[simp] theorem State.follow_move (o : State) : (o.follow s).move = s.move := by unfold State.follow; split <;> rfl
@[simp] theorem State.follow_trigs (o : State) : (o.follow s).trigs = s.trigs := by unfold State.follow; split <;> rfl
@[simp] theorem State.follow_twn (o : State) : (o.follow s).twn = s.twn := by unfold State.follow; split <;> rfl
@[simp] theorem State.follow_trks (o : State) : (o.follow s).trks = s.trks := by unfold State.follow; split <;> rfl
@[simp] theorem State.follow_quad (o : State) : (o.follow s).quad = s.quad := by unfold State.follow; split <;> rfl
@[simp] theorem State.follow_net (o : State) : (o.follow s).net = s.net := by unfold State.follow; split <;> rfl
@[simp] theorem State.follow_doms (o : State) : (o.follow s).doms = s.doms := by unfold State.follow; split <;> rfl
@[simp] theorem State.follow_pdelays (o : State) : (o.follow s).pdelays = s.pdelays := by unfold State.follow; split <;> rfl
@[simp] theorem State.follow_isle (o : State) : (o.follow s).isle = s.isle := by unfold State.follow; split <;> rfl
@[simp] theorem State.follow_mst (o : State) : (o.follow s).mst = s.mst := by unfold State.follow; split <;> rfl
@[simp] theorem State.follow_clk (o : State) : (o.follow s).clk = s.clk := by unfold State.follow; split <;> rfl
@[simp] theorem State.follow_hlt (o : State) : (o.follow s).hlt = s.hlt := by unfold State.follow; split <;> rfl
@[simp] theorem State.follow_pwr (o : State) : (o.follow s).pwr = s.pwr := by unfold State.follow; split <;> rfl
@[simp] theorem State.follow_pins (o : State) : (o.follow s).pins = s.pins := by unfold State.follow; split <;> rfl
@[simp] theorem State.follow_byte (o : State) (a : Nat) : (o.follow s).byte a = s.byte a := by
  unfold State.follow; split <;> rfl
/-- Every word but MLD_INT_STAT stays; that word stays too, or QCHG sets because a condition changed. -/
theorem State.follow_word_ne (o : State) {a : Nat} (h : a ≠ R.MLD_INT_STAT_QCHG.addr) : (o.follow s).word a = s.word a := by
  unfold State.follow; split
  · rfl
  · exact regWord_regPut_one _ _ _ _ (by decide) h
theorem State.follow_get_apart (o : State) (f : RF) (hf : f.lsb + f.width ≤ 64) (h : R.MLD_INT_STAT_QCHG.apart f) :
    (o.follow s).get f = s.get f := by
  unfold State.follow; split
  · rfl
  · exact State.get_set1_apart s _ f (by decide) hf h
theorem State.follow_is_apart (o : State) (f : RF) (hf : f.lsb + f.width ≤ 64) (h : R.MLD_INT_STAT_QCHG.apart f) :
    (o.follow s).is f = s.is f := by simp only [State.is, State.follow_get_apart o f hf h]
theorem State.follow_same (o : State) (h : ∀ n ∈ [0, 9, 10, 11], s.sheetQuiesced n = o.sheetQuiesced n) : o.follow s = s := by
  unfold State.follow; rw [if_pos]; simpa using h

/-- The state a command leaves is the settled one, or that with QCHG following. -/
theorem State.finish_cases : s.finish reach tb n = s.settle reach tb n ∨
    showsQuiesce reach = true ∧ s.finish reach tb n = s.follow (s.settle reach tb n) := by
  unfold State.finish; split
  · exact .inr ⟨‹_›, rfl⟩
  · exact .inl rfl
@[simp] theorem State.finish_tb : (s.finish reach tb n).tb = (s.settle reach tb n).tb := by
  unfold State.finish; split <;> simp
@[simp] theorem State.finish_pending : (s.finish reach tb n).pending = (s.settle reach tb n).pending := by
  unfold State.finish; split <;> simp
@[simp] theorem State.finish_mem : (s.finish reach tb n).mem = (s.settle reach tb n).mem := by
  unfold State.finish; split <;> simp
@[simp] theorem State.finish_rows : (s.finish reach tb n).rows = (s.settle reach tb n).rows := by
  unfold State.finish; split <;> simp
@[simp] theorem State.finish_resp : (s.finish reach tb n).resp = (s.settle reach tb n).resp := by
  unfold State.finish; split <;> simp
@[simp] theorem State.finish_holding : (s.finish reach tb n).holding = (s.settle reach tb n).holding := by
  unfold State.finish; split <;> simp
@[simp] theorem State.finish_drawn : (s.finish reach tb n).drawn = (s.settle reach tb n).drawn := by
  unfold State.finish; split <;> simp
@[simp] theorem State.finish_ldg : (s.finish reach tb n).ldg = (s.settle reach tb n).ldg := by
  unfold State.finish; split <;> simp
@[simp] theorem State.finish_chans : (s.finish reach tb n).chans = (s.settle reach tb n).chans := by
  unfold State.finish; split <;> simp
@[simp] theorem State.finish_groups : (s.finish reach tb n).groups = (s.settle reach tb n).groups := by
  unfold State.finish; split <;> simp
@[simp] theorem State.finish_fltPins : (s.finish reach tb n).fltPins = (s.settle reach tb n).fltPins := by
  unfold State.finish; split <;> simp
@[simp] theorem State.finish_lanes : (s.finish reach tb n).lanes = (s.settle reach tb n).lanes := by
  unfold State.finish; split <;> simp
@[simp] theorem State.finish_engs : (s.finish reach tb n).engs = (s.settle reach tb n).engs := by
  unfold State.finish; split <;> simp
@[simp] theorem State.finish_mld : (s.finish reach tb n).mld = (s.settle reach tb n).mld := by
  unfold State.finish; split <;> simp
@[simp] theorem State.finish_adcs : (s.finish reach tb n).adcs = (s.settle reach tb n).adcs := by
  unfold State.finish; split <;> simp
@[simp] theorem State.finish_chains : (s.finish reach tb n).chains = (s.settle reach tb n).chains := by
  unfold State.finish; split <;> simp
@[simp] theorem State.finish_scr : (s.finish reach tb n).scr = (s.settle reach tb n).scr := by
  unfold State.finish; split <;> simp
@[simp] theorem State.finish_move : (s.finish reach tb n).move = (s.settle reach tb n).move := by
  unfold State.finish; split <;> simp
@[simp] theorem State.finish_trigs : (s.finish reach tb n).trigs = (s.settle reach tb n).trigs := by
  unfold State.finish; split <;> simp
@[simp] theorem State.finish_twn : (s.finish reach tb n).twn = (s.settle reach tb n).twn := by
  unfold State.finish; split <;> simp
@[simp] theorem State.finish_trks : (s.finish reach tb n).trks = (s.settle reach tb n).trks := by
  unfold State.finish; split <;> simp
@[simp] theorem State.finish_quad : (s.finish reach tb n).quad = (s.settle reach tb n).quad := by
  unfold State.finish; split <;> simp
@[simp] theorem State.finish_net : (s.finish reach tb n).net = (s.settle reach tb n).net := by
  unfold State.finish; split <;> simp
@[simp] theorem State.finish_doms : (s.finish reach tb n).doms = (s.settle reach tb n).doms := by
  unfold State.finish; split <;> simp
@[simp] theorem State.finish_pdelays : (s.finish reach tb n).pdelays = (s.settle reach tb n).pdelays := by
  unfold State.finish; split <;> simp
@[simp] theorem State.finish_isle : (s.finish reach tb n).isle = (s.settle reach tb n).isle := by
  unfold State.finish; split <;> simp
@[simp] theorem State.finish_mst : (s.finish reach tb n).mst = (s.settle reach tb n).mst := by
  unfold State.finish; split <;> simp
@[simp] theorem State.finish_clk : (s.finish reach tb n).clk = (s.settle reach tb n).clk := by
  unfold State.finish; split <;> simp
@[simp] theorem State.finish_hlt : (s.finish reach tb n).hlt = (s.settle reach tb n).hlt := by
  unfold State.finish; split <;> simp
@[simp] theorem State.finish_pwr : (s.finish reach tb n).pwr = (s.settle reach tb n).pwr := by
  unfold State.finish; split <;> simp
@[simp] theorem State.finish_pins : (s.finish reach tb n).pins = (s.settle reach tb n).pins := by
  unfold State.finish; split <;> simp
@[simp] theorem State.finish_byte (a : Nat) : (s.finish reach tb n).byte a = (s.settle reach tb n).byte a := by
  unfold State.finish; split <;> simp
theorem State.finish_word_ne {a : Nat} (h : a ≠ R.MLD_INT_STAT_QCHG.addr) :
    (s.finish reach tb n).word a = (s.settle reach tb n).word a := by
  unfold State.finish; split
  · exact State.follow_word_ne s h
  · rfl
theorem State.finish_get_apart (f : RF) (hf : f.lsb + f.width ≤ 64) (h : R.MLD_INT_STAT_QCHG.apart f) :
    (s.finish reach tb n).get f = (s.settle reach tb n).get f := by
  unfold State.finish; split
  · exact State.follow_get_apart s f hf h
  · rfl
theorem State.finish_is_apart (f : RF) (hf : f.lsb + f.width ≤ 64) (h : R.MLD_INT_STAT_QCHG.apart f) :
    (s.finish reach tb n).is f = (s.settle reach tb n).is f := by simp only [State.is, State.finish_get_apart f hf h]

/-- The part of a register address, from the block it lies in. -/
theorem partOf_eq {a k : Nat} {p : Part} (h : a / 0x10000 = k) (hp : partOf (k * 0x10000) = p) : partOf a = p := by
  subst hp; simp [partOf, h]

/-- TB at `t` is never behind TB before. -/
theorem State.tb_le_at (s : State) (t : Nat) : s.tb ≤ (s.at t).tb := Nat.le_max_left ..
theorem State.tb_at (s : State) (t : Nat) : (s.at t).tb = max s.tb (t % 2 ^ 64) := rfl
theorem State.tb_at_lt {s : State} (t : Nat) (h : s.tb < 2 ^ 64) : (s.at t).tb < 2 ^ 64 :=
  Nat.max_lt.mpr ⟨h, Nat.mod_lt _ (Nat.two_pow_pos 64)⟩

/-! ### Held in reset -/

/-- A device that runs is reached as the command says; one that is held, in no other part. -/
theorem State.reachHeld_run {s : State} (h : s.held = false) (reach : List Part) : s.reachHeld reach = reach := by
  simp [State.reachHeld, h]
theorem State.reachHeld_subset (s : State) (reach : List Part) : s.reachHeld reach ⊆ reach := by
  unfold State.reachHeld
  split
  · exact List.Subset.refl _
  · split
    · exact List.nil_subset _
    · exact List.filter_subset_self _
/-- Of a held device at most the keep-alive unit and the island are reached. -/
theorem State.mem_reachHeld {s : State} (h : s.held = true) {reach : List Part} {p : Part} (hp : p ∈ s.reachHeld reach) :
    p = .pwr ∨ p = .wch := by
  unfold State.reachHeld at hp
  split at hp
  · simp_all
  · split at hp
    · simp at hp
    · simp only [List.mem_filter, Bool.or_eq_true, decide_eq_true_eq, Bool.and_eq_true] at hp; tauto

/-- What a command that acts answers. -/
theorem actHeld_eq (reach : List Part) (t : Nat) (s : State) (f : State → State) :
    actHeld reach t s f = .next (s.finish reach (s.at t).tb (f (s.at t))) := rfl
theorem act_eq (reach : List Part) (t : Nat) (s : State) (f : State → State) :
    act reach t s f = .next (s.finish (s.reachHeld reach) (s.at t).tb (f (s.at t))) := rfl
theorem act_run {s : State} (h : s.held = false) (reach : List Part) (t : Nat) (f : State → State) :
    act reach t s f = .next (s.finish reach (s.at t).tb (f (s.at t))) := by rw [act_eq, State.reachHeld_run h]
theorem actTime_run {s : State} (h : s.held = false) (reach : List Part) (t : Nat) (f : State → State) :
    actTime reach t s f = .next (s.finish reach (max (s.at t).tb ((f (s.at t)).tb % 2 ^ 64)) (f (s.at t))) := by
  simp [actTime, h]
theorem actTime_held {s : State} (h : s.held = true) (reach : List Part) (t : Nat) (f : State → State) :
    actTime reach t s f = act [] t s id := by simp [actTime, h]

/-- A command on an existing unit acts. -/
theorem onUnit_pos {reach : List Part} {ok : Prop} [Decidable ok] (h : ok) (t : Nat) (s : State) (f : State → State) :
    onUnit reach ok t s f = act reach t s f := if_pos h
theorem onUnit_neg {reach : List Part} {ok : Prop} [Decidable ok] (h : ¬ ok) (t : Nat) (s : State) (f : State → State) :
    onUnit reach ok t s f = .fault .noSuchUnit := if_neg h
/-! ### Lane sources and the carry mask follow -/

/-- A fold that leaves a state alone at each of its steps leaves it alone. -/
theorem foldl_same {α β : Type} {f : α → β → α} {x : α} : ∀ l : List β, (∀ b ∈ l, f x b = x) → l.foldl f x = x
  | [], _ => rfl
  | b :: l, h => by rw [List.foldl_cons, h b List.mem_cons_self]; exact foldl_same l fun c hc => h c (List.mem_cons_of_mem _ hc)

/-- Where no cause of a lane and no bit of the carry mask changed, nothing follows. -/
theorem State.followed_same {o n : State}
    (h : ∀ l, l < 12 → n.get (R.LNE_LN_STAT_FS_CAUSE l) = o.get (R.LNE_LN_STAT_FS_CAUSE l))
    (hc : n.carryMask = o.carryMask) : o.followed n = n := by
  have e : State.laneSources o n = n := foldl_same _ fun l hl => if_pos (h l (List.mem_range.mp hl))
  unfold State.followed
  simp only [e, if_pos hc]

theorem laneAct_eq (reach : List Part) (t : Nat) (s : State) (f : State → State) :
    laneAct reach t s f = act reach t s fun x => x.followed (f x) := rfl
theorem laneUnit_pos {reach : List Part} {ok : Prop} [Decidable ok] (h : ok) (t : Nat) (s : State) (f : State → State) :
    laneUnit reach ok t s f = laneAct reach t s f := if_pos h

theorem onUnitHeld_pos {reach : List Part} {ok : Prop} [Decidable ok] (h : ok) (t : Nat) (s : State)
    (f : State → State) : onUnitHeld reach ok t s f = actHeld reach t s f := if_pos h
theorem onUnitTime_pos {reach : List Part} {ok : Prop} [Decidable ok] (h : ok) (t : Nat) (s : State)
    (f : State → State) : onUnitTime reach ok t s f = actTime reach t s f := if_pos h

end Sys2Proof.Machine
end

