-- ==== Sys2Proof/Laws/Frame.lean ====
section
/-!
SUPPORT. How the claims of a frame are put together: a field written keeps every bit outside it, frames compose, and the
wrappers of the commands keep them.
-/

namespace Sys2Proof.Machine

theorem KeepsBut.refl (fs : List RF) (s : State) : KeepsBut fs s s := fun _ _ _ _ => rfl

theorem KeepsBut.trans {fs : List RF} {a b c : State} (h : KeepsBut fs a b) (h' : KeepsBut fs b c) : KeepsBut fs a c :=
  fun x j hj hf => (h' x j hj hf).trans (h x j hj hf)

theorem KeepsBut.mono {fs gs : List RF} {a b : State} (h : KeepsBut fs a b) (hs : fs ⊆ gs) : KeepsBut gs a b :=
  fun x j hj hf => h x j hj fun f hm => hf f (hs hm)

theorem KeepsBut.put {fs : List RF} {s t : State} (h : KeepsBut fs s t) (f : RF) (v : Nat) (hw : f.lsb + f.width ≤ 64)
    (hf : f ∈ fs) : KeepsBut fs s (t.put f v) := by
  intro a j hj hc
  rw [State.testBit_word_put t f hw v a j hj, if_neg, h a j hj hc]
  have := hc f hf
  simp only [RF.covers] at this
  omega

theorem KeepsBut.of_regs {fs : List RF} {s t t' : State} (h : KeepsBut fs s t) (hr : t'.regs = t.regs) :
    KeepsBut fs s t' := fun a j hj hc => by rw [State.word_congr hr]; exact h a j hj hc

theorem KeepsBut.confine {fs : List RF} {s t : State} (reach : List Part) (h : KeepsBut fs s t) :
    KeepsBut fs s (s.confine reach t) := by
  intro a j hj hc
  by_cases hp : partOf a ∈ reach
  · rw [State.word_confine_in hp]; exact h a j hj hc
  · rw [State.word_confine_out hp]

/-- A frame as a claim about the two register lists. -/
def RegsBut (fs : List RF) (r r' : List (Nat × Word)) : Prop :=
  ∀ a j, j < 32 → (∀ f ∈ fs, ¬ f.covers a j) → (regWord r' a).testBit j = (regWord r a).testBit j

theorem RegsBut.refl (fs : List RF) (r : List (Nat × Word)) : RegsBut fs r r := fun _ _ _ _ => rfl
theorem RegsBut.put {fs : List RF} {r r' : List (Nat × Word)} (h : RegsBut fs r r') (f : RF) (v : Nat)
    (hw : f.lsb + f.width ≤ 64) (hf : f ∈ fs) : RegsBut fs r (regPut r' f v) := by
  intro a j hj hc
  rw [testBit_regWord_put r' f hw v a j hj, if_neg, h a j hj hc]
  have := hc f hf
  simp only [RF.covers] at this
  omega
theorem KeepsBut.of_lists {fs : List RF} {s s' : State} (h : RegsBut fs s.regs s'.regs) : KeepsBut fs s s' := h
/-- A field apart from every field listed keeps its value. -/
theorem KeepsBut.get {fs : List RF} {s s' : State} (h : KeepsBut fs s s') (g : RF) (hg : g.lsb + g.width ≤ 64)
    (ha : ∀ f ∈ fs, f.apart g) : s'.get g = s.get g := by
  apply Nat.eq_of_testBit_eq
  intro i
  rw [State.testBit_get _ g hg, State.testBit_get _ g hg]
  by_cases hi : i < g.width
  · rw [h _ _ (Nat.mod_lt _ (by omega))]
    intro f hf
    have := ha f hf
    simp only [RF.apart, RF.covers] at *
    omega
  · simp [hi]

/-- Following the conditions sets QCHG or changes nothing. -/
theorem State.follow_cases (o s : State) : o.follow s = s ∨
    o.follow s = s.set1 R.MLD_INT_STAT_QCHG ∧ ∃ n ∈ [0, 9, 10, 11], s.sheetQuiesced n ≠ o.sheetQuiesced n := by
  unfold State.follow
  split
  · exact .inl rfl
  · next h => exact .inr ⟨rfl, by simpa only [List.all_eq_true, not_forall, decide_eq_true_eq, exists_prop] using h⟩

theorem State.word_set1_one (s : State) (f : RF) (hw : f.lsb + f.width ≤ 32) :
    (s.set1 f).word f.addr = setBits (s.word f.addr) f.lsb f.width 1 := by
  show regWord (regPut s.regs f 1) f.addr = _
  unfold regPut
  rw [if_pos hw, regWord_regSet_same, Nat.mod_eq_of_lt (setBits_lt (regWord_lt _ _) hw)]; rfl

/-- QCHG decides no condition. -/
theorem State.sheetQuiesced_set1_qchg (s : State) (n : Nat) :
    (s.set1 R.MLD_INT_STAT_QCHG).sheetQuiesced n = s.sheetQuiesced n := by
  have g (f : RF) (hf : f.lsb + f.width ≤ 64) (ha : R.MLD_INT_STAT_QCHG.apart f) : (s.set1 R.MLD_INT_STAT_QCHG).get f = s.get f :=
    State.get_set1_apart s _ f (by decide) hf ha
  have src (k : Nat) : (s.set1 R.MLD_INT_STAT_QCHG).sheetLoaded k = s.sheetLoaded k := by
    simp only [State.sheetLoaded, State.is]
    rw [g _ (by simp [R.MLD_SH_SRC_LOADED]) (by simp [R.MLD_SH_SRC_LOADED, R.MLD_INT_STAT_QCHG, RF.apart]; omega)]
  unfold State.sheetQuiesced
  split <;> try simp only [src, State.sealOn, State.takesFrames, State.is, State.set1_mld, State.set1_ldg]
  · rw [g _ (by decide) (by decide)]
  · rw [g _ (by decide) (by decide), g _ (by decide) (by decide), g _ (by decide) (by decide)]
  · rw [g _ (by decide) (by decide)]
  · rw [g _ (by decide) (by decide), g _ (by decide) (by decide)]
  · rw [g _ (by decide) (by decide)]

theorem SameOutside.of_finish (reach : List Part) (s n : State) (tb : Nat) :
    SameOutside reach s (s.finish reach tb n) := by
  constructor
  case word => exact fun a h hq => (State.finish_word_ne hq).trans (State.settle_word_out h)
  case byte => exact fun h a => (State.finish_byte a).trans (State.settle_byte_out h a)
  case qchg =>
    intro h
    have hw : (s.settle reach tb n).word R.MLD_INT_STAT_QCHG.addr = s.word R.MLD_INT_STAT_QCHG.addr :=
      State.settle_word_out (by rw [partOf_eq (p := .mld) (k := 0x4003) (by decide) (by decide)]; exact h)
    rcases State.finish_cases (s := s) (n := n) (tb := tb) (reach := reach) with e | ⟨-, e⟩
    · rw [e, hw]; exact .inl rfl
    · rcases State.follow_cases s (s.settle reach tb n) with f | ⟨f, k, hk, hn⟩
      · rw [e, f, hw]; exact .inl rfl
      · refine .inr ⟨by rw [e, f, State.word_set1_one _ _ (by decide), hw]; rfl, k, hk, ?_⟩
        rw [e, f, State.sheetQuiesced_set1_qchg]; exact hn
  all_goals (intro h; simp [State.settle, State.confine, h])

theorem KeepsBut.settle {fs : List RF} {s t : State} (reach : List Part) (tb : Nat) (h : KeepsBut fs s t) :
    KeepsBut fs s (s.settle reach tb t) := (KeepsBut.confine reach h).of_regs rfl

/-- Where QCHG is listed, following it keeps the frame. -/
theorem KeepsBut.finish {fs : List RF} {s t : State} (reach : List Part) (tb : Nat) (h : KeepsBut fs s t)
    (hq : showsQuiesce reach = true → R.MLD_INT_STAT_QCHG ∈ fs) : KeepsBut fs s (s.finish reach tb t) := by
  rcases State.finish_cases (s := s) (n := t) (tb := tb) (reach := reach) with e | ⟨hr, e⟩
  · rw [e]; exact KeepsBut.settle reach tb h
  · rcases State.follow_cases s (s.settle reach tb t) with f | ⟨f, -⟩
    · rw [e, f]; exact KeepsBut.settle reach tb h
    · rw [e, f]
      exact ((KeepsBut.settle reach tb h).put R.MLD_INT_STAT_QCHG 1 (by decide) (hq hr)).of_regs rfl

theorem KeepsBut.of_settle {fs : List RF} {s n : State} {reach : List Part} {tb : Nat} (h : RegsBut fs s.regs n.regs) :
    KeepsBut fs s (s.settle reach tb n) := KeepsBut.settle reach tb (KeepsBut.of_lists h)

/-- What a command that acts does, from its effect. -/
theorem Does.of_act {c : Instr} {s : State} {P : State → Prop} {reach : List Part} {t : Nat} {f : State → State}
    (h : exec c s = act reach t s f)
    (hp : s.held = false → P (s.finish reach (s.at t).tb (f (s.at t)))) : Does c s P :=
  ⟨_, h, fun hr => by rw [State.reachHeld_run hr]; exact hp hr⟩
theorem Does.of_actTime {c : Instr} {s : State} {P : State → Prop} {reach : List Part} {t : Nat} {f : State → State}
    (h : exec c s = actTime reach t s f)
    (hp : s.held = false → P (s.finish reach (max (s.at t).tb ((f (s.at t)).tb % 2 ^ 64)) (f (s.at t)))) : Does c s P := by
  cases hr : s.held
  · exact ⟨_, h.trans (actTime_run hr ..), fun _ => hp hr⟩
  · exact ⟨_, h.trans ((actTime_held hr ..).trans (act_eq ..)), fun h0 => absurd (h0.symm.trans hr) (by decide)⟩

/-- What a command of a pin or a supply answers, also while the device is held. -/
theorem Answers.of_actHeld {c : Instr} {s : State} {P : State → Prop} {reach : List Part} {t : Nat} {f : State → State}
    (h : exec c s = actHeld reach t s f) (hp : P (s.finish reach (s.at t).tb (f (s.at t)))) : Answers c s P := ⟨_, h, hp⟩
theorem Answers.of_actReset {c : Instr} {s : State} {P : State → Prop} {reach : List Part} {back : Bool} {t : Nat}
    {f : State → State} (h : exec c s = actReset reach back t s f)
    (hp : P (s.settle reach (if back then 0 else (s.at t).tb) (f (s.at t)))) : Answers c s P := ⟨_, h, hp⟩
theorem Answers.does {c : Instr} {s : State} {P : State → Prop} (h : Answers c s P) : Does c s P :=
  let ⟨s', he, hp⟩ := h
  ⟨s', he, fun _ => hp⟩

theorem Does.mono {c : Instr} {s : State} {P Q : State → Prop} (h : Does c s P) (hpq : ∀ s', P s' → Q s') : Does c s Q :=
  let ⟨s', he, hp⟩ := h
  ⟨s', he, fun hr => hpq s' (hp hr)⟩

theorem Does.and {c : Instr} {s : State} {P Q : State → Prop} (h : Does c s P) (h' : Does c s Q) :
    Does c s fun s' => P s' ∧ Q s' := by
  obtain ⟨a, ha, hp⟩ := h
  obtain ⟨b, hb, hq⟩ := h'
  rw [ha] at hb
  cases hb
  exact ⟨a, ha, fun hr => ⟨hp hr, hq hr⟩⟩

end Sys2Proof.Machine
end

