-- ==== Sys2Proof/Laws/Memory.lean ====
section
/-!
SUPPORT. Laws of memory: a byte written is read back, every other byte keeps its value, and every memory operation keeps
the canonical form.
-/

namespace Sys2Proof.Machine

/-- A byte outside the boot ROM, which no write changes, is read back as written. -/
theorem State.byte_setByte_same (s : State) (a : Nat) (b : Byte) (h : 0x20000 ≤ a) : (s.setByte a b).byte a = b := by
  simp [State.byte, State.setByte, Nat.not_lt.mpr h, sget_sset_same]

theorem State.byte_setByte_ne (s : State) (a x : Nat) (b : Byte) (h : x ≠ a) : (s.setByte a b).byte x = s.byte x := by
  simp [State.byte, State.setByte, sget_sset_ne _ _ _ _ _ h]

/-- A list of bytes written leaves every byte outside its range. -/
theorem State.byte_writeBytes_out (bs : List Byte) : ∀ (s : State) (a x : Nat), x < a ∨ a + bs.length ≤ x →
    (s.writeBytes a bs).byte x = s.byte x := by
  induction bs with
  | nil => intros; rfl
  | cons b bs ih =>
    intro s a x h
    rw [State.writeBytes, ih _ _ _ (by simp at h; omega), State.byte_setByte_ne]
    simp at h; omega

/-- A list of bytes written is read back. -/
theorem State.byte_writeBytes_in (bs : List Byte) : ∀ (s : State) (a i : Nat) (_ : 0x20000 ≤ a) (hi : i < bs.length),
    (s.writeBytes a bs).byte (a + i) = bs[i] := by
  induction bs with
  | nil => intro _ _ i _ hi; simp at hi
  | cons b bs ih =>
    intro s a i h hi
    rw [State.writeBytes]
    cases i with
    | zero => rw [State.byte_writeBytes_out _ _ _ _ (by omega)]; exact State.byte_setByte_same s a b h
    | succ i =>
      have := ih (s.setByte a b) (a + 1) i (by omega) (by simpa using hi)
      rw [show a + (i + 1) = a + 1 + i by omega, this]; rfl

theorem State.byte_fillZero_out (s : State) (a n x : Nat) (h : x < a ∨ a + n ≤ x) :
    (s.fillZero a n).byte x = s.byte x := by
  unfold State.byte State.fillZero
  split
  · rfl
  · exact sget_filter_in memDefault (fun k => decide (k < a) || decide (a + n ≤ k)) s.mem x (by simpa using h)

theorem State.byte_fillZero_in (s : State) (a n x : Nat) (h0 : 0x20000 ≤ x) (h : a ≤ x ∧ x < a + n) :
    (s.fillZero a n).byte x = 0 := by
  unfold State.byte State.fillZero
  rw [if_neg (by omega)]
  exact sget_filter_out memDefault (fun k => decide (k < a) || decide (a + n ≤ k)) s.mem x
    (by simp; omega)

/-! ### The canonical form -/

theorem State.wf_setByte {s : State} (a : Nat) (b : Byte) (h : Memory.wf s.mem = true) :
    Memory.wf (s.setByte a b).mem = true := swf_sset memDefault a b h

theorem State.wf_writeBytes (bs : List Byte) : ∀ {s : State} (a : Nat), Memory.wf s.mem = true →
    Memory.wf (s.writeBytes a bs).mem = true := by
  induction bs with
  | nil => intro s a h; exact h
  | cons b bs ih => intro s a h; exact ih _ (State.wf_setByte a b h)

theorem State.wf_writeLe {s : State} (a n v : Nat) (h : Memory.wf s.mem = true) :
    Memory.wf (s.writeLe a n v).mem = true := State.wf_writeBytes _ a h

theorem State.wf_fillZero {s : State} (a n : Nat) (h : Memory.wf s.mem = true) :
    Memory.wf (s.fillZero a n).mem = true := swf_filter memDefault _ h

theorem Memory.wf_reset : Memory.wf State.reset.mem = true := rfl

end Sys2Proof.Machine
end

