-- ==== Sys2Proof/Laws/PerInstr.lean ====
section
/-!
SUPPORT. The family `Units`: a well-formed command names only units the device has; one lemma per constructor.
-/

namespace Sys2Proof.Laws.Units

/-- A well-formed command names only units the device has. -/
def Statement (i : Instr) : Prop := i.wf = true → ∀ u ∈ i.units, u.2 < u.1.count

theorem all (i : Instr) : Statement i := fun h u hu => by simpa using List.all_eq_true.mp h u hu

theorem registerWrite (t : Nat) (who : Nat) (addr : Nat) (size : Nat) (value : Nat) : Statement (.registerWrite t who addr size value) := all _
theorem lowWordReadCapture (t : Nat) (who : Nat) (addr : Nat) (size : Nat) : Statement (.lowWordReadCapture t who addr size) := all _
theorem mldProgram (t : Nat) (slot : Nat) : Statement (.mldProgram t slot) := all _
theorem mldCheck (t : Nat) (slot : Nat) : Statement (.mldCheck t slot) := all _
theorem mldReload (t : Nat) (slot : Nat) (sheet : Nat) : Statement (.mldReload t slot sheet) := all _
theorem mldWithdraw (t : Nat) (slot : Nat) : Statement (.mldWithdraw t slot) := all _
theorem mldStartLoad (t : Nat) (slot : Nat) : Statement (.mldStartLoad t slot) := all _
theorem mldCommandEnd (t : Nat) (readbackOk : Bool) (psOk : Bool) : Statement (.mldCommandEnd t readbackOk psOk) := all _
theorem sheetQuiesce (t : Nat) (n : Nat) : Statement (.sheetQuiesce t n) := all _
theorem sheetRelease (t : Nat) (n : Nat) : Statement (.sheetRelease t n) := all _
theorem sheetQuiesced (t : Nat) (n : Nat) : Statement (.sheetQuiesced t n) := all _
theorem quiesceReadbackTimeout (t : Nat) (n : Nat) : Statement (.quiesceReadbackTimeout t n) := all _
theorem adcFrame (t : Nat) : Statement (.adcFrame t) := all _
theorem mainPathWord (t : Nat) (n : Nat) (codes : List Nat) (residue : Nat) : Statement (.mainPathWord t n codes residue) := all _
theorem calStep (t : Nat) (n : Nat) (off : Int) (gain : Int) (skew : Int) (bw : Int) : Statement (.calStep t n off gain skew bw) := all _
theorem calHandover (t : Nat) (n : Nat) : Statement (.calHandover t n) := all _
theorem calStarvedTimeout (t : Nat) (n : Nat) : Statement (.calStarvedTimeout t n) := all _
theorem calenChange (t : Nat) (n : Nat) (on : Bool) : Statement (.calenChange t n on) := all _
theorem lfsrWrite (t : Nat) (n : Nat) (v : Nat) : Statement (.lfsrWrite t n v) := all _
theorem presentationWrite (t : Nat) (n : Nat) (fmt : Bool) (v : Nat) : Statement (.presentationWrite t n fmt v) := all _
theorem snapshotTrigger (t : Nat) (n : Nat) : Statement (.snapshotTrigger t n) := all _
theorem snapshotDone (t : Nat) (n : Nat) (code : Nat) : Statement (.snapshotDone t n code) := all _
theorem snapDataRead (t : Nat) (who : Nat) (n : Nat) (slot : Nat) : Statement (.snapDataRead t who n slot) := all _
theorem tapValRead (t : Nat) (who : Nat) (tap : Nat) : Statement (.tapValRead t who tap) := all _
theorem testStart (t : Nat) (n : Nat) : Statement (.testStart t n) := all _
theorem testAbort (t : Nat) (n : Nat) : Statement (.testAbort t n) := all _
theorem testSettleEnd (t : Nat) (n : Nat) : Statement (.testSettleEnd t n) := all _
theorem testMeanEnd (t : Nat) (n : Nat) : Statement (.testMeanEnd t n) := all _
theorem watchRequest (t : Nat) (n : Nat) : Statement (.watchRequest t n) := all _
theorem watchEnter (t : Nat) (n : Nat) : Statement (.watchEnter t n) := all _
theorem watchExitRequest (t : Nat) (n : Nat) : Statement (.watchExitRequest t n) := all _
theorem watchExit (t : Nat) (n : Nat) : Statement (.watchExit t n) := all _
theorem syncPinEdge (t : Nat) : Statement (.syncPinEdge t) := all _
theorem syncReset (t : Nat) : Statement (.syncReset t) := all _
theorem phaseReset (t : Nat) : Statement (.phaseReset t) := all _
theorem syncOutputEdge (t : Nat) : Statement (.syncOutputEdge t) := all _
theorem fastWindowEnable (t : Nat) (i : Nat) (on : Bool) : Statement (.fastWindowEnable t i on) := all _
theorem tickArrival (t : Nat) (n : Nat) (stamp : Nat) : Statement (.tickArrival t n stamp) := all _
theorem runStart (t : Nat) (n : Nat) (torn : List Nat) (errs : List RowErr) : Statement (.runStart t n torn errs) := all _
theorem overrunLimit (t : Nat) (n : Nat) : Statement (.overrunLimit t n) := all _
theorem runEnd (t : Nat) (n : Nat) (ce : Nat) : Statement (.runEnd t n ce) := all _
theorem nop (t : Nat) (n : Nat) : Statement (.nop t n) := all _
theorem load (t : Nat) (n : Nat) : Statement (.load t n) := all _
theorem clarke (t : Nat) (n : Nat) : Statement (.clarke t n) := all _
theorem iclarke (t : Nat) (n : Nat) : Statement (.iclarke t n) := all _
theorem park (t : Nat) (n : Nat) : Statement (.park t n) := all _
theorem ipark (t : Nat) (n : Nat) : Statement (.ipark t n) := all _
theorem angle (t : Nat) (n : Nat) : Statement (.angle t n) := all _
theorem pi (t : Nat) (n : Nat) : Statement (.pi t n) := all _
theorem res (t : Nat) (n : Nat) : Statement (.res t n) := all _
theorem matvec (t : Nat) (n : Nat) : Statement (.matvec t n) := all _
theorem obs (t : Nat) (n : Nat) : Statement (.obs t n) := all _
theorem swing (t : Nat) (n : Nat) : Statement (.swing t n) := all _
theorem droop (t : Nat) (n : Nat) : Statement (.droop t n) := all _
theorem vimp (t : Nat) (n : Nat) : Statement (.vimp t n) := all _
theorem ilim (t : Nat) (n : Nat) : Statement (.ilim t n) := all _
theorem frt (t : Nat) (n : Nat) : Statement (.frt t n) := all _
theorem ramp (t : Nat) (n : Nat) : Statement (.ramp t n) := all _
theorem lpf (t : Nat) (n : Nat) : Statement (.lpf t n) := all _
theorem limit (t : Nat) (n : Nat) : Statement (.limit t n) := all _
theorem lut (t : Nat) (n : Nat) : Statement (.lut t n) := all _
theorem power (t : Nat) (n : Nat) : Statement (.power t n) := all _
theorem rms (t : Nat) (n : Nat) : Statement (.rms t n) := all _
theorem svm3l (t : Nat) (n : Nat) : Statement (.svm3l t n) := all _
theorem select (t : Nat) (n : Nat) : Statement (.select t n) := all _
theorem compare (t : Nat) (n : Nat) : Statement (.compare t n) := all _
theorem guard (t : Nat) (n : Nat) : Statement (.guard t n) := all _
theorem sum (t : Nat) (n : Nat) : Statement (.sum t n) := all _
theorem mul (t : Nat) (n : Nat) : Statement (.mul t n) := all _
theorem emit (t : Nat) (n : Nat) : Statement (.emit t n) := all _
theorem mailboxWrite (t : Nat) (n : Nat) : Statement (.mailboxWrite t n) := all _
theorem mailboxRead (t : Nat) (n : Nat) : Statement (.mailboxRead t n) := all _
theorem event (t : Nat) (n : Nat) : Statement (.event t n) := all _
theorem trace (t : Nat) (n : Nat) : Statement (.trace t n) := all _
theorem engineEccFault (t : Nat) (n : Nat) : Statement (.engineEccFault t n) := all _
theorem recipeCheckDone (t : Nat) (n : Nat) : Statement (.recipeCheckDone t n) := all _
theorem coefSwapRequest (t : Nat) (n : Nat) : Statement (.coefSwapRequest t n) := all _
theorem recipeSwapRequest (t : Nat) (n : Nat) : Statement (.recipeSwapRequest t n) := all _
theorem stageWrite (t : Nat) (n : Nat) (word : Nat) : Statement (.stageWrite t n word) := all _
theorem clrCycmax (t : Nat) (n : Nat) : Statement (.clrCycmax t n) := all _
theorem trcTrig (t : Nat) (n : Nat) : Statement (.trcTrig t n) := all _
theorem traceArm (t : Nat) (n : Nat) : Statement (.traceArm t n) := all _
theorem moveRequest (t : Nat) (src : Nat) : Statement (.moveRequest t src) := all _
theorem moveCopyEnd (t : Nat) (eccBad : Bool) : Statement (.moveCopyEnd t eccBad) := all _
theorem moveDone (t : Nat) : Statement (.moveDone t) := all _
theorem periodStart (t : Nat) (g : Nat) : Statement (.periodStart t g) := all _
theorem compareFire (t : Nat) (g : Nat) (n : Nat) : Statement (.compareFire t g n) := all _
theorem groupEnable (t : Nat) (g : Nat) : Statement (.groupEnable t g) := all _
theorem loadallRequest (t : Nat) (g : Nat) : Statement (.loadallRequest t g) := all _
theorem gload (t : Nat) (mask : Nat) : Statement (.gload t mask) := all _
theorem shadowWrite (t : Nat) (duty : Bool) (i : Nat) (v : Nat) : Statement (.shadowWrite t duty i v) := all _
theorem groupLoad (t : Nat) (g : Nat) : Statement (.groupLoad t g) := all _
theorem fltPinAsserted (t : Nat) (k : Nat) (level : Bool) (since : Nat) : Statement (.fltPinAsserted t k level since) := all _
theorem fmxClear (t : Nat) (g : Nat) : Statement (.fmxClear t g) := all _
theorem edgeSend (t : Nat) (ch : Nat) : Statement (.edgeSend t ch) := all _
theorem executedLevelChange (t : Nat) (ch : Nat) : Statement (.executedLevelChange t ch) := all _
theorem timeFrameSend (t : Nat) (l : Nat) : Statement (.timeFrameSend t l) := all _
theorem statusFrameReceive (t : Nat) (l : Nat) (bytes : List Byte) : Statement (.statusFrameReceive t l bytes) := all _
theorem statusTimeout (t : Nat) (l : Nat) (lockLost : Bool) : Statement (.statusTimeout t l lockLost) := all _
theorem qfullHoldEnd (t : Nat) (l : Nat) : Statement (.qfullHoldEnd t l) := all _
theorem desatClear (t : Nat) (l : Nat) (mask : Nat) : Statement (.desatClear t l mask) := all _
theorem diagStart (t : Nat) (l : Nat) (mask : Nat) (dur : Nat) : Statement (.diagStart t l mask dur) := all _
theorem diagTimeout (t : Nat) (l : Nat) : Statement (.diagTimeout t l) := all _
theorem trainStart (t : Nat) (l : Nat) : Statement (.trainStart t l) := all _
theorem trainEnd (t : Nat) (l : Nat) : Statement (.trainEnd t l) := all _
theorem configSend (t : Nat) (l : Nat) (addr : Nat) (data : Nat) : Statement (.configSend t l addr data) := all _
theorem configTimeout (t : Nat) (l : Nat) : Statement (.configTimeout t l) := all _
theorem laneDisable (t : Nat) (l : Nat) : Statement (.laneDisable t l) := all _
theorem portLinkChange (t : Nat) (p : Nat) (up : Bool) (an : Bool) : Statement (.portLinkChange t p up an) := all _
theorem forwardStart (t : Nat) (p : Nat) (bytes : List Byte) (rx : Nat) : Statement (.forwardStart t p bytes rx) := all _
theorem frameReceive (t : Nat) (p : Nat) (bytes : List Byte) (fcsOk : Bool) (sfd : Nat) : Statement (.frameReceive t p bytes fcsOk sfd) := all _
theorem ddEntryExpiry (t : Nat) : Statement (.ddEntryExpiry t) := all _
theorem txKick (t : Nat) (h : Nat) : Statement (.txKick t h) := all _
theorem hostTxDescriptor (t : Nat) (h : Nat) (errs : List RowErr) : Statement (.hostTxDescriptor t h errs) := all _
theorem egressTransmit (t : Nat) (p : Nat) : Statement (.egressTransmit t p) := all _
theorem transmitSlotFrame (t : Nat) (n : Nat) (ecc : Nat) : Statement (.transmitSlotFrame t n ecc) := all _
theorem supervisionFrame (t : Nat) : Statement (.supervisionFrame t) := all _
theorem beaconSend (t : Nat) : Statement (.beaconSend t) := all _
theorem commonsAging (t : Nat) : Statement (.commonsAging t) := all _
theorem read (t : Nat) (i : Nat) : Statement (.read t i) := all _
theorem pin (t : Nat) (i : Nat) : Statement (.pin t i) := all _
theorem unpin (t : Nat) (i : Nat) : Statement (.unpin t i) := all _
theorem delete (t : Nat) (i : Nat) : Statement (.delete t i) := all _
theorem preset (t : Nat) : Statement (.preset t) := all _
theorem syncMessage (t : Nat) (p : Nat) (m : PtpSync) : Statement (.syncMessage t p m) := all _
theorem followUp (t : Nat) (p : Nat) (m : PtpSync) : Statement (.followUp t p m) := all _
theorem announce (t : Nat) (p : Nat) (m : PtpAnnounce) : Statement (.announce t p m) := all _
theorem pdelayReqSend (t : Nat) (p : Nat) : Statement (.pdelayReqSend t p) := all _
theorem pdelayReq (t : Nat) (p : Nat) (ident : Nat) (seq : Nat) (dom : Nat) (cf : Int) (rx : Int) : Statement (.pdelayReq t p ident seq dom cf rx) := all _
theorem pdelayResp (t : Nat) (p : Nat) (fu : Bool) (seq : Nat) (two : Bool) (stamp : Int) (cf : Int) (rx : Int) : Statement (.pdelayResp t p fu seq two stamp cf rx) := all _
theorem pdelayTimeout (t : Nat) (p : Nat) : Statement (.pdelayTimeout t p) := all _
theorem announceTimeout (t : Nat) (d : Nat) : Statement (.announceTimeout t d) := all _
theorem syncTimeout (t : Nat) (d : Nat) : Statement (.syncTimeout t d) := all _
theorem servoHold (t : Nat) (on : Bool) : Statement (.servoHold t on) := all _
theorem domainReturn (t : Nat) : Statement (.domainReturn t) := all _
theorem ttFire (t : Nat) (k : Nat) : Statement (.ttFire t k) := all _
theorem ttEnable (t : Nat) (k : Nat) : Statement (.ttEnable t k) := all _
theorem journalRunRecord (t : Nat) (ok : Bool) (lseq : Nat) (whole : Bool) (u : Nat) (num : Nat) (stamp : Nat) (merged : Nat) (fix : Fixed) : Statement (.journalRunRecord t ok lseq whole u num stamp merged fix) := all _
theorem journalWriteRecord (t : Nat) (ok : Bool) (lseq : Nat) (addr : Nat) (value : Nat) (issue : Nat) : Statement (.journalWriteRecord t ok lseq addr value issue) := all _
theorem journalFilterRecord (t : Nat) (ok : Bool) (lseq : Nat) (f : Nat) (slot : Nat) (stamp : Nat) (vals : List Nat) (arrive : Nat) : Statement (.journalFilterRecord t ok lseq f slot stamp vals arrive) := all _
theorem journalApply (t : Nat) : Statement (.journalApply t) := all _
theorem checkpoint (t : Nat) (ok : Bool) (lseq : Nat) (n : Nat) (num : Nat) (idx : Nat) (crc : Nat) : Statement (.checkpoint t ok lseq n num idx crc) := all _
theorem checkpointTimeout (t : Nat) (n : Nat) : Statement (.checkpointTimeout t n) := all _
theorem verdict (t : Nat) (ok : Bool) (lseq : Nat) (n : Nat) (loserIsB : Bool) : Statement (.verdict t ok lseq n loserIsB) := all _
theorem verdictTimeout (t : Nat) : Statement (.verdictTimeout t) := all _
theorem health (t : Nat) (ok : Bool) (lseq : Nat) (h : Health) (rx : Nat) : Statement (.health t ok lseq h rx) := all _
theorem healthSend (t : Nat) : Statement (.healthSend t) := all _
theorem stateFrame (t : Nat) (ok : Bool) (lseq : Nat) (whole : Bool) (item : JoinItem) : Statement (.stateFrame t ok lseq whole item) := all _
theorem nak (t : Nat) (ok : Bool) (lseq : Nat) (missing : Nat) : Statement (.nak t ok lseq missing) := all _
theorem twinLaneDown (t : Nat) (l : Nat) : Statement (.twinLaneDown t l) := all _
theorem linkLost (t : Nat) : Statement (.linkLost t) := all _
theorem handover (t : Nat) : Statement (.handover t) := all _
theorem join (t : Nat) : Statement (.join t) := all _
theorem leave (t : Nat) : Statement (.leave t) := all _
theorem autojoinStart (t : Nat) : Statement (.autojoinStart t) := all _
theorem joinWaitExpiry (t : Nat) : Statement (.joinWaitExpiry t) := all _
theorem joinTimeout (t : Nat) : Statement (.joinTimeout t) := all _
theorem handoverInstant (t : Nat) : Statement (.handoverInstant t) := all _
theorem handoverEnd (t : Nat) : Statement (.handoverEnd t) := all _
theorem revertHoldoffExpiry (t : Nat) : Statement (.revertHoldoffExpiry t) := all _
theorem tbLimitExpiry (t : Nat) : Statement (.tbLimitExpiry t) := all _
theorem steerReturn (t : Nat) : Statement (.steerReturn t) := all _
theorem timeHandover (t : Nat) : Statement (.timeHandover t) := all _
theorem sinSample (t : Nat) (raw : Nat) : Statement (.sinSample t raw) := all _
theorem inputTestPulse (t : Nat) (b : Bool) : Statement (.inputTestPulse t b) := all _
theorem evaluationStep (t : Nat) (srst : Bool) : Statement (.evaluationStep t srst) := all _
theorem discrepancyTimeout (t : Nat) (x : Nat) : Statement (.discrepancyTimeout t x) := all _
theorem safeOutputOff (t : Nat) (k : Nat) : Statement (.safeOutputOff t k) := all _
theorem readbackSample (t : Nat) (sob : Nat) : Statement (.readbackSample t sob) := all _
theorem outputTestPulse (t : Nat) (k : Nat) : Statement (.outputTestPulse t k) := all _
theorem resetAccept (t : Nat) : Statement (.resetAccept t) := all _
theorem srstStuck (t : Nat) : Statement (.srstStuck t) := all _
theorem sealSample (t : Nat) (v : Nat) : Statement (.sealSample t v) := all _
theorem internalFault (t : Nat) (b : Nat) : Statement (.internalFault t b) := all _
theorem islandStartEnd (t : Nat) (image : Bool) (ver : Nat) (srst : Bool) : Statement (.islandStartEnd t image ver srst) := all _
theorem check (t : Nat) : Statement (.check t) := all _
theorem store (t : Nat) : Statement (.store t) := all _
theorem psOperationEnd (t : Nat) (writeOk : Bool) : Statement (.psOperationEnd t writeOk) := all _
theorem safetyStopRequest (t : Nat) (mask : Nat) : Statement (.safetyStopRequest t mask) := all _
theorem nativeSafetyFrame (t : Nat) : Statement (.nativeSafetyFrame t) := all _
theorem nay2400SafetyFrame (t : Nat) : Statement (.nay2400SafetyFrame t) := all _
theorem safetyCopyTimeout (t : Nat) (c : Nat) : Statement (.safetyCopyTimeout t c) := all _
theorem connectionWatchdogExpiry (t : Nat) (c : Nat) : Statement (.connectionWatchdogExpiry t c) := all _
theorem safetyFrameSend (t : Nat) (c : Nat) : Statement (.safetyFrameSend t c) := all _
theorem bankAccess (t : Nat) (a : Access) (ecc : Nat) (rest : List Access) : Statement (.bankAccess t a ecc rest) := all _
theorem release (t : Nat) (b : Nat) (who : Nat) : Statement (.release t b who) := all _
theorem releaseDone (t : Nat) : Statement (.releaseDone t) := all _
theorem claim (t : Nat) (b : Nat) (who : Nat) : Statement (.claim t b who) := all _
theorem grant (t : Nat) (b : Nat) (who : Nat) : Statement (.grant t b who) := all _
theorem revoke (t : Nat) (b : Nat) (who : Nat) : Statement (.revoke t b who) := all _
theorem repair (t : Nat) (b : Nat) (seg : Nat) : Statement (.repair t b seg) := all _
theorem sweeperStep (t : Nat) (errs : List RowErr) (fail : Bool) : Statement (.sweeperStep t errs fail) := all _
theorem start (t : Nat) (c : Nat) (ue : Option Nat) (ce : Option Nat) : Statement (.start t c ue ce) := all _
theorem resume (t : Nat) (c : Nat) (ue : Option Nat) (ce : Option Nat) : Statement (.resume t c ue ce) := all _
theorem stop (t : Nat) (c : Nat) : Statement (.stop t c) := all _
theorem gleanBurst (t : Nat) (ue : Option Nat) (ce : Option Nat) (lost : Option Nat) : Statement (.gleanBurst t ue ce lost) := all _
theorem referenceAbsent (t : Nat) (r : Nat) : Statement (.referenceAbsent t r) := all _
theorem referencePresent (t : Nat) (r : Nat) : Statement (.referencePresent t r) := all _
theorem lossOfLock (t : Nat) (c : Nat) (phase : Int) : Statement (.lossOfLock t c phase) := all _
theorem dllChangeover (t : Nat) : Statement (.dllChangeover t) := all _
theorem dllRealigned (t : Nat) : Statement (.dllRealigned t) := all _
theorem pllLocked (t : Nat) (ok : Bool) (band : Nat) (flimit : Bool) (phase : Int) : Statement (.pllLocked t ok band flimit phase) := all _
theorem pllChangeover (t : Nat) : Statement (.pllChangeover t) := all _
theorem smpRestart (t : Nat) : Statement (.smpRestart t) := all _
theorem outputConfigWrite (t : Nat) (n : Nat) (v : Nat) : Statement (.outputConfigWrite t n v) := all _
theorem mpgRise (t : Nat) (crcOk : Bool) (offsec : Nat) (rails : Nat) (xtal : Bool) : Statement (.mpgRise t crcOk offsec rails xtal) := all _
theorem mpgFall (t : Nat) (rails : Nat) : Statement (.mpgFall t rails) := all _
theorem porstNAssert (t : Nat) : Statement (.porstNAssert t) := all _
theorem porstNRelease (t : Nat) (held : Nat) (testMode : Bool) : Statement (.porstNRelease t held testMode) := all _
theorem wrstNAssert (t : Nat) : Statement (.wrstNAssert t) := all _
theorem wrstNRelease (t : Nat) : Statement (.wrstNRelease t) := all _
theorem powerFailWarning (t : Nat) (ok : Bool) : Statement (.powerFailWarning t ok) := all _
theorem powerFailClear (t : Nat) (ok : Bool) : Statement (.powerFailClear t ok) := all _
theorem opsecSecond (t : Nat) (ok : Bool) : Statement (.opsecSecond t ok) := all _
theorem vkaLow (t : Nat) : Statement (.vkaLow t) := all _
theorem coldStart (t : Nat) (straps : Nat) : Statement (.coldStart t straps) := all _
theorem warmStart (t : Nat) : Statement (.warmStart t) := all _
theorem readyPoint (t : Nat) (ok : Bool) : Statement (.readyPoint t ok) := all _
theorem startTimeout (t : Nat) : Statement (.startTimeout t) := all _
theorem warm (t : Nat) (key : Nat) : Statement (.warm t key) := all _
theorem cold (t : Nat) (key : Nat) : Statement (.cold t key) := all _
theorem bootOk (t : Nat) : Statement (.bootOk t) := all _
theorem goldenClr (t : Nat) (key : Nat) : Statement (.goldenClr t key) := all _
theorem kick (t : Nat) : Statement (.kick t) := all _
theorem confirmExpiry (t : Nat) : Statement (.confirmExpiry t) := all _
theorem watchdogExpiry (t : Nat) : Statement (.watchdogExpiry t) := all _
theorem ledgerPost (t : Nat) (ring : Nat) (typ : Nat) (sev : Nat) (block : Nat) (unit : Nat) (payload : List Byte) : Statement (.ledgerPost t ring typ sev block unit payload) := all _
theorem go (t : Nat) : Statement (.go t) := all _
theorem recordProgramDone (t : Nat) (ok : Bool) : Statement (.recordProgramDone t ok) := all _
theorem cursorLoad (t : Nat) (p : Nat) : Statement (.cursorLoad t p) := all _
theorem next (t : Nat) (p : Nat) : Statement (.next t p) := all _
theorem newest (t : Nat) (p : Nat) : Statement (.newest t p) := all _
theorem oldest (t : Nat) (p : Nat) : Statement (.oldest t p) := all _
theorem clrOvr (t : Nat) (p : Nat) : Statement (.clrOvr t p) := all _
theorem cursorCopyDone (t : Nat) (p : Nat) : Statement (.cursorCopyDone t p) := all _
theorem rings (t : Nat) (mask : Nat) : Statement (.rings t mask) := all _
theorem erase (t : Nat) : Statement (.erase t) := all _
theorem eraseDone (t : Nat) (ok : Bool) : Statement (.eraseDone t ok) := all _
theorem engineTestPiece (t : Nat) (n : Nat) (same : Bool) : Statement (.engineTestPiece t n same) := all _
theorem engineTestStarved (t : Nat) (n : Nat) : Statement (.engineTestStarved t n) := all _
theorem temperatureSample (t : Nat) (temp : Int) : Statement (.temperatureSample t temp) := all _
theorem thermalExpiry (t : Nat) : Statement (.thermalExpiry t) := all _
theorem twinLinkReasonExpiry (t : Nat) : Statement (.twinLinkReasonExpiry t) := all _
theorem req (t : Nat) : Statement (.req t) := all _
theorem program (t : Nat) (slot : Nat) : Statement (.program t slot) := all _
theorem fwCheck (t : Nat) (slot : Nat) : Statement (.fwCheck t slot) := all _
theorem programIsland (t : Nat) (slot : Nat) : Statement (.programIsland t slot) := all _
theorem fwCommandEnd (t : Nat) (same : Bool) (isle : Nat) : Statement (.fwCommandEnd t same isle) := all _
theorem trackerPair (t : Nat) (p : Nat) : Statement (.trackerPair t p) := all _
theorem trackerTimeout (t : Nat) (p : Nat) : Statement (.trackerTimeout t p) := all _
theorem ampFilterExpiry (t : Nat) (p : Nat) : Statement (.ampFilterExpiry t p) := all _
theorem quadratureStep (t : Nat) : Statement (.quadratureStep t) := all _
theorem gpioEdge (t : Nat) (n : Nat) (level : Bool) : Statement (.gpioEdge t n level) := all _
theorem uartTxWrite (t : Nat) (b : Nat) : Statement (.uartTxWrite t b) := all _
theorem uartByteSent (t : Nat) : Statement (.uartByteSent t) := all _
theorem uartReceive (t : Nat) (b : Nat) (stopOk : Bool) : Statement (.uartReceive t b stopOk) := all _
theorem uartRxRead (t : Nat) : Statement (.uartRxRead t) := all _
theorem irqClaim (t : Nat) (k : Nat) : Statement (.irqClaim t k) := all _
theorem irqComplete (t : Nat) (k : Nat) (num : Nat) : Statement (.irqComplete t k num) := all _
theorem twinLaneUp (t : Nat) (l : Nat) : Statement (.twinLaneUp t l) := all _
theorem sdclkPresenceChange (t : Nat) (on : Bool) : Statement (.sdclkPresenceChange t on) := all _
theorem vkaRecovery (t : Nat) : Statement (.vkaRecovery t) := all _
theorem vddWReturn (t : Nat) : Statement (.vddWReturn t) := all _
theorem tpOvercurrent (t : Nat) (b : Bool) (on : Bool) : Statement (.tpOvercurrent t b on) := all _
theorem outputTestPulseEnd (t : Nat) (k : Nat) : Statement (.outputTestPulseEnd t k) := all _
theorem startStepEnd (t : Nat) (step : Nat) (ok : Bool) (found : StepFound) : Statement (.startStepEnd t step ok found) := all _
theorem joinTimeExpiry (t : Nat) : Statement (.joinTimeExpiry t) := all _
theorem cmnCommandEnd (t : Nat) : Statement (.cmnCommandEnd t) := all _
theorem jtagInstruction (t : Nat) (ir : Nat) (trst : Bool) : Statement (.jtagInstruction t ir trst) := all _

end Sys2Proof.Laws.Units
end

