-- ==== Sys2Proof/Tests/Slice0.lean ====
section
/-!
SUPPORT. Tests of the model and witnesses for its statements. `test_…`: an ill-formed command of each kind is refused, and the check sums and the hash give the
values their standards publish. `witness_…`: for each statement of Certificates/Slice0/Obligations.lean, concrete states
and operands that meet its hypotheses, one conjunct for each clause.
-/

set_option maxRecDepth 20000
set_option Elab.async false

namespace Sys2Proof.Tests

open Sys2Proof Sys2Proof.Machine

/-! ### Well-formedness -/

/-- For each kind of unit, a command that names one past the last. -/
theorem test_ill_formed_is_refused : (
   [.mainPathWord 0 4 [] 0, .fastWindowEnable 0 32 false, .tapValRead 0 0 256, .tickArrival 0 8 0, .trackerPair
    0 4, .periodStart 0 8, .compareFire 0 0 4, .edgeSend 0 48, .fltPinAsserted 0 16 false 0, .timeFrameSend 0
    12, .portLinkChange 0 5 false false, .forwardStart 0 4 [] 0, .txKick 0 2, .transmitSlotFrame 0 16 0,
    .announceTimeout 0 2, .ttFire 0 16, .twinLaneDown 0 2, .safeOutputOff 0 4, .discrepancyTimeout 0 4,
    .safetyCopyTimeout 0 8, .start 0 32 none none, .referenceAbsent 0 2, .outputConfigWrite 0 5 0, .cursorLoad 0 4,
    .mldProgram 0 4, .sheetQuiesce 0 12, .program 0 2, .gpioEdge 0 24 false, .irqClaim 0 4, .registerWrite 0 48
    0 0 0, .snapDataRead 0 0 0 4, .internalFault 0 6, .lossOfLock 0 3 0, .jtagInstruction 0 7 false, .mldReload
    0 0 16, .startStepEnd 0 11 false default, .ledgerPost 0 4 0 0 0 0 []] : List Instr).all (fun c => !c.wf) = true := by decide +kernel

/-- The same commands naming the last unit of the kind. -/
theorem test_last_unit_is_well_formed : (
   [.mainPathWord 0 3 [] 0, .fastWindowEnable 0 31 false, .tapValRead 0 0 255, .tickArrival 0 7 0, .trackerPair
    0 3, .periodStart 0 7, .compareFire 0 0 3, .edgeSend 0 47, .fltPinAsserted 0 15 false 0, .timeFrameSend 0
    11, .portLinkChange 0 4 false false, .forwardStart 0 3 [] 0, .txKick 0 1, .transmitSlotFrame 0 15 0,
    .announceTimeout 0 1, .ttFire 0 15, .twinLaneDown 0 1, .safeOutputOff 0 3, .discrepancyTimeout 0 3,
    .safetyCopyTimeout 0 7, .start 0 31 none none, .referenceAbsent 0 1, .outputConfigWrite 0 4 0, .cursorLoad 0 3,
    .mldProgram 0 3, .sheetQuiesce 0 11, .program 0 1, .gpioEdge 0 23 false, .irqClaim 0 3, .registerWrite 0 47
    0 0 0, .snapDataRead 0 0 0 3, .internalFault 0 5, .lossOfLock 0 2 0, .jtagInstruction 0 6 false, .mldReload
    0 0 15, .startStepEnd 0 10 false default, .ledgerPost 0 3 0 0 0 0 []] : List Instr).all (fun c => c.wf) = true := by decide +kernel

theorem test_ill_formed_faults : exec (.mldCheck 0 4) State.reset = .fault .noSuchUnit := rfl

/-! ### Single commands -/

/-- The state a command leaves, if it answers one. -/
def after (c : Instr) (s : State) : Option State :=
  match exec c s with
  | .next s' => some s'
  | _ => none

/-- An RW field takes the write, and the reserved bits above its 21 read 0 (R7, R8). -/
theorem test_register_write : (after (.registerWrite 5 0 R.MLD_STAGE_LEN.addr 4 0xFE000080) State.reset).map
    (·.word R.MLD_STAGE_LEN.addr) = some 0x80 := by decide +kernel

/-- A write of 1 in a later cycle clears a W1C bit (R7, R10). -/
theorem test_w1c : (after (.registerWrite 5000 0 R.MLD_INT_STAT_QCHG.addr 4 (2 ^ R.MLD_INT_STAT_QCHG.lsb))
    (State.reset.set1 R.MLD_INT_STAT_QCHG)).map (·.get R.MLD_INT_STAT_QCHG) = some 0 := by decide +kernel

/-- An event in the cycle of the write keeps its bit (R10). -/
theorem test_w1c_same_cycle : (after (.registerWrite 5 0 R.MLD_INT_STAT_QCHG.addr 4 (2 ^ R.MLD_INT_STAT_QCHG.lsb))
    (State.reset.set1 R.MLD_INT_STAT_QCHG)).map (·.get R.MLD_INT_STAT_QCHG) = some 1 := by decide +kernel

/-- RO fields ignore writes (R7). -/
theorem test_ro_write : (after (.registerWrite 5 0 R.CLK_STAT_MODE.addr 4 3) State.reset).map
    (·.get R.CLK_STAT_MODE) = some (State.reset.get R.CLK_STAT_MODE) := by decide +kernel

/-- TB follows the instant of a command and does not run backward (R3). -/
theorem test_tb : (after (.syncPinEdge 5) { State.reset with tb := 9 }).map (·.tb) = some 9 := by decide +kernel

/-- No row of the table gives bits, so no word spells a command. -/
theorem test_no_word_spells_a_command : decodeTableWord 32 5 = none := rfl

/-! ### Check sums and hash: the check values their standards publish -/

/-- "123456789", the input of the published check values. -/
def digits : List Byte := [0x31, 0x32, 0x33, 0x34, 0x35, 0x36, 0x37, 0x38, 0x39]

/-- CRC-32 (IEEE 802.3). -/
theorem test_crc32 : crc32 digits = 0xCBF43926 := by decide +kernel

/-- CRC-32C (Castagnoli). -/
theorem test_crc32c : crc32c digits = 0xE3069283 := by decide +kernel

/-- CRC-8 of the gate lanes, polynomial 0x2F with initial value and final XOR 0xFF. -/
theorem test_crc8 : crc8 digits = 0xDF := by decide +kernel

/-- FIPS 180-4, the message "abc". -/
theorem test_sha256 : sha256 [0x61, 0x62, 0x63] =
    0xBA7816BF8F01CFEA414140DE5DAE2223B00361A396177A9CB410FF61F20015AD := by decide +kernel

end Sys2Proof.Tests

namespace Sys2Proof.Tests.Queue

open Sys2Proof Sys2Proof.Machine

/-! ### Queue: small states, and the hypotheses they meet -/

theorem next_reset : exec (.autojoinStart 0) State.reset = .next State.reset := by
  have h : (match exec (.autojoinStart 0) State.reset with
    | .next s => decide (s = State.reset)
    | _ => false) = true := by decide +kernel
  revert h
  cases exec (.autojoinStart 0) State.reset <;> simp

theorem witness_StepRunsTheFrontCommand :
    ∃ c : Instr, ∃ s : State, ∃ rest : List Instr, (s.pending = c :: rest) :=
  ⟨(.mldCheck 5 1), ({ State.reset with pending := [.mldCheck 5 1] }), ([]), by decide +kernel⟩

theorem witness_StepIdlesOnAnEmptyQueue :
    ∃ s : State, (s.pending = []) :=
  ⟨State.reset, by decide +kernel⟩

theorem witness_EveryCommandKeepsToItsReach :
    ∃ c : Instr, (c.wf = true) :=
  ⟨(.registerWrite 5 0 0x40000000 4 7), by decide +kernel⟩

theorem witness_IllFormedCommandsFault :
    ∃ c : Instr, (c.wf = false) :=
  ⟨(.mldCheck 5 4), by decide +kernel⟩

theorem witness_EveryStepKeepsTheDeviceRunning :
    ∃ s : State, (s.Ok) :=
  ⟨({ State.reset with pending := [.mldCheck 5 1], tb := 2 ^ 64 - 1 }),
    ⟨by decide, by decide, by decide +kernel, by constructor <;> decide +kernel⟩⟩

theorem witness_EveryCommandKeepsTheMemoryForm :
    ∃ c : Instr, ∃ s : State, ∃ s' : State, (Memory.wf s.mem = true) ∧ (exec c s = .next s') :=
  ⟨(.autojoinStart 0), State.reset, State.reset, ⟨by decide +kernel, next_reset⟩⟩

end Sys2Proof.Tests.Queue

namespace Sys2Proof.Tests.Registers

open Sys2Proof Sys2Proof.Machine

/-! ### Registers: small states, and the hypotheses they meet -/

def sq : State := (State.reset.put R.MLD_QUIESCE 0).put R.MLD_QSTAT_QUIESCED 0

def so : State :=
  { sq.set1 (R.MLD_SH_SRC_LOADED 3) with mld := { sq.mld with own := [{kind := .tracker, idx := 2, sheet := 3}] } }

theorem witness_AccessesThatDoNotFitAreRefused :
    (∃ who : Nat, ∃ addr : Nat, ∃ size : Nat,
      let fits := size = 4 ∧ addr % 4 = 0 ∨ size = 8 ∧ addr % 8 = 0 ∧ who < 4 ∧
          ((findReg addr).map fun h => (h.desc.words, h.word)) = some (2, 0);
      (who < 48) ∧ (isReg addr = true) ∧ (¬ fits)) ∧
    (∃ who : Nat, ∃ addr : Nat, ∃ size : Nat,
      let fits := size = 4 ∧ addr % 4 = 0 ∨ size = 8 ∧ addr % 8 = 0 ∧ who < 4 ∧
          ((findReg addr).map fun h => (h.desc.words, h.word)) = some (2, 0);
      (who < 48) ∧ (isReg addr = true) ∧ (fits)) ∧
    (∃ who : Nat, ∃ addr : Nat, ∃ size : Nat, ∃ w : Nat, (who < 48) ∧ (isReg addr = true) ∧ (w < 10) ∧
      (addr = (R.LDG_POST_DATA w).addr) ∧ (size = 4)) :=
  ⟨⟨5, 0x40140422, 4, by decide +kernel⟩,
  ⟨2, R.PWM_TB.addr, 8, by decide +kernel⟩,
  ⟨5, ((R.LDG_POST_DATA 7).addr), 4, 7, by decide +kernel⟩⟩

theorem witness_FieldsTakeWritesByTheirAccessCode :
    (∃ who : Nat, ∃ s : State, ∃ w : Nat, (who < 48) ∧ (s.is R.TWN_CTL_EN = false) ∧ (w < 10)) ∧
    (∃ who : Nat, ∃ v : Nat, ∃ s : State, (who < 48) ∧ (s.is R.TWN_CTL_EN = false) ∧ (v % 32 = 0)) ∧
    (∃ who : Nat, ∃ s : State, (who < 48) ∧ (s.is R.TWN_CTL_EN = false) ∧ (s.word R.PWR_CMD_WARM.addr = 0) ∧
      ((∀ h ∈ s.holding, ¬ (h.who = who ∧ h.addr = R.PWR_CMD_WARM.addr)))) ∧
    (∃ who : Nat, ∃ s : State, ∃ w : Nat, (who < 48) ∧ (s.is R.TWN_CTL_EN = false) ∧ (w < 256) ∧ (s.sealOn = false)) ∧
    (∃ who : Nat, ∃ s : State, ∃ w : Nat, (who < 48) ∧ (s.is R.TWN_CTL_EN = false) ∧ (w < 256) ∧ (s.sealOn = true)) ∧
    (∃ who : Nat, ∃ s : State, ∃ p : Nat, (who < 48) ∧ (s.is R.TWN_CTL_EN = false) ∧ (p < 4) ∧ ((∀ n,
      s.ownerOf .tracker p = some n → s.sheetQuiesced n = true))) ∧
    (∃ who : Nat, ∃ s : State, ∃ p : Nat, ∃ n : Nat, (who < 48) ∧ (s.is R.TWN_CTL_EN = false) ∧ (p < 4) ∧
      (s.ownerOf .tracker p = some n) ∧ (s.sheetQuiesced n = false)) ∧
    (∃ who : Nat, ∃ s : State, (who < 48) ∧ (s.is R.TWN_CTL_EN = false) ∧ (s.word 0x40000A00 = 0) ∧ ((∀ h ∈ s.holding,
      ¬ (h.who = who ∧ h.addr = 0x40000A00)))) :=
  ⟨⟨5, State.reset, 0, by decide +kernel⟩,
  ⟨5, 64, State.reset, by decide +kernel⟩,
  ⟨5, State.reset, by decide +kernel⟩,
  ⟨5, State.reset, 0, by decide +kernel⟩,
  ⟨5, (State.reset.put R.WCH_STAT_STATE 3), 0, by decide +kernel⟩,
  ⟨5, State.reset, 0, by decide +kernel⟩,
  ⟨5, (so.put R.LDG_INT_STAT 31), 2, 3, by decide +kernel⟩,
  ⟨5, State.reset, by decide +kernel⟩⟩

theorem witness_TheTimebaseReadsInOnePiece :
    (∃ who : Nat, ∃ s : State, (who < 48) ∧ ((∀ h ∈ s.holding, ¬ (h.who = who ∧ h.addr = R.PWM_TB.addr)))) ∧
    (∃ who : Nat, ∃ s : State, (who < 48) ∧ (who < 4) ∧ (s.tb < 2 ^ 64)) :=
  ⟨⟨5, ({ State.reset with tb := 2^40 + 7 }), by decide +kernel⟩,
  ⟨3, ({ State.reset with tb := 2^40 }), by decide +kernel⟩⟩

end Sys2Proof.Tests.Registers

namespace Sys2Proof.Tests.Sampling

open Sys2Proof Sys2Proof.Machine

/-! ### Sampling: small states, and the hypotheses they meet -/

/-- An instant. -/
abbrev T : Nat := 1000000

def g0 : State :=
  ({ State.reset with clk := { State.reset.clk with smp := true } }.set1 (R.ADC_CTL_EN 2)).set1 (R.ADC_STAT_READY 2) |>.set1 (R.CLK_OUT_CFG_EN 3) |>.put (R.ADC_LFSR 2) 77

def F : HeldFrame :=
  { at_ := 800, slices := (List.range 8).map fun i => (i, some (8-i)), js := [1,2,3,4,5,6,7,8], watch := false, se := 0x5, fmt := 0x1b1b }

def g2 : State :=
  (((g0.upAdc 2 fun x => { x with held := [F], vprev := [1,2,3,4000000,5,6,7,8] }).put (R.ADC_SL_GAIN 2 4) 555).put (R.ADC_SL_BW 2 5) 333).put (R.ADC_SL_OFF 2 5) 0xfff0

def c0 (st : Nat) : State :=
  ((g0.set1 (R.ADC_CTL_CALEN 2)).put (R.ADC_STAT_FREE 2) 4).upAdc 2 fun x => { x with steps := st }

def sn : State :=
  ((((g0.put (R.ADC_STAT_FREE 2) 4).set1 (R.ADC_SNAP_CFG_EN 2 3)).put (R.ADC_SNAP_CFG_INPUT 2 3) 6).put (R.ADC_SNAP_CFG_PG 2 3) 5).upGroup 5 fun g => { g with fired := g.fired.set 0 (some (T - 256)) }

def tt (p k c : Nat) : State :=
  (g0.set1 (R.ADC_TSTAT_BUSY 2)).upAdc 2 fun x => { x with test := some ⟨p, 3, k, 4, 10, -12345, c⟩ }

def tk : State :=
  ((((State.reset.set1 (R.MLD_SH_SRC_LOADED 2)).put R.MLD_QUIESCE 0).put (R.CE_TICK_KIND 1) 2).put (R.CE_TICK_SEL 1) 152).put (R.ADC_TCFG_INPUT 2) 3

def a1 :=
  (State.reset.set1 R.SCR_SYNC_CFG_OUT).put R.SCR_FW_OUT 0x20028 |>.put (R.FMX_SRC_STAT 0) 0xffffffff |>.put (R.FMX_SRC_STAT 1) 0xffffffff |>.put (R.FMX_SRC_CLASS 0) 0xffffffff |>.put (R.FMX_SRC_CLASS 1) 0xffffffff

def st1 : State := sn.upAdc 2 fun x => { x with snap := some ⟨1, 5, 100000, 100384⟩, fmt := 0x1b1b}

def st2 : State := (g0.set1 (R.ADC_STAT_WATCH 2)).upAdc 2 fun x => { x with settle := some 12800000 }

theorem witness_FramesHoldAndPresentTheirWords :
    (∃ t : Nat, ∃ n : Nat, ∃ s : State,
      let now := s.at t;
      (n < 4) ∧ (s.adcs.length = 4) ∧ (s.chains.length = 32) ∧ (now.tb % 800 ≠ 0 ∨ s.smpRuns = false)) ∧
    (∃ t : Nat, ∃ n : Nat, ∃ s : State,
      let now := s.at t;
      let x := s.adc n;
      (n < 4) ∧ (s.adcs.length = 4) ∧ (s.chains.length = 32) ∧ (now.tb % 800 = 0 ∧ s.smpRuns = true ∧
      s.scr.f0 = none) ∧ (s.is (R.ADC_CTL_EN n) = true ∧ s.is (R.ADC_STAT_READY n) = true ∧
      s.is (R.ADC_STAT_WATCH n) = false ∧ s.is (R.ADC_CTL_WATCH n) = false) ∧ (x.held = [] ∧ x.handover = false ∧
      x.settle = none ∧ x.watchOn = false ∧ x.pres = [])) ∧
    (∃ t : Nat, ∃ n : Nat, ∃ s : State,
      let now := s.at t;
      let x := s.adc n;
      ∃ f : Sys2Proof.Machine.HeldFrame, ∃ rest : List Sys2Proof.Machine.HeldFrame, (n < 4) ∧ (s.adcs.length = 4) ∧
      (s.chains.length = 32) ∧ (x.held = f :: rest) ∧ (now.tb < f.at_ + 1600)) ∧
    (∃ t : Nat, ∃ n : Nat, ∃ s : State,
      let now := s.at t;
      let x := s.adc n;
      ∃ residue : Nat, ∃ f : Sys2Proof.Machine.HeldFrame, ∃ rest : List Sys2Proof.Machine.HeldFrame, (n < 4) ∧
      (s.adcs.length = 4) ∧ (s.chains.length = 32) ∧ (x.held = f :: rest) ∧ (f.at_ + 1600 ≤ now.tb) ∧
      (f.slices.map (·.1) = List.range 8) ∧ (x.vprev.length = 8) ∧ (residue = 0)) ∧
    (∃ t : Nat, ∃ n : Nat, ∃ s : State,
      let now := s.at t;
      let x := s.adc n;
      ∃ residue : Nat, ∃ f : Sys2Proof.Machine.HeldFrame, ∃ rest : List Sys2Proof.Machine.HeldFrame, (n < 4) ∧
      (s.adcs.length = 4) ∧ (s.chains.length = 32) ∧ (x.held = f :: rest) ∧ (f.at_ + 1600 ≤ now.tb) ∧
      (residue % 256 ≠ 0)) ∧
    (∃ n : Nat, ∃ s : State,
      let x := s.adc n;
      (n < 4) ∧ (s.adcs.length = 4) ∧ (s.chains.length = 32) ∧ (x.held = [])) :=
  ⟨⟨8001, 2, g0, by decide +kernel⟩,
  ⟨8000, 2, g0, by decide +kernel⟩,
  ⟨2399, 2, g2, F, ([]), by decide +kernel⟩,
  ⟨8000, 2, ({ g2 with chains := g2.chains.map fun c => { c with begun := true, adv := 3, resetAt := some 7200 } }),
    0, F, ([]), by decide +kernel⟩,
  ⟨8000, 2, ({ g2 with chains := g2.chains.map fun c => { c with begun := true, adv := 3, resetAt := some 7200 } }),
    3, F, ([]), by decide +kernel⟩,
  ⟨2, g0, by decide +kernel⟩⟩

theorem witness_SlicesAreCalibratedInTurn :
    (∃ t : Nat, ∃ n : Nat, ∃ s : State,
      let now := s.at t;
      let x := s.adc n;
      let k := s.get (R.ADC_STAT_FREE n);
      let live := s.is (R.ADC_CTL_EN n) && s.is (R.ADC_STAT_READY n) && !s.is (R.ADC_STAT_WATCH n);
      (n < 4) ∧ (s.adcs.length = 4) ∧ (live = true) ∧ (s.smpRuns = true) ∧ (s.is (R.ADC_CTL_CALEN n) = true) ∧
      (k < 9) ∧ (x.snap = none) ∧ (x.handover = false) ∧ (x.calFrom + 6400 ≤ now.tb) ∧ (x.steps + 1 < 20000)) ∧
    (∃ t : Nat, ∃ n : Nat, ∃ s : State,
      let now := s.at t;
      let x := s.adc n;
      let k := s.get (R.ADC_STAT_FREE n);
      let live := s.is (R.ADC_CTL_EN n) && s.is (R.ADC_STAT_READY n) && !s.is (R.ADC_STAT_WATCH n);
      ∃ off : Int, ∃ gain : Int, ∃ skew : Int, ∃ bw : Int, (n < 4) ∧ (s.adcs.length = 4) ∧ (live = true) ∧
      (s.smpRuns = true) ∧ (s.is (R.ADC_CTL_CALEN n) = true) ∧ (k < 9) ∧ (x.snap = none) ∧ (x.handover = false) ∧
      (x.calFrom + 6400 ≤ now.tb) ∧ (20000 ≤ x.steps + 1) ∧ (off.natAbs ≤ 24576 ∧ gain.natAbs ≤ 26214 ∧ -128 ≤ skew ∧
      skew ≤ 127 ∧ bw.natAbs ≤ 2047)) ∧
    (∃ t : Nat, ∃ n : Nat, ∃ s : State,
      let now := s.at t;
      let x := s.adc n;
      let k := s.get (R.ADC_STAT_FREE n);
      let live := s.is (R.ADC_CTL_EN n) && s.is (R.ADC_STAT_READY n) && !s.is (R.ADC_STAT_WATCH n);
      ∃ off : Int, ∃ gain : Int, ∃ skew : Int, ∃ bw : Int, (n < 4) ∧ (s.adcs.length = 4) ∧ (live = true) ∧
      (s.smpRuns = true) ∧ (s.is (R.ADC_CTL_CALEN n) = true) ∧ (k < 9) ∧ (x.snap = none) ∧ (x.handover = false) ∧
      (x.calFrom + 6400 ≤ now.tb) ∧ (20000 ≤ x.steps + 1) ∧
      (24576 < off.natAbs ∨ 26214 < gain.natAbs ∨ skew < -128 ∨ 127 < skew ∨ 2047 < bw.natAbs) ∧
      (s.get (R.ADC_SL_SKEW_FAILS n k) = 0)) ∧
    (∃ t : Nat, ∃ n : Nat, ∃ s : State,
      let now := s.at t;
      let x := s.adc n;
      let k := s.get (R.ADC_STAT_FREE n);
      let live := s.is (R.ADC_CTL_EN n) && s.is (R.ADC_STAT_READY n) && !s.is (R.ADC_STAT_WATCH n);
      ∃ off : Int, ∃ gain : Int, ∃ skew : Int, ∃ bw : Int, (n < 4) ∧ (s.adcs.length = 4) ∧ (live = true) ∧
      (s.smpRuns = true) ∧ (s.is (R.ADC_CTL_CALEN n) = true) ∧ (k < 9) ∧ (x.snap = none) ∧ (x.handover = false) ∧
      (x.calFrom + 6400 ≤ now.tb) ∧ (20000 ≤ x.steps + 1) ∧
      (24576 < off.natAbs ∨ 26214 < gain.natAbs ∨ skew < -128 ∨ 127 < skew ∨ 2047 < bw.natAbs) ∧
      (s.get (R.ADC_SL_SKEW_FAILS n k) = 1)) ∧
    (∃ t : Nat, ∃ n : Nat, ∃ s : State,
      let now := s.at t;
      let x := s.adc n;
      let k := s.get (R.ADC_STAT_FREE n);
      (n < 4) ∧ (s.adcs.length = 4) ∧ (x.handover = true) ∧ (x.snap = none) ∧ (now.tb % 800 = 0) ∧
      (s.is (R.ADC_STAT_WATCH n) = false) ∧ (k < 9)) ∧
    (∃ t : Nat, ∃ n : Nat, ∃ s : State,
      let now := s.at t;
      let x := s.adc n;
      (n < 4) ∧ (s.adcs.length = 4) ∧ (x.handover = false ∨ x.snap.isSome = true ∨ now.tb % 800 ≠ 0)) ∧
    (∃ t : Nat, ∃ n : Nat, ∃ s : State,
      let now := s.at t;
      let x := s.adc n;
      let k := s.get (R.ADC_STAT_FREE n);
      let live := s.is (R.ADC_CTL_EN n) && s.is (R.ADC_STAT_READY n) && !s.is (R.ADC_STAT_WATCH n);
      (n < 4) ∧ (s.adcs.length = 4) ∧ (live = true) ∧ (s.is (R.ADC_CTL_CALEN n) = true) ∧ (k < 9) ∧
      (x.starve + 4096000000 ≤ now.tb) ∧ (s.is (R.ADC_STAT_CAL_STARVED n) = false)) ∧
    (∃ t : Nat, ∃ n : Nat, ∃ s : State,
      let now := s.at t;
      let x := s.adc n;
      (n < 4) ∧ (s.adcs.length = 4) ∧ (now.tb < x.starve + 4096000000)) ∧
    (∃ t : Nat, ∃ n : Nat, ∃ s : State,
      let now := s.at t;
      let x := s.adc n;
      (n < 4) ∧ (s.adcs.length = 4) ∧ (s.is (R.ADC_CTL_CALEN n) = false) ∧ (s.is (R.ADC_STAT_CALPHASE n) = true) ∧
      (x.calFrom + 6400 ≤ now.tb)) :=
  ⟨⟨6400, 2, (c0 3), by decide +kernel⟩,
  ⟨6400, 2, (c0 19999), 0, 0, 0, 0, by decide +kernel⟩,
  ⟨6400, 2, (c0 19999), 0, 0, 0, 30000, by decide +kernel⟩,
  ⟨6400, 2, ((c0 19999).set1 (R.ADC_SL_SKEW_FAILS 2 4)), 0, 0, 0, 30000, by decide +kernel⟩,
  ⟨6400, 2, ((c0 0).upAdc 2 fun x => { x with handover := true }), by decide +kernel⟩,
  ⟨6400, 2, (c0 3), by decide +kernel⟩,
  ⟨4096000000, 2, (c0 0), by decide +kernel⟩,
  ⟨6400, 2, (c0 3), by decide +kernel⟩,
  ⟨8000, 2, ((g0.put (R.ADC_STAT_CALPHASE 2) 3).clr (R.ADC_CTL_CALEN 2)), by decide +kernel⟩⟩

theorem witness_SnapshotsTakeTheFreeSlice :
    (∃ t : Nat, ∃ n : Nat, ∃ s : State,
      let now := s.at t;
      let x := s.adc n;
      ∃ slot : Nat, (n < 4) ∧ (s.adcs.length = 4) ∧ (slot < 4) ∧ (s.is (R.ADC_CTL_EN n) = true ∧ s.smpRuns = true ∧
      x.handover = false ∧ 256 ≤ now.tb) ∧ ((∀ j, j < 4 → s.is (R.ADC_SNAP_CFG_EN n j) = decide (j = slot))) ∧
      ((s.group (s.get (R.ADC_SNAP_CFG_PG n slot))).fired.getD (s.get (R.ADC_SNAP_CFG_TRG n slot)) none = some (now.tb - 256)) ∧
      (x.snap = none) ∧ (s.get (R.ADC_STAT_FREE n) < 9 ∧ s.is (R.ADC_STAT_READY n) = true ∧
      s.is (R.ADC_STAT_WATCH n) = false)) ∧
    (∃ t : Nat, ∃ n : Nat, ∃ s : State,
      let now := s.at t;
      let x := s.adc n;
      ∃ slot : Nat, ∃ y : Sys2Proof.Machine.Snap, (n < 4) ∧ (s.adcs.length = 4) ∧ (slot < 4) ∧
      (s.is (R.ADC_CTL_EN n) = true ∧ s.smpRuns = true ∧ x.handover = false ∧ 256 ≤ now.tb) ∧ ((∀ j,
      j < 4 → s.is (R.ADC_SNAP_CFG_EN n j) = decide (j = slot))) ∧
      ((s.group (s.get (R.ADC_SNAP_CFG_PG n slot))).fired.getD (s.get (R.ADC_SNAP_CFG_TRG n slot)) none = some (now.tb - 256)) ∧
      (x.snap = some y) ∧ (y.trig / 100 < now.tb / 100)) ∧
    (∃ t : Nat, ∃ n : Nat, ∃ s : State,
      let now := s.at t;
      let x := s.adc n;
      ∃ y : Sys2Proof.Machine.Snap, (n < 4) ∧ (s.adcs.length = 4) ∧ (x.snap = some y) ∧ (y.slot < 4) ∧ (y.input < 8) ∧
      (now.tb < y.hold + 960)) ∧
    (∃ t : Nat, ∃ n : Nat, ∃ s : State,
      let now := s.at t;
      let x := s.adc n;
      ∃ y : Sys2Proof.Machine.Snap, (n < 4) ∧ (s.adcs.length = 4) ∧ (x.snap = some y) ∧ (y.slot < 4) ∧ (y.input < 8) ∧
      (y.hold + 960 ≤ now.tb)) ∧
    (∃ n : Nat, ∃ s : State, ∃ who : Nat, ∃ slot : Nat, (n < 4) ∧ (s.adcs.length = 4) ∧ (who < 48) ∧ (slot < 4)) ∧
    (∃ n : Nat, ∃ s : State, ∃ who : Nat, ∃ tap : Nat, (n < 4) ∧ (s.adcs.length = 4) ∧ (who < 48) ∧ (tap < 256) ∧
      (tap % 8 ≠ 7)) ∧
    (∃ n : Nat, ∃ s : State, (n < 4) ∧ (s.adcs.length = 4) ∧ (s.is (R.ADC_CTL_EN n) = false)) :=
  ⟨⟨T, 2, sn, 3, by decide +kernel⟩,
  ⟨T, 2, st1, 3, ({ slot := 1, input := 5, trig := 100000, hold := 100384 }), by decide +kernel⟩,
  ⟨T, 2, (sn.upAdc 2 fun x => { x with snap := some ⟨1, 5, 1000000, 1000384⟩, fmt := 0x1b1b}),
    ({ slot := 1, input := 5, trig := 1000000, hold := 1000384 }), by decide +kernel⟩,
  ⟨T, 2, st1, ({ slot := 1, input := 5, trig := 100000, hold := 100384 }), by decide +kernel⟩,
  ⟨2, sn, 0, 0, by decide +kernel⟩,
  ⟨2, sn, 0, 0, by decide +kernel⟩,
  ⟨2, (State.reset.clr (R.ADC_CTL_EN 2)), by decide +kernel⟩⟩

theorem witness_TestsAndWatchModeOfAGroup :
    (∃ n : Nat, ∃ s : State,
      let i := s.get (R.ADC_TCFG_INPUT n);
      (n < 4) ∧ (s.adcs.length = 4) ∧ (s.is (R.ADC_TSTAT_BUSY n) = false) ∧
      ((s.inputTaken (8 * n + i) && s.ownSamples) = false) ∧ (s.is (R.ADC_STAT_WATCH n) = true)) ∧
    (∃ n : Nat, ∃ s : State,
      let i := s.get (R.ADC_TCFG_INPUT n);
      let kind := s.get (R.ADC_TCFG_KIND n);
      (n < 4) ∧ (s.adcs.length = 4) ∧ (s.is (R.ADC_TSTAT_BUSY n) = false) ∧
      ((s.inputTaken (8 * n + i) && s.ownSamples) = false) ∧ (s.is (R.ADC_STAT_WATCH n) = false) ∧ (kind ≠ 3)) ∧
    (∃ n : Nat, ∃ s : State, (n < 4) ∧ (s.adcs.length = 4) ∧ (s.is (R.ADC_TSTAT_BUSY n) = true)) ∧
    (∃ t : Nat, ∃ n : Nat, ∃ s : State,
      let now := s.at t;
      let x := s.adc n;
      ∃ y : Sys2Proof.Machine.AdcTest, (n < 4) ∧ (s.adcs.length = 4) ∧ (x.test = some y) ∧
      (y.phase ≠ 2 ∨ now.tb < y.since + 160000 * s.get (R.ADC_TTHR_SETTLE n))) ∧
    (∃ n : Nat, ∃ s : State,
      let x := s.adc n;
      ∃ y : Sys2Proof.Machine.AdcTest, (n < 4) ∧ (s.adcs.length = 4) ∧ (x.test = some y) ∧ (y.phase = 1) ∧
      (2 ^ y.avg ≤ y.cnt)) ∧
    (∃ n : Nat, ∃ s : State,
      let x := s.adc n;
      ∃ y : Sys2Proof.Machine.AdcTest, (n < 4) ∧ (s.adcs.length = 4) ∧ (x.test = some y) ∧ (y.phase = 3) ∧
      (2 ^ y.avg ≤ y.cnt)) ∧
    (∃ n : Nat, ∃ s : State,
      let x := s.adc n;
      ∃ y : Sys2Proof.Machine.AdcTest, (n < 4) ∧ (s.adcs.length = 4) ∧ (x.test = some y) ∧ (y.cnt < 2 ^ y.avg)) ∧
    (∃ n : Nat, ∃ s : State,
      let taken := (List.range 8).any fun j => s.inputTaken (8 * n + j);
      (n < 4) ∧ (s.adcs.length = 4) ∧ (taken = false)) ∧
    (∃ t : Nat, ∃ n : Nat, ∃ s : State,
      let now := s.at t;
      (n < 4) ∧ (s.adcs.length = 4) ∧ (s.smpRuns = true) ∧ (s.is (R.ADC_CTL_WATCH n) = true) ∧
      (s.is (R.ADC_STAT_WATCH n) = false) ∧ (now.tb % 800 = 0)) ∧
    (∃ t : Nat, ∃ n : Nat, ∃ s : State,
      let now := s.at t;
      (n < 4) ∧ (s.adcs.length = 4) ∧ (s.is (R.ADC_CTL_WATCH n) = false ∨ now.tb % 800 ≠ 0)) ∧
    (∃ t : Nat, ∃ n : Nat, ∃ s : State,
      let now := s.at t;
      let x := s.adc n;
      ∃ u : Nat, (n < 4) ∧ (s.adcs.length = 4) ∧ (x.settle = some u) ∧ (s.smpRuns = true) ∧ (u ≤ now.tb) ∧
      (now.tb % 12800 = 0)) ∧
    (∃ t : Nat, ∃ n : Nat, ∃ s : State,
      let now := s.at t;
      let x := s.adc n;
      ∃ u : Nat, (n < 4) ∧ (s.adcs.length = 4) ∧ (x.settle = some u) ∧ (now.tb < u ∨ now.tb % 12800 ≠ 0)) ∧
    (∃ n : Nat, ∃ s : State,
      let i := s.get (R.ADC_TCFG_INPUT n);
      (n < 4) ∧ (s.adcs.length = 4) ∧ (s.is (R.ADC_TSTAT_BUSY n) = false) ∧ (s.inputTaken (8 * n + i) = true) ∧
      (s.ownSamples = true)) ∧
    (∃ n : Nat, ∃ s : State,
      let i := s.get (R.ADC_TCFG_INPUT n);
      let kind := s.get (R.ADC_TCFG_KIND n);
      (n < 4) ∧ (s.adcs.length = 4) ∧ (s.is (R.ADC_TSTAT_BUSY n) = false) ∧
      ((s.inputTaken (8 * n + i) && s.ownSamples) = false) ∧ (s.is (R.ADC_STAT_WATCH n) = false) ∧ (kind = 3)) ∧
    (∃ t : Nat, ∃ n : Nat, ∃ s : State,
      let now := s.at t;
      let x := s.adc n;
      ∃ y : Sys2Proof.Machine.AdcTest, (n < 4) ∧ (s.adcs.length = 4) ∧ (x.test = some y) ∧ (y.phase = 2) ∧
      (y.since + 160000 * s.get (R.ADC_TTHR_SETTLE n) ≤ now.tb)) ∧
    (∃ n : Nat, ∃ s : State,
      let taken := (List.range 8).any fun j => s.inputTaken (8 * n + j);
      (n < 4) ∧ (s.adcs.length = 4) ∧ (taken = true)) :=
  ⟨⟨2, (g0.set1 (R.ADC_STAT_WATCH 2)), by decide +kernel⟩,
  ⟨2, g0, by decide +kernel⟩,
  ⟨2, (tt 1 2 16), by decide +kernel⟩,
  ⟨T, 2, (tt 1 2 16), ({ phase := 1, input := 3, kind := 2, avg := 4, since := 10, sum := -12345, cnt := 16 }),
    by decide +kernel⟩,
  ⟨2, (tt 1 2 16), ({ phase := 1, input := 3, kind := 2, avg := 4, since := 10, sum := -12345, cnt := 16 }),
    by decide +kernel⟩,
  ⟨2, (tt 3 2 16), ({ phase := 3, input := 3, kind := 2, avg := 4, since := 10, sum := -12345, cnt := 16 }),
    by decide +kernel⟩,
  ⟨2, (tt 3 1 12), ({ phase := 3, input := 3, kind := 1, avg := 4, since := 10, sum := -12345, cnt := 12 }),
    by decide +kernel⟩,
  ⟨2, g0, by decide +kernel⟩,
  ⟨8000, 2, (g0.set1 (R.ADC_CTL_WATCH 2)), by decide +kernel⟩,
  ⟨T, 2, g0, by decide +kernel⟩,
  ⟨12800000, 2, st2, 12800000, by decide +kernel⟩,
  ⟨12700000, 2, st2, 12800000, by decide +kernel⟩,
  ⟨2, tk, by decide +kernel⟩,
  ⟨2, (State.reset.put (R.ADC_TCFG_KIND 2) 3), by decide +kernel⟩,
  ⟨8000005, 2,
    (tk.upAdc 2 fun x => { x with test := some { phase := 2, input := 3, kind := 0, avg := 0, since := 5 } }),
    ({ phase := 2, input := 3, kind := 0, avg := 0, since := 5 }), by decide +kernel⟩,
  ⟨2, tk, by decide +kernel⟩⟩

theorem witness_ChainsFollowSyncAndFastWindows :
    (∃ s : State, (s.chains.length = 32) ∧ (s.adcs.length = 4) ∧ (s.scr.f0 = none) ∧ (s.syncDrives = true)) ∧
    (∃ s : State, (s.chains.length = 32) ∧ (s.adcs.length = 4) ∧ (s.syncSrc ≠ 1)) ∧
    (∃ s : State, ∃ i : Nat, (s.chains.length = 32) ∧ (s.adcs.length = 4) ∧ (i < 32) ∧
      (bit (s.get R.SCR_FW_OUT) i = false)) ∧
    (∃ s : State, ∃ i : Nat, (s.chains.length = 32) ∧ (s.adcs.length = 4) ∧ (i < 32) ∧
      (bit (s.get R.SCR_FW_OUT) i = true)) :=
  ⟨⟨a1, by decide +kernel⟩,
  ⟨a1, by decide +kernel⟩,
  ⟨a1, 0, by decide +kernel⟩,
  ⟨a1, 3, by decide +kernel⟩⟩

end Sys2Proof.Tests.Sampling

namespace Sys2Proof.Tests.Screen

open Sys2Proof Sys2Proof.Machine

/-! ### Screen: small states, and the hypotheses they meet -/

/-- An instant. -/
abbrev T : Nat := 1000000

def a0 := State.reset.put R.SCR_SYNC_CFG_SRC 1

def a1 :=
  (State.reset.set1 R.SCR_SYNC_CFG_OUT).put R.SCR_FW_OUT 0x20028 |>.put (R.FMX_SRC_STAT 0) 0xffffffff |>.put (R.FMX_SRC_STAT 1) 0xffffffff

def a2 (f : Nat) : State :=
  { (a1.put R.SCR_SYNC_MASK 0x7fff0028).put (R.SCR_PH 3) 7 with scr := { a1.scr with f0 := some f, drive := [1000800] }, adcs := a1.adcs.mapIdx fun i x => { x with watchOn := i == 2 } }

theorem witness_ChainsFollowSyncAndFastWindows_2 :
    (∃ s : State, (s.chains.length = 32) ∧ (s.adcs.length = 4) ∧ (s.scr.f0 = none) ∧ (s.syncSrc = 1)) ∧
    (∃ s : State, (s.chains.length = 32) ∧ (s.adcs.length = 4) ∧ (s.scr.f0 = none) ∧ (s.syncDrives = false)) ∧
    (∃ t : Nat, ∃ s : State,
      let now := s.at t;
      ∃ f : Nat, (s.chains.length = 32) ∧ (s.adcs.length = 4) ∧ (s.scr.f0 = some f) ∧ (now.tb < f)) ∧
    (∃ t : Nat, ∃ s : State,
      let now := s.at t;
      ∃ f : Nat, (s.chains.length = 32) ∧ (s.adcs.length = 4) ∧ (s.scr.f0 = some f) ∧ (f ≤ now.tb)) :=
  ⟨⟨a0, by decide +kernel⟩,
  ⟨a0, by decide +kernel⟩,
  ⟨T, (a2 1000800), 1000800, by decide +kernel⟩,
  ⟨T, (a2 999200), 999200, by decide +kernel⟩⟩

end Sys2Proof.Tests.Screen

namespace Sys2Proof.Tests.Mould

open Sys2Proof Sys2Proof.Machine

/-! ### Mould: small states, and the hypotheses they meet -/

/-- An instant. -/
abbrev T : Nat := 1000000

def m0 : State := (State.reset.put R.MLD_QUIESCE 0).put R.MLD_QSTAT_QUIESCED 0

def ms : State := m0.writeLe 0x92100000 4 0x444C4F4D

def cmd (c : MldCmd) (s : State) : State := { s with mld := { s.mld with cmd := some c } }

def im : List Byte := List.replicate 8 7 ++ leBytes 4 12 ++ [1,2,3]

def st1 : State := cmd ⟨3, 1, 3, 0, 0, 0, []⟩ (ms.put R.MLD_QUIESCE 255)

theorem witness_MouldCommandsAndSheetsAtRest :
    (∃ t : Nat, ∃ s : State, ∃ k : Nat, ∃ sh : Nat, ∃ c, ∃ op : Nat, ∃ r : Nat × Bad, (s.engs.length = 8) ∧ (k < 4) ∧
      (sh < 16) ∧ ((c = Instr.mldProgram t k ∧ op = 1 ∧
      r = (if s.stageOk (s.get R.MLD_STAGE_BASE) (s.get R.MLD_STAGE_LEN) then firstCode [s.checkImage (s.readBytes (s.get R.MLD_STAGE_BASE) (min (s.get R.MLD_STAGE_LEN) 0x100000)) (min (s.get R.MLD_STAGE_LEN) 0x100000) [],
      (if s.slotUsed k then 0x16 else 0, 0, 0)] else (1, 0, 0))) ∨ (c = .mldCheck t k ∧ op = 2 ∧
      r = s.checkSlot k) ∨ (c = .mldReload t k sh ∧ op = 3 ∧ r = s.reloadCode k sh) ∨ (c = .mldWithdraw t k ∧ op = 4 ∧
      r = (if !s.slotValid k then 0x13 else if s.slotUsed k then 0x16 else 0, 0, 0)) ∨ (c = .mldStartLoad t k ∧
      op = 5 ∧ r = s.startLoadCode k)) ∧ (s.is R.MLD_STAT_BUSY = true)) ∧
    (∃ t : Nat, ∃ s : State, ∃ k : Nat, ∃ sh : Nat, ∃ c, ∃ op : Nat, ∃ r : Nat × Bad, (s.engs.length = 8) ∧ (k < 4) ∧
      (sh < 16) ∧ ((c = Instr.mldProgram t k ∧ op = 1 ∧
      r = (if s.stageOk (s.get R.MLD_STAGE_BASE) (s.get R.MLD_STAGE_LEN) then firstCode [s.checkImage (s.readBytes (s.get R.MLD_STAGE_BASE) (min (s.get R.MLD_STAGE_LEN) 0x100000)) (min (s.get R.MLD_STAGE_LEN) 0x100000) [],
      (if s.slotUsed k then 0x16 else 0, 0, 0)] else (1, 0, 0))) ∨ (c = .mldCheck t k ∧ op = 2 ∧
      r = s.checkSlot k) ∨ (c = .mldReload t k sh ∧ op = 3 ∧ r = s.reloadCode k sh) ∨ (c = .mldWithdraw t k ∧ op = 4 ∧
      r = (if !s.slotValid k then 0x13 else if s.slotUsed k then 0x16 else 0, 0, 0)) ∨ (c = .mldStartLoad t k ∧
      op = 5 ∧ r = s.startLoadCode k)) ∧ (s.is R.MLD_STAT_BUSY = false)) ∧
    (∃ s : State, ∃ c : MldCmd, (s.engs.length = 8) ∧ (s.mld.cmd = some c) ∧ (c.slot < 4) ∧ (c.sheet < 12) ∧
      (c.code < 256) ∧ (c.errSheet < 16) ∧ (c.off < 2 ^ 32) ∧ (c.code ≠ 0)) ∧
    (∃ s : State, ∃ c, (s.engs.length = 8) ∧ (s.mld.cmd = some c) ∧ (c.slot < 4) ∧ (c.sheet < 12) ∧ (c.code < 256) ∧
      (c.errSheet < 16) ∧ (c.off < 2 ^ 32) ∧ (c.code = 0) ∧ (c.op = 2)) ∧
    (∃ s : State, ∃ c, (s.engs.length = 8) ∧ (s.mld.cmd = some c) ∧ (c.slot < 4) ∧ (c.sheet < 12) ∧ (c.code < 256) ∧
      (c.errSheet < 16) ∧ (c.off < 2 ^ 32) ∧ (c.code = 0) ∧ (c.op = 4)) ∧
    (∃ s : State, ∃ c, (s.engs.length = 8) ∧ (s.mld.cmd = some c) ∧ (c.slot < 4) ∧ (c.sheet < 12) ∧ (c.code < 256) ∧
      (c.errSheet < 16) ∧ (c.off < 2 ^ 32) ∧ (c.code = 0) ∧ (c.op = 1) ∧ (leAt c.img 8 4 ≤ c.img.length)) ∧
    (∃ s : State, ∃ c : MldCmd, (s.engs.length = 8) ∧ (s.mld.cmd = some c) ∧ (c.slot < 4) ∧ (c.sheet < 12) ∧
      (c.code < 256) ∧ (c.errSheet < 16) ∧ (c.off < 2 ^ 32) ∧ (c.code = 0) ∧ (c.op = 3)) ∧
    (∃ s : State, ∃ c, (s.engs.length = 8) ∧ (s.mld.cmd = some c) ∧ (c.slot < 4) ∧ (c.sheet < 12) ∧ (c.code < 256) ∧
      (c.errSheet < 16) ∧ (c.off < 2 ^ 32) ∧ (c.code = 0) ∧ (c.op = 5)) ∧
    (∃ s : State, ∃ n : Nat, (s.engs.length = 8) ∧ (n < 12) ∧ (1 ≤ n) ∧ (bit (s.get R.MLD_QUIESCE) (n - 1) = false)) ∧
    (∃ s : State, ∃ n : Nat, (s.engs.length = 8) ∧ (n < 12) ∧ (n = 0 ∨ bit (s.get R.MLD_QUIESCE) (n - 1) = true)) ∧
    (∃ t : Nat, ∃ s : State, ∃ n : Nat, ∃ c, (s.engs.length = 8) ∧ (n < 12) ∧
      (c = Instr.sheetQuiesced t n ∨ c = .quiesceReadbackTimeout t n) ∧ (1 ≤ n) ∧ (n ≤ 8) ∧
      ((s.sheetLoaded n && (s.at t).atRest n) = false)) ∧
    (∃ t : Nat, ∃ s : State, ∃ n : Nat, ∃ c, (s.engs.length = 8) ∧ (n < 12) ∧
      (c = Instr.sheetQuiesced t n ∨ c = .quiesceReadbackTimeout t n) ∧ (1 ≤ n) ∧ (n ≤ 8) ∧ (s.sheetLoaded n = true) ∧
      ((s.at t).atRest n = true)) ∧
    (∃ t : Nat, ∃ s : State, ∃ n : Nat, ∃ c, (s.engs.length = 8) ∧ (n < 12) ∧
      (c = Instr.sheetQuiesced t n ∨ c = .quiesceReadbackTimeout t n) ∧ (n = 0 ∨ 8 < n)) ∧
    (∃ s : State, ∃ n : Nat, (s.engs.length = 8) ∧ (n < 12) ∧ (n = 0 ∨ bit (s.get R.MLD_QUIESCE) (n - 1) = false)) ∧
    (∃ s : State, ∃ n : Nat, ∃ c : MldCmd, (s.engs.length = 8) ∧ (n < 12) ∧ (1 ≤ n) ∧
      (bit (s.get R.MLD_QUIESCE) (n - 1) = true) ∧ (s.mld.cmd = some c) ∧ (c.op = 3) ∧ (c.sheet = n)) ∧
    (∃ s : State, ∃ n : Nat, (s.engs.length = 8) ∧ (n < 12) ∧ (1 ≤ n) ∧ (bit (s.get R.MLD_QUIESCE) (n - 1) = true) ∧
      (s.mld.cmd = none) ∧ (n ≤ 8) ∧ (s.sheetLoaded n = true) ∧ (s.is R.TWN_CTL_EN = false)) ∧
    (∃ s : State, ∃ n : Nat, (s.engs.length = 8) ∧ (n < 12) ∧ (1 ≤ n) ∧ (bit (s.get R.MLD_QUIESCE) (n - 1) = true) ∧
      (s.mld.cmd = none) ∧ (n ≤ 8) ∧ (s.sheetLoaded n = true) ∧ (s.is R.TWN_CTL_EN = true) ∧
      (s.get R.TWN_STAT_PSTATE = 3) ∧ (s.paired n = false)) :=
  ⟨⟨T, (m0.set1 R.MLD_STAT_BUSY), 1, 3, (Instr.mldCheck T 1), 2, ((m0.set1 R.MLD_STAT_BUSY).checkSlot 1),
    by decide +kernel⟩,
  ⟨T, m0, 1, 3, (Instr.mldWithdraw T 1), 4, (0x13, 0, 0), by decide +kernel⟩,
  ⟨(cmd ⟨3, 1, 3, 7, 5, 6, []⟩ (ms.put R.MLD_QUIESCE 255)), (⟨3, 1, 3, 7, 5, 6, []⟩), by decide +kernel⟩,
  ⟨(cmd ⟨2, 1, 0, 0, 0, 0, []⟩ ms),
    ({ op := 2, slot := 1, sheet := 0, code := 0, errSheet := 0, off := 0, img := [] }), by decide +kernel⟩,
  ⟨(cmd ⟨4, 1, 0, 0, 0, 0, []⟩ ms),
    ({ op := 4, slot := 1, sheet := 0, code := 0, errSheet := 0, off := 0, img := [] }), by decide +kernel⟩,
  ⟨(cmd ⟨1, 1, 0, 0, 0, 0, im⟩ ms),
    ({ op := 1, slot := 1, sheet := 0, code := 0, errSheet := 0, off := 0, img := im }), by decide +kernel⟩,
  ⟨st1, (⟨3, 1, 3, 0, 0, 0, []⟩), by decide +kernel⟩,
  ⟨(cmd ⟨5, 1, 0, 0, 0, 0, []⟩ ms),
    ({ op := 5, slot := 1, sheet := 0, code := 0, errSheet := 0, off := 0, img := [] }), by decide +kernel⟩,
  ⟨m0, 1, by decide +kernel⟩,
  ⟨m0, 0, by decide +kernel⟩,
  ⟨T, m0, 1, (Sys2Proof.Instr.sheetQuiesced 1000000 1), by decide +kernel⟩,
  ⟨T, ((m0.put R.MLD_QUIESCE 255).set1 (R.MLD_SH_SRC_LOADED 3)), 3, (Instr.sheetQuiesced T 3), by decide +kernel⟩,
  ⟨T, m0, 0, (Sys2Proof.Instr.sheetQuiesced 1000000 0), by decide +kernel⟩,
  ⟨m0, 0, by decide +kernel⟩,
  ⟨st1, 3, (⟨3, 1, 3, 0, 0, 0, []⟩), by decide +kernel⟩,
  ⟨((ms.put R.MLD_QUIESCE 2047).set1 (R.MLD_SH_SRC_LOADED 3)), 3, by decide +kernel⟩,
  ⟨((((ms.put R.MLD_QUIESCE 2047).set1 (R.MLD_SH_SRC_LOADED 3)).set1 R.TWN_CTL_EN).put R.TWN_STAT_PSTATE 3), 3,
    by decide +kernel⟩⟩

end Sys2Proof.Tests.Mould

namespace Sys2Proof.Tests.Engines

open Sys2Proof Sys2Proof.Machine

/-! ### Engines: small states, and the hypotheses they meet -/

/-- An instant. -/
abbrev T : Nat := 1000000

def b0 : State :=
  (((((State.reset.put R.MLD_QUIESCE 0).set1 (R.CE_RUNCTL_EN 3)).put (R.CE_TICK_KIND 3) 0).put (R.CE_TICK_SEL 3) 2).put (R.CE_RCOUNT_A 3) 1).upEng 3 fun e => { e with ready := true }

def tr (s : State) : State := s.upTrig 2 fun x => { x with fired := some 5000 }

def tk : Tick := { stamp := 4000, due := 4256, fix := {} }

def r1 : Run :=
  { start := 0, idx := 1, cyc := 16, stamp := 5000, num := 1, dUsed := 100000, dt := 0, onTime := false, fix := {} , sig := 77}

def st1 : State := State.reset.upEng 3 fun e => {e with run := some r1}

def st2 : State := tr (b0.upEng 3 fun e => {e with pend := some tk})

theorem witness_EnginesRunOnTheirTicks :
    (∃ n : Nat, ∃ s : State,
      let e := s.eng n;
      (n < 8) ∧ (s.engs.length = 8) ∧ (s.is R.TWN_CTL_EN = false) ∧ (s.twn.heldJoin = []) ∧ (e.wait = []) ∧
      (s.engLatches n = false)) ∧
    (∃ t : Nat, ∃ n : Nat, ∃ s : State,
      let now := s.at t;
      let e := s.eng n;
      ∃ stamp : Nat, (n < 8) ∧ (s.engs.length = 8) ∧ (s.is R.TWN_CTL_EN = false) ∧ (s.twn.heldJoin = []) ∧
      (e.wait = []) ∧ (s.engLatches n = true) ∧ (s.tickEvent n stamp = true) ∧ ((∀ x,
      e.lastEv = some x → x < stamp)) ∧ (s.tbToSys stamp ≤ now.tb) ∧ (e.div < s.get (R.CE_TICK_DIV n))) ∧
    (∃ t : Nat, ∃ n : Nat, ∃ s : State,
      let now := s.at t;
      let e := s.eng n;
      ∃ stamp : Nat, (n < 8) ∧ (s.engs.length = 8) ∧ (s.is R.TWN_CTL_EN = false) ∧ (s.twn.heldJoin = []) ∧
      (e.wait = []) ∧ (s.engLatches n = true) ∧ (s.tickEvent n stamp = true) ∧ ((∀ x,
      e.lastEv = some x → x < stamp)) ∧ (s.tbToSys stamp ≤ now.tb) ∧ (s.get (R.CE_TICK_DIV n) ≤ e.div) ∧
      (e.pend = none) ∧ (e.run = none) ∧ (e.endAt = none)) ∧
    (∃ t : Nat, ∃ n : Nat, ∃ s : State,
      let now := s.at t;
      let e := s.eng n;
      ∃ stamp : Nat, ∃ p : Sys2Proof.Tick, (n < 8) ∧ (s.engs.length = 8) ∧ (s.is R.TWN_CTL_EN = false) ∧
      (s.twn.heldJoin = []) ∧ (e.wait = []) ∧ (s.engLatches n = true) ∧ (s.tickEvent n stamp = true) ∧ ((∀ x,
      e.lastEv = some x → x < stamp)) ∧ (s.tbToSys stamp ≤ now.tb) ∧ (s.get (R.CE_TICK_DIV n) ≤ e.div) ∧
      (e.pend = some p)) ∧
    (∃ t : Nat, ∃ n : Nat, ∃ s : State,
      let now := s.at t;
      let e := s.eng n;
      ∃ k : Sys2Proof.Tick, (n < 8) ∧ (s.engs.length = 8) ∧ (e.wait = []) ∧ ((∀ x ∈ s.twn.atX, now.tb < x.1)) ∧
      (now.runDue n = some k)) ∧
    (∃ t : Nat, ∃ n : Nat, ∃ s : State,
      let now := s.at t;
      let e := s.eng n;
      (n < 8) ∧ (s.engs.length = 8) ∧ (e.wait = []) ∧ ((∀ x ∈ s.twn.atX, now.tb < x.1)) ∧ (now.runDue n = none)) ∧
    (∃ t : Nat, ∃ n : Nat, ∃ s : State,
      let now := s.at t;
      let e := s.eng n;
      ∃ r : Sys2Proof.Machine.Run, (n < 8) ∧ (s.engs.length = 8) ∧ (e.run = some r) ∧
      (s.recipeCount n (s.get (R.CE_STAT_RSTORE n)) ≤ r.idx) ∧ (r.cyc ≤ now.runCycles r) ∧
      (s.is R.TWN_CTL_EN = false)) ∧
    (∃ n : Nat, ∃ s : State,
      let e := s.eng n;
      ∃ u : Nat, ∃ r : Sys2Proof.Machine.Run, (n < 8) ∧ (s.engs.length = 8) ∧ (u = s.engUnit n) ∧ ((∀ g,
      g < 8 → s.mappedAction g (108 + u) = 0)) ∧ (s.fsOn (108 + u) = false) ∧ (e.run = some r) ∧ (r.onTime = false) ∧
      (s.get (R.CE_RUNCTL_OVR_LIMIT n) ≠ 0) ∧ (s.get (R.CE_RUNCTL_OVR_LIMIT n) ≤ s.get (R.CE_OVR_CONSEC n))) ∧
    (∃ n : Nat, ∃ s : State, ∃ u : Nat, (n < 8) ∧ (s.engs.length = 8) ∧ (u = s.engUnit n) ∧ ((∀ g,
      g < 8 → s.mappedAction g (116 + u) = 0)) ∧ (s.move = none)) :=
  ⟨⟨3, st1, by decide +kernel⟩,
  ⟨T, 3, (tr (b0.put (R.CE_TICK_DIV 3) 2)), 5000, by decide +kernel⟩,
  ⟨T, 3, (tr b0), 5000, by decide +kernel⟩,
  ⟨T, 3, st2, 5000, tk, by decide +kernel⟩,
  ⟨T, 3, st2, tk, by decide +kernel⟩,
  ⟨T, 3, b0, by decide +kernel⟩,
  ⟨T, 3, st1, r1, by decide +kernel⟩,
  ⟨3, (((b0.upEng 3 fun e => { e with run := some r1 }).put (R.CE_RUNCTL_OVR_LIMIT 3) 1).put (R.CE_OVR_CONSEC 3) 1),
    (b0.engUnit 3), r1, by decide +kernel⟩,
  ⟨3, b0, (b0.engUnit 3), by decide +kernel⟩⟩

theorem witness_TheSpareEngineTakesOver :
    (∃ s : State,
      let free := s.is (R.CE_RUNCTL_SPARE 7) = true ∧ s.is R.CE7_MOVE_STAT_CARRYING = false ∧ s.move = none;
      ∃ n : Nat, (s.engs.length = 8) ∧ (n < 8) ∧ (¬ free)) ∧
    (∃ s : State,
      let free := s.is (R.CE_RUNCTL_SPARE 7) = true ∧ s.is R.CE7_MOVE_STAT_CARRYING = false ∧ s.move = none;
      ∃ n : Nat, (s.engs.length = 8) ∧ (n < 8) ∧ (free) ∧ (n = 7)) ∧
    (∃ s : State,
      let free := s.is (R.CE_RUNCTL_SPARE 7) = true ∧ s.is R.CE7_MOVE_STAT_CARRYING = false ∧ s.move = none;
      ∃ n : Nat, (s.engs.length = 8) ∧ (n < 8) ∧ (free) ∧ (n < 7) ∧ ((s.eng n).midrun = true)) ∧
    (∃ s : State,
      let free := s.is (R.CE_RUNCTL_SPARE 7) = true ∧ s.is R.CE7_MOVE_STAT_CARRYING = false ∧ s.move = none;
      ∃ n : Nat, (s.engs.length = 8) ∧ (n < 8) ∧ (free) ∧ (n < 7) ∧ ((s.eng n).midrun = false)) ∧
    (∃ t : Nat, ∃ s : State,
      let now := s.at t;
      ∃ m : Sys2Proof.Machine.Move, (s.engs.length = 8) ∧ (s.move = some m) ∧ (m.src < 7) ∧ (m.phase = 1) ∧
      (m.since + 2048 * s.cycleLen ≤ now.tb)) ∧
    (∃ t : Nat, ∃ s : State,
      let now := s.at t;
      ∃ m : Sys2Proof.Machine.Move, (s.engs.length = 8) ∧ (s.move = some m) ∧ (m.src < 7) ∧ (m.phase = 2) ∧
      (m.since + 2048 ≤ now.tb)) :=
  ⟨⟨State.reset, 0, by decide +kernel⟩,
  ⟨(State.reset.set1 (R.CE_RUNCTL_SPARE 7)), 7, by decide +kernel⟩,
  ⟨((State.reset.set1 (R.CE_RUNCTL_SPARE 7)).upEng 5 fun e => {e with midrun := true}), 5, by decide +kernel⟩,
  ⟨(State.reset.set1 (R.CE_RUNCTL_SPARE 7)), 0, by decide +kernel⟩,
  ⟨10000000,
    ({((State.reset.set1 (R.CE_RUNCTL_SPARE 7)).writeBytes (ceBase 2 + 0x4000) [1,2,3,4]).writeBytes (ceBase 7 + 0x4002) [1,2,3,4] with move := some {src := 2, phase := 1, since := 5}}),
    ({ src := 2, phase := 1, since := 5 }), by decide +kernel⟩,
  ⟨10000000,
    ({(State.reset.set1 (R.CE_RUNCTL_SPARE 7)).upEng 2 fun e => {e with prev := 77, runNo := 6, pend := some tk} with move := some {src := 2, phase := 2, since := 5}}),
    ({ src := 2, phase := 2, since := 5 }), by decide +kernel⟩⟩

end Sys2Proof.Tests.Engines

namespace Sys2Proof.Tests.Staging

open Sys2Proof Sys2Proof.Machine

/-! ### Staging: small states, and the hypotheses they meet -/

def w1 : State := (State.reset.put (R.CE_STAGE_ADDR_INDEX 3) 5).put (R.CE_TRC_CTL_NBANK_M1 3) 1

def w2 : State := ((w1.put (R.CE_TRC_BANK 3 0) 0x0403).put (R.BNK_BK_OWN_OWNER 3) 5).put (R.BNK_BK_OWN_OWNER 4) 5

theorem witness_EngineCommandsStageAndSwap :
    (∃ n : Nat, ∃ s : State,
      let p := s.phys n;
      (n < 8) ∧ (s.engs.length = 8) ∧ (s.is (R.CE_SWAP_COEF p) = false)) ∧
    (∃ n : Nat, ∃ s : State,
      let p := s.phys n;
      let e := s.eng p;
      (n < 8) ∧ (s.engs.length = 8) ∧ (s.is (R.CE_SWAP_RECIPE p) = false) ∧ (e.check = none)) ∧
    (∃ n : Nat, ∃ s : State,
      let p := s.phys n;
      (n < 8) ∧ (s.engs.length = 8) ∧ (s.stageBad p = true)) ∧
    (∃ n : Nat, ∃ s : State,
      let p := s.phys n;
      (n < 8) ∧ (s.engs.length = 8) ∧ (s.stageBad p = false) ∧ (s.get (R.CE_STAGE_ADDR_TARGET p) = 0)) ∧
    (∃ n : Nat, ∃ s : State,
      let p := s.phys n;
      (n < 8) ∧ (s.engs.length = 8) ∧ (s.stageBad p = false) ∧ (s.get (R.CE_STAGE_ADDR_TARGET p) = 1)) ∧
    (∃ n : Nat, ∃ s : State,
      let p := s.phys n;
      (n < 8) ∧ (s.engs.length = 8) ∧ (s.stageBad p = false) ∧ (s.get (R.CE_STAGE_ADDR_TARGET p) = 2)) ∧
    (∃ n : Nat, ∃ s : State,
      let p := s.phys n;
      (n < 8) ∧ (s.engs.length = 8) ∧ (s.stageBad p = false) ∧ (s.get (R.CE_STAGE_ADDR_TARGET p) = 3)) ∧
    (∃ n : Nat, ∃ s : State,
      let p := s.phys n;
      (n < 8) ∧ (s.engs.length = 8) ∧ ((∀ j, j ≤ s.get (R.CE_TRC_CTL_NBANK_M1 p) → s.traceBank p j < 96 ∧
      s.get (R.BNK_BK_OWN_OWNER (s.traceBank p j)) = 2 + s.engUnit p))) ∧
    (∃ n : Nat, ∃ s : State,
      let p := s.phys n;
      ∃ j : Nat, (n < 8) ∧ (s.engs.length = 8) ∧ (j ≤ s.get (R.CE_TRC_CTL_NBANK_M1 p)) ∧
      ((96 ≤ s.traceBank p j ∨ s.get (R.BNK_BK_OWN_OWNER (s.traceBank p j)) ≠ 2 + s.engUnit p))) ∧
    (∃ n : Nat, ∃ s : State,
      let p := s.phys n;
      (n < 8) ∧ (s.engs.length = 8) ∧ (s.is (R.CE_TRC_STAT_ARMED p) = true) ∧
      (s.is (R.CE_TRC_STAT_TRIGGERED p) = false) ∧ (s.is (R.CE_TRC_STAT_DONE p) = false)) ∧
    (∃ t : Nat, ∃ n : Nat, ∃ s : State,
      let now := s.at t;
      ∃ inactive : Bool, ∃ t0 : Nat,
      let st := if inactive then 1 - s.get (R.CE_STAT_RSTORE n) else s.get (R.CE_STAT_RSTORE n);
      (n < 8) ∧ (s.engs.length = 8) ∧ ((s.eng n).check = some (inactive, t0)) ∧
      (t0 + s.recipeCheckTime n st ≤ now.tb) ∧ (inactive = true) ∧ ((s.recipeCheck n st).1 = 0)) ∧
    (∃ t : Nat, ∃ n : Nat, ∃ s : State,
      let now := s.at t;
      ∃ inactive : Bool, ∃ t0 : Nat,
      let st := if inactive then 1 - s.get (R.CE_STAT_RSTORE n) else s.get (R.CE_STAT_RSTORE n);
      (n < 8) ∧ (s.engs.length = 8) ∧ ((s.eng n).check = some (inactive, t0)) ∧
      (t0 + s.recipeCheckTime n st ≤ now.tb) ∧ (inactive = true) ∧ ((s.recipeCheck n st).1 ≠ 0)) ∧
    (∃ t : Nat, ∃ n : Nat, ∃ s : State,
      let now := s.at t;
      ∃ inactive : Bool, ∃ t0 : Nat,
      let st := if inactive then 1 - s.get (R.CE_STAT_RSTORE n) else s.get (R.CE_STAT_RSTORE n);
      (n < 8) ∧ (s.engs.length = 8) ∧ ((s.eng n).check = some (inactive, t0)) ∧
      (t0 + s.recipeCheckTime n st ≤ now.tb) ∧ (inactive = false) ∧ ((s.recipeCheck n st).1 = 0) ∧
      (s.tickBad n = false) ∧ (s.is (R.CE_SWAP_RECIPE n) = false)) :=
  ⟨⟨3, w1, by decide +kernel⟩,
  ⟨3, w1, by decide +kernel⟩,
  ⟨3, (w2.put (R.CE_STAGE_ADDR_TARGET 3) 3), by decide +kernel⟩,
  ⟨3, w1, by decide +kernel⟩,
  ⟨3, (w2.put (R.CE_STAGE_ADDR_TARGET 3) 1), by decide +kernel⟩,
  ⟨3, (w2.put (R.CE_STAGE_ADDR_TARGET 3) 2), by decide +kernel⟩,
  ⟨3, ((w2.put (R.CE_STAGE_ADDR_INDEX 3) 0).put (R.CE_STAGE_ADDR_TARGET 3) 3), by decide +kernel⟩,
  ⟨3, (w2.put (R.CE_STAGE_ADDR_TARGET 3) 1), by decide +kernel⟩,
  ⟨3, w1, 0, by decide +kernel⟩,
  ⟨3, ((w2.put (R.CE_STAGE_ADDR_TARGET 3) 3).set1 (R.CE_TRC_STAT_ARMED 3)), by decide +kernel⟩,
  ⟨1000000, 3,
    (((w2.upEng 3 fun e => {e with check := some (true, 5)}).set1 (R.CE_SWAP_RECIPE 3)).put (R.CE_RCOUNT_B 3) 2),
    true, 5, by decide +kernel⟩,
  ⟨1000000, 3, ((w2.upEng 3 fun e => {e with check := some (true, 5)}).set1 (R.CE_SWAP_RECIPE 3)), true, 5,
    by decide +kernel⟩,
  ⟨1000000, 3, (((w2.upEng 3 fun e => {e with check := some (false, 5)})).put (R.CE_RCOUNT_A 3) 2), false, 5,
    by decide +kernel⟩⟩

end Sys2Proof.Tests.Staging

namespace Sys2Proof.Tests.Groups

open Sys2Proof Sys2Proof.Machine

/-! ### Groups: small states, and the hypotheses they meet -/

/-- An instant. -/
abbrev T : Nat := 1000000

def per : Period :=
  { start := 1000, stop := 21000, cnt := 7, v := 0x500000, next := { v := 0x500000, k := 1}, grid := false }

def per2 : Period := { start := 21000, stop := 41000, cnt := 8, v := 0x500000, next := { v := 0x500000, k := 2} }

def per3 : Period := { start := 1021000, stop := 1041000, cnt := 8, v := 0x500000, next := { v := 0x500000, k := 2} }

def gr (s : State) : State :=
  (((((s.put (R.PWM_CH_CFG_GROUP 13) 5).set1 (R.PWM_CH_CFG_EN 13)).put (R.PWM_CH_DUTY_SH 13) 777).put (R.PWM_PG_PERIOD_SH 5) 0x600000).set1 (R.PWM_PG_CTL_EN 5)).put (R.PWM_PG_PERIOD_SH 3) 0x600001

def s1 : State := gr State.reset

def s2 (a : Nat) : State :=
  (s1.upGroup 5 fun x => { x with queue := [⟨a, some (5, [13,20].map fun ch => (ch, 2^40 * ch + 7 * ch + 1))⟩] }).set1 (R.PWM_PG_LOADALL 5)

def s3 (b : Bool) : State := (s1.upGroup 5 fun x => { x with loaded := b, blockAt := some 3, queue := [⟨5, none⟩] })

def s4 (p : Period) : State := (s1.upGroup 5 fun x => { x with periods := [p] })

def s5 : State :=
  ((s1.upGroup 5 fun x => { x with periods := [per,per2], running := true, trg := [3,3,3,77] }).put (R.PWM_PG_CTL_TRGEN 5) 8)

def s6 (e : Nat) : State :=
  (s1.upGroup 5 fun x => { x with enReq := some e, blockAt := some 1 }).set1 (R.PWM_PG_STAT_BLOCKED 5)

def s7 (e : Nat) : State := (s6 e).put (R.PWM_PG_CTL_EN 5) 0

theorem witness_GroupsLoadAndRunTheirPeriods :
    (∃ s : State, ∃ ch : Nat, (s.groups.length = 8) ∧ (s.chans.length = 48) ∧ (ch < 48) ∧
      (s.is (R.PWM_CH_CFG_EN ch) = false)) ∧
    (∃ t : Nat, ∃ s : State,
      let now := s.at t;
      let quiet := ∀ l, l < 12 → s.get (R.LNE_LN_STAT_FS_CAUSE l) = 0 ∧ s.fsOn (96 + l) = false;
      let eff (x : Nat) : Nat := if s.clk.dll then (x + 639) / 640 * 640 else x;
      ∃ g : Nat, ∃ at_ : Nat, ∃ per : Nat, ∃ chs : List Nat, ∃ f : Nat → Nat, ∃ rest : List Cross,
      (s.groups.length = 8) ∧ (s.chans.length = 48) ∧ (g < 8) ∧ (quiet) ∧ ((s.group g).queue = ⟨at_, some (per,
      (chs : List Nat).map fun ch => (ch, (f : Nat → Nat) ch))⟩ :: rest) ∧ (now.tb < eff at_)) ∧
    (∃ t : Nat, ∃ s : State,
      let now := s.at t;
      let quiet := ∀ l, l < 12 → s.get (R.LNE_LN_STAT_FS_CAUSE l) = 0 ∧ s.fsOn (96 + l) = false;
      let eff (x : Nat) : Nat := if s.clk.dll then (x + 639) / 640 * 640 else x;
      ∃ g : Nat, ∃ at_ : Nat, ∃ per : Nat, ∃ chs : List Nat, ∃ f : Nat → Nat, ∃ rest : List Cross,
      (s.groups.length = 8) ∧ (s.chans.length = 48) ∧ (g < 8) ∧ (quiet) ∧ ((s.group g).queue = ⟨at_, some (per,
      (chs : List Nat).map fun ch => (ch, (f : Nat → Nat) ch))⟩ :: rest) ∧ (eff at_ ≤ now.tb) ∧
      ((s.group g).periods = []) ∧ (rest = [])) ∧
    (∃ t : Nat, ∃ s : State,
      let now := s.at t;
      let quiet := ∀ l, l < 12 → s.get (R.LNE_LN_STAT_FS_CAUSE l) = 0 ∧ s.fsOn (96 + l) = false;
      ∃ g : Nat, ∃ at_ : Nat, (s.groups.length = 8) ∧ (s.chans.length = 48) ∧ (g < 8) ∧ (quiet) ∧
      ((s.group g).queue = [⟨at_, none⟩]) ∧ (at_ ≤ now.tb)) ∧
    (∃ t : Nat, ∃ s : State,
      let now := s.at t;
      let quiet := ∀ l, l < 12 → s.get (R.LNE_LN_STAT_FS_CAUSE l) = 0 ∧ s.fsOn (96 + l) = false;
      ∃ g : Nat, ∃ e : Nat, (s.groups.length = 8) ∧ (s.chans.length = 48) ∧ (g < 8) ∧ ((s.group g).enReq = some e) ∧
      (now.tb < e) ∧ (quiet)) ∧
    (∃ t : Nat, ∃ s : State,
      let now := s.at t;
      ∃ g : Nat, ∃ e : Nat, (s.groups.length = 8) ∧ (s.chans.length = 48) ∧ (g < 8) ∧ ((s.group g).enReq = some e) ∧
      (e ≤ now.tb) ∧ (s.is (R.PWM_PG_CTL_EN g) = false)) ∧
    (∃ t : Nat, ∃ s : State,
      let now := s.at t;
      ∃ g : Nat, ∃ e : Nat, (s.groups.length = 8) ∧ (s.chans.length = 48) ∧ (g < 8) ∧ ((s.group g).enReq = some e) ∧
      (e ≤ now.tb) ∧ (s.is (R.PWM_PG_CTL_EN g) = true) ∧ ((s.group g).enAt = none) ∧ ((s.group g).perAt = none) ∧
      (s.blocked g = (s.group g).blockAt.isSome) ∧ (s.is (R.PWM_PG_STAT_BLOCKED g) = s.blocked g)) ∧
    (∃ t : Nat, ∃ s : State,
      let now := s.at t;
      let quiet := ∀ l, l < 12 → s.get (R.LNE_LN_STAT_FS_CAUSE l) = 0 ∧ s.fsOn (96 + l) = false;
      ∃ g : Nat, ∃ p : Sys2Proof.Machine.Period, (s.groups.length = 8) ∧ (s.chans.length = 48) ∧ (g < 8) ∧
      ((s.group g).running = false) ∧ ((s.group g).periods = [p]) ∧ (now.tb < p.start) ∧ (quiet)) ∧
    (∃ t : Nat, ∃ s : State,
      let now := s.at t;
      ∃ g : Nat, ∃ p : Sys2Proof.Machine.Period, (s.groups.length = 8) ∧ (s.chans.length = 48) ∧ (g < 8) ∧
      ((s.group g).running = false) ∧ ((s.group g).periods = [p]) ∧ (p.start ≤ now.tb)) ∧
    (∃ t : Nat, ∃ s : State,
      let now := s.at t;
      ∃ g : Nat, ∃ p : Sys2Proof.Machine.Period, ∃ q : Sys2Proof.Machine.Period, ∃ rest, (s.groups.length = 8) ∧
      (s.chans.length = 48) ∧ (g < 8) ∧ ((s.group g).running = true) ∧ ((s.group g).periods = p :: q :: rest) ∧
      (q.start ≤ now.tb)) ∧
    (∃ t : Nat, ∃ s : State,
      let now := s.at t;
      let eff (x : Nat) : Nat := if s.clk.dll then (x + 639) / 640 * 640 else x;
      ∃ g : Nat, ∃ n : Nat, ∃ p : Sys2Proof.Machine.Period, ∃ rest,
      let v := (s.group g).trg.getD n 0;
      (s.groups.length = 8) ∧ (s.chans.length = 48) ∧ (g < 8) ∧ (n < 4) ∧ ((s.group g).periods = p :: rest) ∧
      ((s.group g).running = true) ∧ ((s.group g).fired.length = 4) ∧ (bit (s.get (R.PWM_PG_CTL_TRGEN g)) n = true) ∧
      (v < p.stop - p.start) ∧ (eff (p.start + v) ≤ now.tb)) ∧
    (∃ s : State, ∃ ch : Nat, (s.groups.length = 8) ∧ (s.chans.length = 48) ∧ (ch < 48) ∧
      (s.is (R.PWM_CH_CFG_EN ch) = true)) ∧
    (∃ s : State, ∃ g : Nat, ∃ n : Nat, ∃ p : Sys2Proof.Machine.Period, ∃ rest,
      let v := (s.group g).trg.getD n 0;
      (s.groups.length = 8) ∧ (s.chans.length = 48) ∧ (g < 8) ∧ (n < 4) ∧ ((s.group g).periods = p :: rest) ∧
      ((s.group g).running = true) ∧ ((s.group g).fired.length = 4) ∧
      (bit (s.get (R.PWM_PG_CTL_TRGEN g)) n = false ∨ p.stop - p.start ≤ v)) :=
  ⟨⟨s1, 5, by decide +kernel⟩,
  ⟨T, (s2 1000300), 5, 1000300, 5, ([13, 20]), (fun ch => 2 ^ 40 * ch + 7 * ch + 1), ([]), by decide +kernel⟩,
  ⟨T, (s2 5), 5, 5, 5, ([13, 20]), (fun ch => 2 ^ 40 * ch + 7 * ch + 1), ([]), by decide +kernel⟩,
  ⟨T, (s3 true), 5, 5, by decide +kernel⟩,
  ⟨T, (s6 1000300), 5, 1000300, by decide +kernel⟩,
  ⟨T, (s7 990000), 5, 990000, by decide +kernel⟩,
  ⟨T, (s6 990000), 5, 990000, by decide +kernel⟩,
  ⟨T, (s4 per3), 5, per3, by decide +kernel⟩,
  ⟨T, (s4 per), 5, per, by decide +kernel⟩,
  ⟨T, s5, 5, per, per2, ([]), by decide +kernel⟩,
  ⟨T, s5, 5, 3, per, ([per2]), by decide +kernel⟩,
  ⟨s5, 13, by decide +kernel⟩,
  ⟨(s5.put (R.PWM_PG_CTL_TRGEN 5) 0), 5, 3, per, ([per2]), by decide +kernel⟩⟩

end Sys2Proof.Tests.Groups

namespace Sys2Proof.Tests.Edges

open Sys2Proof Sys2Proof.Machine

/-! ### Edges: small states, and the hypotheses they meet -/

/-- An instant. -/
abbrev T : Nat := 1000000

def e0 (x : Nat) : Edge := { time := x, on := true, cmd := x }

def l0 : State :=
  ({State.reset with clk := {State.reset.clk with lanes := true}}.set1 (R.CLK_OUT_CFG_EN 4)).set1 (R.LNE_LN_CTL_EN 3)

def l1 (x : Nat) : State := l0.upChan 13 fun c => {c with pend := [e0 x]}

def l3 : State :=
  (l0.upLane 3 fun x => {x with qfullEnd := some 900000}).put (R.LNE_LN_STAT_FS_CAUSE 3) 0xC |>.put (R.FMX_SRC_STAT 3) 8

theorem witness_EdgesGoOutAndExecute :
    (∃ s : State, ∃ ch : Nat, (s.lanes.length = 12) ∧ (s.chans.length = 48) ∧ (ch < 48)) ∧
    (∃ t : Nat, ∃ s : State,
      let now := s.at t;
      ∃ l : Nat, ∃ x : Nat, (s.lanes.length = 12) ∧ (s.chans.length = 48) ∧ (l < 12) ∧
      ((s.lane l).qfullEnd = some x) ∧ (x ≤ now.tb)) ∧
    (∃ s : State, ∃ l : Nat, (s.lanes.length = 12) ∧ (s.chans.length = 48) ∧ (l < 12) ∧ (s.laneSends l = true)) ∧
    (∃ s : State, ∃ l : Nat, (s.lanes.length = 12) ∧ (s.chans.length = 48) ∧ (l < 12) ∧ (s.laneSends l = false)) :=
  ⟨⟨(l1 1500000), 5, by decide +kernel⟩,
  ⟨T, l3, 3, 900000, by decide +kernel⟩,
  ⟨(l1 1500000), 3, by decide +kernel⟩,
  ⟨(l1 1500000), 5, by decide +kernel⟩⟩

end Sys2Proof.Tests.Edges

namespace Sys2Proof.Tests.FaultMatrix

open Sys2Proof Sys2Proof.Machine

/-! ### FaultMatrix: small states, and the hypotheses they meet -/

/-- An instant. -/
abbrev T : Nat := 1000000

def f0 : State := State.reset.set1 (R.FMX_FLT_CFG_EN 5)

def f1 : State := f0.put (R.FMX_SRC_STAT 0) 32

def f2 : State := (((f0.put (R.FMX_PG_ACT 3 0) 0x300000)).set1 (R.PWM_CH_CFG_EN 13)).put (R.PWM_CH_CFG_GROUP 13) 3

def f3 (b : Nat) : State :=
  ((f0.upGroup 3 fun x => {x with act := 2, holds := [⟨7,2,false⟩]}).put (R.FMX_SRC_CLASS 0) 0x80).put (R.FMX_SRC_STAT 0) b

theorem witness_FaultSourcesTakeTheirActions :
    (∃ t : Nat, ∃ s : State,
      let now := s.at t;
      ∃ k : Nat, ∃ level : Bool, ∃ since : Nat,
      let p := (s.fltPins.getD k {}).edge level (min since now.tb);
      let en := s.is (R.FMX_FLT_CFG_EN k);
      let pulse := en = true ∧ now.fltPulse k p = true;
      let ended := en = false ∨ p.since + 256 ≤ now.tb;
      let on := (en = true ∧ ended ∧ now.fltHeld k p = true) ∨ (pulse ∧ ¬ ended);
      (s.groups.length = 8) ∧ (s.chans.length = 48) ∧ (s.fltPins.length = 16) ∧ (k < 16) ∧ (¬ pulse) ∧
      (((¬ ended) ∨ (ended ∧ ¬ on ∧ s.fsOn k = false) ∨ (on ∧ s.fsOn k = true)))) ∧
    (∃ t : Nat, ∃ s : State,
      let now := s.at t;
      ∃ k : Nat, ∃ level : Bool, ∃ since : Nat,
      let p := (s.fltPins.getD k {}).edge level (min since now.tb);
      let en := s.is (R.FMX_FLT_CFG_EN k);
      let pulse := en = true ∧ now.fltPulse k p = true;
      let ended := en = false ∨ p.since + 256 ≤ now.tb;
      let on := (en = true ∧ ended ∧ now.fltHeld k p = true) ∨ (pulse ∧ ¬ ended);
      (s.groups.length = 8) ∧ (s.chans.length = 48) ∧ (s.fltPins.length = 16) ∧ (k < 16) ∧ (ended) ∧ (¬ on) ∧
      (s.fsOn k = true)) ∧
    (∃ t : Nat, ∃ s : State,
      let now := s.at t;
      ∃ k : Nat, ∃ level : Bool, ∃ since : Nat,
      let p := (s.fltPins.getD k {}).edge level (min since now.tb);
      let en := s.is (R.FMX_FLT_CFG_EN k);
      let pulse := en = true ∧ now.fltPulse k p = true;
      let ended := en = false ∨ p.since + 256 ≤ now.tb;
      (s.groups.length = 8) ∧ (s.chans.length = 48) ∧ (s.fltPins.length = 16) ∧ (k < 16) ∧ (pulse) ∧ (ended) ∧
      (s.fsOn k = false)) ∧
    (∃ t : Nat, ∃ s : State,
      let now := s.at t;
      ∃ k : Nat, ∃ level : Bool, ∃ since : Nat,
      let p := (s.fltPins.getD k {}).edge level (min since now.tb);
      let en := s.is (R.FMX_FLT_CFG_EN k);
      let pulse := en = true ∧ now.fltPulse k p = true;
      let ended := en = false ∨ p.since + 256 ≤ now.tb;
      let on := (en = true ∧ ended ∧ now.fltHeld k p = true) ∨ (pulse ∧ ¬ ended);
      (s.groups.length = 8) ∧ (s.chans.length = 48) ∧ (s.fltPins.length = 16) ∧ (k < 16) ∧ (on) ∧ (s.fsOn k = false) ∧
      ((∀ g, g < 8 → s.mappedAction g k = 0))) ∧
    (∃ t : Nat, ∃ s : State,
      let now := s.at t;
      ∃ k : Nat, ∃ level : Bool, ∃ since : Nat,
      let p := (s.fltPins.getD k {}).edge level (min since now.tb);
      let en := s.is (R.FMX_FLT_CFG_EN k);
      let pulse := en = true ∧ now.fltPulse k p = true;
      let ended := en = false ∨ p.since + 256 ≤ now.tb;
      let on := (en = true ∧ ended ∧ now.fltHeld k p = true) ∨ (pulse ∧ ¬ ended);
      ∃ g : Nat, (s.groups.length = 8) ∧ (s.chans.length = 48) ∧ (s.fltPins.length = 16) ∧ (k < 16) ∧ (on) ∧
      (s.fsOn k = false) ∧ (g < 8) ∧ (s.mappedAction g k ≠ 0) ∧ ((s.group g).act = 0) ∧ ((∀ l,
      l < 12 → s.mappedAction g (96 + l) = 0 ∨ (s.lane l).edges = []))) ∧
    (∃ s : State, ∃ g : Nat, (s.groups.length = 8) ∧ (s.chans.length = 48) ∧ (s.fltPins.length = 16) ∧ (g < 8) ∧
      ((s.group g).holds.any (fun h => s.fsLatch h.src && h.act ≠ 1 && s.fsOn h.src) = true)) ∧
    (∃ s : State, ∃ g : Nat, (s.groups.length = 8) ∧ (s.chans.length = 48) ∧ (s.fltPins.length = 16) ∧ (g < 8) ∧
      ((s.group g).holds ≠ []) ∧
      ((s.group g).holds.all (fun h => !h.mute && s.fsLatch h.src && h.act ≠ 1 && !s.fsOn h.src) = true) ∧ ((∀ l,
      l < 12 → s.mappedAction g (96 + l) = 0))) :=
  ⟨⟨T, f0, 5, false, 999999, by decide +kernel⟩,
  ⟨T, f1, 5, true, 5, by decide +kernel⟩,
  ⟨T,
    ({ (State.reset.set1 (R.FMX_FLT_CFG_EN 5)) with fltPins := State.reset.fltPins.set 5 { level := false, since := 5 } }),
    5, true, 5000, by decide +kernel⟩,
  ⟨T, f0, 5, false, 5, by decide +kernel⟩,
  ⟨T, f2, 5, false, 5, 3, by decide +kernel⟩,
  ⟨(f3 0x80), 3, by decide +kernel⟩,
  ⟨(f3 0), 3, by decide +kernel⟩⟩

end Sys2Proof.Tests.FaultMatrix

namespace Sys2Proof.Tests.Lanes

open Sys2Proof Sys2Proof.Machine

/-! ### Lanes: small states, and the hypotheses they meet -/

/-- An instant. -/
abbrev T : Nat := 1000000

def l0 : State :=
  ((({State.reset with clk := {State.reset.clk with lanes := true}}.set1 (R.CLK_OUT_CFG_EN 4)).set1 (R.LNE_LN_CTL_EN 3)).put (R.LNE_LN_STAT_STATE 3) 2).put (R.LNE_LN_BLANK 3) 100

def l2 (r : Train) : State := l0.upLane 3 fun x => {x with train := some r}

def l3 : State :=
  ((l0.upLane 3 fun x => {x with diag := some (5,3), diagAt := some 5, cfgAt := some 5, cfgWait := true}).put (R.LNE_LN_DESAT_LATCHED 3) 15).put R.LNE_UP 0xfff

theorem witness_LanesFollowTheirLinkAndService :
    (∃ t : Nat, ∃ l : Nat, ∃ s : State,
      let now := s.at t;
      let up := s.get (R.LNE_LN_STAT_STATE l) = 2;
      let en := s.is (R.LNE_LN_CTL_EN l) = true;
      (l < 12) ∧ (s.lanes.length = 12) ∧ (s.chans.length = 48) ∧ (en) ∧ (up) ∧ ((∀ x,
      (s.lane l).goodAt = some x → x + 6144 ≤ now.tb))) ∧
    (∃ l : Nat, ∃ s : State, ∃ bs : List Sys2Proof.Byte, (l < 12) ∧ (s.lanes.length = 12) ∧ (s.chans.length = 48) ∧
      (s.laneSends l = true) ∧ (bs.length ≠ 16 ∨ crc8 ((bs.drop 1).take 14) ≠ leAt bs 15 1)) ∧
    (∃ l : Nat, ∃ s : State, ∃ bs : List Sys2Proof.Byte, (l < 12) ∧ (s.lanes.length = 12) ∧ (s.chans.length = 48) ∧
      (s.laneSends l = true) ∧ (bs.length = 16) ∧ (crc8 ((bs.drop 1).take 14) = leAt bs 15 1)) ∧
    (∃ l : Nat, ∃ s : State, (l < 12) ∧ (s.lanes.length = 12) ∧ (s.chans.length = 48) ∧
      (s.is (R.LNE_LN_CTL_EN l) = false)) ∧
    (∃ l : Nat, ∃ s : State, (l < 12) ∧ (s.lanes.length = 12) ∧ (s.chans.length = 48) ∧ ((s.lane l).train = none) ∧
      (s.laneBlocked l = true ∨ s.muted l = true)) ∧
    (∃ l : Nat, ∃ s : State, (l < 12) ∧ (s.lanes.length = 12) ∧ (s.chans.length = 48) ∧ ((s.lane l).train = none) ∧
      (s.laneBlocked l = false) ∧ (s.muted l = false)) ∧
    (∃ t : Nat, ∃ l : Nat, ∃ s : State,
      let now := s.at t;
      ∃ r : Sys2Proof.Machine.Train, ∃ e : Nat, (l < 12) ∧ (s.lanes.length = 12) ∧ (s.chans.length = 48) ∧
      ((s.lane l).train = some r) ∧ ((r.err ≠ 0 ∧ e = r.err) ∨ (r.err = 0 ∧ r.step = 1 ∧ r.from_ + 3200000 ≤ now.tb ∧
      e = 1) ∨ (r.err = 0 ∧ (s.lane l).cmds = [] ∧ (r.step = 5 ∧ r.at_ + 32000 ≤ now.tb ∨ r.step = 6 ∧
      r.at_ + 160000 ≤ now.tb) ∧ e = 5))) ∧
    (∃ l : Nat, ∃ s : State, ∃ r : Sys2Proof.Machine.Train, (l < 12) ∧ (s.lanes.length = 12) ∧ (s.chans.length = 48) ∧
      ((s.lane l).train = some r) ∧ (r.err = 0) ∧ (7 ≤ r.step)) ∧
    (∃ t : Nat, ∃ l : Nat, ∃ s : State,
      let now := s.at t;
      ∃ r : Sys2Proof.Machine.Train, (l < 12) ∧ (s.lanes.length = 12) ∧ (s.chans.length = 48) ∧
      ((s.lane l).train = some r) ∧ (r.err = 0) ∧ (r.step < 7) ∧ (now.tb < r.from_ + 3200000) ∧ (r.from_ ≤ r.at_) ∧
      ((r.step = 5 → now.tb < r.at_ + 32000)) ∧ ((r.step = 6 → now.tb < r.at_ + 160000))) ∧
    (∃ l : Nat, ∃ s : State,
      let up := s.get (R.LNE_LN_STAT_STATE l) = 2;
      ∃ i : Nat, (l < 12) ∧ (s.lanes.length = 12) ∧ (s.chans.length = 48) ∧ (i < 4) ∧
      (¬ up ∨ s.laneBlocked l = false)) ∧
    (∃ t : Nat, ∃ l : Nat, ∃ s : State,
      let now := s.at t;
      let up := s.get (R.LNE_LN_STAT_STATE l) = 2;
      let idle := (s.lane l).soft = [] ∧ (s.lane l).edges = [] ∧ (s.lane l).cmds = [] ∧ (s.lane l).time = none;
      let free (n : Nat) := s.laneSends l = true ∧ idle ∧ charAt (max now.tb (s.lane l).busy) = now.tb ∧ ∀ e,
          s.nextSend l = some e → now.tb + 128 * n ≤ e;
      ∃ i : Nat, (l < 12) ∧ (s.lanes.length = 12) ∧ (s.chans.length = 48) ∧ (i < 4) ∧ (up) ∧
      (s.laneBlocked l = true) ∧ (free 4)) ∧
    (∃ t : Nat, ∃ l : Nat, ∃ s : State,
      let now := s.at t;
      ∃ m : Nat × Nat, ∃ t0 : Nat, ∃ i : Nat, (l < 12) ∧ (s.lanes.length = 12) ∧ (s.chans.length = 48) ∧
      ((s.lane l).diag = some m) ∧ ((s.lane l).diagAt = some t0) ∧
      (t0 + (if (s.lane l).diagBusy then 160000 * m.2 + 1600000 else 320000) ≤ now.tb) ∧ (i < 4)) ∧
    (∃ t : Nat, ∃ l : Nat, ∃ s : State,
      let now := s.at t;
      ∃ m : Nat × Nat, ∃ t0 : Nat, (l < 12) ∧ (s.lanes.length = 12) ∧ (s.chans.length = 48) ∧
      ((s.lane l).diag = some m) ∧ ((s.lane l).diagAt = some t0) ∧ (now.tb < t0 + 320000)) ∧
    (∃ t : Nat, ∃ l : Nat, ∃ s : State,
      let now := s.at t;
      let up := s.get (R.LNE_LN_STAT_STATE l) = 2;
      let idle := (s.lane l).soft = [] ∧ (s.lane l).edges = [] ∧ (s.lane l).cmds = [] ∧ (s.lane l).time = none;
      let free (n : Nat) := s.laneSends l = true ∧ idle ∧ charAt (max now.tb (s.lane l).busy) = now.tb ∧ ∀ e,
          s.nextSend l = some e → now.tb + 128 * n ≤ e;
      (l < 12) ∧ (s.lanes.length = 12) ∧ (s.chans.length = 48) ∧ (up) ∧ (free 6) ∧ ((s.lane l).train = none)) ∧
    (∃ l : Nat, ∃ s : State,
      let up := s.get (R.LNE_LN_STAT_STATE l) = 2;
      (l < 12) ∧ (s.lanes.length = 12) ∧ (s.chans.length = 48) ∧ (¬ up)) ∧
    (∃ l : Nat, ∃ s : State, ∃ x : Nat, (l < 12) ∧ (s.lanes.length = 12) ∧ (s.chans.length = 48) ∧
      ((s.lane l).cfgAt = some x)) :=
  ⟨⟨T, 3, l0, by decide +kernel⟩,
  ⟨3, l0, ([]), by decide +kernel⟩,
  ⟨3, l0, ([0xbc#8, 0x00#8, 0x05#8, 0x06#8, 0x07#8, 0x08#8, 0x01#8, 0x02#8, 0x03#8, 0x04#8, 0x00#8, 0x00#8, 0x00#8,
    0x00#8, 0x00#8, 0x97#8]), by decide +kernel⟩,
  ⟨3, (l0.put (R.LNE_LN_CTL_EN 3) 0), by decide +kernel⟩,
  ⟨3, l0, by decide +kernel⟩,
  ⟨3,
    ({ (((l0.set1 (R.PWM_PG_CTL_EN 5)).set1 (R.MLD_SH_SRC_LOADED 3)).put R.MLD_QUIESCE 0) with mld := { l0.mld with own := [{ kind := .lane, idx := 3, sheet := 3 }, { kind := .group, idx := 5, sheet := 3 }] } }),
    by decide +kernel⟩,
  ⟨5000000, 3, (l2 {step := 1, from_ := 5, at_ := 5}),
    ({ step := 1, from_ := 5, at_ := 5, n := 0, first := 0, lo := 0, hi := 0, sum := 0, tries := 0, zero := false, cfg := 0, skip := false, err := 0 }),
    1, by decide +kernel⟩,
  ⟨3, (l2 {step := 7, skip := true, from_ := 999000, at_ := 999000}),
    ({ step := 7, skip := true, from_ := 999000, at_ := 999000 }), by decide +kernel⟩,
  ⟨T, 3, (l2 {step := 6, from_ := 900000, at_ := 900000}), ({ step := 6, from_ := 900000, at_ := 900000 }),
    by decide +kernel⟩,
  ⟨3, (l0.put (R.LNE_LN_STAT_STATE 3) 0), 3, by decide +kernel⟩,
  ⟨1000064, 3, l0, 3,
    by dsimp only; repeat' (first | apply And.intro | exact fun e he => nomatch he | decide +kernel)⟩,
  ⟨T, 3, l3, (5, 3), 5, 3, by decide +kernel⟩,
  ⟨10000, 3, l3, (5, 3), 5, by decide +kernel⟩,
  ⟨1000064, 3, l0, by dsimp only; repeat' (first | apply And.intro | exact fun e he => nomatch he | decide +kernel)⟩,
  ⟨3, (l0.put (R.LNE_LN_STAT_STATE 3) 0), by decide +kernel⟩,
  ⟨3, l3, 5, by decide +kernel⟩⟩

end Sys2Proof.Tests.Lanes

namespace Sys2Proof.Tests.Trackers

open Sys2Proof Sys2Proof.Machine

/-! ### Trackers: small states, and the hypotheses they meet -/

/-- An instant. -/
abbrev T : Nat := 1000000

def k0 : Tracker :=
  { due := [(20000, 0x3F000000, 0xBF000000), (30000,0,0)], prev := some (10000, 0xBF000000, 0xBE000000), armed := true }

def s1 : State := ((State.reset.upTrk 2 fun _ => k0).put (R.PHT_PT_TIMING_TIMEOUT 2) 1).put (R.PHT_PT_CFG_SRC 2) 2

def s2 : State :=
  (s1.upTrk 2 fun _ => { k0 with edge := some (5000 : Int), fresh := true, side := some (5, true) }).put (R.PHT_PT_TIMING_MININT 2) 3

def s3 : State :=
  ((s1.upTrk 2 fun _ => { k0 with edge := some (-3000000), fresh := true, side := some (5, false) }).put (R.PHT_PT_TIMING_MININT 2) 0).set1 (R.PHT_PT_STAT_AMP_OK 2)

def s1' : State := (State.reset.upTrk 2 fun _ => k0).put (R.PHT_PT_TIMING_TIMEOUT 2) 1

def s2' : State :=
  (s1'.upTrk 2 fun _ => { k0 with edge := some (5000 : Int), fresh := true, side := some (5, true) }).put (R.PHT_PT_TIMING_MININT 2) 3

def s3' : State :=
  ((s1'.upTrk 2 fun _ => { k0 with edge := some (-3000000), fresh := true, side := some (5, false) }).put (R.PHT_PT_TIMING_MININT 2) 0).set1 (R.PHT_PT_STAT_AMP_OK 2)

def q (h : Nat) : State :=
  { ((((s3'.put R.PHT_OUT_DIV_NUM 1).put R.PHT_OUT_DIV_DEN 64).set1 R.PHT_OUT_CTL_EN).put R.PHT_OUT_CTL_SEL 2).upTrk 2 fun x => { x with hold := h } with quad := { State.reset.quad with low := false } }

theorem witness_TrackersValidateTheirEdges :
    (∃ p : Nat, ∃ s : State,
      let k := s.trk p;
      ∃ x : Int × Nat × Nat, ∃ rest : List (Int × Nat × Nat), ∃ y : Int × Nat × Nat, ∃ c : Int × Int, ∃ te : Int,
      (p < 4) ∧ (s.trks.length = 4) ∧ (s.is (R.PHT_PT_STAT_CFGERR p) = false) ∧ (s.get (R.PHT_PT_CFG_SRC p) ≠ 0) ∧
      (s.get (R.PHT_PT_CFG_SRC p) ≠ 3) ∧ (k.due = x :: rest) ∧ (k.prev = some y) ∧
      (crossing y.1 y.2.1 y.2.2 x.1 (fcanon x.2.1) (fcanon x.2.2) = some c) ∧ (k.armed = true) ∧
      (flt y.2.1 0 = true) ∧ (fge (fcanon x.2.1) 0 = true) ∧ ((fval x.2.1).isSome = true) ∧
      ((fval x.2.2).isSome = true) ∧ (k.edge = some te) ∧ (c.1 - te < 1600000 * s.get (R.PHT_PT_TIMING_MININT p))) ∧
    (∃ p : Nat, ∃ s : State,
      let k := s.trk p;
      ∃ x : Int × Nat × Nat, ∃ rest : List (Int × Nat × Nat), ∃ y : Int × Nat × Nat, ∃ c : Int × Int, (p < 4) ∧
      (s.trks.length = 4) ∧ (s.is (R.PHT_PT_STAT_CFGERR p) = false) ∧ (s.get (R.PHT_PT_CFG_SRC p) ≠ 0) ∧
      (s.get (R.PHT_PT_CFG_SRC p) ≠ 3) ∧ (k.due = x :: rest) ∧ (k.prev = some y) ∧
      (crossing y.1 y.2.1 y.2.2 x.1 (fcanon x.2.1) (fcanon x.2.2) = some c) ∧ (k.armed = true) ∧
      (flt y.2.1 0 = true) ∧ (fge (fcanon x.2.1) 0 = true) ∧ ((fval x.2.1).isSome = true) ∧
      ((fval x.2.2).isSome = true) ∧ ((∀ te,
      k.edge = some te → 1600000 * s.get (R.PHT_PT_TIMING_MININT p) ≤ c.1 - te))) :=
  ⟨⟨2, s2, (20000, 1056964608, 3204448256), ([(30000, 0, 0)]), (10000, 3204448256, 3187671040), (15000,
    -99035203142830421991929937920), 5000, by decide +kernel⟩,
  ⟨2, s1, (20000, 1056964608, 3204448256), ([(30000, 0, 0)]), (10000, 3204448256, 3187671040), (15000,
    -99035203142830421991929937920), by decide +kernel⟩⟩

theorem witness_TrackersFollowTheirInput :
    (∃ p : Nat, ∃ s : State,
      let k := s.trk p;
      let src := s.get (R.PHT_PT_CFG_SRC p);
      let off := s.is (R.PHT_PT_STAT_CFGERR p) || src = 0 || src = 3;
      ∃ x, ∃ rest : List (Int × Nat × Nat), ∃ y : Int × Nat × Nat, ∃ c : Int × Int, ∃ te : Int, (p < 4) ∧
      (s.trks.length = 4) ∧ (k.due = x :: rest) ∧ (off = false) ∧ (k.armed = true) ∧ (k.fresh = true) ∧
      (k.prev = some y) ∧ (crossing y.1 y.2.1 y.2.2 x.1 (fcanon x.2.1) (fcanon x.2.2) = some c) ∧
      (flt y.2.1 0 = true) ∧ (fge (fcanon x.2.1) 0 = true) ∧ ((fval x.2.1).isSome = true) ∧
      ((fval x.2.2).isSome = true) ∧ (k.edge = some te) ∧ (1600000 * s.get (R.PHT_PT_TIMING_MININT p) ≤ c.1 - te) ∧
      ((c.1 - te).toNat ≤ timeoutOf s p) ∧ (s.is (R.PHT_PT_STAT_RUNNING p) = false)) ∧
    (∃ p : Nat, ∃ s : State,
      let k := s.trk p;
      let src := s.get (R.PHT_PT_CFG_SRC p);
      let off := s.is (R.PHT_PT_STAT_CFGERR p) || src = 0 || src = 3;
      ∃ x, ∃ rest : List (Int × Nat × Nat), (p < 4) ∧ (s.trks.length = 4) ∧ (k.due = x :: rest) ∧ (off = true)) ∧
    (∃ t : Nat, ∃ p : Nat, ∃ s : State,
      let now := s.at t;
      let k := s.trk p;
      ∃ te : Int, (p < 4) ∧ (s.trks.length = 4) ∧ (k.edge = some te) ∧ (k.fresh = true) ∧
      (te + timeoutOf s p ≤ now.tb)) ∧
    (∃ t : Nat, ∃ p : Nat, ∃ s : State,
      let now := s.at t;
      let k := s.trk p;
      ∃ te : Int, (p < 4) ∧ (s.trks.length = 4) ∧ (k.edge = some te) ∧
      (k.fresh = false ∨ now.tb < te + timeoutOf s p)) ∧
    (∃ p : Nat, ∃ s : State,
      let k := s.trk p;
      let af := 1600000 * s.get (R.PHT_PT_TIMING_AFILT p);
      ∃ x, (p < 4) ∧ (s.trks.length = 4) ∧ (k.side = some (x, true)) ∧ (s.is (R.PHT_PT_STAT_AMP_OK p) = false) ∧
      (af ≤ k.inTime)) ∧
    (∃ p : Nat, ∃ s : State,
      let k := s.trk p;
      let af := 1600000 * s.get (R.PHT_PT_TIMING_AFILT p);
      ∃ x, (p < 4) ∧ (s.trks.length = 4) ∧ (k.side = some (x, false)) ∧ (s.is (R.PHT_PT_STAT_AMP_OK p) = true) ∧
      (af ≤ k.outTime)) ∧
    (∃ t : Nat, ∃ p : Nat, ∃ s : State,
      let now := s.at t;
      ∃ l : Nat,
      let n := 4 * l;
      let pos := s.quad.pos % n;
      let up := (s.theta (s.get R.PHT_OUT_CTL_SEL) now.tb * n / 2 ^ 32 + n - pos) % n;
      (p < 4) ∧ (s.trks.length = 4) ∧ (s.quadLines = some l) ∧ (s.quad.low = false) ∧
      ((s.trk (s.get R.PHT_OUT_CTL_SEL)).fresh = true) ∧ (s.quad.since + 1600 ≤ now.tb) ∧ (up = 0)) ∧
    (∃ t : Nat, ∃ p : Nat, ∃ s : State,
      let now := s.at t;
      ∃ l : Nat,
      let n := 4 * l;
      let pos := s.quad.pos % n;
      let up := (s.theta (s.get R.PHT_OUT_CTL_SEL) now.tb * n / 2 ^ 32 + n - pos) % n;
      (p < 4) ∧ (s.trks.length = 4) ∧ (s.quadLines = some l) ∧ (s.quad.low = false) ∧
      ((s.trk (s.get R.PHT_OUT_CTL_SEL)).fresh = true) ∧ (s.quad.since + 1600 ≤ now.tb) ∧ (up ≠ 0)) ∧
    (∃ t : Nat, ∃ p : Nat, ∃ s : State,
      let now := s.at t;
      (p < 4) ∧ (s.trks.length = 4) ∧
      (s.quadLines = none ∨ s.quad.low = true ∨ (s.trk (s.get R.PHT_OUT_CTL_SEL)).fresh = false ∨ now.tb < s.quad.since + 1600)) :=
  ⟨⟨2, ((s3.put (R.PHT_PT_TIMING_AFILT 2) 0)), (20000, 1056964608, 3204448256), ([(30000, 0, 0)]), (10000, 3204448256,
    3187671040), (15000, -99035203142830421991929937920), (-3000000), by decide +kernel⟩,
  ⟨2, (s1'.set1 (R.PHT_PT_STAT_CFGERR 2)), (20000, 1056964608, 3204448256), ([(30000, 0, 0)]), by decide +kernel⟩,
  ⟨20000000, 2, ((s3'.put (R.PHT_PT_TIMING_AFILT 2) 0)), (-3000000), by decide +kernel⟩,
  ⟨T, 2, (s2'.put (R.PHT_PT_TIMING_AFILT 2) 0), 5000, by decide +kernel⟩,
  ⟨2, (s2'.put (R.PHT_PT_TIMING_AFILT 2) 0), 5, by decide +kernel⟩,
  ⟨2, ((s3'.put (R.PHT_PT_TIMING_AFILT 2) 0)), 5, by decide +kernel⟩,
  ⟨20000, 2, (q 0), 1024, by decide +kernel⟩,
  ⟨20000, 2, (q 0x30000000), 1024, by decide +kernel⟩,
  ⟨T, 2, (s1'.set1 (R.PHT_PT_STAT_CFGERR 2)), by decide +kernel⟩⟩

end Sys2Proof.Tests.Trackers

namespace Sys2Proof.Tests.Network

open Sys2Proof Sys2Proof.Machine

/-! ### Network: small states, and the hypotheses they meet -/

/-- An instant. -/
abbrev T : Nat := 1000000

def fr (da sa ty n : Nat) : List Byte :=
  beBytes 6 da ++ beBytes 6 sa ++ beBytes 2 ty ++ (List.range n).map (BitVec.ofNat 8)

def dev := 0x020304050607

def F1 := fr dev 0x112233445566 0x0800 60

def F2 := fr 0x0a0b0c0d0e0f dev 0x0800 60

def F3 := fr 0x0a0b0c0d0e0f 0x112233445566 0x0800 60

def x1 : TxFrame := ⟨F1, 1, none, .none⟩

def x2 : TxFrame := ⟨F2, 3, none, .none⟩

def n0 : State :=
  (((State.reset.put R.NET_DEVMAC_HI 0x0203).put R.NET_DEVMAC_LO 0x04050607).put R.NET_PAIRMAC_HI 0x0a0a).set1 R.NET_CTL_EN_A |>.set1 R.NET_CTL_EN_S |>.set1 R.NET_CTL_EN_B

def lk (s : State) (ps : List Nat) : State :=
  ps.foldl (fun s p => ((s.set1 (R.NET_P_STAT_LINK p)).put R.NET_STAT (withBit (s.get R.NET_STAT) p true)).set1 (R.NET_P_CTL_FWD p)) s

def q0 := (lk n0 [0,1]).upNet fun n => { n with egress := [[x1,x2],[x1],[],[],[]], dd := [(5,6,0),(6,7,3)] }

def b0 : State := ((lk n0 [4]).put R.NET_CTL_EN_S 1).put (R.BNK_BK_OWN_OWNER 0) 11

def b1 : State :=
  ((((b0.put (R.NET_H_RXBASE 1) 0x80000100).put (R.NET_H_RXCFG_HEAD 1) 3).writeLe 0x80000130 4 0x80000400).writeLe 0x80000134 4 0x10000)

def h1 : State :=
  ((((b0.put (R.NET_H_TXBASE 1) 0x80000100).put (R.NET_H_TXCFG_HEAD 1) 3).writeLe 0x80000130 4 0x80000400).writeLe 0x80000134 4 (0x10000+40)).upNet fun n => { n with tx := [true,true] }

def h0 : State :=
  lk ((((h1.put (R.NET_H_TXBASE 0) 0x80000100).put (R.NET_H_TXCFG_HEAD 0) 3).put R.NET_PRP_SEQ_DEVICE 65535).put R.NET_PRP_SEQ_PAIR 9) [0,2]

def sl : State :=
  ((((h0.set1 (R.NET_TXS_CFG_EN 3)).put (R.NET_TXS_SLOT 3) 7).writeLe (0x70000000+128*7) 4 0xfffffffe).writeLe (0x70000000+128*7+64) 4 0xffffffff).writeLe (0x70000000+128*7+76) 4 12345 |>.upNet fun x => {x with slotDue := [(1,0),(3,1),(3,0)]}

def pr : Peer := { mac := 0xaabbccddee, node := 5, last := 17, seq := 77, mould := 5, status := 6, pinned := false }

def k0 : State :=
  (State.reset.upNet fun n => { n with peers := [(7, { pr with mac := 5 , pinned := true}), (3, pr), (0, { pr with mac := 6 })], gens := [(3, 65535)] }).put R.NET_CMN_KEY_LO 0xbbccddee |>.put R.NET_CMN_KEY_HI 0xaa

theorem witness_PortsForwardSendAndReceive :
    (∃ p : Nat, ∃ s : State, ∃ f, (p < 5) ∧ (s.net.egress.length = 5) ∧ (s.net.fwd.length = 5) ∧
      (s.net.free.length = 5) ∧ (s.net.sent.length = 5) ∧ (s.net.rx.length = 5) ∧ (p < 4) ∧
      (s.portOn p = false ∨ s.fwdState p ≠ .none ∨ f.length < bodyAt f)) ∧
    (∃ p : Nat, ∃ s : State, ∃ f, (p < 5) ∧ (s.net.egress.length = 5) ∧ (s.net.fwd.length = 5) ∧
      (s.net.free.length = 5) ∧ (s.net.sent.length = 5) ∧ (s.net.rx.length = 5) ∧ (p < 4) ∧ (s.portOn p = true) ∧
      (s.fwdState p = .none) ∧ (bodyAt f ≤ f.length) ∧
      ((s.classify f).fwd = false ∨ s.is (R.NET_P_CTL_FWD p) = false)) ∧
    (∃ p : Nat, ∃ s : State,
      let q := otherPort p;
      ∃ f, (p < 5) ∧ (s.net.egress.length = 5) ∧ (s.net.fwd.length = 5) ∧ (s.net.free.length = 5) ∧
      (s.net.sent.length = 5) ∧ (s.net.rx.length = 5) ∧ (p < 4) ∧ (s.portOn p = true) ∧ (s.fwdState p = .none) ∧
      (bodyAt f ≤ f.length) ∧ ((s.classify f).fwd = true) ∧ (s.is (R.NET_P_CTL_FWD p) = true) ∧
      (s.linked q = false)) ∧
    (∃ t : Nat, ∃ p : Nat, ∃ s : State,
      let now := s.at t;
      let q := otherPort p;
      ∃ f, (p < 5) ∧ (s.net.egress.length = 5) ∧ (s.net.fwd.length = 5) ∧ (s.net.free.length = 5) ∧
      (s.net.sent.length = 5) ∧ (s.net.rx.length = 5) ∧ (p < 4) ∧ (s.portOn p = true) ∧ (s.fwdState p = .none) ∧
      (bodyAt f ≤ f.length) ∧ ((s.classify f).fwd = true) ∧ (s.is (R.NET_P_CTL_FWD p) = true) ∧ (s.linked q = true) ∧
      (2000 ≤ s.txRoom q) ∧ ((s.egress q).isEmpty = true ∧ s.net.free.getD q 0 ≤ now.tb)) ∧
    (∃ t : Nat, ∃ p : Nat, ∃ s : State,
      let now := s.at t;
      let q := otherPort p;
      ∃ f : List Byte, (p < 5) ∧ (s.net.egress.length = 5) ∧ (s.net.fwd.length = 5) ∧ (s.net.free.length = 5) ∧
      (s.net.sent.length = 5) ∧ (s.net.rx.length = 5) ∧ (p < 4) ∧ (s.portOn p = true) ∧ (s.fwdState p = .none) ∧
      (bodyAt f ≤ f.length) ∧ ((s.classify f).fwd = true) ∧ (s.is (R.NET_P_CTL_FWD p) = true) ∧ (s.linked q = true) ∧
      (2000 ≤ s.txRoom q) ∧ ((s.egress q).isEmpty = false ∨ now.tb < s.net.free.getD q 0)) ∧
    (∃ t : Nat, ∃ p : Nat, ∃ s : State,
      let now := s.at t;
      ∃ f : TxFrame, ∃ pre : List Sys2Proof.Machine.TxFrame, ∃ post : List Sys2Proof.Machine.TxFrame, (p < 5) ∧
      (s.net.egress.length = 5) ∧ (s.net.fwd.length = 5) ∧ (s.net.free.length = 5) ∧ (s.net.sent.length = 5) ∧
      (s.net.rx.length = 5) ∧ (s.egress p = pre ++ f :: post) ∧ (now.tb < s.net.free.getD p 0 ∨ s.cutting p = true)) ∧
    (∃ t : Nat, ∃ p : Nat, ∃ s : State,
      let now := s.at t;
      ∃ f : TxFrame, ∃ pre : List Sys2Proof.Machine.TxFrame, ∃ post : List Sys2Proof.Machine.TxFrame, (p < 5) ∧
      (s.net.egress.length = 5) ∧ (s.net.fwd.length = 5) ∧ (s.net.free.length = 5) ∧ (s.net.sent.length = 5) ∧
      (s.net.rx.length = 5) ∧ (s.egress p = pre ++ f :: post) ∧ (s.net.free.getD p 0 ≤ now.tb) ∧
      (s.cutting p = false) ∧ ((∀ g ∈ pre, g.cls < f.cls)) ∧ ((∀ g ∈ post, g.cls ≤ f.cls)) ∧ (s.linked p = true) ∧
      (f.own = none) ∧ (f.mark = .none)) ∧
    (∃ t : Nat, ∃ p : Nat, ∃ s : State,
      let now := s.at t;
      ∃ f : TxFrame, ∃ pre : List Sys2Proof.Machine.TxFrame, ∃ post : List Sys2Proof.Machine.TxFrame, ∃ h : Nat,
      ∃ d : Nat, (p < 5) ∧ (s.net.egress.length = 5) ∧ (s.net.fwd.length = 5) ∧ (s.net.free.length = 5) ∧
      (s.net.sent.length = 5) ∧ (s.net.rx.length = 5) ∧ (s.egress p = pre ++ f :: post) ∧
      (s.net.free.getD p 0 ≤ now.tb) ∧ (s.cutting p = false) ∧ ((∀ g ∈ pre, g.cls < f.cls)) ∧ ((∀ g ∈ post,
      g.cls ≤ f.cls)) ∧ (s.linked p = true) ∧ (f.own = some (h, d)) ∧ (f.mark = .none) ∧
      (s.bankRange ownNet d 16 = true)) ∧
    (∃ p : Nat, ∃ s : State, (p < 5) ∧ (s.net.egress.length = 5) ∧ (s.net.fwd.length = 5) ∧ (s.net.free.length = 5) ∧
      (s.net.sent.length = 5) ∧ (s.net.rx.length = 5) ∧ (s.portOn p = false ∨ s.linked p = false)) ∧
    (∃ p : Nat, ∃ s : State, ∃ f : List Byte, ∃ ok : Bool, (p < 5) ∧ (s.net.egress.length = 5) ∧
      (s.net.fwd.length = 5) ∧ (s.net.free.length = 5) ∧ (s.net.sent.length = 5) ∧ (s.net.rx.length = 5) ∧
      (s.portOn p = true) ∧ (s.linked p = true) ∧ (f.length ≤ 1996) ∧ (60 ≤ f.length) ∧ (ok = false)) ∧
    (∃ p : Nat, ∃ s : State, ∃ f : List Byte, (p < 5) ∧ (s.net.egress.length = 5) ∧ (s.net.fwd.length = 5) ∧
      (s.net.free.length = 5) ∧ (s.net.sent.length = 5) ∧ (s.net.rx.length = 5) ∧ (s.portOn p = true) ∧
      (s.linked p = true) ∧ (1996 < f.length)) ∧
    (∃ p : Nat, ∃ s : State, ∃ f, ∃ ok : Bool, (p < 5) ∧ (s.net.egress.length = 5) ∧ (s.net.fwd.length = 5) ∧
      (s.net.free.length = 5) ∧ (s.net.sent.length = 5) ∧ (s.net.rx.length = 5) ∧ (s.portOn p = true) ∧
      (s.linked p = true) ∧ (p < 4) ∧ (f.length ≤ 1996) ∧ (60 ≤ f.length) ∧ (ok = true) ∧ (frameSa f = s.devMac)) ∧
    (∃ t : Nat, ∃ p : Nat, ∃ s : State,
      let now := s.at t;
      ∃ f : List Byte, ∃ ok : Bool, ∃ d : Nat, ∃ b : Nat, (p < 5) ∧ (s.net.egress.length = 5) ∧
      (s.net.fwd.length = 5) ∧ (s.net.free.length = 5) ∧ (s.net.sent.length = 5) ∧ (s.net.rx.length = 5) ∧
      (s.portOn p = true) ∧ (s.linked p = true) ∧
      (d = s.get (R.NET_H_RXBASE 1) / 16 * 16 + 16 * s.get (R.NET_H_RXCFG_HEAD 1)) ∧ (b = s.readLe d 4) ∧ (p = 4) ∧
      (f.length ≤ 1996 ∧ 60 ≤ f.length ∧ ok = true) ∧ (frameDa f = s.devMac) ∧ (etherType f ≠ 0x8808 ∧
      etherType f ≠ 0x88B5) ∧ (s.bankRange ownNet d 16 = true ∧ s.bankRange ownNet b f.length = true) ∧
      (bit (s.readLe (d + 4) 4) 16 = true) ∧ (b + f.length ≤ d ∨ d + 16 ≤ b) ∧
      (now.rxRoom 4 (s.frameClass f) (f.length + 4) = true)) ∧
    (∃ p : Nat, ∃ s : State,
      let q := otherPort p;
      ∃ f, (p < 5) ∧ (s.net.egress.length = 5) ∧ (s.net.fwd.length = 5) ∧ (s.net.free.length = 5) ∧
      (s.net.sent.length = 5) ∧ (s.net.rx.length = 5) ∧ (p < 4) ∧ (s.portOn p = true) ∧ (s.fwdState p = .none) ∧
      (bodyAt f ≤ f.length) ∧ ((s.classify f).fwd = true) ∧ (s.is (R.NET_P_CTL_FWD p) = true) ∧ (s.linked q = true) ∧
      (s.txRoom q < 2000)) ∧
    (∃ t : Nat, ∃ p : Nat, ∃ s : State,
      let now := s.at t;
      ∃ f, ∃ ok : Bool, (p < 5) ∧ (s.net.egress.length = 5) ∧ (s.net.fwd.length = 5) ∧ (s.net.free.length = 5) ∧
      (s.net.sent.length = 5) ∧ (s.net.rx.length = 5) ∧ (p = 4) ∧ (f.length ≤ 1996) ∧ (60 ≤ f.length) ∧ (ok = true) ∧
      (s.eatsS f = true) ∧ (now.rxRoom 4 (s.frameClass f) (f.length + 4) = false)) :=
  ⟨⟨0, (lk (n0.clr R.NET_CTL_EN_A) [0,1]), F1, by decide +kernel⟩,
  ⟨1, n0, F1, by decide +kernel⟩,
  ⟨1, n0, F3, by decide +kernel⟩,
  ⟨T, 1, (lk n0 [0,1]), F3, by decide +kernel⟩,
  ⟨T, 0, ((lk n0 [0, 1]).upNet fun n => { n with egress := [[], [x1], [], [], []] }), F3, by decide +kernel⟩,
  ⟨T, 0, (q0.upNet fun n => { n with free := [1000001, 0, 0, 0, 0] }), x2, ([x1]), ([]), by decide +kernel⟩,
  ⟨T, 0, q0, x2, ([x1]), ([]), by decide +kernel⟩,
  ⟨T, 0,
    ((lk b0 [0]).upNet fun n => { n with egress := [[{ x2 with own := some (0, 0x80000130) }], [], [], [], []] }),
    ({ x2 with own := some (0, 0x80000130) }), ([]), ([]), 0, 0x80000130, by decide +kernel⟩,
  ⟨1, n0, by decide +kernel⟩,
  ⟨1, (lk n0 [1]), F1, false, by decide +kernel⟩,
  ⟨1, (lk n0 [1]), (fr dev 5 0x0800 1990), by decide +kernel⟩,
  ⟨1, (lk n0 [1]), F2, true, by decide +kernel⟩,
  ⟨T, 4, b1, F1, true, 0x80000130, 0x80000400, by decide +kernel⟩,
  ⟨0,
    (q0.upNet fun n => { n with egress := [[], List.replicate 16 ⟨List.replicate 1990 0, 1, none, .none⟩,[],[],[]] }),
    F3, by decide +kernel⟩,
  ⟨T, 4, (b1.upNet fun x => {x with rx := [[],[],[],[],[⟨0,57300,99999999⟩]]}), F1, true, by decide +kernel⟩⟩

theorem witness_NetworkUnitSendsItsOwnFrames :
    (∃ s : State, ∃ h : Nat, (s.net.egress.length = 5) ∧ (s.net.tx.length = 2) ∧ (h < 2) ∧
      (s.net.tx.getD h false = false)) ∧
    (∃ s : State, ∃ h : Nat,
      let d := s.get (R.NET_H_TXBASE h) / 16 * 16 + 16 * s.get (R.NET_H_TXCFG_HEAD h);
      (s.net.egress.length = 5) ∧ (s.net.tx.length = 2) ∧ (h < 2) ∧ (s.net.tx.getD h false = true) ∧
      (s.bankRange ownNet d 16 = false)) ∧
    (∃ s : State, ∃ h : Nat,
      let d := s.get (R.NET_H_TXBASE h) / 16 * 16 + 16 * s.get (R.NET_H_TXCFG_HEAD h);
      let w1 := s.readLe (d + 4) 4;
      (s.net.egress.length = 5) ∧ (s.net.tx.length = 2) ∧ (h < 2) ∧ (s.net.tx.getD h false = true) ∧
      (s.bankRange ownNet d 16 = true) ∧ (s.rows = []) ∧ (bit w1 16 = false)) ∧
    (∃ s : State, ∃ h : Nat,
      let d := s.get (R.NET_H_TXBASE h) / 16 * 16 + 16 * s.get (R.NET_H_TXCFG_HEAD h);
      let w1 := s.readLe (d + 4) 4;
      let len := w1 % 65536;
      (s.net.egress.length = 5) ∧ (s.net.tx.length = 2) ∧ (h < 2) ∧ (s.net.tx.getD h false = true) ∧
      (s.bankRange ownNet d 16 = true) ∧ (s.rows = []) ∧ (bit w1 16 = true) ∧
      (len < 14 ∨ (if h = 0 then 1990 else 1996) < len)) ∧
    (∃ s : State, ∃ h : Nat,
      let d := s.get (R.NET_H_TXBASE h) / 16 * 16 + 16 * s.get (R.NET_H_TXCFG_HEAD h);
      let w1 := s.readLe (d + 4) 4;
      let len := w1 % 65536;
      ∃ errs : List RowErr, (s.net.egress.length = 5) ∧ (s.net.tx.length = 2) ∧ (h < 2) ∧
      (s.net.tx.getD h false = true) ∧ (s.bankRange ownNet d 16 = true) ∧ (s.rows = []) ∧ (bit w1 16 = true) ∧
      (14 ≤ len ∧ len ≤ (if h = 0 then 1990 else 1996)) ∧ ((s.bankRange ownNet (s.readLe d 4) len = false ∧
      errs = []) ∨ (s.bankRange ownNet (s.readLe d 4) len = true ∧ errs = [⟨s.readLe d 4, true⟩] ∧
      (s.readLe d 4 + len ≤ d / 8 * 8 ∨ d / 8 * 8 + 24 ≤ s.readLe d 4)))) ∧
    (∃ s : State, ∃ h : Nat,
      let d := s.get (R.NET_H_TXBASE h) / 16 * 16 + 16 * s.get (R.NET_H_TXCFG_HEAD h);
      let w1 := s.readLe (d + 4) 4;
      let len := w1 % 65536;
      let f := s.readBytes (s.readLe d 4) len;
      (s.net.egress.length = 5) ∧ (s.net.tx.length = 2) ∧ (h < 2) ∧ (s.net.tx.getD h false = true) ∧
      (s.bankRange ownNet d 16 = true) ∧ (s.rows = []) ∧ (bit w1 16 = true) ∧ (14 ≤ len ∧
      len ≤ (if h = 0 then 1990 else 1996)) ∧ (s.bankRange ownNet (s.readLe d 4) len = true) ∧ (h = 1) ∧
      (s.portOn 4 = true) ∧ (s.linked 4 = true) ∧ ((padFrame f).length + 4 ≤ s.txRoom 4)) ∧
    (∃ s : State, ∃ h : Nat,
      let d := s.get (R.NET_H_TXBASE h) / 16 * 16 + 16 * s.get (R.NET_H_TXCFG_HEAD h);
      let w1 := s.readLe (d + 4) 4;
      let len := w1 % 65536;
      let f := s.readBytes (s.readLe d 4) len;
      (s.net.egress.length = 5) ∧ (s.net.tx.length = 2) ∧ (h < 2) ∧ (s.net.tx.getD h false = true) ∧
      (s.bankRange ownNet d 16 = true) ∧ (s.rows = []) ∧ (bit w1 16 = true) ∧ (14 ≤ len ∧
      len ≤ (if h = 0 then 1990 else 1996)) ∧ (s.bankRange ownNet (s.readLe d 4) len = true) ∧ (h = 0) ∧
      (s.withholds = true) ∧ (frameSa f = s.pairMac)) ∧
    (∃ s : State, ∃ h : Nat,
      let d := s.get (R.NET_H_TXBASE h) / 16 * 16 + 16 * s.get (R.NET_H_TXCFG_HEAD h);
      let w1 := s.readLe (d + 4) 4;
      let len := w1 % 65536;
      let f := s.readBytes (s.readLe d 4) len;
      (s.net.egress.length = 5) ∧ (s.net.tx.length = 2) ∧ (h < 2) ∧ (s.net.tx.getD h false = true) ∧
      (s.bankRange ownNet d 16 = true) ∧ (s.rows = []) ∧ (bit w1 16 = true) ∧ (14 ≤ len ∧
      len ≤ (if h = 0 then 1990 else 1996)) ∧ (s.bankRange ownNet (s.readLe d 4) len = true) ∧ (h = 0) ∧
      (s.roomAll s.lanPorts f = true) ∧ ((s.withholds = true → frameSa f ≠ s.pairMac))) ∧
    (∃ s : State, ∃ n : Nat, (s.net.egress.length = 5) ∧ (s.net.tx.length = 2) ∧ (n < 16) ∧ ((∀ e ∈ s.net.slotDue,
      e.1 ≠ n))) ∧
    (∃ s : State, ∃ n : Nat, ∃ b : Nat, ∃ pre : List (Nat × Nat), ∃ post : List (Nat × Nat),
      (s.net.egress.length = 5) ∧ (s.net.tx.length = 2) ∧ (n < 16) ∧ (s.net.slotDue = pre ++ (n, b) :: post) ∧
      ((∀ e ∈ pre, e.1 ≠ n)) ∧ (s.is (R.NET_TXS_CFG_EN n) = false)) ∧
    (∃ s : State, ∃ n : Nat, ∃ b : Nat, ∃ pre : List (Nat × Nat), ∃ post : List (Nat × Nat), ∃ ecc : Nat,
      (s.net.egress.length = 5) ∧ (s.net.tx.length = 2) ∧ (n < 16) ∧ (s.net.slotDue = pre ++ (n, b) :: post) ∧
      ((∀ e ∈ pre, e.1 ≠ n)) ∧ (s.is (R.NET_TXS_CFG_EN n) = true) ∧ (ecc < 2) ∧ (s.rows = []) ∧
      (s.withholds = true)) ∧
    (∃ s : State, ∃ n : Nat, ∃ b : Nat, ∃ pre : List (Nat × Nat), ∃ post : List (Nat × Nat), ∃ ecc : Nat,
      (s.net.egress.length = 5) ∧ (s.net.tx.length = 2) ∧ (n < 16) ∧ (s.net.slotDue = pre ++ (n, b) :: post) ∧
      ((∀ e ∈ pre, e.1 ≠ n)) ∧ (s.is (R.NET_TXS_CFG_EN n) = true) ∧ (ecc < 2) ∧ (s.rows = []) ∧
      (s.withholds = false)) ∧
    (∃ t : Nat, ∃ s : State,
      let now := s.at t;
      (s.net.egress.length = 5) ∧ (s.net.tx.length = 2) ∧ (s.is R.NET_CTL_SUPV_EN = false ∨ now.tb < s.net.supvAt)) ∧
    (∃ t : Nat, ∃ s : State,
      let now := s.at t;
      (s.net.egress.length = 5) ∧ (s.net.tx.length = 2) ∧ (s.is R.NET_CTL_SUPV_EN = true) ∧ (s.net.supvAt ≤ now.tb)) ∧
    (∃ t : Nat, ∃ s : State,
      let now := s.at t;
      (s.net.egress.length = 5) ∧ (s.net.tx.length = 2) ∧ (s.is R.NET_CTL_BCN_EN = false ∨ now.beaconDue = false)) ∧
    (∃ t : Nat, ∃ s : State,
      let now := s.at t;
      (s.net.egress.length = 5) ∧ (s.net.tx.length = 2) ∧ (s.is R.NET_CTL_BCN_EN = true) ∧ (now.beaconDue = true) ∧
      (s.net.bcnAt ≠ some now.tb)) :=
  ⟨⟨n0, 1, by decide +kernel⟩,
  ⟨(h0.put (R.BNK_BK_OWN_OWNER 0) 5), 1, by decide +kernel⟩,
  ⟨(h0.writeLe 0x80000134 4 5), 1, by decide +kernel⟩,
  ⟨(h0.writeLe 0x80000134 4 (0x10000 + 13)), 1, by decide +kernel⟩,
  ⟨h1, 1, ([⟨0x80000400, true⟩]), by decide +kernel⟩,
  ⟨h1, 1, by decide +kernel⟩,
  ⟨(((h0.set1 R.TWN_CTL_EN).put R.TWN_STAT_STATE 2).writeBytes 0x80000406 (beBytes 6 h0.pairMac)), 0,
    by decide +kernel⟩,
  ⟨h0, 0, by decide +kernel⟩,
  ⟨n0, 15, by decide +kernel⟩,
  ⟨(sl.clr (R.NET_TXS_CFG_EN 3)), 3, 1, ([(1, 0)]), ([(3, 0)]), by decide +kernel⟩,
  ⟨((sl.set1 R.TWN_CTL_EN).put R.TWN_STAT_STATE 2), 3, 1, ([(1, 0)]), ([(3, 0)]), 1, by decide +kernel⟩,
  ⟨sl, 3, 1, ([(1, 0)]), ([(3, 0)]), 0, by decide +kernel⟩,
  ⟨T, n0, by decide +kernel⟩,
  ⟨T, (h0.set1 R.NET_CTL_SUPV_EN), by decide +kernel⟩,
  ⟨T, n0, by decide +kernel⟩,
  ⟨(16000000 * 40), ((h0.set1 R.NET_CTL_BCN_EN).put R.PWR_STRAP_NODE_ID 0), by decide +kernel⟩⟩

theorem witness_CommonsCommandsActOnTheirEntry :
    (∃ t : Nat, ∃ i : Nat, ∃ s : State, ∃ c : Sys2Proof.Instr, (i < 512) ∧ ((s.net.peers.map (·.1)).Nodup) ∧
      (s.is R.NET_CMN_STAT_BUSY = false) ∧ (s.peerAt i = none) ∧
      (c = .read t i ∨ c = .pin t i ∨ c = .unpin t i ∨ c = .delete t i)) ∧
    (∃ i : Nat, ∃ s : State, ∃ k : Nat, (i < 512) ∧ ((s.net.peers.map (·.1)).Nodup) ∧
      (s.is R.NET_CMN_STAT_BUSY = false) ∧ (511 < k)) ∧
    (∃ i : Nat, ∃ s : State, ∃ p : Peer, (i < 512) ∧ ((s.net.peers.map (·.1)).Nodup) ∧
      (s.is R.NET_CMN_STAT_BUSY = false) ∧ (s.peerAt i = some p)) ∧
    (∃ i : Nat, ∃ s : State,
      let mac := s.get R.NET_CMN_KEY_HI * 2 ^ 32 + s.get R.NET_CMN_KEY_LO;
      ∃ k : Nat, ∃ p : Peer, (i < 512) ∧ ((s.net.peers.map (·.1)).Nodup) ∧ (s.is R.NET_CMN_STAT_BUSY = false) ∧
      (s.peerOf mac = some (k, p))) ∧
    (∃ i : Nat, ∃ s : State,
      let mac := s.get R.NET_CMN_KEY_HI * 2 ^ 32 + s.get R.NET_CMN_KEY_LO;
      (i < 512) ∧ ((s.net.peers.map (·.1)).Nodup) ∧ (s.is R.NET_CMN_STAT_BUSY = false) ∧ (s.peerOf mac = none) ∧
      (s.peerAt i = none) ∧ ((∀ j, j < i → s.peerAt j ≠ none))) ∧
    (∃ i : Nat, ∃ s : State, ∃ p : Peer, (i < 512) ∧ ((s.net.peers.map (·.1)).Nodup) ∧ (s.peerAt i = some p) ∧
      (p.pinned = true)) ∧
    (∃ t : Nat, ∃ i : Nat, ∃ s : State,
      let now := s.at t;
      ∃ p : Peer,
      let old := max 1 (s.get R.NET_CMN_CFG_AGE) < now.tb / 16000000 - p.last;
      (i < 512) ∧ ((s.net.peers.map (·.1)).Nodup) ∧ (s.peerAt i = some p) ∧ (p.pinned = false) ∧ (old)) ∧
    (∃ t : Nat, ∃ i : Nat, ∃ s : State, ∃ c : Sys2Proof.Instr, (i < 512) ∧ ((s.net.peers.map (·.1)).Nodup) ∧
      (s.is R.NET_CMN_STAT_BUSY = true) ∧
      (c = .read t i ∨ c = .pin t i ∨ c = .unpin t i ∨ c = .delete t i ∨ c = .preset t)) ∧
    (∃ t : Nat, ∃ i : Nat, ∃ s : State,
      let now := s.at t;
      ∃ p : Sys2Proof.Machine.Peer,
      let old := max 1 (s.get R.NET_CMN_CFG_AGE) < now.tb / 16000000 - p.last;
      (i < 512) ∧ ((s.net.peers.map (·.1)).Nodup) ∧ (s.peerAt i = some p) ∧ (p.pinned = false) ∧ (¬ old)) :=
  ⟨⟨T, 1, k0, (Instr.pin T 1), by decide +kernel⟩,
  ⟨1, k0, 512, by decide +kernel⟩,
  ⟨3, k0, pr, by decide +kernel⟩,
  ⟨3, k0, 3, pr, by decide +kernel⟩,
  ⟨1, (k0.put R.NET_CMN_KEY_HI 0xab), by decide +kernel⟩,
  ⟨7, k0, ({ pr with mac := 5, pinned := true }), by decide +kernel⟩,
  ⟨(16000000 * 20000), 3, k0, pr, by decide +kernel⟩,
  ⟨T, 3, (k0.set1 R.NET_CMN_STAT_BUSY), (Sys2Proof.Instr.read 1000000 3), by decide +kernel⟩,
  ⟨T, 3, (k0.set1 R.NET_CMN_STAT_BUSY), pr, by decide +kernel⟩⟩

end Sys2Proof.Tests.Network

namespace Sys2Proof.Tests.Time

open Sys2Proof Sys2Proof.Machine

/-! ### Time: small states, and the hypotheses they meet -/

/-- An instant. -/
abbrev T : Nat := 1000000

def p0 : State :=
  ((((State.reset.set1 R.TSU_CTL_EN).set1 (R.TSU_P_CFG_PDLY_EN 1)).set1 (R.NET_P_STAT_LINK 1)).set1 R.NET_CTL_EN_A).put (R.TSU_P_ADJ_RXADJ 1) 0xfff0

def ms : PtpAnnounce := ⟨3, 77, 1,2,3,4,5,99, 2, 37, true, false, false, 0, none⟩

def an1 : Ann := ⟨1, ms, 1000, false⟩

def sy : PtpSync := ⟨3, 77, 9, false, 1577836800, 62000, 4096, 999000, -3⟩

def d0 : State :=
  ((((((p0.put (R.TSU_TD_CFG_EN 1) 1).clr (R.TSU_TD_CFG_EN 0)).put (R.TSU_TD_CFG_DOMAIN 1) 3).put (R.TSU_TD_STAT_STATE 1) 1).upDom 1 fun x => { x with anns := [an1] }).put (R.CLK_STAT_MODE) 2).upPdelay 1 fun x => { x with seen := true }

def d1 (st : Nat) : State :=
  ((((d0.put (R.TSU_TD_STAT_STATE 1) st).set1 (R.TSU_TD_STAT_PORT_VALID 1)).put (R.TSU_TD_STAT_PORT 1) 1).put R.TSU_STAT_INFORCE 1).put R.TSU_CTL_SEL 1 |>.clr R.TSU_CTL_STEP_EN |>.upDom 1 fun x => { x with master := some 77, good := 3, prev := some (0, 5, -5), lastAt := some 1000, anns := [{ an1 with qualified := true }] }

def z0 : State := State.reset.put (R.TSU_TT_START 5) 999000

def st1 : State :=
  p0.upPdelay 1 fun x => { x with asked := some (5, 1000), t1 := some (5, 1000), seq := 65535, at_ := some 7, fails := 15, pend := some (4000, 50), results := [1,2,3,4,5,6,7,8] }

theorem witness_PeerDelayIsMeasured :
    (∃ t : Nat, ∃ p : Nat, ∃ s : State,
      let now := s.at t;
      let x := s.pdelay p;
      (p < 4) ∧ (s.pdelays.length = 4) ∧ (s.net.egress.length = 5) ∧ (s.is R.TSU_CTL_EN = true ∧
      s.is (R.TSU_P_CFG_PDLY_EN p) = true ∧ s.linked p = true ∧ s.portOn p = true) ∧ (x.at_ = none ∨ (∃ u,
      x.at_ = some u ∧ u ≤ now.tb))) ∧
    (∃ p : Nat, ∃ s : State, (p < 4) ∧ (s.pdelays.length = 4) ∧ (s.net.egress.length = 5) ∧
      (s.is R.TSU_CTL_EN = false ∨ s.is (R.TSU_P_CFG_PDLY_EN p) = false ∨ s.linked p = false)) ∧
    (∃ p : Nat, ∃ s : State, (p < 4) ∧ (s.pdelays.length = 4) ∧ (s.net.egress.length = 5) ∧
      (s.is R.TSU_CTL_EN = true) ∧ (s.linked p = true) ∧ (s.portOn p = true)) ∧
    (∃ p : Nat, ∃ s : State,
      let x := s.pdelay p;
      ∃ seq : Nat, ∃ y, (p < 4) ∧ (s.pdelays.length = 4) ∧ (s.net.egress.length = 5) ∧ (x.t1 = some y) ∧
      (y.1 ≠ seq)) ∧
    (∃ p : Nat, ∃ s : State,
      let x := s.pdelay p;
      ∃ seq : Nat, ∃ stamp : Int, ∃ cf : Int, ∃ rx : Int, ∃ y,
      let t4 := s.grid rx + toS 16 (s.get (R.TSU_P_ADJ_RXADJ p));
      ∃ fu : Bool, ∃ d : Int, (p < 4) ∧ (s.pdelays.length = 4) ∧ (s.net.egress.length = 5) ∧ (x.t1 = some y) ∧
      (y.1 = seq) ∧ ((fu = false ∧ d = divRne (t4 - y.2 - divRne cf 4096) 2) ∨ (fu = true ∧ ∃ z, x.pend = some z ∧
      d = divRne (z.1 - y.2 - (stamp + divRne cf 4096 + z.2)) 2)) ∧ (d ≤ 160000)) ∧
    (∃ p : Nat, ∃ s : State,
      let x := s.pdelay p;
      ∃ seq : Nat, ∃ stamp : Int, ∃ cf : Int, ∃ rx : Int, ∃ y,
      let t4 := s.grid rx + toS 16 (s.get (R.TSU_P_ADJ_RXADJ p));
      ∃ fu : Bool, ∃ d : Int, (p < 4) ∧ (s.pdelays.length = 4) ∧ (s.net.egress.length = 5) ∧ (x.t1 = some y) ∧
      (y.1 = seq) ∧ ((fu = false ∧ d = divRne (t4 - y.2 - divRne cf 4096) 2) ∨ (fu = true ∧ ∃ z, x.pend = some z ∧
      d = divRne (z.1 - y.2 - (stamp + divRne cf 4096 + z.2)) 2)) ∧ (160000 < d)) ∧
    (∃ t : Nat, ∃ p : Nat, ∃ s : State,
      let now := s.at t;
      let x := s.pdelay p;
      ∃ y,
      let due := y.2 + logSeconds (clampI (-3) 3 (toS 4 (s.get (R.TSU_P_CFG_PDLY_LOG p))));
      (p < 4) ∧ (s.pdelays.length = 4) ∧ (s.net.egress.length = 5) ∧ (x.asked = some y) ∧ (now.tb < due)) ∧
    (∃ t : Nat, ∃ p : Nat, ∃ s : State,
      let now := s.at t;
      let x := s.pdelay p;
      ∃ y,
      let due := y.2 + logSeconds (clampI (-3) 3 (toS 4 (s.get (R.TSU_P_CFG_PDLY_LOG p))));
      (p < 4) ∧ (s.pdelays.length = 4) ∧ (s.net.egress.length = 5) ∧ (x.asked = some y) ∧ (due ≤ now.tb)) :=
  ⟨⟨T, 1, p0, by decide +kernel⟩,
  ⟨1,
    ((p0.upPdelay 1 fun x => { x with asked := some (5, 1000), t1 := some (5, 1000), seq := 65535, fails := 14 }).clr (R.TSU_P_CFG_PDLY_EN 1)),
    by decide +kernel⟩,
  ⟨1, p0, by decide +kernel⟩,
  ⟨1, st1, 0, (5, 1000), by decide +kernel⟩,
  ⟨1,
    ((p0.upPdelay 1 fun x => { x with asked := some (5, 1000), t1 := some (5, 1000), seq := 65535, at_ := some 7, fails := 15, pend := some (4000, 50), results := [1,2,3,4,5,6,7,8] })),
    5, 0, 0, 5120, (((5, 1000))), false, 2052, by decide +kernel⟩,
  ⟨1, st1, 5, 0, 0, 2000000, (5, 1000), false, 999492, by decide +kernel⟩,
  ⟨T, 1, st1, (5, 1000), by decide +kernel⟩,
  ⟨200000000000, 1,
    (p0.upPdelay 1 fun x => { x with asked := some (5, 1000), t1 := some (5, 1000), seq := 65535, fails := 15 }), (5,
    1000), by decide +kernel⟩⟩

theorem witness_ServosFollowTheirMaster :
    (∃ t : Nat, ∃ d : Nat, ∃ p : Nat, ∃ s : State,
      let now := s.at t;
      let x := s.dom d;
      let td := s.get (R.TSU_TD_STAT_STATE d);
      ∃ m : Sys2Proof.PtpAnnounce, ∃ a : Sys2Proof.Machine.Ann, (d < 2) ∧ (p < 4) ∧ (s.doms.length = 2) ∧
      (s.pdelays.length = 4) ∧ (s.is R.TSU_CTL_EN = true) ∧ (s.is (R.TSU_TD_CFG_EN d) = true) ∧
      (s.get (R.TSU_TD_CFG_DOMAIN d) = m.dom) ∧ (s.is (R.TSU_TD_CFG_PROFILE d) = false) ∧
      (s.is (R.TSU_TD_CFG_EN (1 - d)) = false) ∧ (s.is R.TSU_CTL_HOLD = false) ∧ (td = 1) ∧ (x.anns = [a]) ∧
      (a.port = p) ∧ (a.msg.ident = m.ident) ∧ (m.steps < 255) ∧ (now.tb ≤ a.at_ + 4 * logSeconds m.log)) ∧
    (∃ d : Nat, ∃ p : Nat, ∃ s : State, (d < 2) ∧ (p < 4) ∧ (s.doms.length = 2) ∧ (s.pdelays.length = 4) ∧
      (s.is R.TSU_CTL_EN = true) ∧ (s.clkLocked = false)) ∧
    (∃ d : Nat, ∃ p : Nat, ∃ s : State, ∃ y : Sys2Proof.PtpSync, (d < 2) ∧ (p < 4) ∧ (s.doms.length = 2) ∧
      (s.pdelays.length = 4) ∧ (s.is R.TSU_CTL_EN = true) ∧ (y.two = true) ∧ (s.clkLocked = true)) ∧
    (∃ d : Nat, ∃ p : Nat, ∃ s : State, (d < 2) ∧ (p < 4) ∧ (s.doms.length = 2) ∧ (s.pdelays.length = 4) ∧
      (s.is R.TSU_CTL_EN = true) ∧ ((s.dom 0).twoStep = [])) ∧
    (∃ t : Nat, ∃ d : Nat, ∃ p : Nat, ∃ s : State,
      let x := s.dom d;
      let td := s.get (R.TSU_TD_STAT_STATE d);
      ∃ y : Sys2Proof.PtpSync,
      let m := (y.sec - (s.get R.TSU_EPOCH : Int)) * second + 16 * y.ns + divRne y.cf 4096 + s.get (R.TSU_P_LDLY_DELAY p) + toS 32 (s.get (R.TSU_P_ASYM p));
      ∃ c : Sys2Proof.Instr, (d < 2) ∧ (p < 4) ∧ (s.doms.length = 2) ∧ (s.pdelays.length = 4) ∧
      (s.is R.TSU_CTL_EN = true) ∧ (s.is (R.TSU_TD_CFG_EN d) = true ∧ s.is (R.TSU_TD_CFG_EN (1 - d)) = false ∧
      s.get (R.TSU_TD_CFG_DOMAIN d) = y.dom) ∧ (s.is R.TSU_CTL_HOLD = false ∧ s.is R.TSU_CTL_STEP_EN = false ∧
      s.clkLocked = true ∧ (s.pdelay p).seen = true) ∧ (s.get (R.TSU_TD_STAT_STATE (1 - d)) = 0) ∧ (td = 2 ∨ td = 3) ∧
      (s.get R.TSU_STAT_INFORCE = d ∧ s.get R.TSU_CTL_SEL = d) ∧ (s.is (R.TSU_TD_STAT_PORT_VALID d) = true ∧
      s.get (R.TSU_TD_STAT_PORT d) = p ∧ x.master = some y.ident) ∧ (0 ≤ m) ∧ (m < 2 ^ 64) ∧
      ((c = Instr.syncMessage t p y ∧ y.two = false) ∨ (c = Instr.followUp t p y ∧ ∃ z, (s.dom 0).twoStep = [(p, z)] ∧
      z.ident = y.ident ∧ z.dom = y.dom ∧ z.seq = y.seq ∧ z.cf = 0 ∧ z.rx = y.rx ∧ z.log = y.log))) ∧
    (∃ t : Nat, ∃ d : Nat, ∃ p : Nat, ∃ s : State,
      let now := s.at t;
      let x := s.dom d;
      let td := s.get (R.TSU_TD_STAT_STATE d);
      ∃ z,
      let due := z + 3 * logSeconds (toS 8 (s.get (R.TSU_TD_STAT_LOG_SYNC d)));
      (d < 2) ∧ (p < 4) ∧ (s.doms.length = 2) ∧ (s.pdelays.length = 4) ∧ (x.lastAt = some z) ∧
      (now.tb < due ∨ td < 2 ∨ td = 4)) ∧
    (∃ t : Nat, ∃ d : Nat, ∃ p : Nat, ∃ s : State,
      let now := s.at t;
      let x := s.dom d;
      let td := s.get (R.TSU_TD_STAT_STATE d);
      ∃ z,
      let due := z + 3 * logSeconds (toS 8 (s.get (R.TSU_TD_STAT_LOG_SYNC d)));
      (d < 2) ∧ (p < 4) ∧ (s.doms.length = 2) ∧ (s.pdelays.length = 4) ∧ (x.lastAt = some z) ∧ (due ≤ now.tb) ∧
      (td = 2 ∨ td = 3)) ∧
    (∃ t : Nat, ∃ d : Nat, ∃ p : Nat, ∃ s : State,
      let now := s.at t;
      let x := s.dom d;
      ∃ a : Sys2Proof.Machine.Ann, (d < 2) ∧ (p < 4) ∧ (s.doms.length = 2) ∧ (s.pdelays.length = 4) ∧ (x.anns = [a]) ∧
      (a.port = s.get (R.TSU_TD_STAT_PORT d)) ∧ (x.master = some a.msg.ident) ∧
      (now.tb < a.at_ + 3 * logSeconds a.msg.log)) ∧
    (∃ t : Nat, ∃ d : Nat, ∃ p : Nat, ∃ s : State,
      let now := s.at t;
      let x := s.dom d;
      let td := s.get (R.TSU_TD_STAT_STATE d);
      ∃ a : Sys2Proof.Machine.Ann, (d < 2) ∧ (p < 4) ∧ (s.doms.length = 2) ∧ (s.pdelays.length = 4) ∧ (x.anns = [a]) ∧
      (a.port = s.get (R.TSU_TD_STAT_PORT d)) ∧ (x.master = some a.msg.ident) ∧
      (a.at_ + 3 * logSeconds a.msg.log ≤ now.tb) ∧ (td = 2 ∨ td = 3)) ∧
    (∃ d : Nat, ∃ p : Nat, ∃ s : State, (d < 2) ∧ (p < 4) ∧ (s.doms.length = 2) ∧ (s.pdelays.length = 4) ∧ ((∀ k,
      k < 2 → s.tdOn k = true ∧ s.get (R.TSU_TD_STAT_STATE k) ≠ 0))) ∧
    (∃ d : Nat, ∃ p : Nat, ∃ s : State,
      let td := s.get (R.TSU_TD_STAT_STATE d);
      (d < 2) ∧ (p < 4) ∧ (s.doms.length = 2) ∧ (s.pdelays.length = 4) ∧ (s.get R.TSU_CTL_SEL = d) ∧
      (s.get R.TSU_STAT_INFORCE = d ∨ td ≠ 3)) ∧
    (∃ t : Nat, ∃ d : Nat, ∃ p : Nat, ∃ s : State,
      let now := s.at t;
      let x := s.dom d;
      (d < 2) ∧ (p < 4) ∧ (s.doms.length = 2) ∧ (s.pdelays.length = 4) ∧ (s.get R.TSU_CTL_SEL = d) ∧
      (s.is R.TSU_CTL_AUTOSEL = true) ∧ (x.fell = true) ∧ ((∀ z, x.lockedAt = some z → now.tb < z + 60 * second))) ∧
    (∃ t : Nat, ∃ d : Nat, ∃ p : Nat, ∃ s : State,
      let now := s.at t;
      let x := s.dom d;
      let td := s.get (R.TSU_TD_STAT_STATE d);
      (d < 2) ∧ (p < 4) ∧ (s.doms.length = 2) ∧ (s.pdelays.length = 4) ∧ (s.get R.TSU_CTL_SEL = d) ∧
      (s.get R.TSU_STAT_INFORCE = 1 - d) ∧ (td = 3) ∧ (s.is R.TSU_CTL_AUTOSEL = false ∨ x.fell = false ∨ (∃ z,
      x.lockedAt = some z ∧ z + 60 * second ≤ now.tb))) :=
  ⟨⟨T, 1, 1, (d0.clr (R.TSU_TD_CFG_PROFILE 1)), ms, an1, by decide +kernel⟩,
  ⟨1, 1, ((d0.clr (R.TSU_TD_CFG_PROFILE 1)).put R.CLK_STAT_MODE 1), by decide +kernel⟩,
  ⟨1, 1, (d0.clr (R.TSU_TD_CFG_PROFILE 1)),
    ({ dom := 3, ident := 77, seq := 9, two := true, sec := 1577836800, ns := 62000, cf := 4096, rx := 999000, log := -3 }),
    by decide +kernel⟩,
  ⟨1, 1, (d0.clr (R.TSU_TD_CFG_PROFILE 1)), by decide +kernel⟩,
  ⟨T, 1, 1, (d1 2), sy, (Instr.syncMessage T 1 sy),
    by repeat' (first | apply And.intro | exact Or.inl ⟨rfl, by decide +kernel⟩ | decide +kernel)⟩,
  ⟨T, 1, 1, (d1 2), 1000, by decide +kernel⟩,
  ⟨1000000000000, 1, 1, (d1 3), 1000, by decide +kernel⟩,
  ⟨T, 1, 1, (d1 2), ({ an1 with qualified := true }), by decide +kernel⟩,
  ⟨1000000000000, 1, 1, (d1 3), ({ an1 with qualified := true }), by decide +kernel⟩,
  ⟨1, 1,
    ((((((d1 3).put R.TSU_STAT_INFORCE 0).set1 R.TSU_CTL_AUTOSEL)).upDom 1 fun x => {x with fell := true, lockedAt := some 7}).set1 (R.TSU_TD_CFG_EN 0) |>.put (R.TSU_TD_STAT_STATE 0) 1),
    by decide +kernel⟩,
  ⟨1, 1, (d1 2), by decide +kernel⟩,
  ⟨1000000, 1, 1,
    (((((d1 3).put R.TSU_STAT_INFORCE 0).set1 R.TSU_CTL_AUTOSEL)).upDom 1 fun x => {x with fell := true, lockedAt := some 7}),
    by decide +kernel⟩,
  ⟨1000000000000, 1, 1, (((d1 3).put R.TSU_STAT_INFORCE 0).clr R.TSU_CTL_AUTOSEL), by decide +kernel⟩⟩

theorem witness_TriggersFireAtTheirInstants :
    (∃ k : Nat, ∃ s : State,
      let x := s.trig k;
      (k < 16) ∧ (s.trigs.length = 16) ∧ (x.enReq = none)) ∧
    (∃ t : Nat, ∃ k : Nat, ∃ s : State,
      let now := s.at t;
      let x := s.trig k;
      ∃ e : Nat, (k < 16) ∧ (s.trigs.length = 16) ∧ (x.enReq = some e) ∧ (now.tb < e)) ∧
    (∃ t : Nat, ∃ k : Nat, ∃ s : State,
      let now := s.at t;
      let x := s.trig k;
      ∃ e : Nat, (k < 16) ∧ (s.trigs.length = 16) ∧ (x.enReq = some e) ∧ (e ≤ now.tb) ∧
      (s.is (R.TSU_TT_CTL k) = false)) ∧
    (∃ t : Nat, ∃ k : Nat, ∃ s : State,
      let now := s.at t;
      let x := s.trig k;
      let st := s.get (R.TSU_TT_START k);
      ∃ e : Nat, (k < 16) ∧ (s.trigs.length = 16) ∧ (x.enReq = some e) ∧ (e ≤ now.tb) ∧
      (s.is (R.TSU_TT_CTL k) = true) ∧ (x.enAt = none) ∧ (e < st)) ∧
    (∃ t : Nat, ∃ k : Nat, ∃ s : State,
      let now := s.at t;
      let x := s.trig k;
      let st := s.get (R.TSU_TT_START k);
      let p := if s.get (R.TSU_TT_PERIOD k) = 0 then 0 else max (s.get (R.TSU_TT_PERIOD k)) 16000;
      ∃ e : Nat, (k < 16) ∧ (s.trigs.length = 16) ∧ (x.enReq = some e) ∧ (e ≤ now.tb) ∧
      (s.is (R.TSU_TT_CTL k) = true) ∧ (x.enAt = none) ∧ (st ≤ e) ∧ (p = 0)) ∧
    (∃ t : Nat, ∃ k : Nat, ∃ s : State,
      let now := s.at t;
      let x := s.trig k;
      let st := s.get (R.TSU_TT_START k);
      let p := if s.get (R.TSU_TT_PERIOD k) = 0 then 0 else max (s.get (R.TSU_TT_PERIOD k)) 16000;
      ∃ e : Nat, (k < 16) ∧ (s.trigs.length = 16) ∧ (x.enReq = some e) ∧ (e ≤ now.tb) ∧
      (s.is (R.TSU_TT_CTL k) = true) ∧ (x.enAt = none) ∧ (st ≤ e) ∧ (p ≠ 0)) ∧
    (∃ t : Nat, ∃ k : Nat, ∃ s : State,
      let now := s.at t;
      let eff (x : Nat) : Nat := if s.clk.dll then (x + 639) / 640 * 640 else x;
      let x := s.trig k;
      ∃ u : Nat, (k < 16) ∧ (s.trigs.length = 16) ∧ (x.next = some u) ∧ (s.is (R.TSU_TT_CTL k) = true) ∧
      (eff u ≤ now.tb)) ∧
    (∃ t : Nat, ∃ k : Nat, ∃ s : State,
      let now := s.at t;
      let eff (x : Nat) : Nat := if s.clk.dll then (x + 639) / 640 * 640 else x;
      let x := s.trig k;
      ∃ u : Nat, (k < 16) ∧ (s.trigs.length = 16) ∧ (x.next = some u) ∧
      (now.tb < eff u ∨ (s.is (R.TSU_TT_CTL k) = false ∧ ∀ e, x.enReq = some e → e ≤ u))) :=
  ⟨⟨5, z0, by decide +kernel⟩,
  ⟨T, 5, (z0.upTrig 5 fun x => {x with enReq := some 1999500, next := some 999000}), 1999500, by decide +kernel⟩,
  ⟨T, 5, (z0.upTrig 5 fun x => {x with enReq := some 999500, next := some 999000}), 999500, by decide +kernel⟩,
  ⟨T, 5, ((z0.upTrig 5 fun x => {x with enReq := some 998500}).set1 (R.TSU_TT_CTL 5)), 998500, by decide +kernel⟩,
  ⟨T, 5, ((z0.upTrig 5 fun x => {x with enReq := some 999500}).set1 (R.TSU_TT_CTL 5)), 999500, by decide +kernel⟩,
  ⟨T, 5, (((z0.upTrig 5 fun x => {x with enReq := some 999500}).set1 (R.TSU_TT_CTL 5)).put (R.TSU_TT_PERIOD 5) 7),
    999500, by decide +kernel⟩,
  ⟨T, 5,
    (((z0.set1 (R.TSU_TT_CTL 5)).put (R.TSU_TT_PERIOD 5) 7).upTrig 5 fun x => { x with next := some 999000, enAt := some 2 }),
    999000, by decide +kernel⟩,
  ⟨990000, 5,
    (((z0.set1 (R.TSU_TT_CTL 5)).put (R.TSU_TT_PERIOD 5) 7).upTrig 5 fun x => { x with next := some 999000 }), 999000,
    by decide +kernel⟩⟩

end Sys2Proof.Tests.Time

namespace Sys2Proof.Tests.Journal

open Sys2Proof Sys2Proof.Machine

/-! ### Journal: small states, and the hypotheses they meet -/

/-- An instant. -/
abbrev T : Nat := 1000000

def mm : List Byte := (List.range 40).map (BitVec.ofNat 8)

def t0 : State :=
  (State.reset.set1 R.TWN_CTL_EN).upTwn fun x => { x with rxSeq := some 7, store := [{typ:=1,lseq:=3,part:=0,len:=4,msg:=.nak 7,pay:=0}] }

def t1 : State :=
  ((t0.set1 (R.CE_RUNCTL_EN 3)).put R.TWN_STAT_STATE 3 |>.upEng 3 fun e => { e with ready := true }).put R.MLD_QUIESCE 0

def st1 : State := t1.upTwn fun x => { x with held := [.write 1 (R.PWM_PG_TRG 0 1).addr 1 1] }

theorem witness_JournalRecordsAreHeldAndApplied :
    (∃ t : Nat, ∃ s : State, ∃ lseq : Nat, ∃ whole : Bool, ∃ u : Nat, ∃ num : Nat, ∃ stamp : Nat, ∃ merged : Nat,
      ∃ fix : Sys2Proof.Fixed, ∃ addr : Nat, ∃ v : Nat, ∃ f : Nat, ∃ slot : Nat, ∃ st : Nat, ∃ vals : List Nat,
      ∃ n : Nat, ∃ idx : Nat, ∃ crc : Nat, ∃ loser : Bool, ∃ missing : Nat, ∃ item : Sys2Proof.JoinItem,
      ∃ c : Sys2Proof.Instr, (s.engs.length = 8) ∧ (s.twn.downAt.length = 2) ∧ (s.is R.TWN_CTL_EN = true) ∧ (u < 8) ∧
      (f < 16) ∧ (n < 8) ∧
      (c = Instr.journalRunRecord t false lseq whole u num stamp merged fix ∨ c = Instr.journalWriteRecord t false lseq addr v st ∨ c = Instr.journalFilterRecord t false lseq f slot st vals num ∨ c = Instr.checkpoint t false lseq n num idx crc ∨ c = Instr.verdict t false lseq n loser ∨ c = Instr.nak t false lseq missing ∨ c = Instr.stateFrame t false lseq whole item)) ∧
    (∃ s : State, (s.engs.length = 8) ∧ (s.twn.downAt.length = 2) ∧ (s.is R.TWN_CTL_EN = true) ∧
      (s.twn.rxSeq = none)) ∧
    (∃ s : State, ∃ q : Nat, ∃ f, (s.engs.length = 8) ∧ (s.twn.downAt.length = 2) ∧ (s.is R.TWN_CTL_EN = true) ∧
      (s.twn.rxSeq = some q) ∧ (q < 2 ^ 32) ∧ (f < 16)) ∧
    (∃ s : State, ∃ q : Nat, ∃ u : Nat, ∃ stamp : Nat, (s.engs.length = 8) ∧ (s.twn.downAt.length = 2) ∧
      (s.is R.TWN_CTL_EN = true) ∧ (s.twn.rxSeq = some q) ∧ (q < 2 ^ 32) ∧ (u < 8) ∧ (s.is R.TWN_STAT_JSRC = false ∧
      s.engLive (s.phys u) = true) ∧ (s.phys u < 8) ∧ (s.twn.join = none) ∧
      (((s.eng (s.phys u)).wait.any fun k => decide (k.stamp = stamp)) = false)) ∧
    (∃ s : State, ∃ q : Nat, ∃ k : Nat, ∃ f, (s.engs.length = 8) ∧ (s.twn.downAt.length = 2) ∧
      (s.is R.TWN_CTL_EN = true) ∧ (s.twn.rxSeq = some q) ∧ (q < 2 ^ 32) ∧
      (s.twn.store.find? (fun e => decide (e.lseq = k)) = some f)) ∧
    (∃ t : Nat, ∃ s : State,
      let now := s.at t;
      (s.engs.length = 8) ∧ (s.twn.downAt.length = 2) ∧ ((∀ h ∈ s.twn.held, now.tb < heldAt h))) ∧
    (∃ t : Nat, ∃ s : State,
      let now := s.at t;
      ∃ x : Nat, ∃ f, ∃ slot : Nat, ∃ st : Nat, ∃ vals : List Nat, (s.engs.length = 8) ∧ (s.twn.downAt.length = 2) ∧
      (x ≤ now.tb) ∧ (f < 16) ∧ (slot < 16384) ∧ (vals.length = 14) ∧ (s.twn.held = [.filter x f slot st vals])) ∧
    (∃ s : State, ∃ q : Nat, ∃ k : Nat, (s.engs.length = 8) ∧ (s.twn.downAt.length = 2) ∧ (s.is R.TWN_CTL_EN = true) ∧
      (s.twn.rxSeq = some q) ∧ (q < 2 ^ 32) ∧ (s.twn.store.find? (fun e => decide (e.lseq = k)) = none)) ∧
    (∃ t : Nat, ∃ s : State,
      let now := s.at t;
      ∃ x : Nat, ∃ i : Nat, ∃ v : Nat, ∃ z : Nat, (s.engs.length = 8) ∧ (s.twn.downAt.length = 2) ∧ (x ≤ now.tb) ∧
      (i < 32) ∧ (s.twn.held = [.write x (R.PWM_PG_TRG (i / 4) (i % 4)).addr v z])) ∧
    (∃ s : State, ∃ l : Nat, (s.engs.length = 8) ∧ (s.twn.downAt.length = 2) ∧ (l < 2)) :=
  ⟨⟨T, t0, 3, false, 3, 3, 3, 3, ({}), 3, 3, 3, 3, 3, ([]), 3, 3, 3, true, 3, (.memory 0x70000100 mm),
    (.nak T false 3 3), by decide +kernel⟩,
  ⟨(State.reset.set1 R.TWN_CTL_EN), by decide +kernel⟩,
  ⟨t0, 7, 3, by decide +kernel⟩,
  ⟨(t1.upTwn fun x => { x with held := [.write T (R.PWM_PG_TRG 0 3).addr 3 3] }), 7, 3, 3, by decide +kernel⟩,
  ⟨t0, 7, 3, ({ typ := 1, lseq := 3, part := 0, len := 4, msg := Sys2Proof.Machine.TwMsg.nak 7, pay := 0 }),
    by decide +kernel⟩,
  ⟨T, t0, by decide +kernel⟩,
  ⟨T, (t1.upTwn fun x => { x with held := [.filter 3 3 3 3 (List.range 14)], rxSeq := some 3 }), 3, 3, 3, 3, ([0, 1,
    2, 3, 4, 5, 6, 7, 8, 9, 10, 11, 12, 13]), by decide +kernel⟩,
  ⟨st1, 7, 1, by decide +kernel⟩,
  ⟨T, st1, 1, 1, 1, 1, by decide +kernel⟩,
  ⟨st1, 1, by decide +kernel⟩⟩

end Sys2Proof.Tests.Journal

namespace Sys2Proof.Tests.PairState

open Sys2Proof Sys2Proof.Machine

/-! ### PairState: small states, and the hypotheses they meet -/

/-- An instant. -/
abbrev T : Nat := 1000000

def xk : Chk := ⟨3, 3, 5, 77, 1000, false⟩

def t0 : State :=
  (((State.reset.set1 R.TWN_CTL_EN).put R.TWN_STAT_STATE 3).put R.TWN_STAT_LANES 3).upTwn fun x => { x with rxSeq := some 7 }

def own (s : State) : State := s.upTwn fun x => { x with own := [xk] }

def st1 : State := (t0.clr R.TWN_STAT_LANES).upTwn fun x => { x with verdictBy := some (T, 3), limitAt := some 5 }

def st2 : State :=
  ((t0.clr R.TWN_STAT_LANES).set1 R.TWN_STAT_ROLE).upTwn fun x => { x with verdictBy := some (T+1, 3), limitAt := some 5 }

theorem witness_PairStatesChangeOnDivergenceAndLoss :
    (∃ s : State, ∃ q : Nat, ∃ n : Nat, (s.engs.length = 8) ∧ (s.lanes.length = 12) ∧ (s.groups.length = 8) ∧
      (s.chans.length = 48) ∧ (s.twn.runOk.length = 8) ∧ (s.is R.TWN_CTL_EN = true) ∧ (s.twn.rxSeq = some q) ∧
      (q < 2 ^ 32) ∧ (n < 8) ∧ (s.twn.serving = []) ∧ (s.twn.own = [])) ∧
    (∃ s : State, ∃ q : Nat, ∃ n : Nat, ∃ num : Nat, ∃ idx : Nat, ∃ crc : Nat, ∃ at_ : Nat, (s.engs.length = 8) ∧
      (s.lanes.length = 12) ∧ (s.groups.length = 8) ∧ (s.chans.length = 48) ∧ (s.twn.runOk.length = 8) ∧
      (s.is R.TWN_CTL_EN = true) ∧ (s.twn.rxSeq = some q) ∧ (q < 2 ^ 32) ∧ (n < 8) ∧ (s.twn.serving = []) ∧
      (s.twn.own = [⟨n, num, idx, crc, at_, false⟩])) ∧
    (∃ t : Nat, ∃ s : State, ∃ q : Nat,
      let now := s.at t;
      ∃ n : Nat, ∃ crc : Nat, ∃ x, ∃ c : Sys2Proof.Instr, (s.engs.length = 8) ∧ (s.lanes.length = 12) ∧
      (s.groups.length = 8) ∧ (s.chans.length = 48) ∧ (s.twn.runOk.length = 8) ∧ (s.is R.TWN_CTL_EN = true) ∧
      (s.twn.rxSeq = some q) ∧ (q < 2 ^ 32) ∧ (n < 8) ∧ (s.twn.serving = []) ∧ (s.twn.own = [x]) ∧ (x.n = n) ∧
      ((c = Instr.checkpoint t true q n x.num x.idx crc ∧ crc ≠ x.crc ∧
      x.fin = false) ∨ (c = Instr.checkpointTimeout t n ∧ x.at_ + 320000 ≤ now.tb ∧ s.get R.TWN_STAT_LANES ≠ 0 ∧
      s.compares n = true)) ∧ (s.is R.TWN_STAT_JSRC = true) ∧ (s.sourceLoses = false)) ∧
    (∃ t : Nat, ∃ s : State, ∃ q : Nat,
      let now := s.at t;
      ∃ n : Nat, ∃ crc : Nat, ∃ x, ∃ c : Sys2Proof.Instr, (s.engs.length = 8) ∧ (s.lanes.length = 12) ∧
      (s.groups.length = 8) ∧ (s.chans.length = 48) ∧ (s.twn.runOk.length = 8) ∧ (s.is R.TWN_CTL_EN = true) ∧
      (s.twn.rxSeq = some q) ∧ (q < 2 ^ 32) ∧ (n < 8) ∧ (s.twn.serving = []) ∧ (s.twn.own = [x]) ∧ (x.n = n) ∧
      ((c = Instr.checkpoint t true q n x.num x.idx crc ∧ crc ≠ x.crc ∧
      x.fin = false) ∨ (c = Instr.checkpointTimeout t n ∧ x.at_ + 320000 ≤ now.tb ∧ s.get R.TWN_STAT_LANES ≠ 0 ∧
      s.compares n = true)) ∧ (s.is R.TWN_STAT_JSRC = true) ∧ (s.sourceLoses = true)) ∧
    (∃ t : Nat, ∃ s : State, ∃ q : Nat,
      let now := s.at t;
      ∃ n : Nat, ∃ crc : Nat, ∃ x, ∃ c : Sys2Proof.Instr, (s.engs.length = 8) ∧ (s.lanes.length = 12) ∧
      (s.groups.length = 8) ∧ (s.chans.length = 48) ∧ (s.twn.runOk.length = 8) ∧ (s.is R.TWN_CTL_EN = true) ∧
      (s.twn.rxSeq = some q) ∧ (q < 2 ^ 32) ∧ (n < 8) ∧ (s.twn.serving = []) ∧ (s.twn.own = [x]) ∧ (x.n = n) ∧
      ((c = Instr.checkpoint t true q n x.num x.idx crc ∧ crc ≠ x.crc ∧
      x.fin = false) ∨ (c = Instr.checkpointTimeout t n ∧ x.at_ + 320000 ≤ now.tb ∧ s.get R.TWN_STAT_LANES ≠ 0 ∧
      s.compares n = true)) ∧ (s.is R.TWN_STAT_JSRC = false) ∧ (s.twn.verdictBy = none)) ∧
    (∃ t : Nat, ∃ s : State, ∃ q : Nat,
      let now := s.at t;
      ∃ n : Nat, ∃ x : Chk, (s.engs.length = 8) ∧ (s.lanes.length = 12) ∧ (s.groups.length = 8) ∧
      (s.chans.length = 48) ∧ (s.twn.runOk.length = 8) ∧ (s.is R.TWN_CTL_EN = true) ∧ (s.twn.rxSeq = some q) ∧
      (q < 2 ^ 32) ∧ (n < 8) ∧ (s.twn.own = [x]) ∧ (now.tb < x.at_ + 320000)) ∧
    (∃ s : State, ∃ q : Nat,
      let st := s.get R.TWN_STAT_STATE;
      ∃ n : Nat, ∃ loser : Bool, (s.engs.length = 8) ∧ (s.lanes.length = 12) ∧ (s.groups.length = 8) ∧
      (s.chans.length = 48) ∧ (s.twn.runOk.length = 8) ∧ (s.is R.TWN_CTL_EN = true) ∧ (s.twn.rxSeq = some q) ∧
      (q < 2 ^ 32) ∧ (n < 8) ∧ (s.is R.TWN_STAT_JSRC = false) ∧ (st = 2 ∨ st = 3 ∨ st = 4) ∧
      (loser = s.is R.TWN_STAT_ROLE)) ∧
    (∃ s : State, ∃ q : Nat,
      let st := s.get R.TWN_STAT_STATE;
      ∃ n : Nat, ∃ loser : Bool, (s.engs.length = 8) ∧ (s.lanes.length = 12) ∧ (s.groups.length = 8) ∧
      (s.chans.length = 48) ∧ (s.twn.runOk.length = 8) ∧ (s.is R.TWN_CTL_EN = true) ∧ (s.twn.rxSeq = some q) ∧
      (q < 2 ^ 32) ∧ (n < 8) ∧ (s.is R.TWN_STAT_JSRC = false) ∧ (st = 2 ∨ st = 3 ∨ st = 4) ∧
      (loser ≠ s.is R.TWN_STAT_ROLE)) ∧
    (∃ t : Nat, ∃ s : State, ∃ q : Nat,
      let now := s.at t;
      ∃ x, (s.engs.length = 8) ∧ (s.lanes.length = 12) ∧ (s.groups.length = 8) ∧ (s.chans.length = 48) ∧
      (s.twn.runOk.length = 8) ∧ (s.is R.TWN_CTL_EN = true) ∧ (s.twn.rxSeq = some q) ∧ (q < 2 ^ 32) ∧
      (s.twn.verdictBy = some x) ∧ (x.1 ≤ now.tb)) ∧
    (∃ t : Nat, ∃ s : State, ∃ q : Nat,
      let now := s.at t;
      ∃ x, (s.engs.length = 8) ∧ (s.lanes.length = 12) ∧ (s.groups.length = 8) ∧ (s.chans.length = 48) ∧
      (s.twn.runOk.length = 8) ∧ (s.is R.TWN_CTL_EN = true) ∧ (s.twn.rxSeq = some q) ∧ (q < 2 ^ 32) ∧
      (s.twn.verdictBy = some x) ∧ (now.tb < x.1)) ∧
    (∃ t : Nat, ∃ s : State, ∃ q : Nat,
      let now := s.at t;
      let st := s.get R.TWN_STAT_STATE;
      let split := now.partnerAlive || !((List.range 12).any fun l => decide (s.get (R.LNE_LN_STAT_STATE l) = 2));
      (s.engs.length = 8) ∧ (s.lanes.length = 12) ∧ (s.groups.length = 8) ∧ (s.chans.length = 48) ∧
      (s.twn.runOk.length = 8) ∧ (s.is R.TWN_CTL_EN = true) ∧ (s.twn.rxSeq = some q) ∧ (q < 2 ^ 32) ∧
      (s.get R.TWN_STAT_LANES = 0) ∧ (st = 2 ∨ st = 3 ∨ st = 4) ∧ ((split && s.is R.TWN_STAT_ROLE) = false)) ∧
    (∃ t : Nat, ∃ s : State, ∃ q : Nat,
      let now := s.at t;
      let st := s.get R.TWN_STAT_STATE;
      let split := now.partnerAlive || !((List.range 12).any fun l => decide (s.get (R.LNE_LN_STAT_STATE l) = 2));
      (s.engs.length = 8) ∧ (s.lanes.length = 12) ∧ (s.groups.length = 8) ∧ (s.chans.length = 48) ∧
      (s.twn.runOk.length = 8) ∧ (s.is R.TWN_CTL_EN = true) ∧ (s.twn.rxSeq = some q) ∧ (q < 2 ^ 32) ∧
      (s.get R.TWN_STAT_LANES = 0) ∧ (st = 2 ∨ st = 3 ∨ st = 4) ∧ ((split && s.is R.TWN_STAT_ROLE) = true)) ∧
    (∃ t : Nat, ∃ s : State, ∃ q : Nat,
      let now := s.at t;
      ∃ x : Nat, (s.engs.length = 8) ∧ (s.lanes.length = 12) ∧ (s.groups.length = 8) ∧ (s.chans.length = 48) ∧
      (s.twn.runOk.length = 8) ∧ (s.is R.TWN_CTL_EN = true) ∧ (s.twn.rxSeq = some q) ∧ (q < 2 ^ 32) ∧
      (s.twn.heardAt = some x) ∧ (s.get R.TWN_STAT_LANES ≠ 0) ∧ (now.tb < max x s.twn.joiningAt + 800000)) ∧
    (∃ t : Nat, ∃ s : State, ∃ q : Nat,
      let now := s.at t;
      let st := s.get R.TWN_STAT_STATE;
      ∃ x, (s.engs.length = 8) ∧ (s.lanes.length = 12) ∧ (s.groups.length = 8) ∧ (s.chans.length = 48) ∧
      (s.twn.runOk.length = 8) ∧ (s.is R.TWN_CTL_EN = true) ∧ (s.twn.rxSeq = some q) ∧ (q < 2 ^ 32) ∧
      (s.twn.lostAt = some x) ∧ (st = 1) ∧ (max x s.twn.joiningAt + 32000000000 ≤ now.tb)) ∧
    (∃ t : Nat, ∃ s : State, ∃ q : Nat,
      let now := s.at t;
      let st := s.get R.TWN_STAT_STATE;
      ∃ x, (s.engs.length = 8) ∧ (s.lanes.length = 12) ∧ (s.groups.length = 8) ∧ (s.chans.length = 48) ∧
      (s.twn.runOk.length = 8) ∧ (s.is R.TWN_CTL_EN = true) ∧ (s.twn.rxSeq = some q) ∧ (q < 2 ^ 32) ∧
      (s.twn.lostAt = some x) ∧ (st = 1) ∧ (now.tb < max x s.twn.joiningAt + 32000000000)) ∧
    (∃ s : State, ∃ q : Nat,
      let st := s.get R.TWN_STAT_STATE;
      (s.engs.length = 8) ∧ (s.lanes.length = 12) ∧ (s.groups.length = 8) ∧ (s.chans.length = 48) ∧
      (s.twn.runOk.length = 8) ∧ (s.is R.TWN_CTL_EN = true) ∧ (s.twn.rxSeq = some q) ∧ (q < 2 ^ 32) ∧
      (st = 0 ∨ st = 1 ∨ st = 5)) ∧
    (∃ t : Nat, ∃ s : State, ∃ q : Nat,
      let now := s.at t;
      let st := s.get R.TWN_STAT_STATE;
      ∃ x, (s.engs.length = 8) ∧ (s.lanes.length = 12) ∧ (s.groups.length = 8) ∧ (s.chans.length = 48) ∧
      (s.twn.runOk.length = 8) ∧ (s.is R.TWN_CTL_EN = true) ∧ (s.twn.rxSeq = some q) ∧ (q < 2 ^ 32) ∧
      (s.twn.limitAt = some x) ∧ (s.is R.TWN_STAT_JSRC = false) ∧ (st = 2 ∨ st = 3 ∨ st = 4) ∧
      (x + 16000000 ≤ now.tb)) ∧
    (∃ t : Nat, ∃ s : State, ∃ q : Nat,
      let now := s.at t;
      ∃ x, (s.engs.length = 8) ∧ (s.lanes.length = 12) ∧ (s.groups.length = 8) ∧ (s.chans.length = 48) ∧
      (s.twn.runOk.length = 8) ∧ (s.is R.TWN_CTL_EN = true) ∧ (s.twn.rxSeq = some q) ∧ (q < 2 ^ 32) ∧
      (s.twn.limitAt = some x) ∧ (now.tb < x + 16000000)) :=
  ⟨⟨t0, 7, 3, by decide +kernel⟩,
  ⟨(t0.upTwn fun x => { x with own := [Chk.mk 3 3 3 3 3 false] }), 7, 3, 3, 3, 3, 3, by decide +kernel⟩,
  ⟨T, (own (t0.set1 R.TWN_STAT_JSRC)), 7, 3, 3, xk, (Sys2Proof.Instr.checkpoint 1000000 true 7 3 3 5 3),
    by decide +kernel⟩,
  ⟨T, (own ((t0.set1 R.TWN_STAT_JSRC).set1 (R.CE_FAULT 2))), 7, 3, 3, xk,
    (Sys2Proof.Instr.checkpoint 1000000 true 7 3 3 5 3), by decide +kernel⟩,
  ⟨T, (own t0), 7, 3, 3, xk, (Sys2Proof.Instr.checkpoint 1000000 true 7 3 3 5 3), by decide +kernel⟩,
  ⟨T, (t0.upTwn fun x => { x with own := [⟨3, 3, 3, 3, 999000, false⟩] }), 7, 3, (⟨3, 3, 3, 3, 999000, false⟩),
    by decide +kernel⟩,
  ⟨t0, 7, 3, false, by decide +kernel⟩,
  ⟨t0, 7, 3, true, by decide +kernel⟩,
  ⟨T, st1, 7, (1000000, 3), by decide +kernel⟩,
  ⟨T, st2, 7, (1000001, 3), by decide +kernel⟩,
  ⟨T, st1, 7, by decide +kernel⟩,
  ⟨T, st2, 7, by decide +kernel⟩,
  ⟨T, (t0.upTwn fun x => { x with heardAt := some 999000 }), 7, 999000, by decide +kernel⟩,
  ⟨32000000005, ((t0.put R.TWN_STAT_STATE 1).upTwn fun x => { x with lostAt := some 5, limitAt := some 5 }), 7, 5,
    by decide +kernel⟩,
  ⟨T, ((t0.put R.TWN_STAT_STATE 1).upTwn fun x => { x with lostAt := some 5 }), 7, 5, by decide +kernel⟩,
  ⟨(t0.put R.TWN_STAT_STATE 5), 7, by decide +kernel⟩,
  ⟨32000000005, ((t0.put R.TWN_STAT_STATE 2).upTwn fun x => { x with limitAt := some 5 }), 7, 5, by decide +kernel⟩,
  ⟨T, st1, 7, 5, by decide +kernel⟩⟩

end Sys2Proof.Tests.PairState

namespace Sys2Proof.Tests.Joins

open Sys2Proof Sys2Proof.Machine

/-! ### Joins: small states, and the hypotheses they meet -/

/-- An instant. -/
abbrev T : Nat := 1000000

def hl : Health :=
  ⟨3, 1, true, 5, true, 17, 160, true, List.replicate 12 0, 255, 999000, some (990000, 995000), none, false,
    List.replicate 8 none, 0xffff⟩

def t0 (st : Nat) : State :=
  ((((State.reset.set1 R.TWN_CTL_EN).set1 R.PWR_STAT_READY).put R.TWN_STAT_STATE st).put R.TWN_STAT_LANES 3).upTwn fun x => { x with rxSeq := some 7 }

def mm : List Byte := (List.range 40).map (BitVec.ofNat 8)

def st1 : State := (t0 1).upTwn fun x => { x with join := some ⟨2, 5, none, false, 0, none⟩ }

def st2 : State :=
  ((t0 1).clr R.TWN_CTL_AUTOJOIN).upTwn fun x => { x with join := some ⟨3, 5, some 8, true, 0, none⟩ }

def st3 : State :=
  (((t0 3).set1 R.TWN_CTL_REVERT).put (R.TSU_TD_STAT_STATE 0) 3).upTwn fun x => { x with healthyAt := some 5, steerAt := some 16000000000000 }

theorem witness_JoinsHandoversAndHealthFrames :
    (∃ s : State, ∃ q : Nat,
      let st := s.get R.TWN_STAT_STATE;
      ∃ h : Health, (s.engs.length = 8) ∧ (s.lanes.length = 12) ∧ (s.groups.length = 8) ∧ (s.is R.TWN_CTL_EN = true) ∧
      (s.twn.rxSeq = some q) ∧ (q < 2 ^ 32) ∧ (h.state < 8) ∧ (h.sampling < 256) ∧ (h.role ≠ s.get R.TWN_STAT_ROLE) ∧
      (h.state = 1) ∧ (st = 1) ∧ (s.is R.TWN_STAT_ROLE = false) ∧ (s.get R.TWN_SHEETS_UNPAIRED = 0)) ∧
    (∃ s : State, ∃ q : Nat,
      let st := s.get R.TWN_STAT_STATE;
      ∃ h : Health, (s.engs.length = 8) ∧ (s.lanes.length = 12) ∧ (s.groups.length = 8) ∧ (s.is R.TWN_CTL_EN = true) ∧
      (s.twn.rxSeq = some q) ∧ (q < 2 ^ 32) ∧ (h.state < 8) ∧ (h.sampling < 256) ∧ (h.role ≠ s.get R.TWN_STAT_ROLE) ∧
      (h.state = 3) ∧ (st = 5) ∧ (s.get R.TWN_SHEETS_UNPAIRED = 0)) ∧
    (∃ s : State, ∃ q : Nat, (s.engs.length = 8) ∧ (s.lanes.length = 12) ∧ (s.groups.length = 8) ∧
      (s.is R.TWN_CTL_EN = true) ∧ (s.twn.rxSeq = some q) ∧ (q < 2 ^ 32) ∧ (s.is R.PWR_STAT_READY = false)) ∧
    (∃ t : Nat, ∃ s : State, ∃ q : Nat,
      let st := s.get R.TWN_STAT_STATE;
      ∃ h, ∃ c : Sys2Proof.Instr, (s.engs.length = 8) ∧ (s.lanes.length = 12) ∧ (s.groups.length = 8) ∧
      (s.is R.TWN_CTL_EN = true) ∧ (s.twn.rxSeq = some q) ∧ (q < 2 ^ 32) ∧ (s.is R.PWR_STAT_READY = true) ∧ (st = 1) ∧
      (s.twn.join = none) ∧ (s.twn.partner = some h) ∧ (h.state = 3 ∨ h.state = 5) ∧
      (c = Instr.join t ∨ (c = Instr.autojoinStart t ∧ s.is R.TWN_CTL_AUTOJOIN = true ∧ s.twn.divAt = none)) ∧
      (h.role = s.get R.TWN_STAT_ROLE)) ∧
    (∃ t : Nat, ∃ s : State, ∃ q : Nat,
      let st := s.get R.TWN_STAT_STATE;
      ∃ h, ∃ c : Sys2Proof.Instr, (s.engs.length = 8) ∧ (s.lanes.length = 12) ∧ (s.groups.length = 8) ∧
      (s.is R.TWN_CTL_EN = true) ∧ (s.twn.rxSeq = some q) ∧ (q < 2 ^ 32) ∧ (s.is R.PWR_STAT_READY = true) ∧ (st = 1) ∧
      (s.twn.join = none) ∧ (s.twn.partner = some h) ∧ (h.state = 3 ∨ h.state = 5) ∧
      (c = Instr.join t ∨ (c = Instr.autojoinStart t ∧ s.is R.TWN_CTL_AUTOJOIN = true ∧ s.twn.divAt = none)) ∧
      (h.role ≠ s.get R.TWN_STAT_ROLE) ∧ (h.digests.headD 0 ≠ s.get (R.MLD_SH_DIGEST 0))) ∧
    (∃ t : Nat, ∃ s : State, ∃ q : Nat,
      let st := s.get R.TWN_STAT_STATE;
      ∃ h, ∃ c : Sys2Proof.Instr, (s.engs.length = 8) ∧ (s.lanes.length = 12) ∧ (s.groups.length = 8) ∧
      (s.is R.TWN_CTL_EN = true) ∧ (s.twn.rxSeq = some q) ∧ (q < 2 ^ 32) ∧ (s.is R.PWR_STAT_READY = true) ∧ (st = 1) ∧
      (s.twn.join = none) ∧ (s.twn.partner = some h) ∧ (h.state = 3 ∨ h.state = 5) ∧
      (c = Instr.join t ∨ (c = Instr.autojoinStart t ∧ s.is R.TWN_CTL_AUTOJOIN = true ∧ s.twn.divAt = none)) ∧
      (h.role ≠ s.get R.TWN_STAT_ROLE) ∧ (h.digests.headD 0 = s.get (R.MLD_SH_DIGEST 0))) ∧
    (∃ t : Nat, ∃ s : State, ∃ q : Nat,
      let now := s.at t;
      ∃ j : Sys2Proof.Machine.Join, ∃ x : Nat, (s.engs.length = 8) ∧ (s.lanes.length = 12) ∧ (s.groups.length = 8) ∧
      (s.is R.TWN_CTL_EN = true) ∧ (s.twn.rxSeq = some q) ∧ (q < 2 ^ 32) ∧ (s.twn.join = some j) ∧
      (j.timed = some x) ∧
      (x + (if j.full then 6400000000 else 800000000) ≤ now.tb ∨ s.twn.rounds.any (64 ≤ ·) = true)) ∧
    (∃ s : State, ∃ q : Nat, ∃ j : Sys2Proof.Machine.Join, (s.engs.length = 8) ∧ (s.lanes.length = 12) ∧
      (s.groups.length = 8) ∧ (s.is R.TWN_CTL_EN = true) ∧ (s.twn.rxSeq = some q) ∧ (q < 2 ^ 32) ∧
      (s.twn.join = some j) ∧ (j.timed = none)) ∧
    (∃ t : Nat, ∃ s : State, ∃ q : Nat,
      let now := s.at t;
      ∃ j : Sys2Proof.Machine.Join, (s.engs.length = 8) ∧ (s.lanes.length = 12) ∧ (s.groups.length = 8) ∧
      (s.is R.TWN_CTL_EN = true) ∧ (s.twn.rxSeq = some q) ∧ (q < 2 ^ 32) ∧ (s.twn.join = some j) ∧ (j.step = 2) ∧
      (j.began + 160000000000 ≤ now.tb)) ∧
    (∃ t : Nat, ∃ s : State, ∃ q : Nat,
      let now := s.at t;
      let st := s.get R.TWN_STAT_STATE;
      let ok := decide (st = 3) && (match s.twn.partner with | some h => decide (h.state = 3) && !h.fault | none => false) && (List.range 8).all fun u => s.paired (u + 1);
      ∃ c : Sys2Proof.Instr, ∃ r : Nat, (s.engs.length = 8) ∧ (s.lanes.length = 12) ∧ (s.groups.length = 8) ∧
      (s.is R.TWN_CTL_EN = true) ∧ (s.twn.rxSeq = some q) ∧ (q < 2 ^ 32) ∧ (s.is R.TWN_STAT_JSRC = true) ∧
      ((c = Instr.handover t ∧ r = 1) ∨ (c = Instr.timeHandover t ∧ r = 3 ∧ s.anyLocked = false ∧ ∃ x,
      s.twn.pLockedAt = some x ∧ x + 160000000000 ≤ now.tb)) ∧ (ok = true)) ∧
    (∃ t : Nat, ∃ s : State, ∃ q : Nat,
      let now := s.at t;
      let st := s.get R.TWN_STAT_STATE;
      let ok := decide (st = 3) && (match s.twn.partner with | some h => decide (h.state = 3) && !h.fault | none => false) && (List.range 8).all fun u => s.paired (u + 1);
      ∃ c : Sys2Proof.Instr, ∃ r : Nat, (s.engs.length = 8) ∧ (s.lanes.length = 12) ∧ (s.groups.length = 8) ∧
      (s.is R.TWN_CTL_EN = true) ∧ (s.twn.rxSeq = some q) ∧ (q < 2 ^ 32) ∧ (s.is R.TWN_STAT_JSRC = true) ∧
      ((c = Instr.handover t ∧ r = 1) ∨ (c = Instr.timeHandover t ∧ r = 3 ∧ s.anyLocked = false ∧ ∃ x,
      s.twn.pLockedAt = some x ∧ x + 160000000000 ≤ now.tb)) ∧ (ok = false)) ∧
    (∃ t : Nat, ∃ s : State, ∃ q : Nat,
      let now := s.at t;
      let st := s.get R.TWN_STAT_STATE;
      ∃ h : Nat, (s.engs.length = 8) ∧ (s.lanes.length = 12) ∧ (s.groups.length = 8) ∧ (s.is R.TWN_CTL_EN = true) ∧
      (s.twn.rxSeq = some q) ∧ (q < 2 ^ 32) ∧ (s.twn.hand = some h) ∧ (st = 4) ∧ (s.twn.swapped = false) ∧
      (h ≤ now.tb)) ∧
    (∃ t : Nat, ∃ s : State, ∃ q : Nat,
      let now := s.at t;
      let st := s.get R.TWN_STAT_STATE;
      ∃ h : Nat, (s.engs.length = 8) ∧ (s.lanes.length = 12) ∧ (s.groups.length = 8) ∧ (s.is R.TWN_CTL_EN = true) ∧
      (s.twn.rxSeq = some q) ∧ (q < 2 ^ 32) ∧ (s.twn.hand = some h) ∧ (st = 4) ∧ (now.tb < h)) ∧
    (∃ t : Nat, ∃ s : State, ∃ q : Nat,
      let now := s.at t;
      let st := s.get R.TWN_STAT_STATE;
      ∃ h : Nat, (s.engs.length = 8) ∧ (s.lanes.length = 12) ∧ (s.groups.length = 8) ∧ (s.is R.TWN_CTL_EN = true) ∧
      (s.twn.rxSeq = some q) ∧ (q < 2 ^ 32) ∧ (s.twn.hand = some h) ∧ (st = 4) ∧ (s.twn.swapped = true) ∧
      (h + 16 * clampN 400 4000 (s.get R.TWN_CFG_PAIR_DLY) ≤ now.tb)) ∧
    (∃ t : Nat, ∃ s : State, ∃ q : Nat,
      let now := s.at t;
      ∃ x : Nat, (s.engs.length = 8) ∧ (s.lanes.length = 12) ∧ (s.groups.length = 8) ∧ (s.is R.TWN_CTL_EN = true) ∧
      (s.twn.rxSeq = some q) ∧ (q < 2 ^ 32) ∧ (s.twn.steerAt = some x) ∧ (s.is R.TWN_STAT_STEER = true) ∧
      (x + 16000000000 ≤ now.tb)) ∧
    (∃ s : State, ∃ q : Nat, (s.engs.length = 8) ∧ (s.lanes.length = 12) ∧ (s.groups.length = 8) ∧
      (s.is R.TWN_CTL_EN = true) ∧ (s.twn.rxSeq = some q) ∧ (q < 2 ^ 32) ∧ (s.is R.TWN_CTL_AUTOJOIN = false)) ∧
    (∃ s : State, ∃ q : Nat, ∃ j : Sys2Proof.Machine.Join, (s.engs.length = 8) ∧ (s.lanes.length = 12) ∧
      (s.groups.length = 8) ∧ (s.is R.TWN_CTL_EN = true) ∧ (s.twn.rxSeq = some q) ∧ (q < 2 ^ 32) ∧
      (s.twn.join = some j) ∧ (j.step ≠ 2)) ∧
    (∃ s : State, ∃ q : Nat, ∃ j : Sys2Proof.Machine.Join, ∃ a : Nat, ∃ bs : List Sys2Proof.Byte,
      (s.engs.length = 8) ∧ (s.lanes.length = 12) ∧ (s.groups.length = 8) ∧ (s.is R.TWN_CTL_EN = true) ∧
      (s.twn.rxSeq = some q) ∧ (q < 2 ^ 32) ∧ (s.twn.join = some j) ∧ ((0x60000000 ≤ a ∧
      a + bs.length ≤ 0x60080000) ∨ (0x70000000 ≤ a ∧ a + bs.length ≤ 0x70200000))) ∧
    (∃ t : Nat, ∃ s : State, ∃ q : Nat,
      let now := s.at t;
      let st := s.get R.TWN_STAT_STATE;
      ∃ x : Nat, (s.engs.length = 8) ∧ (s.lanes.length = 12) ∧ (s.groups.length = 8) ∧ (s.is R.TWN_CTL_EN = true) ∧
      (s.twn.rxSeq = some q) ∧ (q < 2 ^ 32) ∧ (s.twn.healthyAt = some x) ∧ (s.is R.TWN_STAT_ROLE = false ∧
      s.is R.TWN_STAT_JSRC = false ∧ st = 3) ∧ (s.healthFault = false ∧ s.tdState s.inForce = 3) ∧
      ((s.pairedLanes.all fun l => decide (s.get (R.LNE_LN_STAT_STATE l) = 2) && !s.muted l) = true) ∧
      (s.is R.TWN_CTL_REVERT = true) ∧ (x + clampN 10 3600 (s.get R.TWN_HOLDOFF) * 16000000000 ≤ now.tb)) ∧
    (∃ s : State, ∃ q : Nat, (s.engs.length = 8) ∧ (s.lanes.length = 12) ∧ (s.groups.length = 8) ∧
      (s.is R.TWN_CTL_EN = true) ∧ (s.twn.rxSeq = some q) ∧ (q < 2 ^ 32) ∧ (s.is R.TWN_CTL_REVERT = false)) ∧
    (∃ t : Nat, ∃ s : State, ∃ q : Nat,
      let now := s.at t;
      ∃ x : Nat, (s.engs.length = 8) ∧ (s.lanes.length = 12) ∧ (s.groups.length = 8) ∧ (s.is R.TWN_CTL_EN = true) ∧
      (s.twn.rxSeq = some q) ∧ (q < 2 ^ 32) ∧ (s.twn.steerAt = some x) ∧ (now.tb < x + 16000000000)) :=
  ⟨⟨(t0 1), 7, ({ hl with state := 1 }), by decide +kernel⟩,
  ⟨(t0 5), 7, hl, by decide +kernel⟩,
  ⟨((t0 1).clr R.PWR_STAT_READY), 7, by decide +kernel⟩,
  ⟨T, ((t0 1).upTwn fun x => { x with partner := some { hl with role := 0 } }), 7, ({ hl with role := 0 }),
    (Sys2Proof.Instr.join 1000000), by decide +kernel⟩,
  ⟨T, ((t0 1).upTwn fun x => { x with partner := some { hl with digests := [5] } }), 7, ({ hl with digests := [5] }),
    (Sys2Proof.Instr.join 1000000), by decide +kernel⟩,
  ⟨T, (((t0 1).set1 R.TWN_CTL_AUTOJOIN).upTwn fun x => { x with partner := some hl }), 7, hl,
    (Sys2Proof.Instr.join 1000000), by decide +kernel⟩,
  ⟨6400000008, ((t0 1).upTwn fun x => { x with join := some ⟨3, 5, some 8, true, 0, none⟩ }), 7, (⟨3, 5, some 8, true,
    0, none⟩), 8, by decide +kernel⟩,
  ⟨st1, 7, (⟨2, 5, none, false, 0, none⟩), by decide +kernel⟩,
  ⟨160000000005, st1, 7, (⟨2, 5, none, false, 0, none⟩), by decide +kernel⟩,
  ⟨T,
    ((((t0 3).set1 R.TWN_STAT_JSRC).put R.TWN_SHEETS_PAIRED 255).upTwn fun x => { x with partner := some { hl with fault := false } }),
    7, (Instr.handover T), 1, by decide +kernel⟩,
  ⟨T, ((t0 3).set1 R.TWN_STAT_JSRC), 7, (Instr.handover T), 1, by decide +kernel⟩,
  ⟨T, ((t0 4).upTwn fun x => { x with hand := some 1000000 }), 7, 1000000, by decide +kernel⟩,
  ⟨T, ((t0 4).upTwn fun x => { x with hand := some 1000001 }), 7, 1000001, by decide +kernel⟩,
  ⟨T, ((t0 4).upTwn fun x => { x with hand := some 8, swapped := true }), 7, 8, by decide +kernel⟩,
  ⟨16000000008, (((t0 3).set1 R.TWN_STAT_STEER).upTwn fun x => { x with steerAt := some 8 }), 7, 8,
    by decide +kernel⟩,
  ⟨st2, 7, by decide +kernel⟩,
  ⟨st2, 7, ({ step := 3, began := 5, timed := some 8, full := true, resets := 0, f0 := none }), by decide +kernel⟩,
  ⟨st2, 7, ({ step := 3, began := 5, timed := some 8, full := true, resets := 0, f0 := none }), 1879048448, mm,
    by decide +kernel⟩,
  ⟨16000000000000, st3, 7, 5, by decide +kernel⟩,
  ⟨(((t0 3).clr R.TWN_CTL_REVERT).put (R.TSU_TD_STAT_STATE 0) 3), 7, by decide +kernel⟩,
  ⟨16000000000000, st3, 7, 16000000000000, by decide +kernel⟩⟩

end Sys2Proof.Tests.Joins

namespace Sys2Proof.Tests.Island

open Sys2Proof Sys2Proof.Machine

/-! ### Island: small states, and the hypotheses they meet -/

/-- An instant. -/
abbrev T : Nat := 1000000

def W (l : List Byte) (x : Nat × Nat × Nat) : List Byte := l.take x.1 ++ leBytes x.2.1 x.2.2 ++ l.drop (x.1 + x.2.1)

def B0 : List (Nat × Nat × Nat) := [(0,4,0x57534554),(4,2,0x100),(6,2,1),(0xC,2,100)] ++
  (List.range 4).flatMap (fun x => [(0x10+8*x,1,1),(0x11+8*x,1,3),(0x12+8*x,2,50)]) ++
  (List.range 4).flatMap (fun k => [(0x30+16*k,2,0x1011),(0x34+16*k,2,20),(0x36+16*k,2,300),(0x38+16*k,2,10)]) ++
  (List.range 8).flatMap (fun c => [(0x70+32*c,1,if c = 3 then 2 else 1),(0x71+32*c,1,if c=3 then 1 else 0),(0x78+32*c,2,100),(0x74+32*c,4,0x1000+c)]) ++
  (List.range 8).flatMap (fun c => [(0x170+32*c,1,1),(0x178+32*c,2,10),(0x174+32*c,4,0x2000+c)])

def P : List Byte := B0.foldl W (List.replicate 1024 0)

def e0 (st : Nat) : State := ((State.reset.put R.WCH_STAT_STATE st).upIsle fun i => { i with pset := P })

def e1 : State :=
  ((e0 1).put R.WCH_IN_RAW 0x5A).put R.WCH_IN_FILT 0x55 |>.upIsle fun i => { i with sinSince := [0,0,0,0,0,0,0,0] }

def st1 : State := e1.upIsle fun i => { i with nextA := 7, nextB := 1000000001, lowA := true }

def st2 : State :=
  (e1.set1 (soBit 1 0)).upIsle fun i => { i with pairs := i.pairs.map fun p => { p with since := some 5, zero := true }, outs := i.outs.map fun o => { o with offAt := some 7} }

def st3 : State :=
  ((e1.set1 (soBit 1 0)).set1 (soBit 3 0)).upOut 1 fun o => { o with pulse := some 1000000001, offAt := some 1000000001 }

def st4 : State :=
  ((e0 1).upIsle fun i => {i with sealRaw := 4, sealAt := 1, press := 100, lows := 10}).put R.WCH_STAT_SEAL 9

theorem witness_IslandInputsAndOutputsFollowTheSet :
    (∃ s : State, ∃ level : Nat, (s.isle.pairs.length = 4) ∧ (s.isle.outs.length = 4) ∧ (s.isle.sinSince.length = 8) ∧
      (level < 256)) ∧
    (∃ t : Nat, ∃ s : State,
      let now := s.at t;
      (s.isle.pairs.length = 4) ∧ (s.isle.outs.length = 4) ∧ (s.isle.sinSince.length = 8) ∧ (s.isle.pset ≠ []) ∧
      (s.isle.nextA ≤ now.wt) ∧ (s.isle.lowA = false)) ∧
    (∃ t : Nat, ∃ s : State,
      let now := s.at t;
      (s.isle.pairs.length = 4) ∧ (s.isle.outs.length = 4) ∧ (s.isle.sinSince.length = 8) ∧ (s.isle.pset ≠ []) ∧
      (s.isle.nextB ≤ now.wt) ∧ (s.isle.lowB = false)) ∧
    (∃ t : Nat, ∃ s : State,
      let now := s.at t;
      (s.isle.pairs.length = 4) ∧ (s.isle.outs.length = 4) ∧ (s.isle.sinSince.length = 8) ∧ (s.isle.pset ≠ []) ∧
      (s.isle.nextA ≤ now.wt) ∧ (s.isle.lowA = true)) ∧
    (∃ t : Nat, ∃ s : State,
      let now := s.at t;
      ∃ b : Bool, (s.isle.pairs.length = 4) ∧ (s.isle.outs.length = 4) ∧ (s.isle.sinSince.length = 8) ∧
      (now.wt < (if b then s.isle.nextB else s.isle.nextA) ∨ s.isle.pset = [])) ∧
    (∃ t : Nat, ∃ s : State,
      let now := s.at t;
      ∃ x : Nat, ∃ t0 : Nat, (s.isle.pairs.length = 4) ∧ (s.isle.outs.length = 4) ∧ (s.isle.sinSince.length = 8) ∧
      (x < 4) ∧ ((s.islePair x).since = some t0) ∧ ((s.islePair x).agreed = false) ∧ (t0 + s.pairDisc x < now.wt) ∧
      (s.pairOn x = true) ∧ (s.is (pairBit x 2) = false)) ∧
    (∃ s : State, ∃ x : Nat, (s.isle.pairs.length = 4) ∧ (s.isle.outs.length = 4) ∧ (s.isle.sinSince.length = 8) ∧
      (x < 4) ∧ ((s.islePair x).since = none)) ∧
    (∃ s : State,
      let st := s.get R.WCH_STAT_STATE;
      (s.isle.pairs.length = 4) ∧ (s.isle.outs.length = 4) ∧ (s.isle.sinSince.length = 8) ∧ (st = 4)) ∧
    (∃ s : State,
      let st := s.get R.WCH_STAT_STATE;
      (s.isle.pairs.length = 4) ∧ (s.isle.outs.length = 4) ∧ (s.isle.sinSince.length = 8) ∧ (st = 1)) ∧
    (∃ t : Nat, ∃ s : State,
      let now := s.at t;
      ∃ k : Nat,
      let o := s.isleOut k;
      ∃ x : Nat, (s.isle.pairs.length = 4) ∧ (s.isle.outs.length = 4) ∧ (s.isle.sinSince.length = 8) ∧ (k < 4) ∧
      (o.offAt = some x) ∧ (x ≤ now.wt)) ∧
    (∃ t : Nat, ∃ s : State,
      let now := s.at t;
      ∃ k : Nat,
      let o := s.isleOut k;
      ∃ x : Nat, (s.isle.pairs.length = 4) ∧ (s.isle.outs.length = 4) ∧ (s.isle.sinSince.length = 8) ∧ (k < 4) ∧
      (o.offAt = some x) ∧ (now.wt < x)) ∧
    (∃ t : Nat, ∃ s : State,
      let now := s.at t;
      ∃ k : Nat,
      let o := s.isleOut k;
      ∃ sob : Nat, (s.isle.pairs.length = 4) ∧ (s.isle.outs.length = 4) ∧ (s.isle.sinSince.length = 8) ∧ (k < 4) ∧
      ((∀ j, j < 4 → j ≠ k → bit sob j = (s.is (soBit j 0) && (s.isleOut j).pulse.isNone))) ∧
      (s.is (soBit k 2) = false) ∧ ((∀ j, j < 4 → j ≠ k → (s.isleOut j).lowBy = none ∧ (s.isleOut j).highBy = none)) ∧
      (o.cmdAt + 2400000 ≤ now.wt) ∧ (bit sob k ≠ (s.is (soBit k 0) && o.pulse.isNone)) ∧ (o.lowBy = none) ∧
      (o.highBy = none) ∧ (o.miss = 0)) ∧
    (∃ t : Nat, ∃ s : State,
      let now := s.at t;
      ∃ k : Nat,
      let o := s.isleOut k;
      ∃ sob : Nat, (s.isle.pairs.length = 4) ∧ (s.isle.outs.length = 4) ∧ (s.isle.sinSince.length = 8) ∧ (k < 4) ∧
      ((∀ j, j < 4 → j ≠ k → bit sob j = (s.is (soBit j 0) && (s.isleOut j).pulse.isNone))) ∧
      (s.is (soBit k 2) = false) ∧ ((∀ j, j < 4 → j ≠ k → (s.isleOut j).lowBy = none ∧ (s.isleOut j).highBy = none)) ∧
      (o.cmdAt + 2400000 ≤ now.wt) ∧ (bit sob k ≠ (s.is (soBit k 0) && o.pulse.isNone)) ∧ (o.lowBy = none) ∧
      (o.highBy = none) ∧ (1 ≤ o.miss)) ∧
    (∃ t : Nat, ∃ s : State,
      let now := s.at t;
      let st := s.get R.WCH_STAT_STATE;
      ∃ k : Nat,
      let o := s.isleOut k;
      (s.isle.pairs.length = 4) ∧ (s.isle.outs.length = 4) ∧ (s.isle.sinSince.length = 8) ∧ (k < 4) ∧ (st = 1 ∧
      s.is (soBit k 0) = true ∧ o.offAt = none) ∧ ((∀ j, j < 4 → (s.isleOut j).pulse = none)) ∧ (o.testAt ≤ now.wt ∧
      s.isle.pulseEnd + 32000000 ≤ now.wt)) ∧
    (∃ t : Nat, ∃ s : State,
      let now := s.at t;
      let st := s.get R.WCH_STAT_STATE;
      ∃ k : Nat,
      let o := s.isleOut k;
      (s.isle.pairs.length = 4) ∧ (s.isle.outs.length = 4) ∧ (s.isle.sinSince.length = 8) ∧ (k < 4) ∧
      (st ≠ 1 ∨ s.is (soBit k 0) = false ∨ now.wt < o.testAt)) ∧
    (∃ t : Nat, ∃ s : State,
      let now := s.at t;
      ∃ k : Nat,
      let o := s.isleOut k;
      ∃ x : Nat, (s.isle.pairs.length = 4) ∧ (s.isle.outs.length = 4) ∧ (s.isle.sinSince.length = 8) ∧ (k < 4) ∧
      (o.pulse = some x) ∧ (x ≤ now.wt)) ∧
    (∃ t : Nat, ∃ s : State,
      let now := s.at t;
      ∃ k : Nat,
      let o := s.isleOut k;
      ∃ x : Nat, (s.isle.pairs.length = 4) ∧ (s.isle.outs.length = 4) ∧ (s.isle.sinSince.length = 8) ∧ (k < 4) ∧
      (o.pulse = some x) ∧ (now.wt < x)) :=
  ⟨⟨e1, 7, by decide +kernel⟩,
  ⟨48000000, e1, by decide +kernel⟩,
  ⟨48000000, e1, by decide +kernel⟩,
  ⟨1000000000, st1, by decide +kernel⟩,
  ⟨1000000000, st1, true, by decide +kernel⟩,
  ⟨1000000000, st2, 0, 5, by decide +kernel⟩,
  ⟨e1, 0, by decide +kernel⟩,
  ⟨(e0 4), by decide +kernel⟩,
  ⟨e1, by decide +kernel⟩,
  ⟨1000000000, st2, 0, 7, by decide +kernel⟩,
  ⟨1000000000, st3, 1, 1000000001, by decide +kernel⟩,
  ⟨48000000, e1, 0, 1, by decide +kernel⟩,
  ⟨1000000000, (e1.upOut 1 fun o => { o with miss := 1 }), 1, 2, by decide +kernel⟩,
  ⟨1000000000, ((e1.set1 (soBit 1 0)).set1 (soBit 3 0)), 1, by decide +kernel⟩,
  ⟨48000000, e1, 0, by decide +kernel⟩,
  ⟨1000000000, (((e1.set1 (soBit 1 0)).set1 (soBit 3 0)).upOut 1 fun o => { o with pulse := some 1000000000 }), 1,
    1000000000, by decide +kernel⟩,
  ⟨1000000000, st3, 1, 1000000001, by decide +kernel⟩⟩

theorem witness_IslandStatesFollowSealResetAndFaults :
    (∃ t : Nat, ∃ s : State,
      let st := s.get R.WCH_STAT_STATE;
      ∃ c : Sys2Proof.Instr, (s.isle.outs.length = 4) ∧ (s.isle.pairs.length = 4) ∧ (s.isle.conns.length = 8) ∧
      (st ≠ 3 ∨ s.is R.WCH_PSSTAT_BUSY = true) ∧ (c = Instr.check t ∨ c = Instr.store t)) ∧
    (∃ t : Nat, ∃ s : State,
      let now := s.at t;
      let st := s.get R.WCH_STAT_STATE;
      let i := s.isle;
      ∃ ver : Nat, (s.isle.outs.length = 4) ∧ (s.isle.pairs.length = 4) ∧ (s.isle.conns.length = 8) ∧ (ver < 65536) ∧
      (st = 0) ∧ (i.tested = false) ∧ (i.sealAt + 320000000 ≤ now.wt)) ∧
    (∃ t : Nat, ∃ s : State,
      let now := s.at t;
      let st := s.get R.WCH_STAT_STATE;
      let i := s.isle;
      ∃ ver : Nat, (s.isle.outs.length = 4) ∧ (s.isle.pairs.length = 4) ∧ (s.isle.conns.length = 8) ∧ (ver < 65536) ∧
      (st = 0) ∧ (i.tested = false) ∧ (now.wt < i.sealAt + 320000000)) ∧
    (∃ s : State,
      let i := s.isle;
      ∃ v : Nat, (s.isle.outs.length = 4) ∧ (s.isle.pairs.length = 4) ∧ (s.isle.conns.length = 8) ∧ (v < 256) ∧
      (i.sealRaw ≠ v)) ∧
    (∃ t : Nat, ∃ s : State,
      let now := s.at t;
      let st := s.get R.WCH_STAT_STATE;
      let i := s.isle;
      ∃ v : Nat, (s.isle.outs.length = 4) ∧ (s.isle.pairs.length = 4) ∧ (s.isle.conns.length = 8) ∧ (v < 256) ∧
      (i.sealRaw = v) ∧ (i.sealAt + 320000000 ≤ now.wt) ∧ (s.get R.WCH_STAT_SEAL ≠ v) ∧ (st = 2)) ∧
    (∃ t : Nat, ∃ s : State,
      let now := s.at t;
      let st := s.get R.WCH_STAT_STATE;
      let i := s.isle;
      ∃ v : Nat, (s.isle.outs.length = 4) ∧ (s.isle.pairs.length = 4) ∧ (s.isle.conns.length = 8) ∧ (v < 256) ∧
      (i.sealRaw = v) ∧ (i.sealAt + 320000000 ≤ now.wt) ∧ (s.get R.WCH_STAT_SEAL ≠ v) ∧ (st = 1) ∧
      (v % 8 ≠ s.get R.WCH_STAT_SEAL % 8 ∨ 8 ≤ v)) ∧
    (∃ t : Nat, ∃ s : State,
      let now := s.at t;
      let st := s.get R.WCH_STAT_STATE;
      let i := s.isle;
      ∃ v : Nat, (s.isle.outs.length = 4) ∧ (s.isle.pairs.length = 4) ∧ (s.isle.conns.length = 8) ∧ (v < 256) ∧
      (i.sealRaw = v) ∧ (i.sealAt + 320000000 ≤ now.wt) ∧ (s.get R.WCH_STAT_SEAL ≠ v) ∧ (st = 3) ∧
      (bit v 2 = false)) ∧
    (∃ t : Nat, ∃ s : State,
      let now := s.at t;
      let st := s.get R.WCH_STAT_STATE;
      let i := s.isle;
      ∃ v : Nat, (s.isle.outs.length = 4) ∧ (s.isle.pairs.length = 4) ∧ (s.isle.conns.length = 8) ∧ (v < 256) ∧
      (i.sealRaw = v) ∧ (i.sealAt + 320000000 ≤ now.wt) ∧ (s.get R.WCH_STAT_SEAL ≠ v) ∧ (st = 4)) ∧
    (∃ s : State,
      let st := s.get R.WCH_STAT_STATE;
      let i := s.isle;
      (s.isle.outs.length = 4) ∧ (s.isle.pairs.length = 4) ∧ (s.isle.conns.length = 8) ∧ (i.press ≠ 0) ∧
      (10 ≤ i.lows) ∧ (s.is R.WCH_SRST_STUCK = false) ∧ (i.press < 100 ∨ 3000 < i.press ∨ st = 3 ∨ st = 4)) ∧
    (∃ s : State,
      let st := s.get R.WCH_STAT_STATE;
      let i := s.isle;
      (s.isle.outs.length = 4) ∧ (s.isle.pairs.length = 4) ∧ (s.isle.conns.length = 8) ∧ (i.press ≠ 0) ∧
      (10 ≤ i.lows) ∧ (s.is R.WCH_SRST_STUCK = false) ∧ (100 ≤ i.press) ∧ (i.press ≤ 3000) ∧ (st ≠ 3) ∧ (st ≠ 4)) ∧
    (∃ s : State,
      let i := s.isle;
      (s.isle.outs.length = 4) ∧ (s.isle.pairs.length = 4) ∧ (s.isle.conns.length = 8) ∧
      (i.press = 0 ∨ i.lows < 10)) ∧
    (∃ s : State,
      let i := s.isle;
      (s.isle.outs.length = 4) ∧ (s.isle.pairs.length = 4) ∧ (s.isle.conns.length = 8) ∧ (3001 ≤ i.press) ∧
      (s.is R.WCH_SRST_STUCK = false)) ∧
    (∃ s : State,
      let i := s.isle;
      (s.isle.outs.length = 4) ∧ (s.isle.pairs.length = 4) ∧ (s.isle.conns.length = 8) ∧ (i.press < 3001)) ∧
    (∃ s : State, ∃ b : Nat, (s.isle.outs.length = 4) ∧ (s.isle.pairs.length = 4) ∧ (s.isle.conns.length = 8) ∧
      (b < 6)) ∧
    (∃ s : State,
      let st := s.get R.WCH_STAT_STATE;
      let i := s.isle;
      (s.isle.outs.length = 4) ∧ (s.isle.pairs.length = 4) ∧ (s.isle.conns.length = 8) ∧ (st = 3) ∧
      (s.is R.WCH_PSSTAT_BUSY = false) ∧ (i.checked = false)) ∧
    (∃ s : State,
      let st := s.get R.WCH_STAT_STATE;
      let i := s.isle;
      (s.isle.outs.length = 4) ∧ (s.isle.pairs.length = 4) ∧ (s.isle.conns.length = 8) ∧ (st = 3) ∧
      (s.is R.WCH_PSSTAT_BUSY = false) ∧ (i.checked = true) ∧ (s.get R.WCH_PSCRC ≠ s.get (R.WCH_PSWIN 255))) ∧
    (∃ s : State,
      let st := s.get R.WCH_STAT_STATE;
      let i := s.isle;
      (s.isle.outs.length = 4) ∧ (s.isle.pairs.length = 4) ∧ (s.isle.conns.length = 8) ∧ (st = 3) ∧
      (s.is R.WCH_PSSTAT_BUSY = false) ∧ (i.checked = true) ∧ (s.get R.WCH_PSCRC = s.get (R.WCH_PSWIN 255))) ∧
    (∃ s : State, (s.isle.outs.length = 4) ∧ (s.isle.pairs.length = 4) ∧ (s.isle.conns.length = 8) ∧
      (s.is R.WCH_PSSTAT_BUSY = true) ∧ (s.get R.WCH_PSCMD = 1)) ∧
    (∃ s : State, (s.isle.outs.length = 4) ∧ (s.isle.pairs.length = 4) ∧ (s.isle.conns.length = 8) ∧
      (s.is R.WCH_PSSTAT_BUSY = true) ∧ (s.get R.WCH_PSCMD = 2)) :=
  ⟨⟨T, (e0 1), (Instr.store T), by decide +kernel⟩,
  ⟨320000000, State.reset, 0, by decide +kernel⟩,
  ⟨1, State.reset, 0, by decide +kernel⟩,
  ⟨State.reset, 1, by decide +kernel⟩,
  ⟨320000001,
    (((e0 2).upIsle fun i => {i with sealRaw := 4, sealAt := 1, press := 100, lows := 10}).put R.WCH_STAT_SEAL 9), 4,
    by decide +kernel⟩,
  ⟨320000001, st4, 4, by decide +kernel⟩,
  ⟨320000001,
    (((e0 3).upIsle fun i => {i with sealRaw := 1, sealAt := 1, press := 3001, lows := 10}).put R.WCH_STAT_SEAL 4), 1,
    by decide +kernel⟩,
  ⟨320000001,
    (((e0 4).upIsle fun i => {i with sealRaw := 4, sealAt := 1, press := 100, lows := 10}).put R.WCH_STAT_SEAL 9), 4,
    by decide +kernel⟩,
  ⟨(((e0 1).upIsle fun i => {i with sealRaw := 1, sealAt := 1, press := 3001, lows := 10}).put R.WCH_STAT_SEAL 4),
    by decide +kernel⟩,
  ⟨st4, by decide +kernel⟩,
  ⟨State.reset, by decide +kernel⟩,
  ⟨((State.reset.put R.WCH_STAT_SEAL 4).upIsle fun i => {i with press:=3001}), by decide +kernel⟩,
  ⟨State.reset, by decide +kernel⟩,
  ⟨State.reset, 0, by decide +kernel⟩,
  ⟨(((e0 3).upIsle fun i => {i with sealRaw := 4, sealAt := 1, press := 100, lows := 10}).put R.WCH_STAT_SEAL 9),
    by decide +kernel⟩,
  ⟨(((e0 3).upIsle fun i => {i with checked := true}).put R.WCH_PSCRC 5), by decide +kernel⟩,
  ⟨(((e0 3).upIsle fun i => {i with sealRaw := 1, sealAt := 1, press := 3000, lows := 10, checked := true}).put R.WCH_STAT_SEAL 4),
    by decide +kernel⟩,
  ⟨((((e0 3).put R.WCH_PSSTAT_BUSY 1).put R.WCH_PSCMD 1)), by decide +kernel⟩,
  ⟨((((e0 3).put R.WCH_PSSTAT_BUSY 1).put R.WCH_PSCMD 2).put (R.WCH_PSWIN 1) 0x20100), by decide +kernel⟩⟩

end Sys2Proof.Tests.Island

namespace Sys2Proof.Tests.Safety

open Sys2Proof Sys2Proof.Machine

/-! ### Safety: small states, and the hypotheses they meet -/

def W (l : List Byte) (x : Nat × Nat × Nat) : List Byte := l.take x.1 ++ leBytes x.2.1 x.2.2 ++ l.drop (x.1 + x.2.1)

def B0 : List (Nat × Nat × Nat) := [(0,4,0x57534554),(4,2,0x100),(6,2,1),(0xC,2,100)] ++
  (List.range 4).flatMap (fun x => [(0x10+8*x,1,1),(0x11+8*x,1,3),(0x12+8*x,2,50)]) ++
  (List.range 4).flatMap (fun k => [(0x30+16*k,2,0x1011),(0x34+16*k,2,20),(0x36+16*k,2,300),(0x38+16*k,2,10)]) ++
  (List.range 8).flatMap (fun c => [(0x70+32*c,1,if c = 3 then 2 else 1),(0x71+32*c,1,if c=3 then 1 else 0),(0x78+32*c,2,100),(0x74+32*c,4,0x1000+c)]) ++
  (List.range 8).flatMap (fun c => [(0x170+32*c,1,1),(0x178+32*c,2,10),(0x174+32*c,4,0x2000+c)])

def P : List Byte := B0.foldl W (List.replicate 1024 0)

def e0 (st : Nat) : State := ((State.reset.put R.WCH_STAT_STATE st).upIsle fun i => { i with pset := P })

def nb (sq : Nat) : List Byte := [1,1] ++ beBytes 4 0x1000 ++ beBytes 2 sq ++ [5,6,7,8] ++ List.replicate 12 0

def nf (sq : Nat) : List Byte := nb sq ++ beBytes 4 (crc32c (nb sq)) ++ [9]

def nn (sq : Nat) : List Byte := beBytes 4 0x1003 ++ beBytes 2 sq ++ beBytes 2 100 ++ [5,6,7,8,9,9,9,9]

def ny (sq : Nat) : List Byte := nn sq ++ beBytes 3 (crc24 (nn sq))

def k0 (st : Nat) : State :=
  (List.range 8).foldl (fun s c => (s.put (R.WCH_RX_STAT_KIND c) (if c = 3 then 2 else 1)).put (R.WCH_TX_STAT_KIND c) 1) (e0 st)

def qq (b : Bool) (l : List Byte) (s : State) : State := s.upIsle fun i => { i with queue := [⟨2, b, 0x123456, l⟩] }

def st1 : State :=
  qq true (nf 7) ((k0 2).upIsle fun i => {i with conns := i.conns.map fun c => {c with pend := some (7, 0, (nf 7).take 28, 9000000), last := some 5}})

def st2 : State :=
  qq true (nf 7) (((k0 2).put (R.WCH_RX_STAT_SEQ 3) 3).upIsle fun i => {i with conns := i.conns.map fun c => {c with pend := some (7, 0, (nf 8).take 28, 1980000000), last := some 5}})

theorem witness_SafetyMessagesAreAcceptedByTheirRules :
    (∃ t : Nat, ∃ s : State,
      let i := s.isle;
      ∃ c, (s.isle.conns.length = 8) ∧ (s.isle.txs.length = 8) ∧ (s.net.egress.length = 5) ∧
      (c = Instr.nativeSafetyFrame t ∨ c = Instr.nay2400SafetyFrame t) ∧ (i.queue = [])) ∧
    (∃ t : Nat, ∃ s : State,
      let i := s.isle;
      ∃ f : Sys2Proof.Machine.SafetyIn, ∃ rest : List Sys2Proof.Machine.SafetyIn, ∃ c, (s.isle.conns.length = 8) ∧
      (s.isle.txs.length = 8) ∧ (s.net.egress.length = 5) ∧ (i.queue = f :: rest) ∧ ((c = Instr.nativeSafetyFrame t ∧
      f.native = false) ∨ (c = Instr.nay2400SafetyFrame t ∧ f.native = true))) ∧
    (∃ t : Nat, ∃ s : State,
      let i := s.isle;
      ∃ f : Sys2Proof.Machine.SafetyIn, ∃ rest : List Sys2Proof.Machine.SafetyIn,
      let body := f.body;
      ∃ c, (s.isle.conns.length = 8) ∧ (s.isle.txs.length = 8) ∧ (s.net.egress.length = 5) ∧ (i.queue = f :: rest) ∧
      ((c = Instr.nativeSafetyFrame t ∧ f.native = true ∧
      (body.length < 28 ∨ beAt body 0 1 ≠ 1 ∨ beAt body 1 1 ≠ 1 ∨ s.connFor 1 (beAt body 2 4) f.sa = none)) ∨ (c = Instr.nay2400SafetyFrame t ∧
      f.native = false ∧ (body.length < 19 ∨ s.connFor 2 (beAt body 0 4) f.sa = none)))) ∧
    (∃ s : State,
      let i := s.isle;
      ∃ f : Sys2Proof.Machine.SafetyIn, ∃ rest : List Sys2Proof.Machine.SafetyIn,
      let body := f.body;
      ∃ c, (s.isle.conns.length = 8) ∧ (s.isle.txs.length = 8) ∧ (s.net.egress.length = 5) ∧ (i.queue = f :: rest) ∧
      (s.connFor 1 (beAt body 2 4) f.sa = some c) ∧ (c < 8) ∧ (f.native = true) ∧ (28 ≤ body.length) ∧
      (beAt body 0 1 = 1 ∧ beAt body 1 1 = 1) ∧ (crc32c (body.take 24) ≠ beAt body 24 4)) ∧
    (∃ s : State,
      let i := s.isle;
      ∃ f : Sys2Proof.Machine.SafetyIn, ∃ rest : List Sys2Proof.Machine.SafetyIn,
      let body := f.body;
      ∃ c,
      let x := s.isleConn c;
      let q := beAt body 6 2;
      let d := (q + 65536 - s.get (R.WCH_RX_STAT_SEQ c)) % 65536;
      (s.isle.conns.length = 8) ∧ (s.isle.txs.length = 8) ∧ (s.net.egress.length = 5) ∧ (i.queue = f :: rest) ∧
      (s.connFor 1 (beAt body 2 4) f.sa = some c) ∧ (c < 8) ∧ (f.native = true) ∧ (28 ≤ body.length) ∧
      (beAt body 0 1 = 1 ∧ beAt body 1 1 = 1) ∧ (crc32c (body.take 24) = beAt body 24 4) ∧ (x.pend = none) ∧
      (x.last = none ∨ (1 ≤ d ∧ d ≤ 32767))) ∧
    (∃ s : State,
      let i := s.isle;
      ∃ f : Sys2Proof.Machine.SafetyIn, ∃ rest : List Sys2Proof.Machine.SafetyIn,
      let body := f.body;
      ∃ c : Nat,
      let x := s.isleConn c;
      let q := beAt body 6 2;
      let d := (q + 65536 - s.get (R.WCH_RX_STAT_SEQ c)) % 65536;
      (s.isle.conns.length = 8) ∧ (s.isle.txs.length = 8) ∧ (s.net.egress.length = 5) ∧ (i.queue = f :: rest) ∧
      (s.connFor 1 (beAt body 2 4) f.sa = some c) ∧ (c < 8) ∧ (f.native = true) ∧ (28 ≤ body.length) ∧
      (beAt body 0 1 = 1 ∧ beAt body 1 1 = 1) ∧ (crc32c (body.take 24) = beAt body 24 4) ∧ (x.pend = none) ∧
      (x.last ≠ none) ∧ (d = 0 ∨ 32767 < d)) ∧
    (∃ t : Nat, ∃ s : State,
      let now := s.at t;
      let i := s.isle;
      ∃ f : Sys2Proof.Machine.SafetyIn, ∃ rest : List Sys2Proof.Machine.SafetyIn,
      let body := f.body;
      ∃ c,
      let x := s.isleConn c;
      let q := beAt body 6 2;
      let lan := f.port / 2;
      ∃ y : Nat × Nat × List Sys2Proof.Byte × Nat, (s.isle.conns.length = 8) ∧ (s.isle.txs.length = 8) ∧
      (s.net.egress.length = 5) ∧ (i.queue = f :: rest) ∧ (s.connFor 1 (beAt body 2 4) f.sa = some c) ∧ (c < 8) ∧
      (f.native = true) ∧ (28 ≤ body.length) ∧ (beAt body 0 1 = 1 ∧ beAt body 1 1 = 1) ∧
      (crc32c (body.take 24) = beAt body 24 4) ∧ (x.pend = some y) ∧ (y.1 = q) ∧ (y.2.1 ≠ lan) ∧
      (now.wt < y.2.2.2 + 32000000) ∧ (y.2.2.1 = body.take 28)) ∧
    (∃ t : Nat, ∃ s : State,
      let now := s.at t;
      let i := s.isle;
      ∃ f : Sys2Proof.Machine.SafetyIn, ∃ rest : List Sys2Proof.Machine.SafetyIn,
      let body := f.body;
      ∃ c,
      let x := s.isleConn c;
      let q := beAt body 6 2;
      let lan := f.port / 2;
      ∃ y : Nat × Nat × List Sys2Proof.Byte × Nat, (s.isle.conns.length = 8) ∧ (s.isle.txs.length = 8) ∧
      (s.net.egress.length = 5) ∧ (i.queue = f :: rest) ∧ (s.connFor 1 (beAt body 2 4) f.sa = some c) ∧ (c < 8) ∧
      (f.native = true) ∧ (28 ≤ body.length) ∧ (beAt body 0 1 = 1 ∧ beAt body 1 1 = 1) ∧
      (crc32c (body.take 24) = beAt body 24 4) ∧ (x.pend = some y) ∧ (y.1 = q) ∧ (y.2.1 ≠ lan) ∧
      (now.wt < y.2.2.2 + 32000000) ∧ (y.2.2.1 ≠ body.take 28)) ∧
    (∃ s : State,
      let i := s.isle;
      ∃ f : Sys2Proof.Machine.SafetyIn, ∃ rest : List Sys2Proof.Machine.SafetyIn,
      let body := f.body;
      ∃ c, (s.isle.conns.length = 8) ∧ (s.isle.txs.length = 8) ∧ (s.net.egress.length = 5) ∧ (i.queue = f :: rest) ∧
      (s.connFor 2 (beAt body 0 4) f.sa = some c) ∧ (c < 8) ∧ (f.native = false) ∧ (19 ≤ body.length) ∧
      (f.port / 2 = s.ps (0x70 + 32 * c + 1) 1) ∧ (crc24 (body.take 16) ≠ beAt body 16 3)) ∧
    (∃ s : State,
      let i := s.isle;
      ∃ f : Sys2Proof.Machine.SafetyIn, ∃ rest : List Sys2Proof.Machine.SafetyIn,
      let body := f.body;
      ∃ c,
      let x := s.isleConn c;
      let q := beAt body 4 2;
      let d := (q + 65536 - s.get (R.WCH_RX_STAT_SEQ c)) % 65536;
      (s.isle.conns.length = 8) ∧ (s.isle.txs.length = 8) ∧ (s.net.egress.length = 5) ∧ (i.queue = f :: rest) ∧
      (s.connFor 2 (beAt body 0 4) f.sa = some c) ∧ (c < 8) ∧ (f.native = false) ∧ (19 ≤ body.length) ∧
      (f.port / 2 = s.ps (0x70 + 32 * c + 1) 1) ∧ (crc24 (body.take 16) = beAt body 16 3) ∧
      (beAt body 6 2 = s.ps (0x70 + 32 * c + 8) 2) ∧ (x.last = none ∨ (1 ≤ d ∧ d ≤ 8))) ∧
    (∃ t : Nat, ∃ s : State,
      let now := s.at t;
      ∃ c : Nat,
      let x := s.isleConn c;
      ∃ y : Nat × Nat × List Sys2Proof.Byte × Nat, (s.isle.conns.length = 8) ∧ (s.isle.txs.length = 8) ∧
      (s.net.egress.length = 5) ∧ (c < 8) ∧ (x.pend = some y) ∧ (y.2.2.2 + 32000000 ≤ now.wt)) ∧
    (∃ t : Nat, ∃ s : State,
      let now := s.at t;
      ∃ c,
      let x := s.isleConn c;
      ∃ u : Nat, (s.isle.conns.length = 8) ∧ (s.isle.txs.length = 8) ∧ (s.net.egress.length = 5) ∧ (c < 8) ∧
      (x.last = some u) ∧ (s.get (R.WCH_RX_STAT_KIND c) ≠ 0) ∧ (u + 16000000 * s.ps (0x70 + 32 * c + 8) 2 ≤ now.wt)) ∧
    (∃ t : Nat, ∃ s : State,
      let now := s.at t;
      ∃ c,
      let x := s.isleConn c;
      ∃ u : Nat, (s.isle.conns.length = 8) ∧ (s.isle.txs.length = 8) ∧ (s.net.egress.length = 5) ∧ (c < 8) ∧
      (x.last = some u) ∧ (s.get (R.WCH_RX_STAT_KIND c) ≠ 0) ∧ (now.wt < u + 16000000 * s.ps (0x70 + 32 * c + 8) 2)) ∧
    (∃ t : Nat, ∃ s : State,
      let now := s.at t;
      ∃ c,
      let old := s.isle.txs.getD c (0, []);
      (s.isle.conns.length = 8) ∧ (s.isle.txs.length = 8) ∧ (s.net.egress.length = 5) ∧ (c < 8) ∧
      (s.get (R.WCH_TX_STAT_KIND c) = 0 ∨ (now.wt < old.1 ∧ s.txData = old.2))) ∧
    (∃ t : Nat, ∃ s : State,
      let now := s.at t;
      ∃ c,
      let old := s.isle.txs.getD c (0, []);
      (s.isle.conns.length = 8) ∧ (s.isle.txs.length = 8) ∧ (s.net.egress.length = 5) ∧ (c < 8) ∧
      (s.get (R.WCH_TX_STAT_KIND c) = 1 ∨ s.get (R.WCH_TX_STAT_KIND c) = 2) ∧ (old.1 ≤ now.wt ∨ s.txData ≠ old.2)) :=
  ⟨⟨5, (e0 1), (Sys2Proof.Instr.nativeSafetyFrame 5), by decide +kernel⟩,
  ⟨5, (qq false (nf 7) (e0 1)), (⟨2, false, 1193046, (nf 7)⟩), ([]), (Sys2Proof.Instr.nativeSafetyFrame 5),
    by decide +kernel⟩,
  ⟨5, (qq false (nf 7) (e0 1)), (⟨2, false, 1193046, (nf 7)⟩), ([]), (Sys2Proof.Instr.nay2400SafetyFrame 5),
    by decide +kernel⟩,
  ⟨(qq true ((nf 7).set 10 77) (k0 1)), (⟨2, true, 1193046, ((nf 7).set 10 77)⟩), ([]), 0, by decide +kernel⟩,
  ⟨(qq true (nf 7) (k0 1)), (⟨2, true, 1193046, (nf 7)⟩), ([]), 0, by decide +kernel⟩,
  ⟨(qq true (nf 7) (((k0 1).put (R.WCH_RX_STAT_SEQ 0) 9).upIsle fun i => { i with conns := i.conns.map fun c => { c with last := some 5 } })),
    (⟨2, true, 0x123456, nf 7⟩), ([]), 0, by decide +kernel⟩,
  ⟨40000000, st1, (⟨2, true, 1193046, (nf 7)⟩), ([]), 0, (7, 0, [0x01#8, 0x01#8, 0x00#8, 0x00#8, 0x10#8, 0x00#8,
    0x00#8, 0x07#8, 0x05#8, 0x06#8, 0x07#8, 0x08#8, 0x00#8, 0x00#8, 0x00#8, 0x00#8, 0x00#8, 0x00#8, 0x00#8, 0x00#8,
    0x00#8, 0x00#8, 0x00#8, 0x00#8, 0xe1#8, 0x79#8, 0xed#8, 0xef#8], 9000000), by decide +kernel⟩,
  ⟨2000000000, st2, (⟨2, true, 1193046, (nf 7)⟩), ([]), 0, (7, 0, [0x01#8, 0x01#8, 0x00#8, 0x00#8, 0x10#8, 0x00#8,
    0x00#8, 0x08#8, 0x05#8, 0x06#8, 0x07#8, 0x08#8, 0x00#8, 0x00#8, 0x00#8, 0x00#8, 0x00#8, 0x00#8, 0x00#8, 0x00#8,
    0x00#8, 0x00#8, 0x00#8, 0x00#8, 0x8f#8, 0xd5#8, 0x81#8, 0x99#8], 1980000000), by decide +kernel⟩,
  ⟨(qq false ((ny 7).set 9 66) (k0 1)), (⟨2, false, 1193046, ((ny 7).set 9 66)⟩), ([]), 3, by decide +kernel⟩,
  ⟨(qq false (ny 7) (k0 1)), (⟨2, false, 1193046, (ny 7)⟩), ([]), 3, by decide +kernel⟩,
  ⟨41000000,
    ((k0 2).upIsle fun i => { i with conns := i.conns.map fun c => { c with pend := some (7, 0, [], 9000000) } }), 3,
    (7, 0, [], 9000000), by decide +kernel⟩,
  ⟨2000000000, st2, 0, 5, by decide +kernel⟩,
  ⟨40000000, st1, 0, 5, by decide +kernel⟩,
  ⟨5, (e0 1), 0, by decide +kernel⟩,
  ⟨5, (qq true (nf 7) (k0 1)), 0, by decide +kernel⟩⟩

end Sys2Proof.Tests.Safety

namespace Sys2Proof.Tests.Memory

open Sys2Proof Sys2Proof.Machine

/-! ### Memory: small states, and the hypotheses they meet -/

/-- An instant. -/
abbrev T : Nat := 1000000

def r0 : State :=
  (((State.reset.put (R.GLN_GW_BASE 0) 0x70000000).put (R.GLN_GW_LIMIT 0) 0x70ffffff).put (R.GLN_GW_CHMASK 0) 0xffffffff).put (R.GLN_GW_PERM 0) 3

def acc (who addr size : Nat) (w : Bool) (v : Nat := 0x1122334455667788) : Access := ⟨who, addr, size, w, false, v⟩

def b0 : State := (State.reset.put (R.BNK_BK_OWN_OWNER 0) 10).put (R.BNK_BK_OWN_G_CORES 0) 1

def gn : State := ((r0.put (R.GLN_GC_CUR 3) 0x70000000).put (R.GLN_GC_STAT_STATE 3) 1).put (R.GLN_GC_REM 3) 0

def g0 : State :=
  (((((r0.writeLe 0x70001000 8 0x112233445566).put (R.GLN_GC_STAT_STATE 3) 1).put (R.GLN_GC_SRC 3) 0x70001000).put (R.GLN_GC_DST 3) 0x70002000).put (R.GLN_GC_REM 3) 128).upMst fun m => { m with glean := m.glean.set 3 { desc := some (0, 0) } }

def st1 : State := (State.reset.put R.BNK_STAT_BUSY 1).put (R.BNK_BK_OWN_RELEASING 1) 1

def st2 : State :=
  ((r0.put (R.GLN_GC_DESC 3) 0x70000000).writeLe 0x70000000 4 0x70001000).writeLe 0x70000004 8 0x70002000 |>.writeLe 0x70000008 4 128

def st3 : State := ((r0.put (R.GLN_GC_CUR 3) 0x70000000).put (R.GLN_GC_STAT_STATE 3) 2).put (R.GLN_GC_REM 3) 9

theorem witness_BankCommandsMoveOwnership :
    (∃ b : Nat, ∃ who : Nat, ∃ s : State, (b < 96) ∧ (s.is R.BNK_STAT_BUSY = false) ∧ (who < 16) ∧ (who ≠ 0) ∧
      (s.get (R.BNK_BK_OWN_OWNER b) = who) ∧ (s.is (R.BNK_BK_OWN_TRACE b) = false)) ∧
    (∃ b : Nat, ∃ who : Nat, ∃ s : State, (b < 96) ∧ (s.is R.BNK_STAT_BUSY = false) ∧ (1 ≤ who) ∧ (who ≤ 13) ∧
      (s.get (R.BNK_BK_OWN_OWNER b) = 0)) ∧
    (∃ b : Nat, ∃ s : State, (b < 96) ∧ (s.is R.BNK_STAT_BUSY = false) ∧ (s.get (R.BNK_BK_OWN_OWNER b) ≠ 1)) ∧
    (∃ b : Nat, ∃ s : State, (b < 96) ∧ (s.is R.BNK_STAT_BUSY = false) ∧ (s.get (R.BNK_BK_OWN_OWNER b) ≠ 10)) ∧
    (∃ b : Nat, ∃ s : State, (b < 96) ∧ (s.is (R.BNK_BK_OWN_RELEASING b) = true) ∧ ((∀ k,
      k < b → s.is (R.BNK_BK_OWN_RELEASING k) = false))) ∧
    (∃ t : Nat, ∃ b : Nat, ∃ who : Nat, ∃ s : State, ∃ c, (b < 96) ∧ (s.is R.BNK_STAT_BUSY = true) ∧
      c ∈ [Instr.release t b who, .claim t b who, .grant t b who, .revoke t b who]) :=
  ⟨⟨1, 2, (State.reset.put (R.BNK_BK_OWN_OWNER 1) 2), by decide +kernel⟩,
  ⟨1, 13, (State.reset.put (R.BNK_BK_OWN_OWNER 1) 0), by decide +kernel⟩,
  ⟨1, (State.reset.put (R.BNK_BK_OWN_OWNER 1) 2), by decide +kernel⟩,
  ⟨1, State.reset, by decide +kernel⟩,
  ⟨1, st1, by decide +kernel⟩,
  ⟨T, 1, 2, st1, (Instr.release T 1 2), by decide +kernel⟩⟩

theorem witness_RepairsAndTheSweeper :
    (∃ b : Nat, ∃ seg : Nat, ∃ s : State, ∃ k, (b < 112) ∧ (seg < (if b < 96 then 128 else 32)) ∧
      (s.is R.BNK_STAT_BUSY = false) ∧ (s.freeSpare b = some k)) ∧
    (∃ b : Nat, ∃ seg : Nat, ∃ s : State, (b < 112) ∧ (seg < (if b < 96 then 128 else 32)) ∧
      (s.is R.BNK_STAT_BUSY = false) ∧ (s.freeSpare b = none)) ∧
    (∃ s : State, (s.is R.SWP_CTL_EN = false)) ∧
    (∃ s : State, ∃ r : Repair, ∃ rest, (s.is R.SWP_CTL_EN = true) ∧ (s.mst.repairs = r :: rest) ∧ (r.bank < 112) ∧
      (r.spare < 2) ∧ (r.piece < 64) ∧ (r.left ≠ 1)) ∧
    (∃ s : State, ∃ r : Repair, ∃ rest, (s.is R.SWP_CTL_EN = true) ∧ (s.mst.repairs = r :: rest) ∧ (r.bank < 112) ∧
      (r.spare < 2) ∧ (r.piece < 64) ∧ (r.left = 1)) ∧
    (∃ s : State, ∃ fail : Bool,
      let k := s.get R.SWP_STAT_BANK;
      (s.is R.SWP_CTL_EN = true) ∧ (s.mst.repairs = []) ∧ ((fail = true → k < 112))) :=
  ⟨⟨1, 2, State.reset, 0, by decide +kernel⟩,
  ⟨1, 2, ((State.reset.set1 (spareF 1 7 1)).set1 (spareF 1 15 1)), by decide +kernel⟩,
  ⟨(State.reset.put R.SWP_CTL_EN 0), by decide +kernel⟩,
  ⟨((State.reset.set1 R.SWP_CTL_EN).upMst fun m => { m with repairs := [⟨1, 2, 1, 63, 64⟩] }), (⟨1, 2, 1, 63, 64⟩),
    ([]), by decide +kernel⟩,
  ⟨((State.reset.set1 R.SWP_CTL_EN).upMst fun m => { m with repairs := [⟨1, 2, 1, 63, 1⟩] }), (⟨1, 2, 1, 63, 1⟩),
    ([]), by decide +kernel⟩,
  ⟨(State.reset.set1 R.SWP_CTL_EN), true, by decide +kernel⟩⟩

theorem witness_BankAccessServesOnlyTheOwner :
    (∃ a : Access, ∃ s : State, ∃ b : Nat, (mainBank a.addr = some b) ∧ (s.bankAllows b (s.whoCode a.who) = false)) ∧
    (∃ t : Nat, ∃ a : Access, ∃ s : State,
      let m := (s.at t).mailProgress;
      let sized (b : Access) : Prop := b.size ∈ [1, 2, 4, 8] ∧ b.addr % b.size = 0;
      ∃ b : Nat, ∃ ecc : Nat, (mainBank a.addr = some b) ∧ (s.bankAllows b (s.whoCode a.who) = true) ∧ (sized a) ∧
      (s.cached a = false) ∧ ((∀ r ∈ s.mst.l2, r.addr / 8 ≠ a.addr / 8)) ∧ (a.write = true) ∧ (a.size = 8 ∨ (ecc = 0 ∧
      m.rowState a.addr = 0))) ∧
    (∃ t : Nat, ∃ a : Access, ∃ s : State,
      let m := (s.at t).mailProgress;
      let sized (b : Access) : Prop := b.size ∈ [1, 2, 4, 8] ∧ b.addr % b.size = 0;
      ∃ b : Nat, ∃ ecc : Nat, (mainBank a.addr = some b) ∧ (s.bankAllows b (s.whoCode a.who) = true) ∧ (sized a) ∧
      (s.cached a = false) ∧ ((∀ r ∈ s.mst.l2, r.addr / 8 ≠ a.addr / 8)) ∧ (a.write = false) ∧
      (max ecc (m.rowState a.addr) = 0)) ∧
    (∃ t : Nat, ∃ a : Access, ∃ s : State,
      let m := (s.at t).mailProgress;
      let sized (b : Access) : Prop := b.size ∈ [1, 2, 4, 8] ∧ b.addr % b.size = 0;
      ∃ b : Nat, ∃ ecc : Nat, (mainBank a.addr = some b) ∧ (s.bankAllows b (s.whoCode a.who) = true) ∧ (sized a) ∧
      (s.cached a = false) ∧ ((∀ r ∈ s.mst.l2, r.addr / 8 ≠ a.addr / 8)) ∧ (a.write = false) ∧
      (max ecc (m.rowState a.addr) = 1)) ∧
    (∃ t : Nat, ∃ a : Access, ∃ s : State,
      let m := (s.at t).mailProgress;
      let sized (b : Access) : Prop := b.size ∈ [1, 2, 4, 8] ∧ b.addr % b.size = 0;
      ∃ b : Nat, ∃ ecc : Nat, (mainBank a.addr = some b) ∧ (s.bankAllows b (s.whoCode a.who) = true) ∧ (sized a) ∧
      (s.cached a = false) ∧ ((∀ r ∈ s.mst.l2, r.addr / 8 ≠ a.addr / 8)) ∧ (a.write = false) ∧
      (max ecc (m.rowState a.addr) = 2)) ∧
    (∃ a : Access, ∃ s : State,
      let sized (b : Access) : Prop := b.size ∈ [1, 2, 4, 8] ∧ b.addr % b.size = 0;
      ∃ b : Nat, (mainBank a.addr = some b) ∧ (s.bankAllows b (s.whoCode a.who) = true) ∧ (sized a) ∧
      (s.cached a = true) ∧ (a.write = true) ∧ (a.size = 8) ∧ (s.mst.l2 = [])) ∧
    (∃ a : Access, ∃ s : State,
      let sized (b : Access) : Prop := b.size ∈ [1, 2, 4, 8] ∧ b.addr % b.size = 0;
      ∃ b : Nat, ∃ o : Access, (mainBank a.addr = some b) ∧ (mainBank o.addr = some b) ∧
      (s.bankAllows b (s.whoCode a.who) = true) ∧ (s.bankAllows b (s.whoCode o.who) = true) ∧ (sized a) ∧ (sized o) ∧
      (a.write = true) ∧ (o.write = true) ∧ (s.turn a ≠ s.turn o) ∧ (s.cached a = false) ∧ (s.cached o = false) ∧
      (s.mst.l2 = []) ∧ (s.rows = [])) ∧
    (∃ a : Access, ∃ s : State,
      let whole (b : Access) : Prop := b.size = 8 ∧ b.addr % 8 = 0;
      ∃ x : Nat, ∃ o : Sys2Proof.Access, (exchBank a.addr = some x) ∧ (whole a) ∧ (whole o) ∧ (a.addr = o.addr) ∧
      (s.exchPort x a ≠ s.exchPort x o) ∧ ((∀ r ∈ s.mst.l2, r.addr / 8 ≠ a.addr / 8)) ∧ (a.write = true) ∧
      (o.write = true)) ∧
    (∃ t : Nat, ∃ a : Access, ∃ s : State,
      let m := (s.at t).mailProgress;
      let whole (b : Access) : Prop := b.size = 8 ∧ b.addr % 8 = 0;
      ∃ x : Nat, ∃ o : Sys2Proof.Access, (exchBank a.addr = some x) ∧ (whole a) ∧ (whole o) ∧ (a.addr = o.addr) ∧
      (s.exchPort x a ≠ s.exchPort x o) ∧ ((∀ r ∈ s.mst.l2, r.addr / 8 ≠ a.addr / 8)) ∧ (a.write = false) ∧
      (o.write = true) ∧ (m.rowState a.addr = 0)) ∧
    (∃ t : Nat, ∃ a : Access, ∃ s : State,
      let m := (s.at t).mailProgress;
      ∃ n : Nat, ∃ off : Nat, ∃ ecc : Nat,
      let may := decide (s.whoCode a.who = 2 + n) || decide (a.who < 4) && s.sheetQuiesced (n + 1);
      let at_ := ceBase (s.phys n) + off;
      let row := max ecc (m.rowState at_);
      (n < 8) ∧ (off < 65536) ∧ (a.addr = 0x60000000 + 65536 * n + off) ∧ (a.size = 4 ∨ a.size = 8) ∧
      (a.addr % a.size = 0) ∧ (may = true) ∧ (a.write = true) ∧ (a.size = 8 ∨ row = 0)) ∧
    (∃ t : Nat, ∃ a : Access, ∃ s : State,
      let m := (s.at t).mailProgress;
      ∃ n : Nat, ∃ off : Nat, ∃ ecc : Nat,
      let may := decide (s.whoCode a.who = 2 + n) || decide (a.who < 4) && s.sheetQuiesced (n + 1);
      let at_ := ceBase (s.phys n) + off;
      let row := max ecc (m.rowState at_);
      (n < 8) ∧ (off < 65536) ∧ (a.addr = 0x60000000 + 65536 * n + off) ∧ (a.size = 4 ∨ a.size = 8) ∧
      (a.addr % a.size = 0) ∧ (may = true) ∧ (a.write = false) ∧ (row ≤ 1)) ∧
    (∃ t : Nat, ∃ a : Access, ∃ s : State,
      let m := (s.at t).mailProgress;
      ∃ n : Nat, ∃ off : Nat, ∃ ecc : Nat,
      let may := decide (s.whoCode a.who = 2 + n) || decide (a.who < 4) && s.sheetQuiesced (n + 1);
      let at_ := ceBase (s.phys n) + off;
      let row := max ecc (m.rowState at_);
      (n < 8) ∧ (off < 65536) ∧ (a.addr = 0x60000000 + 65536 * n + off) ∧ (a.size = 4 ∨ a.size = 8) ∧
      (a.addr % a.size = 0) ∧ (may = true) ∧ (a.write = false) ∧ (row = 2)) ∧
    (∃ a : Access, ∃ s : State, ∃ n : Nat, ∃ off : Nat, (n < 8) ∧ (off < 65536) ∧
      (a.addr = 0x60000000 + 65536 * n + off) ∧ (a.size = 4 ∨ a.size = 8) ∧ (a.addr % a.size = 0) ∧ (a.who < 4) ∧
      (s.sheetQuiesced (n + 1) = false)) :=
  ⟨⟨(acc 36 0x80000000 8 false), b0, 0, by decide +kernel⟩,
  ⟨T, (acc 5 0x80000000 8 true), b0, 0, 0, by decide +kernel⟩,
  ⟨T, (acc 5 0x80000002 2 false), b0, 0, 0, by decide +kernel⟩,
  ⟨T, (acc 5 0x80000002 2 false), b0, 0, 1, by decide +kernel⟩,
  ⟨T, (acc 5 0x80000002 2 false), b0, 0, 2, by decide +kernel⟩,
  ⟨(acc 0 0x80000000 8 true), (b0.put (R.BNK_BK_OWN_OWNER 0) 1), 0, by decide +kernel⟩,
  ⟨(acc 0 0x80000000 8 true), b0, 0,
    ({ who := 5, addr := 2147483650, size := 2, write := true, atomic := false, value := 43707 }), by decide +kernel⟩,
  ⟨(acc 0 0x70002000 8 true), (b0.put (R.BNK_XB_CFG_CPORT 0) 1), 0, (acc 36 0x70002000 8 true), by decide +kernel⟩,
  ⟨T, (acc 0 0x70002000 8 false), (b0.put (R.BNK_XB_CFG_CPORT 0) 1), 0, (acc 36 0x70002000 8 true),
    by decide +kernel⟩,
  ⟨T, (acc 36 0x60000104 4 true), b0, 0, 260, 0, by decide +kernel⟩,
  ⟨T, (acc 36 0x60000104 4 false), b0, 0, 260, 1, by decide +kernel⟩,
  ⟨T, (acc 36 0x60000108 8 false), b0, 0, 264, 2, by decide +kernel⟩,
  ⟨(acc 0 0x60000104 4 true), (b0.set1 (R.MLD_SH_SRC_LOADED 1)), 0, 260, by decide +kernel⟩⟩

theorem witness_EveryCommandKeepsTheMemoryForm_2 :
    ∃ t : Nat, ∃ a : Access, ∃ ecc : Nat, ∃ rest : List Access, ∃ s : State, (Memory.wf s.mem = true) ∧
      ((Instr.bankAccess t a ecc rest).wf = true) :=
  ⟨T, (acc 5 0x80000002 2 true 0xAABB), 0, ([acc 0 0x80080000 8 true]), State.reset, by decide +kernel⟩

theorem witness_GleanChannelCommands :
    (∃ t : Nat, ∃ c : Nat, ∃ s : State,
      let m := (s.at t).mailProgress;
      let good (d : List Byte) : Prop := leAt d 12 4 < 8 ∧ leAt d 16 4 % 32 = 0 ∧ leAt d 20 12 = 0 ∧
          (bit (leAt d 12 4) 0 = true → leAt d 0 4 % 4 = 0) ∧ (bit (leAt d 12 4) 1 = true → leAt d 4 4 % 4 = 0);
      let a := s.get (R.GLN_GC_DESC c);
      let d := m.readBytes a 32;
      (c < 32) ∧ (s.mst.l2 = []) ∧ (s.rows = []) ∧ (s.gleanState c = 0) ∧ (isReg a = false) ∧
      ((s.rangeCheck c a 32 false).2 = 0) ∧ (good d) ∧ (leAt d 8 4 ≠ 0)) ∧
    (∃ t : Nat, ∃ c : Nat, ∃ s : State,
      let m := (s.at t).mailProgress;
      let good (d : List Byte) : Prop := leAt d 12 4 < 8 ∧ leAt d 16 4 % 32 = 0 ∧ leAt d 20 12 = 0 ∧
          (bit (leAt d 12 4) 0 = true → leAt d 0 4 % 4 = 0) ∧ (bit (leAt d 12 4) 1 = true → leAt d 4 4 % 4 = 0);
      let a := s.get (R.GLN_GC_DESC c);
      let d := m.readBytes a 32;
      (c < 32) ∧ (s.mst.l2 = []) ∧ (s.rows = []) ∧ (s.gleanState c = 0) ∧ (isReg a = false) ∧
      ((s.rangeCheck c a 32 false).2 = 0) ∧ (¬ good d)) ∧
    (∃ c : Nat, ∃ s : State,
      let a := s.get (R.GLN_GC_DESC c);
      ∃ r : Nat, (c < 32) ∧ (s.mst.l2 = []) ∧ (s.rows = []) ∧ (s.gleanState c = 0) ∧ (isReg a = false) ∧
      ((s.rangeCheck c a 32 false).2 = 0) ∧ (rowIn (some r) a 32 ≠ none)) ∧
    (∃ c : Nat, ∃ s : State,
      let a := s.get (R.GLN_GC_DESC c);
      (c < 32) ∧ (s.mst.l2 = []) ∧ (s.rows = []) ∧ (s.gleanState c = 0) ∧ (isReg a = false) ∧
      ((s.rangeCheck c a 32 false).2 ≠ 0)) ∧
    (∃ t : Nat, ∃ c : Nat, ∃ s : State,
      let m := (s.at t).mailProgress;
      let good (d : List Byte) : Prop := leAt d 12 4 < 8 ∧ leAt d 16 4 % 32 = 0 ∧ leAt d 20 12 = 0 ∧
          (bit (leAt d 12 4) 0 = true → leAt d 0 4 % 4 = 0) ∧ (bit (leAt d 12 4) 1 = true → leAt d 4 4 % 4 = 0);
      (c < 32) ∧ (s.mst.l2 = []) ∧ (s.rows = []) ∧ (s.gleanState c = 2) ∧ (isReg (s.get (R.GLN_GC_CUR c)) = false) ∧
      (s.get (R.GLN_GC_REM c) ≠ 0) ∧ ((s.rangeCheck c (s.get (R.GLN_GC_CUR c)) 32 false).2 = 0) ∧
      (good (m.readBytes (s.get (R.GLN_GC_CUR c)) 32))) ∧
    (∃ c : Nat, ∃ s : State, (c < 32) ∧ (s.mst.l2 = []) ∧ (s.rows = []) ∧ (s.gleanState c = 1)) ∧
    (∃ c : Nat, ∃ s : State, (c < 32) ∧ (s.mst.l2 = []) ∧ (s.rows = []) ∧ (s.gleanState c ≠ 0)) ∧
    (∃ c : Nat, ∃ s : State, (c < 32) ∧ (s.mst.l2 = []) ∧ (s.rows = []) ∧ (s.gleanState c ≠ 2)) :=
  ⟨⟨T, 3, st2, by decide +kernel⟩,
  ⟨T, 3, ((r0.put (R.GLN_GC_DESC 3) 0x70000000).writeLe 0x7000000C 4 8), by decide +kernel⟩,
  ⟨3, (r0.put (R.GLN_GC_DESC 3) 0x70000000), 0x70000008, by decide +kernel⟩,
  ⟨3, (r0.put (R.GLN_GC_DESC 3) 0x71000000), by decide +kernel⟩,
  ⟨T, 3, st3, by decide +kernel⟩,
  ⟨3, (((r0.put (R.GLN_GC_CUR 3) 0x70000000).put (R.GLN_GC_STAT_STATE 3) 1).put (R.GLN_GC_REM 3) 9),
    by decide +kernel⟩,
  ⟨3, st3, by decide +kernel⟩,
  ⟨3, st2, by decide +kernel⟩⟩

theorem witness_GleanBurstCopiesMemory :
    (∃ c : Nat, ∃ s : State, ∃ ctl : Nat, ∃ next : Nat,
      let src := s.get (R.GLN_GC_SRC c);
      let dst := s.get (R.GLN_GC_DST c);
      let n := s.burstLen c ctl;
      (s.gleanNext = some c) ∧ (s.mst.l2 = []) ∧ (s.rows = []) ∧ (s.mst.glean.length = 32) ∧
      (s.gleanDesc c = some (ctl, next)) ∧ (bit ctl 0 = false) ∧ (bit ctl 1 = false) ∧ (isReg src = false) ∧
      (isReg dst = false) ∧ (0 < n) ∧ ((s.rangeCheck c src n false).2 ≠ 0)) ∧
    (∃ c : Nat, ∃ s : State, ∃ ctl : Nat, ∃ next : Nat,
      let src := s.get (R.GLN_GC_SRC c);
      let dst := s.get (R.GLN_GC_DST c);
      let n := s.burstLen c ctl;
      (s.gleanNext = some c) ∧ (s.mst.l2 = []) ∧ (s.rows = []) ∧ (s.mst.glean.length = 32) ∧
      (s.gleanDesc c = some (ctl, next)) ∧ (bit ctl 0 = false) ∧ (bit ctl 1 = false) ∧ (isReg src = false) ∧
      (isReg dst = false) ∧ (0 < n) ∧ ((s.rangeCheck c src n false).2 = 0) ∧ ((s.rangeCheck c dst n true).2 ≠ 0)) ∧
    (∃ c : Nat, ∃ s : State, ∃ ctl : Nat, ∃ next : Nat,
      let src := s.get (R.GLN_GC_SRC c);
      let dst := s.get (R.GLN_GC_DST c);
      let n := s.burstLen c ctl;
      ∃ r : Nat, ∃ x : Nat, (s.gleanNext = some c) ∧ (s.mst.l2 = []) ∧ (s.rows = []) ∧ (s.mst.glean.length = 32) ∧
      (s.gleanDesc c = some (ctl, next)) ∧ (bit ctl 0 = false) ∧ (bit ctl 1 = false) ∧ (isReg src = false) ∧
      (isReg dst = false) ∧ (0 < n) ∧ ((s.rangeCheck c src n false).2 = 0) ∧ ((s.rangeCheck c dst n true).2 = 0) ∧
      (rowIn (some r) src n = some x)) ∧
    (∃ c : Nat, ∃ s : State, ∃ ctl : Nat, ∃ next : Nat,
      let src := s.get (R.GLN_GC_SRC c);
      let dst := s.get (R.GLN_GC_DST c);
      let n := s.burstLen c ctl;
      ∃ r : Nat, ∃ x : Nat, (s.gleanNext = some c) ∧ (s.mst.l2 = []) ∧ (s.rows = []) ∧ (s.mst.glean.length = 32) ∧
      (s.gleanDesc c = some (ctl, next)) ∧ (bit ctl 0 = false) ∧ (bit ctl 1 = false) ∧ (isReg src = false) ∧
      (isReg dst = false) ∧ (0 < n) ∧ ((s.rangeCheck c src n false).2 = 0) ∧ ((s.rangeCheck c dst n true).2 = 0) ∧
      (exchBank dst = some x) ∧ (exchBank r ≠ none) ∧ (dst / 8 ≤ r / 8) ∧ (r / 8 ≤ (dst + (n - 1)) / 8) ∧
      (s.get (R.BNK_XB_CFG_CPORT x) ≠ s.get (R.BNK_XB_CFG_WIN x))) ∧
    (∃ t : Nat, ∃ c : Nat, ∃ s : State,
      let m := (s.at t).mailProgress;
      let a := s.get (R.GLN_GC_CUR c);
      let d := m.readBytes a 32;
      let good : Prop := leAt d 12 4 < 8 ∧ leAt d 16 4 % 32 = 0 ∧ leAt d 20 12 = 0 ∧
          (bit (leAt d 12 4) 0 = true → leAt d 0 4 % 4 = 0) ∧ (bit (leAt d 12 4) 1 = true → leAt d 4 4 % 4 = 0);
      (s.gleanNext = some c) ∧ (s.mst.l2 = []) ∧ (s.rows = []) ∧ (s.mst.glean.length = 32) ∧ (s.gleanDesc c = none) ∧
      (isReg a = false) ∧ ((s.rangeCheck c a 32 false).2 = 0) ∧ (good) ∧ (leAt d 8 4 ≠ 0)) ∧
    (∃ t : Nat, ∃ c : Nat, ∃ s : State,
      let m := (s.at t).mailProgress;
      let a := s.get (R.GLN_GC_CUR c);
      let d := m.readBytes a 32;
      let good : Prop := leAt d 12 4 < 8 ∧ leAt d 16 4 % 32 = 0 ∧ leAt d 20 12 = 0 ∧
          (bit (leAt d 12 4) 0 = true → leAt d 0 4 % 4 = 0) ∧ (bit (leAt d 12 4) 1 = true → leAt d 4 4 % 4 = 0);
      (s.gleanNext = some c) ∧ (s.mst.l2 = []) ∧ (s.rows = []) ∧ (s.mst.glean.length = 32) ∧ (s.gleanDesc c = none) ∧
      (isReg a = false) ∧ ((s.rangeCheck c a 32 false).2 = 0) ∧ (¬ good)) ∧
    (∃ c : Nat, ∃ s : State,
      let a := s.get (R.GLN_GC_CUR c);
      (s.gleanNext = some c) ∧ (s.mst.l2 = []) ∧ (s.rows = []) ∧ (s.mst.glean.length = 32) ∧ (s.gleanDesc c = none) ∧
      (isReg a = false) ∧ ((s.rangeCheck c a 32 false).2 ≠ 0)) :=
  ⟨⟨3, (g0.put (R.GLN_GC_SRC 3) 0x71000000), 0, 0, by decide +kernel⟩,
  ⟨3, (g0.put (R.GLN_GC_DST 3) 0x71000000), 0, 0, by decide +kernel⟩,
  ⟨3, g0, 0, 0, 0x70001008, 0x70001008, by decide +kernel⟩,
  ⟨3, ((g0.put (R.BNK_XB_CFG_CPORT 0) 1).put (R.BNK_XB_CFG_WIN 0) 0), 0, 0, 0x70002008, 0, by decide +kernel⟩,
  ⟨T, 3, (gn.writeLe 0x70000008 4 128), by decide +kernel⟩,
  ⟨T, 3, (gn.writeLe 0x7000000C 4 8), by decide +kernel⟩,
  ⟨3, (gn.put (R.GLN_GC_CUR 3) 0x71000000), by decide +kernel⟩⟩

end Sys2Proof.Tests.Memory

namespace Sys2Proof.Tests.Clock

open Sys2Proof Sys2Proof.Machine

/-! ### Clock: small states, and the hypotheses they meet -/

/-- An instant. -/
abbrev T : Nat := 1000000

def c1 : State :=
  { ((State.reset.put R.CLK_STAT_MODE 2).put R.CLK_STAT_XIN_OK 1) with clk := { State.reset.clk with dll := false } }

def cd (m : Nat) : State := (State.reset.put R.CLK_STAT_MODE m)

def st1 : State := ((c1.put R.CLK_STAT_CLKIN_OK 1).put (R.TSU_TD_STAT_STATE 0) 3).put R.CLK_STAT_SDCLK_OK 1

theorem witness_ClockFollowsItsReferences :
    (∃ s : State,
      let sel := s.get R.CLK_REFCFG_REFSEL;
      ∃ r : Nat, (s.clk.dly.length = 5) ∧ (s.chains.length = 32) ∧ (r < 2) ∧ (r ≠ sel)) ∧
    (∃ s : State,
      let mode := s.get R.CLK_STAT_MODE;
      let sel := s.get R.CLK_REFCFG_REFSEL;
      ∃ r : Nat, (s.clk.dly.length = 5) ∧ (s.chains.length = 32) ∧ (r < 2) ∧ (s.refEnabled r = true) ∧
      (s.is R.CLK_CTL_RELOCK = true ∨ s.pwr.start.isSome = true) ∧ (mode = 0) ∧ (s.clk.dll = true) ∧ (r = sel)) ∧
    (∃ t : Nat, ∃ s : State,
      let mode := s.get R.CLK_STAT_MODE;
      let sel := s.get R.CLK_REFCFG_REFSEL;
      ∃ ph : Int, ∃ c : Sys2Proof.Instr, (s.clk.dly.length = 5) ∧ (s.chains.length = 32) ∧ (mode = 2) ∧
      (s.refOther = true) ∧ (c = Instr.referenceAbsent t sel ∨ c = .lossOfLock t 0 ph)) ∧
    (∃ t : Nat, ∃ s : State,
      let mode := s.get R.CLK_STAT_MODE;
      let sel := s.get R.CLK_REFCFG_REFSEL;
      ∃ ph : Int, ∃ c : Sys2Proof.Instr, ∃ k : Nat, (s.clk.dly.length = 5) ∧ (s.chains.length = 32) ∧ (mode = 2) ∧
      (s.clk.dll = false) ∧ ((s.refOther = false ∧ k = 1 ∧
      (c = Instr.referenceAbsent t sel ∨ c = .lossOfLock t 0 ph)) ∨ (k = 2 ∧ c = .lossOfLock t 1 ph) ∨ (k = 3 ∧
      c = .lossOfLock t 2 ph))) ∧
    (∃ t : Nat, ∃ s : State,
      let now := s.at t;
      let mode := s.get R.CLK_STAT_MODE;
      let d := s.get R.CLK_EVTSTAMP;
      let due := if s.get R.CLK_STAT_LOSS_CLASS = 3 then (d + 639) / 640 * 640 else (d + 16000 * clampN 10 1000 (s.get R.CLK_HOLD) + 3199) / 3200 * 3200;
      (s.clk.dly.length = 5) ∧ (s.chains.length = 32) ∧ (mode ≠ 3 ∨ now.tb < due)) ∧
    (∃ t : Nat, ∃ s : State,
      let now := s.at t;
      let mode := s.get R.CLK_STAT_MODE;
      let d := s.get R.CLK_EVTSTAMP;
      let due := if s.get R.CLK_STAT_LOSS_CLASS = 3 then (d + 639) / 640 * 640 else (d + 16000 * clampN 10 1000 (s.get R.CLK_HOLD) + 3199) / 3200 * 3200;
      (s.clk.dly.length = 5) ∧ (s.chains.length = 32) ∧ (mode = 3) ∧ (due ≤ now.tb)) ∧
    (∃ s : State, (s.clk.dly.length = 5) ∧ (s.chains.length = 32) ∧ (s.is R.CLK_STAT_SDCLK_OK = true)) ∧
    (∃ s : State,
      let mode := s.get R.CLK_STAT_MODE;
      (s.clk.dly.length = 5) ∧ (s.chains.length = 32) ∧ (mode ≠ 1)) ∧
    (∃ s : State,
      let mode := s.get R.CLK_STAT_MODE;
      (s.clk.dly.length = 5) ∧ (s.chains.length = 32) ∧ (mode = 1)) ∧
    (∃ t : Nat, ∃ s : State,
      let now := s.at t;
      let mode := s.get R.CLK_STAT_MODE;
      (s.clk.dly.length = 5) ∧ (s.chains.length = 32) ∧ (s.clk.dll = false ∨ mode ≠ 2 ∨ now.tb % 3200 ≠ 0)) ∧
    (∃ t : Nat, ∃ s : State,
      let now := s.at t;
      let mode := s.get R.CLK_STAT_MODE;
      (s.clk.dly.length = 5) ∧ (s.chains.length = 32) ∧ (s.clk.dll = true) ∧ (mode = 2) ∧ (now.tb % 3200 = 0)) ∧
    (∃ t : Nat, ∃ s : State,
      let now := s.at t;
      ∃ x : Nat, (s.clk.dly.length = 5) ∧ (s.chains.length = 32) ∧ (s.clk.smpAt = some x) ∧
      (now.tb < x ∨ now.tb % 800 ≠ 0)) ∧
    (∃ t : Nat, ∃ s : State,
      let now := s.at t;
      ∃ x : Nat, (s.clk.dly.length = 5) ∧ (s.chains.length = 32) ∧ (s.clk.smpAt = some x) ∧ (x ≤ now.tb) ∧
      (now.tb % 800 = 0)) ∧
    (∃ s : State, ∃ n : Nat, (s.clk.dly.length = 5) ∧ (s.chains.length = 32) ∧ (n < 5) ∧ (n < 3)) ∧
    (∃ s : State, ∃ n : Nat, (s.clk.dly.length = 5) ∧ (s.chains.length = 32) ∧ (n < 5) ∧ (3 ≤ n) ∧
      (s.is (R.CLK_OUT_CFG_EN n) = true)) ∧
    (∃ s : State, ∃ r : Nat, (s.clk.dly.length = 5) ∧ (s.chains.length = 32) ∧ (r < 2) ∧ (s.refEnabled r = false)) ∧
    (∃ s : State, ∃ r : Nat, (s.clk.dly.length = 5) ∧ (s.chains.length = 32) ∧ (r < 2) ∧ (s.refEnabled r = true) ∧
      (s.is R.CLK_CTL_RELOCK = false) ∧ (s.pwr.start = none)) ∧
    (∃ s : State, ∃ n : Nat, (s.clk.dly.length = 5) ∧ (s.chains.length = 32) ∧ (n < 5) ∧ (3 ≤ n) ∧
      (s.is (R.CLK_OUT_CFG_EN n) = false)) :=
  ⟨⟨State.reset, 1, by decide +kernel⟩,
  ⟨State.reset, 0, by decide +kernel⟩,
  ⟨T, st1, (-5), (Sys2Proof.Instr.referenceAbsent 1000000 0), by decide +kernel⟩,
  ⟨T, st1, (-5), (Sys2Proof.Instr.lossOfLock 1000000 1 (-5)), 2, by decide +kernel⟩,
  ⟨5, State.reset, by decide +kernel⟩,
  ⟨T, ((c1.put R.CLK_STAT_MODE 3).put (R.LNE_LN_STAT_STATE 3) 2), by decide +kernel⟩,
  ⟨st1, by decide +kernel⟩,
  ⟨State.reset, by decide +kernel⟩,
  ⟨({ cd 1 with clk := { State.reset.clk with fails := 2, search := true } }), by decide +kernel⟩,
  ⟨5, State.reset, by decide +kernel⟩,
  ⟨3200, (cd 2), by decide +kernel⟩,
  ⟨3200, ({ cd 2 with clk := { State.reset.clk with smpAt := some 4000 } }), 4000, by decide +kernel⟩,
  ⟨3200,
    ({(cd 2).put (R.CLK_OUT_CFG_DLY 1) 9 with clk := {State.reset.clk with smpAt := some 3200}, chains := State.reset.chains.map fun c => {c with begun := true}}),
    3200, by decide +kernel⟩,
  ⟨State.reset, 0, by decide +kernel⟩,
  ⟨State.reset, 3, by decide +kernel⟩,
  ⟨(State.reset.put R.CLK_REFCFG 0), 0, by decide +kernel⟩,
  ⟨(State.reset.put R.CLK_CTL_RELOCK 0), 0, by decide +kernel⟩,
  ⟨((State.reset.put (R.CLK_OUT_CFG_EN 3) 0).put (R.CLK_OUT_CFG_EN 4) 0), 3, by decide +kernel⟩⟩

end Sys2Proof.Tests.Clock

namespace Sys2Proof.Tests.Supplies

open Sys2Proof Sys2Proof.Machine

/-! ### Supplies: small states, and the hypotheses they meet -/

/-- An instant. -/
abbrev T : Nat := 1000000

def up (f : Power → Power) (s : State) : State := { s with pwr := f s.pwr }

def mc (q : Nat) (c : Bool) : MirrorCell :=
  { seq := q, clean := c, opsec := 77777, cycles := 9, boot := 5, failT0 := 1, ldgFail := true, offsec := 8, life := 4 }

def p0 : State :=
  ((((State.reset.put R.PWR_STAT_MPG 1).put R.PWR_STAT_READY 1).put R.PWR_CYCLES 6).writeLe 0x90000100 8 55).writeLe 0x80000100 8 66

def st1 : State :=
  up (fun p => { p with warn := true, wrst := true, lost := true, cells := [some (mc 3 true), some (mc 2 false)], porst := true }) (p0.put R.PWR_STAT_MPG 0)

def st2 : State :=
  up (fun p => { p with warn := true, fails := 1, cells := [some (mc 3 true), some (mc 2 false)], porst := true, rose := true }) p0

theorem witness_SuppliesResetsAndTheMirror :
    (∃ s : State,
      let mpg := s.is R.PWR_STAT_MPG;
      (s.pwr.cells.length = 2) ∧ (mpg = false)) ∧
    (∃ s : State,
      let p := s.pwr;
      (s.pwr.cells.length = 2) ∧ (p.warn = true)) ∧
    (∃ s : State,
      let p := s.pwr;
      (s.pwr.cells.length = 2) ∧ (p.warn = false)) ∧
    (∃ t : Nat, ∃ s : State,
      let now := s.at t;
      let p := s.pwr;
      let mpg := s.is R.PWR_STAT_MPG;
      (s.pwr.cells.length = 2) ∧ (mpg = true) ∧ (p.warn = true ∨ now.opsec / 65536 % 3600 = 0)) ∧
    (∃ t : Nat, ∃ s : State,
      let now := s.at t;
      let p := s.pwr;
      let mpg := s.is R.PWR_STAT_MPG;
      (s.pwr.cells.length = 2) ∧ (mpg = false ∨ (p.warn = false ∧ now.opsec / 65536 % 3600 ≠ 0))) ∧
    (∃ s : State,
      let p := s.pwr;
      (s.pwr.cells.length = 2) ∧ (p.porst = true)) ∧
    (∃ s : State, (s.pwr.cells.length = 2) ∧ (s.held = true)) ∧
    (∃ s : State, (s.pwr.cells.length = 2) ∧ (s.held = false)) ∧
    (∃ s : State,
      let p := s.pwr;
      (s.pwr.cells.length = 2) ∧ (p.wrst = false)) ∧
    (∃ s : State,
      let p := s.pwr;
      (s.pwr.cells.length = 2) ∧ (p.wrst = true) ∧ (p.off = true ∨ p.porst = true ∨ p.testMode = true)) ∧
    (∃ s : State,
      let p := s.pwr;
      (s.pwr.cells.length = 2) ∧ (p.wrst = true) ∧ (p.off = false) ∧ (p.porst = false) ∧ (p.testMode = false) ∧
      (p.due = none) ∧ (p.start = none)) ∧
    (∃ s : State,
      let p := s.pwr;
      (s.pwr.cells.length = 2) ∧ (p.wrst = true) ∧ (p.off = false) ∧ (p.porst = false) ∧ (p.testMode = false) ∧
      (p.due ≠ none ∨ p.start ≠ none)) :=
  ⟨⟨st1, by decide +kernel⟩,
  ⟨st2, by decide +kernel⟩,
  ⟨p0, by decide +kernel⟩,
  ⟨T, p0, by decide +kernel⟩,
  ⟨T, st1, by decide +kernel⟩,
  ⟨st2, by decide +kernel⟩,
  ⟨(up (fun p => { p with porst := true }) p0), by decide +kernel⟩,
  ⟨p0, by decide +kernel⟩,
  ⟨p0, by decide +kernel⟩,
  ⟨(up (fun p => { p with wrst := true, off := true }) p0), by decide +kernel⟩,
  ⟨(up (fun p => { p with wrst := true }) p0), by decide +kernel⟩,
  ⟨(up (fun p => { p with wrst := true, due := some 4 }) p0), by decide +kernel⟩⟩

end Sys2Proof.Tests.Supplies

namespace Sys2Proof.Tests.Starts

open Sys2Proof Sys2Proof.Machine

/-! ### Starts: small states, and the hypotheses they meet -/

/-- An instant. -/
abbrev T : Nat := 1000000

def up (f : Power → Power) (s : State) : State := { s with pwr := f s.pwr }

def p0 : State :=
  ((((State.reset.put R.PWR_STAT_MPG 1).put R.PWR_STAT_READY 1).put R.PWR_CYCLES 6).writeLe 0x90000100 8 55).writeLe 0x80000100 8 66

def st1 : State :=
  up (fun p => { p with confirmAt := some 5, wdogAt := some 6, confirmed := true }) ((p0.put R.PWR_CFG_WDOG_T 1).put R.PWR_BOOTREC 31)

def st2 : State := up (fun p => { p with start := some ⟨true, 5, []⟩ }) p0

theorem witness_StartsRunTheirStepsInOrder :
    (∃ key : Nat, (key % 256 ≠ 0xA5)) ∧
    (∃ s : State,
      let p := s.pwr;
      let ready := s.is R.PWR_STAT_READY && p.due.isNone;
      ∃ key : Nat, (key % 256 = 0xA5) ∧ (ready = true)) ∧
    (∃ s : State,
      let p := s.pwr;
      let ready := s.is R.PWR_STAT_READY && p.due.isNone;
      ∃ key : Nat, (key % 256 = 0xA5) ∧ (ready = false)) ∧
    (∃ s : State, ∃ key : Nat, (key % 256 = 0xA5) ∧ (s.is R.PWR_BOOTREC_PENDING = false)) ∧
    (∃ s : State, ∃ key : Nat, (key % 256 = 0xA5) ∧ (s.is R.PWR_BOOTREC_PENDING = true)) ∧
    (∃ s : State,
      let p := s.pwr;
      ∃ key : Nat, (key % 256 = 0xA5) ∧ (p.confirmed = true)) ∧
    (∃ s : State,
      let p := s.pwr;
      ∃ key : Nat, (key % 256 = 0xA5) ∧ (p.confirmed = false)) ∧
    (∃ t : Nat, ∃ s : State,
      let now := s.at t;
      let p := s.pwr;
      let ready := s.is R.PWR_STAT_READY && p.due.isNone;
      let conf := 16000000000 * max 1 (s.get R.PWR_CFG_CONFIRM_T);
      (ready = true) ∧ ((∀ x, p.confirmAt = some x → now.tb < x + conf))) ∧
    (∃ t : Nat, ∃ s : State,
      let now := s.at t;
      let p := s.pwr;
      let conf := 16000000000 * max 1 (s.get R.PWR_CFG_CONFIRM_T);
      ∃ x : Nat, (p.confirmAt = some x) ∧ (x + conf ≤ now.tb)) ∧
    (∃ t : Nat, ∃ s : State,
      let now := s.at t;
      let p := s.pwr;
      let conf := 16000000000 * max 1 (s.get R.PWR_CFG_CONFIRM_T);
      ∃ x, (p.confirmAt = some x) ∧ (now.tb < x + conf)) ∧
    (∃ s : State,
      let p := s.pwr;
      (p.confirmAt = none)) ∧
    (∃ t : Nat, ∃ s : State,
      let now := s.at t;
      let p := s.pwr;
      let ready := s.is R.PWR_STAT_READY && p.due.isNone;
      let n := s.get R.PWR_CFG_WDOG_T;
      ∃ x, (p.wdogAt = some x) ∧ (n ≠ 0) ∧ (x + 16000000 * n ≤ now.tb) ∧ (ready = true)) ∧
    (∃ s : State,
      let p := s.pwr;
      let n := s.get R.PWR_CFG_WDOG_T;
      (n = 0 ∨ p.wdogAt = none)) ∧
    (∃ t : Nat, ∃ s : State,
      let now := s.at t;
      let p := s.pwr;
      let n := s.get R.PWR_CFG_WDOG_T;
      ∃ x, (p.wdogAt = some x) ∧ (now.tb < x + 16000000 * n)) ∧
    (∃ t : Nat, ∃ s : State,
      let now := s.at t;
      let p := s.pwr;
      let ripe (c : Nat) := !p.off && !p.porst && !p.wrst && !p.testMode && (if c ≤ 2 then s.is R.PWR_STAT_MPG && decide (p.dueAt + 320000 ≤ now.tb) else now.drained);
      ∃ c : Nat, (p.due = some c) ∧ (c ≤ 6) ∧ (ripe c = true)) ∧
    (∃ t : Nat, ∃ s : State,
      let now := s.at t;
      let p := s.pwr;
      let ripe (c : Nat) := !p.off && !p.porst && !p.wrst && !p.testMode && (if c ≤ 2 then s.is R.PWR_STAT_MPG && decide (p.dueAt + 320000 ≤ now.tb) else now.drained);
      ∃ c : Nat, (p.due = some c) ∧ (6 < c ∨ ripe c = false)) ∧
    (∃ s : State,
      let p := s.pwr;
      (p.due = none)) ∧
    (∃ t : Nat, ∃ s : State,
      let now := s.at t;
      let p := s.pwr;
      let released := !p.off && !p.porst && !p.wrst && !p.testMode;
      ∃ c : Nat, (p.due = some c) ∧ (7 ≤ c) ∧ (c < 16) ∧ (released = true) ∧ (c = 7 ∨ now.drained = true)) ∧
    (∃ t : Nat, ∃ s : State,
      let now := s.at t;
      let p := s.pwr;
      let released := !p.off && !p.porst && !p.wrst && !p.testMode;
      ∃ c : Nat, (p.due = some c) ∧ (c < 7 ∨ released = false ∨ (c ≠ 7 ∧ now.drained = false))) ∧
    (∃ s : State,
      let p := s.pwr;
      (p.start = none)) ∧
    (∃ s : State,
      let p := s.pwr;
      ∃ r : Sys2Proof.Machine.StartRun, ∃ k : Nat, (p.start = some r) ∧ (k ≤ 10) ∧
      (k = 0 ∨ r.ended.contains k = true ∨ (stepAfter k).all r.ended.contains = false)) ∧
    (∃ s : State,
      let p := s.pwr;
      ∃ r : Sys2Proof.Machine.StartRun, ∃ k : Nat, ∃ ok : Bool, (p.start = some r) ∧ (k ≤ 10) ∧ (k ≠ 0) ∧
      (r.ended.contains k = false) ∧ ((stepAfter k).all r.ended.contains = true) ∧ (ok = false) ∧
      (k = 1 ∨ k = 2 ∨ k = 4)) ∧
    (∃ t : Nat, ∃ s : State,
      let now := s.at t;
      let p := s.pwr;
      ∃ r : Sys2Proof.Machine.StartRun, ∃ k : Nat, ∃ ok : Bool, (p.start = some r) ∧ (k ≤ 10) ∧ (k ≠ 0) ∧
      (r.ended.contains k = false) ∧ ((stepAfter k).all r.ended.contains = true) ∧ (ok = true ∨ (k ≠ 1 ∧ k ≠ 2 ∧
      k ≠ 4)) ∧ (now.stepRipe r.ended k = false)) ∧
    (∃ t : Nat, ∃ s : State,
      let now := s.at t;
      let p := s.pwr;
      ∃ r : Sys2Proof.Machine.StartRun, ∃ k : Nat, ∃ ok : Bool, (p.start = some r) ∧ (k ≤ 10) ∧ (k ≠ 0) ∧
      (r.ended.contains k = false) ∧ ((stepAfter k).all r.ended.contains = true) ∧ (ok = true ∨ (k ≠ 1 ∧ k ≠ 2 ∧
      k ≠ 4)) ∧ (now.stepRipe r.ended k = true) ∧ (k ≠ 5)) ∧
    (∃ s : State,
      let p := s.pwr;
      ∃ r : Sys2Proof.Machine.StartRun, ∃ k : Nat, ∃ x, (p.start = some r) ∧ (k ≤ 10) ∧ (k ≠ 0) ∧
      (r.ended.contains k = false) ∧ ((stepAfter k).all r.ended.contains = true) ∧ (k = 5) ∧ (r.cold = false) ∧
      (p.image = some x) ∧ (crc32 (s.readBytes x.1 x.2.1) = x.2.2)) ∧
    (∃ s : State,
      let p := s.pwr;
      ∃ r : Sys2Proof.Machine.StartRun, ∃ k : Nat, (p.start = some r) ∧ (k ≤ 10) ∧ (k ≠ 0) ∧
      (r.ended.contains k = false) ∧ ((stepAfter k).all r.ended.contains = true) ∧ (k = 5) ∧ (r.cold = false) ∧
      (p.image = none)) ∧
    (∃ s : State,
      let p := s.pwr;
      ∃ r : Sys2Proof.Machine.StartRun, ∃ k : Nat, (p.start = some r) ∧ (k ≤ 10) ∧ (k ≠ 0) ∧
      (r.ended.contains k = false) ∧ ((stepAfter k).all r.ended.contains = true) ∧ (k = 5) ∧ (r.cold = true) ∧
      (s.get R.PWR_STAT_BOOTSRC = 2)) ∧
    (∃ t : Nat, ∃ s : State,
      let now := s.at t;
      let p := s.pwr;
      ∃ r : Sys2Proof.Machine.StartRun,
      let limit := if r.cold then 32000000000 else 1600000000;
      let waits := r.cold && s.is R.PWR_STAT_DOWNLOAD && decide (r.step = 5);
      (p.start = some r) ∧ (now.tb < r.began + limit ∨ waits = true)) ∧
    (∃ t : Nat, ∃ s : State,
      let now := s.at t;
      let p := s.pwr;
      ∃ r : Sys2Proof.Machine.StartRun,
      let limit := if r.cold then 32000000000 else 1600000000;
      let waits := r.cold && s.is R.PWR_STAT_DOWNLOAD && decide (r.step = 5);
      (p.start = some r) ∧ (r.began + limit ≤ now.tb) ∧ (waits = false)) ∧
    (∃ s : State,
      let p := s.pwr;
      ∃ r : Sys2Proof.Machine.StartRun, (p.start = some r) ∧
      ((List.range 10).all (fun k => r.ended.contains (k + 1)) = false)) ∧
    (∃ s : State,
      let p := s.pwr;
      ∃ r : Sys2Proof.Machine.StartRun, (p.start = some r) ∧
      ((List.range 10).all (fun k => r.ended.contains (k + 1)) = true)) :=
  ⟨⟨0, by decide +kernel⟩,
  ⟨p0, 165, by decide +kernel⟩,
  ⟨(up (fun p => { p with due := some 3 }) p0), 165, by decide +kernel⟩,
  ⟨p0, 165, by decide +kernel⟩,
  ⟨st1, 165, by decide +kernel⟩,
  ⟨st1, 165, by decide +kernel⟩,
  ⟨p0, 165, by decide +kernel⟩,
  ⟨T, p0, by decide +kernel⟩,
  ⟨16000000005, (up (fun p => { p with confirmAt := some 5 }) (p0.put R.PWR_CFG_CONFIRM_T 1)), 5, by decide +kernel⟩,
  ⟨T, st1, 5, by decide +kernel⟩,
  ⟨p0, by decide +kernel⟩,
  ⟨32000000000,
    (up (fun p => { p with confirmAt := some 5, wdogAt := some 6, confirmed := true, due := none }) ((p0.put R.PWR_CFG_WDOG_T 1).put R.PWR_BOOTREC 31)),
    6, by decide +kernel⟩,
  ⟨p0, by decide +kernel⟩,
  ⟨T, st1, 6, by decide +kernel⟩,
  ⟨T, (up (fun p => { p with due := some 2 }) p0), 2, by decide +kernel⟩,
  ⟨9, (up (fun p => { p with due := some 1 }) p0), 1, by decide +kernel⟩,
  ⟨p0, by decide +kernel⟩,
  ⟨T, (up (fun p => { p with due := some 7 }) p0), 7, by decide +kernel⟩,
  ⟨T, (up (fun p => { p with due := some 2 }) p0), 2, by decide +kernel⟩,
  ⟨p0, by decide +kernel⟩,
  ⟨st2, ({ cold := true, began := 5, ended := [] }), 0, by decide +kernel⟩,
  ⟨st2, ({ cold := true, began := 5, ended := [] }), 1, false, by decide +kernel⟩,
  ⟨T, st2, ({ cold := true, began := 5, ended := [] }), 8, true, by decide +kernel⟩,
  ⟨T, st2, ({ cold := true, began := 5, ended := [] }), 1, true, by decide +kernel⟩,
  ⟨(up (fun p => { p with start := some ⟨false, 5, [1,2,3,4]⟩, image := some (0x80000100, 8, crc32 (leBytes 8 66)) }) p0),
    ({ cold := false, began := 5, ended := [1, 2, 3, 4] }), 5, (2147483904, 8, 244980473), by decide +kernel⟩,
  ⟨(up (fun p => { p with start := some ⟨false, 5, [1,2,3,4]⟩}) p0),
    ({ cold := false, began := 5, ended := [1, 2, 3, 4] }), 5, by decide +kernel⟩,
  ⟨(up (fun p => { p with start := some ⟨true, 5, [1,2,3,4]⟩ }) (p0.put R.PWR_STAT_BOOTSRC 2)), (⟨true, 5,
    [1,2,3,4]⟩), 5, by decide +kernel⟩,
  ⟨T, st2, ({ cold := true, began := 5, ended := [] }), by decide +kernel⟩,
  ⟨32000000005,
    (up (fun p => { p with start := some ⟨true, 5, [1]⟩ }) ((p0.put R.CLK_STAT_MODE 2).put R.PWR_BOOTREC 31)),
    ({ cold := true, began := 5, ended := [1] }), by decide +kernel⟩,
  ⟨st2, ({ cold := true, began := 5, ended := [] }), by decide +kernel⟩,
  ⟨(up (fun p => { p with start := some ⟨true, 5, (List.range 10).map (· +1)⟩}) p0),
    ({ cold := true, began := 5, ended := [1, 2, 3, 4, 5, 6, 7, 8, 9, 10] }), by decide +kernel⟩⟩

end Sys2Proof.Tests.Starts

namespace Sys2Proof.Tests.Ledger

open Sys2Proof Sys2Proof.Machine

/-! ### Ledger: small states, and the hypotheses they meet -/

def rr : LdgRec := ⟨1, 5, (List.range 64).map (BitVec.ofNat 8), 0⟩

def l0 : State := (List.range 4).foldl (fun s r => s.put (R.LDG_RING_CFG r) 1000) State.reset

def l1 : State :=
  { State.reset with ldg := { State.reset.ldg with queue := [rr], w := [3, 4, 5, 6], size := [1000,1000,1000,1000] } }

theorem witness_LedgerPostIsTakenWholeOrCounted :
    (∃ ring : Nat, ∃ block : Nat, ∃ s : State, (ring < 4) ∧ (s.ldgAccepts ring block = true)) ∧
    (∃ ring : Nat, ∃ block : Nat, ∃ s : State, (ring < 4) ∧ (s.ldgAccepts ring block = false) ∧
      (s.ldgAccepts 2 0x14 = false)) ∧
    (∃ ring : Nat, ∃ block : Nat, ∃ s : State, (ring < 4) ∧ (s.ldgAccepts ring block = false) ∧
      (s.ldgAccepts 2 0x14 = true) ∧ (s.ldg.drops.length = 4)) :=
  ⟨⟨1, 5, l0, by decide +kernel⟩,
  ⟨0, 5, (l0.put R.LDG_STAT_RES_FAILED 1), by decide +kernel⟩,
  ⟨0, 5, l0, by decide +kernel⟩⟩

theorem witness_FirmwarePostUsesThePostRegisters :
    (∃ s : State, (s.get R.LDG_POST_HDR_RING ≠ 0) ∧ (s.ldgAccepts (s.get R.LDG_POST_HDR_RING) 0xFF = true)) ∧
    (∃ s : State,
      let r := s.get R.LDG_POST_HDR_RING;
      (r = 0 ∨ s.ldgAccepts r 0xFF = false) ∧ (s.ldgAccepts 2 0x14 = false)) ∧
    (∃ s : State,
      let r := s.get R.LDG_POST_HDR_RING;
      (r = 0 ∨ s.ldgAccepts r 0xFF = false) ∧ (s.ldgAccepts 2 0x14 = true) ∧ (s.ldg.drops.length = 4)) :=
  ⟨⟨(l0.put R.LDG_POST_HDR_RING 1), by decide +kernel⟩,
  ⟨(l0.put R.LDG_STAT_RES_FAILED 1), by decide +kernel⟩,
  ⟨l0, by decide +kernel⟩⟩

theorem witness_CursorCommandsPlaceTheCursor :
    (∃ p : Nat, ∃ s : State,
      let ring := s.get (R.LDG_RP_CUR_RING p);
      let n := s.ldg.n ring;
      (p < 4) ∧ (n ≠ 0)) ∧
    (∃ p : Nat, ∃ s : State, (p < 4) ∧ (s.is (R.LDG_RP_STAT_BUSY p) = true)) :=
  ⟨⟨1, (l1.put (R.LDG_RP_CUR_RING 1) 1), by decide +kernel⟩,
  ⟨1, ((l1.put (R.LDG_RP_CUR_RING 1) 1).set1 (R.LDG_RP_STAT_BUSY 1)), by decide +kernel⟩⟩

theorem witness_RecordProgrammedLeavesTheQueue :
    ∃ s : State, ∃ r : LdgRec, ∃ rest : List LdgRec, (s.ldg.queue = r :: rest) ∧ (r.ring < 4) ∧
      (r.bytes.length = 64) ∧ (s.ldg.drops = [0, 0, 0, 0]) ∧ (s.ldg.clears = []) ∧ (s.ldgHeld = false) ∧
      (s.is R.LDG_STAT_FAILED = false) ∧ (s.ldg.w.length = 4) ∧ (s.ldg.n r.ring ≠ 0) :=
  ⟨l1, rr, ([]), by decide +kernel⟩

theorem witness_LedgerClearsOnlyUnderTheSeal :
    (∃ s : State, (s.sealOn = false)) ∧
    (∃ rings : Nat, ∃ s : State, (s.sealOn = true) ∧ (rings % 16 ≠ 0)) ∧
    (∃ s : State, (s.is R.LDG_STAT_ERASING = false)) ∧
    (∃ s : State, (s.is R.LDG_STAT_ERASING = true)) :=
  ⟨⟨l1, by decide +kernel⟩,
  ⟨5, (l1.put R.WCH_STAT_STATE 3), by decide +kernel⟩,
  ⟨l1, by decide +kernel⟩,
  ⟨((l1.put R.WCH_STAT_STATE 3).set1 R.LDG_STAT_ERASING), by decide +kernel⟩⟩

end Sys2Proof.Tests.Ledger

namespace Sys2Proof.Tests.Health

open Sys2Proof Sys2Proof.Machine

/-! ### Health: small states, and the hypotheses they meet -/

def K : Nat := 960000000005

def h0 : State := State.reset.put R.HLT_CFG 1

def tsx (s : State) (p : Nat) : State :=
  { s with hlt := { s.hlt with tests := s.hlt.tests.map fun x => { x with pieces := p } } }

def fwc (c : FwCmd) (s : State) : State := { s with hlt := { s.hlt with fw := some c } }

def st1 : State := { h0.set1 R.TWN_CTL_EN with hlt := { h0.hlt with hot := some 5, life := 3600000 * 2 ^ 40 - 5 } }

theorem witness_HealthTestsReasonsAndFirmware :
    (∃ t : Nat, ∃ s : State,
      let now := s.at t;
      ∃ n : Nat, (s.hlt.tests.length = 8) ∧ (s.engs.length = 8) ∧ (n < 8) ∧
      (s.tested n = false ∨ now.pieceFits n = false)) ∧
    (∃ t : Nat, ∃ s : State,
      let now := s.at t;
      ∃ n : Nat, (s.hlt.tests.length = 8) ∧ (s.engs.length = 8) ∧ (n < 8) ∧ (s.tested n = true) ∧
      (now.pieceFits n = true) ∧ ((s.engTest n).pieces < 255)) ∧
    (∃ t : Nat, ∃ s : State,
      let now := s.at t;
      ∃ n : Nat, ∃ same : Bool, (s.hlt.tests.length = 8) ∧ (s.engs.length = 8) ∧ (n < 8) ∧ (s.tested n = true) ∧
      (now.pieceFits n = true) ∧ (255 ≤ (s.engTest n).pieces) ∧ (same = true)) ∧
    (∃ t : Nat, ∃ s : State,
      let now := s.at t;
      ∃ n : Nat, ∃ same : Bool, (s.hlt.tests.length = 8) ∧ (s.engs.length = 8) ∧ (n < 8) ∧ (s.tested n = true) ∧
      (now.pieceFits n = true) ∧ (255 ≤ (s.engTest n).pieces) ∧ (same = false)) ∧
    (∃ t : Nat, ∃ s : State,
      let now := s.at t;
      ∃ n : Nat, (s.hlt.tests.length = 8) ∧ (s.engs.length = 8) ∧ (n < 8) ∧ (s.tested n = true) ∧
      ((s.engTest n).from_ + s.testInt ≤ now.tb)) ∧
    (∃ t : Nat, ∃ s : State,
      let now := s.at t;
      ∃ n : Nat, (s.hlt.tests.length = 8) ∧ (s.engs.length = 8) ∧ (n < 8) ∧
      (s.tested n = false ∨ now.tb < (s.engTest n).from_ + s.testInt)) ∧
    (∃ t : Nat, ∃ s : State,
      let now := s.at t;
      ∃ x : Nat, (s.hlt.tests.length = 8) ∧ (s.engs.length = 8) ∧ (s.hlt.hot = some x) ∧ (x + 16000000000 ≤ now.tb)) ∧
    (∃ t : Nat, ∃ s : State,
      let now := s.at t;
      (s.hlt.tests.length = 8) ∧ (s.engs.length = 8) ∧ ((∀ x, s.hlt.hot = some x → now.tb < x + 16000000000))) ∧
    (∃ t : Nat, ∃ s : State,
      let now := s.at t;
      ∃ l : Nat, (s.hlt.tests.length = 8) ∧ (s.engs.length = 8) ∧ (l < 2) ∧ (s.is R.TWN_CTL_EN = true) ∧
      (bit (s.get R.TWN_STAT_LANES) l = false) ∧ (s.twn.downAt.getD l 0 + 960000000000 ≤ now.tb)) ∧
    (∃ s : State, (s.hlt.tests.length = 8) ∧ (s.engs.length = 8) ∧
      (s.is R.TWN_CTL_EN = false ∨ s.get R.TWN_STAT_LANES % 4 = 3)) ∧
    (∃ s : State, ∃ slot : Nat, (s.hlt.tests.length = 8) ∧ (s.engs.length = 8) ∧ (slot < 2) ∧
      (s.is R.HLT_FW_STAT_BUSY = true)) ∧
    (∃ s : State, ∃ slot : Nat, (s.hlt.tests.length = 8) ∧ (s.engs.length = 8) ∧ (slot < 2) ∧
      (s.is R.HLT_FW_STAT_BUSY = false) ∧ (slot = b2n Config.goldenSlot) ∧ (s.sealOn = false)) ∧
    (∃ s : State, ∃ slot : Nat,
      let ok := s.stageOk (s.get R.HLT_FW_STAGE_BASE) (s.get R.HLT_FW_STAGE_LEN);
      (s.hlt.tests.length = 8) ∧ (s.engs.length = 8) ∧ (slot < 2) ∧ (s.is R.HLT_FW_STAT_BUSY = false) ∧
      (slot ≠ b2n Config.goldenSlot ∨ s.sealOn = true) ∧ (ok = false)) ∧
    (∃ s : State, ∃ slot : Nat,
      let ok := s.stageOk (s.get R.HLT_FW_STAGE_BASE) (s.get R.HLT_FW_STAGE_LEN);
      (s.hlt.tests.length = 8) ∧ (s.engs.length = 8) ∧ (slot < 2) ∧ (s.is R.HLT_FW_STAT_BUSY = false) ∧
      (slot ≠ b2n Config.goldenSlot ∨ s.sealOn = true) ∧ (ok = true)) ∧
    (∃ s : State, ∃ slot : Nat,
      let ok := s.stageOk (s.get R.HLT_FW_STAGE_BASE) (s.get R.HLT_FW_STAGE_LEN);
      (s.hlt.tests.length = 8) ∧ (s.engs.length = 8) ∧ (slot < 2) ∧ (s.is R.HLT_FW_STAT_BUSY = false) ∧
      (s.sealOn = true) ∧ (ok = false)) ∧
    (∃ s : State, ∃ slot : Nat,
      let ok := s.stageOk (s.get R.HLT_FW_STAGE_BASE) (s.get R.HLT_FW_STAGE_LEN);
      (s.hlt.tests.length = 8) ∧ (s.engs.length = 8) ∧ (slot < 2) ∧ (s.is R.HLT_FW_STAT_BUSY = false) ∧
      (s.sealOn = true) ∧ (ok = true)) ∧
    (∃ s : State, (s.hlt.tests.length = 8) ∧ (s.engs.length = 8) ∧ (s.hlt.fw = none)) ∧
    (∃ s : State, ∃ c : Sys2Proof.Machine.FwCmd, (s.hlt.tests.length = 8) ∧ (s.engs.length = 8) ∧
      (s.hlt.fw = some c) ∧ (c.slot < 2) ∧ (1 ≤ c.op ∧ c.op ≤ 3) ∧ (c.err < 16) ∧ (c.err ≠ 0)) ∧
    (∃ s : State, ∃ c : Sys2Proof.Machine.FwCmd, (s.hlt.tests.length = 8) ∧ (s.engs.length = 8) ∧
      (s.hlt.fw = some c) ∧ (c.slot < 2) ∧ (1 ≤ c.op ∧ c.op ≤ 3) ∧ (c.err < 16) ∧ (c.err = 0) ∧ (c.op = 2)) ∧
    (∃ s : State, ∃ isle : Nat, ∃ c : Sys2Proof.Machine.FwCmd, (s.hlt.tests.length = 8) ∧ (s.engs.length = 8) ∧
      (s.hlt.fw = some c) ∧ (c.slot < 2) ∧ (1 ≤ c.op ∧ c.op ≤ 3) ∧ (c.err < 16) ∧ (c.err = 0) ∧ (c.op = 3) ∧
      (isle ≠ 0) ∧ (isle < 16)) ∧
    (∃ s : State, ∃ same : Bool, ∃ isle : Nat, ∃ c : Sys2Proof.Machine.FwCmd, (s.hlt.tests.length = 8) ∧
      (s.engs.length = 8) ∧ (s.hlt.fw = some c) ∧ (c.slot < 2) ∧ (1 ≤ c.op ∧ c.op ≤ 3) ∧ (c.err < 16) ∧ (c.err = 0) ∧
      (c.op = 1 ∨ c.op = 3 ∧ isle = 0) ∧ (same = true)) ∧
    (∃ s : State, ∃ same : Bool, ∃ isle : Nat, ∃ c : Sys2Proof.Machine.FwCmd, (s.hlt.tests.length = 8) ∧
      (s.engs.length = 8) ∧ (s.hlt.fw = some c) ∧ (c.slot < 2) ∧ (1 ≤ c.op ∧ c.op ≤ 3) ∧ (c.err < 16) ∧ (c.err = 0) ∧
      (c.op = 1 ∨ c.op = 3 ∧ isle = 0) ∧ (same = false) ∧ (0 < c.img.length)) :=
  ⟨⟨1, (h0.put R.HLT_LIFE 262800), 0, by decide +kernel⟩,
  ⟨16000000, h0, 0, by decide +kernel⟩,
  ⟨16000000, (tsx h0 255), 0, true, by decide +kernel⟩,
  ⟨16000000, (tsx h0 255), 0, false, by decide +kernel⟩,
  ⟨16000000, h0, 0, by decide +kernel⟩,
  ⟨1, (h0.put R.HLT_LIFE 262800), 0, by decide +kernel⟩,
  ⟨K, st1, 5, by decide +kernel⟩,
  ⟨16000000, h0, by decide +kernel⟩,
  ⟨K, st1, 0, by decide +kernel⟩,
  ⟨h0, by decide +kernel⟩,
  ⟨(h0.set1 R.HLT_FW_STAT_BUSY), 0, by decide +kernel⟩,
  ⟨h0, (b2n Config.goldenSlot), by generalize Config.goldenSlot = g; cases g <;> decide +kernel⟩,
  ⟨(h0.put R.WCH_STAT_STATE 3), 1, by generalize Config.goldenSlot = g; cases g <;> decide +kernel⟩,
  ⟨((((h0.put R.WCH_STAT_STATE 3).put R.HLT_FW_STAGE_BASE 0x80000000).put R.HLT_FW_STAGE_LEN 200).put (R.BNK_BK_OWN_OWNER 0) 1),
    0, by generalize Config.goldenSlot = g; cases g <;> decide +kernel⟩,
  ⟨(h0.put R.WCH_STAT_STATE 3), 1, by decide +kernel⟩,
  ⟨(((h0.put R.WCH_STAT_STATE 3).put R.HLT_FW_STAGE_BASE 0x80000000).put R.HLT_FW_STAGE_LEN 200), 0,
    by decide +kernel⟩,
  ⟨h0, by decide +kernel⟩,
  ⟨(fwc ⟨1, 0, 3, [5, 6, 7]⟩ h0), ({ op := 1, slot := 0, err := 3, img := [0x05#8, 0x06#8, 0x07#8] }),
    by decide +kernel⟩,
  ⟨(fwc ⟨2, 0, 0, []⟩ h0), ({ op := 2, slot := 0, err := 0, img := [] }), by decide +kernel⟩,
  ⟨(fwc ⟨3, 1, 0, [5, 6, 7]⟩ h0), 1, ({ op := 3, slot := 1, err := 0, img := [0x05#8, 0x06#8, 0x07#8] }),
    by decide +kernel⟩,
  ⟨(fwc ⟨1, 1, 0, [5, 6, 7]⟩ h0), true, 0, ({ op := 1, slot := 1, err := 0, img := [0x05#8, 0x06#8, 0x07#8] }),
    by decide +kernel⟩,
  ⟨(fwc ⟨1, 1, 0, [5, 6, 7]⟩ h0), false, 0, ({ op := 1, slot := 1, err := 0, img := [0x05#8, 0x06#8, 0x07#8] }),
    by decide +kernel⟩⟩

end Sys2Proof.Tests.Health

namespace Sys2Proof.Tests.Pins

open Sys2Proof Sys2Proof.Machine

/-! ### Pins: small states, and the hypotheses they meet -/

/-- An instant. -/
abbrev T : Nat := 1000000

def i0 : State :=
  ((((State.reset.put R.IRQ_SOFT 5).put (R.IRQ_SRC_CFG 248) 0xF03).put (R.IRQ_SRC_CFG 250) 0x203).put (R.IRQ_C_THRESH 2) 9)

def st1 : State := { State.reset with pins := { tx := List.range 16, rx := List.range 16, jtag := 1 } }

theorem witness_PinsUartAndInterruptClaims :
    (∃ s : State, ∃ n : Nat, (n < 24) ∧ (s.held = true)) ∧
    (∃ s : State, (s.pins.tx.length < 16)) ∧
    (∃ s : State, (16 ≤ s.pins.tx.length)) ∧
    (∃ s : State, (s.pins.rx.length < 16)) ∧
    (∃ s : State, (16 ≤ s.pins.rx.length)) ∧
    (∃ ir : Nat, (ir < 7)) ∧
    (∃ t : Nat, ∃ s : State, ∃ k : Nat,
      let u := (s.at t).upToDate;
      ∃ n : Nat, (k < 4) ∧ (n < 256) ∧ (u.eligible k n = true) ∧ ((∀ m,
      m < 256 → u.eligible k m = true → u.get (R.IRQ_SRC_CFG_PRIO m) < u.get (R.IRQ_SRC_CFG_PRIO n) ∨ u.get (R.IRQ_SRC_CFG_PRIO m) = u.get (R.IRQ_SRC_CFG_PRIO n) ∧
      n ≤ m))) ∧
    (∃ t : Nat, ∃ s : State, ∃ k : Nat,
      let u := (s.at t).upToDate;
      (k < 4) ∧ ((∀ m, m < 256 → u.eligible k m = false))) ∧
    (∃ s : State, ∃ k : Nat, ∃ n : Nat, (k < 4) ∧ (n < 256) ∧ (s.is (R.IRQ_SRC_CFG_CLAIMED n) = true) ∧
      (s.get (R.IRQ_SRC_CFG_BY n) = k)) ∧
    (∃ s : State, ∃ k : Nat, ∃ n : Nat, (k < 4) ∧ (n < 256) ∧
      (s.is (R.IRQ_SRC_CFG_CLAIMED n) = false ∨ s.get (R.IRQ_SRC_CFG_BY n) ≠ k)) :=
  ⟨⟨({ State.reset with pwr := { State.reset.pwr with porst := true } }), 3, by decide +kernel⟩,
  ⟨(State.reset.put (R.PIN_GPIO_CFG_EDGE 3) 1), by decide +kernel⟩,
  ⟨st1, by decide +kernel⟩,
  ⟨(State.reset.put (R.PIN_GPIO_CFG_EDGE 3) 1), by decide +kernel⟩,
  ⟨st1, by decide +kernel⟩,
  ⟨0, by decide +kernel⟩,
  ⟨T, i0, 0, 248, by decide +kernel⟩,
  ⟨T, (State.reset.put (R.PIN_GPIO_CFG_EDGE 3) 1), 0, by decide +kernel⟩,
  ⟨((i0.put (R.IRQ_SRC_CFG_CLAIMED 248) 1).put (R.IRQ_SRC_CFG_BY 248) 3), 3, 248, by decide +kernel⟩,
  ⟨(State.reset.put (R.PIN_GPIO_CFG_EDGE 3) 1), 0, 0, by decide +kernel⟩⟩

end Sys2Proof.Tests.Pins

namespace Sys2Proof.Tests.Operators

open Sys2Proof Sys2Proof.Machine

/-! ### Operators: small states, and the hypotheses they meet -/

/-- An instant. -/
abbrev T : Nat := 1000000

def opS (op flags aux : Nat) : State :=
  (((State.reset.put (R.CE_RCOUNT_A 2) 1).writeBytes (ceBase 2) ([op, flags].map (BitVec.ofNat 8) ++ [0x1010, 0x1000,
    0x1001, 0x1002, 0, 0,
    aux].flatMap fun v => leBytes 2 v)).upEng 2 fun e => { e with run := some { start := 0, cyc := 16, stamp := 5000, num := 1, dUsed := 100000, dt := ofRat false 100000 16000000000, onTime := true, fix := { words := [(5, 100, 7000)] } } })

def opI (op flags aux : Nat) : Inst := ⟨0, op, flags, 0x1010, 0x1000, 0x1001, 0x1002, 0, 0, aux⟩

def opC (k v : Nat) (s : State) : State := s.ceSet 2 (0x2000 + 4 * k) v

theorem witness_TransformOperatorsComputeTheirFormulas :
    (∃ t : Nat, ∃ n : Nat, ∃ s : State, ∃ i : Inst, (s.Turn t n i) ∧ (i.op = 0x00)) ∧
    (∃ t : Nat, ∃ n : Nat, ∃ s : State, ∃ i : Inst, (s.Turn t n i) ∧ (i.op = 0x08) ∧ (OutFits i.out 2)) ∧
    (∃ t : Nat, ∃ n : Nat, ∃ s : State, ∃ i : Inst, (s.Turn t n i) ∧ (i.op = 0x09) ∧ (OutFits i.out 3)) ∧
    (∃ t : Nat, ∃ n : Nat, ∃ s : State, ∃ i : Inst, (s.Turn t n i) ∧ (i.op = 0x0A) ∧ (OutFits i.out 2)) ∧
    (∃ t : Nat, ∃ n : Nat, ∃ s : State, ∃ i : Inst, (s.Turn t n i) ∧ (i.op = 0x0B) ∧ (OutFits i.out 2)) ∧
    (∃ t : Nat, ∃ n : Nat, ∃ s : State, ∃ i : Inst, (s.Turn t n i) ∧ (i.op = 0x0C) ∧ (OutFits i.out 1)) :=
  ⟨⟨T, 2, (opS 0 0 0), (opI 0 0 0), by unfold State.Turn; decide +kernel⟩,
  ⟨T, 2, (opS 8 0 0), (opI 8 0 0), by unfold State.Turn; unfold OutFits; decide +kernel⟩,
  ⟨T, 2, (opS 9 0 0), (opI 9 0 0), by unfold State.Turn; unfold OutFits; decide +kernel⟩,
  ⟨T, 2, (opS 10 0 0), (opI 10 0 0), by unfold State.Turn; unfold OutFits; decide +kernel⟩,
  ⟨T, 2, (opS 11 0 0), (opI 11 0 0), by unfold State.Turn; unfold OutFits; decide +kernel⟩,
  ⟨T, 2, (opS 12 0 0), (opI 12 0 0), by unfold State.Turn; unfold OutFits; decide +kernel⟩⟩

theorem witness_ElementwiseOperatorsComputeTheirFormulas :
    (∃ t : Nat, ∃ n : Nat, ∃ s : State, ∃ i : Inst,
      let w := i.aux % 16 + 1;
      (s.Turn t n i) ∧ (i.op = 0x40) ∧ (OutFits i.out w)) ∧
    (∃ t : Nat, ∃ n : Nat, ∃ s : State, ∃ i : Inst,
      let w := i.aux % 16 + 1;
      (s.Turn t n i) ∧ (i.op = 0x44) ∧ (OutFits i.out w)) ∧
    (∃ t : Nat, ∃ n : Nat, ∃ s : State, ∃ i : Inst,
      let w := i.aux % 16 + 1;
      (s.Turn t n i) ∧ (i.op = 0x45) ∧ (OutFits i.out w)) ∧
    (∃ t : Nat, ∃ n : Nat, ∃ s : State, ∃ i : Inst, (s.Turn t n i) ∧ (i.op = 0x2A) ∧ (OutFits i.out 1)) ∧
    (∃ t : Nat, ∃ n : Nat, ∃ s : State, ∃ i : Inst, (s.Turn t n i) ∧ (i.op = 0x21) ∧ (OutFits i.out 1)) ∧
    (∃ t : Nat, ∃ n : Nat, ∃ s : State, ∃ i : Inst, (s.Turn t n i) ∧ (i.op = 0x22) ∧ (OutFits i.out 2)) :=
  ⟨⟨T, 2, (opS 64 0 0), (opI 64 0 0), by unfold State.Turn; unfold OutFits; decide +kernel⟩,
  ⟨T, 2, (opS 68 0 0), (opI 68 0 0), by unfold State.Turn; unfold OutFits; decide +kernel⟩,
  ⟨T, 2, (opS 69 0 0), (opI 69 0 0), by unfold State.Turn; unfold OutFits; decide +kernel⟩,
  ⟨T, 2, (opS 42 0 0), (opI 42 0 0), by unfold State.Turn; unfold OutFits; decide +kernel⟩,
  ⟨T, 2, (opS 33 0 0), (opI 33 0 0), by unfold State.Turn; unfold OutFits; decide +kernel⟩,
  ⟨T, 2, (opS 34 0 0), (opI 34 0 0), by unfold State.Turn; unfold OutFits; decide +kernel⟩⟩

theorem witness_MatvecAccumulatesRowByRow :
    ∃ t : Nat, ∃ n : Nat, ∃ s : State, ∃ i : Inst,
      let rows := i.aux % 16 + 1;
      (s.Turn t n i) ∧ (i.op = 0x18) ∧ (OutFits i.out rows) :=
  ⟨T, 2, (opS 24 0 0), (opI 24 0 0), by unfold State.Turn; unfold OutFits; decide +kernel⟩

theorem witness_LoopOperatorsIntegrate :
    (∃ t : Nat, ∃ n : Nat, ∃ s : State, ∃ i : Inst, (s.Turn t n i) ∧ (i.op = 0x10) ∧ (OutFits i.out 1) ∧
      (i.state + 6 ≤ 10240)) ∧
    (∃ t : Nat, ∃ n : Nat, ∃ s : State, ∃ i : Inst, (s.Turn t n i) ∧ (i.op = 0x11) ∧ (OutFits i.out 1) ∧
      (i.state + 5 ≤ 10240)) ∧
    (∃ t : Nat, ∃ n : Nat, ∃ s : State, ∃ i : Inst,
      let d := i.aux % 8 + 1;
      (s.Turn t n i) ∧ (i.op = 0x19) ∧ (OutFits i.out d) ∧ (i.state + d ≤ 10240)) :=
  ⟨⟨T, 2, (opS 16 0 0), (opI 16 0 0), by unfold State.Turn; unfold OutFits; decide +kernel⟩,
  ⟨T, 2, (opS 17 0 0), (opI 17 0 0), by unfold State.Turn; unfold OutFits; decide +kernel⟩,
  ⟨T, 2, (opS 25 0 0), (opI 25 0 0), by unfold State.Turn; unfold OutFits; decide +kernel⟩⟩

theorem witness_ShapingOperatorsKeepTheirState :
    (∃ t : Nat, ∃ n : Nat, ∃ s : State, ∃ i : Inst, (s.Turn t n i) ∧ (i.op = 0x28) ∧ (OutFits i.out 1) ∧
      (i.state + 2 ≤ 10240)) ∧
    (∃ t : Nat, ∃ n : Nat, ∃ s : State, ∃ i : Inst, (s.Turn t n i) ∧ (i.op = 0x29) ∧ (OutFits i.out 1) ∧
      (i.state + 2 ≤ 10240)) ∧
    (∃ t : Nat, ∃ n : Nat, ∃ s : State, ∃ i : Inst, (s.Turn t n i) ∧ (i.op = 0x30) ∧ (OutFits i.out 2) ∧
      (i.state + 2 ≤ 10240) ∧ (i.opt 4 = false)) ∧
    (∃ t : Nat, ∃ n : Nat, ∃ s : State, ∃ i : Inst, (s.Turn t n i) ∧ (i.op = 0x30) ∧ (OutFits i.out 2) ∧
      (i.state + 2 ≤ 10240) ∧ (i.opt 4 = true)) ∧
    (∃ t : Nat, ∃ n : Nat, ∃ s : State, ∃ i : Inst,
      let co k := s.coF n i k;
      let st k := s.stF n i k;
      let dt := s.runDt n;
      let keep k v := if isNan v then s.stU n i k else v % 2 ^ 32;
      let time := keep 1 (fadd (st 1) dt);
      (s.Turn t n i) ∧ (i.op = 0x31) ∧ (OutFits i.out 1) ∧ (i.state + 3 ≤ 10240) ∧
      (fge (fcanon time) (co 0) = true)) ∧
    (∃ t : Nat, ∃ n : Nat, ∃ s : State, ∃ i : Inst,
      let co k := s.coF n i k;
      let st k := s.stF n i k;
      let dt := s.runDt n;
      let keep k v := if isNan v then s.stU n i k else v % 2 ^ 32;
      let time := keep 1 (fadd (st 1) dt);
      (s.Turn t n i) ∧ (i.op = 0x31) ∧ (OutFits i.out 1) ∧ (i.state + 3 ≤ 10240) ∧
      (fge (fcanon time) (co 0) = false)) ∧
    (∃ t : Nat, ∃ n : Nat, ∃ s : State, ∃ i : Inst, (s.Turn t n i) ∧ (i.op = 0x41) ∧ (OutFits i.out 1) ∧
      (i.state + 1 ≤ 10240)) ∧
    (∃ t : Nat, ∃ n : Nat, ∃ s : State, ∃ i : Inst, (s.Turn t n i) ∧ (i.op = 0x42) ∧ (OutFits i.out 2) ∧
      (i.state + 4 ≤ 10240)) :=
  ⟨⟨T, 2, (opS 40 0 0), (opI 40 0 0), by unfold State.Turn; unfold OutFits; decide +kernel⟩,
  ⟨T, 2, (opS 41 0 0), (opI 41 0 0), by unfold State.Turn; unfold OutFits; decide +kernel⟩,
  ⟨T, 2, (opS 48 0 0), (opI 48 0 0), by unfold State.Turn; unfold OutFits; decide +kernel⟩,
  ⟨T, 2, (opS 48 16 0), (opI 48 16 0), by unfold State.Turn; unfold OutFits; decide +kernel⟩,
  ⟨T, 2, (opS 49 0 0), (opI 49 0 0), by unfold State.Turn; unfold OutFits; decide +kernel⟩,
  ⟨T, 2, (opC 0 0x7F000000 (opS 49 0 0)), (opI 49 0 0), by unfold State.Turn; unfold OutFits; decide +kernel⟩,
  ⟨T, 2, (opS 65 0 0), (opI 65 0 0), by unfold State.Turn; unfold OutFits; decide +kernel⟩,
  ⟨T, 2, (opS 66 0 0), (opI 66 0 0), by unfold State.Turn; unfold OutFits; decide +kernel⟩⟩

theorem witness_SourceOperatorsDeliverWhatTheRunFixed :
    (∃ t : Nat, ∃ n : Nat, ∃ s : State, ∃ i : Inst,
      let fix := ((s.eng n).run.map (·.fix)).getD {};
      let kind := i.aux / 16384 % 4;
      let idx := i.aux % (if kind = 0 then 256 else if kind = 1 then 16 else 4);
      ∃ w : Int, ∃ st : Nat, (s.Turn t n i) ∧ (i.op = 0x01) ∧ (kind < 2) ∧
      (OutFits i.out (if i.opt 4 then 2 else 1)) ∧ (fix.words.find? (·.1 = 256 * kind + idx) = some (256 * kind + idx,
      w, st))) ∧
    (∃ t : Nat, ∃ n : Nat, ∃ s : State, ∃ i : Inst,
      let kind := i.aux / 16384 % 4;
      (s.Turn t n i) ∧ (i.op = 0x01) ∧ (kind = 2) ∧ (OutFits i.out 1)) ∧
    (∃ t : Nat, ∃ n : Nat, ∃ s : State, ∃ i : Inst,
      let kind := i.aux / 16384 % 4;
      (s.Turn t n i) ∧ (i.op = 0x01) ∧ (kind = 3) ∧ (OutFits i.out 2)) ∧
    (∃ t : Nat, ∃ n : Nat, ∃ s : State, ∃ i : Inst,
      let co k := s.coF n i k;
      let m := i.aux % 64;
      let v := s.rdF n i.in0;
      let x k := co k;
      (s.Turn t n i) ∧ (i.op = 0x2B) ∧ (OutFits i.out 1) ∧ (2 ≤ m) ∧ (isNan v = true ∨ fle v (x 0) = true)) ∧
    (∃ t : Nat, ∃ n : Nat, ∃ s : State, ∃ i : Inst,
      let co k := s.coF n i k;
      let m := i.aux % 64;
      let v := s.rdF n i.in0;
      let x k := co k;
      (s.Turn t n i) ∧ (i.op = 0x2B) ∧ (OutFits i.out 1) ∧ (2 ≤ m) ∧ (isNan v = false) ∧ (fle v (x 0) = false) ∧
      (fge v (x (m - 1)) = true)) ∧
    (∃ t : Nat, ∃ n : Nat, ∃ s : State, ∃ i : Inst,
      let co k := s.coF n i k;
      let m := i.aux % 64;
      let v := s.rdF n i.in0;
      let x k := co k;
      ∃ k : Nat, (s.Turn t n i) ∧ (i.op = 0x2B) ∧ (OutFits i.out 1) ∧ (2 ≤ m) ∧ (k + 1 < m) ∧ (isNan v = false) ∧
      (fle v (x 0) = false) ∧ (fge v (x (m - 1)) = false) ∧ (fle (x k) v = true) ∧ ((∀ j,
      k < j → j + 1 < m → fle (x j) v = false))) ∧
    (∃ t : Nat, ∃ n : Nat, ∃ s : State, ∃ i : Inst, (s.Turn t n i) ∧ (i.op = 0x49) ∧ (i.opt 4 = true) ∧
      (OutFits i.out 16) ∧ (i.state + 1 ≤ 10240)) :=
  ⟨⟨T, 2, (opS 1 0 5), (opI 1 0 5), 100, 7000, by unfold State.Turn; unfold OutFits; decide +kernel⟩,
  ⟨T, 2, (opS 1 0 32768), (opI 1 0 32768), by unfold State.Turn; unfold OutFits; decide +kernel⟩,
  ⟨T, 2, (opS 1 0 49152), (opI 1 0 49152), by unfold State.Turn; unfold OutFits; decide +kernel⟩,
  ⟨T, 2, (opS 43 0 2), (opI 43 0 2), by unfold State.Turn; unfold OutFits; decide +kernel⟩,
  ⟨T, 2, (opC 1 0xBF000000 (opC 0 0xBF800000 (opS 43 0 2))), (opI 43 0 2),
    by unfold State.Turn; unfold OutFits; decide +kernel⟩,
  ⟨T, 2, (opC 1 0x3F800000 (opC 0 0xBF800000 (opS 43 0 2))), (opI 43 0 2), 0,
    by unfold State.Turn OutFits; dsimp only; repeat' (first | apply And.intro | exact fun j h1 h2 => absurd h2 (by show ¬ (j + 1 < 2); omega) | decide +kernel)⟩,
  ⟨T, 2, (opS 73 16 0), (opI 73 16 0), by unfold State.Turn; unfold OutFits; decide +kernel⟩⟩

theorem witness_MachineOperatorsComputeTheirFormulas :
    (∃ t : Nat, ∃ n : Nat, ∃ s : State, ∃ i : Inst,
      let a k := s.rdF n (refAt i.in0 k);
      let b k := s.rdF n (refAt i.in1 k);
      let c := s.rdF n i.in2;
      let co k := s.coF n i k;
      let st k := s.stF n i k;
      let dt := s.runDt n;
      let keep k v := if isNan v then s.stU n i k else v % 2 ^ 32;
      let acc := fsub (fsub (a 0) (b 0)) (fmul (co 1) (fsub (st 1) c));
      let dwc := fsat (fadd (st 1) (fmul (fdiv dt (co 0)) acc)) (co 4) (co 5);
      let dw := fcanon (keep 1 dwc);
      let turn := radd (turnInc (radd (fval (co 2)) (fval dw)) (co 3) (s.runD n)) (fval (st 2));
      ∃ num : Int, ∃ den : Nat, (s.Turn t n i) ∧ (i.op = 0x20) ∧ ((i.out = 0 ∨ refSpace i.out = 1 ∧
      refIndex i.out + 2 ≤ 1024)) ∧ ((i.aux = 0 ∨ refSpace i.aux = 2 ∧ refIndex i.aux < 64)) ∧ (i.state + 4 ≤ 10240) ∧
      (turn = some (num, den))) ∧
    (∃ t : Nat, ∃ n : Nat, ∃ s : State, ∃ i : Inst,
      let a k := s.rdF n (refAt i.in0 k);
      let b k := s.rdF n (refAt i.in1 k);
      let c := s.rdF n i.in2;
      let co k := s.coF n i k;
      let st k := s.stF n i k;
      let dt := s.runDt n;
      let keep k v := if isNan v then s.stU n i k else v % 2 ^ 32;
      let acc := fsub (fsub (a 0) (b 0)) (fmul (co 1) (fsub (st 1) c));
      let dwc := fsat (fadd (st 1) (fmul (fdiv dt (co 0)) acc)) (co 4) (co 5);
      let dw := fcanon (keep 1 dwc);
      let turn := radd (turnInc (radd (fval (co 2)) (fval dw)) (co 3) (s.runD n)) (fval (st 2));
      (s.Turn t n i) ∧ (i.op = 0x20) ∧ ((i.out = 0 ∨ refSpace i.out = 1 ∧ refIndex i.out + 2 ≤ 1024)) ∧
      ((i.aux = 0 ∨ refSpace i.aux = 2 ∧ refIndex i.aux < 64)) ∧ (i.state + 4 ≤ 10240) ∧ (turn = none)) ∧
    (∃ t : Nat, ∃ n : Nat, ∃ s : State, ∃ i : Inst, (s.Turn t n i) ∧ (i.op = 0x23) ∧ (OutFits i.out 3) ∧
      (i.state + 2 ≤ 10240)) ∧
    (∃ t : Nat, ∃ n : Nat, ∃ s : State, ∃ i : Inst, (s.Turn t n i) ∧ (i.op = 0x24) ∧ (OutFits i.out 2) ∧
      (i.state + 8 ≤ 10240)) ∧
    (∃ t : Nat, ∃ n : Nat, ∃ s : State, ∃ i : Inst, (s.Turn t n i) ∧ (i.op = 0x38) ∧ (OutFits i.out 12)) :=
  ⟨⟨T, 2, (opC 0 0x3F800000 (opS 32 0 0)), (opI 32 0 0), 0, 1953125, by unfold State.Turn; decide +kernel⟩,
  ⟨T, 2, (opC 3 0x3F800000 (opC 2 0x7F800000 (opC 0 0x3F800000 (opS 32 0 0)))), (opI 32 0 0),
    by unfold State.Turn; decide +kernel⟩,
  ⟨T, 2, (opS 35 0 0), (opI 35 0 0), by unfold State.Turn; unfold OutFits; decide +kernel⟩,
  ⟨T, 2, (opS 36 0 0), (opI 36 0 0), by unfold State.Turn; unfold OutFits; decide +kernel⟩,
  ⟨T, 2, (opS 56 0 0), (opI 56 0 0), by unfold State.Turn; unfold OutFits; decide +kernel⟩⟩

theorem witness_OutputOperatorsAct :
    (∃ t : Nat, ∃ n : Nat, ∃ s : State, ∃ i : Inst, (s.Turn t n i) ∧ (i.op = 0x48) ∧ (i.opt 5 = false) ∧
      (s.is R.TWN_CTL_EN = false) ∧ ((i.aux % 64) + (i.aux / 64 % 64 + 1) ≤ 48)) ∧
    (∃ t : Nat, ∃ n : Nat, ∃ s : State, ∃ i : Inst, (s.Turn t n i) ∧ (i.op = 0x49) ∧ (i.opt 4 = false) ∧
      (s.is R.TWN_CTL_EN = false) ∧ (i.state + 1 ≤ 10240)) ∧
    (∃ t : Nat, ∃ n : Nat, ∃ s : State, ∃ i : Inst, (s.Turn t n i) ∧ (i.op = 0x4A) ∧ (i.state + 1 ≤ 10240)) ∧
    (∃ t : Nat, ∃ n : Nat, ∃ s : State, ∃ i : Inst, (s.Turn t n i) ∧ (i.op = 0x4B) ∧ (i.state + 1 ≤ 10240)) :=
  ⟨⟨T, 2, (opS 72 0 0), (opI 72 0 0), by unfold State.Turn; decide +kernel⟩,
  ⟨T, 2, (opS 73 0 0), (opI 73 0 0), by unfold State.Turn; decide +kernel⟩,
  ⟨T, 2, (opS 74 0 0), (opI 74 0 0), by unfold State.Turn; decide +kernel⟩,
  ⟨T, 2, (opS 75 0 0), (opI 75 0 0), by unfold State.Turn; decide +kernel⟩⟩

end Sys2Proof.Tests.Operators
end

section
/-!
Accesses of the register space: which are refused, and what a word written or read does outside the pulse path.
-/

namespace Sys2Proof.Machine

/-! ### What the pulse path leaves alone -/

section Beside
variable {o s t : State}

/-- A state with the units of the pulse path and the registers left out: what the pulse path may not touch. -/
def State.besides (s : State) : State :=
  { s with regs := [], marks := [], drawn := 0, chans := [], groups := [], fltPins := [], lanes := [], engs := [], twn := {} }

/-- Two states agree beside the pulse path. -/
def State.Beside (o s : State) : Prop := s.besides = o.besides

theorem State.Beside.ite {c : Prop} {_ : Decidable c} (h : o.Beside s) (h' : o.Beside t) : o.Beside (if c then s else t) := by
  split <;> assumption
theorem State.Beside.foldl {α : Type} {f : State → α → State} {l : List α} (h : o.Beside s)
    (hf : ∀ s a, o.Beside s → o.Beside (f s a)) : o.Beside (l.foldl f s) := by
  induction l generalizing s with
  | nil => exact h
  | cons a l ih => exact ih (hf _ _ h)
theorem State.Beside.put {f : RF} {v : Nat} (h : o.Beside s) : o.Beside (s.put f v) := h
theorem State.Beside.mark {f : RF} {m : Nat} (h : o.Beside s) : o.Beside (s.mark f m) := h
theorem State.Beside.set1 {f : RF} (h : o.Beside s) : o.Beside (s.set1 f) := h
theorem State.Beside.clr {f : RF} (h : o.Beside s) : o.Beside (s.clr f) := h
theorem State.Beside.orr {f : RF} {m : Nat} (h : o.Beside s) : o.Beside (s.orr f m) := h
theorem State.Beside.andn {f : RF} {m : Nat} (h : o.Beside s) : o.Beside (s.andn f m) := h
theorem State.Beside.bump {f : RF} {n : Nat} (h : o.Beside s) : o.Beside (s.bump f n) := h
theorem State.Beside.upChan {k : Nat} {f : Chan → Chan} (h : o.Beside s) : o.Beside (s.upChan k f) := h
theorem State.Beside.upGroup {k : Nat} {f : PwmGroup → PwmGroup} (h : o.Beside s) : o.Beside (s.upGroup k f) := h
theorem State.Beside.upLane {k : Nat} {f : Lane → Lane} (h : o.Beside s) : o.Beside (s.upLane k f) := h
theorem State.Beside.upEng {k : Nat} {f : Engine → Engine} (h : o.Beside s) : o.Beside (s.upEng k f) := h
theorem State.Beside.upTwn {f : Twin → Twin} (h : o.Beside s) : o.Beside (s.upTwn f) := h
theorem State.Beside.with_twn {x : Twin} (h : o.Beside s) : o.Beside { s with twn := x } := h

theorem State.Beside.showMute {l : Nat} (h : o.Beside s) : o.Beside (s.showMute l) := h.put.put
theorem State.Beside.mute {l why : Nat} (h : o.Beside s) : o.Beside (s.mute l why) := h.upLane.showMute
theorem State.Beside.takeMute {g src a : Nat} (h : o.Beside s) : o.Beside (s.takeMute g src a) :=
  .set1 (.foldl (.ite h.upGroup (.with_twn h.upGroup)) (fun _ _ hx => hx.mute))
theorem State.Beside.showGroup {g : Nat} (h : o.Beside s) : o.Beside (s.showGroup g) := h.put.put.put
theorem State.Beside.traceTrigger {n : Nat} (h : o.Beside s) : o.Beside (s.traceTrigger n) := .ite h h.put.put.set1.upEng
theorem State.Beside.traceAction {g : Nat} (h : o.Beside s) : o.Beside (s.traceAction g) := by
  unfold State.traceAction
  split
  exacts [.ite h.traceTrigger h, h]
theorem State.Beside.holdGroup {g : Nat} (h : o.Beside s) : o.Beside (s.holdGroup g) := .foldl h (fun _ _ hx => hx.upChan)
theorem State.Beside.sendFrame {l st : Nat} {bs : List Byte} {own : Bool} (h : o.Beside s) :
    o.Beside (s.sendFrame l st bs own) :=
  h.upLane
theorem State.Beside.setLevel {ch : Nat} {v : Bool} {t : Nat} (h : o.Beside s) : o.Beside (s.setLevel ch v t) :=
  .ite (.put (.ite (.ite h.upChan h) h.upChan)) (.put (.ite (.ite h.upChan h) h.upChan))
theorem State.Beside.runEdge {ch : Nat} (h : o.Beside s) : o.Beside (s.runEdge ch) := by
  unfold State.runEdge
  split
  exacts [h, h.upChan.setLevel]
theorem State.Beside.runEdges {ch t : Nat} (h : o.Beside s) :
    o.Beside (s.runEdges ch t) :=
  .foldl h (fun _ _ hx => hx.runEdge)
theorem State.Beside.softSlot {ch mode st : Nat} (h : o.Beside s) : o.Beside (s.softSlot ch mode st) :=
  .ite h.runEdges.upChan.setLevel h.runEdges.upChan
theorem State.Beside.dropEdge {ch : Nat} {e : Edge} {late : Bool} (h : o.Beside s) : o.Beside (s.dropEdge ch e late) :=
  .upLane (.ite h.bump.set1.put.set1 h.bump.set1.put)
theorem State.Beside.seqPut {ch v : Nat} (h : o.Beside s) : o.Beside (s.seqPut ch v) := h.put
theorem State.Beside.edgeGo {l st slot : Nat} {e : Edge} (h : o.Beside s) : o.Beside (s.edgeGo l st slot e) :=
  .ite h.dropEdge (.ite h.seqPut.upChan.sendFrame h.seqPut.upChan)
theorem State.Beside.sendCmd {l st : Nat} {a : LaneCmd} (h : o.Beside s) : o.Beside (s.sendCmd l st a) := by
  unfold State.sendCmd
  split <;> exact h.sendFrame.upLane
theorem State.Beside.lineSend {l st cls : Nat} (h : o.Beside s) : o.Beside (s.lineSend l st cls) := by
  unfold State.lineSend
  split
  · dsimp only
    split
    exacts [.foldl h.upLane.sendFrame (fun _ _ hz => .ite hz.softSlot hz), h]
  · dsimp only
    split
    exacts [h.upLane.edgeGo, h]
  · dsimp only
    split
    exacts [h.upLane.sendCmd, h]
  · exact h.upLane.sendFrame
theorem State.Beside.lineRunN {l upto n : Nat} (h : o.Beside s) : o.Beside (State.lineRunN l upto n s) := by
  induction n generalizing s with
  | zero => exact h
  | succ n ih =>
    unfold State.lineRunN; dsimp only
    split
    exacts [h, .ite (ih h.lineSend) h]
theorem State.Beside.lineRun {l : Nat} (h : o.Beside s) : o.Beside (s.lineRun l) := h.lineRunN.upLane
theorem State.Beside.sendSoftoff {l mode mask : Nat} {first : Bool} (h : o.Beside s) :
    o.Beside (s.sendSoftoff l mode mask first) :=
  .ite h h.lineRun.upLane.lineRun
theorem State.Beside.groupSoftoff {g a : Nat} (h : o.Beside s) : o.Beside (s.groupSoftoff g a) :=
  .foldl h (fun _ _ hx => hx.sendSoftoff)
theorem State.Beside.takeAction {g src a : Nat} (h : o.Beside s) : o.Beside (s.takeAction g src a) :=
  .ite h.upGroup.upGroup.bump.set1.put.set1.groupSoftoff.holdGroup.traceAction.showGroup
    (.ite h.upGroup.upGroup.set1.groupSoftoff.holdGroup.traceAction.showGroup h.upGroup.showGroup)
theorem State.Beside.actOn {g src : Nat} (h : o.Beside s) : o.Beside (s.actOn g src) := .ite h (.ite h.takeMute h.takeAction)
theorem State.Beside.fsAssert {src : Nat} (h : o.Beside s) : o.Beside (s.fsAssert src) :=
  .ite (.ite h.orr h.orr.orr) (.foldl (.ite h.orr h.orr.orr) (fun _ _ hx => hx.actOn))
theorem State.Beside.cutPeriods {g b : Nat} (h : o.Beside s) : o.Beside (s.cutPeriods g b) := by
  unfold State.cutPeriods
  split
  exacts [h, h.upGroup]
theorem State.Beside.queueEdge {ch : Nat} {e : Edge} (h : o.Beside s) : o.Beside (s.queueEdge ch e) :=
  .ite h (.ite h.upChan h.dropEdge)
theorem State.Beside.buildLane {g l : Nat} {p : Period} {x cut : Nat} (h : o.Beside s) : o.Beside (s.buildLane g l p x cut) :=
  .foldl (.upGroup (.foldl h (fun _ _ hx => hx.upChan))) (fun _ _ hx => hx.queueEdge)
theorem State.Beside.rebuildLane {g l x : Nat} {geo : Bool} (h : o.Beside s) : o.Beside (s.rebuildLane g l x geo) :=
  .foldl (.upGroup (.foldl h (fun _ _ hx => .ite hx.upChan hx))) (fun _ _ hx => .ite hx hx.buildLane)
theorem State.Beside.addPeriod {g : Nat} {p : Period} (h : o.Beside s) : o.Beside (s.addPeriod g p) :=
  .foldl h.upGroup (fun _ _ hx => hx.buildLane)
theorem State.Beside.buildAhead {g n : Nat} (h : o.Beside s) : o.Beside (State.buildAhead g n s) := by
  induction n generalizing s with
  | zero => exact h
  | succ n ih =>
    unfold State.buildAhead
    split
    exacts [.ite (ih h.addPeriod) h, h]
theorem State.Beside.reshape {g t : Nat} (h : o.Beside s) : o.Beside (s.reshape g t) :=
  .ite h (.buildAhead (.foldl h.cutPeriods (fun _ _ hx => hx.rebuildLane)))
theorem State.Beside.releaseGroup {g : Nat} {frozen : Bool} (h : o.Beside s) : o.Beside (s.releaseGroup g frozen) :=
  .reshape (.foldl h (fun _ _ hx => hx.upChan))
theorem State.Beside.dropHolds {g : Nat} {keep : Hold → Bool} (h : o.Beside s) : o.Beside (s.dropHolds g keep) :=
  .ite h.upGroup.showGroup (.showGroup (.ite h.upGroup.upGroup.clr h.upGroup.upGroup.clr.releaseGroup))
theorem State.Beside.fsRelease {src : Nat} (h : o.Beside s) : o.Beside (s.fsRelease src) :=
  .ite h (.foldl h.andn (fun _ _ hx => hx.dropHolds))
theorem State.Beside.fsSet {src : Nat} {on : Bool} (h : o.Beside s) : o.Beside (s.fsSet src on) := .ite h.fsAssert h.fsRelease
theorem State.Beside.laneSource {l : Nat} (h : o.Beside s) : o.Beside (s.laneSource l) :=
  .ite (.foldl h (fun _ _ hx => .ite hx.actOn hx)) h.fsSet
theorem State.Beside.laneSources {old : State} (h : o.Beside s) : o.Beside (State.laneSources old s) :=
  .foldl h fun _ _ hx => .ite hx hx.laneSource
theorem State.Beside.twPlace {l x : Nat} {p : TwOut} (h : o.Beside s) : o.Beside (s.twPlace l x p) := h
theorem State.Beside.twRunFor {n : Nat} (h : o.Beside s) : o.Beside (State.twRunFor n s) := by
  induction n generalizing s with
  | zero => exact h
  | succ n ih =>
    unfold State.twRunFor
    split
    · refine .ite h ?_
      split
      exacts [ih h.twPlace, h]
    · exact h
theorem State.Beside.twRun (h : o.Beside s) : o.Beside s.twRun := h.twRunFor
theorem State.Beside.twSend {m : TwMsg} (h : o.Beside s) : o.Beside (s.twSend m) := .ite h h.twRun.upTwn
theorem State.Beside.healthPush (h : o.Beside s) : o.Beside s.healthPush := h.twSend
theorem State.Beside.showCarry (h : o.Beside s) : o.Beside s.showCarry := .ite h h.put.healthPush
theorem State.Beside.followed {old : State} (h : o.Beside s) : o.Beside (old.followed s) :=
  .ite h.laneSources h.laneSources.showCarry

end Beside

/-! ### Writes that neither the pulse path nor a quiesce condition takes note of -/

/-- A field of one word, of PHT, WCH or LDG, that no lane's source, no carry mask and no quiesce condition rests on. -/
abbrev RF.Quiet (f : RF) : Prop :=
  f.lsb + f.width ≤ 32 ∧ f.addr % 4 = 0 ∧ (f.addr / 0x10000 = 0x400C ∨
    f.addr / 0x10000 = 0x4013 ∧ f.addr ≠ R.WCH_STAT_STATE.addr ∨ f.addr / 0x10000 = 0x4014 ∧ f.addr ≠ R.LDG_CTL.addr)

/-- A field of one word that one of them may rest on. -/
abbrev RF.Loud (g : RF) : Prop :=
  g.lsb + g.width ≤ 32 ∧ g.addr % 4 = 0 ∧ (g.addr / 0x10000 = 0x4003 ∨
    (0x400D ≤ g.addr / 0x10000 ∧ g.addr / 0x10000 ≤ 0x4012) ∨ g.addr = R.WCH_STAT_STATE.addr ∨ g.addr = R.LDG_CTL.addr)

theorem RF.Quiet.apart {f g : RF} (hf : f.Quiet) (hg : g.Loud) : f.apart g := by
  simp only [RF.Quiet, RF.Loud, R.WCH_STAT_STATE, R.LDG_CTL] at hf hg
  simp only [RF.apart]
  omega

theorem all_congr_mem {α : Type} {l : List α} {p q : α → Bool} (h : ∀ a ∈ l, p a = q a) : l.all p = l.all q := by
  rw [Bool.eq_iff_iff, List.all_eq_true, List.all_eq_true]
  exact forall₂_congr fun a ha => by rw [h a ha]

section Quiet
variable {fs : List RF} {o n : State}

theorem KeepsBut.get_loud (h : KeepsBut fs o n) (hq : ∀ f ∈ fs, f.Quiet) {g : RF} (hg : g.Loud) : n.get g = o.get g :=
  h.get g (Nat.le_trans hg.1 (by decide)) fun f hf => (hq f hf).apart hg

theorem KeepsBut.is_loud (h : KeepsBut fs o n) (hq : ∀ f ∈ fs, f.Quiet) {g : RF} (hg : g.Loud) : n.is g = o.is g := by
  simp only [State.is, h.get_loud hq hg]

theorem State.groupLanes_same (h : KeepsBut fs o n) (hq : ∀ f ∈ fs, f.Quiet) (g : Nat) : n.groupLanes g = o.groupLanes g := by
  have e : n.groupChans g = o.groupChans g := List.filter_congr fun k hk => by
    have hk := List.mem_range.1 hk
    rw [h.is_loud hq (g := R.PWM_CH_CFG_EN k) (by simp only [RF.Loud, R.PWM_CH_CFG_EN]; omega),
      h.get_loud hq (g := R.PWM_CH_CFG_GROUP k) (by simp only [RF.Loud, R.PWM_CH_CFG_GROUP]; omega)]
  simp only [State.groupLanes, e]

/-- PAIRED has a bit for each of the eight engine sheets. -/
theorem State.paired_le {s : State} {k : Nat} (h : s.paired k = true) : k ≤ 8 := by
  have hw : k - 1 < 8 := Nat.lt_of_not_le fun hk => by
    have e := Nat.testBit_lt_two_pow ((s.get_lt R.TWN_SHEETS_PAIRED).trans_le (Nat.pow_le_pow_right (by decide) hk))
    exact absurd (e.symm.trans h) (by decide)
  omega

theorem State.paired_same (h : KeepsBut fs o n) (hq : ∀ f ∈ fs, f.Quiet) (k : Nat) : n.paired k = o.paired k := by
  rw [State.paired, State.paired, h.get_loud hq (by decide)]

theorem State.sheetLoaded_same (h : KeepsBut fs o n) (hq : ∀ f ∈ fs, f.Quiet) {k : Nat} (hk : k ≤ 8) :
    n.sheetLoaded k = o.sheetLoaded k :=
  h.is_loud hq (by simp only [RF.Loud, R.MLD_SH_SRC_LOADED]; omega)

theorem State.quiesceHeld_same (h : KeepsBut fs o n) (hq : ∀ f ∈ fs, f.Quiet) (hm : n.mld = o.mld) (k : Nat) :
    n.quiesceHeld k = o.quiesceHeld k := by
  simp only [State.quiesceHeld, h.get_loud hq (g := R.MLD_QUIESCE) (by decide), hm,
    h.get_loud hq (g := R.TWN_SHEETS_UNPAIRED) (by decide)]

/-- A group is carried where its sheet, if it has one, is paired and not quiesced. -/
theorem State.carries_eq (s : State) (g : Nat) : s.carries g =
    (s.is R.TWN_CTL_EN && (s.twState = 3 || s.twState = 4 || s.twState = 5) &&
      (s.groupSheet g).any (fun k => s.paired k && !s.quiesceHeld k) &&
      !s.is (R.FMX_PG_STAT_MUTED g) && (s.groupLanes g).all fun l => s.get (R.LNE_LN_STAT_STATE l) = 2) := by
  unfold State.carries
  cases s.groupSheet g <;> rfl

/-- The sheet of a group counts only where it is paired, and a paired sheet's number is one of MLD's. -/
theorem State.carrySheet_same (h : KeepsBut fs o n) (hq : ∀ f ∈ fs, f.Quiet) (hm : n.mld = o.mld) (g : Nat) :
    (n.groupSheet g).any (fun k => n.paired k && !n.quiesceHeld k) =
      (o.groupSheet g).any fun k => o.paired k && !o.quiesceHeld k := by
  have ho : n.ownerOf .group g = o.ownerOf .group g := by rw [State.ownerOf, State.ownerOf, hm]
  unfold State.groupSheet
  simp only [ho, State.paired_same h hq, State.quiesceHeld_same h hq hm]
  cases o.ownerOf .group g with
  | none => rfl
  | some k =>
    dsimp only
    cases hp : o.paired k
    · split <;> split <;> simp [hp]
    · rw [State.sheetLoaded_same h hq (State.paired_le hp)]

theorem State.carries_same (h : KeepsBut fs o n) (hq : ∀ f ∈ fs, f.Quiet) (hm : n.mld = o.mld) {g : Nat} (hg : g < 8) :
    n.carries g = o.carries g := by
  have lanes : (n.groupLanes g).all (fun l => n.get (R.LNE_LN_STAT_STATE l) = 2) =
      (o.groupLanes g).all fun l => o.get (R.LNE_LN_STAT_STATE l) = 2 := by
    rw [State.groupLanes_same h hq]
    refine all_congr_mem fun l hl => ?_
    have := List.mem_range.1 (List.mem_of_mem_filter hl)
    rw [h.get_loud hq (by simp only [RF.Loud, R.LNE_LN_STAT_STATE]; omega)]
  have muted : n.is (R.FMX_PG_STAT_MUTED g) = o.is (R.FMX_PG_STAT_MUTED g) :=
    h.is_loud hq (by simp only [RF.Loud, R.FMX_PG_STAT_MUTED]; omega)
  simp only [State.carries_eq, State.twState, h.is_loud hq (g := R.TWN_CTL_EN) (by decide),
    h.get_loud hq (g := R.TWN_STAT_STATE) (by decide), State.carrySheet_same h hq hm, muted, lanes]
  rfl

theorem State.carryMask_same (h : KeepsBut fs o n) (hq : ∀ f ∈ fs, f.Quiet) (hm : n.mld = o.mld) :
    n.carryMask = o.carryMask :=
  List.foldl_ext _ _ _ fun m g hg => by rw [State.carries_same h hq hm (List.mem_range.1 hg)]

theorem State.followed_quiet (h : KeepsBut fs o n) (hq : ∀ f ∈ fs, f.Quiet) (hm : n.mld = o.mld) : o.followed n = n :=
  State.followed_same
    (fun l hl => h.get_loud hq (by simp only [RF.Loud, R.LNE_LN_STAT_FS_CAUSE]; omega)) (State.carryMask_same h hq hm)

theorem State.sheetQuiesced_same (h : KeepsBut fs o n) (hq : ∀ f ∈ fs, f.Quiet) (hm : n.mld = o.mld) (hl : n.ldg = o.ldg) :
    ∀ k ∈ [0, 9, 10, 11], n.sheetQuiesced k = o.sheetQuiesced k := by
  have qstat := h.get_loud hq (g := R.MLD_QSTAT_QUIESCED) (by decide)
  have sheets : ((List.range 8).all fun k => !n.sheetLoaded (k + 1) || !n.takesFrames (k + 1) ||
        bit (n.get R.MLD_QSTAT_QUIESCED) (k + 1)) = (List.range 8).all fun k => !o.sheetLoaded (k + 1) ||
        !o.takesFrames (k + 1) || bit (o.get R.MLD_QSTAT_QUIESCED) (k + 1) :=
    all_congr_mem fun k hk => by
      rw [State.sheetLoaded_same h hq (List.mem_range.1 hk), State.takesFrames, State.takesFrames, hm, qstat]
  simp only [List.forall_mem_cons, State.sheetQuiesced, State.sealOn, sheets, hl, List.not_mem_nil, IsEmpty.forall_iff,
    implies_true, h.get_loud hq (g := R.MLD_STAT_STATE) (by decide), h.get_loud hq (g := R.TSU_TD_STAT_STATE 0) (by decide),
    h.get_loud hq (g := R.TSU_TD_STAT_STATE 1) (by decide), h.get_loud hq (g := R.WCH_STAT_STATE) (by decide),
    h.is_loud hq (g := R.LDG_CTL) (by decide), h.get_loud hq (g := R.MLD_QUIESCE) (by decide), and_self]

/-- A command on lanes whose effect changes quiet fields alone leaves the settled state: nothing follows. -/
theorem Does.of_quiet {c : Instr} {s : State} {P : State → Prop} {reach : List Part} {ok : Prop} {_ : Decidable ok} {t : Nat}
    {f : State → State} (he : exec c s = laneUnit reach ok t s f) (hok : ok) (hq : ∀ f ∈ fs, f.Quiet)
    (hk : KeepsBut fs s (f (s.at t))) (hm : (f (s.at t)).mld = s.mld) (hl : (f (s.at t)).ldg = s.ldg)
    (hp : P (s.settle reach (s.at t).tb (f (s.at t)))) : Does c s P := by
  refine .of_act (he.trans (laneUnit_pos hok ..)) fun _ => ?_
  have settled : ∀ k ∈ [0, 9, 10, 11], (s.settle reach (s.at t).tb (f (s.at t))).sheetQuiesced k = s.sheetQuiesced k := by
    refine State.sheetQuiesced_same (KeepsBut.settle _ _ hk) hq ?_ ?_
    · unfold State.settle State.confine; dsimp only; rw [hm, ite_self]
    · unfold State.settle State.confine; dsimp only; rw [hl, ite_self]
  rw [State.followed_quiet (o := s.at t) hk hq hm, State.finish, State.follow_same _ settled, ite_self]
  exact hp

end Quiet

/-! ### A word stored in a register of one access code -/

/-- The low bit of what two numbers share. -/
theorem and_mod_two (x y : Nat) : y % 2 = 0 ∧ (x &&& y) % 2 = 0 ∨ y % 2 = 1 ∧ (x &&& y) % 2 = x % 2 := by
  have e := Nat.and_mod_two_pow (a := x) (b := y) (n := 1)
  rcases Nat.mod_two_eq_zero_or_one y with h | h <;> simp_all

/-- Taking away the bits two numbers share clears them. -/
theorem testBit_sub_and (x y i : Nat) : (x - (x &&& y)).testBit i = (x.testBit i && !y.testBit i) := by
  have low := and_mod_two x y
  have le : x &&& y ≤ x := Nat.and_le_left
  induction i generalizing x y with
  | zero =>
    rw [Bool.eq_iff_iff]
    simp only [Nat.testBit_zero, Bool.and_eq_true, decide_eq_true_eq, Bool.not_eq_true', decide_eq_false_iff_not]
    omega
  | succ i ih =>
    have e : (x - (x &&& y)) / 2 = x / 2 - (x / 2 &&& y / 2) := by rw [← Nat.and_div_two]; omega
    rw [Nat.testBit_succ, Nat.testBit_succ, Nat.testBit_succ, e]
    exact ih _ _ (and_mod_two ..) Nat.and_le_left

/-- The word at `a` holds a register whose fields all have the code `c`, and they lie in the bits `m` of that word. -/
def codeAt (a : Nat) (c : Acc) (m : Nat) : Bool :=
  match findReg a with
  | some h => h.desc.fields.all (·.acc = c) && h.mask (fun _ => true) = m
  | none => false

/-- Of such a register the codes asked for select all its bits or none. -/
theorem RegHit.mask_code {h : RegHit} {c : Acc} {m : Nat} (hc : h.desc.fields.all (·.acc = c) = true)
    (hm : h.mask (fun _ => true) = m) (p : Acc → Bool) : h.mask p = if p c then m else 0 := by
  have code : ∀ f ∈ h.desc.fields, f.acc = c := by simpa using hc
  cases hp : p c
  · exact foldl_same _ fun f hf => if_neg (by rw [code f hf, hp]; decide)
  · exact (List.foldl_ext _ _ _ fun m f hf => by simp only [code f hf, hp]).trans hm

section Stored
variable {s : State} {a v m : Nat} {c : Acc} {mld : Bool}

theorem codeAt_iff : codeAt a c m = true ↔
    ∃ h, findReg a = some h ∧ h.desc.fields.all (·.acc = c) = true ∧ h.mask (fun _ => true) = m := by
  unfold codeAt
  cases findReg a with
  | none => simp
  | some h => simp

/-- Outside the engines' blocks an access reaches the word it names. -/
theorem State.regAt_self (h : a / 0x10000 ≠ 0x400A) : s.regAt a = a := by
  have : unitIn a 0x400A0000 8 0x2000 = none := by
    unfold unitIn
    rw [if_neg]
    simp only [Bool.and_eq_true, decide_eq_true_eq]
    omega
  simp only [State.regAt, this]

/-- An access of `a` reaches the word there, which holds every value stored in it. -/
structure Plain (a : Nat) : Prop where
  own : a / 0x10000 ≠ 0x400A
  free : ∀ (s : State) (old v : Nat), s.admitted a old v = v
  set : a ≠ R.PIN_GPIO_OUT_CLR.addr

theorem Plain.regAt (h : Plain a) (s : State) : s.regAt a = a := State.regAt_self h.own

/-- A reserved offset ignores what is written (R8). -/
theorem State.storeWord_reserved (ha : a / 0x10000 ≠ 0x400A) (hf : findReg a = none) : s.storeWord a v mld = (s, true) := by
  unfold State.storeWord
  dsimp only
  rw [State.regAt_self ha, hf]

/-- What storing a word comes to, by the one code of the register's fields. -/
theorem State.storeWord_code (hp : Plain a) (hc : codeAt a c m = true) :
    let takes := s.fieldTakes a mld c
    let old := s.word a
    let clear := v &&& if c = .w1c then m else 0
    let new := old - (old &&& if takes then m else 0) ||| v &&& if takes then m else 0
    let stored := s.setWord a (new - (new &&& (clear - (clear &&& s.marked a))))
    s.storeWord a v mld =
      if (c = .rwq || c = .rws) && !takes && m ≠ 0 then (stored, false) else (stored.regEffect a old v, true) := by
  obtain ⟨h, hf, code, full⟩ := codeAt_iff.1 hc
  unfold State.storeWord
  dsimp only
  rw [hp.regAt, hf]
  dsimp only
  rw [if_neg hp.set, hp.free]
  simp only [RegHit.mask_code code full]
  generalize s.fieldTakes a mld c = takes
  cases c <;> cases takes <;> by_cases h0 : m = 0 <;> simp [h0]

/-- The bits of a word that a register of one code takes from what is written. -/
theorem State.storeWord_takes (hp : Plain a) (hc : codeAt a c m = true) (ht : s.fieldTakes a mld c = true) :
    s.storeWord a v mld =
      ((s.setWord a (s.word a - (s.word a &&& m) ||| v &&& m)).regEffect a (s.word a) v, true) := by
  have w1c : c ≠ .w1c := by rintro rfl; cases ht
  simp [State.storeWord_code hp hc, ht, w1c]

/-- A register that takes the write only under its owner's quiesce or the seal answers an error without it. -/
theorem State.storeWord_refused (hp : Plain a) (hc : codeAt a c m = true) (h0 : m ≠ 0) (hq : c = .rwq ∨ c = .rws)
    (ht : s.fieldTakes a mld c = false) : s.storeWord a v mld = (s.setWord a (s.word a), false) := by
  rw [State.storeWord_code hp hc]
  rcases hq with rfl | rfl <;> simp [ht, h0]

/-- A register of another code than RW, RWS, RWQ and W1C stores nothing. -/
theorem State.storeWord_ignored (hp : Plain a) (hc : codeAt a c m = true) (hq : c = .ro ∨ c = .wo ∨ c = .w1s) :
    s.storeWord a v mld = ((s.setWord a (s.word a)).regEffect a (s.word a) v, true) := by
  rw [State.storeWord_code hp hc]
  rcases hq with rfl | rfl | rfl <;> simp [State.fieldTakes]

/-- A W1C register loses the bits written 1, but for those hardware sets in the same cycle (R10). -/
theorem State.storeWord_w1c (hp : Plain a) (hc : codeAt a .w1c m = true) : s.storeWord a v mld =
    ((s.setWord a (s.word a - (s.word a &&& (v &&& m) - (v &&& m &&& s.marked a)))).regEffect a (s.word a) v, true) := by
  simp [State.storeWord_code hp hc, State.fieldTakes]

end Stored

/-! ### A register write where no journal and no command takes part -/

section Written
variable {s : State} {who a v m : Nat} {c : Acc} {fs : List RF}

/-- An access of `a` reaches the registers as they stand: its block is none that is brought up to date first. -/
abbrev Still (a : Nat) : Prop :=
  a / 0x10000 ≠ 0x400D ∧ a / 0x10000 ≠ 0x400E ∧ a / 0x10000 ≠ 0x400F ∧ a / 0x10000 ≠ 0x4016 ∧ a / 0x10000 ≠ 0x4017

theorem State.freshFor_still (h : Still a) : s.freshFor a = s := by
  simp [State.freshFor, h]

/-- Outside a pair no journal takes part. -/
theorem State.wordWrite_alone (he : s.is R.TWN_CTL_EN = false) (hf : s.freshFor a = s) :
    s.wordWrite who a v = s.plainWrite a v := by
  unfold State.wordWrite
  simp only [hf, State.twFollows, he, Bool.false_and, Bool.or_self, Bool.not_false, Bool.or_true, if_true, Bool.and_false,
    Bool.false_eq_true, if_false]
  split <;> rfl

theorem State.wordWrite_unjournaled (hf : s.freshFor a = s) (hg : findUnit 8 a R.PWM_PG_CTL = none)
    (hj : s.journaled a = false) : s.wordWrite who a v = s.plainWrite a v := by
  unfold State.wordWrite
  simp [hf, hg, hj]

/-- The registers of these blocks that are no commands. -/
theorem State.cmdWrite_none (h : a / 0x10000 = 0x4000 ∨ a / 0x10000 = 0x400C ∨ a / 0x10000 = 0x4013 ∨
    a / 0x10000 = 0x4014 ∧ a % 0x10000 ≠ 0x10 ∧ a % 0x10000 ≠ 0x404 ∧ findUnit 4 a R.LDG_RP_CMD = none) :
    s.cmdWrite a v = none := by
  unfold State.cmdWrite
  rcases h with h | h | h | ⟨h, h1, h2, h3⟩
  · simp [h]
  · simp [h]
  · simp [h]
  · simp [h, h1, h2, h3]

theorem State.plainWrite_store (h0 : 0x40000200 ≤ a) (hw : a / 0x10000 = 0x4013 → wchWritable a = true)
    (hc : s.okResp.cmdWrite a v = none) : s.plainWrite a v =
      if (s.storeWord a v false).2 then (s.storeWord a v false).1.okResp else (s.storeWord a v false).1.errResp := by
  unfold State.plainWrite
  rw [if_neg (Nat.not_lt.2 h0), if_neg (by simpa using hw), hc]

theorem Plain.of_block (h : a / 0x10000 = 0x400C ∨ a / 0x10000 = 0x4013 ∧ a % 0x10000 ≠ 0x28 ∨
    a / 0x10000 = 0x4014 ∧ a % 0x10000 ≠ 0x10) : Plain a where
  own := by omega
  free s old v := by
    unfold State.admitted
    rcases h with h | ⟨h, h1⟩ | ⟨h, h1⟩
    · simp [h]
    · simp [h, h1]
    · simp [h, h1]
  set := by
    rintro rfl
    simp [R.PIN_GPIO_OUT_CLR] at h

theorem State.regEffect_ldg {old : Nat} (h : a / 0x10000 = 0x4014) : s.regEffect a old v = s := by
  simp [State.regEffect, h]

/-- A field that is a whole word reads as the word. -/
theorem State.get_word {f : RF} (h0 : f.lsb = 0) (hw : f.width = 32) : s.get f = s.word f.addr := by
  unfold State.get regGet
  rw [if_pos (by omega), bits, h0, hw, Nat.shiftRight_zero]
  exact Nat.mod_eq_of_lt (s.word_lt _)

theorem State.get_setWord {f : RF} (h0 : f.lsb = 0) (hw : f.width = 32) (x : Nat) :
    (s.setWord f.addr (x % 2 ^ 32)).get f = x % 2 ^ 32 := by
  rw [State.get_word h0 hw, State.word_setWord_same, Nat.mod_mod]

theorem KeepsBut.setWord {f : RF} (h0 : f.lsb = 0) (hw : f.width = 32) (x : Nat) : KeepsBut [f] s (s.setWord f.addr x) := by
  intro b j hj hc
  have hb : b ≠ f.addr := by
    rintro rfl
    refine hc f (List.mem_singleton_self f) ?_
    simp only [RF.covers]
    omega
  rw [State.word_setWord_ne s x hb]

/-- A word written back as it stands. -/
theorem KeepsBut.setWord_same : KeepsBut fs s (s.setWord a (s.word a)) := by
  intro b j _ _
  by_cases hb : b = a
  · rw [hb, State.word_setWord_same, Nat.mod_eq_of_lt (s.word_lt a)]
  · rw [State.word_setWord_ne s _ hb]

theorem partOf_mem_all (a : Nat) : partOf a ∈ Part.all := by
  unfold partOf
  split <;> decide

theorem State.get_settle_all {n : State} {tb : Nat} (f : RF) : (s.settle Part.all tb n).get f = n.get f :=
  State.settle_get_in (partOf_mem_all _) (.inr (partOf_mem_all _))

theorem State.registerWrite_word (hr : isReg a = true) (h4 : a % 4 = 0) :
    s.registerWrite who a 4 v = s.wordWrite who a (v % 2 ^ 32) := by
  simp [State.registerWrite, hr, regAccessOk, h4]

/-- A word written to a register no more than quiet fields of which change. -/
theorem Does.of_write {t : Nat} {n : State} {P : State → Prop} (hr : isReg a = true) (h4 : a % 4 = 0) (hw : who < 48)
    (hn : (s.at t).wordWrite who a (v % 2 ^ 32) = n) (hq : ∀ f ∈ fs, f.Quiet) (hk : KeepsBut fs s n) (hm : n.mld = s.mld)
    (hl : n.ldg = s.ldg) (hp : ∀ s', s'.resp = n.resp → (∀ f, s'.get f = n.get f) → (∀ b, s'.byte b = n.byte b) →
      KeepsBut fs s s' → P s') : Does (.registerWrite t who a 4 v) s P := by
  have he : (s.at t).registerWrite who a 4 v = n := (State.registerWrite_word hr h4).trans hn
  refine .of_quiet (.refl (execRegisterWrite t who a 4 v s)) hw hq (he ▸ hk) (he ▸ hm) (he ▸ hl) ?_
  rw [he]
  exact hp _ (State.settle_resp_in (by decide)) State.get_settle_all (State.settle_byte_in (by decide))
    (KeepsBut.settle _ _ hk)

/-- The same outside a pair, where no journal takes part. -/
theorem Does.of_plainWrite {t : Nat} {n : State} {P : State → Prop} (hr : isReg a = true ∧ a % 4 = 0) (hw : who < 48)
    (he : s.is R.TWN_CTL_EN = false) (hf : Still a) (hn : (s.at t).plainWrite a (v % 2 ^ 32) = n) (hq : ∀ f ∈ fs, f.Quiet)
    (hk : KeepsBut fs s n) (hm : n.mld = s.mld) (hl : n.ldg = s.ldg)
    (hp : ∀ s', s'.resp = n.resp → (∀ f, s'.get f = n.get f) → KeepsBut fs s s' → P s') :
    Does (.registerWrite t who a 4 v) s P :=
  .of_write hr.1 hr.2 hw ((State.wordWrite_alone (s := s.at t) he (State.freshFor_still hf)).trans hn) hq hk hm hl
    fun s' h1 h2 _ h3 => hp s' h1 h2 h3

end Written

/-! ### One register of each access code -/

/-- The registers the statements write, with their code and the bits of their fields. -/
theorem codeAt_ldgIntStat : codeAt R.LDG_INT_STAT.addr .w1c 31 = true := by decide
theorem codeAt_ldgFailpos : codeAt R.LDG_FAILPOS.addr .ro (2 ^ 32 - 1) = true := by decide
theorem codeAt_wchSreq : codeAt R.WCH_SREQ.addr .w1s 15 = true := by decide
theorem codeAt_ldgPostData : ∀ w < 10, codeAt (R.LDG_POST_DATA w).addr .rw (2 ^ 32 - 1) = true := by decide
theorem codeAt_wchPswin (w : Nat) (h : w < 256) : codeAt (R.WCH_PSWIN w).addr .rws (2 ^ 32 - 1) = true := by
  have rows : ∀ i < 16, ∀ j < 16, codeAt (R.WCH_PSWIN (16 * i + j)).addr .rws (2 ^ 32 - 1) = true := by decide
  simpa only [Nat.div_add_mod] using rows (w / 16) (by omega) (w % 16) (by omega)
theorem codeAt_phtGain : ∀ p < 4, codeAt (R.PHT_PT_GAIN p).addr .rwq (2 ^ 32 - 1) = true := by decide

section Codes
variable {o : State} {a v w p who : Nat}

/-- A word that takes all its bits is what was written. -/
theorem take_word (x v : Nat) (h : x < 2 ^ 32) : x - (x &&& 2 ^ 32 - 1) ||| v &&& 2 ^ 32 - 1 = v % 2 ^ 32 := by
  rw [Nat.and_two_pow_sub_one_eq_mod, Nat.and_two_pow_sub_one_eq_mod, Nat.mod_eq_of_lt h, Nat.sub_self, Nat.zero_or]

/-- The words of LDG_POST_DATA are quiet registers and no commands. -/
theorem postData_free : ∀ w < 10, let a := (R.LDG_POST_DATA w).addr
    (isReg a = true ∧ a % 4 = 0) ∧ (R.LDG_POST_DATA w).Quiet ∧ a / 0x10000 = 0x4014 ∧ a % 0x10000 ≠ 0x10 ∧
    a % 0x10000 ≠ 0x404 ∧ findUnit 4 a R.LDG_RP_CMD = none ∧ findUnit 8 a R.PWM_PG_CTL = none := by decide

theorem State.journaled_postData (hw : w < 10) : o.journaled (R.LDG_POST_DATA w).addr = false := by
  have none : ∀ w < 10, let a := (R.LDG_POST_DATA w).addr
      findUnit 8 a R.CE_SWAP = none ∧ findUnit 8 a R.CE_STAGE_ADDR = none ∧ findUnit 8 a R.CE_STAGE_DATA = none ∧
      a ≠ R.PWM_GLOAD.addr ∧ findUnit 8 (wordBase a) R.PWM_PG_PERIOD_SH = none ∧ findUnit 8 a R.PWM_PG_LOADALL = none ∧
      findUnit 32 a (fun i => R.PWM_PG_TRG (i / 4) (i % 4)) = none ∧ findUnit 48 (wordBase a) R.PWM_CH_DUTY_SH = none ∧
      findUnit 8 a R.FMX_PG_CLR = none ∧ findUnit 12 a R.LNE_LN_DSCLR = none := by decide
  obtain ⟨h1, h2, h3, h4, h5, h6, h7, h8, h9, h10⟩ := none w hw
  unfold State.journaled
  dsimp only
  rw [h1, h2, h3, h5, h6, h7, h8, h9, h10, decide_eq_false h4]
  rfl

theorem State.plainWrite_postData (hw : w < 10) :
    o.plainWrite (R.LDG_POST_DATA w).addr v = (o.setWord (R.LDG_POST_DATA w).addr (v % 2 ^ 32)).okResp := by
  obtain ⟨-, -, hb, h1, h2, h3, -⟩ := postData_free w hw
  rw [State.plainWrite_store (by simp only [R.LDG_POST_DATA]; omega) (fun h => by omega)
    (State.cmdWrite_none (.inr (.inr (.inr ⟨hb, h1, h2, h3⟩)))),
    State.storeWord_takes (.of_block (.inr (.inr ⟨hb, h1⟩))) (codeAt_ldgPostData w hw) rfl,
    State.regEffect_ldg hb, take_word _ _ (o.word_lt _), if_pos rfl]

theorem State.plainWrite_ldgFailpos : o.plainWrite R.LDG_FAILPOS.addr v =
    (o.setWord R.LDG_FAILPOS.addr (o.word R.LDG_FAILPOS.addr)).okResp := by
  rw [State.plainWrite_store (by decide) (by decide) (State.cmdWrite_none (by decide)),
    State.storeWord_ignored (.of_block (by decide)) codeAt_ldgFailpos (.inl rfl), State.regEffect_ldg (by decide), if_pos rfl]

theorem State.plainWrite_ldgIntStat : o.plainWrite R.LDG_INT_STAT.addr v =
    (o.setWord R.LDG_INT_STAT.addr (o.word R.LDG_INT_STAT.addr - (o.word R.LDG_INT_STAT.addr &&&
      (v &&& 31) - (v &&& 31 &&& o.marked R.LDG_INT_STAT.addr)))).okResp := by
  rw [State.plainWrite_store (by decide) (by decide) (State.cmdWrite_none (by decide)),
    State.storeWord_w1c (.of_block (by decide)) codeAt_ldgIntStat, State.regEffect_ldg (by decide), if_pos rfl]

theorem State.plainWrite_wchSreq : o.plainWrite R.WCH_SREQ.addr v =
    ((o.setWord R.WCH_SREQ.addr (o.word R.WCH_SREQ.addr)).orr R.WCH_SREQ (v % 16)).okResp := by
  rw [State.plainWrite_store (by decide) (by decide) (State.cmdWrite_none (by decide)),
    State.storeWord_ignored (.of_block (by decide)) codeAt_wchSreq (.inr (.inr rfl)), if_pos rfl]
  rfl

theorem wchWritable_pswin (hw : w < 256) : wchWritable (R.WCH_PSWIN w).addr = true := by
  have : 0x40131000 ≤ (R.WCH_PSWIN w).addr ∧ (R.WCH_PSWIN w).addr < 0x40131400 := by simp only [R.WCH_PSWIN]; omega
  simp [wchWritable, this]

theorem isReg_wchPswin (hw : w < 256) : isReg (R.WCH_PSWIN w).addr = true ∧ (R.WCH_PSWIN w).addr % 4 = 0 := by
  have : (R.WCH_PSWIN w).addr = 0x40131000 + w * 4 := rfl
  simp [isReg, this]
  omega

theorem quiet_wchPswin (hw : w < 256) : (R.WCH_PSWIN w).Quiet := by
  simp only [RF.Quiet, R.WCH_PSWIN, R.WCH_STAT_STATE]
  omega

theorem State.regEffect_wchPswin {old : Nat} (hw : w < 256) (hs : o.sealOn = true) :
    o.regEffect (R.WCH_PSWIN w).addr old v = o.upIsle fun i => { i with checked := false } := by
  have hb : (R.WCH_PSWIN w).addr / 0x10000 = 0x4013 := by simp only [R.WCH_PSWIN]; omega
  have offset : 0x1000 ≤ (R.WCH_PSWIN w).addr % 0x10000 ∧ (R.WCH_PSWIN w).addr % 0x10000 < 0x1400 := by
    simp only [R.WCH_PSWIN]; omega
  simp only [State.regEffect, hb]
  unfold State.wchEffect
  split
  · omega
  · omega
  · rw [if_pos (by simpa [hs] using offset)]

/-- The words of WCH_PSWIN are written under the seal and make the check of the parameter set void. -/
theorem State.plainWrite_wchPswin (hw : w < 256) (hs : o.sealOn = true) : o.plainWrite (R.WCH_PSWIN w).addr v =
    ((o.setWord (R.WCH_PSWIN w).addr (v % 2 ^ 32)).upIsle fun i => { i with checked := false }).okResp := by
  have hb : (R.WCH_PSWIN w).addr / 0x10000 = 0x4013 := by simp only [R.WCH_PSWIN]; omega
  have stays : (o.setWord (R.WCH_PSWIN w).addr (v % 2 ^ 32)).sealOn = true := by
    rw [State.sealOn, (KeepsBut.setWord (f := R.WCH_PSWIN w) rfl rfl _).get_loud (by simpa using quiet_wchPswin hw)
      (by decide)]
    exact hs
  rw [State.plainWrite_store (by simp only [R.WCH_PSWIN]; omega) (fun _ => wchWritable_pswin hw)
      (State.cmdWrite_none (.inr (.inr (.inl hb)))),
    State.storeWord_takes (.of_block (.inr (.inl ⟨hb, by simp only [R.WCH_PSWIN]; omega⟩))) (codeAt_wchPswin w hw) hs,
    take_word _ _ (o.word_lt _), State.regEffect_wchPswin hw (hs := stays), if_pos rfl]

theorem State.plainWrite_wchPswin_unsealed (hw : w < 256) (hs : o.sealOn = false) : o.plainWrite (R.WCH_PSWIN w).addr v =
    (o.setWord (R.WCH_PSWIN w).addr (o.word (R.WCH_PSWIN w).addr)).errResp := by
  have hb : (R.WCH_PSWIN w).addr / 0x10000 = 0x4013 := by simp only [R.WCH_PSWIN]; omega
  rw [State.plainWrite_store (by simp only [R.WCH_PSWIN]; omega) (fun _ => wchWritable_pswin hw)
      (State.cmdWrite_none (.inr (.inr (.inl hb)))),
    State.storeWord_refused (.of_block (.inr (.inl ⟨hb, by simp only [R.WCH_PSWIN]; omega⟩))) (codeAt_wchPswin w hw)
      (by decide) (.inr rfl) hs]
  rfl

theorem State.plainWrite_reserved : o.plainWrite 0x40000A00 v = o.okResp := by
  have none : findReg 0x40000A00 = none := by decide
  rw [State.plainWrite_store (by decide) (by decide) (State.cmdWrite_none (by decide)),
    State.storeWord_reserved (by decide) none, if_pos rfl]

theorem State.plainWrite_pwrCmd (hv : v % 32 = 0) : o.plainWrite R.PWR_CMD_WARM.addr v = o.okResp := by
  have hb : ∀ i < 5, bit v i = false := by
    intro i hi
    have := Nat.testBit_mod_two_pow v 5 i
    simpa [hv, hi, bit] using this
  have h : o.okResp.pwrCmd v = o.okResp := by
    simp only [State.pwrCmd, hb 0 (by decide), hb 1 (by decide), hb 2 (by decide), hb 3 (by decide), hb 4 (by decide)]
    rfl
  unfold State.plainWrite
  simp [State.cmdWrite, R.PWR_CMD_WARM, h]

theorem isReg_phtGain : ∀ p < 4, isReg (R.PHT_PT_GAIN p).addr = true ∧ (R.PHT_PT_GAIN p).addr % 4 = 0 := by decide

theorem quiet_phtGain (hp : p < 4) : (R.PHT_PT_GAIN p).Quiet := by
  simp only [RF.Quiet, R.PHT_PT_GAIN]
  omega

theorem State.sheetFor_phtGain (hp : p < 4) : o.sheetFor (R.PHT_PT_GAIN p).addr = o.ownerOf .tracker p := by
  have unit : ∀ p < 4, unitIn (R.PHT_PT_GAIN p).addr 0x400A0000 8 0x2000 = none ∧
      resourceOf (R.PHT_PT_GAIN p).addr = some (.tracker, p) := by decide
  obtain ⟨h1, h2⟩ := unit p hp
  rw [State.sheetFor, h1, h2]

/-- A tracker's gain takes effect without a new configuration. -/
theorem State.regEffect_phtGain {old : Nat} (hp : p < 4) : o.regEffect (R.PHT_PT_GAIN p).addr old v = o := by
  have offset : ∀ p < 4, let a := (R.PHT_PT_GAIN p).addr
      a / 0x10000 = 0x400C ∧ ¬ a % 0x10000 < 8 ∧ unitIn (a % 0x10000) 0x100 4 0x80 = some p ∧ a % 0x10000 % 0x80 ≠ 0 := by
    decide
  obtain ⟨h1, h2, h3, h4⟩ := offset p hp
  simp only [State.regEffect, h1, State.phtEffect, if_neg h2, h3, if_pos h4]

theorem State.plainWrite_phtGain (hp : p < 4) (hq : ∀ n, o.ownerOf .tracker p = some n → o.sheetQuiesced n = true) :
    o.plainWrite (R.PHT_PT_GAIN p).addr v = (o.setWord (R.PHT_PT_GAIN p).addr (v % 2 ^ 32)).okResp := by
  have hb : (R.PHT_PT_GAIN p).addr / 0x10000 = 0x400C := by simp only [R.PHT_PT_GAIN]; omega
  have ht : o.fieldTakes (R.PHT_PT_GAIN p).addr false .rwq = true := by
    rw [State.fieldTakes, State.sheetFor_phtGain hp]
    cases ho : o.ownerOf .tracker p with
    | none => rfl
    | some n => exact hq n ho
  rw [State.plainWrite_store (by simp only [R.PHT_PT_GAIN]; omega) (fun h => by omega) (State.cmdWrite_none (.inr (.inl hb))),
    State.storeWord_takes (.of_block (.inl hb)) (codeAt_phtGain p hp) ht, take_word _ _ (o.word_lt _),
    State.regEffect_phtGain hp, if_pos rfl]

theorem State.plainWrite_phtGain_owned {n : Nat} (hp : p < 4) (ho : o.ownerOf .tracker p = some n)
    (hq : o.sheetQuiesced n = false) : o.plainWrite (R.PHT_PT_GAIN p).addr v =
      (o.setWord (R.PHT_PT_GAIN p).addr (o.word (R.PHT_PT_GAIN p).addr)).errResp := by
  have hb : (R.PHT_PT_GAIN p).addr / 0x10000 = 0x400C := by simp only [R.PHT_PT_GAIN]; omega
  have ht : o.fieldTakes (R.PHT_PT_GAIN p).addr false .rwq = false := by
    rw [State.fieldTakes, State.sheetFor_phtGain hp, ho]
    exact hq
  rw [State.plainWrite_store (by simp only [R.PHT_PT_GAIN]; omega) (fun h => by omega) (State.cmdWrite_none (.inr (.inl hb))),
    State.storeWord_refused (.of_block (.inl hb)) (codeAt_phtGain p hp) (by decide) (.inl rfl) ht]
  rfl

end Codes

/-! ### A read of a word that is no command, no mirror and no pair -/

section Reads
variable {o s : State} {a who t : Nat}

/-- PWR_CMD and the reserved word read as they stand. -/
theorem State.readWord_plain (ha : a = R.PWR_CMD_WARM.addr ∨ a = 0x40000A00) : o.readWord a = o.word a := by
  have plain : a / 0x10000 ≠ 0x400A ∧ ¬ (0x40000000 ≤ a && a < 0x400001F0) = true ∧ a ≠ R.PWM_TB.addr ∧
      a ≠ R.PWM_TB.addr + 4 ∧
      a ≠ R.PWR_OPSEC.addr ∧ a ≠ R.PWR_OPSEC.addr + 4 ∧ a ≠ R.MLD_QSTAT.addr ∧
      ¬ (a = R.PWM_HOLD0.addr || a = R.PWM_HOLD1.addr) = true ∧ a ≠ R.LNE_INT_SUM.addr ∧
      ¬ (a = R.PIN_GPIO_OUT_SET.addr || a = R.PIN_GPIO_OUT_CLR.addr) = true ∧ a ≠ R.PIN_STATUS.addr ∧
      ¬ (0x40100120 ≤ a && a < 0x40100260 && a % 64 = 0x20) = true ∧ a ≠ R.PHT_OUT_STAT.addr := by
    rcases ha with rfl | rfl <;> decide
  have units : findUnit 8 a R.IRQ_ASSERT = none ∧ findUnit 4 a R.PHT_PT_ANGLE = none ∧
      findUnit 16 (wordBase a) R.TSU_TT_START = none ∧ findUnit 8 a R.CE_PEEK_DATA = none := by
    rcases ha with rfl | rfl <;> decide
  obtain ⟨h0, h1, h2, h3, h4, h5, h6, h7, h8, h9, h10, h11, h12⟩ := plain
  obtain ⟨u1, u2, u3, u4⟩ := units
  unfold State.readWord
  dsimp only
  rw [State.regAt_self h0, if_neg h1, if_neg h2, if_neg h3, if_neg h4, if_neg h5, if_neg h6, if_neg h7, if_neg h8, if_neg h9,
    if_neg h10, if_neg h11, if_neg h12, u1, u2, u3, u4]

theorem State.wordRead_plain (ha : a = R.PWR_CMD_WARM.addr ∨ a = 0x40000A00)
    (hh : ∀ h ∈ o.holding, ¬ (h.who = who ∧ h.addr = a)) : o.wordRead who a = o.dataResp (o.word a) := by
  have plain : Still a ∧ unitIn a 0x400F0100 12 0x100 = none ∧ a ≠ R.PIN_UART_RX.addr := by
    rcases ha with rfl | rfl <;> decide
  have units : findUnit 256 a R.SCR_TAP_VAL = none ∧ findUnit 16 a (fun i => R.ADC_SNAP_DATA (i / 4) (i % 4)) = none ∧
      findUnit 4 a R.IRQ_C_CLAIM = none := by
    rcases ha with rfl | rfl <;> decide
  have single : (findReg a).all (fun h => h.desc.words ≠ 2) = true := by
    rcases ha with rfl | rfl <;> decide
  have free : o.holding.find? (fun h => h.who = who && h.addr = a) = none :=
    List.find?_eq_none.2 fun h hm => by simpa using hh h hm
  obtain ⟨fresh, lane, uart⟩ := plain
  obtain ⟨u1, u2, u3⟩ := units
  unfold State.wordRead
  dsimp only
  rw [State.freshFor_still fresh, State.laneRead, lane]
  dsimp only
  rw [free]
  dsimp only
  rw [u1, u2, u3, if_neg uart, State.readWord_plain ha]
  cases hf : findReg a with
  | none => rfl
  | some h =>
    have : h.desc.words ≠ 2 := by simpa [hf] using single
    simp [this]

/-- A read of one of these words changes nothing but the answer. -/
theorem Does.of_plainRead (hw : who < 48) (ha : a = R.PWR_CMD_WARM.addr ∨ a = 0x40000A00) (h0 : s.word a = 0)
    (hh : ∀ h ∈ s.holding, ¬ (h.who = who ∧ h.addr = a)) :
    Does (.lowWordReadCapture t who a 4) s fun s' => s'.resp = {} ∧ KeepsBut [] s s' := by
  have hr : isReg a = true ∧ a % 4 = 0 := by rcases ha with rfl | rfl <;> decide
  have he : (s.at t).registerRead who a 4 = (s.at t).dataResp 0 := by
    have read : (s.at t).wordRead who a = (s.at t).dataResp ((s.at t).word a) := State.wordRead_plain ha hh
    rw [show (s.at t).word a = 0 from h0] at read
    simpa [State.registerRead, hr.1, regAccessOk, hr.2] using read
  have hk : KeepsBut [] s ((s.at t).dataResp 0) := KeepsBut.refl _ _
  refine .of_quiet (.refl (execLowWordReadCapture t who a 4 s)) hw (by simp) (he ▸ hk) (he ▸ rfl) (he ▸ rfl) ?_
  rw [he]
  exact ⟨State.settle_resp_in (by decide), KeepsBut.settle _ _ hk⟩

end Reads

section Codes
variable {s : State} {t who v : Nat}

/-- A bit of LDG_INT_STAT after a write: cleared where a 1 is written, but for what hardware sets in the same cycle. -/
theorem State.get_intStat_bit {o n : State} {i : Nat} (hi : i < 5) (hn : n.word R.LDG_INT_STAT.addr =
      o.word R.LDG_INT_STAT.addr - (o.word R.LDG_INT_STAT.addr &&& (v % 2 ^ 32 &&& 31) -
        (v % 2 ^ 32 &&& 31 &&& o.marked R.LDG_INT_STAT.addr))) :
    n.get ⟨R.LDG_INT_STAT.addr, i, 1⟩ =
      if bit v i && !bit (o.marked R.LDG_INT_STAT.addr) i then 0 else o.get ⟨R.LDG_INT_STAT.addr, i, 1⟩ := by
  have h31 : Nat.testBit 31 i = true := by
    rw [show 31 = 2 ^ 5 - 1 by rfl, Nat.testBit_two_pow_sub_one]; simpa using hi
  have h32 : i < 32 := by omega
  have one (x : State) : x.get ⟨R.LDG_INT_STAT.addr, i, 1⟩ = ((x.word R.LDG_INT_STAT.addr).testBit i).toNat := by
    rw [State.get, regGet, if_pos (by dsimp only; omega), bits, Nat.toNat_testBit, Nat.shiftRight_eq_div_pow, Nat.pow_one]
    rfl
  rw [one, one, hn, testBit_sub_and, testBit_sub_and]
  simp only [Nat.testBit_and, Nat.testBit_mod_two_pow, h31, decide_eq_true h32, bit]
  by_cases hv : v.testBit i = true <;> by_cases hm : (o.marked R.LDG_INT_STAT.addr).testBit i = true <;> simp [hv, hm]

end Codes

/-! ### The registers written -/

section Writes
variable {s : State} {t who v : Nat}

theorem Does.write_ldgIntStat (hw : who < 48) (he : s.is R.TWN_CTL_EN = false) :
    Does (.registerWrite t who R.LDG_INT_STAT.addr 4 v) s fun s' => s'.resp.err = false ∧
      (∀ i < 5, s'.get ⟨R.LDG_INT_STAT.addr, i, 1⟩ =
        if bit v i && !bit ((s.at t).marked R.LDG_INT_STAT.addr) i then 0 else s.get ⟨R.LDG_INT_STAT.addr, i, 1⟩) ∧
      KeepsBut [R.LDG_INT_STAT] s s' := by
  refine .of_plainWrite (by decide) hw he (by decide) State.plainWrite_ldgIntStat (List.forall_mem_singleton.2 (by decide))
    (KeepsBut.setWord (f := R.LDG_INT_STAT) rfl rfl _) rfl rfl fun s' hr hg hk => ?_
  refine ⟨by rw [hr]; rfl, fun i hi => ?_, hk⟩
  rw [hg]
  refine State.get_intStat_bit (o := s.at t) hi ?_
  exact (State.word_setWord_same ..).trans (Nat.mod_eq_of_lt ((Nat.sub_le ..).trans_lt (State.word_lt ..)))

theorem Does.write_postData (hw : who < 48) {w : Nat} (h : w < 10) :
    Does (.registerWrite t who (R.LDG_POST_DATA w).addr 4 v) s fun s' => s'.resp.err = false ∧
      s'.get (R.LDG_POST_DATA w) = v % 2 ^ 32 ∧ KeepsBut [R.LDG_POST_DATA w] s s' ∧ ∀ b, s'.byte b = s.byte b := by
  obtain ⟨⟨hr, h4⟩, hq, hb, -, -, -, hg⟩ := postData_free w h
  refine .of_write hr h4 hw
    ((State.wordWrite_unjournaled (s := s.at t) (State.freshFor_still (by simp only [Still]; omega)) hg
      (State.journaled_postData h)).trans
    (State.plainWrite_postData h)) (List.forall_mem_singleton.2 hq)
    (KeepsBut.setWord (f := R.LDG_POST_DATA w) rfl rfl _) rfl rfl
    fun s' hr hg hb hk => ⟨by rw [hr]; rfl, ?_, hk, hb⟩
  rw [hg]
  exact (State.get_setWord rfl rfl _).trans (Nat.mod_mod ..)

theorem Does.write_wchSreq (hw : who < 48) (he : s.is R.TWN_CTL_EN = false) :
    Does (.registerWrite t who R.WCH_SREQ.addr 4 v) s fun s' => s'.resp.err = false ∧ KeepsBut [R.WCH_SREQ] s s' ∧
      ∀ k, k < 4 → bit (s'.get R.WCH_SREQ) k = (bit (s.get R.WCH_SREQ) k || bit v k) := by
  refine .of_plainWrite (by decide) hw he (by decide) State.plainWrite_wchSreq (List.forall_mem_singleton.2 (by decide))
    (KeepsBut.put KeepsBut.setWord_same _ _ (by decide) (by simp)) rfl rfl
    fun s' hr hg hk => ⟨by rw [hr]; rfl, hk, fun k h => ?_⟩
  have same : ((s.at t).setWord R.WCH_SREQ.addr ((s.at t).word R.WCH_SREQ.addr)).get R.WCH_SREQ = s.get R.WCH_SREQ :=
    (KeepsBut.setWord_same (fs := [])).get _ (by decide) (by simp)
  have new : s'.get R.WCH_SREQ = (s.get R.WCH_SREQ ||| v % 2 ^ 32 % 16) % 2 ^ 4 := by
    rw [hg, ← same]
    exact State.get_put_same _ R.WCH_SREQ _ (by decide)
  have low : v % 2 ^ 32 % 16 = v % 2 ^ 4 := by omega
  simp only [new, low, bit, Nat.testBit_mod_two_pow, Nat.testBit_or, decide_eq_true h, Bool.true_and]

theorem Does.write_pwrCmd (hw : who < 48) (he : s.is R.TWN_CTL_EN = false) (hv : v % 32 = 0) :
    Does (.registerWrite t who R.PWR_CMD_WARM.addr 4 v) s fun s' => s'.resp.err = false ∧ KeepsBut [] s s' :=
  .of_plainWrite (by decide) hw he (by decide) (State.plainWrite_pwrCmd (by omega)) (by simp) (KeepsBut.refl _ s) rfl rfl
    fun _ hr _ hk => ⟨by rw [hr]; rfl, hk⟩

theorem Does.write_ldgFailpos (hw : who < 48) (he : s.is R.TWN_CTL_EN = false) :
    Does (.registerWrite t who R.LDG_FAILPOS.addr 4 v) s fun s' => s'.resp.err = false ∧ KeepsBut [] s s' :=
  .of_plainWrite (by decide) hw he (by decide) State.plainWrite_ldgFailpos (by simp) KeepsBut.setWord_same rfl rfl
    fun _ hr _ hk => ⟨by rw [hr]; rfl, hk⟩

theorem Does.write_reserved (hw : who < 48) (he : s.is R.TWN_CTL_EN = false) :
    Does (.registerWrite t who 0x40000A00 4 v) s fun s' => s'.resp.err = false ∧ KeepsBut [] s s' :=
  .of_plainWrite (by decide) hw he (by decide) State.plainWrite_reserved (by simp) (KeepsBut.refl _ s) rfl rfl
    fun _ hr _ hk => ⟨by rw [hr]; rfl, hk⟩

theorem Does.write_wchPswin_unsealed (hw : who < 48) (he : s.is R.TWN_CTL_EN = false) {w : Nat} (h : w < 256)
    (hs : s.sealOn = false) :
    Does (.registerWrite t who (R.WCH_PSWIN w).addr 4 v) s fun s' => s'.resp.err = true ∧ KeepsBut [] s s' :=
  .of_plainWrite (isReg_wchPswin h) hw he (by simp only [Still, R.WCH_PSWIN]; omega)
    (State.plainWrite_wchPswin_unsealed (o := s.at t) h hs) (by simp) KeepsBut.setWord_same rfl rfl
    fun _ hr _ hk => ⟨by rw [hr]; rfl, hk⟩

theorem Does.write_wchPswin (hw : who < 48) (he : s.is R.TWN_CTL_EN = false) {w : Nat} (h : w < 256) (hs : s.sealOn = true) :
    Does (.registerWrite t who (R.WCH_PSWIN w).addr 4 v) s fun s' => s'.resp.err = false ∧
      s'.get (R.WCH_PSWIN w) = v % 2 ^ 32 ∧ KeepsBut [R.WCH_PSWIN w] s s' := by
  refine .of_plainWrite (isReg_wchPswin h) hw he (by simp only [Still, R.WCH_PSWIN]; omega)
    (State.plainWrite_wchPswin (o := s.at t) h hs) (List.forall_mem_singleton.2 (quiet_wchPswin h))
    (KeepsBut.setWord (f := R.WCH_PSWIN w) rfl rfl _) rfl rfl fun s' hr hg hk => ⟨by rw [hr]; rfl, ?_, hk⟩
  rw [hg]
  exact (State.get_setWord rfl rfl _).trans (Nat.mod_mod ..)

theorem Does.write_phtGain_owned (hw : who < 48) (he : s.is R.TWN_CTL_EN = false) {p n : Nat} (h : p < 4)
    (ho : s.ownerOf .tracker p = some n) (hs : s.sheetQuiesced n = false) :
    Does (.registerWrite t who (R.PHT_PT_GAIN p).addr 4 v) s fun s' => s'.resp.err = true ∧ KeepsBut [] s s' :=
  .of_plainWrite (isReg_phtGain _ h) hw he (by simp only [Still, R.PHT_PT_GAIN]; omega)
    (State.plainWrite_phtGain_owned (o := s.at t) h ho hs) (by simp) KeepsBut.setWord_same rfl rfl
    fun _ hr _ hk => ⟨by rw [hr]; rfl, hk⟩

theorem Does.write_phtGain (hw : who < 48) (he : s.is R.TWN_CTL_EN = false) {p : Nat} (h : p < 4)
    (hs : ∀ n, s.ownerOf .tracker p = some n → s.sheetQuiesced n = true) :
    Does (.registerWrite t who (R.PHT_PT_GAIN p).addr 4 v) s fun s' => s'.resp.err = false ∧
      s'.get (R.PHT_PT_GAIN p) = v % 2 ^ 32 ∧ KeepsBut [R.PHT_PT_GAIN p] s s' := by
  refine .of_plainWrite (isReg_phtGain _ h) hw he (by simp only [Still, R.PHT_PT_GAIN]; omega)
    (State.plainWrite_phtGain (o := s.at t) h hs) (List.forall_mem_singleton.2 (quiet_phtGain h))
    (KeepsBut.setWord (f := R.PHT_PT_GAIN p) rfl rfl _) rfl rfl fun s' hr hg hk => ⟨by rw [hr]; rfl, ?_, hk⟩
  rw [hg]
  exact (State.get_setWord rfl rfl _).trans (Nat.mod_mod ..)

end Writes

/-! ### Accesses that fit and that do not -/

section Accesses
variable {o s : State} {a who size t v : Nat} {c : Instr} {reach : List Part} {f : State → State}

/-- The accesses of the register space that fit (R11). -/
theorem regAccessOk_iff : regAccessOk who a size = true ↔ size = 4 ∧ a % 4 = 0 ∨
    size = 8 ∧ a % 8 = 0 ∧ who < 4 ∧ ((findReg a).map fun h => (h.desc.words, h.word)) = some (2, 0) := by
  unfold regAccessOk
  cases findReg a <;> simp [and_assoc]

theorem SameOutside.of_errResp (tb : Nat) : SameOutside [.bus] s (s.settle reach tb (s.at t).errResp) := by
  have word (b : Nat) : (s.settle reach tb (s.at t).errResp).word b = s.word b := by
    by_cases hb : partOf b ∈ reach
    · exact State.settle_word_in hb
    · exact State.settle_word_out hb
  constructor
  case word => exact fun b _ _ => word b
  case qchg => exact fun _ => .inl (word _)
  case byte =>
    intro _ b
    by_cases hm : .mem ∈ reach
    · exact State.settle_byte_in hm b
    · exact State.settle_byte_out hm b
  case bus => exact fun h => absurd (List.mem_singleton_self _) h
  all_goals intro _; simp [State.settle, State.confine, State.at, State.errResp]

/-- An access refused changes nothing but the answer. -/
theorem Does.of_refused {ok : Prop} {_ : Decidable ok} (he : exec c s = laneUnit reach ok t s f) (hok : ok)
    (hf : f (s.at t) = (s.at t).errResp) (hb : .bus ∈ reach) :
    Does c s fun s' => s'.resp.err = true ∧ KeepsBut [] s s' ∧ SameOutside [.bus] s s' := by
  have hk : KeepsBut [] s (s.at t).errResp := KeepsBut.refl _ _
  refine .of_quiet he hok (by simp) (hf ▸ hk) (hf ▸ rfl) (hf ▸ rfl) ?_
  rw [hf]
  exact ⟨by rw [State.settle_resp_in hb]; rfl, KeepsBut.settle _ _ hk, .of_errResp _⟩

/-- A word read is answered with its data, whatever the register. -/
theorem State.wordRead_err : (o.wordRead who a).resp.err = false := by
  unfold State.wordRead
  dsimp only
  split
  · rfl
  split
  · unfold State.tapRead
    split <;> rfl
  split
  · rfl
  split
  · rfl
  split
  · rfl
  split
  · split <;> rfl
  · rfl

theorem State.registerRead_err (hr : isReg a = true) (hok : regAccessOk who a size = true) :
    (o.registerRead who a size).resp.err = false := by
  unfold State.registerRead
  rw [if_neg (by simp [hr]), if_neg (by simp [hok])]
  split
  · exact State.wordRead_err
  · rfl

/-- What follows a command on lanes leaves the answer to an access. -/
theorem State.followed_resp : (s.followed o).resp = o.resp :=
  have beside : (s.followed o).besides = o.besides := State.Beside.followed (o := o) (s := o) rfl
  (congrArg State.resp beside :)

theorem Does.of_read (hw : who < 48) (hr : isReg a = true) (hok : regAccessOk who a size = true) :
    Does (.lowWordReadCapture t who a size) s fun s' => s'.resp.err = false := by
  refine .of_act ((Eq.refl (execLowWordReadCapture t who a size s)).trans (laneUnit_pos hw ..)) fun _ => ?_
  rw [State.finish_resp, State.settle_resp_in (by decide), State.followed_resp]
  exact State.registerRead_err hr hok

end Accesses

end Sys2Proof.Machine

open Sys2Proof Sys2Proof.Machine

/-- Settles O9: in each of these registers the word stored follows from its one access code, and nothing else follows. -/
theorem fieldsTakeWritesByTheirAccessCode : Obligations.FieldsTakeWritesByTheirAccessCode := by
  intro t who v s hw he
  refine ⟨(Does.write_ldgIntStat hw he).mono fun s' ⟨hr, hi, hk⟩ => ⟨hr, hi 0 (by decide), hi 1 (by decide),
      hi 2 (by decide), hi 3 (by decide), hi 4 (by decide), hk⟩,
    fun w h => (Does.write_postData hw h).mono fun s' ⟨hr, hg, hk, _⟩ => ⟨hr, hg, hk⟩,
    Does.write_wchSreq hw he, Does.write_pwrCmd hw he, Does.of_plainRead hw (.inl rfl), Does.write_ldgFailpos hw he,
    fun w h => ⟨Does.write_wchPswin_unsealed hw he h, Does.write_wchPswin hw he h⟩,
    fun p h => ⟨Does.write_phtGain hw he h, fun n => Does.write_phtGain_owned hw he h⟩,
    Does.write_reserved hw he, Does.of_plainRead hw (.inr rfl)⟩

/-- Settles O7: an access that does not fit is answered before anything else is done. -/
theorem accessesThatDoNotFitAreRefused : Obligations.AccessesThatDoNotFitAreRefused := by
  intro t who a size v s hw hr fits
  refine ⟨fun hn => ?_, fun hf => .of_read hw hr (regAccessOk_iff.2 hf), ?_⟩
  · have refused : ¬ regAccessOk who a size = true := mt regAccessOk_iff.1 hn
    exact ⟨.of_refused (.refl (execRegisterWrite t who a size v s)) hw
        (by simp [State.registerWrite, hr, refused]) (by decide),
      .of_refused (.refl (execLowWordReadCapture t who a size s)) hw (by simp [State.registerRead, hr, refused]) (by decide)⟩
  · rintro w h rfl rfl
    exact Does.write_postData hw h

end

section
/-!
The device keeps its form: memory stays canonical and every list of units keeps its length, whatever a command does.
-/

namespace Sys2Proof.Machine

/-! ### How many of each unit a state holds -/

def Net.dims (n : Net) : List Nat :=
  [n.egress.length, n.fwd.length, n.rx.length, n.free.length, n.sent.length, n.tx.length]
def Island.dims (i : Island) : List Nat :=
  [i.pairs.length, i.outs.length, i.conns.length, i.txs.length, i.sinSince.length]
def Twin.dims (t : Twin) : List Nat := [t.runOk.length, t.muteAt.length, t.downAt.length]
def Ledger.dims (l : Ledger) : List Nat := [l.w.length, l.floor.length]

/-- The lengths that `State.Shaped` fixes. -/
def State.dims (s : State) : List (List Nat) :=
  [[s.adcs.length, s.chains.length, s.engs.length, s.groups.length, s.chans.length, s.lanes.length, s.trks.length,
    s.fltPins.length, s.doms.length, s.trigs.length, s.pdelays.length],
   s.net.dims, s.isle.dims, s.twn.dims, s.ldg.dims, [s.clk.dly.length, s.hlt.tests.length, s.pwr.cells.length]]

/-- What every command keeps: memory in its canonical form, and the lengths of a state after reset. -/
def State.Form (s : State) : Prop := Memory.wf s.mem = true ∧ s.dims = State.reset.dims

theorem State.dims_eq_iff (s : State) : s.dims = State.reset.dims ↔ s.Shaped := by
  simp only [State.dims, Net.dims, Island.dims, Twin.dims, Ledger.dims, State.reset, List.cons.injEq, List.length_replicate,
    List.length_cons, List.length_nil, and_true, and_assoc]
  constructor
  · intro h; constructor <;> simp only [h, and_self]
  · rintro ⟨h1, h2, h3, h4, h5, h6⟩; simp only [h1, h2, h3, h4, h5, h6, and_self]

theorem State.form_iff (s : State) : s.Form ↔ Memory.wf s.mem = true ∧ s.Shaped := by
  rw [State.Form, State.dims_eq_iff]

/-! ### What changes no length and no byte -/

variable {s t : State}

@[simp] theorem length_upd {α : Type} (l : List α) (i : Nat) (f : α → α) : (upd l i f).length = l.length :=
  List.length_modify ..

theorem State.Form.ite {c : Prop} {_ : Decidable c} (h : s.Form) (h' : t.Form) : (if c then s else t).Form := by
  split <;> assumption

theorem State.Form.foldl {α : Type} {f : State → α → State} {l : List α} (h : s.Form)
    (hf : ∀ s a, s.Form → (f s a).Form) : (l.foldl f s).Form := by
  induction l generalizing s with
  | nil => exact h
  | cons a l ih => exact ih (hf _ _ h)

/-- A state with the bytes and the lengths of one in form. -/
theorem State.Form.of_eq (h : s.Form) (hm : t.mem = s.mem) (hd : t.dims = s.dims) : t.Form :=
  ⟨hm ▸ h.1, hd.trans h.2⟩
theorem State.Form.put {f : RF} {v : Nat} (h : s.Form) : (s.put f v).Form := h
theorem State.Form.mark {f : RF} {m : Nat} (h : s.Form) : (s.mark f m).Form := h
theorem State.Form.set1 {f : RF} (h : s.Form) : (s.set1 f).Form := h
theorem State.Form.clr {f : RF} (h : s.Form) : (s.clr f).Form := h
theorem State.Form.orr {f : RF} {m : Nat} (h : s.Form) : (s.orr f m).Form := h
theorem State.Form.andn {f : RF} {m : Nat} (h : s.Form) : (s.andn f m).Form := h
theorem State.Form.bump {f : RF} {n : Nat} (h : s.Form) : (s.bump f n).Form := h
theorem State.Form.bumpWrap {f : RF} {n : Nat} (h : s.Form) : (s.bumpWrap f n).Form := h

theorem State.Form.upChan {k : Nat} {f : Chan → Chan} (h : s.Form) : (s.upChan k f).Form := by
  refine h.of_eq rfl ?_; simp [State.dims, State.upChan]
theorem State.Form.upGroup {g : Nat} {f : PwmGroup → PwmGroup} (h : s.Form) : (s.upGroup g f).Form := by
  refine h.of_eq rfl ?_; simp [State.dims, State.upGroup]
theorem State.Form.upLane {l : Nat} {f : Lane → Lane} (h : s.Form) : (s.upLane l f).Form := by
  refine h.of_eq rfl ?_; simp [State.dims, State.upLane]
theorem State.Form.upEng {n : Nat} {f : Engine → Engine} (h : s.Form) : (s.upEng n f).Form := by
  refine h.of_eq rfl ?_; simp [State.dims, State.upEng]
theorem State.Form.upAdc {a : Nat} {f : AdcGroup → AdcGroup} (h : s.Form) : (s.upAdc a f).Form := by
  refine h.of_eq rfl ?_; simp [State.dims, State.upAdc]
theorem State.Form.upChain {i : Nat} {f : Chain → Chain} (h : s.Form) : (s.upChain i f).Form := by
  refine h.of_eq rfl ?_; simp [State.dims, State.upChain]
theorem State.Form.upTrk {p : Nat} {f : Tracker → Tracker} (h : s.Form) : (s.upTrk p f).Form := by
  refine h.of_eq rfl ?_; simp [State.dims, State.upTrk]
theorem State.Form.upTrig {k : Nat} {f : Trigger → Trigger} (h : s.Form) : (s.upTrig k f).Form := by
  refine h.of_eq rfl ?_; simp [State.dims, State.upTrig]
theorem State.Form.upDom {d : Nat} {f : Domain → Domain} (h : s.Form) : (s.upDom d f).Form := by
  refine h.of_eq rfl ?_; simp [State.dims, State.upDom]
theorem State.Form.upPdelay {p : Nat} {f : Pdelay → Pdelay} (h : s.Form) : (s.upPdelay p f).Form := by
  refine h.of_eq rfl ?_; simp [State.dims, State.upPdelay]
theorem State.Form.upNet {f : Net → Net} (h : s.Form) (hf : (f s.net).dims = s.net.dims) : (s.upNet f).Form := by
  refine h.of_eq rfl ?_; simp [State.dims, State.upNet, hf]
theorem State.Form.upTwn {f : Twin → Twin} (h : s.Form) (hf : (f s.twn).dims = s.twn.dims) : (s.upTwn f).Form := by
  refine h.of_eq rfl ?_; simp [State.dims, State.upTwn, hf]
theorem State.Form.upIsle {f : Island → Island} (h : s.Form) (hf : (f s.isle).dims = s.isle.dims) : (s.upIsle f).Form := by
  refine h.of_eq rfl ?_; simp [State.dims, State.upIsle, hf]
theorem State.Form.upIsle_ite {b : Bool} {f g : Island → Island} (h : s.Form)
    (hf : (f s.isle).dims = s.isle.dims)
    (hg : (g s.isle).dims = s.isle.dims) :
    (s.upIsle fun i => if b then f i else g i).Form := by cases b <;> exact h.upIsle ‹_›
theorem State.Form.upHlt {f : HltState → HltState} (h : s.Form) (hf : (f s.hlt).tests.length = s.hlt.tests.length) :
    (s.upHlt f).Form := by
  refine h.of_eq rfl ?_; simp [State.dims, State.upHlt, hf]
theorem State.Form.upPwr {f : Power → Power} (h : s.Form) (hf : (f s.pwr).cells.length = s.pwr.cells.length) :
    (s.upPwr f).Form := by
  refine h.of_eq rfl ?_; simp [State.dims, State.upPwr, hf]

/-! ### One field replaced -/

theorem State.Form.with_tb {x : Nat} (h : s.Form) : ({ s with tb := x } : State).Form := h
theorem State.Form.with_regs {x : List (Nat × Word)} (h : s.Form) : ({ s with regs := x } : State).Form := h
theorem State.Form.with_resp {x : Resp} (h : s.Form) : ({ s with resp := x } : State).Form := h
theorem State.Form.with_holding {x : List Holding} (h : s.Form) : ({ s with holding := x } : State).Form := h
theorem State.Form.with_drawn {x : Nat} (h : s.Form) : ({ s with drawn := x } : State).Form := h
theorem State.Form.with_rows {x : List RowErr} (h : s.Form) : ({ s with rows := x } : State).Form := h
theorem State.Form.with_mld {x : Loader} (h : s.Form) : ({ s with mld := x } : State).Form := h
theorem State.Form.with_scr {x : Screen} (h : s.Form) : ({ s with scr := x } : State).Form := h
theorem State.Form.with_move {x : Option Move} (h : s.Form) : ({ s with move := x } : State).Form := h
theorem State.Form.with_quad {x : Quad} (h : s.Form) : ({ s with quad := x } : State).Form := h
theorem State.Form.with_mst {x : MemState} (h : s.Form) : ({ s with mst := x } : State).Form := h
theorem State.Form.with_pins {x : Pins} (h : s.Form) : ({ s with pins := x } : State).Form := h
theorem State.Form.with_adcs {x : List AdcGroup} (h : s.Form) (hd : x.length = s.adcs.length) :
    ({ s with adcs := x } : State).Form := h.of_eq rfl (by simp [State.dims, hd])
theorem State.Form.with_fltPins {x : List FltPin} (h : s.Form) (hd : x.length = s.fltPins.length) :
    ({ s with fltPins := x } : State).Form := h.of_eq rfl (by simp [State.dims, hd])
theorem State.Form.with_net {x : Net} (h : s.Form) (hd : x.dims = s.net.dims) :
    ({ s with net := x } : State).Form := by
  refine h.of_eq rfl ?_; simp [State.dims, hd]
theorem State.Form.with_twn {x : Twin} (h : s.Form) (hd : x.dims = s.twn.dims) :
    ({ s with twn := x } : State).Form := by
  refine h.of_eq rfl ?_; simp [State.dims, hd]
theorem State.Form.with_ldg {x : Ledger} (h : s.Form) (hd : x.dims = s.ldg.dims) :
    ({ s with ldg := x } : State).Form := by
  refine h.of_eq rfl ?_; simp [State.dims, hd]
theorem State.Form.with_clk {x : Clock} (h : s.Form) (hd : x.dly.length = s.clk.dly.length) :
    ({ s with clk := x } : State).Form := by
  refine h.of_eq rfl ?_; simp [State.dims, hd]
theorem State.Form.with_hlt {x : HltState} (h : s.Form) (hd : x.tests.length = s.hlt.tests.length) :
    ({ s with hlt := x } : State).Form := by
  refine h.of_eq rfl ?_; simp [State.dims, hd]
theorem State.Form.with_pwr {x : Power} (h : s.Form) (hd : x.cells.length = s.pwr.cells.length) :
    ({ s with pwr := x } : State).Form := by
  refine h.of_eq rfl ?_; simp [State.dims, hd]

/-! ### Memory -/

theorem State.Form.setByte {a : Nat} {b : Byte} (h : s.Form) : (s.setByte a b).Form := ⟨State.wf_setByte a b h.1, h.2⟩
theorem State.Form.writeBytes {a : Nat} {bs : List Byte} (h : s.Form) : (s.writeBytes a bs).Form := by
  induction bs generalizing s a with
  | nil => exact h
  | cons b bs ih => exact ih h.setByte
theorem State.Form.writeLe {a n v : Nat} (h : s.Form) : (s.writeLe a n v).Form := h.writeBytes
theorem State.Form.fillZero {a n : Nat} (h : s.Form) : (s.fillZero a n).Form := ⟨State.wf_fillZero a n h.1, h.2⟩

/-- The first component of a choice between pairs. -/
theorem State.Form.ite_fst {β : Type} {p q : State × β} {c : Prop} {_ : Decidable c} (h : p.1.Form) (h' : q.1.Form) :
    (if c then p else q).1.Form := by split <;> assumption

/-- The state a step answers beside something else. -/
theorem State.Form.of_fst {β : Type} {p : State × β} {b : β} (h : p.1.Form) (e : p = (t, b)) : t.Form := by
  subst e; exact h
theorem State.Form.foldl_fst {α β : Type} {f : State × β → α → State × β} {l : List α} {p : State × β} (h : p.1.Form)
    (hf : ∀ p a, p.1.Form → (f p a).1.Form) : (l.foldl f p).1.Form := by
  induction l generalizing p with
  | nil => exact h
  | cons a l ih => exact ih (hf _ _ h)
theorem State.Form.shaped (h : s.Form) : s.Shaped := (s.form_iff.1 h).2

theorem State.Form.isle_dims (h : s.Form) : s.isle.dims = [4, 4, 8, 8, 8] := congrArg (·.getD 2 []) h.2
theorem State.Form.ldg_dims (h : s.Form) : s.ldg.dims = [4, 4] := congrArg (·.getD 4 []) h.2
theorem State.Form.clk_dly (h : s.Form) : s.clk.dly.length = 5 := h.shaped.rest.2.2.1

theorem State.Form.net_dims (h : s.Form) : s.net.dims = [5, 5, 5, 5, 5, 2] := congrArg (·.getD 1 []) h.2
theorem State.Form.twn_dims (h : s.Form) : s.twn.dims = [8, 8, 2] := congrArg (·.getD 3 []) h.2

/-! ### Machine/Ops -/

theorem State.Form.at {t : Nat} (h : s.Form) : (s.at t).Form := h
theorem State.Form.setWord {addr v : Nat} (h : s.Form) : (s.setWord addr v).Form := h.with_regs
theorem State.Form.setAt {f : RF} {x : Nat} (h : s.Form) : (s.setAt f x).Form := .ite h.set1 h.put
theorem State.Form.opsecNow (h : s.Form) : s.opsecNow.Form := .ite h (h.with_pwr rfl)
theorem State.Form.follow {o : State} (h : s.Form) : (o.follow s).Form := .ite h h.set1
theorem State.Form.okResp (h : s.Form) : s.okResp.Form := h.with_resp
theorem State.Form.errResp (h : s.Form) : s.errResp.Form := h.with_resp
theorem State.Form.dataResp {v : Nat} (h : s.Form) : (s.dataResp v).Form := h.with_resp

/-! ### Machine/Own -/

theorem State.Form.setQuiesced {sheet : Nat} {v : Bool} (h : s.Form) : (s.setQuiesced sheet v).Form :=
  .ite h h.put.set1
theorem State.Form.bankViol {code addr : Nat} {write : Bool} (h : s.Form) : (s.bankViol code addr write).Form :=
  h.put.put.put.bump.set1
theorem State.Form.traceTrigger {n : Nat} (h : s.Form) : (s.traceTrigger n).Form := .ite h h.put.put.set1.upEng

/-! ### Machine/Lanes -/

theorem State.Form.seqPut {ch v : Nat} (h : s.Form) : (s.seqPut ch v).Form := h.put
theorem State.Form.showMute {l : Nat} (h : s.Form) : (s.showMute l).Form := h.put.put
theorem State.Form.mute {l why : Nat} (h : s.Form) : (s.mute l why).Form := h.upLane.showMute
theorem State.Form.unmute {l why : Nat} (h : s.Form) : (s.unmute l why).Form := h.upLane.showMute
theorem State.Form.setLevel {ch : Nat} {v : Bool} {t : Nat} (h : s.Form) : (s.setLevel ch v t).Form :=
  .ite (.put (.ite (.ite h.upChan h) h.upChan)) (.put (.ite (.ite h.upChan h) h.upChan))
theorem State.Form.runEdge {ch : Nat} (h : s.Form) : (s.runEdge ch).Form := by
  unfold State.runEdge
  split
  exacts [h, h.upChan.setLevel]
theorem State.Form.runEdges {ch t : Nat} (h : s.Form) : (s.runEdges ch t).Form := .foldl h (fun _ _ hx => hx.runEdge)

/-! ### Machine/Waves -/

theorem State.Form.dropEdge {ch : Nat} {e : Edge} {late : Bool} (h : s.Form) : (s.dropEdge ch e late).Form :=
  .upLane (.ite h.bump.set1.put.set1 h.bump.set1.put)
theorem State.Form.queueEdge {ch : Nat} {e : Edge} (h : s.Form) : (s.queueEdge ch e).Form :=
  .ite h (.ite h.upChan h.dropEdge)
theorem State.Form.buildLane {g l : Nat} {p : Period} {x cut : Nat} (h : s.Form) : (s.buildLane g l p x cut).Form :=
  .foldl (.upGroup (.foldl h (fun _ _ hx => hx.upChan))) (fun _ _ hx => hx.queueEdge)
theorem State.Form.addPeriod {g : Nat} {p : Period} (h : s.Form) : (s.addPeriod g p).Form :=
  .foldl h.upGroup (fun _ _ hx => hx.buildLane)
theorem State.Form.buildAhead {g n : Nat} (h : s.Form) : (State.buildAhead g n s).Form := by
  induction n generalizing s with
  | zero => exact h
  | succ n ih =>
    unfold State.buildAhead
    split
    exacts [.ite (ih h.addPeriod) h, h]
theorem State.Form.rebuildLane {g l x : Nat} {geo : Bool} (h : s.Form) : (s.rebuildLane g l x geo).Form :=
  .foldl (.upGroup (.foldl h (fun _ _ hx => .ite hx.upChan hx))) (fun _ _ hx => .ite hx hx.buildLane)
theorem State.Form.cutPeriods {g b : Nat} (h : s.Form) : (s.cutPeriods g b).Form := by
  unfold State.cutPeriods
  split
  exacts [h, h.upGroup]
theorem State.Form.reshape {g t : Nat} (h : s.Form) : (s.reshape g t).Form :=
  .ite h (.buildAhead (.foldl h.cutPeriods (fun _ _ hx => hx.rebuildLane)))
theorem State.Form.showFinds {g : Nat} (h : s.Form) : (s.showFinds g).Form := by
  unfold State.showFinds
  refine .foldl ?_ fun _ _ h0 => ?_
  · exact h.upGroup
  · split
    exacts [h0.setAt, h0.setAt, h0.bump.setAt]

/-! ### Machine/LaneSend -/

theorem State.Form.softSlot {ch mode st : Nat} (h : s.Form) : (s.softSlot ch mode st).Form :=
  .ite h.runEdges.upChan.setLevel h.runEdges.upChan
theorem State.Form.sendFrame {l st : Nat} {bs : List Byte} {own : Bool} (h : s.Form) : (s.sendFrame l st bs own).Form :=
  h.upLane
theorem State.Form.sendCmd {l st : Nat} {a : LaneCmd} (h : s.Form) : (s.sendCmd l st a).Form := by
  unfold State.sendCmd
  split <;> exact h.sendFrame.upLane
theorem State.Form.edgeGo {l st slot : Nat} {e : Edge} (h : s.Form) : (s.edgeGo l st slot e).Form :=
  .ite h.dropEdge (.ite h.seqPut.upChan.sendFrame h.seqPut.upChan)
theorem State.Form.lineSend {l st cls : Nat} (h : s.Form) : (s.lineSend l st cls).Form := by
  unfold State.lineSend
  split
  · dsimp only
    split
    exacts [.foldl h.upLane.sendFrame (fun _ _ hz => .ite hz.softSlot hz), h]
  · dsimp only
    split
    exacts [h.upLane.edgeGo, h]
  · dsimp only
    split
    exacts [h.upLane.sendCmd, h]
  · exact h.upLane.sendFrame
theorem State.Form.lineRunN {l upto n : Nat} (h : s.Form) : (State.lineRunN l upto n s).Form := by
  induction n generalizing s with
  | zero => exact h
  | succ n ih =>
    unfold State.lineRunN; dsimp only
    split
    exacts [h, .ite (ih h.lineSend) h]
theorem State.Form.lineRun {l : Nat} (h : s.Form) : (s.lineRun l).Form := h.lineRunN.upLane
theorem State.Form.sendSoftoff {l mode mask : Nat} {first : Bool} (h : s.Form) : (s.sendSoftoff l mode mask first).Form := by
  unfold State.sendSoftoff
  extract_lets s1 _
  have h1 : s1.Form := h.lineRun
  exact .ite h h1.upLane.lineRun
theorem State.Form.queueCmd {l : Nat} {c : LaneCmd} (h : s.Form) : (s.queueCmd l c).Form :=
  .ite h h.lineRun.upLane.lineRun
theorem State.Form.queueTime {l : Nat} (h : s.Form) : (s.queueTime l).Form := .ite h h.lineRun.upLane.lineRun

/-! ### Machine/FaultMatrix -/

theorem State.Form.groupSoftoff {g a : Nat} (h : s.Form) : (s.groupSoftoff g a).Form :=
  .foldl h (fun _ _ hx => hx.sendSoftoff)
theorem State.Form.holdGroup {g : Nat} (h : s.Form) : (s.holdGroup g).Form := .foldl h (fun _ _ hx => hx.upChan)
theorem State.Form.showGroup {g : Nat} (h : s.Form) : (s.showGroup g).Form := h.put.put.put
theorem State.Form.traceAction {g : Nat} (h : s.Form) : (s.traceAction g).Form := by
  unfold State.traceAction
  split
  exacts [.ite h.traceTrigger h, h]
theorem State.Form.takeAction {g src a : Nat} (h : s.Form) : (s.takeAction g src a).Form := by
  have hs {t : State} (ht : t.Form) : ((((t.groupSoftoff g a).holdGroup g).traceAction g).showGroup g).Form :=
    ht.groupSoftoff.holdGroup.traceAction.showGroup
  unfold State.takeAction
  extract_lets _ s1
  have h1 : s1.Form := h.upGroup
  exact .ite (hs h1.upGroup.bump.set1.put.set1) (.ite (hs h1.upGroup.set1) h1.showGroup)
theorem State.Form.takeMute {g src a : Nat} (h : s.Form) : (s.takeMute g src a).Form :=
  .set1 (.foldl (.ite h.upGroup (.with_twn h.upGroup (by simp [Twin.dims]))) (fun _ _ hx => hx.mute))
theorem State.Form.actOn {g src : Nat} (h : s.Form) : (s.actOn g src).Form := .ite h (.ite h.takeMute h.takeAction)
theorem State.Form.fsAssert {src : Nat} (h : s.Form) : (s.fsAssert src).Form :=
  .ite (.ite h.orr h.orr.orr) (.foldl (.ite h.orr h.orr.orr) (fun _ _ hx => hx.actOn))
theorem State.Form.judgeGroup {g : Nat} (h : s.Form) : (s.judgeGroup g).Form := by
  unfold State.judgeGroup
  refine .foldl ?_ fun _ _ h0 => ?_
  · exact h
  · split
    exacts [.ite h0.actOn h0, h0.actOn]
theorem State.Form.blockGroup {g : Nat} (h : s.Form) : (s.blockGroup g).Form :=
  .holdGroup (.ite h.set1.set1.upGroup h.set1.set1.upGroup.groupSoftoff)
theorem State.Form.releaseGroup {g : Nat} {frozen : Bool} (h : s.Form) : (s.releaseGroup g frozen).Form :=
  .reshape (.foldl h (fun _ _ hx => hx.upChan))
theorem State.Form.dropHolds {g : Nat} {keep : Hold → Bool} (h : s.Form) : (s.dropHolds g keep).Form :=
  .ite h.upGroup.showGroup (.showGroup (.ite h.upGroup.upGroup.clr h.upGroup.upGroup.clr.releaseGroup))
theorem State.Form.fsRelease {src : Nat} (h : s.Form) : (s.fsRelease src).Form :=
  .ite h (.foldl h.andn (fun _ _ hx => hx.dropHolds))
theorem State.Form.fsSet {src : Nat} {on : Bool} (h : s.Form) : (s.fsSet src on).Form := .ite h.fsAssert h.fsRelease
theorem State.Form.fmxClear {g : Nat} (h : s.Form) : (s.fmxClear g).Form := .ite h.set1 h.dropHolds.set1
theorem State.Form.unblockGroup {g : Nat} (h : s.Form) : (s.unblockGroup g).Form :=
  .ite h.clr.clr.upGroup.releaseGroup h.clr.clr.upGroup
theorem State.Form.updBlock {g : Nat} (h : s.Form) : (s.updBlock g).Form :=
  .ite (.ite h h.blockGroup) (.ite h.unblockGroup h)
theorem State.Form.laneSource {l : Nat} (h : s.Form) : (s.laneSource l).Form :=
  .ite (.foldl h (fun _ _ hx => .ite hx.actOn hx)) h.fsSet
theorem State.Form.laneSources {o : State} (h : s.Form) : (State.laneSources o s).Form :=
  .foldl h fun _ _ hx => .ite hx hx.laneSource
theorem State.Form.partnerGone {g : Nat} (h : s.Form) : (s.partnerGone g).Form := by
  unfold State.partnerGone
  extract_lets _ s1 s2 _ s3
  have h2 : s2.Form := .clr (.foldl h fun _ _ hx => hx.unmute)
  have h3 : s3.Form := h2.with_twn (by rw [Twin.dims, List.length_set]; rfl)
  exact .ite h (.foldl h3 fun _ _ hx => hx.takeAction)
theorem State.Form.fltJudge {k : Nat} (h : s.Form) : (s.fltJudge k).Form := by
  have hp : (if s.fltPulse k (s.fltPins.getD k {}) then s.fsAssert k else s).Form := .ite h.fsAssert h
  exact .ite h.fsRelease (.ite hp (.fsSet (hp.with_fltPins List.length_set)))
theorem State.Form.fltPin {k : Nat} {level : Bool} {since : Nat} (h : s.Form) : (s.fltPin k level since).Form :=
  .fltJudge (h.with_fltPins List.length_set)

/-! ### Machine/Ledger -/

theorem State.Form.ldgCount (h : s.Form) : s.ldgCount.Form := h.put
theorem State.Form.ldgRefuse {ring : Nat} (h : s.Form) : (s.ldgRefuse ring).Form := h.bump.set1.with_ldg rfl
theorem State.Form.ldgQueue {ring typ sev block unit : Nat} {payload : List Byte} (h : s.Form) :
    (s.ldgQueue ring typ sev block unit payload).Form := by
  unfold State.ldgQueue
  extract_lets pos r
  refine .ldgCount (s := { s with ldg := _ }) ?_
  exact h.with_ldg rfl
theorem State.Form.ldgDropped (h : s.Form) : s.ldgDropped.Form := .ite h (.ldgQueue h)
theorem State.Form.ldgCleared (h : s.Form) : s.ldgCleared.Form := .foldl h (fun _ _ hx => .ite hx (.ldgQueue hx))
theorem State.Form.ldgOwn (h : s.Form) : s.ldgOwn.Form := h.ldgCleared.ldgDropped
theorem State.Form.ldgPost {ring typ sev block unit : Nat} {payload : List Byte} (h : s.Form) :
    (s.ldgPost ring typ sev block unit payload).Form :=
  .ite h.ldgQueue h.ldgRefuse.ldgDropped
theorem State.Form.ldgPostFree {ring block unit : Nat} (h : s.Form) : (s.ldgPostFree ring block unit).Form :=
  h.with_drawn.ldgPost
theorem State.Form.ldgPostType {ring typ block unit : Nat} (h : s.Form) : (s.ldgPostType ring typ block unit).Form :=
  h.with_drawn.ldgPost
theorem State.Form.hltReason {code : Nat} (h : s.Form) : (s.hltReason code).Form :=
  .ite h (.ldgPostType (.set1 (.ite h.orr.put h.orr)))
theorem State.Form.ldgHead {ring : Nat} (h : s.Form) : (s.ldgHead ring).Form := .ite h h.put.put
theorem State.Form.ldgToReserve {r : LdgRec} {rest : List LdgRec} {ok : Bool} (h : s.Form) :
    (s.ldgToReserve r rest ok).Form := by
  unfold State.ldgToReserve
  extract_lets _ _ s1 _ s2
  have h1 : s1.Form := h.with_ldg rfl
  have h2 : s2.Form := h.with_ldg rfl
  exact .ite h1.ldgCount.ldgOwn (.ite (h.with_ldg rfl) h2.ldgCount.set1.set1)
theorem State.Form.ldgProgram {ok : Bool} (h : s.Form) : (s.ldgProgram ok).Form := by
  unfold State.ldgProgram
  split
  · exact h
  · refine .ite h (.ite h.ldgToReserve (.ite ?_ ?_))
    · exact .ldgOwn (.ldgCount (.ldgHead (h.writeBytes.with_ldg (by simp [Ledger.dims]))))
    · extract_lets torn s1 _ s2 s3 _ _ _ _ _ s4
      have ht : torn.Form := h.writeBytes
      clear_value torn
      have h1 : s1.Form := ht.with_drawn
      have h3 : s3.Form := h1.set1.set1.put.set1
      have h4 : s4.Form := h3.with_drawn.with_ldg rfl
      exact .ite (h1.with_ldg rfl) h4.ldgCount.hltReason
theorem State.Form.setCursor {p pos : Nat} (h : s.Form) : (s.setCursor p pos).Form := .ite h h.put.put
theorem State.Form.fillWindow {p : Nat} {bs : List Byte} (h : s.Form) : (s.fillWindow p bs).Form :=
  .foldl h (fun _ _ hx => hx.put)
theorem State.Form.cursorCmd {p pos : Nat} (h : s.Form) : (s.cursorCmd p pos).Form := h.setCursor.set1
theorem State.Form.cursorCopy {p : Nat} (h : s.Form) : (s.cursorCopy p).Form := by
  unfold State.cursorCopy
  extract_lets _ _ _ _ s1 s2
  have h1 : s1.Form := h.clr
  have h2 : s2.Form := .ite h1.put.setCursor.set1 h1
  exact .ite h (.ite h1.clr.set1.fillWindow (.ite h2.clr.set1.fillWindow h2.set1.clr.fillWindow))
theorem State.Form.ldgGo (h : s.Form) : s.ldgGo.Form := .ite h.ldgRefuse.ldgDropped h.ldgPost
theorem State.Form.ldgClearRings {rings : Nat} (h : s.Form) : (s.ldgClearRings rings).Form :=
  .foldl h (fun _ _ hx => .ite (.set1 (.ldgCleared (.with_ldg hx (by simp [Ledger.dims])))) hx)
theorem State.Form.ldgClrWrite {v : Nat} (h : s.Form) : (s.ldgClrWrite v).Form :=
  .ite h.errResp (.okResp (.ite h.put.set1 h.put.ldgClearRings))
theorem State.Form.ldgEraseDone {ok : Bool} (h : s.Form) : (s.ldgEraseDone ok).Form := by
  obtain ⟨hw, hf, -⟩ := h.shaped.rest
  refine .ite h (.foldl (.ite (.clr (.clr ?erased)) ?erased) fun _ _ hx => hx.put.put.clr.set1.fillWindow)
  exact .set1 (.clr (.foldl (h.fillZero.with_ldg (by simp [Ledger.dims, hw, hf])) fun _ _ hx => hx.ldgHead))

/-! ### Machine/Link -/

theorem State.Form.twPlace {l x : Nat} {o : TwOut} (h : s.Form) : (s.twPlace l x o).Form := h
theorem State.Form.twRunFor {n : Nat} (h : s.Form) : (State.twRunFor n s).Form := by
  induction n generalizing s with
  | zero => exact h
  | succ n ih =>
    unfold State.twRunFor
    split
    · refine .ite h ?_
      split
      exacts [ih h.twPlace, h]
    · exact h
theorem State.Form.twRun (h : s.Form) : s.twRun.Form := h.twRunFor
theorem State.Form.twSend {m : TwMsg} (h : s.Form) : (s.twSend m).Form := .ite h (h.twRun.upTwn rfl)
theorem State.Form.twAgain {q : Nat} (h : s.Form) : (s.twAgain q).Form := by
  unfold State.twAgain
  split
  exacts [(h.twRun.upTwn rfl), h]
theorem State.Form.linkSeq {lseq : Nat} (h : s.Form) : (s.linkSeq lseq).1.Form := by
  unfold State.linkSeq; dsimp only
  split
  · exact h.upTwn rfl
  · exact .ite_fst (h.upTwn rfl) (.foldl (h.upTwn rfl) fun _ _ hx => hx.twSend)
theorem State.Form.twinFrame {ok whole : Bool} {lseq : Nat} {f : State → State} (h : s.Form)
    (hf : ∀ s : State, s.Form → (f s).Form) : (s.twinFrame ok lseq f whole).Form :=
  .ite h (.ite h.bump (.ite (hf _ h.linkSeq) h.linkSeq))

/-! ### Machine/Recipe -/

theorem State.Form.ceSet {n off v : Nat} (h : s.Form) : (s.ceSet n off v).Form := h.writeLe
theorem State.Form.stSet {n i v : Nat} (h : s.Form) : (s.stSet n i v).Form := h.ceSet

/-! ### Machine/TwinCore -/

theorem State.Form.showTimeOk (h : s.Form) : s.showTimeOk.Form := .ite h h.put.set1
theorem State.Form.showLive {n : Nat} (h : s.Form) : (s.showLive n).Form := .ite h.put h.upEng.set1.clr
theorem State.Form.showAllLive (h : s.Form) : s.showAllLive.Form := .foldl h (fun _ _ hx => hx.showLive)
theorem State.Form.engFault {n : Nat} {f : RF} (h : s.Form) : (s.engFault n f).Form :=
  h.set1.set1.showLive.fsAssert.hltReason
theorem State.Form.eccUe {addr : Nat} (h : s.Form) : (s.eccUe addr).Form := by
  unfold State.eccUe
  refine .hltReason ?_
  split
  · split
    exacts [.ite (h.bump.put.set1.with_twn rfl) h.bump.put.set1, h.bump.put.set1]
  · exact h.bump.put.set1
theorem State.Form.eccCe {addr : Nat} (h : s.Form) : (s.eccCe addr).Form := h.bump.put.set1
theorem State.Form.noteRow {r : RowErr} (h : s.Form) : (s.noteRow r).Form := h.with_rows
theorem State.Form.meetRows {p : Nat → Bool} {l : List RowErr} (h : s.Form) : (s.meetRows p l).1.Form :=
  .foldl (.foldl h fun _ _ hx => hx.noteRow) fun _ _ hx => .ite hx.eccUe hx.eccCe
theorem State.Form.healthPush (h : s.Form) : s.healthPush.Form := h.twSend
theorem State.Form.setTwState {v : Nat} (h : s.Form) : (s.setTwState v).Form :=
  .ite h h.put.set1.showAllLive.healthPush
theorem State.Form.muteAll (h : s.Form) : s.muteAll.Form := .foldl h (fun _ _ hx => hx.mute)
theorem State.Form.unmuteAll (h : s.Form) : s.unmuteAll.Form := .foldl h (fun _ _ hx => hx.unmute.unmute)
theorem State.Form.showCarry (h : s.Form) : s.showCarry.Form := .ite h h.put.healthPush
theorem State.Form.refreshPaired (h : s.Form) : s.refreshPaired.Form := by
  unfold State.refreshPaired
  split
  exacts [h.put, h]
theorem State.Form.partnerStops (h : s.Form) : s.partnerStops.Form := by
  unfold State.partnerStops
  refine .foldl ?_ fun _ _ h0 => ?_
  · exact .clr (.foldl h.clr (fun _ _ hy => hy.partnerGone))
  · refine .ite ?_ ?_
    · split
      exacts [.updBlock (.foldl h0 (fun _ _ h3 => h3.unmute)), h0]
    · exact h0
theorem State.Form.stopRuns (h : s.Form) : s.stopRuns.Form := .foldl h (fun _ _ hx => .ite hx hx.upEng.clr)
theorem State.Form.goJoining (h : s.Form) : s.goJoining.Form := by
  unfold State.goJoining
  extract_lets s1 _ s2
  have h1 : s1.Form := h.stopRuns.fsRelease.muteAll.clr.clr.showTimeOk
  have h2 : s2.Form := h1.with_twn rfl
  exact h2.setTwState.showCarry
theorem State.Form.ownTicks (h : s.Form) : s.ownTicks.Form := .foldl h (fun _ _ hx => hx.upEng)
theorem State.Form.goDegraded (h : s.Form) : s.goDegraded.Form := by
  unfold State.goDegraded
  extract_lets s1 _ s2
  have h1 : s1.Form := h.ownTicks.set1.clr.showTimeOk.unmuteAll
  have h2 : s2.Form := h1.with_twn rfl
  exact h2.setTwState.partnerStops.fsAssert.showCarry
theorem State.Form.divLose {n : Nat} (h : s.Form) : (s.divLose n).Form :=
  .with_twn h.fsAssert.bump.set1.ldgPostFree.goJoining (by simp [Twin.dims])
theorem State.Form.divWin (h : s.Form) : s.divWin.Form := h.bump.set1.goDegraded
theorem State.Form.diverge {n num idx : Nat} (h : s.Form) : (s.diverge n num idx).Form := by
  unfold State.diverge
  extract_lets s1 _ s2
  have h2 : s2.Form := h.put.put.clr.with_twn (by rw [Twin.dims, List.length_set]; rfl)
  clear_value s2
  exact .ite (.ite h2.twSend.divLose h2.twSend.divWin) (.ite h2 (h2.with_twn rfl))
theorem State.Form.compareChk {mine : Chk} {crc : Nat} (h : s.Form) : (s.compareChk mine crc).Form := by
  unfold State.compareChk
  extract_lets s1 s2
  have h1 : s1.Form := .ite h.put h
  have h2 : s2.Form := .ite h1.bump h1
  exact .ite h1.diverge (.ite (h2.with_twn (by rw [Twin.dims, List.length_set]; rfl)) h1)
theorem State.Form.checkpoint {n : Nat} {fin : optParam Bool false} (h : s.Form) : (s.checkpoint n fin).Form := by
  unfold State.checkpoint
  split
  · exact h
  · refine .ite h ?_
    refine .ite h.upEng.twSend ?_
    split
    · exact .compareChk (.with_twn h.upEng.twSend (by simp [Twin.dims]))
    · exact .with_twn h.upEng.twSend (by simp [Twin.dims])
theorem State.Form.followed {o : State} (h : s.Form) : (o.followed s).Form :=
  .ite h.laneSources h.laneSources.showCarry

/-! ### Machine/Pwm -/

theorem State.Form.crossPut {g : Nat} {load : Option (Nat × List (Nat × Nat))} (h : s.Form) : (s.crossPut g load).Form :=
  h.upGroup
theorem State.Form.crossed {g upto : Nat} (h : s.Form) : (s.crossed g upto).Form :=
  .ite (.foldl h.upGroup (fun _ _ hx => hx.setAt)) h.upGroup
theorem State.Form.upToDate (h : s.Form) : s.upToDate.Form :=
  .foldl (.foldl h (fun _ _ hx => hx.crossed.showFinds)) (fun _ _ hx => hx.lineRun)
theorem State.Form.freshWaves {g : Nat} (h : s.Form) : (s.freshWaves g).Form := .foldl h (fun _ _ hx => hx.upChan)
theorem State.Form.startPeriods {g : Nat} {p : Period} (h : s.Form) : (s.startPeriods g p).Form :=
  h.freshWaves.upGroup.addPeriod.buildAhead
theorem State.Form.activePeriod {g v : Nat} (h : s.Form) : (s.activePeriod g v).Form := .put (.ite h.set1 h)
theorem State.Form.stopPeriods {g : Nat} (h : s.Form) : (s.stopPeriods g).Form :=
  .clr (.clr (.freshWaves (.upGroup (.ite h.activePeriod h))))
theorem State.Form.settleLanes (h : s.Form) : s.settleLanes.Form := .foldl h (fun _ _ hx => hx.laneSource)
theorem State.Form.groupFollow {g e : Nat} (h : s.Form) : (s.groupFollow g e).Form := by
  unfold State.groupFollow
  extract_lets s1 _ _ s2
  have h1 : s1.Form := h.stopPeriods.upGroup
  have h2 : s2.Form := .ite h1 h1.startPeriods
  exact .ite (.ite h.updBlock h2.updBlock) h.stopPeriods.upGroup.updBlock
theorem State.Form.groupEnable {g : Nat} (h : s.Form) : (s.groupEnable g).Form := by
  unfold State.groupEnable
  split
  exacts [.ite h.upGroup.groupFollow h, h]
theorem State.Form.trgRange {g : Nat} {p : Period} (h : s.Form) : (s.trgRange g p).Form := .ite h.set1 h
theorem State.Form.cutAtAnchor {g x a : Nat} (h : s.Form) : (s.cutAtAnchor g x a).Form := by
  unfold State.cutAtAnchor
  extract_lets _ _ _ s1 s2 s3 s4
  have h1 : s1.Form := h.cutPeriods
  have h2 : s2.Form := .ite h1.upGroup h1
  have h3 : s3.Form := .ite h2.trgRange h2
  have h4 : s4.Form := .foldl h3 (fun _ _ hy => hy.rebuildLane)
  exact h4.buildAhead
theorem State.Form.pwmFiring {g x : Nat} (h : s.Form) : (s.pwmFiring g x).Form := by
  unfold State.pwmFiring
  extract_lets _ _ _ _ s1 s2 _ s3 _ _
  have h1 : s1.Form := .ite h h.upGroup
  have h2 : s2.Form := .ite h1.set1 h1
  have h3 : s3.Form := h2.upGroup
  exact .ite h (.ite h3.startPeriods h3.cutAtAnchor)
theorem State.Form.muteEnd {g : Nat} (h : s.Form) : (s.muteEnd g).Form :=
  .ite (.with_twn (.clr (.foldl h (fun _ _ hx => hx.unmute))) (by simp [Twin.dims])) h
theorem State.Form.enterPeriod {g : Nat} {p : Period} (h : s.Form) : (s.enterPeriod g p).Form := by
  unfold State.enterPeriod
  refine .buildAhead ?_
  refine .muteEnd ?_
  refine .foldl ?_ fun _ _ h2 => ?_
  · refine .trgRange ?_
    refine .showFinds ?_
    refine .put ?_
    refine .set1 ?_
    refine .put ?_
    refine .put ?_
    refine .upGroup ?_
    split
    exacts [h.activePeriod, h]
  · exact h2.upChan
theorem State.Form.periodStart {g : Nat} (h : s.Form) : (s.periodStart g).Form := by
  unfold State.periodStart
  dsimp only
  split
  exacts [.ite h.enterPeriod h, .ite h.crossed.upGroup.enterPeriod h, h]
theorem State.Form.compareFire {g n : Nat} (h : s.Form) : (s.compareFire g n).Form := by
  unfold State.compareFire
  dsimp only
  split
  exacts [.ite h.upGroup h, h]
theorem State.Form.requestLoad {g : Nat} (h : s.Form) : (s.requestLoad g).Form := h.crossPut.set1.set1
theorem State.Form.gload {mask : Nat} (h : s.Form) : (s.gload mask).Form :=
  .foldl h (fun _ _ hx => .ite hx.requestLoad hx)
theorem State.Form.shadowDuty {ch v : Nat} (h : s.Form) : (s.shadowDuty ch v).Form := .ite h.put.crossPut h.put
theorem State.Form.shadowPeriod {g v : Nat} (h : s.Form) : (s.shadowPeriod g v).Form := h.put.crossPut
theorem State.Form.loadNow {g tl per : Nat} {duties : List (Nat × Nat)} (h : s.Form) : (s.loadNow g tl per duties).Form := by
  unfold State.loadNow
  extract_lets _ s1 s2 s3 s4 s5
  have h1 : s1.Form := .foldl h (fun _ _ hy => hy.put)
  have h2 : s2.Form := .ite h1.activePeriod h1.upGroup
  have h3 : s3.Form := .ite h2 h2.clr.clr
  have h4 : s4.Form := h3.put.set1
  have h5 : s5.Form := h4.upGroup
  exact h5.reshape
theorem State.Form.groupLoad {g : Nat} (h : s.Form) : (s.groupLoad g).Form := by
  unfold State.groupLoad
  dsimp only
  split
  exacts [.ite h.crossed.upGroup.showFinds.loadNow.crossed h.crossed, h.crossed]
theorem State.Form.phaseWrite {g old : Nat} (h : s.Form) : (s.phaseWrite g old).Form := by
  unfold State.phaseWrite
  refine .ite h ?_
  dsimp only
  split
  exacts [.buildAhead (.foldl h.upGroup.cutPeriods (fun _ _ hz => hz.rebuildLane)), h.upGroup]
theorem State.Form.groupControl {g old v : Nat} (h : s.Form) : (s.groupControl g old v).Form :=
  .ite (.upGroup (.ite h.upGroup h)) (.reshape (.ite h.upGroup h))
theorem State.Form.edgeSend {ch : Nat} (h : s.Form) : (s.edgeSend ch).Form := by
  unfold State.edgeSend
  dsimp only
  split
  · exact h.lineRun
  · exact .ite h.lineRun (.ite h.lineRun.upChan (.ite h.lineRun.upChan.edgeGo h.lineRun.upChan.upLane.lineRun))
theorem State.Form.qfullEnd {l : Nat} (h : s.Form) : (s.qfullEnd l).Form := by
  unfold State.qfullEnd
  split
  exacts [.ite h.upLane.andn.laneSource h, h]

/-! ### Machine/Tracker -/

theorem State.Form.trkValid {p : Nat} (h : s.Form) : (s.trkValid p).Form := .ite h h.put.set1
theorem State.Form.trkStop {p hold : Nat} (h : s.Form) : (s.trkStop p hold).Form := h.clr.clr.clr.upTrk.trkValid
theorem State.Form.trkTimeout {p : Nat} (h : s.Form) : (s.trkTimeout p).Form := h.upTrk.trkStop.set1
theorem State.Form.trkCorrect {p : Nat} {tc : Int} {i : Nat} {g : Int} (h : s.Form) : (s.trkCorrect p tc i g).Form :=
  .upTrk (.ite h.put.bump.set1 h.put)
theorem State.Form.trkEdge {p : Nat} {tc bc : Int} (h : s.Form) : (s.trkEdge p tc bc).Form := by
  unfold State.trkEdge
  extract_lets _ _ s1 s2 _ s3 _ _ s4 _ _ s5
  have h1 : s1.Form := .ite h h.put.set1
  have h2 : s2.Form := h1.put
  have h3 : s3.Form := h2.upTrk
  have h4 : s4.Form := h3.put
  have h5 : s5.Form := h4.set1.set1
  exact .ite h3.trkStop (.ite h5.upTrk.trkValid h4.clr.trkCorrect)
theorem State.Form.trkCross {p : Nat} {t : Int} {a b : Nat} (h : s.Form) : (s.trkCross p t a b).Form := by
  unfold State.trkCross
  refine .ite ?_ ?_
  · refine .upTrk ?_
    split
    · exact h.upTrk
    · refine .ite ?_ ?_
      · split
        exacts [h.upTrk.upTrk, .ite h.upTrk.upTrk.bump.set1 h.upTrk.upTrk.trkEdge]
      · exact h.upTrk
  · split
    · exact h.upTrk
    · refine .ite ?_ ?_
      · split
        exacts [h.upTrk.upTrk, .ite h.upTrk.upTrk.bump.set1 h.upTrk.upTrk.trkEdge]
      · exact h.upTrk
theorem State.Form.trkAmp {p : Nat} {t : Int} {a b : Nat} {bad : Bool} (h : s.Form) : (s.trkAmp p t a b bad).Form :=
  h.put.upTrk
theorem State.Form.trkPair {p : Nat} (h : s.Form) : (s.trkPair p).Form := by
  unfold State.trkPair
  split
  exacts [h, .ite h.upTrk (.ite h.upTrk.trkAmp h.upTrk.trkAmp.trkCross)]
theorem State.Form.ampExpiry {p : Nat} (h : s.Form) : (s.ampExpiry p).Form := by
  unfold State.ampExpiry
  dsimp only
  split
  exacts [.ite h.set1.trkValid h, .ite h.clr.set1.trkValid h, h]
theorem State.Form.trkDue {p : Nat} {t : Int} {a b : Nat} (h : s.Form) : (s.trkDue p t a b).Form := h.upTrk
theorem State.Form.trkTap {tap : Nat} (h : s.Form) : (s.trkTap tap).Form :=
  .foldl h (fun _ _ hx => .ite hx (.ite hx.upTrk.trkDue (.ite hx.upTrk.set1 hx.upTrk)))
theorem State.Form.trkConfig {p : Nat} (h : s.Form) : (s.trkConfig p).Form := h.put.upTrk
theorem State.Form.quadConfig (h : s.Form) : s.quadConfig.Form := h.put.with_quad
theorem State.Form.quadStep (h : s.Form) : s.quadStep.Form := by
  unfold State.quadStep
  split
  exacts [h, .ite h (.ite h h.with_quad)]

/-! ### Machine/Engine -/

theorem State.Form.stPut {n : Nat} {i : Inst} {k v : Nat} (h : s.Form) : (s.stPut n i k v).Form := h.stSet
theorem State.Form.stKeep {n k v : Nat} {i : Inst} (h : s.Form) : (s.stKeep n i k v).1.Form := .ite_fst h h.stPut
theorem State.Form.sigAdd {n : Nat} {bs : List Byte} (h : s.Form) : (s.sigAdd n bs).Form := h.upEng
theorem State.Form.wrRef {n r v : Nat} (h : s.Form) : (s.wrRef n r v).Form := by
  unfold State.wrRef
  split
  exacts [h.ceSet.sigAdd, h.ceSet.sigAdd, h]
theorem State.Form.wrV {n r : Nat} {vs : List Nat} (h : s.Form) : (s.wrV n r vs).Form := by
  induction vs generalizing s r with
  | nil => exact h
  | cons v vs ih => exact ih h.wrRef
theorem State.Form.status {n : Nat} {i : Inst} {k b : Nat} {v : Bool} (h : s.Form) : (s.status n i k b v).Form :=
  h.stPut
theorem State.Form.nanHold {n : Nat} {i : Inst} {k : Nat} {v : Bool} (h : s.Form) : (s.nanHold n i k v).Form :=
  .ite h.status h
theorem State.Form.tickReach {n : Nat} {k : Tick} (h : s.Form) : (s.tickReach n k).Form := by
  unfold State.tickReach
  dsimp only
  split
  exacts [h.upEng.set1, .ite h.upEng.set1 h.upEng]
theorem State.Form.promote {n : Nat} (h : s.Form) : (s.promote n).Form :=
  .ite h (.foldl h.upEng (fun _ _ hx => hx.tickReach))
theorem State.Form.journalLate {n : Nat} (h : s.Form) : (s.journalLate n).Form :=
  .ite h (.ite h.upEng.bump.set1.goJoining h.upEng)
theorem State.Form.tickArrival {n stamp : Nat} (h : s.Form) : (s.tickArrival n stamp).Form := by
  unfold State.tickArrival
  extract_lets _ _ s1 _ s2 s3
  have h1 : s1.Form := h.promote
  have h3 : s3.Form := h1.upEng.upEng
  exact .ite h1.journalLate (.ite h1.upEng.upEng.journalLate (.ite (.ite h3.upEng h3.upEng.upEng.twSend)
    (.ite h3.upEng.journalLate h3.upEng.twSend.promote)))
theorem State.Form.mailProgress (h : s.Form) : s.mailProgress.Form := by
  unfold State.mailProgress
  refine .foldl ?_ fun _ _ h0 => ?_
  · exact h
  · split
    exacts [h0, .ite h0.writeBytes h0]
theorem State.Form.mailRead {n : Nat} {torn : List Nat} {errs : List RowErr} {j slot : Nat} (h : s.Form) :
    (s.mailRead n torn errs j slot).Form := by
  unfold State.mailRead
  dsimp only
  split
  exacts [h.meetRows.bump, .writeBytes (.upEng (.ite h.meetRows h.meetRows.bump.set1))]
theorem State.Form.preset {n : Nat} {i : Inst} (h : s.Form) : (s.preset n i).1.Form := by
  have hc {t : State} (ht : t.Form) {c : Bool} {k b : Nat} : (if c then t.status n i k b true else t).Form :=
    .ite ht.status ht
  unfold State.preset
  split
  · exact hc h.nanHold.stKeep.nanHold
  · exact .ite_fst (hc h.stKeep.stKeep.nanHold) h
  · exact hc h.nanHold.stKeep.nanHold
  · exact hc h.stKeep.nanHold
  · exact h
theorem State.Form.initInst {n : Nat} {i : Inst} (h : s.Form) : (s.initInst n i).Form := by
  unfold State.initInst
  split
  · exact .foldl h (fun _ _ hy => hy.stPut)
  · exact .foldl h (fun _ _ hy => hy.stPut)
  · exact .nanHold (.foldl h.stKeep (fun _ _ hy => hy.stPut))
  · exact .ite (.nanHold (.stKeep (.foldl h (fun _ _ hy => hy.stPut)))) (.stPut (.foldl h (fun _ _ hy => hy.stPut)))
  · split
    exacts [.foldl h (fun _ _ hz => hz.stPut), h]
theorem State.Form.swapRecipe {n : Nat} (h : s.Form) : (s.swapRecipe n).Form := h.put.clr.set1.upEng
theorem State.Form.swapCoef {n : Nat} {is : List Inst} {first : Bool} (h : s.Form) : (s.swapCoef n is first).Form := by
  unfold State.swapCoef
  extract_lets s1 s2 s3 s4
  have h1 : s1.Form := h.put
  have h2 : s2.Form := h1.clr.set1
  have h3 : s3.Form := h2.upEng
  have h4 : s4.Form := h3.clr.clr
  exact .ite h4 (.foldl h4 (fun _ _ hy => .ite (.set1 (.bump (.ite hy.preset.put hy.preset))) hy.preset))
theorem State.Form.applyQueue {n : Nat} (h : s.Form) : (s.applyQueue n).1.Form :=
  .put (.upEng (.foldl h fun _ _ hx => hx.stSet))
theorem State.Form.countLate {n : Nat} {k : Tick} (h : s.Form) : (s.countLate n k).Form :=
  .ite h (.ite h.bump.bump.bump.set1 h.clr)
theorem State.Form.runBegin {n : Nat} {k : Tick} {torn : List Nat} {errs : List RowErr} (h : s.Form) :
    (s.runBegin n k torn errs).Form := by
  unfold State.runBegin
  extract_lets _ _ _ s1 s2 s3 _ _ _ s4 _ _ _ _ _ _ _ s5 _ s6 s7 s8 _ _ _ _ s9
  have h3 : s3.Form := .ite h.countLate.clr.swapRecipe h.countLate.clr
  have h4 : s4.Form := .foldl h3 fun _ _ hx => hx.ceSet.ceSet
  have h5 : s5.Form := .ite h4.set1 h4
  have h6 : s6.Form := .ite h5 h5.mailProgress
  have h7 : s7.Form := .foldl h6 fun _ _ hx => hx.mailRead
  have h8 : s8.Form := .ite h7.swapCoef h7
  have h9 : s9.Form := h8.writeBytes
  clear_value s9
  split
  next s10 q e =>
    extract_lets ini marked s11 c7 cyc r s12 s13
    have h11 : s11.Form := .foldl (h9.applyQueue.of_fst e) fun _ _ hx => hx.initInst
    have h13 : s13.Form := .ite h11.upEng.put h11.upEng
    exact h13.set1.put.put.bumpWrap
theorem State.Form.runStart {n : Nat} {torn : List Nat} {errs : List RowErr} (h : s.Form) :
    (s.runStart n torn errs).Form := by
  unfold State.runStart
  extract_lets s1
  have h1 : s1.Form := h.promote
  split
  exacts [h1.runBegin, h1]
theorem State.Form.overrunLimit {n : Nat} (h : s.Form) : (s.overrunLimit n).Form := .ite h h.set1.fsAssert
theorem State.Form.runInst {n : Nat} {is : Inst → Bool} {f : State → Inst → State} (h : s.Form)
    (hf : ∀ (s : State) i, s.Form → (f s i).Form) : (s.runInst n is f).Form := by
  unfold State.runInst
  split
  exacts [.ite (hf _ _ h).upEng h, h]
theorem State.Form.traceRecord {n : Nat} (h : s.Form) : (s.traceRecord n).Form := by
  refine .ite h ?_
  extract_lets e w b addr s1 w' s2 s3
  have h1 : s1.Form := .ite h.writeBytes (.ite h.bankViol h)
  have h2 : s2.Form := .ite h1.set1 h1
  have h3 : s3.Form := h2.upEng
  split
  exacts [h3.upEng.set1.clr.set1, h3.upEng, h3]
theorem State.Form.showTrace (h : s.Form) : s.showTrace.Form := .foldl h (fun _ _ hx => .ite hx hx.put)
theorem State.Form.traceArm {n : Nat} (h : s.Form) : (s.traceArm n).Form :=
  .ite h.clr.set1.upEng.set1.showTrace h.clr.set1.set1.set1.showTrace
theorem State.Form.mtrack {n : Nat} {i : Inst} (h : s.Form) : (s.mtrack n i).Form := .ite h.stKeep h
theorem State.Form.trackRun {n stamp : Nat} (h : s.Form) : (s.trackRun n stamp).Form :=
  .foldl h (fun _ _ hx => .ite hx.trkDue hx)
theorem State.Form.signRun {n : Nat} (h : s.Form) : (s.signRun n).Form := by
  unfold State.signRun
  dsimp only
  split
  exacts [h.checkpoint.put, h.checkpoint]
theorem State.Form.runEnd {n : Nat} (h : s.Form) : (s.runEnd n).Form := by
  unfold State.runEnd
  extract_lets _ s1 s2 s3
  have h1 : s1.Form := .foldl h (fun _ _ hy => hy.mtrack)
  have h2 : s2.Form := h1.traceRecord.showTrace
  have h3 : s3.Form := h2.signRun
  split
  · exact h
  · exact .ite h (.promote (.trackRun (.ite h3.put.put.upEng.clr.fsRelease h3.put.put.upEng.clr)))
theorem State.Form.eccMark {n : Nat} (h : s.Form) : (s.eccMark n).Form :=
  .engFault (.ite (.with_twn h (by simp [Twin.dims])) h)
theorem State.Form.eccFault {n : Nat} (h : s.Form) : (s.eccFault n).Form := h.mailProgress.upEng.clr.eccMark

/-! ### Machine/Loops -/

theorem State.Form.opLoad {n : Nat} {i : Inst} (h : s.Form) : (s.opLoad n i).Form := .ite h.wrRef (.ite h.wrV h.wrV)
theorem State.Form.opClarke {n : Nat} {i : Inst} (h : s.Form) : (s.opClarke n i).Form := h.wrV
theorem State.Form.opIclarke {n : Nat} {i : Inst} (h : s.Form) : (s.opIclarke n i).Form := h.wrV
theorem State.Form.opPark {n : Nat} {i : Inst} (h : s.Form) : (s.opPark n i).Form := h.wrV
theorem State.Form.opIpark {n : Nat} {i : Inst} (h : s.Form) : (s.opIpark n i).Form := h.wrV
theorem State.Form.opAngle {n : Nat} {i : Inst} (h : s.Form) : (s.opAngle n i).Form := .ite h.wrRef h.wrRef
theorem State.Form.opPi {n : Nat} {i : Inst} (h : s.Form) : (s.opPi n i).Form := by
  unfold State.opPi
  split
  · dsimp only
    split
    · exact h.stPut.stKeep.nanHold.status.status.stKeep.nanHold.stKeep.stKeep.nanHold.wrRef
    · refine .wrRef (.nanHold (.stKeep (.stKeep (.status (.nanHold (.stKeep (.ite ?_ (.ite ?_ ?_))))))))
      exacts [h.stPut.stKeep.nanHold.status, h.stPut.stKeep.nanHold.status, h.stPut.stKeep.nanHold]
  · dsimp only
    split
    · exact h.status.status.stKeep.nanHold.stKeep.stKeep.nanHold.wrRef
    · exact .wrRef (.nanHold (.stKeep (.stKeep (.status (.nanHold (.stKeep (.ite h.status (.ite h.status h))))))))
theorem State.Form.opRes {n : Nat} {i : Inst} (h : s.Form) : (s.opRes n i).Form := by
  unfold State.opRes
  dsimp only
  exact h.nanHold.status.stKeep.stKeep.nanHold.wrRef
theorem State.Form.opMatvec {n : Nat} {i : Inst} (h : s.Form) : (s.opMatvec n i).Form := h.wrV
theorem State.Form.opObs {n : Nat} {i : Inst} (h : s.Form) : (s.opObs n i).Form :=
  .wrV (.foldl h (fun _ _ hx => hx.stKeep))
theorem State.Form.opSwing {n : Nat} {i : Inst} (h : s.Form) : (s.opSwing n i).Form := by
  unfold State.opSwing
  dsimp only
  split
  · exact h.status.stKeep.nanHold.stPut.wrRef.stKeep.nanHold.wrV
  · exact h.status.stKeep.nanHold.status.wrRef.stKeep.nanHold.wrV
theorem State.Form.opDroop {n : Nat} {i : Inst} (h : s.Form) : (s.opDroop n i).Form := h.wrRef
theorem State.Form.opVimp {n : Nat} {i : Inst} (h : s.Form) : (s.opVimp n i).Form := h.wrV
theorem State.Form.opIlim {n : Nat} {i : Inst} (h : s.Form) : (s.opIlim n i).Form := by
  unfold State.opIlim
  extract_lets _ _ _ _ _ _ _ s1 _ _ _ s2 _ _ _
  have h1 : s1.Form := .ite h.stKeep (.ite h.stPut h)
  have h2 : s2.Form := .ite h1 h1.stPut
  exact h2.wrV
theorem State.Form.opFrt {n : Nat} {i : Inst} (h : s.Form) : (s.opFrt n i).Form :=
  .wrV (.foldl h (fun _ _ hx => hx.stKeep.stKeep))

/-! ### Machine/Shaping -/

theorem State.Form.opRamp {n : Nat} {i : Inst} (h : s.Form) : (s.opRamp n i).Form := h.status.stKeep.nanHold.wrRef
theorem State.Form.opLpf {n : Nat} {i : Inst} (h : s.Form) : (s.opLpf n i).Form := h.stKeep.stKeep.wrRef
theorem State.Form.opLimit {n : Nat} {i : Inst} (h : s.Form) : (s.opLimit n i).Form := h.wrRef
theorem State.Form.opLut {n : Nat} {i : Inst} (h : s.Form) : (s.opLut n i).Form := h.wrRef
theorem State.Form.opPower {n : Nat} {i : Inst} (h : s.Form) : (s.opPower n i).Form := .ite h.stKeep.stKeep.wrV h.wrV
theorem State.Form.opRms {n : Nat} {i : Inst} (h : s.Form) : (s.opRms n i).Form :=
  .wrRef (.ite h.stKeep.stKeep.stKeep.stPut.stPut h.stKeep.stKeep)
theorem State.Form.opSvm3l {n : Nat} {i : Inst} (h : s.Form) : (s.opSvm3l n i).Form := h.wrV
theorem State.Form.opSelect {n : Nat} {i : Inst} (h : s.Form) : (s.opSelect n i).Form := h.wrV
theorem State.Form.opCompare {n : Nat} {i : Inst} (h : s.Form) : (s.opCompare n i).Form := h.stPut.wrRef
theorem State.Form.opGuard {n : Nat} {i : Inst} (h : s.Form) : (s.opGuard n i).Form := by
  unfold State.opGuard
  extract_lets _ _ _ _ _ _ s1 s2
  have h1 : s1.Form := .ite h.stPut.stPut.status h.stKeep.nanHold
  have h2 : s2.Form := .ite h1.stPut h1
  exact h2.wrV
theorem State.Form.opSum {n : Nat} {i : Inst} (h : s.Form) : (s.opSum n i).Form := h.wrV
theorem State.Form.opMul {n : Nat} {i : Inst} (h : s.Form) : (s.opMul n i).Form := h.wrV
theorem State.Form.opEmit {n : Nat} {i : Inst} (h : s.Form) : (s.opEmit n i).Form := by
  unfold State.opEmit
  extract_lets _ _ _ s1 _ _ s2 s3
  have h1 : s1.Form := .ite h.shadowPeriod.sigAdd h
  have h2 : s2.Form := .foldl h1 (fun _ _ hy => .ite hy.shadowDuty.sigAdd hy)
  have h3 : s3.Form := .ite h2.requestLoad h2
  exact h3.checkpoint
theorem State.Form.slotNotice {slot b : Nat} (h : s.Form) : (s.slotNotice slot b).Form := h.upNet rfl
theorem State.Form.opMailWrite {n : Nat} {i : Inst} (h : s.Form) : (s.opMailWrite n i).Form :=
  h.stPut.writeBytes.sigAdd.writeLe.slotNotice.sigAdd.checkpoint
theorem State.Form.opMailRead {n : Nat} {i : Inst} (h : s.Form) : (s.opMailRead n i).Form := h.stPut.wrV
theorem State.Form.rising {n : Nat} {i : Inst} (h : s.Form) : (s.rising n i).1.Form := h.stPut
theorem State.Form.opEvent {n : Nat} {i : Inst} (h : s.Form) : (s.opEvent n i).Form := .ite h.rising.ldgPost h.rising
theorem State.Form.opTrace {n : Nat} {i : Inst} (h : s.Form) : (s.opTrace n i).Form :=
  .ite h.rising.traceTrigger h.rising

/-! ### Machine/EngineCmd -/

theorem State.Form.checkStart {n : Nat} {inactive : Bool} (h : s.Form) : (s.checkStart n inactive).Form :=
  h.upEng.set1
theorem State.Form.checkRelease {n : Nat} {pass : Bool} (h : s.Form) : (s.checkRelease n pass).Form := by
  unfold State.checkRelease
  extract_lets s1 s2 s3
  have h1 : s1.Form := .ite h h.engFault
  have h2 : s2.Form := .ite h1.engFault h1
  have h3 : s3.Form := h2.upEng.showLive
  exact .ite h2 (.ite h3.checkStart h3)
theorem State.Form.checkSwap {n : Nat} {pass : Bool} (h : s.Form) : (s.checkSwap n pass).Form :=
  .ite h.upEng (.ite h.clr.set1.clr.upEng h.clr.set1)
theorem State.Form.checkDone {n : Nat} (h : s.Form) : (s.checkDone n).Form := by
  unfold State.checkDone
  split
  exacts [h, .ite h (.ite h.put.put.upEng.clr.checkSwap h.put.put.upEng.clr.checkRelease)]
theorem State.Form.engRelease {n : Nat} (h : s.Form) : (s.engRelease n).Form :=
  .ite h.showLive h.upEng.showLive.checkStart
theorem State.Form.moveRefuse {code : Nat} (h : s.Form) : (s.moveRefuse code).Form := h.put.set1.hltReason
theorem State.Form.moveBoundary (h : s.Form) : s.moveBoundary.Form := by
  unfold State.moveBoundary
  split
  exacts [.ite h (.ite h.with_move.clr.moveRefuse h.with_move.showLive), h]
theorem State.Form.coefSwap {n : Nat} (h : s.Form) : (s.coefSwap n).Form := .ite h h.set1.upEng
theorem State.Form.recipeSwap {n : Nat} (h : s.Form) : (s.recipeSwap n).Form := .ite h (.ite h.set1 h.set1.checkStart)
theorem State.Form.stageWrite {n v : Nat} (h : s.Form) : (s.stageWrite n v).Form := by
  unfold State.stageWrite
  refine .ite h.set1.errResp ?_
  refine .okResp ?_
  refine .put ?_
  split
  exacts [h.ceSet, h.ceSet, h.upEng.put, .ite h.put h.put]
theorem State.Form.copyMem {src dst len : Nat} (h : s.Form) : (s.copyMem src dst len).Form :=
  .foldl h.fillZero (fun _ _ hx => hx.setByte)
theorem State.Form.moveStart {n : Nat} (h : s.Form) : (s.moveStart n).Form := by
  unfold State.moveStart
  extract_lets _ s1 s2
  have h1 : s1.Form := .ite h h.put
  have h2 : s2.Form := h1.clr.set1
  exact .ite h1.moveRefuse (.ite h1.moveRefuse (.ite h1.moveRefuse h2.with_move.moveBoundary))
theorem State.Form.moveRegs {n : Nat} (h : s.Form) : (s.moveRegs n).Form :=
  .put (.put (.foldl h (fun _ _ hx => hx.setWord)))
theorem State.Form.moveCopied {eccBad : Bool} (h : s.Form) : (s.moveCopied eccBad).Form := by
  unfold State.moveCopied
  split
  exacts [.ite h (.ite h.with_move.clr.moveRefuse.eccMark h.copyMem.with_move), h]
theorem State.Form.testFrom {n : Nat} (h : s.Form) : (s.testFrom n).Form := .with_hlt h (by simp)
theorem State.Form.carry {n : Nat} (h : s.Form) : (s.carry n).Form := h.put.set1.set1.set1
theorem State.Form.moveDone (h : s.Form) : s.moveDone.Form := by
  unfold State.moveDone
  split
  · have hm {n : Nat} : ((s.promote n).moveRegs n).Form := h.promote.moveRegs
    exact .ite h hm.upEng.upEng.clr.put.testFrom.with_move.clr.carry.clr.set1.showLive.showLive.clr.fsRelease
  · exact h

/-! ### Machine/Screen -/

theorem State.Form.hold {who addr word : Nat} (h : s.Form) : (s.hold who addr word).Form := h.with_holding
theorem State.Form.winConfig {w : Nat} (h : s.Form) : (s.winConfig w).Form :=
  .ite (.with_scr (.ite h.put.set1 h.put)) (.ite h.put.set1 h.put)
theorem State.Form.winWord {w : Nat} {x : Int} (h : s.Form) : (s.winWord w x).Form :=
  .ite h.with_scr.andn (.ite h.with_scr.orr.orr.set1 h)
theorem State.Form.winTap {i k : Nat} {x : Int} (h : s.Form) : (s.winTap i k x).Form :=
  .foldl h (fun _ _ hx => .ite hx.winConfig.winWord hx.winConfig)
theorem State.Form.tapEmit {i k st : Nat} {x : Int} (h : s.Form) : (s.tapEmit i k st x).Form :=
  h.put.put.with_scr.winTap.trkTap
theorem State.Form.stageTake {i k st : Nat} {emit : Bool} {x : Int} (h : s.Form) :
    (s.stageTake i k emit st x).1.Form :=
  .ite_fst (.tapEmit (.ite h.upChain.orr.set1 h.upChain)) h.upChain
theorem State.Form.stagesFrom {i st : Nat} {emit : Nat → Bool} {ks : List Nat} {x : Int} (h : s.Form) :
    (s.stagesFrom i st emit ks x).Form := by
  induction ks generalizing s x with
  | nil => exact h
  | cons k ks ih =>
    have hk := h.stageTake (i := i) (k := k) (emit := emit k) (st := st) (x := x)
    unfold State.stagesFrom
    split
    · next e => rw [e] at hk; exact ih hk
    · next e => rw [e] at hk; exact hk
theorem State.Form.chainWord {i j st : Nat} {x : Int} (h : s.Form) : (s.chainWord i j st x).Form := h.stagesFrom
theorem State.Form.chainWatch {i j st : Nat} {x : Int} (h : s.Form) : (s.chainWatch i j st x).Form :=
  .stagesFrom (.foldl h (fun _ _ hx => hx.tapEmit))
theorem State.Form.chainFrame {i f : Nat} {watch : Bool} (h : s.Form) : (s.chainFrame i f watch).Form := h.put.upChain
theorem State.Form.applyReset (h : s.Form) : s.applyReset.Form := by
  unfold State.applyReset
  extract_lets _ s1 _
  have h1 : s1.Form := h.with_scr
  split
  · exact .ite h (.set1 (.bumpWrap (.put (.foldl h1 (fun _ _ hz => .ite hz (.ite hz.upChain hz.put.upChain))))))
  · exact h
theorem State.Form.resetRequest {f : Nat} {out : Bool} (h : s.Form) : (s.resetRequest f out).Form := by
  unfold State.resetRequest
  dsimp only
  split
  exacts [h.applyReset.bump.set1, h.applyReset.with_scr]
theorem State.Form.syncPin (h : s.Form) : s.syncPin.Form := .ite h.resetRequest h
theorem State.Form.syncCommand (h : s.Form) : s.syncCommand.Form := h.resetRequest
theorem State.Form.syncTrigger {k x : Nat} (h : s.Form) : (s.syncTrigger k x).Form := .ite h.resetRequest h
theorem State.Form.syncOutput (h : s.Form) : s.syncOutput.Form := h.with_scr
theorem State.Form.fastWord {i : Nat} {x : Int} (h : s.Form) : (s.fastWord i x).Form :=
  .ite h (.ite h.upChain.orr.orr.set1.fsAssert (.ite h.upChain.andn.fsRelease h.upChain))
theorem State.Form.fastEnable {i : Nat} {on : Bool} (h : s.Form) : (s.fastEnable i on).Form :=
  .ite h.put.upChain (.ite h.put.upChain.andn.fsRelease h.put.upChain.andn)
theorem State.Form.tapRead {who tap : Nat} (h : s.Form) : (s.tapRead who tap).Form := .ite h.dataResp h.hold.dataResp

/-! ### Machine/Banks -/

theorem State.Form.upMst {f : MemState → MemState} (h : s.Form) : (s.upMst f).Form := h.with_mst
theorem State.Form.setGleanDesc {c : Nat} {d : Option (Nat × Nat)} (h : s.Form) : (s.setGleanDesc c d).Form := h.upMst
theorem State.Form.gleanTo {c v : Nat} (h : s.Form) : (s.gleanTo c v).Form := h.put.put.put
theorem State.Form.gleanHalt {c cause faddr : Nat} (h : s.Form) : (s.gleanHalt c cause faddr).Form :=
  h.put.put.gleanTo.orr
theorem State.Form.gleanFails {who cause addr : Nat} (h : s.Form) : (s.gleanFails who cause addr).Form :=
  .ite h.gleanHalt h
theorem State.Form.l2Drop {row : L2Row} (h : s.Form) : (s.l2Drop row).Form := .ite h.upMst.writeBytes h.upMst
theorem State.Form.l2Flush {p : Nat → Bool} (h : s.Form) : (s.l2Flush p).Form := .foldl h (fun _ _ hx => hx.l2Drop)
theorem State.Form.l2Look {addr : Nat} (h : s.Form) : (s.l2Look addr).1.Form := by
  unfold State.l2Look
  split
  exacts [h, .ite_fst h.with_drawn.l2Drop h.with_drawn]
theorem State.Form.l2Put {r : L2Row} (h : s.Form) : (s.l2Put r).Form := by
  unfold State.l2Put
  dsimp only
  split
  exacts [h.upMst.l2Drop, h.upMst]
theorem State.Form.l2Passed {addr n : Nat} (h : s.Form) : (s.l2Passed addr n).Form :=
  .foldl h (fun _ _ hx => hx.l2Look)
theorem State.Form.bankCheck {a : Access} (h : s.Form) : (s.bankCheck a).1.Form := by
  unfold State.bankCheck
  split
  · exact .ite_fst h.bankViol.gleanFails h
  · split <;> exact h
theorem State.Form.rowRead {addr ecc : Nat} (h : s.Form) : (s.rowRead addr ecc).Form :=
  .ite h (.ite h.noteRow.eccUe h.noteRow.eccCe)
theorem State.Form.bankRead {a : Access} {ecc : Nat} (h : s.Form) : (s.bankRead a ecc).Form :=
  .ite h.rowRead.errResp.gleanFails h.rowRead.dataResp
theorem State.Form.bankWrite {a : Access} {ecc : Nat} (h : s.Form) : (s.bankWrite a ecc).Form :=
  .okResp (.writeLe (.ite h.rowRead h))
theorem State.Form.l2Serve {a : Access} {ecc : Nat} (h : s.Form) : (s.l2Serve a ecc).Form := by
  have hl := h.l2Look (addr := a.addr)
  unfold State.l2Serve
  generalize s.l2Look a.addr = p at hl ⊢
  obtain ⟨t, _ | r⟩ := p
  · have ht : (if a.write && a.size = 8 then t else t.rowRead a.addr ecc).Form := .ite hl hl.rowRead
    exact .ite ht.l2Put.okResp (.ite ht.errResp ht.l2Put.dataResp)
  · exact .ite hl.l2Put.okResp (.ite hl.errResp hl.l2Put.dataResp)
theorem State.Form.writeLost {x p addr : Nat} (h : s.Form) : (s.writeLost x p addr).Form := h.put.put.bump.set1
theorem State.Form.otherServe {a : Access} {ecc : Nat} (h : s.Form) : (s.otherServe a ecc).Form := by
  unfold State.otherServe
  extract_lets _ _ _ _ _ s1 s2
  have h1 : s1.Form := .ite h h.noteRow
  have h2 : s2.Form := .ite h1.bump h1
  refine .ite (.ite h.dataResp h.errResp) (.ite (.ite h.errResp (.ite h.writeLe.okResp ?_)) h.errResp)
  exact .ite h1.eccFault.moveBoundary.errResp (.ite h2.writeLe.okResp h2.dataResp)
theorem State.Form.answered {mine : Bool} {f : State → State} (h : s.Form) (hf : ∀ s : State, s.Form → (f s).Form) :
    (s.answered mine f).Form := .ite (hf _ h) (hf _ h).with_resp
theorem State.Form.serveOne {x : Bool × Access} {ecc : Nat} (h : s.Form) : (s.serveOne x ecc).Form :=
  h.answered (fun _ hx => .ite hx.l2Serve (.ite hx.l2Passed.bankWrite hx.l2Passed.bankRead))
theorem State.Form.exchCycle {x ecc : Nat} {pa pb : Option (Bool × Access)} (h : s.Form) :
    (s.exchCycle x pa pb ecc).1.Form := by
  unfold State.exchCycle
  split
  · exact .ite_fst (.ite h.serveOne.writeLost (h.serveOne.writeLost.answered fun _ hx => hx.errResp.gleanFails))
      (.ite_fst h.serveOne.serveOne h.serveOne.serveOne)
  exacts [h.serveOne, h.serveOne, h]
theorem State.Form.exchServe {x ecc n wa wb : Nat} {qa qb : List (Bool × Access)} (h : s.Form) :
    (State.exchServe x ecc n qa qb wa wb s).Form := by
  induction n generalizing s qa qb wa wb with
  | zero => exact h
  | succ n ih => exact .ite h (ih h.exchCycle)
theorem State.Form.bankServe {a : Access} {ecc : Nat} {rest : List Access} (h : s.Form) : (s.bankServe a ecc rest).Form := by
  unfold State.bankServe
  extract_lets s1 _ _ _ s2 _
  have h1 : s1.Form := h.mailProgress
  have h2 : s2.Form := .ite h1 h1.errResp
  refine .ite h1.otherServe ?_
  split
  · exact .foldl h1 (fun _ _ h3 => .ite h3.bankCheck.serveOne (h3.bankCheck.answered (fun _ h4 => h4.errResp)))
  · exact h2.exchServe
theorem State.Form.bnkErr {code : Nat} (h : s.Form) : (s.bnkErr code).Form := h.put.set1
theorem State.Form.bnkDone (h : s.Form) : s.bnkDone.Form := h.clr.set1
theorem State.Form.bnkCmd {f : State → State} (h : s.Form) (hf : ∀ s : State, s.Form → (f s).Form) :
    (s.bnkCmd f).Form := .ite h.bnkErr (hf _ h)
theorem State.Form.bankRelease {b who : Nat} (h : s.Form) : (s.bankRelease b who).Form :=
  h.bnkCmd (fun _ hx => .ite hx.bnkErr (.ite hx.bnkErr (.ite hx.bnkErr hx.set1.clr.set1.clr.clr)))
theorem State.Form.bankFree (h : s.Form) : s.bankFree.Form := by
  unfold State.bankFree
  split
  exacts [h.l2Flush.clr.clr.clr.bnkDone, h]
theorem State.Form.bankClaim {b who : Nat} (h : s.Form) : (s.bankClaim b who).Form :=
  h.bnkCmd (fun _ hx => .ite hx.bnkErr (.ite hx.bnkErr hx.put.bnkDone))
theorem State.Form.bankGrant {b who : Nat} {on : Bool} (h : s.Form) : (s.bankGrant b who on).Form :=
  h.bnkCmd (fun _ hx => .ite hx.bnkErr hx.put.bnkDone)
theorem State.Form.showRepair {b : Nat} (h : s.Form) : (s.showRepair b).Form := by
  unfold State.showRepair
  split
  exacts [h.put.set1, h.clr]
theorem State.Form.repairStart {b seg spare piece : Nat} (h : s.Form) : (s.repairStart b seg spare piece).Form :=
  h.put.upMst.showRepair
theorem State.Form.bankRepair {b seg : Nat} (h : s.Form) : (s.bankRepair b seg).Form := by
  unfold State.bankRepair
  refine .bnkCmd ?_ fun _ h0 => ?_
  · exact h
  · refine .ite h0.bnkErr ?_
    split
    exacts [h0.repairStart.bnkDone, h0.bnkErr]
theorem State.Form.repairPiece {r : Repair} {rest : List Repair} (h : s.Form) : (s.repairPiece r rest).Form :=
  .ite h.upMst.set1.set1.put.showRepair h.upMst.put
theorem State.Form.segmentFail {b i addr : Nat} (h : s.Form) : (s.segmentFail b i addr).Form := by
  unfold State.segmentFail
  dsimp only
  split
  exacts [h.bump.put.set1.repairStart, h.bump.put.set1.set1.hltReason]
theorem State.Form.sweepStep {errs : List RowErr} {fail : Bool} (h : s.Form) : (s.sweepStep errs fail).Form := by
  unfold State.sweepStep
  extract_lets i b addr _ s1 _ _ s2
  have h1 : s1.Form := .foldl h fun _ _ hy => hy.noteRow
  have h2 : s2.Form := h1.with_rows
  clear_value s2
  refine .ite h ?_
  split
  · exact h.repairPiece
  · split
    next i' b' _ _ =>
    extract_lets s3 s4 s5 s6
    have h4 : s4.Form := .ite h2.put.put.bump h2.put.put
    clear_value s4
    have h6 : s6.Form := .ite (.segmentFail (.ite h4.put.set1 h4)) (.ite h4.put.set1 h4)
    exact .ite h6.bumpWrap.set1 h6

/-! ### Machine/Sampling -/

theorem State.Form.showCal {a : Nat} (h : s.Form) : (s.showCal a).Form := h.put
theorem State.Form.calRestart {a : Nat} (h : s.Form) : (s.calRestart a).Form := h.upAdc.showCal
theorem State.Form.calInterrupt {a : Nat} (h : s.Form) : (s.calInterrupt a).Form := h.upAdc.showCal
theorem State.Form.handover {a : Nat} (h : s.Form) : (s.handover a).Form :=
  .ite h (.calRestart (.upAdc (.put (.ite h.bumpWrap h))))
theorem State.Form.watchRequest {a : Nat} (h : s.Form) : (s.watchRequest a).Form := .ite h.set1 h.set1.upAdc
theorem State.Form.watchEnter {a : Nat} (h : s.Form) : (s.watchEnter a).Form := .ite h h.set1.set1.calRestart
theorem State.Form.watchExitRequest {a : Nat} (h : s.Form) : (s.watchExitRequest a).Form := .ite h.clr.upAdc h.clr
theorem State.Form.watchExit {a : Nat} (h : s.Form) : (s.watchExit a).Form := by
  unfold State.watchExit
  split
  · refine .ite h ?_
    refine .calRestart ?_
    refine .upAdc ?_
    refine .foldl ?_ fun _ _ h4 => ?_
    · exact h.clr.set1
    · split
      exacts [h4.upChain, h4]
  · exact h
theorem State.Form.presentation {a : Nat} (h : s.Form) : (s.presentation a).Form := h.upAdc
theorem State.Form.holdInputs {a : Nat} (h : s.Form) : (s.holdInputs a).Form :=
  .upAdc (.foldl h.put (fun _ _ hx => hx.chainFrame))
theorem State.Form.groupFrame {a : Nat} (h : s.Form) : (s.groupFrame a).Form := by
  unfold State.groupFrame
  extract_lets s1 s2
  have h1 : s1.Form := h.handover.watchExit.watchEnter.presentation
  have h2 : s2.Form := .ite h1.upAdc h1
  exact .ite h (.ite h2 h2.holdInputs)
theorem State.Form.adcFrame (h : s.Form) : s.adcFrame.Form :=
  .ite h (.foldl h.applyReset (fun _ _ hx => hx.groupFrame))
theorem State.Form.overRange {a i : Nat} {q w : Int} (h : s.Form) : (s.overRange a i q w).Form := .ite h.orr.set1 h
theorem State.Form.testWord {a i hold : Nat} {w : Int} (h : s.Form) : (s.testWord a i hold w).Form := h.upAdc
theorem State.Form.mainWord {a i code : Nat} {f : HeldFrame} {slice : Option Nat} (h : s.Form) :
    (s.mainWord a f i slice code).Form := by
  cases slice
  · exact .ite h.with_drawn.put.testWord.fastWord.chainWatch h.with_drawn.put.testWord.fastWord.chainWord
  · exact .ite h.upAdc.overRange.put.testWord.fastWord.chainWatch h.upAdc.overRange.put.testWord.fastWord.chainWord
theorem State.Form.mainPath {a : Nat} {codes : List Nat} {residue : Nat} (h : s.Form) :
    (s.mainPath a codes residue).Form := by
  unfold State.mainPath
  split
  · exact h
  · extract_lets s1 s2
    have h2 : s2.Form := .foldl h.upAdc fun _ _ hx => hx.mainWord
    exact .ite h (.ite h2 h2.orr.hltReason)
theorem State.Form.calStore {a k : Nat} {off gain skew bw : Int} (h : s.Form) : (s.calStore a k off gain skew bw).Form := by
  unfold State.calStore
  extract_lets s1 s2
  have h1 : s1.Form := h.put.put
  have h2 : s2.Form := h1.put.put
  exact h2.clr
theorem State.Form.retire {a k : Nat} (h : s.Form) : (s.retire a k).Form := h.orr.put.clr.set1.upAdc.hltReason
theorem State.Form.calCommit {a : Nat} {off gain skew bw : Int} (h : s.Form) : (s.calCommit a off gain skew bw).Form := by
  unfold State.calCommit
  extract_lets _ s1 s2 _ s3
  have h1 : s1.Form := h.clr.upAdc
  have h2 : s2.Form := h1.calStore.set1
  have h3 : s3.Form := h1.put.set1
  exact .ite h2.clr.upAdc (.ite h3.retire h3)
theorem State.Form.calStep {a : Nat} {off gain skew bw : Int} (h : s.Form) : (s.calStep a off gain skew bw).Form :=
  .ite (.ite h h.upAdc.clr) (.ite h (.ite h.upAdc.put h.upAdc.calCommit))
theorem State.Form.calStarved {a : Nat} (h : s.Form) : (s.calStarved a).Form := .ite h h.set1.set1
theorem State.Form.calenChange {a : Nat} {on : Bool} (h : s.Form) : (s.calenChange a on).Form :=
  .ite h.put.calRestart.upAdc h.put
theorem State.Form.lfsrWrite {a v : Nat} (h : s.Form) : (s.lfsrWrite a v).Form := h.put
theorem State.Form.presWrite {a : Nat} {fmt : Bool} {v : Nat} (h : s.Form) : (s.presWrite a fmt v).Form :=
  .upAdc (.ite h.put h.put)
theorem State.Form.snapDrop {a : Nat} (h : s.Form) : (s.snapDrop a).Form := h.bump.set1
theorem State.Form.snapTake {a slot : Nat} (h : s.Form) : (s.snapTake a slot).Form := by
  unfold State.snapTake
  split
  exacts [.ite h.upAdc.snapDrop h.snapDrop, .ite h.upAdc h.snapDrop]
theorem State.Form.snapTrigger {a : Nat} (h : s.Form) : (s.snapTrigger a).Form :=
  .ite h (.foldl h.handover (fun _ _ hx => .ite hx.snapTake hx))
theorem State.Form.snapDone {a code : Nat} (h : s.Form) : (s.snapDone a code).Form := by
  unfold State.snapDone
  split
  exacts [.ite h h.overRange.put.put.bumpWrap.orr.with_scr.upAdc, h]
theorem State.Form.snapRead {who a slot : Nat} (h : s.Form) : (s.snapRead who a slot).Form := h.hold.hold.dataResp
theorem State.Form.testEnd {a : Nat} (h : s.Form) : (s.testEnd a).Form := h.clr.clr.set1.upAdc
theorem State.Form.testStart {a : Nat} (h : s.Form) : (s.testStart a).Form :=
  .ite h (.ite h.put.set1 (.ite h.put.set1 (.ite h.put.set1 h.clr.clr.set1.set1.upAdc)))
theorem State.Form.testAbort {a : Nat} (h : s.Form) : (s.testAbort a).Form := .ite h.put.testEnd h
theorem State.Form.testSettle {a : Nat} (h : s.Form) : (s.testSettle a).Form := by
  unfold State.testSettle
  split
  exacts [.ite h.upAdc h, h]
theorem State.Form.testMean {a : Nat} (h : s.Form) : (s.testMean a).Form := by
  unfold State.testMean
  split
  exacts [.ite h (.ite h.put.upAdc (.testEnd (.ite h.put.put h.put))), h]

/-! ### Machine/LaneRx -/

theorem State.Form.laneState {l v : Nat} (h : s.Form) : (s.laneState l v).Form := .ite h.put.put.upLane.set1 h.put.put
theorem State.Form.laneCause {l b : Nat} {on : Bool} (h : s.Form) : (s.laneCause l b on).Form := h.put.laneSource
theorem State.Form.laneLose {l : Nat} (h : s.Form) : (s.laneLose l).Form := .ite h h.laneState.set1.upLane.laneCause
theorem State.Form.desaturate {ch : Nat} (h : s.Form) : (s.desaturate ch).Form :=
  .fsAssert (.sendSoftoff (.ite h.upChan.bump.set1.orr.orr.set1 h.upChan.bump.set1.orr))
theorem State.Form.desatRelease {ch : Nat} (h : s.Form) : (s.desatRelease ch).Form := h.upChan.andn.fsRelease
theorem State.Form.channelByte {ch sample byte : Nat} (h : s.Form) : (s.channelByte ch sample byte).Form := by
  unfold State.channelByte
  extract_lets _ _ _ s1 s2 _
  have h1 : s1.Form := .ite (.ite h.upChan h.desaturate) h.upChan
  have h2 : s2.Form := by
    dsimp only [s2]
    split
    exacts [.ite h1.desatRelease h1, h1]
  exact .ite h2.upChan (.ite (.ite h2.upChan h2.upChan.set1) h2.upChan)
theorem State.Form.diagPut {l i c : Nat} (h : s.Form) : (s.diagPut l i c).Form := h.put
theorem State.Form.diagAll {l mask c : Nat} (h : s.Form) : (s.diagAll l mask c).Form :=
  .foldl h (fun _ _ hx => .ite hx.diagPut hx)
theorem State.Form.diagRead {l i r : Nat} (h : s.Form) : (s.diagRead l i r).Form := by
  unfold State.diagRead
  refine .diagPut ?_
  split <;> exact h.put
theorem State.Form.diagStep {l : Nat} {busy refused : Bool} {idx val : Nat} (h : s.Form) :
    (s.diagStep l busy refused idx val).Form := by
  unfold State.diagStep
  extract_lets _ s1 _ s2
  have h1 : s1.Form := h.diagRead
  have h2 : s2.Form := h1.upLane
  split
  · exact .ite h (.ite h.upLane (.ite (.ite h.diagAll.upLane.set1 h.diagAll.upLane) h))
  · exact .ite (.ite h2.set1 h2) h
theorem State.Form.mirrorFrame {l : Nat} {bs : List Byte} (h : s.Form) : (s.mirrorFrame l bs).Form :=
  .put (.put (.put (.put (.put (.put (.ite h.put.put.put.put h.put.put.put.put))))))
theorem State.Form.frameEvents {l c10 c14 c10' c14' : Nat} (h : s.Form) : (s.frameEvents l c10 c14 c10' c14').Form := by
  unfold State.frameEvents
  extract_lets s1 s2 s3 s4
  have h1 : s1.Form := .ite h.set1.bump h
  have h2 : s2.Form := .ite h1.set1 h1
  have h3 : s3.Form := .ite h2.set1 h2
  have h4 : s4.Form := .ite h3.set1 h3
  exact .ite h4.upLane.set1 h4
theorem State.Form.linkFrame {l : Nat} {safe : Bool} (h : s.Form) : (s.linkFrame l safe).Form :=
  .ite h.upLane.laneLose (.ite h.upLane.laneState.set1.laneCause h.upLane)
theorem State.Form.upTrain {l : Nat} {f : Train → Train} (h : s.Form) : (s.upTrain l f).Form := h.upLane
theorem State.Form.trainConfig {l : Nat} {r : Train} (h : s.Form) : (s.trainConfig l r).Form := by
  unfold State.trainConfig
  split
  exacts [h.upTrain.queueCmd, .ite h.upTrain.sendSoftoff.queueCmd h.upTrain]
theorem State.Form.trainMeasure {l o : Nat} {r : Train} {f : Train → State} (h : s.Form) (hf : ∀ r, (f r).Form) :
    (s.trainMeasure l r o f).Form := .ite h.upTrain (.ite (hf _) (.ite h.upTrain h.upTrain))
theorem State.Form.trainFrame {l o idx : Nat} {ack : Bool} (h : s.Form) : (s.trainFrame l o idx ack).Form := by
  unfold State.trainFrame
  split
  · exact h
  · refine .ite h ?_
    split
    · exact h.upTrain
    · exact .ite h h.upTrain
    · exact h.trainMeasure (fun _ => .ite (.ite h.upTrain h.put.upTrain.queueTime) h.put.upTrain.queueTime)
    · exact .ite h.trainConfig (h.trainMeasure (fun _ => .ite h.upTrain h.trainConfig))
    · exact .ite h.trainConfig h
    · exact .ite h h.upTrain
    · exact h
theorem State.Form.statusFrame {l : Nat} {bs : List Byte} (h : s.Form) : (s.statusFrame l bs).Form := by
  unfold State.statusFrame
  extract_lets s1 s2 s3 _ _ s4 _ s5 s6 s7 s8 s9
  have h1 : s1.Form := h.bump.upLane
  have h2 : s2.Form := h.lineRun
  have h3 : s3.Form := .ite h2.bump h2
  have h4 : s4.Form := h3.mirrorFrame
  have h5 : s5.Form := h4.upLane
  have h6 : s6.Form := h5.frameEvents
  have h7 : s7.Form := h6.laneCause
  have h8 : s8.Form := .foldl h7 (fun _ _ hy => hy.channelByte)
  have h9 : s9.Form := h8.diagStep
  exact .ite h (.ite h1.upTrain h9.linkFrame.trainFrame)
theorem State.Form.desatClear {l mask : Nat} (h : s.Form) : (s.desatClear l mask).Form :=
  .foldl h (fun _ _ hx => .ite hx (.ite hx.upChan.andn.desatRelease hx.upChan))
theorem State.Form.diagStart {l mask dur : Nat} (h : s.Form) : (s.diagStart l mask dur).Form :=
  .ite h.diagAll h.upLane.queueCmd
theorem State.Form.diagTimeout {l : Nat} (h : s.Form) : (s.diagTimeout l).Form := by
  unfold State.diagTimeout
  dsimp only
  split
  exacts [.ite h.diagAll.upLane h, h]
theorem State.Form.configSend {l addr data : Nat} (h : s.Form) : (s.configSend l addr data).Form :=
  .ite h.set1 h.upLane.queueCmd
theorem State.Form.configTimeout {l : Nat} (h : s.Form) : (s.configTimeout l).Form := .ite h.upLane.set1 h
theorem State.Form.trainStart {l : Nat} (h : s.Form) : (s.trainStart l).Form :=
  .ite h (.ite h.clr.put.set1 h.set1.laneState.upLane)
theorem State.Form.trainEnd {l : Nat} (h : s.Form) : (s.trainEnd l).Form := by
  unfold State.trainEnd
  split
  · exact h
  · split
    · exact h
    · extract_lets s1 s2 s3 s4
      have h2 : s2.Form := h.clr.put.upLane
      have h4 : s4.Form := .ite h2.upLane.mute h2.upLane
      exact .ite h2.laneState.set1 h4.laneState.set1.laneCause
theorem State.Form.laneStops {l : Nat} (h : s.Form) : (s.laneStops l).Form := h.upLane
theorem State.Form.stopLanes (h : s.Form) : s.stopLanes.Form := .foldl h (fun _ _ hx => hx.lineRun.laneStops)
theorem State.Form.laneDisable {l : Nat} (h : s.Form) : (s.laneDisable l).Form := by
  unfold State.laneDisable
  extract_lets s1 s2 s3
  have h1 : s1.Form := h.lineRun.laneState.clr
  have h2 : s2.Form := h1.laneStops.upLane
  have h3 : s3.Form := h2.put.laneSource
  exact .ite h (.foldl h3 (fun _ _ hy => .ite hy.upChan.desatRelease hy.upChan))

/-! ### Machine/Net -/

theorem State.Form.setEgress {p : Nat} {q : List TxFrame} (h : s.Form) : (s.setEgress p q).Form :=
  (h.upNet (by simp [Net.dims])).put
theorem State.Form.enqueue {p : Nat} {f : TxFrame} (h : s.Form) : (s.enqueue p f).Form := .ite h.setEgress h.bump
theorem State.Form.linkChange {p : Nat} {up an : Bool} (h : s.Form) : (s.linkChange p up an).Form := by
  unfold State.linkChange
  extract_lets _ s1 s2 s3 s4
  have h1 : s1.Form := h.put.put
  have h2 : s2.Form := h1.put
  have h3 : s3.Form := .ite h2 h2.set1
  have h4 : s4.Form := .ite h3.bump h3
  exact .ite h3 h4.clr.upPdelay
theorem State.Form.markSent {p t : Nat} {m : PtpMark} (h : s.Form) : (s.markSent p t m).Form := by
  unfold State.markSent
  split
  exacts [h.upPdelay, .ite h h.bump, h]
theorem State.Form.setFwd {p : Nat} {f : Fwd} (h : s.Form) : (s.setFwd p f).Form := h.upNet (by simp [Net.dims])
theorem State.Form.forwardStart {p : Nat} {f : List Byte} {rx : Nat} (h : s.Form) : (s.forwardStart p f rx).Form :=
  .ite h (.ite h.setFwd (.ite h.bump.setFwd (.ite h.bump.setFwd (.ite h.setFwd.markSent h.setFwd))))
theorem State.Form.lineBusy {p x n : Nat} (h : s.Form) : (s.lineBusy p x n).Form := h.upNet (by simp [Net.dims])
theorem State.Form.hasSent {p x : Nat} {f : List Byte} {good : Bool} (h : s.Form) : (s.hasSent p x f good).Form :=
  h.upNet (by simp [Net.dims])
theorem State.Form.forwardEnd {p : Nat} {f : List Byte} {rx : Nat} {good : Bool} (h : s.Form) :
    (s.forwardEnd p f rx good).Form := by
  unfold State.forwardEnd
  split
  · dsimp only
    split
    exacts [h.setFwd.lineBusy.hasSent.bumpWrap, h.setFwd.enqueue, h.setFwd]
  · dsimp only
    split
    exacts [h.setFwd.lineBusy.hasSent.bump, h.setFwd, h.setFwd]
theorem State.Form.egressSend {p : Nat} (h : s.Form) : (s.egressSend p).Form := by
  unfold State.egressSend
  extract_lets _ _ s1
  have h1 : s1.Form := h.setEgress
  clear_value s1
  refine .ite h ?_
  split
  · exact h
  · refine .ite h1.bump ?_
    extract_lets _ s2 s3
    have h3 : s3.Form := h1.markSent.lineBusy.hasSent.bumpWrap
    clear_value s3
    split
    · extract_lets s4 s5
      have h4 : s4.Form := .foldl h3 fun _ _ hx => hx.setEgress
      clear_value s4
      exact (State.Form.ite h4.writeLe.writeLe.writeLe h4.bankViol).set1
    · exact h3
theorem State.Form.takeSeq {pair : Bool} (h : s.Form) : (s.takeSeq pair).1.Form := h
theorem State.Form.sendPrp {f : List Byte} {seq : Nat} {own : Option (Nat × Nat)} (h : s.Form) :
    (s.sendPrp f seq own).1.Form := .foldl_fst h fun _ _ hx => .ite_fst hx hx.enqueue
theorem State.Form.txFail {d w1 err : Nat} (h : s.Form) : (s.txFail d w1 err).Form := h.writeLe.set1
theorem State.Form.hostTx {i : Nat} {errs : List RowErr} (h : s.Form) : (s.hostTx i errs).Form := by
  have stop {t : State} (ht : t.Form) : (t.upNet fun n => { n with tx := n.tx.set i false }).Form :=
    ht.upNet (by simp [Net.dims])
  refine .ite h ?_
  dsimp only
  refine .ite (stop h).bankViol (.ite (stop h.meetRows) ?_)
  have hm {p q : Nat → Bool} {a b : List RowErr} : ((s.meetRows p a).1.meetRows q b).1.Form := h.meetRows.meetRows
  exact .ite h.meetRows.txFail.put (.ite h.meetRows.bankViol.txFail.put (.ite hm.txFail.put (.ite hm.takeSeq.writeLe.put
    (.ite (.ite hm hm.takeSeq.sendPrp.put) (.ite hm.put (.ite hm hm.enqueue.put))))))
theorem State.Form.hostRx {i p sfd : Nat} {f : List Byte} {rct : Option (Nat × Nat)} {wrong : Bool} (h : s.Form) :
    (s.hostRx i p sfd f rct wrong).Form :=
  .ite h.bankViol.bump.set1 (.ite h.bump.set1 (.ite h.bankViol.bump.set1
    h.writeBytes.writeLe.writeLe.writeLe.put.set1))
theorem State.Form.filterWrite {f slot stamp : Nat} {vals : List Nat} (h : s.Form) :
    (s.filterWrite f slot stamp vals).Form := by
  unfold State.filterWrite
  extract_lets _ _ s1 _ s2
  have h1 : s1.Form := h.put
  have h2 : s2.Form := h1.writeBytes
  exact h2.writeLe
theorem State.Form.filterTake {f : Nat} {body : List Byte} (h : s.Form) : (s.filterTake f body).Form :=
  .ite h.filterWrite (.ite (h.twSend.with_twn rfl) h)
theorem State.Form.slotSend {n ecc : Nat} (h : s.Form) : (s.slotSend n ecc).Form := by
  unfold State.slotSend
  extract_lets s1
  have h1 : s1.Form := h.upNet rfl
  split
  · exact h
  · refine .ite h1 ?_
    split
    · dsimp only
      split
      exacts [h1.meetRows.bump, .ite h1.meetRows.takeSeq h1.meetRows.takeSeq.sendPrp.bump.bump]
    · dsimp only
      split
      exacts [h1.meetRows.bump, .ite h1.meetRows.takeSeq h1.meetRows.takeSeq.sendPrp.bump.bump]
theorem State.Form.supervision (h : s.Form) : s.supervision.Form := .ite h (h.upNet rfl).takeSeq.sendPrp
theorem State.Form.beaconSend (h : s.Form) : s.beaconSend.Form := .ite h (h.upNet rfl).takeSeq.sendPrp
theorem State.Form.showCommons (h : s.Form) : s.showCommons.Form := h.put.put
theorem State.Form.setPeer {i : Nat} {p : Peer} (h : s.Form) : (s.setPeer i p).Form := (h.upNet rfl).showCommons
theorem State.Form.dropPeer {i : Nat} (h : s.Form) : (s.dropPeer i).Form := (h.upNet rfl).showCommons
theorem State.Form.genStep {i : Nat} (h : s.Form) : (s.genStep i).Form := (h.upNet rfl).bumpWrap
theorem State.Form.addPeer {p : Peer} (h : s.Form) : (s.addPeer p).1.Form := by
  unfold State.addPeer
  split
  · exact h.genStep.setPeer
  · split
    exacts [h.bump.set1.genStep.setPeer, h]
theorem State.Form.offer {port : Nat} {body : List Byte} (h : s.Form) : (s.offer port body).Form := by
  refine .ite h ?_
  dsimp only
  split
  · exact .setPeer (.ite h.set1 h)
  · split
    · next e => exact (h.addPeer.of_fst e).set1
    · next e => exact (h.addPeer.of_fst e).bump.set1
theorem State.Form.commonsTick (h : s.Form) : s.commonsTick.Form :=
  .foldl h (fun _ _ hx => .ite (.ite hx hx.setPeer.set1) (.ite hx.genStep.dropPeer.set1 hx))
theorem State.Form.commonsCmd {i : Nat} {f : State → State} (h : s.Form) (hf : ∀ s : State, s.Form → (f s).Form) :
    (s.commonsCmd i f).Form := .ite h.put (.ite h.set1.clr.put (hf _ h.set1.clr))
theorem State.Form.commonsRead {i : Nat} (h : s.Form) : (s.commonsRead i).Form := by
  unfold State.commonsRead
  split
  exacts [.foldl h (fun _ _ hy => hy.put), .put (.foldl h (fun _ _ hy => hy.put))]
theorem State.Form.commonsPin {i : Nat} {pin : Bool} (h : s.Form) : (s.commonsPin i pin).Form := by
  unfold State.commonsPin
  split
  exacts [.setPeer (.ite h.set1 h), h.put]
theorem State.Form.commonsDelete {i : Nat} (h : s.Form) : (s.commonsDelete i).Form := by
  unfold State.commonsDelete
  split
  exacts [h.genStep.dropPeer, h.put]
theorem State.Form.commonsPreset (h : s.Form) : s.commonsPreset.Form := by
  unfold State.commonsPreset; dsimp only
  split
  · exact h.setPeer
  · split
    · next e => exact h.addPeer.of_fst e
    · next e => exact (h.addPeer.of_fst e).put
theorem State.Form.ddExpire (h : s.Form) : s.ddExpire.Form := h.upNet rfl
theorem State.Form.ddLookup {sa seq : Nat} (h : s.Form) : (s.ddLookup sa seq).1.Form :=
  .ite_fst h.ddExpire.bump (.upNet (.ite h.ddExpire.bump.set1 h.ddExpire) rfl)
theorem State.Form.toIsland {p : Nat} {f : List Byte} {n : Nat} (h : s.Form) : (s.toIsland p f n).Form :=
  .ite h.bump (h.upIsle rfl)
theorem State.Form.toTime {p : Nat} {f : List Byte} (h : s.Form) : (s.toTime p f).Form :=
  .ite (.bump (.ite h.bump h)) (.ite h.bump h)
theorem State.Form.consume {p sfd : Nat} {f : List Byte} (h : s.Form) : (s.consume p sfd f).Form := by
  unfold State.consume
  refine .ite h.bump ?_
  refine .ite h.bump ?_
  split
  · split
    · dsimp only
      split
      · exact .ite (.ddLookup (.bump (.ite h.offer h))) (.toTime (.ddLookup (.bump (.ite h.offer h))))
      · exact .ite (.ddLookup (.ite h.offer h)) (.toTime (.ddLookup (.ite h.offer h)))
    · split
      · split
        · dsimp only
          split
          · exact .ite (.ddLookup (.bump (.ite h.offer h))) (.toIsland (.ddLookup (.bump (.ite h.offer h))))
          · exact .ite (.ddLookup (.ite h.offer h)) (.toIsland (.ddLookup (.ite h.offer h)))
        · dsimp only
          split
          · exact .ite (.ddLookup (.bump (.ite h.offer h))) (.toIsland (.ddLookup (.bump (.ite h.offer h))))
          · exact .ite (.ddLookup (.ite h.offer h)) (.toIsland (.ddLookup (.ite h.offer h)))
      · split
        · dsimp only
          split
          · refine .ite (.ddLookup (.bump (.ite h.offer h))) ?_
            split
            · exact .filterTake (.ddLookup (.bump (.ite h.offer h)))
            · exact .hostRx (.ddLookup (.bump (.ite h.offer h)))
          · refine .ite (.ddLookup (.ite h.offer h)) ?_
            split
            exacts [.filterTake (.ddLookup (.ite h.offer h)), .hostRx (.ddLookup (.ite h.offer h))]
        · dsimp only
          split
          · exact .ite (.ddLookup (.bump (.ite h.offer h))) (.hostRx (.ddLookup (.bump (.ite h.offer h))))
          · exact .ite (.ddLookup (.ite h.offer h)) (.hostRx (.ddLookup (.ite h.offer h)))
  · split
    · exact .ite (.bump (.ite h.offer h)) (.toTime (.bump (.ite h.offer h)))
    · split
      · exact .ite (.bump (.ite h.offer h)) (.toIsland (.bump (.ite h.offer h)))
      · split
        · dsimp only
          split
          · exact .bump (.ite h.offer h)
          · split
            exacts [.filterTake (.bump (.ite h.offer h)), .hostRx (.bump (.ite h.offer h))]
        · exact .ite (.bump (.ite h.offer h)) (.hostRx (.bump (.ite h.offer h)))
theorem State.Form.consumeS {sfd : Nat} {f : List Byte} (h : s.Form) : (s.consumeS sfd f).Form :=
  .ite h.bump (.ite h.bump h.hostRx)
theorem State.Form.rxHold {p cls n : Nat} (h : s.Form) : (s.rxHold p cls n).Form := by
  unfold State.rxHold; exact .with_net h.with_drawn (by simp [Net.dims])
theorem State.Form.frameReceive {p : Nat} {f : List Byte} {fcsOk : Bool} {sfd : Nat} (h : s.Form) :
    (s.frameReceive p f fcsOk sfd).Form := by
  unfold State.frameReceive
  extract_lets _ _ _ s1 s2 _ s3
  have h1 : s1.Form := .ite h.forwardStart.forwardEnd h
  have h2 : s2.Form := h1.bumpWrap
  have h3 : s3.Form := h2.rxHold
  refine .ite h (.ite h1.bump (.ite h1.bump (.ite h2.bump.set1 (.ite h2 (.ite h2.bump ?_)))))
  exact .ite h3.consume h3.consumeS

/-! ### Machine/Time -/

theorem State.Form.setTd {d v : Nat} (h : s.Form) : (s.setTd d v).Form :=
  .ite h (.showTimeOk (.ite h.put.set1.upDom.upDom h.put.set1.upDom))
theorem State.Form.tdEnable {d : Nat} (h : s.Form) : (s.tdEnable d).Form :=
  .ite h.setTd (.ite (.ite h.setTd h) h.setTd)
theorem State.Form.setRate {x : Int × Nat} (h : s.Form) : (s.setRate x).Form := by
  unfold State.setRate
  extract_lets _ _ s1 s2 s3
  have h1 : s1.Form := .ite h.opsecNow h
  have h2 : s2.Form := .ite h1.set1 h1
  have h3 : s3.Form := h2.put.put
  exact .ite h3.put h3
theorem State.Form.setY {d : Nat} {y : Int × Nat} (h : s.Form) : (s.setY d y).Form := h.upDom.put
theorem State.Form.slewCheck {o : Int} (h : s.Form) : (s.slewCheck o).Form := .ite h.clr.set1.showTimeOk h
theorem State.Form.switchDomain {d : Nat} (h : s.Form) : (s.switchDomain d).Form :=
  .ite h (.showTimeOk (.set1 (.set1 (.put (.ite h.setY.setY.upDom h.setY.setY.upDom.setRate)))))
theorem State.Form.domainReturn (h : s.Form) : s.domainReturn.Form := .ite h (.ite h h.switchDomain)
theorem State.Form.holdover {d : Nat} (h : s.Form) : (s.holdover d).Form :=
  .ite h (.ite h.setTd.switchDomain.upDom h.setTd)
theorem State.Form.holdoverAll (h : s.Form) : s.holdoverAll.Form := .foldl h (fun _ _ hx => .ite hx.setTd hx)
theorem State.Form.servoHold {on : Bool} (h : s.Form) : (s.servoHold on).Form := h.put.tdEnable.tdEnable
theorem State.Form.syncTimeout {d : Nat} (h : s.Form) : (s.syncTimeout d).Form := by
  unfold State.syncTimeout
  split
  exacts [.ite h.holdover h, h]
theorem State.Form.selectMaster {d : Nat} (h : s.Form) : (s.selectMaster d).Form := by
  unfold State.selectMaster
  split
  · exact h.clr
  · extract_lets moved s1 s2 s3 s4 s5 s6 s7 s8 s9
    have h7 : s7.Form := h.put.set1.put.put.put.put.put.put
    have h9 : s9.Form := .upDom (.ite h7 h7.put.set1)
    exact .ite (.ite h9.setTd.setTd h9.setTd) (.ite h9.set1.showTimeOk h9)
theorem State.Form.tdConfig {d : Nat} (h : s.Form) : (s.tdConfig d).Form := .ite h.tdEnable.selectMaster h.tdEnable
theorem State.Form.announceIn {d p : Nat} {m : PtpAnnounce} (h : s.Form) : (s.announceIn d p m).Form :=
  .ite h.tdEnable (.ite h.tdEnable h.tdEnable.upDom.selectMaster)
theorem State.Form.announce {p : Nat} {m : PtpAnnounce} (h : s.Form) : (s.announce p m).Form :=
  h.announceIn.announceIn
theorem State.Form.announceTimeout {d : Nat} (h : s.Form) : (s.announceTimeout d).Form :=
  .ite h.upDom (.selectMaster (.ite h.upDom.bump.holdover h.upDom))
theorem State.Form.ttLate {k : Nat} (h : s.Form) : (s.ttLate k).Form := h.orr.set1
theorem State.Form.ttRequest {k : Nat} (h : s.Form) : (s.ttRequest k).Form := h.upTrig
theorem State.Form.ttEnable {k : Nat} (h : s.Form) : (s.ttEnable k).Form := by
  unfold State.ttEnable
  extract_lets s1 _ _
  have h1 : s1.Form := h.upTrig
  split
  · exact h
  · exact .ite h (.ite h1.upTrig (.ite h1 (.ite h1.upTrig (.ite h1.clr.ttLate h1.bump.ttLate.upTrig))))
theorem State.Form.ttFire {k : Nat} (h : s.Form) : (s.ttFire k).Form := by
  unfold State.ttFire
  extract_lets s1 _
  have h1 : s1.Form := h.orr.bumpWrap.set1
  split
  · exact h
  · exact .ite h (.foldl (.syncTrigger (.ite h1.upTrig.clr.upTrig h1.upTrig)) (fun _ _ hz => .ite hz.pwmFiring hz))
theorem State.Form.ttSkip {k : Nat} (h : s.Form) : (s.ttSkip k).Form := by
  unfold State.ttSkip
  split
  exacts [h, .ite h (.ite h.bump.clr.upTrig h.bump.upTrig)]
theorem State.Form.moveClocks {o : Nat} (h : s.Form) : (s.moveClocks o).Form :=
  h.of_eq rfl (by simp [State.dims, State.moveClocks, Net.dims, Net.moved, Island.dims, Twin.dims, Twin.moved, HltState.moved,
    Power.moved])
theorem State.Form.stepTb {o : Nat} (h : s.Form) : (s.stepTb o).Form := by
  unfold State.stepTb
  extract_lets s1 s2 s3 s4
  have h1 : s1.Form := h.moveClocks
  have h2 : s2.Form := h1.with_tb
  have h3 : s3.Form := h2.bump.set1.set1
  have h4 : s4.Form := .foldl h3 (fun _ _ hy => hy.ttSkip)
  exact .foldl h4 (fun _ _ hy => .ite hy.upGroup.groupFollow hy)
theorem State.Form.servo {d : Nat} {m t2 log : Int} (h : s.Form) : (s.servo d m t2 log).Form := by
  unfold State.servo
  extract_lets s1 s2 s3 _ _ s4 _ _ _ s5 s6 _ _ s7 _ _ _ s8 _ s9 s10
  have h3 : s3.Form := (State.Form.ite h.put.setTd h.put).bumpWrap
  clear_value s3
  have h4 : s4.Form := by
    dsimp only [s4]
    split
    exacts [.ite h3.setY h3, h3]
  clear_value s4
  have h6 : s6.Form := .ite (.set1 (.ite h4.stepTb h4)) (.ite h4.stepTb h4)
  clear_value s6
  have h8 : s8.Form := .ite h6.put.slewCheck h6.put
  clear_value s8
  have h10 : s10.Form := .ite (.setRate (.ite h8.setY h8)) (.ite h8.setY h8)
  clear_value s10
  split
  exact .domainReturn (.ite h10.upDom.setTd (.ite h10.upDom.setTd h10.upDom))
theorem State.Form.syncFor {d p : Nat} {y : PtpSync} (h : s.Form) : (s.syncFor d p y).Form :=
  .ite h.tdEnable (.ite h.tdEnable (.ite h.tdEnable.set1 (.ite h.tdEnable.servo h.tdEnable.put)))
theorem State.Form.syncDone {p : Nat} {y : PtpSync} (h : s.Form) : (s.syncDone p y).Form := h.syncFor.syncFor
theorem State.Form.syncMessage {p : Nat} {y : PtpSync} (h : s.Form) : (s.syncMessage p y).Form :=
  .ite h (.ite h.upDom h.syncDone)
theorem State.Form.followUp {p : Nat} {m : PtpSync} (h : s.Form) : (s.followUp p m).Form := by
  unfold State.followUp
  dsimp only
  split
  exacts [h, h.upDom.syncDone]
theorem State.Form.pdelayFail {p : Nat} (h : s.Form) : (s.pdelayFail p).Form :=
  .ite h.bump.upPdelay.clr h.bump.upPdelay
theorem State.Form.pdelayTimeout {p : Nat} (h : s.Form) : (s.pdelayTimeout p).Form := by
  unfold State.pdelayTimeout
  split
  exacts [.ite h.pdelayFail h, h]
theorem State.Form.pdelaySend {p : Nat} (h : s.Form) : (s.pdelaySend p).Form :=
  .ite h (.enqueue (.upPdelay (.ite h.pdelayFail h)))
theorem State.Form.pdelayAnswer {p ident seq dom : Nat} {cf rx : Int} (h : s.Form) :
    (s.pdelayAnswer p ident seq dom cf rx).Form :=
  .ite h h.enqueue
theorem State.Form.pdelayResult {p : Nat} {d : Int} (h : s.Form) : (s.pdelayResult p d).Form :=
  .ite h.pdelayFail h.upPdelay.put.set1
theorem State.Form.pdelayResp {p : Nat} {fu : Bool} {seq : Nat} {two : Bool} {stamp cf rx : Int} (h : s.Form) :
    (s.pdelayResp p fu seq two stamp cf rx).Form := by
  unfold State.pdelayResp
  split
  · exact h
  · refine .ite h ?_
    refine .ite ?_ ?_
    · split
      exacts [h, h.pdelayResult]
    · exact .ite h.upPdelay h.pdelayResult

/-! ### Machine/Twin -/

theorem State.Form.twinLane {l : Nat} {up : Bool} (h : s.Form) : (s.twinLane l up).Form := by
  unfold State.twinLane
  extract_lets s1
  have h1 : s1.Form := h.put
  clear_value s1
  exact .ite h1 (h1.set1.upTwn (by simp [Twin.dims]))
theorem State.Form.joinFail {code : Nat} (h : s.Form) : (s.joinFail code).Form :=
  (h.put.set1.upTwn rfl).clr.showTimeOk.showAllLive
theorem State.Form.joinCrcs {u : Nat} (h : s.Form) : (s.joinCrcs u).Form := .foldl h (fun _ _ hx => hx.twSend)
theorem State.Form.joinAsk {full : Bool} {units : List Nat} (h : s.Form) : (s.joinAsk full units).Form :=
  .twSend (.ite (h.upTwn rfl) (.foldl (h.upTwn rfl) (fun _ _ hx => hx.joinCrcs)))
theorem State.Form.joinLanes (h : s.Form) : s.joinLanes.Form := by
  unfold State.joinLanes
  split
  exacts [.ite h (.ite h.joinFail (.ite (h.upTwn rfl) h)), h]
theorem State.Form.joinTimed (h : s.Form) : s.joinTimed.Form := by
  unfold State.joinTimed
  split
  exacts [.ite (h.upTwn rfl).joinAsk h, h]
theorem State.Form.joinStart (h : s.Form) : s.joinStart.Form := by
  unfold State.joinStart
  split
  exacts [h, .ite h (.ite h.joinFail (.ite h.joinFail (h.clr.put.upTwn rfl).joinTimed))]
theorem State.Form.autojoin (h : s.Form) : s.autojoin.Form := .ite h.joinStart h
theorem State.Form.joinComplete (h : s.Form) : s.joinComplete.Form := by
  have hr : s.twn.runOk.length = 8 := h.shaped.twn.1
  exact .set1 (.fsRelease (.setTwState (.foldl (h.upTwn (by simp [Twin.dims, hr])) fun _ _ hx => hx.clr)))
theorem State.Form.oneJoin {u : Nat} (h : s.Form) : (s.oneJoin u).Form := (h.upTwn rfl).joinAsk
theorem State.Form.oneJoinLate {u : Nat} (h : s.Form) : (s.oneJoinLate u).Form := .ite h.put.set1.oneJoin h
theorem State.Form.joinTimeout (h : s.Form) : s.joinTimeout.Form := by
  unfold State.joinTimeout
  split
  · split
    exacts [.ite h.joinFail h, h]
  · exact .foldl h (fun _ _ hy => hy.oneJoinLate)
theorem State.Form.joinTimeExpiry (h : s.Form) : s.joinTimeExpiry.Form := by
  unfold State.joinTimeExpiry
  split
  exacts [.ite h.joinFail h, h]
theorem State.Form.unmuteGroup {g : Nat} (h : s.Form) : (s.unmuteGroup g).Form :=
  .foldl h (fun _ _ hx => hx.unmute.unmute)
theorem State.Form.unmuteCarried (h : s.Form) : s.unmuteCarried.Form := .foldl h (fun _ _ hx => hx.unmuteGroup)
theorem State.Form.tryRelease (h : s.Form) : s.tryRelease.Form := by
  unfold State.tryRelease
  refine .ite h ?_
  refine .ite h.setTwState.set1.unmuteCarried.showCarry ?_
  refine .ite ?_ ?_
  · refine .showCarry ?_
    refine .foldl ?_ fun _ _ h4 => ?_
    · exact h
    · split
      exacts [.ite h4 (.unmuteGroup (.foldl h4 (fun _ _ h6 => h6.unmute))), h4]
  · exact h
theorem State.Form.sendItems {l : List JoinItem} (h : s.Form) : (s.sendItems l).Form :=
  .foldl h (fun _ _ hx => (hx.twSend.upTwn rfl))
theorem State.Form.blockKnown {b : Nat × Nat} (h : s.Form) : (s.blockKnown b).Form := h.upTwn rfl
theorem State.Form.sendBlock {b : Nat × Nat} (h : s.Form) : (s.sendBlock b).Form := h.sendItems.blockKnown
theorem State.Form.serveReset (h : s.Form) : s.serveReset.Form := by
  unfold State.serveReset
  split
  exacts [.ite h.twSend.with_scr h.twSend, h]
theorem State.Form.serveJoin {full : Bool} {units : List Nat} (h : s.Form) : (s.serveJoin full units).Form := by
  unfold State.serveJoin
  extract_lets s1 s2 s3
  have h1 : s1.Form := h.upTwn rfl
  have h2 : s2.Form := .ite h1.serveReset h1
  have h3 : s3.Form := .ite (.foldl h2 (fun _ _ hy => hy.sendBlock)) h2
  exact .ite h (h3.twSend.upTwn rfl)
theorem State.Form.asOf {g x : Nat} (h : s.Form) : (s.asOf g x).Form := by
  unfold State.asOf
  extract_lets s1 s2
  have h1 : s1.Form := h.with_tb
  have h2 : s2.Form := .foldl h1 (fun _ _ hy => hy.groupLoad)
  exact .upToDate (.foldl h2 (fun _ _ hy => .foldl hy (fun _ _ hz => hz.edgeSend)))
theorem State.Form.joinRound {n : Nat} (h : s.Form) : (s.joinRound n).Form :=
  .ite h (.upTwn (.twSend (.sendItems (.foldl h (fun _ _ hx => hx.sendBlock)))) rfl)
theorem State.Form.runEndAll {n ce : Nat} (h : s.Form) : (s.runEndAll n ce).Form :=
  .tryRelease (.ite (.joinRound (.moveBoundary (.runEnd (.ite h.bump h)))) (.moveBoundary (.runEnd (.ite h.bump h))))
theorem State.Form.joinLost (h : s.Form) : s.joinLost.Form := .ite h.joinFail h.put.set1.joinAsk
theorem State.Form.joinBulk {n : Nat} (h : s.Form) : (s.joinBulk n).Form := .ite (h.upTwn rfl) (h.upTwn rfl).joinLost
theorem State.Form.joinFinal {u x n : Nat} (h : s.Form) : (s.joinFinal u x n).Form := by
  unfold State.joinFinal
  extract_lets _ _ s1 _ s2 s3 s4 s5 s6
  have h1 : s1.Form := h.upTwn rfl
  have h2 : s2.Form := h1.upTwn (by simp [Twin.dims])
  have h3 : s3.Form := h2.upEng
  have h4 : s4.Form := h3.clr.showLive
  have h5 : s5.Form := h1.upTwn rfl
  have h6 : s6.Form := .ite h5 h5.joinCrcs
  exact .ite (.ite h4 (.ite h4.joinComplete h4)) h6.joinTimeout
theorem State.Form.joinPeriod {g period shadow : Nat} {loads : List (Nat × Nat × List (Nat × Nat))} {cnt : Nat} {anchor : Int}
    (h : s.Form) : (s.joinPeriod g period shadow loads cnt anchor).Form := by
  unfold State.joinPeriod
  extract_lets s1 s2 s3 _ s4 _ _
  have h1 : s1.Form := h.put
  have h2 : s2.Form := h1.upGroup
  have h3 : s3.Form := h2.put.put
  have h4 : s4.Form := h3.put
  split
  exacts [h4, .ite h4.upGroup h4.startPeriods]
theorem State.Form.joinApply {a : JoinItem} (h : s.Form) : (s.joinApply a).Form := by
  unfold State.joinApply
  split
  exacts [.ite h.joinPeriod h, .ite h.put.put h, .ite h.put h, h.put, .ite h.put h, h]
theorem State.Form.joinAtX (h : s.Form) : s.joinAtX.Form := .ite h (.foldl (h.upTwn rfl) (fun _ _ hx => hx.joinApply))
theorem State.Form.joinTake {i : JoinItem} (h : s.Form) : (s.joinTake i).Form := by
  unfold State.joinTake
  extract_lets _ s1
  have h1 : s1.Form := .ite (h.upTwn rfl) h
  split
  · exact .ite (h1.writeBytes.upTwn rfl).put h1
  · exact h1.upEng.put.put.put.put
  · exact h1.upTwn rfl
  · exact h1.upTwn rfl
  · exact h1.upTwn rfl
  · exact h1.upTwn rfl
  · exact h1.upTwn rfl
  · exact .ite h1 (h1.upTwn rfl)
  · exact .ite h1.joinFinal h1
  · exact h1.joinBulk
  · split
    exacts [.joinLanes (.foldl (h1.upTwn rfl) (fun _ _ h3 => .ite h3 h3.trainStart)), h1]
  · exact h1
theorem State.Form.stateFrame {i : JoinItem} (h : s.Form) : (s.stateFrame i).Form := by
  unfold State.stateFrame
  split
  exacts [h.serveJoin, h.serveReset, .ite h (.ite h.sendBlock h.blockKnown), .ite h.joinTake h]
theorem State.Form.sheetStart {sheet : Nat} (h : s.Form) : (s.sheetStart sheet).Form := by
  unfold State.sheetStart
  extract_lets _ _ s1 s2 s3 s4
  have h1 : s1.Form := h.setQuiesced
  have h2 : s2.Form := h1.put
  have h3 : s3.Form := by
    refine .ite h2.oneJoin ?_
    split
    · exact .ite (.unmuteGroup (.foldl h2 (fun _ _ h3 => h3.unmute))) (.foldl h2 (fun _ _ h3 => h3.unmute))
    · exact h2
  have h4 : s4.Form := .ite h3 h3.engRelease
  split
  exacts [h4.updBlock, h4]
theorem State.Form.crossCheck {n tick : Nat} {w : Nat × Int × Nat} (h : s.Form) : (s.crossCheck n tick w).Form := by
  unfold State.crossCheck
  split
  extract_lets _ _ _ _ s1 s2
  have h1 : s1.Form := h.upTwn rfl
  have h2 : s2.Form := .ite h1.orr.set1.hltReason h1
  clear_value s2
  split
  · exact .ite (.ite h2.joinFail (h2.upTwn rfl).twSend) h2
  · exact h2
theorem State.Form.runRecord {u num stamp merged : Nat} {fix : Fixed} (h : s.Form) :
    (s.runRecord u num stamp merged fix).Form := by
  unfold State.runRecord
  extract_lets _ s1 _ _
  have h1 : s1.Form := .foldl h (fun _ _ hy => hy.crossCheck)
  exact .ite h (.ite h1.upEng h1.upEng)
theorem State.Form.holdRecord {h : Held} (hs : s.Form) : (s.holdRecord h).Form := hs.upTwn rfl
theorem State.Form.journalEffect {addr v : Nat} (h : s.Form) : (s.journalEffect addr v).Form := by
  unfold State.journalEffect
  split
  · exact .ite (.coefSwap (.ite h.recipeSwap h)) (.ite h.recipeSwap h)
  · split
    · exact h.put.put
    · split
      · exact h.stageWrite
      · refine .ite h.gload ?_
        split
        · exact h.shadowPeriod
        · split
          · exact .ite h.requestLoad h
          · split
            · exact h.put
            · split
              · exact h.put
              · split
                · exact h.shadowDuty
                · split
                  · exact .ite h.fmxClear h
                  · split
                    exacts [h.desatClear, h]
theorem State.Form.journalApply (h : s.Form) : s.journalApply.Form := by
  unfold State.journalApply
  refine .foldl ?_ fun _ _ h0 => ?_
  · exact h.upTwn rfl
  · split
    exacts [h0.journalEffect, h0.filterWrite]
theorem State.Form.checkpointIn {n num idx crc : Nat} (h : s.Form) : (s.checkpointIn n num idx crc).Form := by
  unfold State.checkpointIn
  split
  · dsimp only
    split
    · exact .tryRelease (.compareChk (.upTwn (h.upTwn (by simp [Twin.dims])) (by simp [Twin.dims])))
    · exact .upTwn (h.upTwn (by simp [Twin.dims])) (by simp [Twin.dims])
  · dsimp only
    split
    exacts [.tryRelease (.compareChk (h.upTwn (by simp [Twin.dims]))), h.upTwn (by simp [Twin.dims])]
theorem State.Form.checkpointTimeout {n : Nat} (h : s.Form) : (s.checkpointTimeout n).Form := by
  unfold State.checkpointTimeout
  split
  exacts [.ite (h.upTwn (by simp [Twin.dims])) (.diverge (h.upTwn (by simp [Twin.dims]))), h]
theorem State.Form.verdict {n : Nat} {loserIsB : Bool} (h : s.Form) : (s.verdict n loserIsB).Form :=
  .ite h (.ite h.divLose h.divWin)
theorem State.Form.verdictTimeout (h : s.Form) : s.verdictTimeout.Form := by
  unfold State.verdictTimeout
  split
  exacts [.ite h.divLose h, h]
theorem State.Form.showHealthy (h : s.Form) : s.showHealthy.Form := (h.upTwn rfl).put
theorem State.Form.healthSend (h : s.Form) : s.healthSend.Form := .ite h h.showCarry.put.put.showHealthy.healthPush
theorem State.Form.handoverRequest {reason : Nat} (h : s.Form) : (s.handoverRequest reason).Form :=
  .ite h (.ite h.set1 (h.upTwn rfl).put.setTwState)
theorem State.Form.steer (h : s.Form) : s.steer.Form := by
  unfold State.steer
  split
  exacts [h, .ite h (.ite h (h.set1.showTimeOk.with_drawn.setRate.upTwn rfl))]
theorem State.Form.steerReturn (h : s.Form) : s.steerReturn.Form := by
  unfold State.steerReturn
  split
  exacts [.ite (h.clr.set1.setRate.upTwn rfl).showTimeOk h, h]
theorem State.Form.carryJudge {h : Health} {g : Nat} (hs : s.Form) : (s.carryJudge h g).Form := by
  unfold State.carryJudge
  extract_lets _ _ s1
  have h1 : s1.Form := hs.partnerGone
  refine .ite hs ?_
  refine .ite hs ?_
  split
  · exact .ite (.updBlock (.foldl (.with_twn h1.put (by simp [Twin.dims])) (fun _ _ h4 => h4.unmute))) h1
  · exact h1
theorem State.Form.showPaired (h : s.Form) : s.showPaired.Form :=
  .foldl h.refreshPaired (fun _ _ hx => .ite hx.put.sheetStart hx)
theorem State.Form.pairMoves {h : Health} (hs : s.Form) : (s.pairMoves h).Form := by
  unfold State.pairMoves
  refine .ite hs.goDegraded ?_
  refine .ite hs.setTwState.fsRelease.unmuteCarried.showCarry ?_
  refine .ite ?_ ?_
  · split
    exacts [.setTwState (.put (hs.upTwn (by simp [Twin.dims]))), hs]
  · exact .ite hs.handoverRequest hs
theorem State.Form.health {h : Health} {rx : Nat} (hs : s.Form) : (s.health h rx).Form := by
  unfold State.health
  refine .ite ?_ ?_
  · refine .ite ?_ ?_
    · refine .joinFail ?_
      split
      · exact .put (.put (.put (.put (.put (hs.upTwn (by simp [Twin.dims]))))))
      · exact .put (.put (.put (.put (hs.upTwn (by simp [Twin.dims])))))
    · split
      · exact .put (.put (.put (.put (.put (hs.upTwn (by simp [Twin.dims]))))))
      · exact .put (.put (.put (.put (hs.upTwn (by simp [Twin.dims])))))
  · refine .showCarry ?_
    refine .showHealthy ?_
    refine .upTwn ?_ rfl
    refine .steer ?_
    refine .joinTimed ?_
    refine .pairMoves ?_
    refine .foldl ?_ fun _ _ h7 => ?_
    · refine .showPaired ?_
      split
      · exact .put (.put (.put (.put (.put (hs.upTwn (by simp [Twin.dims]))))))
      · exact .put (.put (.put (.put (hs.upTwn (by simp [Twin.dims])))))
    · exact h7.carryJudge
theorem State.Form.linkLost (h : s.Form) : s.linkLost.Form := by
  unfold State.linkLost
  extract_lets _ s1 s2 _ s3 _
  have h1 : s1.Form := h.set1.clr
  have h2 : s2.Form := h1.upTwn rfl
  have h3 : s3.Form := .ite h2.joinFail h2
  exact .ite h (.ite (.ite h3.partnerStops h3.goDegraded) (.ite (.ite h2.goJoining.partnerStops h2.goDegraded)
    h2.partnerStops))
theorem State.Form.joinWait (h : s.Form) : s.joinWait.Form := by
  unfold State.joinWait
  split
  exacts [.ite h.goDegraded h, h]
theorem State.Form.leave (h : s.Form) : s.leave.Form := .ite (h.goJoining.with_twn rfl) h
theorem State.Form.tbLimit (h : s.Form) : s.tbLimit.Form := by
  unfold State.tbLimit
  split
  exacts [.ite h.set1.goJoining h, h]
theorem State.Form.handoverInstant (h : s.Form) : s.handoverInstant.Form := by
  unfold State.handoverInstant
  split
  exacts [.ite h (.ite (h.put.upTwn rfl).healthPush.clr.setRate.showTimeOk (h.put.upTwn rfl).healthPush), h]
theorem State.Form.handoverEnd (h : s.Form) : s.handoverEnd.Form := by
  unfold State.handoverEnd
  split
  exacts [.ite h (h.upTwn rfl).bump.set1.setTwState.unmuteCarried, h]
theorem State.Form.revertExpiry (h : s.Form) : s.revertExpiry.Form := by
  unfold State.revertExpiry
  dsimp only
  split
  exacts [.ite (h.showHealthy.upTwn rfl) h.showHealthy, h.showHealthy]
theorem State.Form.timeHandover (h : s.Form) : s.timeHandover.Form := by
  unfold State.timeHandover
  split
  exacts [.ite h.handoverRequest h, h]

/-! ### Machine/Clock -/

theorem State.Form.showDll {was : Nat} (h : s.Form) : (s.showDll was).Form := .ite h.put h.put.clr
theorem State.Form.refChange (h : s.Form) : s.refChange.Form := h.put.put.bump.set1
theorem State.Form.acquire (h : s.Form) : s.acquire.Form :=
  .ite h (.ite (.put (.with_clk (.ite h.put h.refChange) rfl)) h)
theorem State.Form.acquireFail (h : s.Form) : s.acquireFail.Form := by
  unfold State.acquireFail
  extract_lets _ _ _ _ s1 s2 s3
  have h1 : s1.Form := .put (h.with_clk rfl)
  have h2 : s2.Form := .ite h1.clr h1
  have h3 : s3.Form := .ite h2.set1.hltReason h2
  exact h3.acquire
theorem State.Form.loseLock {cls : Nat} (h : s.Form) : (s.loseLock cls).Form := by
  have stopped {t : State} (ht : t.Form) {c : Clock} (hc : c.dly = t.clk.dly) :
    ({ t.stopLanes with clk := c } : State).Form :=
    ht.stopLanes.with_clk (by rw [hc, ht.clk_dly, ht.stopLanes.clk_dly])
  refine .ite (.ite h h.acquireFail) (.ite h (.holdoverAll (.fsAssert
    (.with_clk (.ite (.hltReason (stopped ?_ rfl)) ?_) rfl))))
  all_goals exact h.put.clr.set1.put.put.bump
theorem State.Form.referenceAbsent {r : Nat} (h : s.Form) : (s.referenceAbsent r).Form :=
  .ite h.clr.showDll (.ite (.ite h.clr.showDll.refChange.acquireFail h.clr.showDll.refChange) h.clr.showDll.loseLock)
theorem State.Form.referencePresent {r : Nat} (h : s.Form) : (s.referencePresent r).Form :=
  .ite h (.ite h.set1.showDll.acquire h.set1.showDll)
theorem State.Form.rebaseRuns {dll : Bool} (h : s.Form) : (s.rebaseRuns dll).Form := by
  have he : s.opsecNow.engs = s.engs := by unfold State.opsecNow; split <;> rfl
  exact h.opsecNow.of_eq rfl (by simp [State.dims, State.rebaseRuns, he])
theorem State.Form.smpStop (h : s.Form) : s.smpStop.Form :=
  .foldl (h.with_adcs (by simp)) fun _ _ hx => hx.calInterrupt
theorem State.Form.linksDown (h : s.Form) : s.linksDown.Form :=
  .foldl (.foldl h (fun _ _ hx => .ite hx.linkChange hx)) (fun _ _ hx => .ite hx.twinLane hx)
theorem State.Form.toDll (h : s.Form) : s.toDll.Form := by
  unfold State.toDll
  extract_lets s1 s2 _ s3 s4
  have h2 : s2.Form := h.stopLanes.rebaseRuns.put.clr
  clear_value s2
  have h4 : s4.Form := .foldl (h2.with_clk rfl).smpStop fun _ _ hx => hx.laneLose
  exact .ite h4.set1 h4.linksDown
theorem State.Form.dllChangeover (h : s.Form) : s.dllChangeover.Form :=
  .ite h (.ite h.toDll.set1.acquire h.toDll.set1)
theorem State.Form.sdclk {on : Bool} (h : s.Form) : (s.sdclk on).Form :=
  .ite h.put (.ite h.put.set1.clr.linksDown h.put.set1)
theorem State.Form.pllLocked {ok : Bool} {band : Nat} {flimit : Bool} {phase : Int} (h : s.Form) :
    (s.pllLocked ok band flimit phase).Form := by
  unfold State.pllLocked
  extract_lets s1 s2 s3 _ s4
  have h1 : s1.Form := h.put
  have h2 : s2.Form := .ite h1.set1 h1
  have h3 : s3.Form := .ite h2.put.set1 h2
  have h4 : s4.Form := h3.with_clk rfl
  exact .ite h (.ite h2.acquireFail h4.opsecNow.put.put)
theorem State.Form.pllChangeover (h : s.Form) : s.pllChangeover.Form := by
  unfold State.pllChangeover
  extract_lets dly s1 _ s2 _ s3 s4 s5
  have hd : dly.length = 5 := by simp [dly, h.clk_dly]
  have h1 : s1.Form := h.rebaseRuns
  have h2 : s2.Form := h1.with_clk (hd.trans h1.clk_dly.symm)
  have h3 : s3.Form := h2.with_clk rfl
  exact .ite h h3.put.set1.set1.clr.fsRelease
theorem State.Form.smpRestart (h : s.Form) : s.smpRestart.Form := by
  unfold State.smpRestart
  split
  · exact h
  · exact .ite h (.foldl (.foldl (h.with_clk rfl) (fun _ _ hy => hy.upChain)) (fun _ _ hy => hy.calRestart))
theorem State.Form.outputConfig {n v : Nat} (h : s.Form) : (s.outputConfig n v).Form := by
  unfold State.outputConfig
  extract_lets _ _ s1 s2 s3 _ s4 s5 _
  have h1 : s1.Form := .ite h h.put
  have h2 : s2.Form := .ite h1.stopLanes h1
  have h3 : s3.Form := h2.put
  have h4 : s4.Form := .with_clk h3 (by simp)
  have h5 : s5.Form := .foldl h4 (fun _ _ hy => hy.calInterrupt)
  exact .ite h.put (.ite (.ite h3.smpStop h3) (.ite h3 (.ite h4 (.ite h5.clr (.ite (.set1 (h5.with_clk rfl)) h5)))))

/-! ### Machine/Pins -/

theorem State.Form.pad {n : Nat} {level : Bool} (h : s.Form) : (s.pad n level).Form := .ite h.put.orr h.put
theorem State.Form.padsDriven (h : s.Form) : s.padsDriven.Form := .foldl h (fun _ _ hx => .ite hx.pad hx)
theorem State.Form.showUart (h : s.Form) : s.showUart.Form := h.put.put
theorem State.Form.uartTx {b : Nat} (h : s.Form) : (s.uartTx b).Form := .ite h.set1 h.with_pins.showUart
theorem State.Form.uartRx {b : Nat} {stopOk : Bool} (h : s.Form) : (s.uartRx b stopOk).Form :=
  .ite (.set1 (.ite h h.set1)) (.showUart (.with_pins (.ite h h.set1)))
theorem State.Form.uartRead (h : s.Form) : s.uartRead.Form := h.with_pins.showUart.dataResp
theorem State.Form.jtag {ir : Nat} {trst : Bool} (h : s.Form) : (s.jtag ir trst).Form := h.with_pins
theorem State.Form.irqTake {k n : Nat} (h : s.Form) : (s.irqTake k n).Form := .dataResp (.ite h h.set1.put)
theorem State.Form.irqComplete {k num : Nat} (h : s.Form) : (s.irqComplete k num).Form := .ite h.clr.clr h

/-! ### Machine/Health -/

theorem State.Form.upTest {n : Nat} {f : EngTest → EngTest} (h : s.Form) : (s.upTest n f).Form :=
  h.upHlt (by simp)
theorem State.Form.testPiece {n : Nat} {same : Bool} (h : s.Form) : (s.testPiece n same).Form := by
  unfold State.testPiece
  extract_lets s1 s2 s3
  have h1 : s1.Form := h.upTest
  have h2 : s2.Form := h1.put
  have h3 : s3.Form := h2.set1.engFault
  exact .ite h (.ite h.upTest (.ite h2.bumpWrap (.ite h3.moveStart h3)))
theorem State.Form.testStarved {n : Nat} (h : s.Form) : (s.testStarved n).Form := .ite h h.upTest.orr
theorem State.Form.lifeStep {temp : Int} (h : s.Form) : (s.lifeStep temp).Form :=
  .ite (h.upHlt rfl).bump.hltReason (h.upHlt rfl).bump
theorem State.Form.temperature {temp : Int} (h : s.Form) : (s.temperature temp).Form := (h.put.upHlt rfl).lifeStep
theorem State.Form.twinLinkReason (h : s.Form) : s.twinLinkReason.Form := .ite h.hltReason h
theorem State.Form.fwErr {err : Nat} (h : s.Form) : (s.fwErr err).Form := h.put.set1
theorem State.Form.fwFail {err : Nat} (h : s.Form) : (s.fwFail err).Form := h.fwErr.ldgPostFree
theorem State.Form.fwBegin {op slot err : Nat} {img : List Byte} (h : s.Form) : (s.fwBegin op slot err img).Form :=
  .ite (h.set1.upHlt rfl).writeLe (h.set1.upHlt rfl)
theorem State.Form.fwProgram {slot : Nat} (h : s.Form) : (s.fwProgram slot).Form :=
  .ite h.fwFail (.ite h.fwFail (.ite h.fwFail h.fwBegin))
theorem State.Form.fwCheck {slot : Nat} (h : s.Form) : (s.fwCheck slot).Form := .ite h.fwFail h.fwBegin
theorem State.Form.fwIsland {slot : Nat} (h : s.Form) : (s.fwIsland slot).Form :=
  .ite h.fwFail (.ite h.fwFail (.ite h.fwFail h.fwBegin))
theorem State.Form.fwEnd {same : Bool} {isle : Nat} (h : s.Form) : (s.fwEnd same isle).Form := by
  unfold State.fwEnd
  extract_lets s1
  have h1 : s1.Form := h.clr.upHlt rfl
  clear_value s1
  split
  · exact h
  · extract_lets _ _ s2 _ s3 _ s4
    have h2 : s2.Form := .ite h1 h1.writeBytes
    have h3 : s3.Form := .ite h2 h2.with_drawn.setByte
    have h4 : s4.Form := h3.put.set1
    exact .ite (.ite h3.fwErr h3.fwFail) (.ite h4 h4.ldgPostFree)

/-! ### Machine/Sheets -/

theorem State.Form.upMld {f : Loader → Loader} (h : s.Form) : (s.upMld f).Form := h.with_mld
theorem State.Form.showQuiesced {sheet : Nat} (h : s.Form) : (s.showQuiesced sheet).Form :=
  .ite (.ite h.setQuiesced h) h.setQuiesced
theorem State.Form.sheetQuiesce {sheet : Nat} (h : s.Form) : (s.sheetQuiesce sheet).Form := by
  unfold State.sheetQuiesce
  extract_lets s1 s2 s3 _ s4
  have h2 : s2.Form := h.put.upMld
  have h3 : s3.Form := h2.put
  have h4 : s4.Form := by
    dsimp only [s4]
    split
    · exact h2
    · exact .ite (.foldl (.ite h3 (h3.with_twn (by rw [Twin.dims, List.length_set]; rfl))) fun _ _ hx => hx.mute) h2.updBlock
  exact .ite h (.ite h2 h4.showLive.showCarry.showQuiesced)
theorem State.Form.releaseSheet {sheet : Nat} (h : s.Form) : (s.releaseSheet sheet).Form := by
  unfold State.releaseSheet
  refine .ite h.upMld ?_
  refine .ite h.upMld.put ?_
  refine .showCarry ?_
  refine .sheetStart ?_
  split
  exacts [.with_twn h.upMld (by simp [Twin.dims]), h.upMld]
theorem State.Form.sheetRelease {sheet : Nat} (h : s.Form) : (s.sheetRelease sheet).Form :=
  .ite h (.ite h.put.upMld h.put.releaseSheet)

/-! ### Machine/Watch -/

theorem State.Form.upPair {x : Nat} {f : IslePair → IslePair} (h : s.Form) : (s.upPair x f).Form :=
  h.upIsle (by simp [Island.dims])
theorem State.Form.upOut {k : Nat} {f : IsleOut → IsleOut} (h : s.Form) : (s.upOut k f).Form :=
  h.upIsle (by simp [Island.dims])
theorem State.Form.upConn {c : Nat} {f : IsleConn → IsleConn} (h : s.Form) : (s.upConn c f).Form :=
  h.upIsle (by simp [Island.dims])
theorem State.Form.isleLog {unit : Nat} (h : s.Form) : (s.isleLog unit).Form := h.ldgPostFree
theorem State.Form.loadSet (h : s.Form) : s.loadSet.Form := by
  obtain ⟨-, -, hc, ht, -⟩ := h.shaped.isle
  unfold State.loadSet; dsimp only
  split
  · exact .clr (.put (.put (.foldl (h.upIsle (by simp [Island.dims, hc, ht])) fun _ _ hx => hx.put.put.put)))
  · have hl := State.Form.foldl (f := fun s c => ((s.clr (R.WCH_RX_STAT_KIND c)).clr (R.WCH_RX_STAT_DEMAND c)).clr
      (R.WCH_TX_STAT_KIND c)) (l := List.range 8) h fun _ _ hx => hx.clr.clr.clr
    obtain ⟨-, -, hc, -⟩ := hl.shaped.isle
    exact .set1 (hl.upIsle (by simp only [Island.dims, hc, List.length_replicate]))
theorem State.Form.isleFs {on : Bool} (h : s.Form) : (s.isleFs on).Form := h.put.fsSet
theorem State.Form.driveOut {k : Nat} {on : Bool} (h : s.Form) : (s.driveOut k on).Form := h.put.upOut
theorem State.Form.showConn {c : Nat} (h : s.Form) : (s.showConn c).Form := h.put
theorem State.Form.showPair {x : Nat} (h : s.Form) : (s.showPair x).Form := h.put
theorem State.Form.decideOff {k : Nat} (h : s.Form) : (s.decideOff k).Form :=
  .ite h (.ite (.ite h.upOut.upOut.clr h.upOut.upOut.clr.set1) h.upOut.upOut)
theorem State.Form.decideAll (h : s.Form) : s.decideAll.Form := by
  refine .isleFs (.foldl h fun x k hx => ?_)
  have ho {f : IsleOut → IsleOut} : ((if (!decide (s.isleState = isleRun) || x.soDemand k) && !(x.isleOut k).dem then
      x.set1 R.WCH_INT_STAT_DEMAND else x).upOut k f).Form := .upOut (.ite hx.set1 hx)
  exact .ite ho.decideOff (.ite ho.driveOut ho)
theorem State.Form.isleGo {v : Nat} (h : s.Form) : (s.isleGo v).Form := .ite h h.put.set1.isleLog
theorem State.Form.isleLeave {v : Nat} (h : s.Form) : (s.isleLeave v).Form :=
  .decideAll (.foldl h.isleGo (fun _ _ hx => hx.set1))
theorem State.Form.outputOff {k : Nat} (h : s.Form) : (s.outputOff k).Form := by
  unfold State.outputOff
  split
  exacts [.ite (.ite h.driveOut h.driveOut.set1) h, h]
theorem State.Form.isleFail {b : Nat} (h : s.Form) : (s.isleFail b).Form := by
  unfold State.isleFail
  extract_lets s1 s2 s3
  have h1 : s1.Form := h.put
  have h2 : s2.Form := .foldl h1 (fun _ _ hy => hy.driveOut.upOut)
  have h3 : s3.Form := h2.put.clr.upIsle rfl
  exact h3.isleGo.isleFs.hltReason
theorem State.Form.outFault {k : Nat} (h : s.Form) : (s.outFault k).Form :=
  .ite h (.hltReason (.isleLog (.put (.upOut (.driveOut (.ite (h.set1.set1.upIsle rfl) h.set1.set1))))))
theorem State.Form.readback {sob : Nat} (h : s.Form) : (s.readback sob).Form :=
  .foldl h fun _ _ hx => .ite hx.put.upOut.outFault
    (.ite hx.put.upOut (.ite hx.put.upOut.upOut (.ite hx.put.upOut.outFault hx.put.upOut.upOut)))
theorem State.Form.testPulse {k : Nat} (h : s.Form) : (s.testPulse k).Form := .ite h h.upOut.put
theorem State.Form.testPulseEnd {k : Nat} (h : s.Form) : (s.testPulseEnd k).Form := by
  unfold State.testPulseEnd
  split
  exacts [.ite h (h.upOut.upIsle rfl).put, h]
theorem State.Form.pairFault {x : Nat} {cross : Bool} (h : s.Form) : (s.pairFault x cross).Form :=
  .showPair (.upPair (.ite (.ite h.set1 h) (.isleLog (.set1 (.set1 (.ite h.set1 h))))))
theorem State.Form.pulseCheck {i : Nat} {high : Bool} (h : s.Form) : (s.pulseCheck i high).Form := by
  unfold State.pulseCheck
  split
  exacts [.ite h.upPair.pairFault h, h]
theorem State.Form.discTrack {x : Nat} (h : s.Form) : (s.discTrack x).Form :=
  .ite h (.ite (.ite h.upPair.set1 (.ite h.upPair h)) (.ite h.upPair h))
theorem State.Form.sinSample {level : Nat} (h : s.Form) : (s.sinSample level).Form := by
  obtain ⟨-, -, -, -, hl⟩ := h.shaped.isle
  exact .foldl (.foldl (.put (h.upIsle (by simp [Island.dims, hl]))) fun _ _ hx => .ite hx.pulseCheck.put hx.pulseCheck)
    fun _ _ hx => hx.discTrack.showPair
theorem State.Form.inputPulse {b : Bool} (h : s.Form) : (s.inputPulse b).Form :=
  .ite h (.ite (h.upIsle_ite rfl rfl) (.foldl ((h.upIsle_ite rfl rfl).upIsle_ite rfl rfl) fun _ _ hx => hx.upPair))
theorem State.Form.tpOver {b on : Bool} (h : s.Form) : (s.tpOver b on).Form :=
  .ite (h.upIsle_ite rfl rfl) (.foldl ((h.upIsle_ite rfl rfl).set1.upIsle_ite rfl rfl) fun _ _ hx => .ite hx.pairFault hx)
theorem State.Form.discJudge {x : Nat} (h : s.Form) : (s.discJudge x).Form := by
  unfold State.discJudge
  dsimp only
  split
  exacts [.ite h.upPair.pairFault h, h]
theorem State.Form.discCount {x : Nat} (h : s.Form) : (s.discCount x).Form :=
  .ite (.upPair (.ite h.upPair.clr h)) (.set1 (.bump (.upPair (.ite h.upPair.clr h))))
theorem State.Form.srstStep {high : Bool} (h : s.Form) : (s.srstStep high).Form :=
  .ite (h.upIsle rfl).set1 (.ite h (.ite ((h.upIsle rfl).upIsle rfl).clr.clr (h.upIsle rfl)))
theorem State.Form.evalStep {srst : Bool} (h : s.Form) : (s.evalStep srst).Form := by
  unfold State.evalStep
  extract_lets s1 s2 s3 s4 s5
  have h1 : s1.Form := .foldl h (fun _ _ hy => hy.discJudge.discCount)
  have h2 : s2.Form := .foldl h1 (fun _ _ hy => .showPair (.ite hy.upPair hy))
  have h3 : s3.Form := .foldl h2 (fun _ _ hy => hy.showConn)
  have h4 : s4.Form := h3.srstStep
  have h5 : s5.Form := (h4.upIsle rfl).set1
  exact .ite h4 (.ite h5 h5.decideAll)
theorem State.Form.resetDo (h : s.Form) : s.resetDo.Form := by
  unfold State.resetDo
  extract_lets _ s1 s2 s3 s4 s5 s6 _ s7 s8
  have h1 : s1.Form := .foldl h (fun _ _ hy => .ite hy.clr.clr.showPair hy)
  have h2 : s2.Form := h1.upIsle rfl
  have h3 : s3.Form := .ite h2.clr h2
  have h4 : s4.Form := .ite h3.clr h3
  have h5 : s5.Form := .foldl h4 (fun _ _ hy => .showConn (.ite hy.clr hy))
  have h6 : s6.Form := h5.clr
  have h7 : s7.Form := .ite h6.isleGo h6
  have h8 : s8.Form := .foldl h7 (fun _ _ hy => .ite hy.clr.driveOut hy)
  exact .ite h7.decideAll h8.decideAll
theorem State.Form.resetAccept (h : s.Form) : s.resetAccept.Form := by
  unfold State.resetAccept
  extract_lets _ s1
  have h1 : s1.Form := (h.upIsle rfl).clr
  exact .ite h (.ite h1.bumpWrap.set1.isleLog.resetDo h1.bump.set1.isleLog)
theorem State.Form.srstStuck (h : s.Form) : s.srstStuck.Form := .ite h h.set1.bump.set1.isleLog
theorem State.Form.sealChange {was v : Nat} (h : s.Form) : (s.sealChange was v).Form := by
  unfold State.sealChange
  extract_lets s1 _ s2
  have h1 : s1.Form := h.put.put
  have h2 : s2.Form := .ite (h1.upIsle rfl) h1
  exact .ite (.ite h1.isleLeave h1) (.ite (.ite h2.isleGo h2) (.ite h1.isleGo.loadSet h1))
theorem State.Form.startLeave (h : s.Form) : s.startLeave.Form :=
  .ite h (.isleFs (.isleGo (.foldl (.ite h.put.put.loadSet.set1 h.put.put.loadSet) (fun _ _ hx => hx.set1))))
theorem State.Form.sealSample {v : Nat} (h : s.Form) : (s.sealSample v).Form := by
  unfold State.sealSample
  extract_lets s1 _
  have h1 : s1.Form := .ite h (h.upIsle rfl)
  exact .ite h1 (.ite h1.put.put.startLeave (.ite h1 h1.sealChange))
theorem State.Form.isleStarted {image : Bool} {ver : Nat} {srst : Bool} (h : s.Form) :
    (s.isleStarted image ver srst).Form := by
  unfold State.isleStarted
  extract_lets s1
  have h1 : s1.Form := h.put.set1.upIsle rfl
  exact .ite h (.ite h.isleFail (.startLeave (.ite (h1.upIsle rfl).set1 (h1.upIsle rfl))))
theorem State.Form.isleReset (h : s.Form) : s.isleReset.Form := by
  unfold State.isleReset
  extract_lets s1
  have h1 : s1.Form := .foldl h fun _ _ hx => hx.setWord
  clear_value s1
  refine .isleFs (h1.upIsle ?_)
  exact h1.isle_dims.symm
theorem State.Form.vddReturn (h : s.Form) : s.vddReturn.Form := .orr (.isleReset (.ite h h.isleLog.set1))
theorem State.Form.psStart {op : Nat} (h : s.Form) : (s.psStart op).Form := h.put.set1.clr
theorem State.Form.psRefuse {code : Nat} (h : s.Form) : (s.psRefuse code).Form := h.put.set1
theorem State.Form.psCheckCmd (h : s.Form) : s.psCheckCmd.Form := .ite h h.psStart
theorem State.Form.psStoreCmd (h : s.Form) : s.psStoreCmd.Form := .ite h (.ite h.psRefuse (.ite h.psRefuse h.psStart))
theorem State.Form.psEnd {ok : Bool} (h : s.Form) : (s.psEnd ok).Form := by
  unfold State.psEnd
  extract_lets _ s1
  have h1 : s1.Form := h.clr.clr
  clear_value s1
  refine .ite h (.ite ?_ (.ite h1.writeBytes.put.set1 h1.with_drawn.writeBytes.psRefuse))
  split
  exact (h1.put.put.upIsle rfl).set1
theorem State.Form.connAccept {c seq : Nat} {data : List Byte} (h : s.Form) : (s.connAccept c seq data).Form :=
  h.put.put.bumpWrap.clr.upConn.showConn
theorem State.Form.connFault {c : Nat} (h : s.Form) : (s.connFault c).Form := h.set1.set1.upConn.showConn.isleLog
theorem State.Form.connSingle {c : Nat} (h : s.Form) : (s.connSingle c).Form := by
  unfold State.connSingle
  split
  exacts [h.upConn.connAccept.bump.set1, h]
theorem State.Form.copyTimeout {c : Nat} (h : s.Form) : (s.copyTimeout c).Form := by
  unfold State.copyTimeout
  split
  exacts [.ite h.connSingle h, h]
theorem State.Form.nativeCopy {c lan : Nat} {body : List Byte} (h : s.Form) : (s.nativeCopy c lan body).Form := by
  unfold State.nativeCopy
  extract_lets s1 _ _ _ _ _ _ old
  have h1 : s1.Form := h.copyTimeout
  have ho : old.Form := .ite h1.bump h1.bump
  clear_value s1 old
  split
  · exact .ite h1.upConn ho
  · exact .ite (.ite h1.bump (.ite h1.upConn.connAccept h1.upConn.bump.connFault)) (.ite h1.connSingle.upConn ho)
theorem State.Form.nativeFrame {f : SafetyIn} (h : s.Form) : (s.nativeFrame f).Form := by
  unfold State.nativeFrame
  refine .ite h.bump ?_
  split
  exacts [h.bump, .ite h.bump h.nativeCopy]
theorem State.Form.nayFrame {f : SafetyIn} (h : s.Form) : (s.nayFrame f).Form := by
  unfold State.nayFrame
  refine .ite h.bump ?_
  split
  · exact h.bump
  · exact .ite h.bump (.ite h.bump (.ite h.connFault (.ite h.connAccept (.ite h.bump h.bump))))
theorem State.Form.safetyFrame {native : Bool} (h : s.Form) : (s.safetyFrame native).Form := by
  unfold State.safetyFrame
  split
  exacts [h, .ite h (.ite (h.upIsle rfl).nativeFrame (h.upIsle rfl).nayFrame)]
theorem State.Form.connExpiry {c : Nat} (h : s.Form) : (s.connExpiry c).Form := by
  unfold State.connExpiry
  split
  exacts [.ite h.set1.set1.upConn.showConn h, h]
theorem State.Form.safetySend {c : Nat} (h : s.Form) : (s.safetySend c).Form :=
  .ite h (.upIsle (.bumpWrap (.put (.foldl h fun _ _ hx => .ite hx.enqueue hx))) (by simp [Island.dims]))

/-! ### Machine/RegCore -/

theorem State.Form.irqClaim {k : Nat} (h : s.Form) : (s.irqClaim k).Form := h.irqTake
theorem State.Form.clkEffect {off old v : Nat} (h : s.Form) : (s.clkEffect off old v).Form := by
  unfold State.clkEffect
  extract_lets _ s1 s2
  have h1 : s1.Form := h.showDll
  have h2 : s2.Form := .ite h (.ite (.ite h1.acquire h1) (.ite h.put.bump.set1.showDll h.loseLock))
  split
  · exact .ite h.acquire h
  · exact .foldl h2 (fun _ _ hz => .ite hz.referenceAbsent hz)
  · exact .ite h.outputConfig h
theorem State.Form.quiesceWrite {v : Nat} (h : s.Form) : (s.quiesceWrite v).Form :=
  .foldl h (fun _ _ hx => .ite hx.sheetQuiesce hx.sheetRelease)
theorem State.Form.adcEffect {a off old v : Nat} (h : s.Form) : (s.adcEffect a off old v).Form := by
  unfold State.adcEffect
  extract_lets s1 s2 s3
  have h1 : s1.Form := .ite h.upAdc h
  have h2 : s2.Form := .ite h1 h1.calInterrupt
  have h3 : s3.Form := .ite h2 h2.calenChange
  split
  · exact .ite h3 (.ite h3.watchRequest h3.watchExitRequest)
  · exact h.lfsrWrite
  · exact h.presWrite
  · exact h.presWrite
  · exact h
theorem State.Form.ceEffect {n off old v : Nat} (h : s.Form) : (s.ceEffect n off old v).Form := by
  unfold State.ceEffect
  split
  · exact .showLive (.ite h.testFrom h)
  · exact .ite (.coefSwap (.ite h.recipeSwap h)) (.ite h.recipeSwap h)
  · exact .ite h.traceArm h.showTrace
  · exact .ite h.showTrace h
theorem State.Form.phtEffect {off : Nat} (h : s.Form) : (s.phtEffect off).Form := by
  unfold State.phtEffect
  refine .ite h.quadConfig ?_
  split
  exacts [.ite h (.ite h.trkConfig.upTrk.trkStop h.trkConfig), h]
theorem State.Form.channelConfig {ch : Nat} (h : s.Form) : (s.channelConfig ch).Form :=
  .reshape (.ite h.upChan.holdGroup h.upChan)
theorem State.Form.pwmEffect {off old v : Nat} (h : s.Form) : (s.pwmEffect off old v).Form := by
  unfold State.pwmEffect
  split
  · split
    · exact h.shadowPeriod
    · exact h.shadowPeriod
    · exact h.groupControl
    · exact .ite h h.phaseWrite
    · exact .ite h.requestLoad h
    · exact h.reshape
    · exact h.reshape
    · exact h.reshape
    · exact h
  · split
    · split
      exacts [h.channelConfig, h.shadowDuty, h.shadowDuty, h]
    · split
      exacts [h.reshape, h]
theorem State.Form.fmxEffect {off : Nat} (h : s.Form) : (s.fmxEffect off).Form := by
  unfold State.fmxEffect
  split
  · exact h.fltJudge
  · split
    exacts [.ite h.judgeGroup h, h]
theorem State.Form.lneEffect {off old v : Nat} (h : s.Form) : (s.lneEffect off old v).Form := by
  unfold State.lneEffect
  split
  exacts [.ite h (.ite (.trainStart (.ite h.laneDisable h)) (.ite h.laneDisable h)), h]
theorem State.Form.tsuEffect {off old v : Nat} (h : s.Form) : (s.tsuEffect off old v).Form := by
  unfold State.tsuEffect
  extract_lets s1 s2
  have h1 : s1.Form := h.tdEnable.tdEnable
  have h2 : s2.Form := .ite h1 h1.servoHold
  split
  · exact .ite h2 h2.domainReturn
  · exact h.tdConfig
  · exact h.tdConfig
  · split
    exacts [.ite h.ttRequest h, h]
theorem State.Form.twnEnable {was : Bool} (h : s.Form) : (s.twnEnable was).Form := by
  unfold State.twnEnable
  extract_lets _ s1
  have h1 : s1.Form := h.unmuteAll.clr.upTwn rfl
  exact .ite h (.ite h.goJoining h1.showTimeOk.setTwState.partnerStops.showCarry)
theorem State.Form.wchEffect {off v : Nat} (h : s.Form) : (s.wchEffect off v).Form := by
  unfold State.wchEffect
  split
  exacts [h.orr, .ite h.psCheckCmd (.ite h.psStoreCmd h), .ite (h.upIsle rfl) h]
theorem State.Form.pinEffect {off v : Nat} (h : s.Form) : (s.pinEffect off v).Form := by
  unfold State.pinEffect
  split
  exacts [h.padsDriven, h.orr.padsDriven, h.andn.padsDriven, h.padsDriven, h]
theorem State.Form.regEffect {addr old v : Nat} (h : s.Form) : (s.regEffect addr old v).Form := by
  unfold State.regEffect
  split
  · exact h.clkEffect
  · exact .ite h.quiesceWrite h
  · exact h.adcEffect
  · dsimp only
    split
    · exact h.winConfig
    · split
      exacts [.ite h.fastEnable h, h]
  · exact h.ceEffect
  · exact h.phtEffect
  · exact h.pwmEffect
  · exact h.fmxEffect
  · exact h.lneEffect
  · exact h.tsuEffect
  · exact .ite h.twnEnable h
  · exact h.wchEffect
  · exact .ite (h.upHlt (by simp)) h
  · exact h.pinEffect
  · exact h
theorem State.Form.storeWord {a v : Nat} {mld : Bool} (h : s.Form) : (s.storeWord a v mld).1.Form := by
  unfold State.storeWord; dsimp only
  split
  · exact h
  · exact .ite_fst h.setWord.regEffect (.ite_fst h.setWord h.setWord.regEffect)

/-! ### Machine/Glean -/

theorem State.Form.rangeCheck {c addr n : Nat} {write : Bool} (h : s.Form) : (s.rangeCheck c addr n write).1.Form :=
  .ite_fst h (.ite_fst h (.ite_fst (.ite_fst h (.ite_fst h h.bankViol)) (.ite_fst h (.ite_fst h (.ite_fst h h)))))
theorem State.Form.gleanRows {ue ce : Option Nat} {addr n : Nat} (h : s.Form) : (s.gleanRows ue ce addr n).1.Form := by
  unfold State.gleanRows; dsimp only
  split
  · exact h.l2Passed.rowRead
  · split
    exacts [h.l2Passed.rowRead, h.l2Passed]
theorem State.Form.descEnd {c ctl next : Nat} (h : s.Form) : (s.descEnd c ctl next).Form := by
  unfold State.descEnd
  extract_lets s1 s2
  have h1 : s1.Form := h.bumpWrap.setGleanDesc
  have h2 : s2.Form := .ite h1.orr h1
  exact .ite h2.gleanTo h2.put
theorem State.Form.gleanFetch {c : Nat} {resume : Bool} {ue ce : Option Nat} (h : s.Form) :
    (s.gleanFetch c resume ue ce).Form := by
  have hr {t : State} (ht : t.Form) : ((if resume then t else t.clr (R.GLN_GC_REM c)).setGleanDesc c none).Form :=
    .setGleanDesc (.ite ht ht.clr)
  refine .ite (hr h.rangeCheck).gleanHalt ?_
  dsimp only
  split
  · next e => exact (hr (h.rangeCheck.gleanRows.of_fst e)).gleanHalt
  · next t e =>
    have ht : t.Form := h.rangeCheck.gleanRows.of_fst e
    have hd {d : Option (Nat × Nat)} {a b r : Nat} : (if resume then t.setGleanDesc c d else (((t.setGleanDesc c d).put
      (R.GLN_GC_SRC c) a).put (R.GLN_GC_DST c) b).put (R.GLN_GC_REM c) r).Form :=
      .ite ht.setGleanDesc ht.setGleanDesc.put.put.put
    exact .ite (hr ht).gleanHalt (.ite hd hd.descEnd)
theorem State.Form.gleanStart {c : Nat} {ue ce : Option Nat} (h : s.Form) : (s.gleanStart c ue ce).Form :=
  .ite h h.mailProgress.clr.clr.clr.put.gleanTo.gleanFetch
theorem State.Form.gleanResume {c : Nat} {ue ce : Option Nat} (h : s.Form) : (s.gleanResume c ue ce).Form :=
  .ite h h.mailProgress.clr.gleanTo.gleanFetch
theorem State.Form.gleanStop {c : Nat} (h : s.Form) : (s.gleanStop c).Form := .ite h (.gleanTo (.ite h.put h))

/-! ### Machine/Mould -/

theorem State.Form.showSlot {k : Nat} {ok : Bool} (h : s.Form) : (s.showSlot k ok).Form :=
  .ite h.put h.put.put.put.put
theorem State.Form.showInUse (h : s.Form) : s.showInUse.Form := .foldl h (fun _ _ hx => hx.put)
theorem State.Form.bankRecord {v : Nat} (h : s.Form) : (s.bankRecord v).Form := by
  unfold State.bankRecord
  split
  exacts [h.bankRelease.bankFree, h.bankClaim, h.bankGrant, h.bankGrant]
theorem State.Form.applyRec {banks psOk : Bool} {r : Rec} (h : s.Form) : (s.applyRec banks psOk r).Form :=
  .ite (.ite h.bankRecord h) (.ite h.ldgClrWrite.with_resp (.ite h.storeWord.psEnd h.storeWord))
theorem State.Form.applySect {img : List Byte} {banks psOk : Bool} {x : Sect} (h : s.Form) :
    (s.applySect img banks psOk x).Form := by
  unfold State.applySect
  split
  · exact .foldl h (fun _ _ hy => hy.applyRec)
  · exact h.fillZero.writeBytes
  · exact h.fillZero.writeBytes
  · exact h.writeBytes
theorem State.Form.ownSheet {img : List Byte} {sheet : Nat} (h : s.Form) : (s.ownSheet img sheet).Form := h.upMld
theorem State.Form.unloadSheet {sheet : Nat} (h : s.Form) : (s.unloadSheet sheet).Form := h.clr.put.upMld
theorem State.Form.applySheet {img : List Byte} {slot sheet : Nat} {banks psOk : Bool} (h : s.Form) :
    (s.applySheet img slot sheet banks psOk).Form :=
  .refreshPaired (.bump (.set1 (.put (.put (.foldl h.ownSheet (fun _ _ hx => hx.applySect))))))
theorem State.Form.loadEnd (h : s.Form) : s.loadEnd.Form := by
  unfold State.loadEnd
  extract_lets s1 s2
  have h1 : s1.Form := .foldl h (fun _ _ hy => hy.updBlock.judgeGroup)
  have h2 : s2.Form := .foldl h1 (fun _ _ hy => .ite hy.showQuiesced hy.setQuiesced)
  exact h2.showInUse
theorem State.Form.loadImage {slot : Nat} {psOk : Bool} (h : s.Form) : (s.loadImage slot psOk).Form :=
  .settleLanes (.loadEnd (.put (.foldl h (fun _ _ hx => .ite hx (.ite hx.set1 hx.applySheet)))))
theorem State.Form.resetWordTo {addr : Nat} (h : s.Form) : (s.resetWordTo addr).Form := by
  unfold State.resetWordTo
  split
  exacts [h, .ite h (.ite h.storeWord h.storeWord.setWord)]
theorem State.Form.reloadMove {sheet : Nat} (h : s.Form) : (s.reloadMove sheet).Form := .ite h.carry.clr.upEng h
theorem State.Form.resetEngine {sheet : Nat} (h : s.Form) : (s.resetEngine sheet).Form :=
  h.fillZero.upEng.clr.clr.clr.showLive.fsRelease.testFrom
theorem State.Form.reloadSheet {img : List Byte} {slot sheet : Nat} {banks psOk : Bool} (h : s.Form) :
    (s.reloadSheet img slot sheet banks psOk).Form := by
  unfold State.reloadSheet
  extract_lets s1 _ _ s2 s3 s4 s5 s6
  have h2 : s2.Form := .foldl h.reloadMove fun _ _ hx => hx.resetWordTo
  have h3 : s3.Form := .ite h2.resetEngine h2
  have h4 : s4.Form := by
    dsimp only [s4]
    split
    exacts [h3.groupFollow, h3]
  have h6 : s6.Form := .applySheet (.foldl h4 fun _ _ hx => hx.fillZero)
  exact .settleLanes (.showInUse (.foldl h6 fun _ _ hx => hx.updBlock.judgeGroup))
theorem State.Form.mldReport {op slot code sheet off : Nat} (h : s.Form) : (s.mldReport op slot code sheet off).Form := by
  unfold State.mldReport
  extract_lets s1 s2 s3
  have h1 : s1.Form := h.put.put
  have h2 : s2.Form := .ite h1 h1.put
  have h3 : s3.Form := h2.set1
  exact .ite h3 h3.ldgPostFree
theorem State.Form.mldBegin {c : State → MldCmd} (h : s.Form) : (s.mldBegin c).Form :=
  .ite h.put.put.set1.ldgPostFree h.set1.upMld
theorem State.Form.mldProgram {slot : Nat} (h : s.Form) : (s.mldProgram slot).Form :=
  .ite h.mldBegin.writeLe h.mldBegin
theorem State.Form.mldStartLoad {slot : Nat} (h : s.Form) : (s.mldStartLoad slot).Form :=
  .ite h.mldBegin.put h.mldBegin
theorem State.Form.mldApply {c : MldCmd} {readbackOk psOk : Bool} (h : s.Form) : (s.mldApply c readbackOk psOk).Form := by
  unfold State.mldApply
  split
  · exact .showSlot (.ite h.writeBytes h.writeBytes.with_drawn)
  · exact h.reloadSheet
  · exact h.writeLe
  · exact h.loadImage
  · exact h
theorem State.Form.mldEnd {readbackOk psOk : Bool} (h : s.Form) : (s.mldEnd readbackOk psOk).Form := by
  unfold State.mldEnd
  split
  · exact h
  · extract_lets s1 s2 _ s3
    have h3 : s3.Form := .mldReport (.ite h.upMld.clr.mldApply h.upMld.clr)
    exact .ite h3.releaseSheet h3

/-! ### Machine/Power -/

theorem State.Form.mirrorWrite {clean ok : Bool} (h : s.Form) : (s.mirrorWrite clean ok).Form := by
  have hk (k : Nat) (c : Option MirrorCell) (n : Nat) :
      (s.upPwr fun p => { p with cells := p.cells.set k c, fails := n }).Form := h.upPwr (by simp)
  cases ok
  · exact .ite (hk ..).put.put.put.set1.hltReason (hk ..).put.put.put.set1
  · exact .ite (hk ..).put.put.put.hltReason (hk ..).put.put.put
theorem State.Form.powerWarning {ok : Bool} (h : s.Form) : (s.powerWarning ok).Form :=
  .ite h (h.upPwr rfl).set1.set1.mirrorWrite
theorem State.Form.powerClear {ok : Bool} (h : s.Form) : (s.powerClear ok).Form :=
  .ite h (h.upPwr rfl).clr.mirrorWrite.ldgDropped
theorem State.Form.opsecSecond {ok : Bool} (h : s.Form) : (s.opsecSecond ok).Form :=
  .ite h (.ite h.mirrorWrite (.ite h.mirrorWrite h))
theorem State.Form.vkaLow (h : s.Form) : s.vkaLow.Form := .ite h.set1.andn.set1 (h.set1.andn.upPwr rfl)
theorem State.Form.ldgTorn (h : s.Form) : s.ldgTorn.Form := by
  unfold State.ldgTorn
  extract_lets s1
  have h1 : s1.Form := h.with_drawn
  split
  exacts [h, .ite h (.ite (h1.with_ldg rfl) h1.writeBytes)]
theorem State.Form.showKept (h : s.Form) : s.showKept.Form :=
  .ite (.fsAssert (.foldl h.put.put (fun _ _ hx => hx.ldgHead))) (.foldl h.put.put (fun _ _ hx => hx.ldgHead))
theorem State.Form.domainsReset {soft porst : Bool} (h : s.Form) : (s.domainsReset soft porst).Form := by
  obtain ⟨-, -, -, -, -, -, -, hp⟩ := h.shaped.units
  obtain ⟨-, -, -, -, hc⟩ := h.shaped.rest
  refine .showKept (.put (.put (.foldl ⟨h.1, ?_⟩ fun _ _ hx => hx.put)))
  rw [State.dims, h.isle_dims, List.length_map, hp, hc, show s.ldg.restart.dims = [4, 4] from h.ldg_dims]; rfl
theorem State.Form.opsecSettle {more : Nat} (h : s.Form) : (s.opsecSettle more).Form := .ite (h.upPwr rfl) (h.upPwr rfl)
theorem State.Form.tbZero {more : Nat} (h : s.Form) : (s.tbZero more).Form := h.opsecSettle
theorem State.Form.warmRegs (h : s.Form) : s.warmRegs.Form := h.with_regs
theorem State.Form.warmSources {o : State} (h : s.Form) : (s.warmSources o).Form :=
  .foldl h fun _ _ hx => .ite hx (.ite hx.put hx.put.fsRelease)
theorem State.Form.warmPulses {o : State} (h : s.Form) : (s.warmPulses o).Form := by
  obtain ⟨-, -, -, -, -, hl, -⟩ := h.shaped.units
  have h0 : ({ s with
    chans := s.chans.zipIdx.map (fun (c, ch) => s.warmChan ch c), lanes := List.replicate 12 {}
    groups := s.groups.map fun (g : PwmGroup) => { holds := g.holds.filter (!·.mute), act := g.act } } : State).Form :=
    h.of_eq rfl (by simp [State.dims, hl])
  exact .foldl (.warmSources (.foldl (.foldl h0 fun _ _ hx => hx.put) fun _ _ hx =>
    .groupFollow (.ite hx.holdGroup.showGroup hx))) fun _ _ hx => .fltJudge hx
theorem State.Form.warmServos (h : s.Form) : s.warmServos.Form := by
  obtain ⟨-, -, hp⟩ := h.shaped.time
  refine .foldl (h.of_eq rfl ?_) fun _ _ hx => .ite hx.setTd hx
  rw [State.dims, State.dims, hp, List.length_map]; rfl
theorem State.Form.dropVolatile (h : s.Form) : s.dropVolatile.Form := ⟨swf_filter memDefault _ h.1, h.2⟩
theorem State.Form.mpgFall {rails : Nat} (h : s.Form) : (s.mpgFall rails).Form :=
  .ite h (.domainsReset (h.ldgTorn.tbZero.clr.put.dropVolatile.upPwr (by simp)))
theorem State.Form.restoreKa (h : s.Form) : s.restoreKa.Form :=
  .upPwr (.put (.set1 (.put (.put (.put (.put (.foldl h.clr (fun _ _ hx => hx.clr)))))))) rfl
theorem State.Form.mpgRise {crcOk : Bool} {off rails : Nat} {x : Bool} (h : s.Form) : (s.mpgRise crcOk off rails x).Form := by
  unfold State.mpgRise
  extract_lets _ s1 s2 s3 s4 s5 s6 s7 _
  have h1 : s1.Form := h.tbZero
  have h2 : s2.Form := h1.put.put
  have h3 : s3.Form := h2.clr.clr
  have h4 : s4.Form := .ite h3.restoreKa h3
  have h5 : s5.Form := h4.bump.clr
  have h6 : s6.Form := h5.put
  have h7 : s7.Form := h6.set1.put
  exact .ite h (h7.upPwr rfl)
theorem State.Form.porstAssert (h : s.Form) : s.porstAssert.Form :=
  .isleReset (.domainsReset (h.tbZero.upPwr (by simp)))
theorem State.Form.recordFailure (h : s.Form) : s.recordFailure.Form := .clr (.ite h.put.put h.put)
theorem State.Form.startDue {cause : Nat} (h : s.Form) : (s.startDue cause).Form := h.upPwr rfl
theorem State.Form.porstRelease {held : Nat} {testMode : Bool} (h : s.Form) : (s.porstRelease held testMode).Form := by
  unfold State.porstRelease
  extract_lets _ s1 s2 _ s3
  have h1 : s1.Form := h.tbZero.upPwr rfl
  have h2 : s2.Form := h1.upIsle rfl
  have h3 : s3.Form := h2.with_pins
  exact .ite h (.ite h3 (.ite h3.startDue (.startDue (.ite h3.recordFailure h3))))
theorem State.Form.warmIgnored (h : s.Form) : s.warmIgnored.Form := h.bump.set1
theorem State.Form.warmCause {cause : Nat} (h : s.Form) : (s.warmCause cause).Form := .ite h.startDue h.warmIgnored
theorem State.Form.wrstRelease (h : s.Form) : s.wrstRelease.Form :=
  .ite h (.ite (h.upPwr rfl) (.ite (h.upPwr rfl).warmIgnored (h.upPwr rfl).startDue))

/-! ### Machine/Start -/

theorem State.Form.coldCause {cause : Nat} (h : s.Form) : (s.coldCause cause).Form :=
  .startDue (.ite h.recordFailure h)
theorem State.Form.cmdWarm {key : Nat} (h : s.Form) : (s.cmdWarm key).Form := .ite h.warmCause h
theorem State.Form.cmdCold {key : Nat} (h : s.Form) : (s.cmdCold key).Form := .ite h.coldCause h
theorem State.Form.bootOk (h : s.Form) : s.bootOk.Form := .ite h (h.clr.put.upPwr rfl)
theorem State.Form.goldenClr {key : Nat} (h : s.Form) : (s.goldenClr key).Form := .ite h.clr h
theorem State.Form.kick (h : s.Form) : s.kick.Form := h.upPwr rfl
theorem State.Form.confirmExpiry (h : s.Form) : s.confirmExpiry.Form := by
  unfold State.confirmExpiry
  split
  exacts [.ite h (h.recordFailure.upPwr rfl).startDue, h]
theorem State.Form.watchdogExpiry (h : s.Form) : s.watchdogExpiry.Form := by
  unfold State.watchdogExpiry
  split
  exacts [.ite h h.warmCause, h]
theorem State.Form.bootSource (h : s.Form) : s.bootSource.Form :=
  .ite h.set1.put.put.hltReason (.ite h.set1.put.set1.put.hltReason h.put.put)
theorem State.Form.strapDefaults {ovr : Option Nat} (h : s.Form) : (s.strapDefaults ovr).Form := by
  unfold State.strapDefaults
  extract_lets s1 s2 s3
  have h1 : s1.Form := h.put.put
  have h2 : s2.Form := .foldl h1 (fun _ _ hy => hy.put)
  have h3 : s3.Form := h2.tdEnable.tdEnable
  exact .ite h3.goJoining h3
theorem State.Form.startRun {cold : Bool} {cause began : Nat} {ended : List Nat} (h : s.Form) :
    (s.startRun cold cause began ended).Form := by
  unfold State.startRun
  extract_lets s1
  have h1 : s1.Form := h.put.put
  exact h1.upPwr rfl
theorem State.Form.coldStart {straps : Nat} (h : s.Form) : (s.coldStart straps).Form := by
  unfold State.coldStart
  split
  · exact h
  · refine .ite h (.set1 (.bootSource ?_))
    have started {c : Bool} {n m : Nat} {l : List Nat} {o : Option Nat} {x : State} (hx : x.Form) :
        ((x.startRun c n m l).strapDefaults o).Form := hx.startRun.strapDefaults
    split
    · exact .set1 (.ldgPost (started (.ite h.opsecSettle.domainsReset.put.put h.opsecSettle.domainsReset)))
    · exact started (.ite h.opsecSettle.domainsReset.put.put h.opsecSettle.domainsReset)
theorem State.Form.leaveHold (h : s.Form) : s.leaveHold.Form :=
  .settleLanes (.foldl h.showKept.fsSet (fun _ _ hx => hx.fltJudge))
theorem State.Form.stepFail {step : Nat} (h : s.Form) : (s.stepFail step).Form := by
  unfold State.stepFail
  split
  exacts [h, .ite h.put.recordFailure.startDue h.put.coldCause]
theorem State.Form.marchEnd {fails : List (Nat × Nat)} (h : s.Form) : (s.marchEnd fails).Form := by
  unfold State.marchEnd
  refine .foldl ?_ fun _ _ h0 => ?_
  · exact h.fillZero.fillZero.fillZero
  · refine .ite h0 ?_
    split
    exacts [h0.put.set1, h0.set1.hltReason]
theorem State.Form.fwLoad {img : List Byte} (h : s.Form) : (s.fwLoad img).Form := by
  unfold State.fwLoad
  extract_lets a body
  clear_value a body
  exact h.writeBytes.upPwr rfl
theorem State.Form.fwStep {cold : Bool} {img : List Byte} (h : s.Form) : (s.fwStep cold img).1.Form := by
  refine .ite_fst ?_ ?_
  · split <;> exact h
  · exact .ite_fst (.ite_fst h.fwLoad h) (.ite_fst (.ite_fst h.fwLoad h) (.ite_fst h.fwLoad
      (.ite_fst h.put.set1 (.ite_fst h.put.fwLoad h))))
theorem State.Form.foreground {cal : List (Int × Int × Int × Int)} (h : s.Form) : (s.foreground cal).Form := by
  unfold State.foreground
  refine .foldl ?_ fun _ _ h0 => ?_
  · exact h
  · refine .calRestart ?_
    refine .upAdc ?_
    refine .set1 ?_
    refine .foldl ?_ fun _ _ h4 => ?_
    · exact h0.put
    · split
      exact .ite h4.calStore (.ite h4 h4.retire)
theorem State.Form.mouldStep {psOk : Bool} (h : s.Form) : (s.mouldStep psOk).Form := by
  unfold State.mouldStep
  dsimp only
  split
  · exact .ldgPostFree (.loadImage (.clr (.foldl h (fun _ _ hy => hy.showSlot))))
  · exact .loadEnd (.put (.clr (.foldl h (fun _ _ hy => hy.showSlot))))
theorem State.Form.mouldKeep {psOk : Bool} (h : s.Form) : (s.mouldKeep psOk).Form := by
  unfold State.mouldKeep
  extract_lets _ _ s1 s2
  have h1 : s1.Form := h.clr
  have h2 : s2.Form := .foldl h1 fun _ _ hx => hx.showSlot
  clear_value s2
  refine .ite h1 ?_
  split
  · have emptied {l : List Nat} : (l.foldl (fun s n => s.unloadSheet n) s2).refreshPaired.Form :=
      .refreshPaired (.foldl h2 fun _ _ hx => hx.unloadSheet)
    exact .loadEnd (.ite emptied.put emptied)
  · refine .ldgPostFree (.loadEnd (.refreshPaired (.foldl h2 fun _ _ hx => ?_)))
    exact .ite hx.unloadSheet (.ite hx.unloadSheet.set1 hx.reloadSheet)
theorem State.Form.trainAll (h : s.Form) : s.trainAll.Form := .foldl h (fun _ _ hx => .ite hx.mute.trainStart hx)
theorem State.Form.diagnoseAll (h : s.Form) : s.diagnoseAll.Form := .foldl h (fun _ _ hx => .ite hx.diagStart hx)
theorem State.Form.mouldBegins {cold : Bool} (h : s.Form) : (s.mouldBegins cold).Form := .ite h.set1.put h.set1
theorem State.Form.stepEnded {r : StartRun} {step : Nat} (h : s.Form) : (s.stepEnded r step).Form := by
  unfold State.stepEnded
  extract_lets _ s1 s2
  have h1 : s1.Form := (h.upPwr rfl).put
  have h2 : s2.Form := .ite h1.mouldBegins h1
  exact .ite h2.trainAll (.ite h2.diagnoseAll h2)
theorem State.Form.startStep {step : Nat} {ok : Bool} {f : StepFound} (h : s.Form) : (s.startStep step ok f).Form := by
  unfold State.startStep
  split
  · exact h
  · refine .ite h ?_
    refine .ite h.stepFail ?_
    refine .ite h ?_
    split
    · exact h.put.put.stepEnded
    · exact h.marchEnd.stepEnded
    · exact .stepEnded (.ite h.hltReason h)
    · exact .ite h.fwStep.stepEnded (.ite h.fwStep.stepFail h.fwStep)
    · exact .stepEnded (.ite h.foreground (.foldl h (fun _ _ h5 => h5.calRestart)))
    · exact .stepEnded (.ite h.mouldStep h.mouldKeep)
    · exact h.stepEnded
theorem State.Form.startTimeout (h : s.Form) : s.startTimeout.Form := by
  unfold State.startTimeout
  split
  exacts [h, .ite h h.stepFail]
theorem State.Form.readyPoint {ok : Bool} (h : s.Form) : (s.readyPoint ok).Form := by
  unfold State.readyPoint
  extract_lets s1
  have h1 : s1.Form := h.set1.set1
  clear_value s1
  split
  · exact h
  · extract_lets s2 s3 s4 s5 s6 s7
    have h5 : s5.Form := .foldl (.foldl (h1.put.put.upPwr rfl) fun _ _ hx => .ite hx.sheetStart hx) fun _ _ hx => hx.unmute
    clear_value s5
    have h6 : s6.Form := .ite h5 h5.unmuteAll
    clear_value s6
    have h7 : s7.Form := .foldl h6 fun _ _ hx => hx.ttSkip
    exact .ite h (.ite h6.mirrorWrite (.foldl h7 fun _ _ hx => hx.dropHolds))

/-! ### Machine/RegWrite -/

theorem State.Form.pwrCmd {v : Nat} (h : s.Form) : (s.pwrCmd v).Form := by
  unfold State.pwrCmd
  extract_lets _ s1 s2 s3
  have h1 : s1.Form := .ite h.bootOk h
  have h2 : s2.Form := .ite h1.goldenClr h1
  have h3 : s3.Form := .ite h2.kick h2
  exact .ite h3.cmdCold (.ite h3.cmdWarm h3)
theorem State.Form.mldCmdWrite {v : Nat} (h : s.Form) : (s.mldCmdWrite v).Form := by
  unfold State.mldCmdWrite
  split
  exacts [h.mldProgram, h.mldBegin, h.mldBegin, h.mldBegin, h.mldStartLoad, h]
theorem State.Form.bnkCmdWrite {v : Nat} (h : s.Form) : (s.bnkCmdWrite v).Form := by
  unfold State.bnkCmdWrite
  split
  exacts [h.bankRelease, h.bankClaim, h.bankGrant, h.bankGrant, h.bankRepair, h]
theorem State.Form.cmnCmdWrite {v : Nat} (h : s.Form) : (s.cmnCmdWrite v).Form := by
  unfold State.cmnCmdWrite
  split
  · exact h.commonsCmd (fun _ hy => hy.commonsRead)
  · exact h.commonsCmd (fun _ hy => hy.commonsPin)
  · exact h.commonsCmd (fun _ hy => hy.commonsPin)
  · exact h.commonsCmd (fun _ hy => hy.commonsDelete)
  · exact h.commonsCmd (fun _ hy => hy.commonsPreset)
  · exact h
theorem State.Form.twnCmdWrite {v : Nat} (h : s.Form) : (s.twnCmdWrite v).Form := by
  unfold State.twnCmdWrite
  extract_lets s1 s2
  have h1 : s1.Form := .ite h.handoverRequest h
  have h2 : s2.Form := .ite h1.joinStart h1
  exact .ite h2.leave h2
theorem State.Form.fwCmdWrite {v : Nat} (h : s.Form) : (s.fwCmdWrite v).Form := by
  unfold State.fwCmdWrite
  split
  exacts [h.fwProgram, h.fwCheck, h.fwIsland, h]
theorem State.Form.ldgPortCmd {p v : Nat} (h : s.Form) : (s.ldgPortCmd p v).Form := by
  unfold State.ldgPortCmd
  split
  · split
    exacts [h.clr.set1, h.clr.cursorCmd, h.clr.cursorCmd, h.clr.cursorCmd, h.clr]
  · split
    exacts [h.set1, h.cursorCmd, h.cursorCmd, h.cursorCmd, h]
theorem State.Form.glnCmdWrite {c v : Nat} (h : s.Form) : (s.glnCmdWrite c v).Form := by
  unfold State.glnCmdWrite
  extract_lets s1 s2
  have h1 : s1.Form := .ite h.gleanStart h
  have h2 : s2.Form := .ite h1.gleanResume h1
  exact .ite h2.gleanStop h2
theorem State.Form.adcTcmdWrite {a v : Nat} (h : s.Form) : (s.adcTcmdWrite a v).Form :=
  .ite (.testAbort (.ite h.testStart h)) (.ite h.testStart h)
theorem State.Form.ceCmdWrite {n v : Nat} (h : s.Form) : (s.ceCmdWrite n v).Form :=
  .ite (.traceTrigger (.ite h.clr h)) (.ite h.clr h)
theorem State.Form.writeRefused (h : s.Form) : s.writeRefused.Form := h.bump.set1.errResp
theorem State.Form.writeRecord {who addr v : Nat} (h : s.Form) : (s.writeRecord who addr v).Form :=
  h.twSend.holdRecord.okResp
theorem State.Form.freshFor {addr : Nat} (h : s.Form) : (s.freshFor addr).Form := .ite h (.ite h.upToDate h)
theorem State.Form.laneRead {addr : Nat} (h : s.Form) : (s.laneRead addr).Form := by
  unfold State.laneRead
  split
  exacts [.ite h.upLane h, h]
theorem State.Form.wordRead {who addr : Nat} (h : s.Form) : (s.wordRead who addr).Form := by
  unfold State.wordRead
  split
  · dsimp only
    split
    exacts [h.freshFor.laneRead.with_holding.dataResp, h.freshFor.laneRead.tapRead]
  · split
    · dsimp only
      split
      exacts [h.freshFor.laneRead.with_holding.dataResp, h.freshFor.laneRead.snapRead]
    · split
      · dsimp only
        split
        exacts [h.freshFor.laneRead.with_holding.dataResp, h.freshFor.laneRead.irqClaim]
      · split
        · dsimp only
          split
          exacts [h.freshFor.laneRead.with_holding.dataResp, h.freshFor.laneRead.uartRead]
        · split
          · split
            · dsimp only
              split
              exacts [h.freshFor.laneRead.with_holding.dataResp, h.freshFor.laneRead.hold.dataResp]
            · dsimp only
              split
              exacts [h.freshFor.laneRead.with_holding.dataResp, h.freshFor.laneRead.dataResp]
          · dsimp only
            split
            exacts [h.freshFor.laneRead.with_holding.dataResp, h.freshFor.laneRead.dataResp]
theorem State.Form.registerRead {who addr size : Nat} (h : s.Form) : (s.registerRead who addr size).Form :=
  .ite h.bankServe (.ite h.errResp (.ite h.wordRead h.freshFor.dataResp))

/-! ### Machine/Burst -/

theorem State.Form.burstMoved {c ctl n : Nat} (h : s.Form) : (s.burstMoved c ctl n).Form :=
  .put (.put (.ite (.ite h h.put) (.put (.ite h h.put))))
theorem State.Form.burstRead {c addr n : Nat} (h : s.Form) : (s.burstRead c addr n).1.Form :=
  .ite_fst h.registerRead.with_resp h
theorem State.Form.partRows {addr n : Nat} (h : s.Form) : (s.partRows addr n).Form :=
  .foldl h (fun _ _ hx => hx.rowRead)

/-! ### Registers, bursts and warm starts -/

/-- Every state a command register's handler may answer is in form. -/
def State.Forms (o : Option State) : Prop := ∀ t ∈ o, t.Form

theorem State.Forms.none : State.Forms none := fun _ ht => nomatch ht
theorem State.Forms.some (h : s.Form) : State.Forms (some s) := fun _ ht => Option.mem_some.1 ht ▸ h
theorem State.Forms.ite {o p : Option State} {c : Prop} {_ : Decidable c} (h : State.Forms o) (h' : State.Forms p) :
    State.Forms (if c then o else p) := by split <;> assumption
theorem State.Forms.iteSome {c : Prop} {_ : Decidable c} (h : s.Form) : State.Forms (if c then .some s else .none) :=
  .ite (.some h) .none
theorem State.Forms.map {o : Option Nat} {f : Nat → State} (h : ∀ i, (f i).Form) : State.Forms (o.map f) := by
  cases o with
  | none => exact .none
  | some i => exact .some (h i)
theorem State.Forms.bind {o : Option Nat} {f : Nat → Option State} (h : ∀ i, State.Forms (f i)) : State.Forms (o.bind f) := by
  cases o with
  | none => exact .none
  | some i => exact h i

theorem State.Form.cmdWrite {addr v : Nat} (h : s.Form) : State.Forms (s.cmdWrite addr v) := by
  unfold State.cmdWrite
  dsimp only
  split
  · exact .iteSome h.pwrCmd
  · exact .iteSome h.mldCmdWrite
  · exact .iteSome h.bnkCmdWrite
  · exact .bind fun _ => .iteSome h.glnCmdWrite
  · exact .iteSome h.adcTcmdWrite
  · exact .iteSome (.ite h.syncCommand h)
  · exact .ite (.some (.ite h.moveStart h)) (.ite (.some h.ceCmdWrite) (.iteSome h.stageWrite))
  · exact .iteSome h.gload
  · exact .map fun _ => .ite h.fmxClear h
  · refine .bind fun l => ?_
    split
    exacts [.some h.desatClear, .some (.ite h.diagStart h), .some (.ite h.configSend h), .none]
  · exact .ite (.some h.cmnCmdWrite) (.map fun _ => .ite (h.upNet (by simp [Net.dims])) h)
  · exact .iteSome h.twnCmdWrite
  · exact .ite (.some h.ldgClrWrite) (.ite (.some (.ite h.ldgGo h)) (.map fun _ => h.ldgPortCmd))
  · exact .ite (.some (.ite h.hltReason h)) (.iteSome h.fwCmdWrite)
  · exact .map fun _ => h.irqComplete
  · exact .iteSome h.uartTx
  · exact .none
theorem State.Form.plainWrite {addr v : Nat} (h : s.Form) : (s.plainWrite addr v).Form := by
  unfold State.plainWrite
  refine .ite h.okResp (.ite h.errResp ?_)
  split
  next t e => exact h.okResp.cmdWrite t e
  next => exact .ite h.storeWord.okResp h.storeWord.errResp
theorem State.Form.wordWrite {who addr v : Nat} (h : s.Form) : (s.wordWrite who addr v).Form := by
  unfold State.wordWrite
  dsimp only
  have hs := h.freshFor (addr := addr)
  split
  · exact .ite hs.plainWrite (.ite hs.plainWrite.writeRefused hs.plainWrite.writeRecord.with_resp)
  · exact .ite hs.writeRefused (.ite hs.writeRecord hs.plainWrite)
theorem State.Form.registerWrite {who addr size v : Nat} (h : s.Form) : (s.registerWrite who addr size v).Form :=
  .ite h.bankServe (.ite h.errResp (.ite h.wordWrite (.ite h.freshFor.writeRefused
    (.ite h.freshFor.wordWrite.wordWrite.errResp h.freshFor.wordWrite.wordWrite))))
theorem State.Form.burstWrite {c addr : Nat} {bs : List Byte} (h : s.Form) : (s.burstWrite c addr bs).1.Form :=
  .ite_fst h.registerWrite.with_resp h.l2Passed.partRows.writeBytes
theorem State.Form.burst {c ctl next : Nat} {ue ce lost : Option Nat} (h : s.Form) :
    (s.burst c ctl next ue ce lost).Form := by
  have done {t : State} (ht : t.Form) : (if t.is (R.GLN_GC_REM c) then t else t.descEnd c ctl next).Form := .ite ht ht.descEnd
  unfold State.burst
  dsimp only
  have hs := h.rangeCheck (c := c) (addr := s.get (R.GLN_GC_SRC c)) (n := s.burstLen c ctl) (write := false)
  generalize s.rangeCheck c (s.get (R.GLN_GC_SRC c)) (s.burstLen c ctl) false = p1 at hs ⊢
  have hd := hs.rangeCheck (c := c) (addr := s.get (R.GLN_GC_DST c)) (n := s.burstLen c ctl) (write := true)
  generalize p1.1.rangeCheck c (s.get (R.GLN_GC_DST c)) (s.burstLen c ctl) true = p2 at hd ⊢
  refine .ite hs.gleanHalt (.ite hd.gleanHalt ?_)
  split
  next e => exact (hd.gleanRows.of_fst e).gleanHalt
  next e =>
    have hr := hd.gleanRows.of_fst e
    split
    next e => exact (hr.burstRead.of_fst e).gleanHalt
    next e =>
      have hb := hr.burstRead.of_fst e
      split
      · exact .ite (done hb.burstWrite.burstMoved) hb.burstWrite.writeBytes.writeLost.burstMoved.gleanHalt
      · split
        next e => exact (hb.burstWrite.of_fst e).gleanHalt
        next e => exact done (hb.burstWrite.of_fst e).burstMoved
theorem State.Form.gleanBurst {ue ce lost : Option Nat} (h : s.Form) : (s.gleanBurst ue ce lost).Form := by
  unfold State.gleanBurst
  dsimp only
  split
  · exact h.mailProgress
  · split
    exacts [h.mailProgress.upMst.gleanFetch, h.mailProgress.upMst.burst]
theorem State.Form.warmReset (h : s.Form) : s.warmReset.Form := by
  unfold State.warmReset
  extract_lets old s1 s2 s3 s4 s5 _ s6 s7 s8 s9 s10 s11
  have h5 : s5.Form := .foldl h.opsecSettle.warmRegs.put.put.put.put.put fun _ _ hx => hx.set1
  clear_value s5
  have h6 : s6.Form := by
    obtain ⟨-, -, -, -, -, -, ht, -⟩ := h5.shaped.units
    obtain ⟨-, -, -, hh, -⟩ := h5.shaped.rest
    refine h5.of_eq rfl ?_
    rw [State.dims, State.dims, show s5.ldg.restart.dims = [4, 4] from h5.ldg_dims, h5.net_dims,
      h5.twn_dims, h5.ldg_dims, ht, hh]
    simp only [s6, List.length_map]
    rfl
  have h7 : s7.Form := .ite h6.put h6
  have h10 : s10.Form := .foldl (.foldl h7.showKept.showUart.warmServos fun _ _ hx => hx.winConfig) fun _ _ hx => hx.trkConfig
  have h11 : s11.Form := h10.quadConfig.warmPulses
  clear_value s11
  exact .foldl (.settleLanes (.loadEnd (.ite h11.goJoining h11))) fun _ _ hx => .ite hx.gleanHalt hx
theorem State.Form.wrstAssert (h : s.Form) : s.wrstAssert.Form := by
  unfold State.wrstAssert
  have hn := h.warmReset.upPwr (f := fun p => { p with wrst := true }) rfl
  refine .ite (h.upPwr rfl) ?_
  dsimp only
  split
  exacts [hn, (hn.upPwr rfl).put]
theorem State.Form.warmStart (h : s.Form) : s.warmStart.Form := by
  unfold State.warmStart
  split
  · exact h
  · exact .ite h (.bump (.startRun (.ite h.leaveHold h.warmReset)))

/-! ### What a command leaves -/

/-- Each part of a settled state is the old one's or the new one's. -/
theorem State.Form.settle {new : State} {reach : List Part} {tb : Nat} (h : s.Form) (hn : new.Form) :
    (s.settle reach tb new).Form := by
  have e := hn.2.trans h.2.symm
  simp only [State.dims, List.cons.injEq, and_true, and_assoc] at e
  refine ⟨?_, Eq.trans ?_ h.2⟩
  · unfold State.settle State.confine
    dsimp only
    split
    exacts [hn.1, h.1]
  · simp only [State.dims, State.settle, State.confine, apply_ite List.length, apply_ite Net.dims, apply_ite Island.dims,
      apply_ite Twin.dims, apply_ite Ledger.dims, apply_ite Clock.dly, apply_ite HltState.tests, apply_ite Power.cells,
      e, ite_self]
theorem State.Form.finish {new : State} {reach : List Part} {tb : Nat} (h : s.Form) (hn : new.Form) :
    (s.finish reach tb new).Form := .ite (h.settle hn).follow (h.settle hn)

end Sys2Proof.Machine
end

section
/-!
Every well-formed command completes, keeps to its reach and keeps the form.
-/

namespace Sys2Proof.Machine

variable {reach : List Part} {s : State}

/-! ### What every command keeps

One lemma for each shape of a command's outcome, then one line for each command. -/

/-- A frame within a smaller reach is one within a larger. -/
theorem SameOutside.mono {r r' : List Part} {s s' : State} (hr : r ⊆ r') (h : SameOutside r s s') :
    SameOutside r' s s' := by
  have hn {p : Part} (hp : p ∉ r') : p ∉ r := fun hm => hp (hr hm)
  exact {
    word := fun a ha => h.word a (hn ha), qchg := fun hp => h.qchg (hn hp), byte := fun hp => h.byte (hn hp)
    rows := fun hp => h.rows (hn hp), bus := fun hp => h.bus (hn hp), ldg := fun hp => h.ldg (hn hp)
    pwm := fun hp => h.pwm (hn hp), fmx := fun hp => h.fmx (hn hp), lne := fun hp => h.lne (hn hp)
    ce := fun hp => h.ce (hn hp), mld := fun hp => h.mld (hn hp), adc := fun hp => h.adc (hn hp)
    scr := fun hp => h.scr (hn hp), tsu := fun hp => h.tsu (hn hp), twn := fun hp => h.twn (hn hp)
    pht := fun hp => h.pht (hn hp), net := fun hp => h.net (hn hp), wch := fun hp => h.wch (hn hp)
    mst := fun hp => h.mst (hn hp), clk := fun hp => h.clk (hn hp), hlt := fun hp => h.hlt (hn hp)
    pwr := fun hp => h.pwr (hn hp), pin := fun hp => h.pin (hn hp) }

/-- What a command keeps of the state it acts on: the queue, all that it does not reach, TB's course and width,
and the form. -/
structure Keeps (c : Instr) (s s' : State) : Prop where
  pending : s'.pending = s.pending
  reach : SameOutside (reachOf c) s s'
  held : actsHeld c = false → SameOutside (s.reachHeld (reachOf c)) s s'
  tb : if returnsTb c s then s'.tb = 0 else s.tb ≤ s'.tb
  width : s.tb < 2 ^ 64 → s'.tb < 2 ^ 64
  form : s.Form → s'.Form

variable {c : Instr} {t : Nat} {f : State → State}

/-- A command that does not return TB, and whose effect keeps the form. -/
theorem Keeps.finish {tb : Nat} {n : State} (hb : returnsTb c s = false) (ht : s.tb ≤ tb) (hw : s.tb < 2 ^ 64 → tb < 2 ^ 64)
    (hf : s.Form → n.Form) (hr : reach ⊆ reachOf c) (hh : actsHeld c = false → reach ⊆ s.reachHeld (reachOf c)) :
    Keeps c s (s.finish reach tb n) where
  pending := State.finish_pending
  reach := (SameOutside.of_finish ..).mono hr
  held ha := (SameOutside.of_finish ..).mono (hh ha)
  tb := by rw [hb, State.finish_tb]; exact ht
  width := by rw [State.finish_tb]; exact hw
  form h := h.finish (hf h)

theorem SameOutside.of_settle (reach : List Part) (s n : State) (tb : Nat) : SameOutside reach s (s.settle reach tb n) := by
  constructor
  case word => exact fun a h _ => State.settle_word_out h
  case qchg => exact fun h => .inl (State.settle_word_out (by
    rwa [partOf_eq (p := .mld) (k := 0x4003) (by decide) (by decide)]))
  case byte => exact fun h a => State.settle_byte_out h a
  all_goals intro h; simp [State.settle, State.confine, h]

theorem State.tb_width_at {s : State} {t : Nat} (h : s.tb < 2 ^ 64) : (s.at t).tb < 2 ^ 64 := s.tb_at_lt t h

/-- A command answers, and what it answers keeps all this. -/
def Completes (c : Instr) (s : State) : Prop := Answers c s (Keeps c s)

theorem Completes.act (he : exec c s = act (reachOf c) t s f) (hb : returnsTb c s = false)
    (hf : ∀ x : State, x.Form → (f x).Form) : Completes c s :=
  ⟨_, he, .finish hb (s.tb_le_at t) State.tb_width_at (fun h => hf _ h.at) (s.reachHeld_subset _) fun _ => List.Subset.refl _⟩
theorem Completes.onUnit {ok : Prop} {_ : Decidable ok} (he : exec c s = onUnit (reachOf c) ok t s f)
    (hb : returnsTb c s = false) (hok : ok) (hf : ∀ x : State, x.Form → (f x).Form) : Completes c s :=
  .act (he.trans (onUnit_pos hok ..)) hb hf
theorem Completes.opRow {n op : Nat} {f : State → Inst → State} (he : exec c s = opRow (reachOf c) t n op s f)
    (hb : returnsTb c s = false) (hn : n < 8) (hf : ∀ (x : State) i, x.Form → (f x i).Form) : Completes c s :=
  .onUnit he hb hn fun _ h => h.runInst hf
theorem Completes.laneAct (he : exec c s = laneAct (reachOf c) t s f) (hb : returnsTb c s = false)
    (hf : ∀ x : State, x.Form → (f x).Form) : Completes c s :=
  .act he hb fun x h => (hf x h).followed
theorem Completes.laneUnit {ok : Prop} {_ : Decidable ok} (he : exec c s = laneUnit (reachOf c) ok t s f)
    (hb : returnsTb c s = false) (hok : ok) (hf : ∀ x : State, x.Form → (f x).Form) : Completes c s :=
  .laneAct (he.trans (laneUnit_pos hok ..)) hb hf
theorem Completes.actCore (he : exec c s = actCore t s f) (hb : returnsTb c s = false) (hc : reachOf c = [.pwr])
    (hf : ∀ x : State, x.Form → (f x).Form) : Completes c s :=
  .act (he.trans (by rw [hc]; rfl)) hb fun x h => .ite h (hf x h)
theorem Completes.actHeld {r : List Part} (he : exec c s = actHeld r t s f) (hb : returnsTb c s = false)
    (ha : actsHeld c = true) (hr : r ⊆ reachOf c) (hf : ∀ x : State, x.Form → (f x).Form) : Completes c s :=
  ⟨_, he, .finish hb (s.tb_le_at t) State.tb_width_at (fun h => hf _ h.at) hr fun h => nomatch ha.symm.trans h⟩
theorem Completes.onUnitHeld {ok : Prop} {_ : Decidable ok} {r : List Part} (he : exec c s = onUnitHeld r ok t s f)
    (hb : returnsTb c s = false) (ha : actsHeld c = true) (hok : ok) (hr : r ⊆ reachOf c)
    (hf : ∀ x : State, x.Form → (f x).Form) : Completes c s :=
  .actHeld (he.trans (onUnitHeld_pos hok ..)) hb ha hr hf
theorem Completes.onUnitTime {ok : Prop} {_ : Decidable ok} (he : exec c s = onUnitTime (reachOf c) ok t s f)
    (hb : returnsTb c s = false) (hok : ok) (hf : ∀ x : State, x.Form → (f x).Form) : Completes c s := by
  replace he := he.trans (onUnitTime_pos hok ..)
  cases hh : s.held
  · exact ⟨_, he.trans (actTime_run hh ..), .finish hb ((s.tb_le_at t).trans (Nat.le_max_left ..))
      (fun h => Nat.max_lt.2 ⟨State.tb_width_at h, Nat.mod_lt _ (Nat.two_pow_pos 64)⟩) (fun h => hf _ h.at)
      (List.Subset.refl _) fun _ => (State.reachHeld_run hh _).symm ▸ List.Subset.refl _⟩
  · have hn : s.reachHeld [] = [] := by simp [State.reachHeld]
    exact ⟨_, he.trans ((actTime_held hh ..).trans (act_eq ..)), .finish hb (s.tb_le_at t) State.tb_width_at (fun h => h.at)
      (hn.symm ▸ List.nil_subset _) fun _ => hn.symm ▸ List.nil_subset _⟩
theorem Completes.actReset {back : Bool} (he : exec c s = actReset (reachOf c) back t s f) (hb : returnsTb c s = back)
    (ha : actsHeld c = true) (hf : ∀ x : State, x.Form → (f x).Form) : Completes c s := by
  refine ⟨_, he, rfl, .of_settle .., fun h => (nomatch ha.symm.trans h), ?_, fun h => ?_, fun h => h.settle (hf _ h.at)⟩
  · rw [hb, State.settle_tb]
    cases back
    exacts [s.tb_le_at t, rfl]
  · rw [State.settle_tb]
    split
    exacts [Nat.two_pow_pos 64, State.tb_width_at h]

/-- Every well-formed command completes. -/
theorem exec_completes (c : Instr) (s : State) (wf : c.wf = true) : Completes c s := by
  have hu := Sys2Proof.Laws.Units.all c wf
  cases c with
  | registerWrite => exact .laneUnit (.refl (execRegisterWrite ..)) rfl (hu _ (.head _)) fun _ h => h.registerWrite
  | lowWordReadCapture =>
    exact .laneUnit (.refl (execLowWordReadCapture ..)) rfl (hu _ (.head _)) fun _ h => h.registerRead
  | mldProgram => exact .onUnit (.refl (execMldProgram ..)) rfl (hu _ (.head _)) fun _ h => h.mldProgram
  | mldCheck => exact .onUnit (.refl (execMldCheck ..)) rfl (hu _ (.head _)) fun _ h => h.mldBegin
  | mldReload =>
    exact .onUnit (.refl (execMldReload ..)) rfl ⟨hu _ (.head _), hu _ (.tail _ (.head _))⟩ fun _ h => h.mldBegin
  | mldWithdraw => exact .onUnit (.refl (execMldWithdraw ..)) rfl (hu _ (.head _)) fun _ h => h.mldBegin
  | mldStartLoad => exact .onUnit (.refl (execMldStartLoad ..)) rfl (hu _ (.head _)) fun _ h => h.mldStartLoad
  | mldCommandEnd => exact .laneAct (.refl (execMldCommandEnd ..)) rfl fun _ h => h.mldEnd
  | sheetQuiesce => exact .laneUnit (.refl (execSheetQuiesce ..)) rfl (hu _ (.head _)) fun _ h => h.sheetQuiesce
  | sheetRelease => exact .laneUnit (.refl (execSheetRelease ..)) rfl (hu _ (.head _)) fun _ h => h.sheetRelease
  | sheetQuiesced => exact .onUnit (.refl (execSheetQuiesced ..)) rfl (hu _ (.head _)) fun _ h => h.showQuiesced
  | quiesceReadbackTimeout =>
    exact .onUnit (.refl (execQuiesceReadbackTimeout ..)) rfl (hu _ (.head _)) fun _ h => h.showQuiesced
  | adcFrame => exact .act (.refl (execAdcFrame ..)) rfl fun _ h => h.adcFrame
  | mainPathWord => exact .laneUnit (.refl (execMainPathWord ..)) rfl (hu _ (.head _)) fun _ h => h.mainPath
  | calStep => exact .onUnit (.refl (execCalStep ..)) rfl (hu _ (.head _)) fun _ h => h.calStep
  | calHandover => exact .onUnit (.refl (execCalHandover ..)) rfl (hu _ (.head _)) fun _ h => h.handover
  | calStarvedTimeout =>
    exact .onUnit (.refl (execCalStarvedTimeout ..)) rfl (hu _ (.head _)) fun _ h => h.calStarved
  | calenChange => exact .onUnit (.refl (execCalenChange ..)) rfl (hu _ (.head _)) fun _ h => h.calenChange
  | lfsrWrite => exact .onUnit (.refl (execLfsrWrite ..)) rfl (hu _ (.head _)) fun _ h => h.lfsrWrite
  | presentationWrite => exact .onUnit (.refl (execPresentationWrite ..)) rfl (hu _ (.head _)) fun _ h => h.presWrite
  | snapshotTrigger => exact .onUnit (.refl (execSnapshotTrigger ..)) rfl (hu _ (.head _)) fun _ h => h.snapTrigger
  | snapshotDone => exact .onUnit (.refl (execSnapshotDone ..)) rfl (hu _ (.head _)) fun _ h => h.snapDone
  | snapDataRead =>
    exact .onUnit (.refl (execSnapDataRead ..)) rfl
      ⟨hu _ (.head _), hu _ (.tail _ (.head _)), hu _ (.tail _ (.tail _ (.head _)))⟩ fun _ h => h.snapRead
  | tapValRead =>
    exact .onUnit (.refl (execTapValRead ..)) rfl ⟨hu _ (.head _), hu _ (.tail _ (.head _))⟩ fun _ h => h.tapRead
  | testStart => exact .onUnit (.refl (execTestStart ..)) rfl (hu _ (.head _)) fun _ h => h.testStart
  | testAbort => exact .onUnit (.refl (execTestAbort ..)) rfl (hu _ (.head _)) fun _ h => h.testAbort
  | testSettleEnd => exact .onUnit (.refl (execTestSettleEnd ..)) rfl (hu _ (.head _)) fun _ h => h.testSettle
  | testMeanEnd => exact .onUnit (.refl (execTestMeanEnd ..)) rfl (hu _ (.head _)) fun _ h => h.testMean
  | watchRequest => exact .onUnit (.refl (execWatchRequest ..)) rfl (hu _ (.head _)) fun _ h => h.watchRequest
  | watchEnter => exact .onUnit (.refl (execWatchEnter ..)) rfl (hu _ (.head _)) fun _ h => h.watchEnter
  | watchExitRequest =>
    exact .onUnit (.refl (execWatchExitRequest ..)) rfl (hu _ (.head _)) fun _ h => h.watchExitRequest
  | watchExit => exact .onUnit (.refl (execWatchExit ..)) rfl (hu _ (.head _)) fun _ h => h.watchExit
  | syncPinEdge => exact .act (.refl (execSyncPinEdge ..)) rfl fun _ h => h.syncPin
  | syncReset => exact .act (.refl (execSyncReset ..)) rfl fun _ h => h.syncCommand
  | phaseReset => exact .act (.refl (execPhaseReset ..)) rfl fun _ h => h.applyReset
  | syncOutputEdge => exact .act (.refl (execSyncOutputEdge ..)) rfl fun _ h => h.syncOutput
  | fastWindowEnable =>
    exact .laneUnit (.refl (execFastWindowEnable ..)) rfl (hu _ (.head _)) fun _ h => h.fastEnable
  | tickArrival => exact .laneUnit (.refl (execTickArrival ..)) rfl (hu _ (.head _)) fun _ h => h.tickArrival
  | runStart => exact .laneUnit (.refl (execRunStart ..)) rfl (hu _ (.head _)) fun _ h => h.joinAtX.runStart
  | overrunLimit => exact .laneUnit (.refl (execOverrunLimit ..)) rfl (hu _ (.head _)) fun _ h => h.overrunLimit
  | runEnd => exact .laneUnit (.refl (execRunEnd ..)) rfl (hu _ (.head _)) fun _ h => h.runEndAll
  | nop => exact .opRow (.refl (execNop ..)) rfl (hu _ (.head _)) fun _ _ h => h
  | load => exact .opRow (.refl (execLoad ..)) rfl (hu _ (.head _)) fun _ _ h => h.opLoad
  | clarke => exact .opRow (.refl (execClarke ..)) rfl (hu _ (.head _)) fun _ _ h => h.opClarke
  | iclarke => exact .opRow (.refl (execIclarke ..)) rfl (hu _ (.head _)) fun _ _ h => h.opIclarke
  | park => exact .opRow (.refl (execPark ..)) rfl (hu _ (.head _)) fun _ _ h => h.opPark
  | ipark => exact .opRow (.refl (execIpark ..)) rfl (hu _ (.head _)) fun _ _ h => h.opIpark
  | angle => exact .opRow (.refl (execAngle ..)) rfl (hu _ (.head _)) fun _ _ h => h.opAngle
  | pi => exact .opRow (.refl (execPi ..)) rfl (hu _ (.head _)) fun _ _ h => h.opPi
  | res => exact .opRow (.refl (execRes ..)) rfl (hu _ (.head _)) fun _ _ h => h.opRes
  | matvec => exact .opRow (.refl (execMatvec ..)) rfl (hu _ (.head _)) fun _ _ h => h.opMatvec
  | obs => exact .opRow (.refl (execObs ..)) rfl (hu _ (.head _)) fun _ _ h => h.opObs
  | swing => exact .opRow (.refl (execSwing ..)) rfl (hu _ (.head _)) fun _ _ h => h.opSwing
  | droop => exact .opRow (.refl (execDroop ..)) rfl (hu _ (.head _)) fun _ _ h => h.opDroop
  | vimp => exact .opRow (.refl (execVimp ..)) rfl (hu _ (.head _)) fun _ _ h => h.opVimp
  | ilim => exact .opRow (.refl (execIlim ..)) rfl (hu _ (.head _)) fun _ _ h => h.opIlim
  | frt => exact .opRow (.refl (execFrt ..)) rfl (hu _ (.head _)) fun _ _ h => h.opFrt
  | ramp => exact .opRow (.refl (execRamp ..)) rfl (hu _ (.head _)) fun _ _ h => h.opRamp
  | lpf => exact .opRow (.refl (execLpf ..)) rfl (hu _ (.head _)) fun _ _ h => h.opLpf
  | limit => exact .opRow (.refl (execLimit ..)) rfl (hu _ (.head _)) fun _ _ h => h.opLimit
  | lut => exact .opRow (.refl (execLut ..)) rfl (hu _ (.head _)) fun _ _ h => h.opLut
  | power => exact .opRow (.refl (execPower ..)) rfl (hu _ (.head _)) fun _ _ h => h.opPower
  | rms => exact .opRow (.refl (execRms ..)) rfl (hu _ (.head _)) fun _ _ h => h.opRms
  | svm3l => exact .opRow (.refl (execSvm3l ..)) rfl (hu _ (.head _)) fun _ _ h => h.opSvm3l
  | select => exact .opRow (.refl (execSelect ..)) rfl (hu _ (.head _)) fun _ _ h => h.opSelect
  | compare => exact .opRow (.refl (execCompare ..)) rfl (hu _ (.head _)) fun _ _ h => h.opCompare
  | guard => exact .opRow (.refl (execGuard ..)) rfl (hu _ (.head _)) fun _ _ h => h.opGuard
  | sum => exact .opRow (.refl (execSum ..)) rfl (hu _ (.head _)) fun _ _ h => h.opSum
  | mul => exact .opRow (.refl (execMul ..)) rfl (hu _ (.head _)) fun _ _ h => h.opMul
  | emit => exact .opRow (.refl (execEmit ..)) rfl (hu _ (.head _)) fun _ _ h => h.opEmit
  | mailboxWrite =>
    exact .laneUnit (.refl (execMailboxWrite ..)) rfl (hu _ (.head _)) fun _ h => h.runInst fun _ _ h => h.opMailWrite
  | mailboxRead =>
    exact .onUnit (.refl (execMailboxRead ..)) rfl (hu _ (.head _)) fun _ h => h.runInst fun _ _ h => h.opMailRead
  | event => exact .opRow (.refl (execEvent ..)) rfl (hu _ (.head _)) fun _ _ h => h.opEvent
  | trace => exact .opRow (.refl (execTrace ..)) rfl (hu _ (.head _)) fun _ _ h => h.opTrace
  | engineEccFault =>
    exact .laneUnit (.refl (execEngineEccFault ..)) rfl (hu _ (.head _)) fun _ h => h.eccFault.moveBoundary
  | recipeCheckDone => exact .laneUnit (.refl (execRecipeCheckDone ..)) rfl (hu _ (.head _)) fun _ h => h.checkDone
  | coefSwapRequest => exact .onUnit (.refl (execCoefSwapRequest ..)) rfl (hu _ (.head _)) fun _ h => h.coefSwap
  | recipeSwapRequest =>
    exact .onUnit (.refl (execRecipeSwapRequest ..)) rfl (hu _ (.head _)) fun _ h => h.recipeSwap
  | stageWrite => exact .onUnit (.refl (execStageWrite ..)) rfl (hu _ (.head _)) fun _ h => h.stageWrite
  | clrCycmax => exact .onUnit (.refl (execClrCycmax ..)) rfl (hu _ (.head _)) fun _ h => h.clr
  | trcTrig => exact .onUnit (.refl (execTrcTrig ..)) rfl (hu _ (.head _)) fun _ h => h.traceTrigger
  | traceArm => exact .onUnit (.refl (execTraceArm ..)) rfl (hu _ (.head _)) fun _ h => h.traceArm
  | moveRequest => exact .onUnit (.refl (execMoveRequest ..)) rfl (hu _ (.head _)) fun _ h => h.moveStart
  | moveCopyEnd => exact .laneAct (.refl (execMoveCopyEnd ..)) rfl fun _ h => h.moveCopied
  | moveDone => exact .laneAct (.refl (execMoveDone ..)) rfl fun _ h => h.moveDone
  | periodStart => exact .laneUnit (.refl (execPeriodStart ..)) rfl (hu _ (.head _)) fun _ h => h.periodStart
  | compareFire =>
    exact .onUnit (.refl (execCompareFire ..)) rfl ⟨hu _ (.head _), hu _ (.tail _ (.head _))⟩ fun _ h => h.compareFire
  | groupEnable => exact .laneUnit (.refl (execGroupEnable ..)) rfl (hu _ (.head _)) fun _ h => h.groupEnable
  | loadallRequest => exact .onUnit (.refl (execLoadallRequest ..)) rfl (hu _ (.head _)) fun _ h => h.requestLoad
  | gload => exact .act (.refl (execGload ..)) rfl fun _ h => h.gload
  | shadowWrite =>
    refine .onUnit (.refl (execShadowWrite ..)) rfl ?_ fun _ h => .ite h.shadowDuty h.shadowPeriod
    have := hu _ (.head _)
    split <;> simp_all [UnitKind.count]
  | groupLoad => exact .laneUnit (.refl (execGroupLoad ..)) rfl (hu _ (.head _)) fun _ h => h.groupLoad
  | fltPinAsserted =>
    cases hh : s.held
    · exact .laneUnit (if_neg (by simp [hh])) rfl (hu _ (.head _)) fun _ h => h.fltPin
    · exact .onUnitHeld (if_pos hh) rfl rfl (hu _ (.head _)) (by simp [reachOf]) fun _ h =>
        h.with_fltPins (length_upd ..)
  | fmxClear => exact .laneUnit (.refl (execFmxClear ..)) rfl (hu _ (.head _)) fun _ h => h.fmxClear
  | edgeSend => exact .laneUnit (.refl (execEdgeSend ..)) rfl (hu _ (.head _)) fun _ h => h.edgeSend
  | executedLevelChange =>
    exact .laneUnit (.refl (execExecutedLevelChange ..)) rfl (hu _ (.head _)) fun _ h => h.lineRun.runEdges
  | timeFrameSend => exact .laneUnit (.refl (execTimeFrameSend ..)) rfl (hu _ (.head _)) fun _ h => h.queueTime
  | statusFrameReceive =>
    exact .laneUnit (.refl (execStatusFrameReceive ..)) rfl (hu _ (.head _)) fun _ h => h.statusFrame
  | statusTimeout => exact .laneUnit (.refl (execStatusTimeout ..)) rfl (hu _ (.head _)) fun _ h => .ite h.laneLose h
  | qfullHoldEnd => exact .laneUnit (.refl (execQfullHoldEnd ..)) rfl (hu _ (.head _)) fun _ h => h.qfullEnd
  | desatClear => exact .laneUnit (.refl (execDesatClear ..)) rfl (hu _ (.head _)) fun _ h => h.desatClear
  | diagStart => exact .laneUnit (.refl (execDiagStart ..)) rfl (hu _ (.head _)) fun _ h => h.diagStart
  | diagTimeout => exact .onUnit (.refl (execDiagTimeout ..)) rfl (hu _ (.head _)) fun _ h => h.diagTimeout
  | trainStart => exact .laneUnit (.refl (execTrainStart ..)) rfl (hu _ (.head _)) fun _ h => h.trainStart
  | trainEnd =>
    exact .laneUnit (.refl (execTrainEnd ..)) rfl (hu _ (.head _)) fun _ h => h.lineRun.trainEnd.joinLanes.tryRelease
  | configSend => exact .laneUnit (.refl (execConfigSend ..)) rfl (hu _ (.head _)) fun _ h => h.configSend
  | configTimeout =>
    exact .laneUnit (.refl (execConfigTimeout ..)) rfl (hu _ (.head _)) fun _ h => h.lineRun.configTimeout
  | laneDisable => exact .laneUnit (.refl (execLaneDisable ..)) rfl (hu _ (.head _)) fun _ h => h.laneDisable
  | portLinkChange => exact .onUnit (.refl (execPortLinkChange ..)) rfl (hu _ (.head _)) fun _ h => h.linkChange
  | forwardStart => exact .onUnit (.refl (execForwardStart ..)) rfl (hu _ (.head _)) fun _ h => h.forwardStart
  | frameReceive => exact .onUnit (.refl (execFrameReceive ..)) rfl (hu _ (.head _)) fun _ h => h.frameReceive
  | ddEntryExpiry => exact .act (.refl (execDdEntryExpiry ..)) rfl fun _ h => h.ddExpire
  | txKick => exact .onUnit (.refl (execTxKick ..)) rfl (hu _ (.head _)) fun _ h => h.upNet (by simp [Net.dims])
  | hostTxDescriptor => exact .onUnit (.refl (execHostTxDescriptor ..)) rfl (hu _ (.head _)) fun _ h => h.hostTx
  | egressTransmit => exact .onUnit (.refl (execEgressTransmit ..)) rfl (hu _ (.head _)) fun _ h => h.egressSend
  | transmitSlotFrame => exact .onUnit (.refl (execTransmitSlotFrame ..)) rfl (hu _ (.head _)) fun _ h => h.slotSend
  | supervisionFrame => exact .act (.refl (execSupervisionFrame ..)) rfl fun _ h => h.supervision
  | beaconSend => exact .act (.refl (execBeaconSend ..)) rfl fun _ h => h.beaconSend
  | commonsAging => exact .act (.refl (execCommonsAging ..)) rfl fun _ h => h.commonsTick
  | read => exact .act (.refl (execRead ..)) rfl fun _ h => h.commonsCmd fun _ h => h.commonsRead
  | pin => exact .act (.refl (execPin ..)) rfl fun _ h => h.commonsCmd fun _ h => h.commonsPin
  | unpin => exact .act (.refl (execUnpin ..)) rfl fun _ h => h.commonsCmd fun _ h => h.commonsPin
  | delete => exact .act (.refl (execDelete ..)) rfl fun _ h => h.commonsCmd fun _ h => h.commonsDelete
  | preset => exact .act (.refl (execPreset ..)) rfl fun _ h => h.commonsCmd fun _ h => h.commonsPreset
  | syncMessage =>
    exact .onUnitTime (.refl (execSyncMessage ..)) rfl (hu _ (.head _)) fun _ h => h.syncMessage.followed
  | followUp => exact .onUnitTime (.refl (execFollowUp ..)) rfl (hu _ (.head _)) fun _ h => h.followUp.followed
  | announce => exact .onUnit (.refl (execAnnounce ..)) rfl (hu _ (.head _)) fun _ h => h.announce
  | pdelayReqSend => exact .onUnit (.refl (execPdelayReqSend ..)) rfl (hu _ (.head _)) fun _ h => h.pdelaySend
  | pdelayReq => exact .onUnit (.refl (execPdelayReq ..)) rfl (hu _ (.head _)) fun _ h => h.pdelayAnswer
  | pdelayResp => exact .onUnit (.refl (execPdelayResp ..)) rfl (hu _ (.head _)) fun _ h => h.pdelayResp
  | pdelayTimeout => exact .onUnit (.refl (execPdelayTimeout ..)) rfl (hu _ (.head _)) fun _ h => h.pdelayTimeout
  | announceTimeout =>
    exact .onUnit (.refl (execAnnounceTimeout ..)) rfl (hu _ (.head _)) fun _ h => h.announceTimeout
  | syncTimeout => exact .onUnit (.refl (execSyncTimeout ..)) rfl (hu _ (.head _)) fun _ h => h.syncTimeout
  | servoHold => exact .act (.refl (execServoHold ..)) rfl fun _ h => h.servoHold
  | domainReturn => exact .act (.refl (execDomainReturn ..)) rfl fun _ h => h.domainReturn
  | ttFire => exact .laneUnit (.refl (execTtFire ..)) rfl (hu _ (.head _)) fun _ h => h.ttFire
  | ttEnable => exact .onUnit (.refl (execTtEnable ..)) rfl (hu _ (.head _)) fun _ h => h.ttEnable
  | journalRunRecord =>
    exact .onUnit (.refl (execJournalRunRecord ..)) rfl (hu _ (.head _)) fun _ h => h.twinFrame fun _ h => h.runRecord
  | journalWriteRecord =>
    exact .act (.refl (execJournalWriteRecord ..)) rfl fun _ h => h.twinFrame fun _ h => h.holdRecord
  | journalFilterRecord =>
    exact .onUnit (.refl (execJournalFilterRecord ..)) rfl (hu _ (.head _)) fun _ h =>
      h.twinFrame fun _ h => h.holdRecord
  | journalApply => exact .laneAct (.refl (execJournalApply ..)) rfl fun _ h => h.journalApply
  | checkpoint =>
    exact .laneUnit (.refl (execCheckpoint ..)) rfl (hu _ (.head _)) fun _ h => h.twinFrame fun _ h => h.checkpointIn
  | checkpointTimeout =>
    exact .laneUnit (.refl (execCheckpointTimeout ..)) rfl (hu _ (.head _)) fun _ h => h.checkpointTimeout
  | verdict =>
    exact .laneUnit (.refl (execVerdict ..)) rfl (hu _ (.head _)) fun _ h => h.twinFrame fun _ h => h.verdict
  | verdictTimeout => exact .laneAct (.refl (execVerdictTimeout ..)) rfl fun _ h => h.verdictTimeout
  | health => exact .laneAct (.refl (execHealth ..)) rfl fun _ h => h.twinFrame fun _ h => h.health
  | healthSend => exact .act (.refl (execHealthSend ..)) rfl fun _ h => h.healthSend
  | stateFrame => exact .laneAct (.refl (execStateFrame ..)) rfl fun _ h => h.twinFrame fun _ h => h.stateFrame
  | nak => exact .act (.refl (execNak ..)) rfl fun _ h => h.twinFrame fun _ h => h.twAgain
  | twinLaneDown => exact .onUnit (.refl (execTwinLaneDown ..)) rfl (hu _ (.head _)) fun _ h => h.twinLane
  | linkLost => exact .laneAct (.refl (execLinkLost ..)) rfl fun _ h => h.linkLost
  | handover => exact .act (.refl (execHandover ..)) rfl fun _ h => h.handoverRequest
  | join => exact .act (.refl (execJoin ..)) rfl fun _ h => h.joinStart
  | leave => exact .laneAct (.refl (execLeave ..)) rfl fun _ h => h.leave
  | autojoinStart => exact .act (.refl (execAutojoinStart ..)) rfl fun _ h => h.autojoin
  | joinWaitExpiry => exact .laneAct (.refl (execJoinWaitExpiry ..)) rfl fun _ h => h.joinWait
  | joinTimeout => exact .act (.refl (execJoinTimeout ..)) rfl fun _ h => h.joinTimeout
  | handoverInstant => exact .act (.refl (execHandoverInstant ..)) rfl fun _ h => h.handoverInstant
  | handoverEnd => exact .laneAct (.refl (execHandoverEnd ..)) rfl fun _ h => h.handoverEnd
  | revertHoldoffExpiry => exact .act (.refl (execRevertHoldoffExpiry ..)) rfl fun _ h => h.revertExpiry
  | tbLimitExpiry => exact .laneAct (.refl (execTbLimitExpiry ..)) rfl fun _ h => h.tbLimit
  | steerReturn => exact .act (.refl (execSteerReturn ..)) rfl fun _ h => h.steerReturn
  | timeHandover => exact .act (.refl (execTimeHandover ..)) rfl fun _ h => h.timeHandover
  | sinSample => exact .act (.refl (execSinSample ..)) rfl fun _ h => h.sinSample
  | inputTestPulse => exact .act (.refl (execInputTestPulse ..)) rfl fun _ h => h.inputPulse
  | evaluationStep => exact .laneAct (.refl (execEvaluationStep ..)) rfl fun _ h => h.evalStep
  | discrepancyTimeout =>
    exact .onUnit (.refl (execDiscrepancyTimeout ..)) rfl (hu _ (.head _)) fun _ h => h.discJudge
  | safeOutputOff => exact .onUnit (.refl (execSafeOutputOff ..)) rfl (hu _ (.head _)) fun _ h => h.outputOff
  | readbackSample => exact .laneAct (.refl (execReadbackSample ..)) rfl fun _ h => h.readback
  | outputTestPulse => exact .onUnit (.refl (execOutputTestPulse ..)) rfl (hu _ (.head _)) fun _ h => h.testPulse
  | resetAccept => exact .laneAct (.refl (execResetAccept ..)) rfl fun _ h => h.resetAccept
  | srstStuck => exact .act (.refl (execSrstStuck ..)) rfl fun _ h => h.srstStuck
  | sealSample => exact .laneAct (.refl (execSealSample ..)) rfl fun _ h => h.sealSample
  | internalFault =>
    exact .laneUnit (.refl (execInternalFault ..)) rfl (hu _ (.head _)) fun _ h => .isleFail (.ite h.andn h)
  | islandStartEnd => exact .laneAct (.refl (execIslandStartEnd ..)) rfl fun _ h => h.isleStarted
  | check => exact .act (.refl (execCheck ..)) rfl fun _ h => h.psCheckCmd
  | store => exact .act (.refl (execStore ..)) rfl fun _ h => h.psStoreCmd
  | psOperationEnd => exact .act (.refl (execPsOperationEnd ..)) rfl fun _ h => h.psEnd
  | safetyStopRequest => exact .act (.refl (execSafetyStopRequest ..)) rfl fun _ h => h.orr
  | nativeSafetyFrame => exact .act (.refl (execNativeSafetyFrame ..)) rfl fun _ h => h.safetyFrame
  | nay2400SafetyFrame => exact .act (.refl (execNay2400SafetyFrame ..)) rfl fun _ h => h.safetyFrame
  | safetyCopyTimeout =>
    exact .onUnit (.refl (execSafetyCopyTimeout ..)) rfl (hu _ (.head _)) fun _ h => h.copyTimeout
  | connectionWatchdogExpiry =>
    exact .onUnit (.refl (execConnectionWatchdogExpiry ..)) rfl (hu _ (.head _)) fun _ h => h.connExpiry
  | safetyFrameSend => exact .onUnit (.refl (execSafetyFrameSend ..)) rfl (hu _ (.head _)) fun _ h => h.safetySend
  | bankAccess => exact .laneAct (.refl (execBankAccess ..)) rfl fun _ h => h.bankServe
  | release => exact .act (.refl (execRelease ..)) rfl fun _ h => h.bankRelease
  | releaseDone => exact .act (.refl (execReleaseDone ..)) rfl fun _ h => h.bankFree
  | claim => exact .act (.refl (execClaim ..)) rfl fun _ h => h.bankClaim
  | grant => exact .act (.refl (execGrant ..)) rfl fun _ h => h.bankGrant
  | revoke => exact .act (.refl (execRevoke ..)) rfl fun _ h => h.bankGrant
  | repair => exact .act (.refl (execRepair ..)) rfl fun _ h => h.bankRepair
  | sweeperStep => exact .act (.refl (execSweeperStep ..)) rfl fun _ h => h.sweepStep
  | start => exact .onUnit (.refl (execStart ..)) rfl (hu _ (.head _)) fun _ h => h.gleanStart
  | resume => exact .onUnit (.refl (execResume ..)) rfl (hu _ (.head _)) fun _ h => h.gleanResume
  | stop => exact .onUnit (.refl (execStop ..)) rfl (hu _ (.head _)) fun _ h => h.gleanStop
  | gleanBurst => exact .laneAct (.refl (execGleanBurst ..)) rfl fun _ h => h.gleanBurst
  | referenceAbsent =>
    exact .laneUnit (.refl (execReferenceAbsent ..)) rfl (hu _ (.head _)) fun _ h => h.referenceAbsent
  | referencePresent =>
    exact .onUnit (.refl (execReferencePresent ..)) rfl (hu _ (.head _)) fun _ h => h.referencePresent
  | lossOfLock =>
    exact .laneUnit (.refl (execLossOfLock ..)) rfl (hu _ (.head _)) fun _ h =>
      .ite (.ite h.put.clr.showDll.refChange h.put.clr.showDll.loseLock) h.put.loseLock
  | dllChangeover => exact .laneAct (.refl (execDllChangeover ..)) rfl fun _ h => h.dllChangeover
  | dllRealigned => exact .act (.refl (execDllRealigned ..)) rfl fun _ h => h.set1
  | pllLocked => exact .act (.refl (execPllLocked ..)) rfl fun _ h => h.pllLocked
  | pllChangeover => exact .laneAct (.refl (execPllChangeover ..)) rfl fun _ h => h.pllChangeover
  | smpRestart => exact .act (.refl (execSmpRestart ..)) rfl fun _ h => h.smpRestart
  | outputConfigWrite =>
    exact .onUnit (.refl (execOutputConfigWrite ..)) rfl (hu _ (.head _)) fun _ h => h.outputConfig
  | mpgRise => exact .actReset (.refl (execMpgRise ..)) rfl rfl fun _ h => h.mpgRise
  | mpgFall => exact .actReset (.refl (execMpgFall ..)) rfl rfl fun _ h => h.mpgFall
  | porstNAssert => exact .actReset (.refl (execPorstNAssert ..)) rfl rfl fun _ h => h.porstAssert
  | porstNRelease => exact .actReset (.refl (execPorstNRelease ..)) rfl rfl fun _ h => h.porstRelease
  | wrstNAssert => exact .actReset (.refl (execWrstNAssert ..)) rfl rfl fun _ h => h.wrstAssert
  | wrstNRelease =>
    exact .actHeld (.refl (execWrstNRelease ..)) rfl rfl (List.Subset.refl _) fun _ h => h.wrstRelease
  | powerFailWarning => exact .act (.refl (execPowerFailWarning ..)) rfl fun _ h => h.powerWarning
  | powerFailClear => exact .act (.refl (execPowerFailClear ..)) rfl fun _ h => h.powerClear
  | opsecSecond => exact .act (.refl (execOpsecSecond ..)) rfl fun _ h => h.opsecSecond
  | vkaLow => exact .act (.refl (execVkaLow ..)) rfl fun _ h => h.vkaLow
  | coldStart => exact .actReset (.refl (execColdStart ..)) rfl rfl fun _ h => h.coldStart
  | warmStart => exact .actReset (.refl (execWarmStart ..)) rfl rfl fun _ h => h.warmStart
  | readyPoint => exact .laneAct (.refl (execReadyPoint ..)) rfl fun _ h => h.readyPoint
  | startTimeout => exact .act (.refl (execStartTimeout ..)) rfl fun _ h => h.startTimeout
  | warm => exact .actCore (.refl (execWarm ..)) rfl rfl fun _ h => h.cmdWarm
  | cold => exact .actCore (.refl (execCold ..)) rfl rfl fun _ h => h.cmdCold
  | bootOk => exact .actCore (.refl (execBootOk ..)) rfl rfl fun _ h => h.bootOk
  | goldenClr => exact .actCore (.refl (execGoldenClr ..)) rfl rfl fun _ h => h.goldenClr
  | kick => exact .actCore (.refl (execKick ..)) rfl rfl fun _ h => h.kick
  | confirmExpiry => exact .act (.refl (execConfirmExpiry ..)) rfl fun _ h => h.confirmExpiry
  | watchdogExpiry => exact .actCore (.refl (execWatchdogExpiry ..)) rfl rfl fun _ h => h.watchdogExpiry
  | ledgerPost => exact .onUnit (.refl (execLedgerPost ..)) rfl (hu _ (.head _)) fun _ h => h.ldgPost
  | go => exact .act (.refl (execGo ..)) rfl fun _ h => h.ldgGo
  | recordProgramDone => exact .act (.refl (execRecordProgramDone ..)) rfl fun _ h => h.ldgProgram
  | cursorLoad => exact .onUnit (.refl (execCursorLoad ..)) rfl (hu _ (.head _)) fun _ h => h.set1
  | next => exact .onUnit (.refl (execNext ..)) rfl (hu _ (.head _)) fun _ h => h.cursorCmd
  | newest => exact .onUnit (.refl (execNewest ..)) rfl (hu _ (.head _)) fun _ h => h.cursorCmd
  | oldest => exact .onUnit (.refl (execOldest ..)) rfl (hu _ (.head _)) fun _ h => h.cursorCmd
  | clrOvr => exact .onUnit (.refl (execClrOvr ..)) rfl (hu _ (.head _)) fun _ h => h.clr
  | cursorCopyDone => exact .onUnit (.refl (execCursorCopyDone ..)) rfl (hu _ (.head _)) fun _ h => h.cursorCopy
  | rings => exact .act (.refl (execRings ..)) rfl fun _ h => h.ldgClrWrite
  | erase => exact .act (.refl (execErase ..)) rfl fun _ h => h.ldgClrWrite
  | eraseDone => exact .act (.refl (execEraseDone ..)) rfl fun _ h => h.ldgEraseDone
  | engineTestPiece => exact .laneUnit (.refl (execEngineTestPiece ..)) rfl (hu _ (.head _)) fun _ h => h.testPiece
  | engineTestStarved =>
    exact .onUnit (.refl (execEngineTestStarved ..)) rfl (hu _ (.head _)) fun _ h => h.testStarved
  | temperatureSample => exact .act (.refl (execTemperatureSample ..)) rfl fun _ h => h.temperature
  | thermalExpiry =>
    exact .act (.refl (execThermalExpiry ..)) rfl fun _ h => by split; exacts [.ite h.hltReason h, h]
  | twinLinkReasonExpiry => exact .act (.refl (execTwinLinkReasonExpiry ..)) rfl fun _ h => h.twinLinkReason
  | req => exact .act (.refl (execReq ..)) rfl fun _ h => h.hltReason
  | program => exact .onUnit (.refl (execProgram ..)) rfl (hu _ (.head _)) fun _ h => h.fwProgram
  | fwCheck => exact .onUnit (.refl (execFwCheck ..)) rfl (hu _ (.head _)) fun _ h => h.fwCheck
  | programIsland => exact .onUnit (.refl (execProgramIsland ..)) rfl (hu _ (.head _)) fun _ h => h.fwIsland
  | fwCommandEnd => exact .act (.refl (execFwCommandEnd ..)) rfl fun _ h => h.fwEnd
  | trackerPair => exact .onUnit (.refl (execTrackerPair ..)) rfl (hu _ (.head _)) fun _ h => h.trkPair
  | trackerTimeout =>
    exact .onUnit (.refl (execTrackerTimeout ..)) rfl (hu _ (.head _)) fun _ h =>
      by split; exacts [.ite h.trkTimeout h, h]
  | ampFilterExpiry => exact .onUnit (.refl (execAmpFilterExpiry ..)) rfl (hu _ (.head _)) fun _ h => h.ampExpiry
  | quadratureStep => exact .act (.refl (execQuadratureStep ..)) rfl fun _ h => h.quadStep
  | gpioEdge =>
    exact .onUnitHeld (.refl (execGpioEdge ..)) rfl rfl (hu _ (.head _)) (List.Subset.refl _) fun _ h =>
      .ite h.put h.pad
  | uartTxWrite => exact .act (.refl (execUartTxWrite ..)) rfl fun _ h => h.uartTx
  | uartByteSent => exact .act (.refl (execUartByteSent ..)) rfl fun _ h => h.with_pins.showUart
  | uartReceive => exact .act (.refl (execUartReceive ..)) rfl fun _ h => h.uartRx
  | uartRxRead => exact .act (.refl (execUartRxRead ..)) rfl fun _ h => h.uartRead
  | irqClaim => exact .onUnit (.refl (execIrqClaim ..)) rfl (hu _ (.head _)) fun _ h => h.irqClaim
  | irqComplete => exact .onUnit (.refl (execIrqComplete ..)) rfl (hu _ (.head _)) fun _ h => h.irqComplete
  | twinLaneUp => exact .onUnit (.refl (execTwinLaneUp ..)) rfl (hu _ (.head _)) fun _ h => .ite h.twinLane h
  | sdclkPresenceChange => exact .act (.refl (execSdclkPresenceChange ..)) rfl fun _ h => h.sdclk
  | vkaRecovery => exact .act (.refl (execVkaRecovery ..)) rfl fun _ h => h.clr.orr
  | vddWReturn => exact .laneAct (.refl (execVddWReturn ..)) rfl fun _ h => h.vddReturn
  | tpOvercurrent => exact .act (.refl (execTpOvercurrent ..)) rfl fun _ h => h.tpOver
  | outputTestPulseEnd =>
    exact .onUnit (.refl (execOutputTestPulseEnd ..)) rfl (hu _ (.head _)) fun _ h => h.testPulseEnd
  | startStepEnd => exact .laneUnit (.refl (execStartStepEnd ..)) rfl (hu _ (.head _)) fun _ h => h.startStep
  | joinTimeExpiry => exact .act (.refl (execJoinTimeExpiry ..)) rfl fun _ h => h.joinTimeExpiry
  | cmnCommandEnd => exact .act (.refl (execCmnCommandEnd ..)) rfl fun _ h => .ite h.clr.set1 h
  | jtagInstruction =>
    exact .onUnitHeld (.refl (execJtagInstruction ..)) rfl rfl (hu _ (.head _)) (List.Subset.refl _) fun _ h => h.jtag

/-- A waiting command taken from the queue leaves the rest of an Ok state. -/
theorem State.Ok.rest {c : Instr} {rest : List Instr} (h : s.Ok) (hq : s.pending = c :: rest) :
    c.wf = true ∧ ∀ d ∈ rest, d.wf = true :=
  ⟨h.queue c (hq ▸ List.mem_cons_self), fun d hd => h.queue d (hq ▸ List.mem_cons_of_mem _ hd)⟩

end Sys2Proof.Machine

open Sys2Proof Sys2Proof.Machine

/-- Settles O6: every clause is read off the reset state. -/
theorem resetStateIsOk : Obligations.ResetStateIsOk :=
  ⟨⟨Nat.two_pow_pos 64, fun _ hc => (nomatch hc), rfl, (State.dims_eq_iff _).1 rfl⟩, rfl, rfl, rfl, rfl⟩

/-- Settles O3, from what each command's outcome keeps. -/
theorem everyCommandKeepsToItsReach : Obligations.EveryCommandKeepsToItsReach := fun c s wf =>
  let ⟨s', he, hk⟩ := exec_completes c s wf
  ⟨s', he, hk.pending, hk.reach, hk.held, hk.tb⟩

/-- Settles O5, with the invariant `State.Form` for memory and the numbers of units. -/
theorem everyStepKeepsTheDeviceRunning : Obligations.EveryStepKeepsTheDeviceRunning := by
  intro s ok
  unfold step
  cases hq : s.pending with
  | nil => exact ⟨s, rfl, ok, hq, .inl (Nat.le_refl _)⟩
  | cons c rest =>
    obtain ⟨wf, hrest⟩ := ok.rest hq
    obtain ⟨s', he, hk⟩ := exec_completes c { s with pending := rest } wf
    have form : s'.Form := hk.form ((State.form_iff s).2 ⟨ok.mem, ok.shape⟩)
    have queue : s'.pending = rest := hk.pending
    refine ⟨s', he, ⟨hk.width ok.tb, fun d hd => hrest d (queue ▸ hd), form.1, form.shaped⟩, queue, ?_⟩
    have ht := hk.tb
    split at ht
    next hb => exact .inr ⟨c, rest, rfl, hb, ht⟩
    next => exact .inl ht
end

section
/-!
A command that names a unit the device does not have.
-/

namespace Sys2Proof.Machine

variable {k k1 k2 k3 : UnitKind} {n n1 n2 n3 : Nat} {c : Instr}

/-- An ill-formed command names some unit beyond the number the device has of its kind. -/
theorem exists_unit_of_ill_formed (h : c.wf = false) : ∃ u ∈ c.units, u.1.count ≤ u.2 := by
  simpa [Instr.wf] using h

theorem not_lt_of_one_unit (hc : c.units = [(k, n)]) (h : c.wf = false) : ¬ n < k.count := by
  simpa [hc] using exists_unit_of_ill_formed h

theorem not_lt_of_two_units (hc : c.units = [(k1, n1), (k2, n2)]) (h : c.wf = false) :
    ¬ (n1 < k1.count ∧ n2 < k2.count) := by
  have := exists_unit_of_ill_formed h
  simp only [hc, List.mem_cons, List.not_mem_nil, or_false, exists_eq_or_imp, exists_eq_left] at this
  omega

theorem not_lt_of_three_units (hc : c.units = [(k1, n1), (k2, n2), (k3, n3)]) (h : c.wf = false) :
    ¬ (n1 < k1.count ∧ n2 < k2.count ∧ n3 < k3.count) := by
  have := exists_unit_of_ill_formed h
  simp only [hc, List.mem_cons, List.not_mem_nil, or_false, exists_eq_or_imp, exists_eq_left] at this
  omega

/-- The commands that name units check them before they act; a command that names none is well formed. -/
theorem exec_ill_formed (s : State) (h : c.wf = false) : exec c s = .fault .noSuchUnit := by
  cases c with
  | registerWrite | lowWordReadCapture | mldProgram | mldCheck | mldWithdraw | mldStartLoad | sheetQuiesce |
    sheetRelease | sheetQuiesced | quiesceReadbackTimeout | mainPathWord | calStep | calHandover | calStarvedTimeout |
    calenChange | lfsrWrite | presentationWrite | snapshotTrigger | snapshotDone | testStart | testAbort |
    testSettleEnd | testMeanEnd | watchRequest | watchEnter | watchExitRequest | watchExit | fastWindowEnable |
    tickArrival | runStart | overrunLimit | runEnd | nop | load | clarke | iclarke | park | ipark | angle | pi | res |
    matvec | obs | swing | droop | vimp | ilim | frt | ramp | lpf | limit | lut | power | rms | svm3l | select |
    compare | guard | sum | mul | emit | mailboxWrite | mailboxRead | event | trace | engineEccFault |
    recipeCheckDone | coefSwapRequest | recipeSwapRequest | stageWrite | clrCycmax | trcTrig | traceArm |
    moveRequest | periodStart | groupEnable | loadallRequest | groupLoad | fmxClear | edgeSend | executedLevelChange |
    timeFrameSend | statusFrameReceive | statusTimeout | qfullHoldEnd | desatClear | diagStart | diagTimeout |
    trainStart | trainEnd | configSend | configTimeout | laneDisable | portLinkChange | forwardStart | frameReceive |
    txKick | hostTxDescriptor | egressTransmit | transmitSlotFrame | syncMessage | followUp | announce |
    pdelayReqSend | pdelayReq | pdelayResp | pdelayTimeout | announceTimeout | syncTimeout | ttFire | ttEnable |
    journalRunRecord | journalFilterRecord | checkpoint | checkpointTimeout | verdict | twinLaneDown |
    discrepancyTimeout | safeOutputOff | outputTestPulse | internalFault | safetyCopyTimeout |
    connectionWatchdogExpiry | safetyFrameSend | start | resume | stop | referenceAbsent | referencePresent |
    lossOfLock | outputConfigWrite | ledgerPost | cursorLoad | next | newest | oldest | clrOvr | cursorCopyDone |
    engineTestPiece | engineTestStarved | program | fwCheck | programIsland | trackerPair | trackerTimeout |
    ampFilterExpiry | gpioEdge | irqClaim | irqComplete | twinLaneUp | outputTestPulseEnd | startStepEnd |
    jtagInstruction =>
    exact if_neg (not_lt_of_one_unit rfl h)
  | mldReload | tapValRead | compareFire => exact if_neg (not_lt_of_two_units rfl h)
  | snapDataRead => exact if_neg (not_lt_of_three_units rfl h)
  | shadowWrite _ duty => cases duty <;> exact if_neg (not_lt_of_one_unit rfl h)
  | fltPinAsserted =>
    have hk := not_lt_of_one_unit rfl h
    refine (ite_congr rfl (fun _ => ?_) fun _ => ?_).trans (ite_self _)
    exacts [if_neg hk, if_neg hk]
  | _ => exact nomatch h

end Sys2Proof.Machine

open Sys2Proof Sys2Proof.Machine

/-- Settles O4: the arms of `exec` that name units refuse what is beyond their number. -/
theorem illFormedCommandsFault : Obligations.IllFormedCommandsFault := fun _ s h => exec_ill_formed s h
end

section
/-!
What the pulse path leaves of a PWM group: building ahead, sending, and sources that act change no more of it than the
periods behind those that stand, its findings, its holds and its block.
-/

namespace Sys2Proof.Machine

/-! ### A unit of a list of units -/

theorem getD_upd {α : Type} (l : List α) (i j : Nat) (f : α → α) (d : α) :
    (upd l i f).getD j d = if i = j ∧ j < l.length then f (l.getD j d) else l.getD j d := by
  simp only [upd, List.getD_eq_getElem?_getD, List.getElem?_modify]
  by_cases hj : j < l.length
  · by_cases hi : i = j <;> simp [hi, hj]
  · simp [hj]

theorem State.group_upGroup (s : State) (k g : Nat) (f : PwmGroup → PwmGroup) :
    (s.upGroup k f).group g = if k = g ∧ g < s.groups.length then f (s.group g) else s.group g := getD_upd ..

theorem State.group_upGroup_same {s : State} {g : Nat} (hg : g < s.groups.length) (f : PwmGroup → PwmGroup) :
    (s.upGroup g f).group g = f (s.group g) := by rw [State.group_upGroup, if_pos ⟨rfl, hg⟩]

theorem State.group_upGroup_ne {s : State} {k g : Nat} (h : k ≠ g) (f : PwmGroup → PwmGroup) :
    (s.upGroup k f).group g = s.group g := by rw [State.group_upGroup, if_neg fun hk => h hk.1]

/-! ### What a record handed to the twin link leaves -/

theorem State.twRunFor_same (n : Nat) (s : State) :
    (State.twRunFor n s).groups = s.groups ∧ (State.twRunFor n s).regs = s.regs := by
  induction n generalizing s with
  | zero => exact ⟨rfl, rfl⟩
  | succ n ih =>
    unfold State.twRunFor
    split
    · dsimp only
      split
      · exact ⟨rfl, rfl⟩
      · split
        exacts [ih _, ⟨rfl, rfl⟩]
    · exact ⟨rfl, rfl⟩

theorem State.twSend_same (s : State) (m : TwMsg) : (s.twSend m).groups = s.groups ∧ (s.twSend m).regs = s.regs := by
  unfold State.twSend
  split
  exacts [⟨rfl, rfl⟩, State.twRunFor_same ..]

/-! ### What the pulse path writes and what it leaves -/

/-- What of a group the pulse path leaves as it is: all but the periods behind those that stand, findings, holds, the
action in force and the block. -/
def PwmGroup.core (x : PwmGroup) : PwmGroup := { x with periods := [], finds := [], holds := [], act := 0, blockAt := none }

/-- A period of the grid of anchor `a` and length `v`: it begins no earlier than the grid's point `k` and ends where the
next begins, at a point no earlier. -/
structure Period.OnGrid (a : Int) (v : Nat) (k : Int) (q : Period) : Prop where
  start : (gridPoint a v k).toNat ≤ q.start
  stop : q.stop = (gridPoint a v q.next.k).toNat
  anchor : q.next.anchor = a
  length : q.next.v = v
  index : k ≤ q.next.k

/-- The periods of a group follow a grid from its point `k` on, and nothing waits that would end that. -/
structure PwmGroup.OnGrid (a : Int) (v : Nat) (k : Int) (x : PwmGroup) : Prop where
  anchors : x.anchors = []
  per : x.perAt = none
  phase : x.phaseAt = none
  periods : ∀ q ∈ x.periods, q.OnGrid a v k

theorem PwmGroup.OnGrid.of_core {a : Int} {v : Nat} {k : Int} {x y : PwmGroup} (h : x.OnGrid a v k) (hc : y.core = x.core)
    (hp : ∀ q ∈ y.periods, q.OnGrid a v k) : y.OnGrid a v k :=
  ⟨(congrArg PwmGroup.anchors hc :).trans h.anchors, (congrArg PwmGroup.perAt hc :).trans h.per,
    (congrArg PwmGroup.phaseAt hc :).trans h.phase, hp⟩

/-- Where nothing waits, the period that follows is the generator's next. -/
theorem State.nextPeriod_plain {s : State} {g : Nat} {gen : Gen} {b cnt : Nat} (ha : (s.group g).anchors = [])
    (hp : (s.group g).perAt = none) (hf : (s.group g).phaseAt = none) : s.nextPeriod g gen b cnt =
      { start := b, stop := (gridPoint gen.anchor gen.v (gen.k + 1)).toNat, cnt := cnt, grid := gen.grid, v := gen.v, gen := gen
        next := { gen with k := gen.k + 1 }, perNew := none } := by
  unfold State.nextPeriod
  simp only [ha, hp, hf, List.contains_nil, List.find?_nil, Option.any_none, Bool.false_and, Bool.and_false, Bool.or_self,
    Bool.false_eq_true, if_false]

theorem gridPoint_mono (a : Int) (v : Nat) {i k : Int} (h : i ≤ k) : gridPoint a v i ≤ gridPoint a v k :=
  Int.add_le_add_left (Int.ediv_le_ediv (by decide) (Int.mul_le_mul_of_nonneg_right h (Int.natCast_nonneg v))) a

/-- On a grid the period that follows is on the grid. -/
theorem PwmGroup.OnGrid.next {s : State} {g : Nat} {a : Int} {v cnt : Nat} {k : Int} {q : Period} (h : (s.group g).OnGrid a v k)
    (hq : q.OnGrid a v k) : (s.nextPeriod g q.next q.stop cnt).OnGrid a v k := by
  rw [State.nextPeriod_plain h.anchors h.per h.phase]
  exact ⟨hq.stop ▸ Int.toNat_le_toNat (gridPoint_mono a v hq.index), by rw [hq.anchor, hq.length], hq.anchor, hq.length,
    Int.le_add_one hq.index⟩

/-- What a group shows of the period it is in. -/
def groupShown (g : Nat) : List RF :=
  [R.PWM_PG_STAT_RUNNING g, R.PWM_PG_STAT_ALIGNED g, R.PWM_PG_PERIOD g, R.PWM_PG_PCOUNT g]

/-- Fields beside what the groups show of their periods and the causes of the lanes: those that lie below the groups'
registers, in the flags and the upper status bits of a group, and behind the groups' registers. -/
abbrev RF.Aside (f : RF) : Prop :=
  f.addr % 4 = 0 ∧ f.lsb + f.width ≤ 64 ∧ (f.addr + 8 ≤ 0x400D0100 ∨
    f.addr < 0x400D0500 ∧ f.lsb + f.width ≤ 32 ∧ (f.addr % 0x80 = 4 ∧ 2 ≤ f.lsb ∨ f.addr % 0x80 = 8) ∨
    0x400D0800 ≤ f.addr ∧ (f.addr % 0x100 = 0x90 ∨ f.lsb + f.width ≤ 32 ∧
      (0x400F0100 ≤ f.addr → f.addr % 0x100 = 4 → f.lsb + f.width ≤ 16 ∨ 20 ≤ f.lsb)))

theorem RF.Aside.apart_cause {f : RF} (hf : f.Aside) {l : Nat} (hl : l < 12) : f.apart (R.LNE_LN_STAT_FS_CAUSE l) := by
  simp only [RF.Aside, RF.apart, R.LNE_LN_STAT_FS_CAUSE] at hf ⊢
  omega

theorem RF.Aside.apart_shown {f : RF} (hf : f.Aside) {g : Nat} (hg : g < 8) : ∀ k ∈ groupShown g, f.apart k := by
  simp only [groupShown, List.forall_mem_cons, List.not_mem_nil, IsEmpty.forall_iff, implies_true, and_true, RF.Aside,
    RF.apart, R.PWM_PG_STAT_RUNNING, R.PWM_PG_STAT_ALIGNED, R.PWM_PG_PERIOD, R.PWM_PG_PCOUNT] at hf ⊢
  omega

theorem groupShown_width (g : Nat) : ∀ k ∈ groupShown g, k.lsb + k.width ≤ 64 := by
  simp [groupShown, R.PWM_PG_STAT_RUNNING, R.PWM_PG_STAT_ALIGNED, R.PWM_PG_PERIOD, R.PWM_PG_PCOUNT]

theorem cause_apart_shown {g : Nat} (hg : g < 8) (l : Nat) : ∀ k ∈ groupShown g, (R.LNE_LN_STAT_FS_CAUSE l).apart k := by
  have := hg
  simp only [groupShown, List.forall_mem_cons, List.not_mem_nil, IsEmpty.forall_iff, implies_true, and_true, RF.apart,
    R.LNE_LN_STAT_FS_CAUSE, R.PWM_PG_STAT_RUNNING, R.PWM_PG_STAT_ALIGNED, R.PWM_PG_PERIOD, R.PWM_PG_PCOUNT]
  omega

/-- The causes of the lanes' sources that are not as they were stand: no cause has gone. -/
def State.Raises (o s : State) : Prop :=
  ∀ l, l < 12 → s.get (R.LNE_LN_STAT_FS_CAUSE l) = o.get (R.LNE_LN_STAT_FS_CAUSE l) ∨ s.get (R.LNE_LN_STAT_FS_CAUSE l) ≠ 0

theorem State.Raises.trans {o s t : State} (h : o.Raises s) (h' : s.Raises t) : o.Raises t := fun l hl =>
  (h' l hl).elim (fun e => e ▸ h l hl) .inr

theorem State.Raises.of_same {o s : State}
    (h : ∀ l, l < 12 → s.get (R.LNE_LN_STAT_FS_CAUSE l) = o.get (R.LNE_LN_STAT_FS_CAUSE l)) : o.Raises s :=
  fun l hl => .inl (h l hl)

/-- The pulse path leads from `o` to `s`: of group `g` no more changed than what `PwmGroup.core` leaves out, periods have at
most been built behind those that stood, on the grid those followed, the group shows the period it showed, and no lane's cause has gone. -/
structure State.Along (g : Nat) (o s : State) : Prop where
  core : (s.group g).core = (o.group g).core
  periods : (o.group g).periods <+: (s.group g).periods
  none : (o.group g).periods = [] → (s.group g).periods = []
  grid : ∀ a v k, (o.group g).OnGrid a v k → (s.group g).OnGrid a v k
  shown : ∀ f ∈ groupShown g, s.get f = o.get f
  raises : o.Raises s

namespace State.Along
variable {g : Nat} {o s t : State}

theorem refl (g : Nat) (s : State) : s.Along g s := ⟨rfl, List.prefix_rfl, id, fun _ _ _ => id, fun _ _ => rfl, .of_same fun _ _ => rfl⟩

theorem trans (h : o.Along g s) (h' : s.Along g t) : o.Along g t where
  core := h'.core.trans h.core
  periods := h.periods.trans h'.periods
  none e := h'.none (h.none e)
  grid a v k e := h'.grid a v k (h.grid a v k e)
  shown f hf := (h'.shown f hf).trans (h.shown f hf)
  raises := h.raises.trans h'.raises

/-- What changes no group and no register. -/
theorem of_same (h : o.Along g s) (hg : t.groups = s.groups) (hr : t.regs = s.regs) : o.Along g t := by
  have eg : t.group g = s.group g := by rw [State.group, State.group, hg]
  exact h.trans ⟨by rw [eg], by rw [eg], by rw [eg]; exact id, by rw [eg]; exact fun _ _ _ => id, fun f _ => State.get_congr hr f,
    .of_same fun _ _ => State.get_congr hr _⟩

theorem ite {c : Prop} {_ : Decidable c} (h : o.Along g s) (h' : o.Along g t) : o.Along g (if c then s else t) := by
  split <;> assumption

theorem foldl_mem {α : Type} {f : State → α → State} {l : List α} (h : o.Along g s)
    (hf : ∀ s, ∀ a ∈ l, o.Along g s → o.Along g (f s a)) : o.Along g (l.foldl f s) := by
  induction l generalizing s with
  | nil => exact h
  | cons a l ih => exact ih (hf _ a List.mem_cons_self h) fun s b hb => hf s b (List.mem_cons_of_mem _ hb)

theorem foldl {α : Type} {f : State → α → State} {l : List α} (h : o.Along g s)
    (hf : ∀ s a, o.Along g s → o.Along g (f s a)) : o.Along g (l.foldl f s) := foldl_mem h fun s a _ => hf s a

theorem upGroup {k : Nat} {f : PwmGroup → PwmGroup} (h : o.Along g s)
    (hf : ∀ x, (f x).core = x.core ∧ (f x).periods = x.periods) : o.Along g (s.upGroup k f) := by
  refine h.trans ⟨?_, ?_, ?_, ?_, fun _ _ => rfl, .of_same fun _ _ => rfl⟩ <;> rw [State.group_upGroup] <;> split
  · exact (hf _).1
  · rfl
  · rw [(hf _).2]
  · exact List.prefix_rfl
  · rw [(hf _).2]; exact id
  · exact id
  · exact fun _ _ _ e => e.of_core (hf _).1 (by rw [(hf _).2]; exact e.periods)
  · exact fun _ _ _ => id

theorem upChan {k : Nat} {f : Chan → Chan} (h : o.Along g s) : o.Along g (s.upChan k f) := h.of_same rfl rfl
theorem upLane {k : Nat} {f : Lane → Lane} (h : o.Along g s) : o.Along g (s.upLane k f) := h.of_same rfl rfl
theorem upEng {k : Nat} {f : Engine → Engine} (h : o.Along g s) : o.Along g (s.upEng k f) := h.of_same rfl rfl
theorem upTwn {f : Twin → Twin} (h : o.Along g s) : o.Along g (s.upTwn f) := h.of_same rfl rfl

section
variable (hg : g < 8)
include hg

theorem put {f : RF} {v : Nat} (h : o.Along g s) (hf : f.Aside) : o.Along g (s.put f v) :=
  h.trans ⟨rfl, List.prefix_rfl, id, fun _ _ _ => id,
    fun k hk => State.get_put_apart s f k v hf.2.1 (groupShown_width g k hk) (hf.apart_shown hg k hk),
    .of_same fun l hl => State.get_put_apart s f _ v hf.2.1 (by simp [R.LNE_LN_STAT_FS_CAUSE]) (hf.apart_cause hl)⟩

theorem set1 {f : RF} (h : o.Along g s) (hf : f.Aside) : o.Along g (s.set1 f) := (h.put hg hf (v := 1)).of_same rfl rfl
theorem clr {f : RF} (h : o.Along g s) (hf : f.Aside) : o.Along g (s.clr f) := h.put hg hf
theorem bump {f : RF} {n : Nat} (h : o.Along g s) (hf : f.Aside) : o.Along g (s.bump f n) := h.put hg hf
theorem andn {f : RF} {m : Nat} (h : o.Along g s) (hf : f.Aside) : o.Along g (s.andn f m) := h.put hg hf
theorem orr {f : RF} {m : Nat} (h : o.Along g s) (hf : f.Aside) : o.Along g (s.orr f m) :=
  (h.put hg hf (v := s.get f ||| m)).of_same rfl rfl
theorem setAt {f : RF} {x : Nat} (h : o.Along g s) (hf : f.Aside) : o.Along g (s.setAt f x) :=
  .ite (h.set1 hg hf) (h.put hg hf)

/-- A cause that is raised stands. -/
theorem raise {l v : Nat} (h : o.Along g s) (hv : v % 16 ≠ 0) : o.Along g (s.put (R.LNE_LN_STAT_FS_CAUSE l) v) := by
  refine h.trans ⟨rfl, List.prefix_rfl, id, fun _ _ _ => id, fun k hk => ?_, fun k _ => ?_⟩
  · exact State.get_put_apart s _ k v (by simp [R.LNE_LN_STAT_FS_CAUSE]) (groupShown_width g k hk) (cause_apart_shown hg l k hk)
  · by_cases hk : l = k
    · subst hk
      rw [State.get_put_same s _ v (by simp [R.LNE_LN_STAT_FS_CAUSE])]
      exact .inr hv
    · refine .inl (State.get_put_apart s _ _ v ?_ ?_ ?_) <;> simp only [R.LNE_LN_STAT_FS_CAUSE, RF.apart] <;> omega

/-! ### Lanes -/

theorem showMute {l : Nat} (h : o.Along g s) : o.Along g (s.showMute l) :=
  (h.put hg (by simp only [RF.Aside, R.LNE_LN_STAT_MUTED]; omega)).put hg (by decide)
theorem mute {l why : Nat} (h : o.Along g s) : o.Along g (s.mute l why) := h.upLane.showMute hg
theorem unmute {l why : Nat} (h : o.Along g s) : o.Along g (s.unmute l why) := h.upLane.showMute hg
theorem setLevel {ch : Nat} {v : Bool} {t : Nat} (h : o.Along g s) : o.Along g (s.setLevel ch v t) := by
  unfold State.setLevel
  extract_lets c s1
  have h1 : o.Along g s1 := .ite (.ite h.upChan h) h.upChan
  exact .ite (h1.put hg (by decide)) (h1.put hg (by decide))
theorem runEdge {ch : Nat} (h : o.Along g s) : o.Along g (s.runEdge ch) := by
  unfold State.runEdge
  split
  exacts [h, h.upChan.setLevel hg]
theorem runEdges {ch t : Nat} (h : o.Along g s) : o.Along g (s.runEdges ch t) := h.foldl fun _ _ hx => hx.runEdge hg
theorem softSlot {ch mode st : Nat} (h : o.Along g s) : o.Along g (s.softSlot ch mode st) :=
  .ite ((h.runEdges hg).upChan.setLevel hg) (h.runEdges hg).upChan
theorem seqPut {ch v : Nat} (h : o.Along g s) : o.Along g (s.seqPut ch v) :=
  h.put hg (by simp only [RF.Aside, R.LNE_LN_SEQ]; omega)
theorem dropEdge {ch : Nat} {e : Edge} {late : Bool} (h : o.Along g s) : o.Along g (s.dropEdge ch e late) := by
  have hc (n : Nat) : (n ||| if late then 0xC else 0x4) % 16 ≠ 0 := fun hn => by
    have hb : ((n ||| if late then 0xC else 0x4) % 2 ^ 4).testBit 2 = true := by
      have hm : (if late then 0xC else 0x4 : Nat).testBit 2 = true := by cases late <;> decide
      rw [Nat.testBit_mod_two_pow, Nat.testBit_or, hm]
      simp
    rw [show (2 : Nat) ^ 4 = 16 from rfl, hn] at hb
    exact absurd hb (by decide)
  unfold State.dropEdge
  extract_lets l upto s1 s2 s3
  have h1 : o.Along g s1 := (h.bump hg (by simp only [RF.Aside, R.LNE_LN_COUNT1_DROPS]; omega)).set1 hg
    (by simp only [RF.Aside, R.LNE_LN_INT_STAT_QFULL]; omega)
  have h2 : o.Along g s2 := h1.raise hg (hc _)
  exact .upLane (.ite (h2.set1 hg (by simp only [RF.Aside, R.LNE_LN_INT_STAT_LATE]; omega)) h2)
theorem edgeGo {l st slot : Nat} {e : Edge} (h : o.Along g s) : o.Along g (s.edgeGo l st slot e) :=
  .ite (h.dropEdge hg) (.ite (h.seqPut hg).upChan.upLane (h.seqPut hg).upChan)
omit hg in
theorem sendCmd {l st : Nat} {a : LaneCmd} (h : o.Along g s) : o.Along g (s.sendCmd l st a) := by
  unfold State.sendCmd
  split <;> exact h.upLane.upLane
theorem lineSend {l st cls : Nat} (h : o.Along g s) : o.Along g (s.lineSend l st cls) := by
  unfold State.lineSend
  extract_lets x
  split
  · split
    exacts [.foldl h.upLane.upLane fun _ _ hx => .ite (hx.softSlot hg) hx, h]
  · split
    exacts [h.upLane.edgeGo hg, h]
  · split
    exacts [h.upLane.sendCmd, h]
  · exact h.upLane.upLane
theorem lineRunN {l upto n : Nat} (h : o.Along g s) : o.Along g (State.lineRunN l upto n s) := by
  induction n generalizing s with
  | zero => exact h
  | succ n ih =>
    unfold State.lineRunN
    extract_lets first
    split
    exacts [h, .ite (ih (h.lineSend hg)) h]
theorem lineRun {l : Nat} (h : o.Along g s) : o.Along g (s.lineRun l) := (h.lineRunN hg).upLane
theorem sendSoftoff {l mode mask : Nat} {first : Bool} (h : o.Along g s) : o.Along g (s.sendSoftoff l mode mask first) :=
  .ite h ((h.lineRun hg).upLane.lineRun hg)

/-! ### Sources that act -/

theorem groupSoftoff {k a : Nat} (h : o.Along g s) : o.Along g (s.groupSoftoff k a) := h.foldl fun _ _ hx => hx.sendSoftoff hg
omit hg in
theorem holdGroup {k : Nat} (h : o.Along g s) : o.Along g (s.holdGroup k) := h.foldl fun _ _ hx => hx.upChan
theorem showGroup {k : Nat} (h : o.Along g s) (hk : k < 8) : o.Along g (s.showGroup k) :=
  ((h.put hg (by simp only [RF.Aside, R.FMX_PG_STAT_ACTION]; omega)).put hg
    (by simp only [RF.Aside, R.FMX_PG_STAT_LATCHED]; omega)).put hg (by simp only [RF.Aside, R.PWM_PG_STAT_FROZEN]; omega)
theorem traceTrigger {n : Nat} (h : o.Along g s) : o.Along g (s.traceTrigger n) :=
  .ite h (.upEng (.set1 hg (.put hg (.put hg h (by simp only [RF.Aside, R.CE_TRC_TRIGPOS]; omega))
    (by simp only [RF.Aside, R.CE_TRC_TRIGSTAMP]; omega)) (by simp only [RF.Aside, R.CE_TRC_STAT_TRIGGERED]; omega)))
theorem traceAction {k : Nat} (h : o.Along g s) : o.Along g (s.traceAction k) := by
  unfold State.traceAction
  split
  exacts [.ite (h.traceTrigger hg) h, h]
theorem takeAction {k src a : Nat} (h : o.Along g s) (hk : k < 8) : o.Along g (s.takeAction k src a) := by
  have acts {t : State} (ht : o.Along g t) : o.Along g ((((t.groupSoftoff k a).holdGroup k).traceAction k).showGroup k) :=
    ((ht.groupSoftoff hg).holdGroup.traceAction hg).showGroup hg hk
  unfold State.takeAction
  extract_lets cur s1 s2 s3 s4 s5
  have h1 : o.Along g s1 := h.upGroup fun _ => ⟨rfl, rfl⟩
  have h2 : o.Along g s2 := h1.upGroup fun _ => ⟨rfl, rfl⟩
  have h3 : o.Along g s3 := (h2.bump hg (by simp only [RF.Aside, R.FMX_PG_COUNT]; omega)).set1 hg
    (by simp only [RF.Aside, R.FMX_PG_INT_STAT_ACT]; omega)
  have h4 : o.Along g s4 := (h3.put hg (by simp only [RF.Aside, R.FMX_PG_CAUSE_SRC]; omega)).set1 hg
    (by simp only [RF.Aside, R.FMX_PG_CAUSE_VALID]; omega)
  have h5 : o.Along g s5 := .set1 hg (h1.upGroup fun _ => ⟨rfl, rfl⟩)
    (by simp only [RF.Aside, R.FMX_PG_INT_STAT_ESCALATED]; omega)
  exact .ite (acts h4) (.ite (acts h5) (h1.showGroup hg hk))
theorem takeMute {k src a : Nat} (h : o.Along g s) : o.Along g (s.takeMute k src a) := by
  unfold State.takeMute
  extract_lets s1 _ s2
  have h1 : o.Along g s1 := h.upGroup fun _ => ⟨rfl, rfl⟩
  have h2 : o.Along g s2 := .ite h1 (h1.of_same rfl rfl)
  exact .set1 hg (.foldl h2 fun _ _ hx => hx.mute hg) (by simp only [RF.Aside, R.FMX_PG_STAT_MUTED]; omega)
theorem actOn {k src : Nat} (h : o.Along g s) (hk : k < 8) : o.Along g (s.actOn k src) :=
  .ite h (.ite (h.takeMute hg) (h.takeAction hg hk))
theorem fsAssert {src : Nat} (h : o.Along g s) (hs : src < 128) : o.Along g (s.fsAssert src) := by
  unfold State.fsAssert
  extract_lets was s1 s2
  have h1 : o.Along g s1 := h.orr hg (by simp only [RF.Aside, R.FMX_SRC_STAT]; omega)
  have h2 : o.Along g s2 := .ite h1 (h1.orr hg (by simp only [RF.Aside, R.FMX_SRC_FLAG]; omega))
  exact .ite h2 (.foldl_mem h2 fun _ k hk hx => hx.actOn hg (List.mem_range.1 hk))

/-- A lane's source whose cause stands asserts, or acts where it muted. -/
theorem laneSource {l : Nat} (h : o.Along g s) (hl : l < 12) (hc : s.get (R.LNE_LN_STAT_FS_CAUSE l) ≠ 0) : o.Along g (s.laneSource l) := by
  unfold State.laneSource
  refine .ite (.foldl_mem h fun _ k hk hx => .ite (hx.actOn hg (List.mem_range.1 hk)) hx) ?_
  rw [decide_eq_true hc]
  exact h.fsAssert hg (by omega)

/-- The sources of the lanes follow causes that have been raised. -/
theorem laneSources {x : State} (h : o.Along g s) (hx : x.Raises o) : o.Along g (State.laneSources x s) :=
  h.foldl_mem fun t l hl ht => by
    split
    next => exact ht
    next hc =>
      have hl := List.mem_range.1 hl
      exact ht.laneSource hg hl ((hx.trans ht.raises l hl).resolve_left hc)

/-! ### The carry mask -/

omit hg in
theorem twSend {m : TwMsg} (h : o.Along g s) : o.Along g (s.twSend m) :=
  h.of_same (State.twSend_same s m).1 (State.twSend_same s m).2
theorem showCarry (h : o.Along g s) : o.Along g s.showCarry := .ite h (h.put hg (by decide)).twSend

/-- What follows a command that raised causes. -/
theorem followed {x : State} (h : o.Along g s) (hx : x.Raises o) : o.Along g (x.followed s) :=
  .ite (h.laneSources hg hx) ((h.laneSources hg hx).showCarry hg)

/-! ### Building -/

theorem queueEdge {ch : Nat} {e : Edge} (h : o.Along g s) : o.Along g (s.queueEdge ch e) :=
  .ite h (.ite h.upChan (h.dropEdge hg))
theorem buildLane {k l : Nat} {p : Period} {x cut : Nat} (h : o.Along g s) : o.Along g (s.buildLane k l p x cut) :=
  .foldl (.upGroup (.foldl h fun _ _ hx => hx.upChan) fun _ => ⟨rfl, rfl⟩) fun _ _ hx => hx.queueEdge hg
theorem rebuildLane {k l x : Nat} {geo : Bool} (h : o.Along g s) : o.Along g (s.rebuildLane k l x geo) :=
  .foldl (.upGroup (.foldl h fun _ _ hx => .ite hx.upChan hx) fun _ => ⟨rfl, rfl⟩) fun _ _ hx => .ite hx (hx.buildLane hg)

/-- A period appended is built behind those that stand. -/
theorem addPeriod (s : State) (k : Nat) (p : Period) : (s.upGroup k fun x => { x with periods := x.periods ++ [p] }).Along g (s.addPeriod k p) :=
  .foldl (.refl ..) fun _ _ hx => hx.buildLane hg
theorem addPeriod_behind {k : Nat} {p : Period} (h : o.Along g s) (hne : (s.group k).periods ≠ [])
    (hp : ∀ a v i, (s.group k).OnGrid a v i → p.OnGrid a v i) : o.Along g (s.addPeriod k p) := by
  refine h.trans (.trans (s := s.upGroup k fun x => { x with periods := x.periods ++ [p] })
    ⟨?_, ?_, ?_, ?_, fun _ _ => rfl, .of_same fun _ _ => rfl⟩ (addPeriod hg s k p)) <;> rw [State.group_upGroup] <;> split
  · rfl
  · rfl
  · exact List.prefix_append ..
  · exact List.prefix_rfl
  · next hk => exact fun hn => absurd (hk.1 ▸ hn) hne
  · exact id
  · next hk =>
    refine fun a v i e => e.of_core rfl fun q hq => ?_
    rcases List.mem_append.1 hq with hq | hq
    exacts [e.periods q hq, List.mem_singleton.1 hq ▸ hp a v i (hk.1 ▸ e)]
  · exact fun _ _ _ => id
theorem buildAhead {k n : Nat} (h : o.Along g s) : o.Along g (State.buildAhead k n s) := by
  induction n generalizing s with
  | zero => exact h
  | succ n ih =>
    unfold State.buildAhead
    split
    next hp hl => exact .ite (ih (h.addPeriod_behind hg (by simp [hp])
        fun a v i e => e.next (e.periods _ (List.mem_of_mem_getLast? hl)))) h
    next => exact h

/-! ### What a group shows and how its block begins -/

theorem showFinds {k : Nat} (h : o.Along g s) (hk : k < 8) : o.Along g (s.showFinds k) := by
  unfold State.showFinds
  extract_lets due s1
  have h1 : o.Along g s1 := h.upGroup fun _ => ⟨rfl, rfl⟩
  refine .foldl h1 fun _ f hx => ?_
  split
  · exact hx.setAt hg (by simp only [RF.Aside, R.PWM_PG_INT_STAT_DUTY_CLAMP]; omega)
  · exact hx.setAt hg (by simp only [RF.Aside, R.PWM_PG_INT_STAT_BOOT_REFRESH]; omega)
  · exact (hx.bump hg (by simp only [RF.Aside, R.PWM_LN_ILK_HITS]; omega)).setAt hg
      (by simp only [RF.Aside, R.PWM_PG_INT_STAT_INTERLOCK]; omega)
theorem trgRange {k : Nat} {p : Period} (h : o.Along g s) (hk : k < 8) : o.Along g (s.trgRange k p) :=
  .ite (h.set1 hg (by simp only [RF.Aside, R.PWM_PG_INT_STAT_TRG_RANGE]; omega)) h
theorem muteEnd {k : Nat} (h : o.Along g s) : o.Along g (s.muteEnd k) :=
  .ite (.of_same (.clr hg (.foldl h fun _ _ hx => hx.unmute hg) (by simp only [RF.Aside, R.FMX_PG_STAT_MUTED]; omega)) rfl rfl) h
theorem blockGroup {k : Nat} (h : o.Along g s) (hk : k < 8) : o.Along g (s.blockGroup k) := by
  unfold State.blockGroup
  extract_lets s1 s2 s3
  have h1 : o.Along g s1 := (h.set1 hg (by simp only [RF.Aside, R.PWM_PG_STAT_BLOCKED]; omega)).set1 hg
    (by simp only [RF.Aside, R.FMX_PG_STAT_BLOCK]; omega)
  have h2 : o.Along g s2 := h1.upGroup fun _ => ⟨rfl, rfl⟩
  exact .holdGroup (.ite h2 (h2.groupSoftoff hg))

end

end State.Along

end Sys2Proof.Machine
end

section
/-!
The commands of the PWM groups (R156–R168): what each does, from its effect on the group and its registers.
-/

namespace Sys2Proof.Machine

/-! ### What such a command leaves -/

/-- A field of the PWM block. -/
abbrev RF.OfPwm (f : RF) : Prop := f.addr / 0x10000 = 0x400D ∧ (f.addr + 4) / 0x10000 = 0x400D

section
variable {reach : List Part} {s n : State} {tb : Nat} (h : Part.pwm ∈ reach)
include h

theorem State.settle_group (g : Nat) : (s.settle reach tb n).group g = n.group g := by
  rw [State.group, State.settle_groups_in h, State.group]

theorem State.settle_get_pwm {f : RF} (hf : f.OfPwm) : (s.settle reach tb n).get f = n.get f := by
  obtain ⟨h0, h4⟩ := hf
  exact State.settle_get_in (by simpa [partOf, h0]) (.inr (by simpa [partOf, h4]))

end

/-- A command on PWM units alone leaves what its effect made of them. -/
theorem Does.of_pwm {c : Instr} {s : State} {P : State → Prop} {ok : Prop} {_ : Decidable ok} {t : Nat} {f : State → State}
    (he : exec c s = onUnit [.pwm] ok t s f) (hok : ok) (hp : P (s.settle [.pwm] (s.at t).tb (f (s.at t)))) : Does c s P :=
  .of_act (he.trans (onUnit_pos hok ..)) fun _ => hp

theorem Does.of_pwmAll {c : Instr} {s : State} {P : State → Prop} {t : Nat} {f : State → State}
    (he : exec c s = act [.pwm] t s f) (hp : P (s.settle [.pwm] (s.at t).tb (f (s.at t)))) : Does c s P :=
  .of_act he fun _ => hp

/-- The parts a command on lanes reaches. -/
abbrev laneReach : List Part := [.ce, .pwm, .fmx, .lne, .twn]

/-- A command on lanes leaves what its effect made of them, with what follows it. -/
theorem Does.of_lanes {c : Instr} {s : State} {P : State → Prop} {ok : Prop} {_ : Decidable ok} {t : Nat} {f : State → State}
    (he : exec c s = laneUnit laneReach ok t s f) (hok : ok)
    (hp : P (s.settle laneReach (s.at t).tb ((s.at t).followed (f (s.at t))))) : Does c s P :=
  .of_act (he.trans (laneUnit_pos hok ..)) fun _ => hp

/-! ### Fields beside each other -/

/-- Two fields of at most two words that share no bit. -/
abbrev RF.Off (f g : RF) : Prop := f.lsb + f.width ≤ 64 ∧ g.lsb + g.width ≤ 64 ∧ f.apart g

theorem State.get_put_off {s : State} {f g : RF} {v : Nat} (h : f.Off g) : (s.put f v).get g = s.get g :=
  State.get_put_apart s f g v h.1 h.2.1 h.2.2
theorem State.is_put_off {s : State} {f g : RF} {v : Nat} (h : f.Off g) : (s.put f v).is g = s.is g :=
  State.is_put_apart s f g v h.1 h.2.1 h.2.2
theorem State.get_set1_off {s : State} {f g : RF} (h : f.Off g) : (s.set1 f).get g = s.get g :=
  State.get_set1_apart s f g h.1 h.2.1 h.2.2

/-- A field of two words at most that is not empty. -/
abbrev RF.Fits (f : RF) : Prop := f.lsb + f.width ≤ 64 ∧ 0 < f.width

theorem State.get_put_fits {s : State} {f : RF} {v : Nat} (h : f.Fits) : (s.put f v).get f = v % 2 ^ f.width :=
  State.get_put_same s f v h.1
theorem State.get_set1_fits {s : State} {f : RF} (h : f.Fits) : (s.set1 f).get f = 1 := State.get_set1_same s f h.1 h.2
theorem KeepsBut.put_fits {fs : List RF} {s t : State} {f : RF} {v : Nat} (h : KeepsBut fs s t) (hw : f.Fits) (hf : f ∈ fs) :
    KeepsBut fs s (t.put f v) := h.put f v hw.1 hf

/-! ### Shadows written (R162) -/

/-- What enters a group's queue now. -/
def State.crossing (s : State) (g : Nat) (load : Option (Nat × List (Nat × Nat))) : Cross :=
  ⟨max s.crossAt (((s.group g).queue.getLast?.map (·.at_)).getD 0), load⟩

theorem State.queue_crossPut {s : State} {g : Nat} (hg : g < s.groups.length) (load : Option (Nat × List (Nat × Nat))) :
    ((s.crossPut g load).group g).queue = (s.group g).queue ++ [s.crossing g load] := by
  rw [State.crossPut, State.group_upGroup_same hg]
  rfl

theorem State.shadowDuty_eq (s : State) (ch v : Nat) : s.shadowDuty ch v =
    if s.is (R.PWM_CH_CFG_EN ch) then (s.put (R.PWM_CH_DUTY_SH ch) v).crossPut (s.get (R.PWM_CH_CFG_GROUP ch)) none
    else s.put (R.PWM_CH_DUTY_SH ch) v := by
  have he : (s.put (R.PWM_CH_DUTY_SH ch) v).is (R.PWM_CH_CFG_EN ch) = s.is (R.PWM_CH_CFG_EN ch) :=
    State.is_put_off (by simp only [RF.Off, RF.apart, R.PWM_CH_DUTY_SH, R.PWM_CH_CFG_EN]; omega)
  have hg : (s.put (R.PWM_CH_DUTY_SH ch) v).get (R.PWM_CH_CFG_GROUP ch) = s.get (R.PWM_CH_CFG_GROUP ch) :=
    State.get_put_off (by simp only [RF.Off, RF.apart, R.PWM_CH_DUTY_SH, R.PWM_CH_CFG_GROUP]; omega)
  simp only [State.shadowDuty, he, hg]

section
variable {t g : Nat} {s : State} (hs : s.groups.length = 8)
include hs

/-- A duty shadow of a channel that belongs to a group is written and set on its way. -/
theorem shadowWrite_duty_on {ch v : Nat} (hch : ch < 48) (he : s.is (R.PWM_CH_CFG_EN ch) = true) :
    Does (.shadowWrite t true ch v) s fun s' => s'.get (R.PWM_CH_DUTY_SH ch) = v % 2 ^ 40 ∧
      (s'.group (s.get (R.PWM_CH_CFG_GROUP ch))).queue = (s.group (s.get (R.PWM_CH_CFG_GROUP ch))).queue ++
        [(s.at t).crossing (s.get (R.PWM_CH_CFG_GROUP ch)) none] ∧
      s'.chans = s.chans ∧ KeepsBut [R.PWM_CH_DUTY_SH ch] s s' := by
  have hg : s.get (R.PWM_CH_CFG_GROUP ch) < s.groups.length := hs ▸ s.get_lt _
  refine .of_pwm (f := fun x => x.shadowDuty ch v) rfl hch ?_
  rw [State.shadowDuty_eq, State.at_is, if_pos he]
  refine ⟨?_, ?_, State.settle_chans_in (by decide), .settle _ _ ?_⟩
  · rw [State.settle_get_pwm (by decide) (by simp only [RF.OfPwm, R.PWM_CH_DUTY_SH]; omega)]
    exact State.get_put_fits (s := s.at t) (by simp [RF.Fits, R.PWM_CH_DUTY_SH])
  · rw [State.settle_group (by decide)]
    exact State.queue_crossPut (s := (s.at t).put _ v) hg none
  · exact ((KeepsBut.refl _ s).put_fits (v := v) (by simp [RF.Fits, R.PWM_CH_DUTY_SH]) (List.mem_singleton_self _)).of_regs rfl

omit hs in
/-- A duty shadow of a channel that is off is written and goes nowhere. -/
theorem shadowWrite_duty_off {ch v : Nat} (hch : ch < 48) (he : s.is (R.PWM_CH_CFG_EN ch) = false) :
    Does (.shadowWrite t true ch v) s fun s' => s'.get (R.PWM_CH_DUTY_SH ch) = v % 2 ^ 40 ∧ s'.groups = s.groups ∧
      s'.chans = s.chans ∧ KeepsBut [R.PWM_CH_DUTY_SH ch] s s' := by
  refine .of_pwm (f := fun x => x.shadowDuty ch v) rfl hch ?_
  rw [State.shadowDuty_eq, State.at_is, he]
  refine ⟨?_, State.settle_groups_in (by decide), State.settle_chans_in (by decide), .settle _ _ ?_⟩
  · rw [State.settle_get_pwm (by decide) (by simp only [RF.OfPwm, R.PWM_CH_DUTY_SH]; omega)]
    exact State.get_put_fits (s := s.at t) (by simp [RF.Fits, R.PWM_CH_DUTY_SH])
  · exact (KeepsBut.refl _ s).put_fits (v := v) (by simp [RF.Fits, R.PWM_CH_DUTY_SH]) (List.mem_singleton_self _)

theorem shadowWrite_period {v : Nat} (hg : g < 8) :
    Does (.shadowWrite t false g v) s fun s' => s'.get (R.PWM_PG_PERIOD_SH g) = v % 2 ^ 40 ∧
      (s'.group g).queue = (s.group g).queue ++ [(s.at t).crossing g none] ∧ s'.chans = s.chans ∧
      KeepsBut [R.PWM_PG_PERIOD_SH g] s s' := by
  refine .of_pwm (f := fun x => x.shadowPeriod g v) rfl hg ⟨?_, ?_, State.settle_chans_in (by decide), .settle _ _ ?_⟩
  · rw [State.settle_get_pwm (by decide) (by simp only [RF.OfPwm, R.PWM_PG_PERIOD_SH]; omega)]
    exact State.get_put_fits (s := s.at t) (by simp [RF.Fits, R.PWM_PG_PERIOD_SH])
  · rw [State.settle_group (by decide)]
    exact State.queue_crossPut (s := (s.at t).put _ v) (hs ▸ hg : g < s.groups.length) none
  · exact ((KeepsBut.refl _ s).put_fits (v := v) (by simp [RF.Fits, R.PWM_PG_PERIOD_SH]) (List.mem_singleton_self _)).of_regs rfl

end

/-! ### Loads requested (R162) -/

/-- The shadows as they stand: what a load requested of the group takes. -/
def State.shadows (s : State) (g : Nat) : Nat × List (Nat × Nat) :=
  (s.get (R.PWM_PG_PERIOD_SH g),
    ((List.range 48).filter fun ch => s.get (R.PWM_CH_CFG_GROUP ch) = g).map fun ch => (ch, s.get (R.PWM_CH_DUTY_SH ch)))

theorem State.requestLoad_eq (s : State) (g : Nat) : s.requestLoad g =
    ((s.crossPut g (some (s.shadows g))).set1 (R.PWM_PG_LOADALL g)).set1 (R.PWM_PG_STAT_LOADPEND g) := rfl

/-- What a load request shows in the two bits of its group. -/
theorem State.get_requestLoad_same (s : State) (g : Nat) :
    (s.requestLoad g).get (R.PWM_PG_LOADALL g) = 1 ∧ (s.requestLoad g).get (R.PWM_PG_STAT_LOADPEND g) = 1 := by
  rw [State.requestLoad_eq]
  refine ⟨?_, State.get_set1_fits (by simp [RF.Fits, R.PWM_PG_STAT_LOADPEND])⟩
  rw [State.get_set1_off (by simp only [RF.Off, RF.apart, R.PWM_PG_STAT_LOADPEND, R.PWM_PG_LOADALL]; omega)]
  exact State.get_set1_fits (by simp [RF.Fits, R.PWM_PG_LOADALL])

theorem State.get_requestLoad_off {s : State} {k : Nat} {f : RF} (h : (R.PWM_PG_LOADALL k).Off f ∧ (R.PWM_PG_STAT_LOADPEND k).Off f) :
    (s.requestLoad k).get f = s.get f := by
  rw [State.requestLoad_eq, State.get_set1_off h.2, State.get_set1_off h.1]
  rfl

theorem loadallRequest_takes_shadows {t g : Nat} {s : State} (hs : s.groups.length = 8) (hg : g < 8) :
    Does (.loadallRequest t g) s fun s' => s'.get (R.PWM_PG_LOADALL g) = 1 ∧ s'.get (R.PWM_PG_STAT_LOADPEND g) = 1 ∧
      (s'.group g).queue = (s.group g).queue ++ [(s.at t).crossing g (some (s.shadows g))] ∧ s'.chans = s.chans ∧
      KeepsBut [R.PWM_PG_LOADALL g, R.PWM_PG_STAT_LOADPEND g] s s' := by
  obtain ⟨ha, hp⟩ := (s.at t).get_requestLoad_same g
  refine .of_pwm (f := fun x => x.requestLoad g) rfl hg ⟨?_, ?_, ?_, State.settle_chans_in (by decide), .settle _ _ ?_⟩
  · rwa [State.settle_get_pwm (by decide) (by simp only [RF.OfPwm, R.PWM_PG_LOADALL]; omega)]
  · rwa [State.settle_get_pwm (by decide) (by simp only [RF.OfPwm, R.PWM_PG_STAT_LOADPEND]; omega)]
  · rw [State.settle_group (by decide)]
    exact State.queue_crossPut (s := s.at t) (hs ▸ hg : g < s.groups.length) _
  · exact (((KeepsBut.refl _ s).put_fits (f := R.PWM_PG_LOADALL g) (v := 1) (by simp [RF.Fits, R.PWM_PG_LOADALL])
      (by simp)).put_fits (f := R.PWM_PG_STAT_LOADPEND g) (v := 1) (by simp [RF.Fits, R.PWM_PG_STAT_LOADPEND]) (by simp)).of_regs rfl

/-- Where one element of a list alone moves what is looked at, a fold moves it as that element's step does. -/
theorem foldl_once {α β γ : Type} {f : α → β → α} {V : α → γ} {b : β} {l : List β} (x : α) (hl : l.Nodup) (hb : b ∈ l)
    (hV : ∀ a, ∀ c ∈ l, c ≠ b → V (f a c) = V a) : ∃ a, V a = V x ∧ V (l.foldl f x) = V (f a b) := by
  have others (m : List β) (hm : ∀ c ∈ m, c ∈ l ∧ c ≠ b) (a : α) : V (m.foldl f a) = V a := by
    induction m generalizing a with
    | nil => rfl
    | cons c m ih =>
      obtain ⟨hc, hn⟩ := hm c List.mem_cons_self
      exact (ih (fun d hd => hm d (List.mem_cons_of_mem _ hd)) _).trans (hV a c hc hn)
  obtain ⟨l₁, l₂, rfl⟩ := List.append_of_mem hb
  have hd := List.nodup_middle.1 hl
  have hne (c : β) (hc : c ∈ l₁ ++ l₂) : c ∈ l₁ ++ b :: l₂ ∧ c ≠ b :=
    ⟨by simp only [List.mem_append, List.mem_cons] at hc ⊢; tauto, fun e => (List.nodup_cons.1 hd).1 (e ▸ hc)⟩
  refine ⟨l₁.foldl f x, others l₁ (fun c hc => hne c (List.mem_append_left _ hc)) x, ?_⟩
  rw [List.foldl_append, List.foldl_cons]
  exact others l₂ (fun c hc => hne c (List.mem_append_right _ hc)) _

/-- What a load request of group `g` rests on and changes. -/
def State.loadView (g : Nat) (s : State) : PwmGroup × Nat × Nat × Nat × Nat × (Nat × List (Nat × Nat)) :=
  (s.group g, s.groups.length, s.crossAt, s.get (R.PWM_PG_LOADALL g), s.get (R.PWM_PG_STAT_LOADPEND g), s.shadows g)

theorem State.shadows_requestLoad {s : State} {k : Nat} (g : Nat) (_hg : g < 8) (_hk : k < 8) :
    (s.requestLoad k).shadows g = s.shadows g := by
  have hc (ch : Nat) : (s.requestLoad k).get (R.PWM_CH_CFG_GROUP ch) = s.get (R.PWM_CH_CFG_GROUP ch) :=
    State.get_requestLoad_off (by simp only [RF.Off, RF.apart, R.PWM_PG_LOADALL, R.PWM_PG_STAT_LOADPEND, R.PWM_CH_CFG_GROUP]; omega)
  have hd (ch : Nat) : (s.requestLoad k).get (R.PWM_CH_DUTY_SH ch) = s.get (R.PWM_CH_DUTY_SH ch) :=
    State.get_requestLoad_off (by simp only [RF.Off, RF.apart, R.PWM_PG_LOADALL, R.PWM_PG_STAT_LOADPEND, R.PWM_CH_DUTY_SH]; omega)
  have hp : (s.requestLoad k).get (R.PWM_PG_PERIOD_SH g) = s.get (R.PWM_PG_PERIOD_SH g) :=
    State.get_requestLoad_off (by simp only [RF.Off, RF.apart, R.PWM_PG_LOADALL, R.PWM_PG_STAT_LOADPEND, R.PWM_PG_PERIOD_SH]; omega)
  simp only [State.shadows, hc, hd, hp]

theorem State.loadView_requestLoad_ne {s : State} {g k : Nat} (hg : g < 8) (hk : k < 8) (hn : k ≠ g) :
    (s.requestLoad k).loadView g = s.loadView g := by
  have eg : (s.requestLoad k).group g = s.group g := State.group_upGroup_ne hn _
  have el : (s.requestLoad k).groups.length = s.groups.length := length_upd ..
  have ea : (s.requestLoad k).get (R.PWM_PG_LOADALL g) = s.get (R.PWM_PG_LOADALL g) :=
    State.get_requestLoad_off (by simp only [RF.Off, RF.apart, R.PWM_PG_LOADALL, R.PWM_PG_STAT_LOADPEND]; omega)
  have ep : (s.requestLoad k).get (R.PWM_PG_STAT_LOADPEND g) = s.get (R.PWM_PG_STAT_LOADPEND g) :=
    State.get_requestLoad_off (by simp only [RF.Off, RF.apart, R.PWM_PG_LOADALL, R.PWM_PG_STAT_LOADPEND]; omega)
  simp only [State.loadView, eg, el, ea, ep, State.shadows_requestLoad g hg hk]
  rfl

theorem gload_takes_shadows {t g v : Nat} {s : State} (hs : s.groups.length = 8) (hg : g < 8) :
    Does (.gload t v) s fun s' =>
      s'.get (R.PWM_PG_LOADALL g) = (if bit v g then 1 else s.get (R.PWM_PG_LOADALL g)) ∧
      s'.get (R.PWM_PG_STAT_LOADPEND g) = (if bit v g then 1 else s.get (R.PWM_PG_STAT_LOADPEND g)) ∧
      (s'.group g).queue = (s.group g).queue ++ (if bit v g then [(s.at t).crossing g (some (s.shadows g))] else []) := by
  obtain ⟨a, ha, he⟩ := foldl_once (V := State.loadView g) (f := fun s g => if bit v g then s.requestLoad g else s) (s.at t)
    List.nodup_range (List.mem_range.2 hg) fun a k hk hn => by
      split
      exacts [State.loadView_requestLoad_ne hg (List.mem_range.1 hk) hn, rfl]
  simp only [State.loadView, Prod.mk.injEq] at ha he
  obtain ⟨hgr, hlen, hat, hall, hpend, hsh⟩ := ha
  obtain ⟨egr, -, -, eall, epend, -⟩ := he
  refine .of_pwmAll (f := (·.gload v)) rfl ?_
  rw [State.settle_get_pwm (by decide) (by simp only [RF.OfPwm, R.PWM_PG_LOADALL]; omega),
    State.settle_get_pwm (by decide) (by simp only [RF.OfPwm, R.PWM_PG_STAT_LOADPEND]; omega),
    State.settle_group (by decide), State.gload, egr, eall, epend]
  split
  · obtain ⟨h1, h2⟩ := a.get_requestLoad_same g
    refine ⟨h1, h2, (State.queue_crossPut (s := a) (hlen.trans hs ▸ hg : g < a.groups.length) (some (a.shadows g))).trans ?_⟩
    rw [State.crossing, hgr, hat, hsh]
    rfl
  · exact ⟨hall, hpend, by rw [hgr, List.append_nil]; rfl⟩

end Sys2Proof.Machine
end

section
/-!
What follows a command on lanes where no cause changed, commands of the PWM groups that come too early, and compares.
-/

namespace Sys2Proof.Machine

/-! ### What follows a command that changes no cause -/

theorem State.followed_self (s : State) : s.followed s = s := State.followed_same (fun _ _ => rfl) rfl

/-- The carry mask shown changes its own field alone. -/
theorem State.showCarry_same (s : State) :
    s.showCarry.groups = s.groups ∧ ∀ f, R.TWN_SHEETS_CARRY.Off f → s.showCarry.get f = s.get f := by
  unfold State.showCarry
  split
  · exact ⟨rfl, fun _ _ => rfl⟩
  · obtain ⟨hg, hr⟩ := (s.put R.TWN_SHEETS_CARRY s.carryMask).twSend_same
      (.health (s.put R.TWN_SHEETS_CARRY s.carryMask).ownHealth)
    exact ⟨hg, fun f hf => (State.get_congr hr f).trans (State.get_put_off hf)⟩

/-- Where no cause of a lane changed, at most the carry mask follows. -/
theorem State.followed_causes {o n : State}
    (h : ∀ l, l < 12 → n.get (R.LNE_LN_STAT_FS_CAUSE l) = o.get (R.LNE_LN_STAT_FS_CAUSE l)) :
    o.followed n = n ∨ o.followed n = n.showCarry := by
  have e : State.laneSources o n = n := foldl_same _ fun l hl => if_pos (h l (List.mem_range.mp hl))
  unfold State.followed
  simp only [e]
  split
  exacts [.inl rfl, .inr rfl]

/-- A command on lanes that changes no cause leaves of the groups and the fields of the PWM block what its effect made. -/
theorem Does.of_causes {c : Instr} {s : State} {P : State → Prop} {ok : Prop} {_ : Decidable ok} {t : Nat} {f : State → State}
    (he : exec c s = laneUnit laneReach ok t s f) (hok : ok)
    (hc : ∀ l, l < 12 → (f (s.at t)).get (R.LNE_LN_STAT_FS_CAUSE l) = s.get (R.LNE_LN_STAT_FS_CAUSE l))
    (hp : ∀ s' : State, s'.groups = (f (s.at t)).groups →
      (∀ r : RF, r.OfPwm → r.lsb + r.width ≤ 64 → s'.get r = (f (s.at t)).get r) → P s') : Does c s P := by
  refine .of_lanes he hok (hp _ ?_ fun r hr hw => ?_)
  · rw [State.settle_groups_in (by decide)]
    rcases State.followed_causes (o := s.at t) hc with e | e <;> rw [e]
    exact (State.showCarry_same _).1
  · rw [State.settle_get_pwm (by decide) hr]
    rcases State.followed_causes (o := s.at t) hc with e | e <;> rw [e]
    refine (State.showCarry_same _).2 r ?_
    simp only [RF.OfPwm, RF.Off, RF.apart, R.TWN_SHEETS_CARRY] at hr ⊢
    omega

/-- The fields the carry mask rests on, beside them others. -/
abbrev RF.Carried (f : RF) : Prop :=
  f.addr % 4 = 0 ∧ f.lsb + f.width ≤ 32 ∧ (f.addr / 0x10000 = 0x4003 ∨ 0x400D0800 ≤ f.addr ∧ f.addr < 0x40130000)

section
variable {o n : State} (hr : ∀ f : RF, f.Carried → n.get f = o.get f)
include hr

/-- The lanes of a group are those whose channels belong to it. -/
theorem State.groupLanes_congr (g : Nat) : n.groupLanes g = o.groupLanes g := by
  have e : n.groupChans g = o.groupChans g := List.filter_congr fun k hk => by
    have hk := List.mem_range.1 hk
    rw [State.is, State.is, hr (R.PWM_CH_CFG_EN k) (by simp only [RF.Carried, R.PWM_CH_CFG_EN]; omega),
      hr (R.PWM_CH_CFG_GROUP k) (by simp only [RF.Carried, R.PWM_CH_CFG_GROUP]; omega)]
  simp only [State.groupLanes, e]

/-- The sheet of a group counts only where it is paired, and a paired sheet's number is one of MLD's. -/
theorem State.carrySheet_congr (hm : n.mld = o.mld) (g : Nat) : (n.groupSheet g).any (fun k => n.paired k && !n.quiesceHeld k) =
    (o.groupSheet g).any fun k => o.paired k && !o.quiesceHeld k := by
  have hp (k : Nat) : n.paired k = o.paired k := by rw [State.paired, State.paired, hr _ (by decide)]
  have hq (k : Nat) : n.quiesceHeld k = o.quiesceHeld k := by
    simp only [State.quiesceHeld, hr R.MLD_QUIESCE (by decide), hm, hr R.TWN_SHEETS_UNPAIRED (by decide)]
  unfold State.groupSheet
  simp only [State.ownerOf, hm, hp, hq]
  cases (o.mld.own.find? fun r => decide (r.kind = .group ∧ r.idx = g)).map (·.sheet) with
  | none => rfl
  | some k =>
    dsimp only
    cases hk : o.paired k
    · split <;> split <;> simp [hk]
    · have := State.paired_le hk
      rw [State.sheetLoaded, State.is, State.sheetLoaded, State.is,
        hr (R.MLD_SH_SRC_LOADED k) (by simp only [RF.Carried, R.MLD_SH_SRC_LOADED]; omega)]

theorem State.carryMask_congr (hm : n.mld = o.mld) : n.carryMask = o.carryMask := by
  refine List.foldl_ext _ _ _ fun m g hg => ?_
  have hg := List.mem_range.1 hg
  have lanes : (n.groupLanes g).all (fun l => n.get (R.LNE_LN_STAT_STATE l) = 2) =
      (o.groupLanes g).all fun l => o.get (R.LNE_LN_STAT_STATE l) = 2 := by
    rw [State.groupLanes_congr hr]
    refine all_congr_mem fun l hl => ?_
    have := List.mem_range.1 (List.mem_of_mem_filter hl)
    rw [hr _ (by simp only [RF.Carried, R.LNE_LN_STAT_STATE]; omega)]
  have muted : n.get (R.FMX_PG_STAT_MUTED g) = o.get (R.FMX_PG_STAT_MUTED g) :=
    hr _ (by simp only [RF.Carried, R.FMX_PG_STAT_MUTED]; omega)
  have e : n.carries g = o.carries g := by
    simp only [State.carries_eq, State.twState, State.is, hr R.TWN_CTL_EN (by decide), hr R.TWN_STAT_STATE (by decide),
      State.carrySheet_congr hr hm, muted, lanes]
    rfl
  rw [e]

/-- Where neither a cause nor what the carry mask rests on changed, nothing follows. -/
theorem State.followed_congr (hm : n.mld = o.mld) : o.followed n = n :=
  State.followed_same (fun l hl => hr _ (by simp only [RF.Carried, R.LNE_LN_STAT_FS_CAUSE]; omega)) (State.carryMask_congr hr hm)

end

/-! ### Commands that come too early -/

/-- A command on lanes that has no effect leaves the groups, the channels and every register. -/
theorem Does.of_no_effect {c : Instr} {s : State} {ok : Prop} {_ : Decidable ok} {t : Nat} {f : State → State}
    (he : exec c s = laneUnit laneReach ok t s f) (hok : ok) (hf : f (s.at t) = s.at t) :
    Does c s fun s' => s'.groups = s.groups ∧ s'.chans = s.chans ∧ KeepsBut [] s s' := by
  refine .of_lanes he hok ?_
  rw [hf, State.followed_self]
  exact ⟨State.settle_groups_in (by decide), State.settle_chans_in (by decide), .settle _ _ (.refl _ s)⟩

theorem upd_congr {α : Type} {l : List α} {i : Nat} {f f' : α → α} {d : α} (h : f (l.getD i d) = f' (l.getD i d)) :
    upd l i f = upd l i f' := by
  refine List.ext_getElem? fun j => ?_
  rw [upd, upd, List.getElem?_modify, List.getElem?_modify]
  split
  next hj =>
    subst hj
    cases e : l[i]? with
    | none => rfl
    | some x => rw [List.getD_eq_getElem?_getD, e, Option.getD_some] at h; exact congrArg some h
  next => rfl

theorem State.upGroup_congr {s : State} {g : Nat} {f f' : PwmGroup → PwmGroup} (h : f (s.group g) = f' (s.group g)) :
    s.upGroup g f = s.upGroup g f' := by rw [State.upGroup, upd_congr (d := {}) h, State.upGroup]

theorem State.upGroup_same {s : State} {g : Nat} {f : PwmGroup → PwmGroup} (h : f (s.group g) = s.group g) :
    s.upGroup g f = s := by rw [State.upGroup, upd_congr (d := {}) (f' := id) h, upd, List.modify_id]

/-- Where no shadow write is at the queue's front, none crosses. -/
theorem State.crossed_same {s : State} {g upto : Nat}
    (h : (s.group g).queue.takeWhile (fun c => c.load.isNone && c.at_ ≤ upto) = []) : s.crossed g upto = s := by
  unfold State.crossed
  simp only [h]
  rw [State.upGroup_same (by rfl)]
  exact ite_self _

theorem groupLoad_early {t g at_ : Nat} {s : State} {load : Nat × List (Nat × Nat)} {rest : List Cross} (hg : g < 8)
    (hq : (s.group g).queue = ⟨at_, some load⟩ :: rest) (hn : (s.at t).tb < s.effectAt at_) :
    Does (.groupLoad t g) s fun s' => s'.groups = s.groups ∧ s'.chans = s.chans ∧ KeepsBut [] s s' := by
  have hq' : ((s.at t).group g).queue = ⟨at_, some load⟩ :: rest := hq
  refine .of_no_effect (f := fun x => x.groupLoad g) rfl hg ?_
  unfold State.groupLoad
  simp only [State.crossed_same (s := s.at t) (g := g) (by rw [hq']; rfl), hq']
  exact if_neg (Nat.not_le.2 hn)

theorem groupEnable_early {t g e : Nat} {s : State} (hg : g < 8) (hq : (s.group g).enReq = some e) (hn : (s.at t).tb < e) :
    Does (.groupEnable t g) s fun s' => s'.groups = s.groups ∧ s'.chans = s.chans ∧ KeepsBut [] s s' := by
  have hq' : ((s.at t).group g).enReq = some e := hq
  refine .of_no_effect (f := fun x => x.groupEnable g) rfl hg ?_
  unfold State.groupEnable
  simp only [hq']
  exact if_neg (Nat.not_le.2 hn)

theorem periodStart_early {t g : Nat} {s : State} {p : Period} (hg : g < 8) (hr : (s.group g).running = false)
    (hp : (s.group g).periods = [p]) (hn : (s.at t).tb < p.start) :
    Does (.periodStart t g) s fun s' => s'.groups = s.groups ∧ s'.chans = s.chans ∧ KeepsBut [] s s' := by
  have hr' : ((s.at t).group g).running = false := hr
  have hp' : ((s.at t).group g).periods = [p] := hp
  refine .of_no_effect (f := fun x => x.periodStart g) rfl hg ?_
  unfold State.periodStart
  simp only [hr', hp']
  exact if_neg (Nat.not_le.2 hn)

/-! ### Compares (R168) -/

section
variable {t g n : Nat} {s : State} {p : Period} {rest : List Period} (hg : g < 8) (hn : n < 4)
  (hp : (s.group g).periods = p :: rest)
include hg hn hp

theorem compareFire_due (hs : s.groups.length = 8) (hr : (s.group g).running = true)
    (he : bit (s.get (R.PWM_PG_CTL_TRGEN g)) n = true) (hv : (s.group g).trg.getD n 0 < p.stop - p.start)
    (hd : s.effectAt (p.start + (s.group g).trg.getD n 0) ≤ (s.at t).tb) :
    Does (.compareFire t g n) s fun s' =>
      (s'.group g).fired = (s.group g).fired.set n (some (p.start + (s.group g).trg.getD n 0)) ∧ KeepsBut [] s s' := by
  have e : (s.at t).compareFire g n = (s.at t).upGroup g fun x =>
      { x with fired := x.fired.set n (some (p.start + (s.group g).trg.getD n 0)) } := by
    have hp' : ((s.at t).group g).periods = p :: rest := hp
    have hd' : (s.at t).effectAt (p.start + (s.group g).trg.getD n 0) ≤ (s.at t).tb := hd
    have hr' : ((s.at t).group g).running = true := hr
    have eg : ((s.at t).group g).trg = (s.group g).trg := rfl
    unfold State.compareFire
    simp only [hp', hr', eg, State.at_get, he, hv, hd', decide_true, Bool.and_self, if_true]
  refine .of_pwm (f := fun x => x.compareFire g n) rfl ⟨hg, hn⟩ ?_
  rw [e]
  refine ⟨?_, .settle _ _ (.refl _ s)⟩
  rw [State.settle_group (by decide)]
  exact congrArg PwmGroup.fired (State.group_upGroup_same (s := s.at t) (hs ▸ hg : g < s.groups.length) _)

theorem compareFire_not (hc : bit (s.get (R.PWM_PG_CTL_TRGEN g)) n = false ∨ p.stop - p.start ≤ (s.group g).trg.getD n 0) :
    Does (.compareFire t g n) s fun s' => s'.groups = s.groups ∧ KeepsBut [] s s' := by
  have e : (s.at t).compareFire g n = s.at t := by
    have hp' : ((s.at t).group g).periods = p :: rest := hp
    have eg : ((s.at t).group g).trg = (s.group g).trg := rfl
    unfold State.compareFire
    simp only [hp', eg, State.at_get]
    refine if_neg ?_
    simp only [Bool.and_eq_true, decide_eq_true_eq]
    rintro ⟨⟨⟨-, hb⟩, hv⟩, -⟩
    rcases hc with hc | hc
    · exact absurd (hb.symm.trans hc) (by decide)
    · exact absurd hv (Nat.not_lt.2 hc)
  refine .of_pwm (f := fun x => x.compareFire g n) rfl ⟨hg, hn⟩ ?_
  rw [e]
  exact ⟨State.settle_groups_in (by decide), .settle _ _ (.refl _ s)⟩

end

end Sys2Proof.Machine
end

section
/-!
Loads of a stopped group, and shadow writes that arrive (R157, R162, R165).
-/

namespace Sys2Proof.Machine

/-! ### What shadows, findings and loads show -/

theorem State.setAt_eq (s : State) (f : RF) (x : Nat) : s.setAt f x = s.set1 f ∨ s.setAt f x = s.put f 1 := by
  unfold State.setAt
  split
  exacts [.inl rfl, .inr rfl]

theorem State.get_setAt_off {s : State} {f g : RF} {x : Nat} (h : f.Off g) : (s.setAt f x).get g = s.get g := by
  rcases s.setAt_eq f x with e | e <;> rw [e]
  exacts [State.get_set1_off h, State.get_put_off h]

theorem State.get_setAt_bit {s : State} {f : RF} {x : Nat} (h : f.lsb + f.width ≤ 64 ∧ f.width = 1) : (s.setAt f x).get f = 1 := by
  rcases s.setAt_eq f x with e | e <;> rw [e]
  · exact State.get_set1_fits ⟨h.1, by omega⟩
  · rw [State.get_put_same _ _ _ h.1, h.2]; rfl

theorem State.setAt_groups (s : State) (f : RF) (x : Nat) : (s.setAt f x).groups = s.groups := by
  rcases s.setAt_eq f x with e | e <;> rw [e] <;> rfl

theorem State.setAt_chans (s : State) (f : RF) (x : Nat) : (s.setAt f x).chans = s.chans := by
  rcases s.setAt_eq f x with e | e <;> rw [e] <;> rfl

theorem State.setAt_mld (s : State) (f : RF) (x : Nat) : (s.setAt f x).mld = s.mld := by
  rcases s.setAt_eq f x with e | e <;> rw [e] <;> rfl

/-- Fields beside the counters of the interlocks and the flags of a group's findings. -/
abbrev RF.BesideFinds (g : Nat) (f : RF) : Prop :=
  f.addr % 4 = 0 ∧ f.lsb + f.width ≤ 64 ∧ (f.addr + 8 ≤ 0x400D0E00 ∨ f.lsb + f.width ≤ 24) ∧
    (R.PWM_PG_INT_STAT_DUTY_CLAMP g).Off f ∧ (R.PWM_PG_INT_STAT_BOOT_REFRESH g).Off f ∧ (R.PWM_PG_INT_STAT_INTERLOCK g).Off f

theorem State.get_showFinds {s : State} {g : Nat} {f : RF} (hf : f.BesideFinds g) : (s.showFinds g).get f = s.get f := by
  obtain ⟨h4, hw, ha, hclamp, hboot, hilk⟩ := hf
  have hhits (l : Nat) : (R.PWM_LN_ILK_HITS l).Off f := by
    simp only [RF.Off, RF.apart, R.PWM_LN_ILK_HITS]
    omega
  unfold State.showFinds
  extract_lets due s1
  refine List.foldlRecOn (motive := fun x : State => x.get f = s.get f) due _ (show s1.get f = s.get f from rfl)
    fun x hx d _ => ?_
  split
  · exact (State.get_setAt_off hclamp).trans hx
  · exact (State.get_setAt_off hboot).trans hx
  · exact ((State.get_setAt_off hilk).trans (State.get_put_off (hhits d.lane))).trans hx

/-- The duties of a load become active. -/
theorem State.get_duties (s : State) (ks : List Nat) (v : Nat → Nat) (ch : Nat) :
    (ks.foldl (fun s k => s.put (R.PWM_CH_DUTY k) (v k)) s).get (R.PWM_CH_DUTY ch) =
      if ch ∈ ks then v ch % 2 ^ 40 else s.get (R.PWM_CH_DUTY ch) := by
  induction ks generalizing s with
  | nil => rfl
  | cons k ks ih =>
    rw [List.foldl_cons, ih]
    simp only [List.mem_cons]
    by_cases hk : ch = k
    · subst hk
      rw [State.get_put_fits (by simp [RF.Fits, R.PWM_CH_DUTY])]
      simp [R.PWM_CH_DUTY]
    · rw [State.get_put_off (by simp only [RF.Off, RF.apart, R.PWM_CH_DUTY]; omega)]
      simp only [hk, false_or]

theorem State.get_duties_off {s : State} {ds : List (Nat × Nat)} {f : RF} (h : ∀ d ∈ ds, (R.PWM_CH_DUTY d.1).Off f) :
    (ds.foldl (fun s d => s.put (R.PWM_CH_DUTY d.1) d.2) s).get f = s.get f :=
  List.foldlRecOn (motive := fun x : State => x.get f = s.get f) ds _ rfl fun _ hx d hd =>
    (State.get_put_off (h d hd)).trans hx

theorem State.get_activePeriod (s : State) (g v : Nat) : (s.activePeriod g v).get (R.PWM_PG_PERIOD g) = max v 0x3E8000 % 2 ^ 40 ∧
    (v < 0x3E8000 → (s.activePeriod g v).get (R.PWM_PG_INT_STAT_PERIOD_CLAMP g) = 1) := by
  unfold State.activePeriod
  refine ⟨State.get_put_fits (by simp [RF.Fits, R.PWM_PG_PERIOD]), fun h => ?_⟩
  rw [if_pos h, State.get_put_off (by simp only [RF.Off, RF.apart, R.PWM_PG_PERIOD, R.PWM_PG_INT_STAT_PERIOD_CLAMP]; omega)]
  exact State.get_set1_fits (by simp [RF.Fits, R.PWM_PG_INT_STAT_PERIOD_CLAMP])

theorem State.get_activePeriod_off {s : State} {g v : Nat} {f : RF}
    (h : (R.PWM_PG_PERIOD g).Off f ∧ (R.PWM_PG_INT_STAT_PERIOD_CLAMP g).Off f) : (s.activePeriod g v).get f = s.get f := by
  unfold State.activePeriod
  rw [State.get_put_off h.1]
  split
  exacts [State.get_set1_off h.2, rfl]

theorem State.activePeriod_groups (s : State) (g v : Nat) : (s.activePeriod g v).groups = s.groups := by
  unfold State.activePeriod
  split <;> rfl

/-- What a load shows of itself when no other waits. -/
def State.loadShown (s : State) (g tl : Nat) : State :=
  (((s.clr (R.PWM_PG_LOADALL g)).clr (R.PWM_PG_STAT_LOADPEND g)).put (R.PWM_PG_LASTLOAD g) tl).set1 (R.PWM_PG_INT_STAT_LOAD_DONE g)

theorem State.get_loadShown (s : State) (g tl : Nat) :
    (s.loadShown g tl).get (R.PWM_PG_LOADALL g) = 0 ∧ (s.loadShown g tl).get (R.PWM_PG_STAT_LOADPEND g) = 0 ∧
    (s.loadShown g tl).get (R.PWM_PG_LASTLOAD g) = tl % 2 ^ 64 ∧
    (s.loadShown g tl).get (R.PWM_PG_INT_STAT_LOAD_DONE g) = 1 := by
  unfold State.loadShown State.clr
  refine ⟨?_, ?_, ?_, State.get_set1_fits (by simp [RF.Fits, R.PWM_PG_INT_STAT_LOAD_DONE])⟩
  · rw [State.get_set1_off (by simp only [RF.Off, RF.apart, R.PWM_PG_INT_STAT_LOAD_DONE, R.PWM_PG_LOADALL]; omega),
      State.get_put_off (by simp only [RF.Off, RF.apart, R.PWM_PG_LASTLOAD, R.PWM_PG_LOADALL]; omega),
      State.get_put_off (by simp only [RF.Off, RF.apart, R.PWM_PG_STAT_LOADPEND, R.PWM_PG_LOADALL]; omega),
      State.get_put_fits (by simp [RF.Fits, R.PWM_PG_LOADALL]), Nat.zero_mod]
  · rw [State.get_set1_off (by simp only [RF.Off, RF.apart, R.PWM_PG_INT_STAT_LOAD_DONE, R.PWM_PG_STAT_LOADPEND]; omega),
      State.get_put_off (by simp only [RF.Off, RF.apart, R.PWM_PG_LASTLOAD, R.PWM_PG_STAT_LOADPEND]; omega),
      State.get_put_fits (by simp [RF.Fits, R.PWM_PG_STAT_LOADPEND]), Nat.zero_mod]
  · rw [State.get_set1_off (by simp only [RF.Off, RF.apart, R.PWM_PG_INT_STAT_LOAD_DONE, R.PWM_PG_LASTLOAD]; omega)]
    exact State.get_put_fits (by simp [RF.Fits, R.PWM_PG_LASTLOAD])

theorem State.get_loadShown_off {s : State} {g tl : Nat} {f : RF} (h : (R.PWM_PG_LOADALL g).Off f ∧
    (R.PWM_PG_STAT_LOADPEND g).Off f ∧ (R.PWM_PG_LASTLOAD g).Off f ∧ (R.PWM_PG_INT_STAT_LOAD_DONE g).Off f) :
    (s.loadShown g tl).get f = s.get f := by
  obtain ⟨hall, hpend, hlast, hdone⟩ := h
  unfold State.loadShown State.clr
  rw [State.get_set1_off hdone, State.get_put_off hlast, State.get_put_off hpend, State.get_put_off hall]

/-! ### A load of a stopped group (R157) -/

/-- The registers a load of a stopped group leaves: its duties and its period active, and what it shows. -/
def State.loadStopped (s : State) (g tl per : Nat) (duties : List (Nat × Nat)) : State :=
  (((duties.filter fun d => (s.groupChans g).contains d.1).foldl (fun s d => s.put (R.PWM_CH_DUTY d.1) d.2) s).activePeriod g per).loadShown g tl

theorem foldl_put_groups {α : Type} (s : State) (l : List α) (f : α → RF) (v : α → Nat) :
    (l.foldl (fun s a => s.put (f a) (v a)) s).groups = s.groups :=
  List.foldlRecOn (motive := fun x : State => x.groups = s.groups) l _ rfl fun _ hx _ _ => hx

theorem State.loadStopped_groups (s : State) (g tl per : Nat) (duties : List (Nat × Nat)) :
    (s.loadStopped g tl per duties).groups = s.groups :=
  (State.activePeriod_groups ..).trans (foldl_put_groups ..)

theorem State.group_congr {s s' : State} (h : s'.groups = s.groups) (g : Nat) : s'.group g = s.group g := by
  rw [State.group, h, State.group]

/-- Nothing of a group that has no periods is built anew. -/
theorem State.reshape_stopped {s : State} {g t : Nat} (h : (s.group g).periods = []) : s.reshape g t = s := by
  unfold State.reshape
  rw [h]
  rfl

/-- With no periods and no other load waiting, a load leaves `loadStopped`. -/
theorem State.loadNow_stopped {s : State} {g tl per : Nat} {duties : List (Nat × Nat)} (hp : (s.group g).periods = [])
    (hq : (s.group g).queue = []) : s.loadNow g tl per duties =
      (s.loadStopped g tl per duties).upGroup g fun x => { x with loaded := x.running && x.periods.head?.any (·.start ≤ tl) } := by
  have e1 := State.group_congr (foldl_put_groups s (duties.filter fun d => (s.groupChans g).contains d.1)
    (fun d => R.PWM_CH_DUTY d.1) (·.2)) g
  have e2 := State.group_congr (State.activePeriod_groups ((duties.filter fun d => (s.groupChans g).contains d.1).foldl
    (fun s d => s.put (R.PWM_CH_DUTY d.1) d.2) s) g per) g
  unfold State.loadNow
  simp only [e1, e2, hp, hq, List.isEmpty_nil, if_true, List.any_nil, Bool.false_eq_true, if_false]
  refine State.reshape_stopped ?_
  rw [State.group_upGroup]
  split
  all_goals exact (congrArg PwmGroup.periods (State.group_congr (s.loadStopped_groups g tl per duties) g)).trans hp

/-- A request that has arrived at a stopped group, with none behind it, is carried out. -/
theorem State.groupLoad_stopped {s : State} {g tl per : Nat} {duties : List (Nat × Nat)} (hg : g < 8) (hs : s.groups.length = 8)
    (hq : (s.group g).queue = [⟨tl, some (per, duties)⟩]) (hp : (s.group g).periods = []) (hd : s.effectAt tl ≤ s.tb) :
    let y := (s.upGroup g fun x => { x with queue := [] }).showFinds g
    (y.group g).queue = [] ∧ s.groupLoad g =
      (y.loadStopped g tl per duties).upGroup g fun x => { x with loaded := x.running && x.periods.head?.any (·.start ≤ tl) } := by
  intro y
  have e0 : (s.upGroup g fun x => { x with queue := [] }).group g = { s.group g with queue := [] } :=
    State.group_upGroup_same (hs ▸ hg) _
  have along : (s.upGroup g fun x => { x with queue := [] }).Along g y := (State.Along.refl ..).showFinds hg hg
  have yp : (y.group g).periods = [] := along.none (by rw [e0]; exact hp)
  have yq : (y.group g).queue = [] := (congrArg PwmGroup.queue along.core :).trans (by rw [e0]; rfl)
  refine ⟨yq, ?_⟩
  unfold State.groupLoad
  simp only [State.crossed_same (s := s) (g := g) (by rw [hq]; rfl), hq, if_pos hd]
  rw [show (s.upGroup g fun x => { x with queue := [] }).showFinds g = y from rfl, State.loadNow_stopped yp yq]
  refine State.crossed_same ?_
  rw [State.group_upGroup]
  have e := congrArg PwmGroup.queue (State.group_congr (y.loadStopped_groups g tl per duties) g)
  split <;> rw [show (PwmGroup.queue _) = [] from e.trans yq] <;> rfl

section
variable {t g tl per : Nat} {s : State} {chs : List Nat} {v : Nat → Nat}

/-- A duty a load took becomes active where its channel belongs to the group. -/
theorem State.get_loadStopped_duty {ch : Nat} (hch : ch < 48) (_hg : g < 8) :
    (s.loadStopped g tl per (chs.map fun ch => (ch, v ch))).get (R.PWM_CH_DUTY ch) =
      if ch ∈ chs ∧ s.is (R.PWM_CH_CFG_EN ch) = true ∧ s.get (R.PWM_CH_CFG_GROUP ch) = g then v ch % 2 ^ 40
      else s.get (R.PWM_CH_DUTY ch) := by
  unfold State.loadStopped
  rw [State.get_loadShown_off (by simp only [RF.Off, RF.apart, R.PWM_CH_DUTY, R.PWM_PG_LOADALL, R.PWM_PG_STAT_LOADPEND,
      R.PWM_PG_LASTLOAD, R.PWM_PG_INT_STAT_LOAD_DONE]; omega),
    State.get_activePeriod_off (by simp only [RF.Off, RF.apart, R.PWM_CH_DUTY, R.PWM_PG_PERIOD, R.PWM_PG_INT_STAT_PERIOD_CLAMP]; omega),
    List.filter_map, List.foldl_map, State.get_duties]
  simp [State.groupChans, hch]

/-- The period a load took becomes active; one too small is replaced (R157). -/
theorem State.get_loadStopped_period {duties : List (Nat × Nat)} :
    (s.loadStopped g tl per duties).get (R.PWM_PG_PERIOD g) = max per 0x3E8000 % 2 ^ 40 ∧
    (per < 0x3E8000 → (s.loadStopped g tl per duties).get (R.PWM_PG_INT_STAT_PERIOD_CLAMP g) = 1) := by
  unfold State.loadStopped
  rw [State.get_loadShown_off (by simp only [RF.Off, RF.apart, R.PWM_PG_PERIOD, R.PWM_PG_LOADALL, R.PWM_PG_STAT_LOADPEND,
      R.PWM_PG_LASTLOAD, R.PWM_PG_INT_STAT_LOAD_DONE]; omega),
    State.get_loadShown_off (by simp only [RF.Off, RF.apart, R.PWM_PG_INT_STAT_PERIOD_CLAMP, R.PWM_PG_LOADALL,
      R.PWM_PG_STAT_LOADPEND, R.PWM_PG_LASTLOAD, R.PWM_PG_INT_STAT_LOAD_DONE]; omega)]
  exact State.get_activePeriod ..

theorem State.get_loadStopped_off {duties : List (Nat × Nat)} {f : RF} (hd : ∀ ch, ch < 48 → (R.PWM_CH_DUTY ch).Off f)
    (hp : (R.PWM_PG_PERIOD g).Off f ∧ (R.PWM_PG_INT_STAT_PERIOD_CLAMP g).Off f)
    (hl : (R.PWM_PG_LOADALL g).Off f ∧ (R.PWM_PG_STAT_LOADPEND g).Off f ∧ (R.PWM_PG_LASTLOAD g).Off f ∧
      (R.PWM_PG_INT_STAT_LOAD_DONE g).Off f) : (s.loadStopped g tl per duties).get f = s.get f := by
  unfold State.loadStopped
  rw [State.get_loadShown_off hl, State.get_activePeriod_off hp]
  refine State.get_duties_off fun d hd' => hd _ ?_
  have := List.contains_iff_mem.1 (List.mem_filter.1 hd').2
  exact List.mem_range.1 (List.mem_of_mem_filter this)

end

/-! ### The command (R162, R165) -/

/-- The load request of a stopped group, once it has arrived. -/
theorem groupLoad_due {t g tl per : Nat} {s : State} {chs : List Nat} {v : Nat → Nat} (hs : s.groups.length = 8) (hg : g < 8)
    (hq : (s.group g).queue = [⟨tl, some (per, chs.map fun ch => (ch, v ch))⟩]) (hp : (s.group g).periods = [])
    (hd : s.effectAt tl ≤ (s.at t).tb) :
    Does (.groupLoad t g) s fun s' =>
      (∀ ch, ch < 48 → s'.get (R.PWM_CH_DUTY ch) =
        if ch ∈ chs ∧ s.is (R.PWM_CH_CFG_EN ch) = true ∧ s.get (R.PWM_CH_CFG_GROUP ch) = g then v ch % 2 ^ 40
        else s.get (R.PWM_CH_DUTY ch)) ∧
      s'.get (R.PWM_PG_PERIOD g) = max per 0x3E8000 % 2 ^ 40 ∧ (s'.group g).queue = [] ∧
      (per < 0x3E8000 → s'.get (R.PWM_PG_INT_STAT_PERIOD_CLAMP g) = 1) ∧
      s'.get (R.PWM_PG_LOADALL g) = 0 ∧ s'.get (R.PWM_PG_STAT_LOADPEND g) = 0 ∧
      s'.get (R.PWM_PG_LASTLOAD g) = tl % 2 ^ 64 ∧ s'.get (R.PWM_PG_INT_STAT_LOAD_DONE g) = 1 := by
  obtain ⟨yq, he⟩ := State.groupLoad_stopped (s := s.at t) hg hs hq hp hd
  generalize hy : ((s.at t).upGroup g fun x => { x with queue := [] }).showFinds g = y at yq he
  have finds {f : RF} (hf : f.BesideFinds g) : y.get f = s.get f := hy ▸ State.get_showFinds hf
  refine .of_causes (f := fun x => x.groupLoad g) rfl hg (fun l hl => ?_) fun s' hgr hget => ?_
  · rw [he]
    refine (State.get_loadStopped_off (fun ch hch => ?_) ?_ ?_).trans (finds ?_) <;>
      simp only [RF.BesideFinds, RF.Off, RF.apart, R.LNE_LN_STAT_FS_CAUSE, R.PWM_CH_DUTY, R.PWM_PG_PERIOD, R.PWM_PG_INT_STAT_PERIOD_CLAMP,
        R.PWM_PG_LOADALL, R.PWM_PG_STAT_LOADPEND, R.PWM_PG_LASTLOAD, R.PWM_PG_INT_STAT_LOAD_DONE,
        R.PWM_PG_INT_STAT_DUTY_CLAMP, R.PWM_PG_INT_STAT_BOOT_REFRESH, R.PWM_PG_INT_STAT_INTERLOCK] <;> omega
  have view {r : RF} (hr : r.OfPwm ∧ r.lsb + r.width ≤ 64) : s'.get r = (y.loadStopped g tl per (chs.map fun ch => (ch, v ch))).get r :=
    (hget r hr.1 hr.2).trans (by rw [he]; rfl)
  obtain ⟨hper, hclamp⟩ := State.get_loadStopped_period (s := y) (g := g) (tl := tl) (per := per) (duties := chs.map fun ch => (ch, v ch))
  obtain ⟨hall, hpend, hlast, hdone⟩ := State.get_loadShown (((((chs.map fun ch => (ch, v ch)).filter fun d =>
    (y.groupChans g).contains d.1).foldl (fun s d => s.put (R.PWM_CH_DUTY d.1) d.2) y).activePeriod g per)) g tl
  refine ⟨fun ch hch => ?_, ?_, ?_, fun hlt => ?_, ?_, ?_, ?_, ?_⟩
  · rw [view (by simp only [RF.OfPwm, R.PWM_CH_DUTY]; omega), State.get_loadStopped_duty hch hg, State.is, State.is]
    rw [finds (by simp only [RF.BesideFinds, RF.Off, RF.apart, R.PWM_CH_CFG_EN, R.PWM_PG_INT_STAT_DUTY_CLAMP,
        R.PWM_PG_INT_STAT_BOOT_REFRESH, R.PWM_PG_INT_STAT_INTERLOCK]; omega),
      finds (by simp only [RF.BesideFinds, RF.Off, RF.apart, R.PWM_CH_CFG_GROUP, R.PWM_PG_INT_STAT_DUTY_CLAMP,
        R.PWM_PG_INT_STAT_BOOT_REFRESH, R.PWM_PG_INT_STAT_INTERLOCK]; omega),
      finds (by simp only [RF.BesideFinds, RF.Off, RF.apart, R.PWM_CH_DUTY, R.PWM_PG_INT_STAT_DUTY_CLAMP,
        R.PWM_PG_INT_STAT_BOOT_REFRESH, R.PWM_PG_INT_STAT_INTERLOCK]; omega)]
  · exact (view (by simp only [RF.OfPwm, R.PWM_PG_PERIOD]; omega)).trans hper
  · rw [State.group_congr hgr, he, State.group_upGroup]
    split <;> exact (congrArg PwmGroup.queue (State.group_congr (y.loadStopped_groups ..) g)).trans yq
  · exact (view (by simp only [RF.OfPwm, R.PWM_PG_INT_STAT_PERIOD_CLAMP]; omega)).trans (hclamp hlt)
  · exact (view (by simp only [RF.OfPwm, R.PWM_PG_LOADALL]; omega)).trans hall
  · exact (view (by simp only [RF.OfPwm, R.PWM_PG_STAT_LOADPEND]; omega)).trans hpend
  · exact (view (by simp only [RF.OfPwm, R.PWM_PG_LASTLOAD]; omega)).trans hlast
  · exact (view (by simp only [RF.OfPwm, R.PWM_PG_INT_STAT_LOAD_DONE]; omega)).trans hdone

/-- A single shadow write that has arrived leaves the queue, and shows where a load of the same period stands before it. -/
theorem State.groupLoad_shadow {s : State} {g at_ : Nat} (hs : s.groups.length = 8) (hg : g < 8)
    (hq : (s.group g).queue = [⟨at_, none⟩]) (hd : at_ ≤ s.tb) : s.groupLoad g =
      if (s.group g).loaded then (s.upGroup g fun x => { x with queue := [] }).setAt (R.PWM_PG_INT_STAT_LATE_SHADOW g) at_
      else s.upGroup g fun x => { x with queue := [] } := by
  have e0 (f : PwmGroup → PwmGroup) : (s.upGroup g f).group g = f (s.group g) := State.group_upGroup_same (hs ▸ hg) f
  have hc : s.crossed g s.tb =
      if (s.group g).loaded then (s.upGroup g fun x => { x with queue := [] }).setAt (R.PWM_PG_INT_STAT_LATE_SHADOW g) at_
      else s.upGroup g fun x => { x with queue := [] } := by
    have hw : (s.group g).queue.takeWhile (fun c => c.load.isNone && c.at_ ≤ s.tb) = [⟨at_, none⟩] := by
      rw [hq, List.takeWhile_cons_of_pos (by simpa using hd), List.takeWhile_nil]
    have hu : (s.upGroup g fun x => { x with queue := x.queue.drop 1 }) = s.upGroup g fun x => { x with queue := [] } :=
      State.upGroup_congr (by rw [hq]; rfl)
    unfold State.crossed
    simp only [hw, List.length_singleton, hu, e0, List.foldl_cons, List.foldl_nil]
  have hqc : ((s.crossed g s.tb).group g).queue = [] := by
    rw [hc]
    split
    · rw [State.group_congr (State.setAt_groups ..), e0]
    · rw [e0]
  unfold State.groupLoad
  simp only [hqc]
  exact hc

/-- The last shadow write that waits arrives: behind a load of the same period it sets LATE_SHADOW. -/
theorem groupLoad_shadow {t g at_ : Nat} {s : State} (hs : s.groups.length = 8) (hg : g < 8)
    (hq : (s.group g).queue = [⟨at_, none⟩]) (hd : at_ ≤ (s.at t).tb) :
    Does (.groupLoad t g) s fun s' => (s'.group g).queue = [] ∧ s'.get (R.PWM_PG_INT_STAT_LATE_SHADOW g) =
      (if (s.group g).loaded then 1 else s.get (R.PWM_PG_INT_STAT_LATE_SHADOW g)) ∧
      KeepsBut [R.PWM_PG_INT_STAT_LATE_SHADOW g] s s' := by
  have he : (s.at t).groupLoad g = _ := State.groupLoad_shadow hs hg hq hd
  have e0 : ((s.at t).upGroup g fun x => { x with queue := [] }).group g = { s.group g with queue := [] } :=
    State.group_upGroup_same (s := s.at t) (hs ▸ hg : g < s.groups.length) _
  have same : (s.at t).followed ((s.at t).groupLoad g) = (s.at t).groupLoad g := by
    rw [he]
    split
    · refine State.followed_congr (fun f hf => State.get_setAt_off ?_) (State.setAt_mld ..)
      simp only [RF.Carried, RF.Off, RF.apart, R.PWM_PG_INT_STAT_LATE_SHADOW] at hf ⊢
      omega
    · exact State.followed_congr (fun _ _ => rfl) rfl
  refine .of_lanes (f := fun x => x.groupLoad g) rfl hg ?_
  rw [same, State.settle_group (by decide),
    State.settle_get_pwm (by decide) (by simp only [RF.OfPwm, R.PWM_PG_INT_STAT_LATE_SHADOW]; omega), he]
  change _ ∧ _ = (if ((s.at t).group g).loaded = true then 1 else _) ∧ _
  split
  · refine ⟨?_, State.get_setAt_bit (by simp [R.PWM_PG_INT_STAT_LATE_SHADOW]), .settle _ _ ?_⟩
    · rw [State.group_congr (State.setAt_groups ..), e0]
    · rcases State.setAt_eq ((s.at t).upGroup g fun x => { x with queue := [] }) (R.PWM_PG_INT_STAT_LATE_SHADOW g) at_ with e | e <;> rw [e]
      all_goals exact ((KeepsBut.refl _ s).put_fits (f := R.PWM_PG_INT_STAT_LATE_SHADOW g) (v := 1)
        (by simp [RF.Fits, R.PWM_PG_INT_STAT_LATE_SHADOW]) (List.mem_singleton_self _)).of_regs rfl
  · exact ⟨congrArg PwmGroup.queue e0, rfl, .settle _ _ (.of_regs (.refl _ s) rfl)⟩

end Sys2Proof.Machine
end

section
/-!
Period starts (R156–R158, R168), and the group's following of CTL.EN (R156).
-/

namespace Sys2Proof.Machine

/-! ### Commands whose effect goes along the pulse path -/

theorem State.Along.head {g : Nat} {o s : State} {p : Period} (h : o.Along g s) (hp : (o.group g).periods.head? = some p) :
    (s.group g).periods.head? = some p := by
  obtain ⟨l, hl⟩ := h.periods
  rw [← hl, List.head?_append, hp]
  rfl

/-- What a command on lanes leaves lies along the pulse path from its effect. -/
theorem Does.of_along {c : Instr} {s o : State} {P : State → Prop} {ok : Prop} {_ : Decidable ok} {t g : Nat} {f : State → State}
    (he : exec c s = laneUnit laneReach ok t s f) (hok : ok) (hg : g < 8) (ha : o.Along g (f (s.at t)))
    (hx : (s.at t).Raises o) (hp : ∀ s', o.Along g s' → P s') : Does c s P := by
  have h := ha.followed hg hx
  have eg := State.settle_group (reach := laneReach) (s := s) (n := (s.at t).followed (f (s.at t))) (tb := (s.at t).tb) (by decide) g
  refine .of_lanes he hok (hp _ (h.trans ⟨by rw [eg], by rw [eg], by rw [eg]; exact id, by rw [eg]; exact fun _ _ _ => id,
    fun r hr => State.settle_get_pwm (by decide) ?_, .of_same fun l hl => State.settle_get_in ?_ (.inl ?_)⟩))
  · revert r
    simp only [groupShown, List.forall_mem_cons, List.not_mem_nil, IsEmpty.forall_iff, implies_true, and_true, RF.OfPwm,
      R.PWM_PG_STAT_RUNNING, R.PWM_PG_STAT_ALIGNED, R.PWM_PG_PERIOD, R.PWM_PG_PCOUNT]
    omega
  · rw [partOf, show (R.LNE_LN_STAT_FS_CAUSE l).addr / 0x10000 = 0x400F by simp only [R.LNE_LN_STAT_FS_CAUSE]; omega]
    decide
  · simp [R.LNE_LN_STAT_FS_CAUSE]

/-! ### A period becomes the current one -/

/-- The group and its registers as a period becomes the current one. -/
def State.entered (s : State) (g : Nat) (p : Period) : State :=
  let lmax := s.groupLead g
  let perHere : Bool := (s.group g).perAt.any (· + lmax ≤ p.start)
  let s := match p.perNew with | some v => s.activePeriod g v | none => s
  let s := s.upGroup g fun x => { x with
    running := true, loaded := false, anchors := x.anchors.filter (p.start ≤ ·)
    trg := (List.range 4).map fun n => s.get (R.PWM_PG_TRG g n)
    perAt := if perHere then none else x.perAt
    phaseAt := if s.get (R.PWM_PG_CTL_REF g) ≠ 1 && x.phaseAt.any (· + lmax ≤ p.start) then none else x.phaseAt }
  let s := (s.put (R.PWM_PG_PERIOD g) p.v).put (R.PWM_PG_PCOUNT g) p.cnt
  (s.set1 (R.PWM_PG_STAT_RUNNING g)).put (R.PWM_PG_STAT_ALIGNED g) (b2n p.grid)

theorem State.enterPeriod_along {s : State} {g : Nat} {p : Period} (hg : g < 8) : (s.entered g p).Along g (s.enterPeriod g p) :=
  .buildAhead hg (.muteEnd hg (.foldl (((State.Along.refl ..).showFinds hg hg).trgRange hg hg) fun _ _ hx => hx.upChan))

/-- The active PERIOD a period brings with it. -/
theorem State.perNew_same {s : State} {g : Nat} {p : Period} :
    (match p.perNew with | some v => s.activePeriod g v | none => s).groups = s.groups ∧
    ∀ f : RF, (R.PWM_PG_PERIOD g).Off f ∧ (R.PWM_PG_INT_STAT_PERIOD_CLAMP g).Off f →
      (match p.perNew with | some v => s.activePeriod g v | none => s).get f = s.get f := by
  cases p.perNew with
  | none => exact ⟨rfl, fun _ _ => rfl⟩
  | some v => exact ⟨State.activePeriod_groups .., fun _ hf => State.get_activePeriod_off hf⟩

theorem State.entered_group {s : State} {g : Nat} {p : Period} (hg : g < 8) (hs : s.groups.length = 8) :
    ((s.entered g p).group g).running = true ∧ ((s.entered g p).group g).periods = (s.group g).periods ∧
    ((s.entered g p).group g).trg = (List.range 4).map fun n => s.get (R.PWM_PG_TRG g n) := by
  obtain ⟨hgr, hget⟩ := State.perNew_same (s := s) (g := g) (p := p)
  unfold State.entered
  extract_lets lmax perHere s1 s2 s3
  have e : s2.group g = _ := State.group_upGroup_same (s := s1) (by rw [hgr, hs]; exact hg) _
  change (s2.group g).running = true ∧ (s2.group g).periods = _ ∧ (s2.group g).trg = _
  rw [e]
  have hp : (s1.group g).periods = (s.group g).periods := congrArg PwmGroup.periods (State.group_congr hgr g)
  refine ⟨rfl, hp, List.map_congr_left fun n hn => hget _ ?_⟩
  have := List.mem_range.1 hn
  simp only [RF.Off, RF.apart, R.PWM_PG_TRG, R.PWM_PG_PERIOD, R.PWM_PG_INT_STAT_PERIOD_CLAMP]
  omega

theorem State.entered_shown (s : State) (g : Nat) (p : Period) :
    (s.entered g p).get (R.PWM_PG_STAT_RUNNING g) = 1 ∧ (s.entered g p).get (R.PWM_PG_PERIOD g) = p.v % 2 ^ 40 ∧
    (s.entered g p).get (R.PWM_PG_PCOUNT g) = p.cnt % 2 ^ 32 ∧ (s.entered g p).get (R.PWM_PG_STAT_ALIGNED g) = b2n p.grid := by
  unfold State.entered
  extract_lets lmax perHere s1 s2 s3
  refine ⟨?_, ?_, ?_, ?_⟩
  · rw [State.get_put_off (by simp only [RF.Off, RF.apart, R.PWM_PG_STAT_ALIGNED, R.PWM_PG_STAT_RUNNING]; omega)]
    exact State.get_set1_fits (by simp [RF.Fits, R.PWM_PG_STAT_RUNNING])
  · rw [State.get_put_off (by simp only [RF.Off, RF.apart, R.PWM_PG_STAT_ALIGNED, R.PWM_PG_PERIOD]; omega),
      State.get_set1_off (by simp only [RF.Off, RF.apart, R.PWM_PG_STAT_RUNNING, R.PWM_PG_PERIOD]; omega),
      State.get_put_off (by simp only [RF.Off, RF.apart, R.PWM_PG_PCOUNT, R.PWM_PG_PERIOD]; omega)]
    exact State.get_put_fits (by simp [RF.Fits, R.PWM_PG_PERIOD])
  · rw [State.get_put_off (by simp only [RF.Off, RF.apart, R.PWM_PG_STAT_ALIGNED, R.PWM_PG_PCOUNT]; omega),
      State.get_set1_off (by simp only [RF.Off, RF.apart, R.PWM_PG_STAT_RUNNING, R.PWM_PG_PCOUNT]; omega)]
    exact State.get_put_fits (by simp [RF.Fits, R.PWM_PG_PCOUNT])
  · rw [State.get_put_fits (by simp [RF.Fits, R.PWM_PG_STAT_ALIGNED])]
    cases p.grid <;> rfl

/-- No cause goes as a period becomes the current one. -/
theorem State.entered_raises {s : State} {g : Nat} {p : Period} (_hg : g < 8) : s.Raises (s.entered g p) := by
  refine .of_same fun l hl => ?_
  unfold State.entered
  extract_lets lmax perHere s1 s2 s3
  rw [State.get_put_off (by simp only [RF.Off, RF.apart, R.PWM_PG_STAT_ALIGNED, R.LNE_LN_STAT_FS_CAUSE]; omega),
    State.get_set1_off (by simp only [RF.Off, RF.apart, R.PWM_PG_STAT_RUNNING, R.LNE_LN_STAT_FS_CAUSE]; omega),
    State.get_put_off (by simp only [RF.Off, RF.apart, R.PWM_PG_PCOUNT, R.LNE_LN_STAT_FS_CAUSE]; omega),
    State.get_put_off (by simp only [RF.Off, RF.apart, R.PWM_PG_PERIOD, R.LNE_LN_STAT_FS_CAUSE]; omega)]
  exact State.perNew_same.2 _
    (by simp only [RF.Off, RF.apart, R.PWM_PG_PERIOD, R.PWM_PG_INT_STAT_PERIOD_CLAMP, R.LNE_LN_STAT_FS_CAUSE]; omega)

/-! ### PERIOD_START -/

theorem groupShown_mem (g : Nat) : R.PWM_PG_STAT_RUNNING g ∈ groupShown g ∧ R.PWM_PG_STAT_ALIGNED g ∈ groupShown g ∧
    R.PWM_PG_PERIOD g ∈ groupShown g ∧ R.PWM_PG_PCOUNT g ∈ groupShown g := by simp [groupShown]

theorem periodStart_first {t g : Nat} {s : State} {p : Period} (hs : s.groups.length = 8) (hg : g < 8)
    (hr : (s.group g).running = false) (hp : (s.group g).periods = [p]) (hd : p.start ≤ (s.at t).tb) :
    Does (.periodStart t g) s fun s' => (s'.group g).running = true ∧ s'.get (R.PWM_PG_STAT_RUNNING g) = 1 ∧
      s'.get (R.PWM_PG_PERIOD g) = p.v % 2 ^ 40 ∧ s'.get (R.PWM_PG_PCOUNT g) = p.cnt % 2 ^ 32 ∧
      s'.get (R.PWM_PG_STAT_ALIGNED g) = b2n p.grid ∧
      (s'.group g).trg = (List.range 4).map fun n => s.get (R.PWM_PG_TRG g n) := by
  have e : (s.at t).periodStart g = (s.at t).enterPeriod g p := by
    have hr' : ((s.at t).group g).running = false := hr
    have hp' : ((s.at t).group g).periods = [p] := hp
    unfold State.periodStart
    simp only [hr', hp', if_pos hd]
  refine .of_along (f := fun x => x.periodStart g) (o := (s.at t).entered g p) rfl hg hg (e ▸ State.enterPeriod_along hg)
    (State.entered_raises hg) fun s' h => ?_
  obtain ⟨hrun, -, htrg⟩ := State.entered_group (s := s.at t) (p := p) hg hs
  obtain ⟨erun, eper, ecnt, egrid⟩ := (s.at t).entered_shown g p
  obtain ⟨mrun, mgrid, mper, mcnt⟩ := groupShown_mem g
  exact ⟨(congrArg PwmGroup.running h.core :).trans hrun, (h.shown _ mrun).trans erun, (h.shown _ mper).trans eper,
    (h.shown _ mcnt).trans ecnt, (h.shown _ mgrid).trans egrid, (congrArg PwmGroup.trg h.core :).trans htrg⟩

/-- Shadow writes that cross change the group's queue and one of its flags alone. -/
theorem State.crossed_along {s : State} {g upto : Nat} (hg : g < 8) :
    (s.upGroup g fun x => { x with queue := x.queue.drop ((s.group g).queue.takeWhile fun c => c.load.isNone && c.at_ ≤ upto).length }).Along g
      (s.crossed g upto) :=
  .ite (.foldl (.refl ..) fun _ _ hx => hx.setAt hg (by simp only [RF.Aside, R.PWM_PG_INT_STAT_LATE_SHADOW]; omega)) (.refl ..)

theorem State.crossed_groups_length (s : State) (g upto : Nat) : (s.crossed g upto).groups.length = s.groups.length := by
  have h0 (f : PwmGroup → PwmGroup) : (s.upGroup g f).groups.length = s.groups.length := length_upd ..
  unfold State.crossed
  extract_lets here s1
  split
  · exact List.foldlRecOn (motive := fun x : State => x.groups.length = s.groups.length) here _ (h0 _) fun x hx c _ => by
      rw [State.setAt_groups, hx]
  · exact h0 _

theorem periodStart_next {t g : Nat} {s : State} {p q : Period} {rest : List Period} (hs : s.groups.length = 8) (hg : g < 8)
    (hr : (s.group g).running = true) (hp : (s.group g).periods = p :: q :: rest) (hd : q.start ≤ (s.at t).tb) :
    Does (.periodStart t g) s fun s' => (s'.group g).periods.head? = some q ∧ s'.get (R.PWM_PG_PERIOD g) = q.v % 2 ^ 40 ∧
      s'.get (R.PWM_PG_PCOUNT g) = q.cnt % 2 ^ 32 ∧ s'.get (R.PWM_PG_STAT_ALIGNED g) = b2n q.grid := by
  have hxr : (s.at t).Raises ((s.at t).crossed g (q.start - 1)) :=
    .trans (.of_same fun _ _ => rfl) (State.crossed_along hg).raises
  have hlen : ((s.at t).crossed g (q.start - 1)).groups.length = 8 := (State.crossed_groups_length ..).trans hs
  generalize hx : (s.at t).crossed g (q.start - 1) = x at hxr hlen
  have e : (s.at t).periodStart g = (x.upGroup g fun y => { y with periods := q :: rest }).enterPeriod g q := by
    have hr' : ((s.at t).group g).running = true := hr
    have hp' : ((s.at t).group g).periods = p :: q :: rest := hp
    unfold State.periodStart
    simp only [hr', hp', if_pos hd, hx]
  have ha : ((x.upGroup g fun y => { y with periods := q :: rest }).entered g q).Along g ((s.at t).periodStart g) :=
    e ▸ State.enterPeriod_along hg
  have hr : (s.at t).Raises ((x.upGroup g fun y => { y with periods := q :: rest }).entered g q) :=
    .trans (s := x.upGroup g fun y => { y with periods := q :: rest }) (hxr.trans (.of_same fun _ _ => rfl)) (State.entered_raises hg)
  refine .of_along (f := fun x => x.periodStart g) rfl hg hg ha hr fun s' h => ?_
  obtain ⟨-, hper, -⟩ := State.entered_group (s := x.upGroup g fun y => { y with periods := q :: rest }) (p := q) hg
    ((length_upd ..).trans hlen)
  obtain ⟨-, eper, ecnt, egrid⟩ := (x.upGroup g fun y => { y with periods := q :: rest }).entered_shown g q
  obtain ⟨-, mgrid, mper, mcnt⟩ := groupShown_mem g
  refine ⟨h.head ?_, (h.shown _ mper).trans eper, (h.shown _ mcnt).trans ecnt, (h.shown _ mgrid).trans egrid⟩
  rw [hper, State.group_upGroup_same (hlen ▸ hg)]
  rfl

/-! ### A group's periods end (R156) -/

/-- The effect of CTL.EN on the group itself: its periods gone, nothing of them waiting. -/
def PwmGroup.stopped (x : PwmGroup) : PwmGroup :=
  { x with periods := [], anchors := [], running := false, loaded := false, perAt := none, phaseAt := none, finds := [] }

theorem State.freshWaves_same (s : State) (g : Nat) : (s.freshWaves g).groups = s.groups ∧ (s.freshWaves g).regs = s.regs :=
  List.foldlRecOn (motive := fun x : State => x.groups = s.groups ∧ x.regs = s.regs) _ _ ⟨rfl, rfl⟩ fun _ hx _ _ => hx

theorem State.stopPeriods_group {s : State} {g : Nat} (hg : g < s.groups.length) :
    (s.stopPeriods g).group g = (s.group g).stopped := by
  unfold State.stopPeriods
  extract_lets s1 s2 s3
  have e1 : s1.groups = s.groups := by
    simp only [s1]
    split
    exacts [State.activePeriod_groups .., rfl]
  have e3 : s3.group g = s2.group g := State.group_congr (s2.freshWaves_same g).1 g
  change s3.group g = _
  rw [e3, State.group_upGroup_same (e1 ▸ hg), State.group_congr e1]
  rfl

theorem State.stopPeriods_groups_length (s : State) (g : Nat) : (s.stopPeriods g).groups.length = s.groups.length := by
  unfold State.stopPeriods
  extract_lets s1 s2 s3
  have e1 : s1.groups = s.groups := by
    simp only [s1]
    split
    exacts [State.activePeriod_groups .., rfl]
  have e2 : s2.groups.length = s1.groups.length := length_upd ..
  change s3.groups.length = _
  rw [(s2.freshWaves_same g).1, e2, e1]

theorem State.stopPeriods_shown (s : State) (g : Nat) :
    (s.stopPeriods g).get (R.PWM_PG_STAT_RUNNING g) = 0 ∧ (s.stopPeriods g).get (R.PWM_PG_STAT_ALIGNED g) = 0 := by
  unfold State.stopPeriods State.clr
  extract_lets s1 s2 s3
  refine ⟨?_, ?_⟩
  · rw [State.get_put_off (by simp only [RF.Off, RF.apart, R.PWM_PG_STAT_ALIGNED, R.PWM_PG_STAT_RUNNING]; omega),
      State.get_put_fits (by simp [RF.Fits, R.PWM_PG_STAT_RUNNING]), Nat.zero_mod]
  · rw [State.get_put_fits (by simp [RF.Fits, R.PWM_PG_STAT_ALIGNED]), Nat.zero_mod]

/-- Fields beside those a stop of the group's periods writes. -/
abbrev RF.BesideStop (g : Nat) (f : RF) : Prop :=
  (R.PWM_PG_STAT_RUNNING g).Off f ∧ (R.PWM_PG_STAT_ALIGNED g).Off f

theorem State.get_stopPeriods {s : State} {g : Nat} {f : RF} (hf : f.BesideStop g)
    (hp : (s.group g).perAt = none ∨ (R.PWM_PG_PERIOD g).Off f ∧ (R.PWM_PG_INT_STAT_PERIOD_CLAMP g).Off f) :
    (s.stopPeriods g).get f = s.get f := by
  obtain ⟨hrun, halign⟩ := hf
  unfold State.stopPeriods State.clr
  extract_lets s1 s2 s3
  have e3 : s3.get f = s2.get f := State.get_congr (s2.freshWaves_same g).2 f
  rw [State.get_put_off halign, State.get_put_off hrun, e3]
  change s1.get f = s.get f
  simp only [s1]
  rcases hp with hp | hp
  · rw [hp]; rfl
  · split
    exacts [State.get_activePeriod_off hp, rfl]

theorem State.stopPeriods_raises {s : State} {g : Nat} (_hg : g < 8) : s.Raises (s.stopPeriods g) :=
  .of_same fun l hl => State.get_stopPeriods
    (by simp only [RF.BesideStop, RF.Off, RF.apart, R.PWM_PG_STAT_RUNNING, R.PWM_PG_STAT_ALIGNED, R.LNE_LN_STAT_FS_CAUSE]; omega)
    (.inr (by simp only [RF.Off, RF.apart, R.PWM_PG_PERIOD, R.PWM_PG_INT_STAT_PERIOD_CLAMP, R.LNE_LN_STAT_FS_CAUSE]; omega))

/-- With EN clear the group is blocked: the block only begins, if it has not. -/
theorem State.updBlock_disabled {s : State} {g : Nat} (hg : g < 8) (he : s.is (R.PWM_PG_CTL_EN g) = false) :
    s.Along g (s.updBlock g) := by
  unfold State.updBlock
  simp only [State.blocked, he, Bool.not_false, Bool.true_or, if_true]
  exact .ite (.refl ..) ((State.Along.refl ..).blockGroup hg hg)

/-- The group's EN is clear as its write arrives: its periods end. -/
theorem groupEnable_clear {t g e : Nat} {s : State} (hs : s.groups.length = 8) (hg : g < 8) (hq : (s.group g).enReq = some e)
    (hd : e ≤ (s.at t).tb) (he : s.is (R.PWM_PG_CTL_EN g) = false) :
    Does (.groupEnable t g) s fun s' => (s'.group g).enAt = none ∧ (s'.group g).periods = [] ∧
      s'.get (R.PWM_PG_STAT_RUNNING g) = 0 ∧ s'.get (R.PWM_PG_STAT_ALIGNED g) = 0 := by
  set x := (s.at t).upGroup g fun x => { x with enReq := none } with hx
  have hlen : x.groups.length = 8 := (length_upd ..).trans hs
  have ef : (s.at t).groupEnable g = ((x.stopPeriods g).upGroup g fun x => { x with enAt := none }).updBlock g := by
    have hq' : ((s.at t).group g).enReq = some e := hq
    have he' : x.is (R.PWM_PG_CTL_EN g) = false := he
    unfold State.groupEnable State.groupFollow
    simp only [hq', if_pos hd, ← hx, he', Bool.false_eq_true, if_false]
  have en : ((x.stopPeriods g).upGroup g fun x => { x with enAt := none }).is (R.PWM_PG_CTL_EN g) = false := by
    refine Eq.trans (congrArg (fun v : Nat => decide (v ≠ 0)) ?_) he
    exact State.get_stopPeriods (s := x)
      (by simp only [RF.BesideStop, RF.Off, RF.apart, R.PWM_PG_STAT_RUNNING, R.PWM_PG_STAT_ALIGNED, R.PWM_PG_CTL_EN]; omega)
      (.inr (by simp only [RF.Off, RF.apart, R.PWM_PG_PERIOD, R.PWM_PG_INT_STAT_PERIOD_CLAMP, R.PWM_PG_CTL_EN]; omega))
  refine .of_along (f := fun x => x.groupEnable g) (o := (x.stopPeriods g).upGroup g fun x => { x with enAt := none })
    rfl hg hg (ef ▸ State.updBlock_disabled hg en) (State.stopPeriods_raises (s := x) hg) fun s' h => ?_
  have eg : ((x.stopPeriods g).upGroup g fun x => { x with enAt := none }).group g = { (x.group g).stopped with enAt := none } := by
    rw [State.group_upGroup_same (by rw [State.stopPeriods_groups_length, hlen]; exact hg), State.stopPeriods_group (hlen ▸ hg)]
  obtain ⟨srun, salign⟩ := x.stopPeriods_shown g
  obtain ⟨mrun, malign, -, -⟩ := groupShown_mem g
  exact ⟨(congrArg PwmGroup.enAt h.core :).trans (congrArg PwmGroup.enAt eg), h.none (congrArg PwmGroup.periods eg),
    (h.shown _ mrun).trans srun, (h.shown _ malign).trans salign⟩

end Sys2Proof.Machine
end

section
/-!
The group enabled (R156): its first period starts at the first grid point a lead ahead, whatever its block then does.
-/

namespace Sys2Proof.Machine

/-! ### Periods built anew keep the first one's start -/

theorem State.group_lt {s : State} {g : Nat} {p : Period} (h : (s.group g).periods.head? = some p) : g < s.groups.length := by
  by_contra hg
  rw [State.group, List.getD_eq_default _ _ (Nat.le_of_not_lt hg)] at h
  exact nomatch h

/-- The period that follows at `b` starts at `b`. -/
theorem State.nextPeriod_start (s : State) (g : Nat) (gen : Gen) (b cnt : Nat) : (s.nextPeriod g gen b cnt).start = b := by
  unfold State.nextPeriod
  extract_lets x lmax net fired pv ph perDue phDue v here ph' k p p'
  have hp : p'.start = b := by
    change p.start = b
    simp only [p]
    split
    · rfl
    · split
      · split <;> rfl
      · rfl
  split <;> exact hp

/-- Where no period starts before the first, a cut leaves a first one with that start. -/
theorem State.cutPeriods_head {s : State} {g b : Nat} {p : Period} (hp : (s.group g).periods.head? = some p)
    (hmin : ∀ q ∈ (s.group g).periods, p.start ≤ q.start) :
    ∃ p', ((s.cutPeriods g b).group g).periods.head? = some p' ∧ p'.start = p.start := by
  obtain ⟨ps, hps⟩ := List.head?_eq_some_iff.1 hp
  have hg := State.group_lt hp
  unfold State.cutPeriods
  simp only [hps]
  rw [State.group_upGroup_same hg]
  by_cases hb : p.start < b
  · exact ⟨p, by simp [hb], rfl⟩
  · have hn : (p :: ps).filter (·.start < b) = [] := by
      rw [List.filter_eq_nil_iff]
      intro q hq
      have := hmin q (hps ▸ hq)
      simp only [decide_eq_true_eq]
      omega
    exact ⟨s.nextPeriod g p.gen p.start p.cnt, by simp [hn], s.nextPeriod_start ..⟩

theorem State.cutPeriods_core (s : State) (g b : Nat) :
    ((s.cutPeriods g b).group g).core = (s.group g).core ∧ (s.cutPeriods g b).regs = s.regs := by
  unfold State.cutPeriods
  extract_lets keep
  split
  · exact ⟨rfl, rfl⟩
  · refine ⟨?_, rfl⟩
    rw [State.group_upGroup]
    split <;> rfl

section
variable {s : State} {g t : Nat} (hg : g < 8)
include hg

/-- Behind the cut a group built anew lies along the pulse path. -/
theorem State.reshape_along : s.reshape g t = s ∨ (s.cutPeriods g (t + s.groupLead g)).Along g (s.reshape g t) := by
  unfold State.reshape
  split
  · exact .inl rfl
  · exact .inr (.buildAhead hg (.foldl (.refl ..) fun _ _ hx => hx.rebuildLane hg))

theorem State.reshape_core : ((s.reshape g t).group g).core = (s.group g).core ∧ s.Raises (s.reshape g t) := by
  rcases State.reshape_along (s := s) (t := t) hg with e | h
  · rw [e]; exact ⟨rfl, .of_same fun _ _ => rfl⟩
  · obtain ⟨hc, hr⟩ := s.cutPeriods_core g (t + s.groupLead g)
    exact ⟨h.core.trans hc, .trans (.of_same fun _ _ => State.get_congr hr _) h.raises⟩

theorem State.reshape_head {p : Period} (hp : (s.group g).periods.head? = some p)
    (hmin : ∀ q ∈ (s.group g).periods, p.start ≤ q.start) :
    ∃ p', ((s.reshape g t).group g).periods.head? = some p' ∧ p'.start = p.start := by
  rcases State.reshape_along (s := s) (t := t) hg with e | h
  · exact ⟨p, by rw [e]; exact hp, rfl⟩
  · obtain ⟨p', hp', hs⟩ := State.cutPeriods_head (b := t + s.groupLead g) hp hmin
    exact ⟨p', h.head hp', hs⟩

/-! ### The block follows its causes -/

/-- The block of a group ends along the pulse path, with the group built anew where it holds no action. -/
theorem State.unblockGroup_cases : s.Along g (s.unblockGroup g) ∨
    ∃ m t, s.Along g m ∧ s.unblockGroup g = m.reshape g t := by
  unfold State.unblockGroup
  extract_lets s1 s2
  have h1 : s.Along g s1 := ((State.Along.refl ..).clr hg (by simp only [RF.Aside, R.PWM_PG_STAT_BLOCKED]; omega)).clr hg
    (by simp only [RF.Aside, R.FMX_PG_STAT_BLOCK]; omega)
  have h2 : s.Along g s2 := h1.upGroup fun _ => ⟨rfl, rfl⟩
  split
  · exact .inr ⟨_, _, .foldl h2 fun _ _ hx => hx.upChan, rfl⟩
  · exact .inl h2

theorem State.updBlock_cases : s.Along g (s.updBlock g) ∨ ∃ m t, s.Along g m ∧ s.updBlock g = m.reshape g t := by
  unfold State.updBlock
  split
  · exact .inl (.ite (.refl ..) ((State.Along.refl ..).blockGroup hg hg))
  · split
    exacts [State.unblockGroup_cases hg, .inl (.refl ..)]

theorem State.updBlock_core : ((s.updBlock g).group g).core = (s.group g).core ∧ s.Raises (s.updBlock g) := by
  rcases State.updBlock_cases (s := s) hg with h | ⟨m, t, h, e⟩
  · exact ⟨h.core, h.raises⟩
  · obtain ⟨hc, hr⟩ := State.reshape_core (s := m) (t := t) hg
    exact e ▸ ⟨hc.trans h.core, h.raises.trans hr⟩

/-- On a grid the first period keeps its start, whatever the block does. -/
theorem State.updBlock_head {a : Int} {v : Nat} {k : Int} {p : Period} (hp : (s.group g).periods.head? = some p)
    (ho : (s.group g).OnGrid a v k) (hk : p.start = (gridPoint a v k).toNat) :
    ((s.updBlock g).group g).periods.head?.map (·.start) = some p.start := by
  rcases State.updBlock_cases (s := s) hg with h | ⟨m, t, h, e⟩
  · rw [h.head hp]; rfl
  · obtain ⟨p', hp', hs⟩ := State.reshape_head (t := t) hg (h.head hp) fun q hq =>
      hk ▸ ((h.grid a v k ho).periods q hq).start
    rw [e, hp', Option.map_some, hs]

/-! ### The first period -/

/-- Starting the periods with `p` puts it first and builds ahead from there. -/
theorem State.startPeriods_along {p : Period} (hs : g < s.groups.length) : ∃ o : State, o.Along g (s.startPeriods g p) ∧
    o.group g = { s.group g with periods := [p], running := false, finds := [] } ∧ o.regs = s.regs := by
  obtain ⟨hfg, hfr⟩ := s.freshWaves_same g
  refine ⟨_, .buildAhead hg (.addPeriod hg _ g p), ?_, hfr⟩
  rw [State.group_upGroup_same (by rw [State.upGroup, length_upd, hfg]; exact hs),
    State.group_upGroup_same (hfg ▸ hs), State.group_congr hfg]
  rfl

omit hg in
theorem gridPeriod_onGrid (a : Int) (v : Nat) (k : Int) (cnt : Nat) : (gridPeriod a v k cnt).OnGrid a v k :=
  ⟨Nat.le_refl _, rfl, rfl, rfl, Int.le_add_one (Int.le_refl k)⟩

omit hg in
theorem State.groupLead_congr {o n : State} (hr : ∀ f : RF, f.Carried → n.get f = o.get f) (g : Nat) :
    n.groupLead g = o.groupLead g := by
  rw [State.groupLead, State.groupLead, State.groupLanes_congr hr]
  refine List.foldl_ext _ _ _ fun m l hl => ?_
  have := List.mem_range.1 (List.mem_of_mem_filter hl)
  rw [State.lead, State.lead, hr (R.LNE_LN_LEAD l) (by simp only [RF.Carried, R.LNE_LN_LEAD]; omega)]

end

/-! ### GROUP_ENABLE with EN set (R156) -/

theorem PwmGroup.enables_of_core {x y : PwmGroup} (h : x.core = y.core) : x.enAt = y.enAt ∧ x.enReq = y.enReq :=
  ⟨(congrArg PwmGroup.enAt h :), (congrArg PwmGroup.enReq h :)⟩

/-- The group with its periods stopped, that follows EN from `e` on. -/
def State.enabling (s : State) (g e : Nat) : State := (s.stopPeriods g).upGroup g fun x => { x with enAt := some e }

section
variable {s : State} {g e : Nat} (hg : g < 8)
include hg

omit hg in
theorem State.enabling_group (hs : g < s.groups.length) : (s.enabling g e).group g = { (s.group g).stopped with enAt := some e } := by
  rw [State.enabling, State.group_upGroup_same (by rw [State.stopPeriods_groups_length]; exact hs), State.stopPeriods_group hs]

omit hg in
theorem State.get_enabling {f : RF} (hp : (s.group g).perAt = none) (hf : f.BesideStop g) : (s.enabling g e).get f = s.get f :=
  State.get_stopPeriods hf (.inl hp)

/-- With EN set and no instant fixed, the group follows from `e` on: with a grid for reference, from the first point a lead
ahead. -/
theorem State.groupFollow_set (he : s.is (R.PWM_PG_CTL_EN g) = true) (ha : (s.group g).enAt = none)
    (hp : (s.group g).perAt = none) :
    s.groupFollow g e = (if s.get (R.PWM_PG_CTL_REF g) = 1 then s.enabling g e
      else (s.enabling g e).startPeriods g (gridPeriod (s.get (R.PWM_PG_PHASE g)) (clampPeriod (s.get (R.PWM_PG_PERIOD g)))
        (gridFirst (s.get (R.PWM_PG_PHASE g)) (clampPeriod (s.get (R.PWM_PG_PERIOD g))) ((e + s.groupLead g : Nat) : Int)) 0)).updBlock g := by
  have href : (s.enabling g e).get (R.PWM_PG_CTL_REF g) = s.get (R.PWM_PG_CTL_REF g) := State.get_enabling hp
    (by simp only [RF.BesideStop, RF.Off, RF.apart, R.PWM_PG_STAT_RUNNING, R.PWM_PG_STAT_ALIGNED, R.PWM_PG_CTL_REF]; omega)
  have hph : (s.enabling g e).get (R.PWM_PG_PHASE g) = s.get (R.PWM_PG_PHASE g) := State.get_enabling hp
    (by simp only [RF.BesideStop, RF.Off, RF.apart, R.PWM_PG_STAT_RUNNING, R.PWM_PG_STAT_ALIGNED, R.PWM_PG_PHASE]; omega)
  have hper : (s.enabling g e).get (R.PWM_PG_PERIOD g) = s.get (R.PWM_PG_PERIOD g) := State.get_enabling hp
    (by simp only [RF.BesideStop, RF.Off, RF.apart, R.PWM_PG_STAT_RUNNING, R.PWM_PG_STAT_ALIGNED, R.PWM_PG_PERIOD]; omega)
  have hlead : (s.enabling g e).groupLead g = s.groupLead g := State.groupLead_congr (fun f hf => State.get_enabling hp (by
    simp only [RF.Carried, RF.BesideStop, RF.Off, RF.apart, R.PWM_PG_STAT_RUNNING, R.PWM_PG_STAT_ALIGNED] at hf ⊢; omega)) g
  unfold State.groupFollow
  rw [if_pos he, ha, ← href, ← hph, ← hper, ← hlead]
  rfl

theorem State.enabling_raises : s.Raises (s.enabling g e) := State.stopPeriods_raises hg

/-- The group enabled: the instant stands, and with a grid for reference the first period starts a lead ahead. -/
theorem State.groupFollow_starts (hs : g < s.groups.length) (he : s.is (R.PWM_PG_CTL_EN g) = true)
    (ha : (s.group g).enAt = none) (hp : (s.group g).perAt = none) :
    ((s.groupFollow g e).group g).enAt = some e ∧ ((s.groupFollow g e).group g).enReq = (s.group g).enReq ∧
    s.Raises (s.groupFollow g e) ∧
    (s.get (R.PWM_PG_CTL_REF g) ≠ 1 → ((s.groupFollow g e).group g).periods.head?.map (·.start) =
      some (gridPoint (s.get (R.PWM_PG_PHASE g)) (clampPeriod (s.get (R.PWM_PG_PERIOD g)))
        (gridFirst (s.get (R.PWM_PG_PHASE g)) (clampPeriod (s.get (R.PWM_PG_PERIOD g))) ((e + s.groupLead g : Nat) : Int))).toNat) := by
  have eg := State.enabling_group (e := e) hs
  have er : s.Raises (s.enabling g e) := State.enabling_raises hg
  rw [State.groupFollow_set hg he ha hp]
  split
  next href =>
    obtain ⟨hc, hr⟩ := State.updBlock_core (s := s.enabling g e) hg
    obtain ⟨hat, hreq⟩ := PwmGroup.enables_of_core hc
    exact ⟨hat.trans (by rw [eg]), hreq.trans (by rw [eg]; rfl), er.trans hr, fun hn => absurd href hn⟩
  next =>
    generalize (s.get (R.PWM_PG_PHASE g) : Int) = a
    generalize clampPeriod (s.get (R.PWM_PG_PERIOD g)) = v
    generalize gridFirst a v ((e + s.groupLead g : Nat) : Int) = k
    obtain ⟨o, ho, eo, hreg⟩ := State.startPeriods_along (s := s.enabling g e) (p := gridPeriod a v k 0) hg
      (by rw [State.enabling, State.upGroup, length_upd, State.stopPeriods_groups_length]; exact hs)
    obtain ⟨hc, hr⟩ := State.updBlock_core (s := (s.enabling g e).startPeriods g (gridPeriod a v k 0)) hg
    rw [eg] at eo
    have hor : (s.enabling g e).Raises o := .of_same fun _ _ => State.get_congr hreg _
    have hgrid : (o.group g).OnGrid a v k := by
      rw [eo]
      exact ⟨rfl, rfl, rfl, fun q hq => List.mem_singleton.1 hq ▸ gridPeriod_onGrid a v k 0⟩
    obtain ⟨hat, hreq⟩ := PwmGroup.enables_of_core (hc.trans ho.core)
    refine ⟨hat.trans (by rw [eo]), hreq.trans (by rw [eo]; rfl), ((er.trans hor).trans ho.raises).trans hr, fun _ => ?_⟩
    exact State.updBlock_head hg (ho.head (p := gridPeriod a v k 0) (by rw [eo]; rfl)) (ho.grid a v k hgrid) rfl

end

/-- The group's EN is set as its write arrives: the instant is fixed and the periods start. -/
theorem groupEnable_set {t g e : Nat} {s : State} (hs : s.groups.length = 8) (hg : g < 8) (hq : (s.group g).enReq = some e)
    (hd : e ≤ (s.at t).tb) (he : s.is (R.PWM_PG_CTL_EN g) = true) (ha : (s.group g).enAt = none) (hp : (s.group g).perAt = none) :
    Does (.groupEnable t g) s fun s' => (s'.group g).enAt = some e ∧ (s'.group g).enReq = none ∧
      (s.get (R.PWM_PG_CTL_REF g) ≠ 1 → (s'.group g).periods.head?.map (·.start) =
        some (gridPoint (s.get (R.PWM_PG_PHASE g)) (clampPeriod (s.get (R.PWM_PG_PERIOD g)))
          (gridFirst (s.get (R.PWM_PG_PHASE g)) (clampPeriod (s.get (R.PWM_PG_PERIOD g))) ((e + s.groupLead g : Nat) : Int))).toNat) := by
  have eg : ((s.at t).upGroup g fun x => { x with enReq := none }).group g = { s.group g with enReq := none } :=
    State.group_upGroup_same (s := s.at t) (hs ▸ hg : g < s.groups.length) _
  have ef : (s.at t).groupEnable g = ((s.at t).upGroup g fun x => { x with enReq := none }).groupFollow g e := by
    have hq' : ((s.at t).group g).enReq = some e := hq
    unfold State.groupEnable
    simp only [hq', if_pos hd]
  obtain ⟨hat, hreq, hr, hstart⟩ := State.groupFollow_starts (s := (s.at t).upGroup g fun x => { x with enReq := none }) (e := e) hg
    (by rw [State.upGroup, length_upd, State.at_groups, hs]; exact hg) he (by rw [eg]; exact ha) (by rw [eg]; exact hp)
  rw [← ef] at hat hreq hr hstart
  refine .of_along (f := fun x => x.groupEnable g) (o := (s.at t).groupEnable g) rfl hg hg (.refl ..)
    (.trans (.of_same fun _ _ => rfl) hr) fun s' h => ?_
  obtain ⟨hat', hreq'⟩ := PwmGroup.enables_of_core h.core
  refine ⟨hat'.trans hat, hreq'.trans (hreq.trans (by rw [eg])), fun hn => ?_⟩
  have hst := hstart hn
  obtain ⟨p, hp, hps⟩ := Option.map_eq_some_iff.1 hst
  rw [h.head hp, Option.map_some, hps]
  rfl

end Sys2Proof.Machine

open Sys2Proof Sys2Proof.Machine

/-- Settles O27: each clause is one of the commands above, at its instant. -/
theorem groupsLoadAndRunTheirPeriods : Obligations.GroupsLoadAndRunTheirPeriods := by
  intro t s hs _ now quiet eff arrive request
  refine ⟨fun ch v hch => ⟨shadowWrite_duty_on hs hch, shadowWrite_duty_off hch⟩, fun g v hg =>
    ⟨shadowWrite_period hs hg, loadallRequest_takes_shadows hs hg, gload_takes_shadows hs hg⟩,
    fun g at_ per chs f rest hg _ hq => ⟨fun hn => ?_, fun hd hp hr => groupLoad_due hs hg (hr ▸ hq) hp hd⟩,
    fun g at_ hg _ hq hd => groupLoad_shadow hs hg hq hd,
    fun g e hg hq => ⟨fun hn _ => groupEnable_early hg hq hn, fun hd he => groupEnable_clear hs hg hq hd he,
      fun hd he ha hp _ _ => groupEnable_set hs hg hq hd he ha hp⟩,
    fun g p hg hr hp => ⟨fun hn _ => periodStart_early hg hr hp hn, fun hd => periodStart_first hs hg hr hp hd⟩,
    fun g p q rest hg hr hp hd => periodStart_next hs hg hr hp hd,
    fun g n p rest hg hn hp hr _ => ⟨fun he hv hd => compareFire_due hg hn hp hs hr he hv hd,
      fun hc => compareFire_not hg hn hp hc⟩⟩
  obtain ⟨s', he, h⟩ := groupLoad_early hg hq hn
  exact ⟨s', he, fun hh => ⟨(h hh).2.1, (h hh).1, (h hh).2.2⟩⟩
end

section
/-!
Memory stays in its canonical form whatever a command does, whatever the numbers of units: a layer on memory alone.
-/

namespace Sys2Proof.Machine

variable {P : List Host.Cell → Prop} {s t : State}

/-- Memory has property `P`. -/
def State.Bytes (P : List Host.Cell → Prop) (s : State) : Prop := P s.mem

/-- The canonical form of memory. -/
def canonical (m : List Host.Cell) : Prop := Memory.wf m = true

/-! ### What leaves memory as it is, and what writes it -/

theorem State.Bytes.of_mem (h : s.Bytes P) (e : t.mem = s.mem) : t.Bytes P := by
  rw [State.Bytes, e]
  exact h

theorem State.Beside.refl (s : State) : s.Beside s := rfl

/-- What the pulse path does leaves memory as it is. -/
theorem State.Bytes.of_beside (h : s.Bytes P) (b : s.Beside t) : t.Bytes P := h.of_mem (congrArg State.mem b :)

theorem State.Bytes.ite {c : Prop} {_ : Decidable c} (h : s.Bytes P) (h' : t.Bytes P) : (if c then s else t).Bytes P := by
  split <;> assumption

theorem State.Bytes.foldl {α : Type} {f : State → α → State} {l : List α} (h : s.Bytes P)
    (hf : ∀ s a, s.Bytes P → (f s a).Bytes P) : (l.foldl f s).Bytes P :=
  List.foldlRecOn (motive := State.Bytes P) l f h fun _ hx a _ => hf _ a hx

theorem State.Bytes.ite_fst {β : Type} {p q : State × β} {c : Prop} {_ : Decidable c} (h : p.1.Bytes P) (h' : q.1.Bytes P) :
    (if c then p else q).1.Bytes P := by split <;> assumption

/-- The state a step answers beside something else. -/
theorem State.Bytes.of_fst {β : Type} {p : State × β} {b : β} (h : p.1.Bytes P) (e : p = (t, b)) : t.Bytes P := by
  subst e; exact h

theorem State.Bytes.foldl_fst {α β : Type} {f : State × β → α → State × β} {l : List α} {p : State × β} (h : p.1.Bytes P)
    (hf : ∀ p a, p.1.Bytes P → (f p a).1.Bytes P) : (l.foldl f p).1.Bytes P :=
  List.foldlRecOn (motive := fun p : State × β => p.1.Bytes P) l f h fun _ hx a _ => hf _ a hx

theorem State.Bytes.setByte {a : Nat} {b : Byte} (h : s.Bytes canonical) : (s.setByte a b).Bytes canonical :=
  State.wf_setByte a b h
theorem State.Bytes.writeBytes {a : Nat} {bs : List Byte} (h : s.Bytes canonical) : (s.writeBytes a bs).Bytes canonical :=
  State.wf_writeBytes bs a h
theorem State.Bytes.writeLe {a n v : Nat} (h : s.Bytes canonical) : (s.writeLe a n v).Bytes canonical :=
  State.wf_writeLe a n v h
theorem State.Bytes.fillZero {a n : Nat} (h : s.Bytes canonical) : (s.fillZero a n).Bytes canonical :=
  State.wf_fillZero a n h

/-! ### A register written -/

theorem State.Bytes.put {f : RF} {v : Nat} (h : s.Bytes P) : (s.put f v).Bytes P := h
theorem State.Bytes.set1 {f : RF} (h : s.Bytes P) : (s.set1 f).Bytes P := h
theorem State.Bytes.clr {f : RF} (h : s.Bytes P) : (s.clr f).Bytes P := h
theorem State.Bytes.orr {f : RF} {m : Nat} (h : s.Bytes P) : (s.orr f m).Bytes P := h
theorem State.Bytes.andn {f : RF} {m : Nat} (h : s.Bytes P) : (s.andn f m).Bytes P := h
theorem State.Bytes.bump {f : RF} {n : Nat} (h : s.Bytes P) : (s.bump f n).Bytes P := h

/-! ### What the pulse path does -/

theorem State.Bytes.traceTrigger {n : Nat} (h : s.Bytes P) : (s.traceTrigger n).Bytes P :=
  h.of_beside (.traceTrigger (.refl s))
theorem State.Bytes.showMute {l : Nat} (h : s.Bytes P) : (s.showMute l).Bytes P := h.of_beside (.showMute (.refl s))
theorem State.Bytes.mute {l why : Nat} (h : s.Bytes P) : (s.mute l why).Bytes P := h.of_beside (.mute (.refl s))
theorem State.Bytes.addPeriod {g : Nat} {p : Period} (h : s.Bytes P) : (s.addPeriod g p).Bytes P :=
  h.of_beside (.addPeriod (.refl s))
theorem State.Bytes.buildAhead {g n : Nat} (h : s.Bytes P) : (State.buildAhead g n s).Bytes P :=
  h.of_beside (.buildAhead (.refl s))
theorem State.Bytes.rebuildLane {g l x : Nat} {geo : Bool} (h : s.Bytes P) : (s.rebuildLane g l x geo).Bytes P :=
  h.of_beside (.rebuildLane (.refl s))
theorem State.Bytes.cutPeriods {g b : Nat} (h : s.Bytes P) : (s.cutPeriods g b).Bytes P :=
  h.of_beside (.cutPeriods (.refl s))
theorem State.Bytes.reshape {g t : Nat} (h : s.Bytes P) : (s.reshape g t).Bytes P := h.of_beside (.reshape (.refl s))
theorem State.Bytes.lineRun {l : Nat} (h : s.Bytes P) : (s.lineRun l).Bytes P := h.of_beside (.lineRun (.refl s))
theorem State.Bytes.groupSoftoff {g a : Nat} (h : s.Bytes P) : (s.groupSoftoff g a).Bytes P :=
  h.of_beside (.groupSoftoff (.refl s))
theorem State.Bytes.holdGroup {g : Nat} (h : s.Bytes P) : (s.holdGroup g).Bytes P := h.of_beside (.holdGroup (.refl s))
theorem State.Bytes.showGroup {g : Nat} (h : s.Bytes P) : (s.showGroup g).Bytes P := h.of_beside (.showGroup (.refl s))
theorem State.Bytes.takeAction {g src a : Nat} (h : s.Bytes P) : (s.takeAction g src a).Bytes P :=
  h.of_beside (.takeAction (.refl s))
theorem State.Bytes.actOn {g src : Nat} (h : s.Bytes P) : (s.actOn g src).Bytes P := h.of_beside (.actOn (.refl s))
theorem State.Bytes.fsAssert {src : Nat} (h : s.Bytes P) : (s.fsAssert src).Bytes P := h.of_beside (.fsAssert (.refl s))
theorem State.Bytes.releaseGroup {g : Nat} {frozen : Bool} (h : s.Bytes P) : (s.releaseGroup g frozen).Bytes P :=
  h.of_beside (.releaseGroup (.refl s))
theorem State.Bytes.dropHolds {g : Nat} {keep : Hold → Bool} (h : s.Bytes P) : (s.dropHolds g keep).Bytes P :=
  h.of_beside (.dropHolds (.refl s))
theorem State.Bytes.fsRelease {src : Nat} (h : s.Bytes P) : (s.fsRelease src).Bytes P :=
  h.of_beside (.fsRelease (.refl s))
theorem State.Bytes.fsSet {src : Nat} {on : Bool} (h : s.Bytes P) : (s.fsSet src on).Bytes P :=
  h.of_beside (.fsSet (.refl s))
theorem State.Bytes.laneSource {l : Nat} (h : s.Bytes P) : (s.laneSource l).Bytes P := h.of_beside (.laneSource (.refl s))
theorem State.Bytes.twSend {m : TwMsg} (h : s.Bytes P) : (s.twSend m).Bytes P := h.of_beside (.twSend (.refl s))
theorem State.Bytes.healthPush (h : s.Bytes P) : s.healthPush.Bytes P := h.of_beside (.healthPush (.refl s))
theorem State.Bytes.showCarry (h : s.Bytes P) : s.showCarry.Bytes P := h.of_beside (.showCarry (.refl s))

/-! ### A unit updated -/

theorem State.Bytes.upChan {k : Nat} {f : Chan → Chan} (h : s.Bytes P) : (s.upChan k f).Bytes P := h
theorem State.Bytes.upGroup {g : Nat} {f : PwmGroup → PwmGroup} (h : s.Bytes P) : (s.upGroup g f).Bytes P := h
theorem State.Bytes.upLane {l : Nat} {f : Lane → Lane} (h : s.Bytes P) : (s.upLane l f).Bytes P := h
theorem State.Bytes.upEng {n : Nat} {f : Engine → Engine} (h : s.Bytes P) : (s.upEng n f).Bytes P := h
theorem State.Bytes.upTwn {f : Twin → Twin} (h : s.Bytes P) : (s.upTwn f).Bytes P := h
theorem State.Bytes.bumpWrap {f : RF} {n : Nat} (h : s.Bytes P) : (s.bumpWrap f n).Bytes P := h
theorem State.Bytes.upAdc {a : Nat} {f : AdcGroup → AdcGroup} (h : s.Bytes P) : (s.upAdc a f).Bytes P := h
theorem State.Bytes.upChain {i : Nat} {f : Chain → Chain} (h : s.Bytes P) : (s.upChain i f).Bytes P := h
theorem State.Bytes.upTrk {p : Nat} {f : Tracker → Tracker} (h : s.Bytes P) : (s.upTrk p f).Bytes P := h
theorem State.Bytes.upTrig {k : Nat} {f : Trigger → Trigger} (h : s.Bytes P) : (s.upTrig k f).Bytes P := h
theorem State.Bytes.upDom {d : Nat} {f : Domain → Domain} (h : s.Bytes P) : (s.upDom d f).Bytes P := h
theorem State.Bytes.upPdelay {p : Nat} {f : Pdelay → Pdelay} (h : s.Bytes P) : (s.upPdelay p f).Bytes P := h
theorem State.Bytes.upNet {f : Net → Net} (h : s.Bytes P) : (s.upNet f).Bytes P := h
theorem State.Bytes.upIsle {f : Island → Island} (h : s.Bytes P) : (s.upIsle f).Bytes P := h
theorem State.Bytes.upHlt {f : HltState → HltState} (h : s.Bytes P) : (s.upHlt f).Bytes P := h
theorem State.Bytes.upPwr {f : Power → Power} (h : s.Bytes P) : (s.upPwr f).Bytes P := h

/-! ### One field replaced -/

theorem State.Bytes.with_regs {x : List (Nat × Word)} (h : s.Bytes P) : ({ s with regs := x } : State).Bytes P := h
theorem State.Bytes.with_resp {x : Resp} (h : s.Bytes P) : ({ s with resp := x } : State).Bytes P := h
theorem State.Bytes.with_holding {x : List Holding} (h : s.Bytes P) : ({ s with holding := x } : State).Bytes P := h
theorem State.Bytes.with_drawn {x : Nat} (h : s.Bytes P) : ({ s with drawn := x } : State).Bytes P := h
theorem State.Bytes.with_rows {x : List RowErr} (h : s.Bytes P) : ({ s with rows := x } : State).Bytes P := h
theorem State.Bytes.with_twn {x : Twin} (h : s.Bytes P) : ({ s with twn := x } : State).Bytes P := h
theorem State.Bytes.with_mld {x : Loader} (h : s.Bytes P) : ({ s with mld := x } : State).Bytes P := h
theorem State.Bytes.with_scr {x : Screen} (h : s.Bytes P) : ({ s with scr := x } : State).Bytes P := h
theorem State.Bytes.with_move {x : Option Move} (h : s.Bytes P) : ({ s with move := x } : State).Bytes P := h
theorem State.Bytes.with_quad {x : Quad} (h : s.Bytes P) : ({ s with quad := x } : State).Bytes P := h
theorem State.Bytes.with_mst {x : MemState} (h : s.Bytes P) : ({ s with mst := x } : State).Bytes P := h
theorem State.Bytes.with_pins {x : Pins} (h : s.Bytes P) : ({ s with pins := x } : State).Bytes P := h
theorem State.Bytes.with_adcs {x : List AdcGroup} (h : s.Bytes P) : ({ s with adcs := x } : State).Bytes P := h
theorem State.Bytes.with_fltPins {x : List FltPin} (h : s.Bytes P) : ({ s with fltPins := x } : State).Bytes P := h
theorem State.Bytes.with_ldg {x : Ledger} (h : s.Bytes P) : ({ s with ldg := x } : State).Bytes P := h
theorem State.Bytes.with_clk {x : Clock} (h : s.Bytes P) : ({ s with clk := x } : State).Bytes P := h
theorem State.Bytes.with_pwr {x : Power} (h : s.Bytes P) : ({ s with pwr := x } : State).Bytes P := h

/-! ### Machine/Ops -/

theorem State.Bytes.setWord {addr v : Nat} (h : s.Bytes P) : (s.setWord addr v).Bytes P := h.with_regs
theorem State.Bytes.setAt {f : RF} {x : Nat} (h : s.Bytes P) : (s.setAt f x).Bytes P := .ite h.set1 h.put
theorem State.Bytes.opsecNow (h : s.Bytes P) : s.opsecNow.Bytes P := .ite h h.with_pwr
theorem State.Bytes.okResp (h : s.Bytes P) : s.okResp.Bytes P := h.with_resp
theorem State.Bytes.errResp (h : s.Bytes P) : s.errResp.Bytes P := h.with_resp
theorem State.Bytes.dataResp {v : Nat} (h : s.Bytes P) : (s.dataResp v).Bytes P := h.with_resp

/-! ### Machine/Own -/

theorem State.Bytes.setQuiesced {sheet : Nat} {v : Bool} (h : s.Bytes P) : (s.setQuiesced sheet v).Bytes P :=
  .ite h h.put.set1
theorem State.Bytes.bankViol {code addr : Nat} {write : Bool} (h : s.Bytes P) : (s.bankViol code addr write).Bytes P :=
  h.put.put.put.bump.set1

/-! ### Machine/Lanes -/

theorem State.Bytes.unmute {l why : Nat} (h : s.Bytes P) : (s.unmute l why).Bytes P := h.upLane.showMute

/-! ### Machine/Waves -/

theorem State.Bytes.showFinds {g : Nat} (h : s.Bytes P) : (s.showFinds g).Bytes P := by
  unfold State.showFinds
  refine .foldl ?_ fun _ _ h0 => ?_
  · exact h.upGroup
  · split
    exacts [h0.setAt, h0.setAt, h0.bump.setAt]

/-! ### Machine/LaneSend -/

theorem State.Bytes.queueCmd {l : Nat} {c : LaneCmd} (h : s.Bytes P) : (s.queueCmd l c).Bytes P :=
  .ite h h.lineRun.upLane.lineRun

/-! ### Machine/FaultMatrix -/

theorem State.Bytes.judgeGroup {g : Nat} (h : s.Bytes P) : (s.judgeGroup g).Bytes P := by
  unfold State.judgeGroup
  refine .foldl ?_ fun _ _ h0 => ?_
  · exact h
  · split
    exacts [.ite h0.actOn h0, h0.actOn]
theorem State.Bytes.blockGroup {g : Nat} (h : s.Bytes P) : (s.blockGroup g).Bytes P :=
  .holdGroup (.ite h.set1.set1.upGroup h.set1.set1.upGroup.groupSoftoff)
theorem State.Bytes.fmxClear {g : Nat} (h : s.Bytes P) : (s.fmxClear g).Bytes P := .ite h.set1 h.dropHolds.set1
theorem State.Bytes.unblockGroup {g : Nat} (h : s.Bytes P) : (s.unblockGroup g).Bytes P :=
  .ite h.clr.clr.upGroup.releaseGroup h.clr.clr.upGroup
theorem State.Bytes.updBlock {g : Nat} (h : s.Bytes P) : (s.updBlock g).Bytes P :=
  .ite (.ite h h.blockGroup) (.ite h.unblockGroup h)
theorem State.Bytes.partnerGone {g : Nat} (h : s.Bytes P) : (s.partnerGone g).Bytes P := by
  unfold State.partnerGone
  extract_lets _ s1 s2 _ s3
  have h2 : s2.Bytes P := .clr (.foldl h fun _ _ hx => hx.unmute)
  have h3 : s3.Bytes P := h2.with_twn
  exact .ite h (.foldl h3 fun _ _ hx => hx.takeAction)
theorem State.Bytes.fltJudge {k : Nat} (h : s.Bytes P) : (s.fltJudge k).Bytes P := by
  have hp : (if s.fltPulse k (s.fltPins.getD k {}) then s.fsAssert k else s).Bytes P := .ite h.fsAssert h
  exact .ite h.fsRelease (.ite hp (.fsSet hp.with_fltPins))

/-! ### Machine/Ledger -/

theorem State.Bytes.ldgCount (h : s.Bytes P) : s.ldgCount.Bytes P := h.put
theorem State.Bytes.ldgRefuse {ring : Nat} (h : s.Bytes P) : (s.ldgRefuse ring).Bytes P := h.bump.set1.with_ldg
theorem State.Bytes.ldgQueue {ring typ sev block unit : Nat} {payload : List Byte} (h : s.Bytes P) :
    (s.ldgQueue ring typ sev block unit payload).Bytes P := by
  unfold State.ldgQueue
  extract_lets pos r
  refine .ldgCount (s := { s with ldg := _ }) ?_
  exact h.with_ldg
theorem State.Bytes.ldgDropped (h : s.Bytes P) : s.ldgDropped.Bytes P := .ite h (.ldgQueue h)
theorem State.Bytes.ldgCleared (h : s.Bytes P) : s.ldgCleared.Bytes P := .foldl h (fun _ _ hx => .ite hx (.ldgQueue hx))
theorem State.Bytes.ldgOwn (h : s.Bytes P) : s.ldgOwn.Bytes P := h.ldgCleared.ldgDropped
theorem State.Bytes.ldgPost {ring typ sev block unit : Nat} {payload : List Byte} (h : s.Bytes P) :
    (s.ldgPost ring typ sev block unit payload).Bytes P := .ite h.ldgQueue h.ldgRefuse.ldgDropped
theorem State.Bytes.ldgPostFree {ring block unit : Nat} (h : s.Bytes P) : (s.ldgPostFree ring block unit).Bytes P :=
  h.with_drawn.ldgPost
theorem State.Bytes.ldgPostType {ring typ block unit : Nat} (h : s.Bytes P) :
    (s.ldgPostType ring typ block unit).Bytes P :=
  h.with_drawn.ldgPost
theorem State.Bytes.hltReason {code : Nat} (h : s.Bytes P) : (s.hltReason code).Bytes P :=
  .ite h (.ldgPostType (.set1 (.ite h.orr.put h.orr)))
theorem State.Bytes.ldgHead {ring : Nat} (h : s.Bytes P) : (s.ldgHead ring).Bytes P := .ite h h.put.put
theorem State.Bytes.ldgToReserve {r : LdgRec} {rest : List LdgRec} {ok : Bool} (h : s.Bytes P) :
    (s.ldgToReserve r rest ok).Bytes P := by
  unfold State.ldgToReserve
  extract_lets _ _ s1 _ s2
  have h1 : s1.Bytes P := h.with_ldg
  have h2 : s2.Bytes P := h.with_ldg
  exact .ite h1.ldgCount.ldgOwn (.ite h.with_ldg h2.ldgCount.set1.set1)
theorem State.Bytes.ldgProgram {ok : Bool} (h : s.Bytes canonical) : (s.ldgProgram ok).Bytes canonical := by
  unfold State.ldgProgram
  split
  · exact h
  · refine .ite h (.ite h.ldgToReserve (.ite ?_ ?_))
    · exact .ldgOwn (.ldgCount (.ldgHead h.writeBytes.with_ldg))
    · extract_lets torn s1 _ s2 s3 _ _ _ _ _ s4
      have ht : torn.Bytes canonical := h.writeBytes
      clear_value torn
      have h1 : s1.Bytes canonical := ht.with_drawn
      have h3 : s3.Bytes canonical := h1.set1.set1.put.set1
      have h4 : s4.Bytes canonical := h3
      exact .ite h1.with_ldg h4.ldgCount.hltReason
theorem State.Bytes.setCursor {p pos : Nat} (h : s.Bytes P) : (s.setCursor p pos).Bytes P := .ite h h.put.put
theorem State.Bytes.fillWindow {p : Nat} {bs : List Byte} (h : s.Bytes P) : (s.fillWindow p bs).Bytes P :=
  .foldl h (fun _ _ hx => hx.put)
theorem State.Bytes.cursorCmd {p pos : Nat} (h : s.Bytes P) : (s.cursorCmd p pos).Bytes P := h.setCursor.set1
theorem State.Bytes.ldgGo (h : s.Bytes P) : s.ldgGo.Bytes P := .ite h.ldgRefuse.ldgDropped h.ldgPost
theorem State.Bytes.ldgClearRings {rings : Nat} (h : s.Bytes P) : (s.ldgClearRings rings).Bytes P :=
  .foldl h (fun _ _ hx => .ite (.set1 (.ldgCleared (.with_ldg hx))) hx)
theorem State.Bytes.ldgClrWrite {v : Nat} (h : s.Bytes P) : (s.ldgClrWrite v).Bytes P :=
  .ite h.errResp (.okResp (.ite h.put.set1 h.put.ldgClearRings))
theorem State.Bytes.ldgEraseDone {ok : Bool} (h : s.Bytes canonical) : (s.ldgEraseDone ok).Bytes canonical := by
  refine .ite h (.foldl (.ite (.clr (.clr ?erased)) ?erased) fun _ _ hx => hx.put.put.clr.set1.fillWindow)
  exact .set1 (.clr (.foldl h.fillZero.with_ldg fun _ _ hx => hx.ldgHead))

/-! ### Machine/Link -/

theorem State.Bytes.linkSeq {lseq : Nat} (h : s.Bytes P) : (s.linkSeq lseq).1.Bytes P := by
  unfold State.linkSeq; dsimp only
  split
  · exact h.upTwn
  · exact .ite_fst h.upTwn (.foldl h.upTwn fun _ _ hx => hx.twSend)
theorem State.Bytes.twinFrame {ok whole : Bool} {lseq : Nat} {f : State → State} (h : s.Bytes P)
    (hf : ∀ s : State, s.Bytes P → (f s).Bytes P) : (s.twinFrame ok lseq f whole).Bytes P :=
  .ite h (.ite h.bump (.ite (hf _ h.linkSeq) h.linkSeq))

/-! ### Machine/Recipe -/

theorem State.Bytes.ceSet {n off v : Nat} (h : s.Bytes canonical) : (s.ceSet n off v).Bytes canonical := h.writeLe
theorem State.Bytes.stSet {n i v : Nat} (h : s.Bytes canonical) : (s.stSet n i v).Bytes canonical := h.ceSet

/-! ### Machine/TwinCore -/

theorem State.Bytes.showTimeOk (h : s.Bytes P) : s.showTimeOk.Bytes P := .ite h h.put.set1
theorem State.Bytes.showLive {n : Nat} (h : s.Bytes P) : (s.showLive n).Bytes P := .ite h.put h.upEng.set1.clr
theorem State.Bytes.showAllLive (h : s.Bytes P) : s.showAllLive.Bytes P := .foldl h (fun _ _ hx => hx.showLive)
theorem State.Bytes.engFault {n : Nat} {f : RF} (h : s.Bytes P) : (s.engFault n f).Bytes P :=
  h.set1.set1.showLive.fsAssert.hltReason
theorem State.Bytes.eccUe {addr : Nat} (h : s.Bytes P) : (s.eccUe addr).Bytes P := by
  unfold State.eccUe
  refine .hltReason ?_
  split
  · split
    exacts [.ite h.bump.put.set1.with_twn h.bump.put.set1, h.bump.put.set1]
  · exact h.bump.put.set1
theorem State.Bytes.eccCe {addr : Nat} (h : s.Bytes P) : (s.eccCe addr).Bytes P := h.bump.put.set1
theorem State.Bytes.noteRow {r : RowErr} (h : s.Bytes P) : (s.noteRow r).Bytes P := h.with_rows
theorem State.Bytes.meetRows {p : Nat → Bool} {l : List RowErr} (h : s.Bytes P) : (s.meetRows p l).1.Bytes P :=
  .foldl (.foldl h fun _ _ hx => hx.noteRow) fun _ _ hx => .ite hx.eccUe hx.eccCe
theorem State.Bytes.setTwState {v : Nat} (h : s.Bytes P) : (s.setTwState v).Bytes P :=
  .ite h h.put.set1.showAllLive.healthPush
theorem State.Bytes.muteAll (h : s.Bytes P) : s.muteAll.Bytes P := .foldl h (fun _ _ hx => hx.mute)
theorem State.Bytes.unmuteAll (h : s.Bytes P) : s.unmuteAll.Bytes P := .foldl h (fun _ _ hx => hx.unmute.unmute)
theorem State.Bytes.refreshPaired (h : s.Bytes P) : s.refreshPaired.Bytes P := by
  unfold State.refreshPaired
  split
  exacts [h.put, h]
theorem State.Bytes.partnerStops (h : s.Bytes P) : s.partnerStops.Bytes P := by
  unfold State.partnerStops
  refine .foldl ?_ fun _ _ h0 => ?_
  · exact .clr (.foldl h.clr (fun _ _ hy => hy.partnerGone))
  · refine .ite ?_ ?_
    · split
      exacts [.updBlock (.foldl h0 (fun _ _ h3 => h3.unmute)), h0]
    · exact h0
theorem State.Bytes.stopRuns (h : s.Bytes P) : s.stopRuns.Bytes P := .foldl h (fun _ _ hx => .ite hx hx.upEng.clr)
theorem State.Bytes.goJoining (h : s.Bytes P) : s.goJoining.Bytes P := by
  unfold State.goJoining
  extract_lets s1 _ s2
  have h1 : s1.Bytes P := h.stopRuns.fsRelease.muteAll.clr.clr.showTimeOk
  have h2 : s2.Bytes P := h1.with_twn
  exact h2.setTwState.showCarry
theorem State.Bytes.ownTicks (h : s.Bytes P) : s.ownTicks.Bytes P := .foldl h (fun _ _ hx => hx.upEng)
theorem State.Bytes.goDegraded (h : s.Bytes P) : s.goDegraded.Bytes P := by
  unfold State.goDegraded
  extract_lets s1 _ s2
  have h1 : s1.Bytes P := h.ownTicks.set1.clr.showTimeOk.unmuteAll
  have h2 : s2.Bytes P := h1.with_twn
  exact h2.setTwState.partnerStops.fsAssert.showCarry
theorem State.Bytes.divLose {n : Nat} (h : s.Bytes P) : (s.divLose n).Bytes P :=
  .with_twn h.fsAssert.bump.set1.ldgPostFree.goJoining
theorem State.Bytes.divWin (h : s.Bytes P) : s.divWin.Bytes P := h.bump.set1.goDegraded
theorem State.Bytes.diverge {n num idx : Nat} (h : s.Bytes P) : (s.diverge n num idx).Bytes P := by
  unfold State.diverge
  extract_lets s1 _ s2
  have h2 : s2.Bytes P := h.put.put.clr.with_twn
  clear_value s2
  exact .ite (.ite h2.twSend.divLose h2.twSend.divWin) (.ite h2 h2.with_twn)
theorem State.Bytes.compareChk {mine : Chk} {crc : Nat} (h : s.Bytes P) : (s.compareChk mine crc).Bytes P := by
  unfold State.compareChk
  extract_lets s1 s2
  have h1 : s1.Bytes P := .ite h.put h
  have h2 : s2.Bytes P := .ite h1.bump h1
  exact .ite h1.diverge (.ite h2.with_twn h1)
theorem State.Bytes.checkpoint {n : Nat} {fin : optParam Bool false} (h : s.Bytes P) : (s.checkpoint n fin).Bytes P := by
  unfold State.checkpoint
  split
  · exact h
  · refine .ite h ?_
    refine .ite h.upEng.twSend ?_
    split
    · exact .compareChk (.with_twn h.upEng.twSend)
    · exact .with_twn h.upEng.twSend

/-! ### Machine/Pwm -/

theorem State.Bytes.crossPut {g : Nat} {load : Option (Nat × List (Nat × Nat))} (h : s.Bytes P) :
    (s.crossPut g load).Bytes P :=
  h.upGroup
theorem State.Bytes.crossed {g upto : Nat} (h : s.Bytes P) : (s.crossed g upto).Bytes P :=
  .ite (.foldl h.upGroup (fun _ _ hx => hx.setAt)) h.upGroup
theorem State.Bytes.upToDate (h : s.Bytes P) : s.upToDate.Bytes P :=
  .foldl (.foldl h (fun _ _ hx => hx.crossed.showFinds)) (fun _ _ hx => hx.lineRun)
theorem State.Bytes.freshWaves {g : Nat} (h : s.Bytes P) : (s.freshWaves g).Bytes P := .foldl h (fun _ _ hx => hx.upChan)
theorem State.Bytes.startPeriods {g : Nat} {p : Period} (h : s.Bytes P) : (s.startPeriods g p).Bytes P :=
  h.freshWaves.upGroup.addPeriod.buildAhead
theorem State.Bytes.activePeriod {g v : Nat} (h : s.Bytes P) : (s.activePeriod g v).Bytes P := .put (.ite h.set1 h)
theorem State.Bytes.stopPeriods {g : Nat} (h : s.Bytes P) : (s.stopPeriods g).Bytes P :=
  .clr (.clr (.freshWaves (.upGroup (.ite h.activePeriod h))))
theorem State.Bytes.settleLanes (h : s.Bytes P) : s.settleLanes.Bytes P := .foldl h (fun _ _ hx => hx.laneSource)
theorem State.Bytes.groupFollow {g e : Nat} (h : s.Bytes P) : (s.groupFollow g e).Bytes P := by
  unfold State.groupFollow
  extract_lets s1 _ _ s2
  have h1 : s1.Bytes P := h.stopPeriods.upGroup
  have h2 : s2.Bytes P := .ite h1 h1.startPeriods
  exact .ite (.ite h.updBlock h2.updBlock) h.stopPeriods.upGroup.updBlock
theorem State.Bytes.requestLoad {g : Nat} (h : s.Bytes P) : (s.requestLoad g).Bytes P := h.crossPut.set1.set1
theorem State.Bytes.gload {mask : Nat} (h : s.Bytes P) : (s.gload mask).Bytes P :=
  .foldl h (fun _ _ hx => .ite hx.requestLoad hx)
theorem State.Bytes.shadowDuty {ch v : Nat} (h : s.Bytes P) : (s.shadowDuty ch v).Bytes P := .ite h.put.crossPut h.put
theorem State.Bytes.shadowPeriod {g v : Nat} (h : s.Bytes P) : (s.shadowPeriod g v).Bytes P := h.put.crossPut
theorem State.Bytes.phaseWrite {g old : Nat} (h : s.Bytes P) : (s.phaseWrite g old).Bytes P := by
  unfold State.phaseWrite
  refine .ite h ?_
  dsimp only
  split
  exacts [.buildAhead (.foldl h.upGroup.cutPeriods (fun _ _ hz => hz.rebuildLane)), h.upGroup]
theorem State.Bytes.groupControl {g old v : Nat} (h : s.Bytes P) : (s.groupControl g old v).Bytes P :=
  .ite (.upGroup (.ite h.upGroup h)) (.reshape (.ite h.upGroup h))

/-! ### Machine/Tracker -/

theorem State.Bytes.trkValid {p : Nat} (h : s.Bytes P) : (s.trkValid p).Bytes P := .ite h h.put.set1
theorem State.Bytes.trkStop {p hold : Nat} (h : s.Bytes P) : (s.trkStop p hold).Bytes P := h.clr.clr.clr.upTrk.trkValid
theorem State.Bytes.trkDue {p : Nat} {t : Int} {a b : Nat} (h : s.Bytes P) : (s.trkDue p t a b).Bytes P := h.upTrk
theorem State.Bytes.trkConfig {p : Nat} (h : s.Bytes P) : (s.trkConfig p).Bytes P := h.put.upTrk
theorem State.Bytes.quadConfig (h : s.Bytes P) : s.quadConfig.Bytes P := h.put.with_quad

/-! ### Machine/Engine -/

theorem State.Bytes.stPut {n : Nat} {i : Inst} {k v : Nat} (h : s.Bytes canonical) :
    (s.stPut n i k v).Bytes canonical := h.stSet
theorem State.Bytes.stKeep {n k v : Nat} {i : Inst} (h : s.Bytes canonical) : (s.stKeep n i k v).1.Bytes canonical :=
  .ite_fst h h.stPut
theorem State.Bytes.sigAdd {n : Nat} {bs : List Byte} (h : s.Bytes P) : (s.sigAdd n bs).Bytes P := h.upEng
theorem State.Bytes.wrRef {n r v : Nat} (h : s.Bytes canonical) : (s.wrRef n r v).Bytes canonical := by
  unfold State.wrRef
  split
  exacts [h.ceSet.sigAdd, h.ceSet.sigAdd, h]
theorem State.Bytes.wrV {n r : Nat} {vs : List Nat} (h : s.Bytes canonical) : (s.wrV n r vs).Bytes canonical := by
  induction vs generalizing s r with
  | nil => exact h
  | cons v vs ih => exact ih h.wrRef
theorem State.Bytes.status {n : Nat} {i : Inst} {k b : Nat} {v : Bool} (h : s.Bytes canonical) :
    (s.status n i k b v).Bytes canonical :=
  h.stPut
theorem State.Bytes.nanHold {n : Nat} {i : Inst} {k : Nat} {v : Bool} (h : s.Bytes canonical) :
    (s.nanHold n i k v).Bytes canonical :=
  .ite h.status h
theorem State.Bytes.tickReach {n : Nat} {k : Tick} (h : s.Bytes P) : (s.tickReach n k).Bytes P := by
  unfold State.tickReach
  dsimp only
  split
  exacts [h.upEng.set1, .ite h.upEng.set1 h.upEng]
theorem State.Bytes.promote {n : Nat} (h : s.Bytes P) : (s.promote n).Bytes P :=
  .ite h (.foldl h.upEng (fun _ _ hx => hx.tickReach))
theorem State.Bytes.mailProgress (h : s.Bytes canonical) : s.mailProgress.Bytes canonical := by
  unfold State.mailProgress
  refine .foldl ?_ fun _ _ h0 => ?_
  · exact h
  · split
    exacts [h0, .ite h0.writeBytes h0]
theorem State.Bytes.mailRead {n : Nat} {torn : List Nat} {errs : List RowErr} {j slot : Nat} (h : s.Bytes canonical) :
    (s.mailRead n torn errs j slot).Bytes canonical := by
  unfold State.mailRead
  dsimp only
  split
  exacts [h.meetRows.bump, .writeBytes (.upEng (.ite h.meetRows h.meetRows.bump.set1))]
theorem State.Bytes.preset {n : Nat} {i : Inst} (h : s.Bytes canonical) : (s.preset n i).1.Bytes canonical := by
  have hc {t : State} (ht : t.Bytes canonical) {c : Bool} {k b : Nat} : (if c then t.status n i k b true else t).Bytes canonical :=
    .ite ht.status ht
  unfold State.preset
  split
  · exact hc h.nanHold.stKeep.nanHold
  · exact .ite_fst (hc h.stKeep.stKeep.nanHold) h
  · exact hc h.nanHold.stKeep.nanHold
  · exact hc h.stKeep.nanHold
  · exact h
theorem State.Bytes.initInst {n : Nat} {i : Inst} (h : s.Bytes canonical) : (s.initInst n i).Bytes canonical := by
  unfold State.initInst
  split
  · exact .foldl h (fun _ _ hy => hy.stPut)
  · exact .foldl h (fun _ _ hy => hy.stPut)
  · exact .nanHold (.foldl h.stKeep (fun _ _ hy => hy.stPut))
  · exact .ite (.nanHold (.stKeep (.foldl h (fun _ _ hy => hy.stPut)))) (.stPut (.foldl h (fun _ _ hy => hy.stPut)))
  · split
    exacts [.foldl h (fun _ _ hz => hz.stPut), h]
theorem State.Bytes.swapRecipe {n : Nat} (h : s.Bytes P) : (s.swapRecipe n).Bytes P := h.put.clr.set1.upEng
theorem State.Bytes.swapCoef {n : Nat} {is : List Inst} {first : Bool} (h : s.Bytes canonical) :
    (s.swapCoef n is first).Bytes canonical := by
  unfold State.swapCoef
  extract_lets s1 s2 s3 s4
  have h1 : s1.Bytes canonical := h.put
  have h2 : s2.Bytes canonical := h1.clr.set1
  have h3 : s3.Bytes canonical := h2.upEng
  have h4 : s4.Bytes canonical := h3.clr.clr
  exact .ite h4 (.foldl h4 (fun _ _ hy => .ite (.set1 (.bump (.ite hy.preset.put hy.preset))) hy.preset))
theorem State.Bytes.applyQueue {n : Nat} (h : s.Bytes canonical) : (s.applyQueue n).1.Bytes canonical :=
  .put (.upEng (.foldl h fun _ _ hx => hx.stSet))
theorem State.Bytes.countLate {n : Nat} {k : Tick} (h : s.Bytes P) : (s.countLate n k).Bytes P :=
  .ite h (.ite h.bump.bump.bump.set1 h.clr)
theorem State.Bytes.runBegin {n : Nat} {k : Tick} {torn : List Nat} {errs : List RowErr} (h : s.Bytes canonical) :
    (s.runBegin n k torn errs).Bytes canonical := by
  unfold State.runBegin
  extract_lets _ _ _ s1 s2 s3 _ _ _ s4 _ _ _ _ _ _ _ s5 _ s6 s7 s8 _ _ _ _ s9
  have h3 : s3.Bytes canonical := .ite h.countLate.clr.swapRecipe h.countLate.clr
  have h4 : s4.Bytes canonical := .foldl h3 fun _ _ hx => hx.ceSet.ceSet
  have h5 : s5.Bytes canonical := .ite h4.set1 h4
  have h6 : s6.Bytes canonical := .ite h5 h5.mailProgress
  have h7 : s7.Bytes canonical := .foldl h6 fun _ _ hx => hx.mailRead
  have h8 : s8.Bytes canonical := .ite h7.swapCoef h7
  have h9 : s9.Bytes canonical := h8.writeBytes
  clear_value s9
  split
  next s10 q e =>
    extract_lets ini marked s11 c7 cyc r s12 s13
    have h11 : s11.Bytes canonical := .foldl (h9.applyQueue.of_fst e) fun _ _ hx => hx.initInst
    have h13 : s13.Bytes canonical := .ite h11.upEng.put h11.upEng
    exact h13.set1.put.put.bumpWrap
theorem State.Bytes.runStart {n : Nat} {torn : List Nat} {errs : List RowErr} (h : s.Bytes canonical) :
    (s.runStart n torn errs).Bytes canonical := by
  unfold State.runStart
  extract_lets s1
  have h1 : s1.Bytes canonical := h.promote
  split
  exacts [h1.runBegin, h1]
theorem State.Bytes.runInst {n : Nat} {is : Inst → Bool} {f : State → Inst → State} (h : s.Bytes P)
    (hf : ∀ (s : State) i, s.Bytes P → (f s i).Bytes P) : (s.runInst n is f).Bytes P := by
  unfold State.runInst
  split
  exacts [.ite (hf _ _ h).upEng h, h]
theorem State.Bytes.traceRecord {n : Nat} (h : s.Bytes canonical) : (s.traceRecord n).Bytes canonical := by
  refine .ite h ?_
  extract_lets e w b addr s1 w' s2 s3
  have h1 : s1.Bytes canonical := .ite h.writeBytes (.ite h.bankViol h)
  have h2 : s2.Bytes canonical := .ite h1.set1 h1
  have h3 : s3.Bytes canonical := h2.upEng
  split
  exacts [h3.upEng.set1.clr.set1, h3.upEng, h3]
theorem State.Bytes.showTrace (h : s.Bytes P) : s.showTrace.Bytes P := .foldl h (fun _ _ hx => .ite hx hx.put)
theorem State.Bytes.traceArm {n : Nat} (h : s.Bytes P) : (s.traceArm n).Bytes P :=
  .ite h.clr.set1.upEng.set1.showTrace h.clr.set1.set1.set1.showTrace
theorem State.Bytes.mtrack {n : Nat} {i : Inst} (h : s.Bytes canonical) : (s.mtrack n i).Bytes canonical :=
  .ite h.stKeep h
theorem State.Bytes.trackRun {n stamp : Nat} (h : s.Bytes P) : (s.trackRun n stamp).Bytes P :=
  .foldl h (fun _ _ hx => .ite hx.trkDue hx)
theorem State.Bytes.signRun {n : Nat} (h : s.Bytes P) : (s.signRun n).Bytes P := by
  unfold State.signRun
  dsimp only
  split
  exacts [h.checkpoint.put, h.checkpoint]
theorem State.Bytes.runEnd {n : Nat} (h : s.Bytes canonical) : (s.runEnd n).Bytes canonical := by
  unfold State.runEnd
  extract_lets _ s1 s2 s3
  have h1 : s1.Bytes canonical := .foldl h (fun _ _ hy => hy.mtrack)
  have h2 : s2.Bytes canonical := h1.traceRecord.showTrace
  have h3 : s3.Bytes canonical := h2.signRun
  split
  · exact h
  · exact .ite h (.promote (.trackRun (.ite h3.put.put.upEng.clr.fsRelease h3.put.put.upEng.clr)))
theorem State.Bytes.eccMark {n : Nat} (h : s.Bytes P) : (s.eccMark n).Bytes P := .engFault (.ite (.with_twn h) h)
theorem State.Bytes.eccFault {n : Nat} (h : s.Bytes canonical) :
    (s.eccFault n).Bytes canonical := h.mailProgress.upEng.clr.eccMark

/-! ### Machine/Loops -/

theorem State.Bytes.opLoad {n : Nat} {i : Inst} (h : s.Bytes canonical) : (s.opLoad n i).Bytes canonical :=
  .ite h.wrRef (.ite h.wrV h.wrV)
theorem State.Bytes.opClarke {n : Nat} {i : Inst} (h : s.Bytes canonical) : (s.opClarke n i).Bytes canonical := h.wrV
theorem State.Bytes.opIclarke {n : Nat} {i : Inst} (h : s.Bytes canonical) : (s.opIclarke n i).Bytes canonical := h.wrV
theorem State.Bytes.opPark {n : Nat} {i : Inst} (h : s.Bytes canonical) : (s.opPark n i).Bytes canonical := h.wrV
theorem State.Bytes.opIpark {n : Nat} {i : Inst} (h : s.Bytes canonical) : (s.opIpark n i).Bytes canonical := h.wrV
theorem State.Bytes.opAngle {n : Nat} {i : Inst} (h : s.Bytes canonical) : (s.opAngle n i).Bytes canonical :=
  .ite h.wrRef h.wrRef
theorem State.Bytes.opPi {n : Nat} {i : Inst} (h : s.Bytes canonical) : (s.opPi n i).Bytes canonical := by
  unfold State.opPi
  split
  · dsimp only
    split
    · exact h.stPut.stKeep.nanHold.status.status.stKeep.nanHold.stKeep.stKeep.nanHold.wrRef
    · refine .wrRef (.nanHold (.stKeep (.stKeep (.status (.nanHold (.stKeep (.ite ?_ (.ite ?_ ?_))))))))
      exacts [h.stPut.stKeep.nanHold.status, h.stPut.stKeep.nanHold.status, h.stPut.stKeep.nanHold]
  · dsimp only
    split
    · exact h.status.status.stKeep.nanHold.stKeep.stKeep.nanHold.wrRef
    · exact .wrRef (.nanHold (.stKeep (.stKeep (.status (.nanHold (.stKeep (.ite h.status (.ite h.status h))))))))
theorem State.Bytes.opRes {n : Nat} {i : Inst} (h : s.Bytes canonical) : (s.opRes n i).Bytes canonical := by
  unfold State.opRes
  dsimp only
  exact h.nanHold.status.stKeep.stKeep.nanHold.wrRef
theorem State.Bytes.opMatvec {n : Nat} {i : Inst} (h : s.Bytes canonical) : (s.opMatvec n i).Bytes canonical := h.wrV
theorem State.Bytes.opObs {n : Nat} {i : Inst} (h : s.Bytes canonical) : (s.opObs n i).Bytes canonical :=
  .wrV (.foldl h (fun _ _ hx => hx.stKeep))
theorem State.Bytes.opSwing {n : Nat} {i : Inst} (h : s.Bytes canonical) : (s.opSwing n i).Bytes canonical := by
  unfold State.opSwing
  dsimp only
  split
  · exact h.status.stKeep.nanHold.stPut.wrRef.stKeep.nanHold.wrV
  · exact h.status.stKeep.nanHold.status.wrRef.stKeep.nanHold.wrV
theorem State.Bytes.opDroop {n : Nat} {i : Inst} (h : s.Bytes canonical) : (s.opDroop n i).Bytes canonical := h.wrRef
theorem State.Bytes.opVimp {n : Nat} {i : Inst} (h : s.Bytes canonical) : (s.opVimp n i).Bytes canonical := h.wrV
theorem State.Bytes.opIlim {n : Nat} {i : Inst} (h : s.Bytes canonical) : (s.opIlim n i).Bytes canonical := by
  unfold State.opIlim
  extract_lets _ _ _ _ _ _ _ s1 _ _ _ s2 _ _ _
  have h1 : s1.Bytes canonical := .ite h.stKeep (.ite h.stPut h)
  have h2 : s2.Bytes canonical := .ite h1 h1.stPut
  exact h2.wrV
theorem State.Bytes.opFrt {n : Nat} {i : Inst} (h : s.Bytes canonical) : (s.opFrt n i).Bytes canonical :=
  .wrV (.foldl h (fun _ _ hx => hx.stKeep.stKeep))

/-! ### Machine/Shaping -/

theorem State.Bytes.opRamp {n : Nat} {i : Inst} (h : s.Bytes canonical) :
    (s.opRamp n i).Bytes canonical := h.status.stKeep.nanHold.wrRef
theorem State.Bytes.opLpf {n : Nat} {i : Inst} (h : s.Bytes canonical) :
    (s.opLpf n i).Bytes canonical := h.stKeep.stKeep.wrRef
theorem State.Bytes.opLimit {n : Nat} {i : Inst} (h : s.Bytes canonical) : (s.opLimit n i).Bytes canonical := h.wrRef
theorem State.Bytes.opLut {n : Nat} {i : Inst} (h : s.Bytes canonical) : (s.opLut n i).Bytes canonical := h.wrRef
theorem State.Bytes.opPower {n : Nat} {i : Inst} (h : s.Bytes canonical) : (s.opPower n i).Bytes canonical :=
  .ite h.stKeep.stKeep.wrV h.wrV
theorem State.Bytes.opRms {n : Nat} {i : Inst} (h : s.Bytes canonical) : (s.opRms n i).Bytes canonical :=
  .wrRef (.ite h.stKeep.stKeep.stKeep.stPut.stPut h.stKeep.stKeep)
theorem State.Bytes.opSvm3l {n : Nat} {i : Inst} (h : s.Bytes canonical) : (s.opSvm3l n i).Bytes canonical := h.wrV
theorem State.Bytes.opSelect {n : Nat} {i : Inst} (h : s.Bytes canonical) : (s.opSelect n i).Bytes canonical := h.wrV
theorem State.Bytes.opCompare {n : Nat} {i : Inst} (h : s.Bytes canonical) :
    (s.opCompare n i).Bytes canonical := h.stPut.wrRef
theorem State.Bytes.opGuard {n : Nat} {i : Inst} (h : s.Bytes canonical) : (s.opGuard n i).Bytes canonical := by
  unfold State.opGuard
  extract_lets _ _ _ _ _ _ s1 s2
  have h1 : s1.Bytes canonical := .ite h.stPut.stPut.status h.stKeep.nanHold
  have h2 : s2.Bytes canonical := .ite h1.stPut h1
  exact h2.wrV
theorem State.Bytes.opSum {n : Nat} {i : Inst} (h : s.Bytes canonical) : (s.opSum n i).Bytes canonical := h.wrV
theorem State.Bytes.opMul {n : Nat} {i : Inst} (h : s.Bytes canonical) : (s.opMul n i).Bytes canonical := h.wrV
theorem State.Bytes.slotNotice {slot b : Nat} (h : s.Bytes P) : (s.slotNotice slot b).Bytes P := h.upNet
theorem State.Bytes.opMailWrite {n : Nat} {i : Inst} (h : s.Bytes canonical) : (s.opMailWrite n i).Bytes canonical :=
  h.stPut.writeBytes.sigAdd.writeLe.slotNotice.sigAdd.checkpoint
theorem State.Bytes.opMailRead {n : Nat} {i : Inst} (h : s.Bytes canonical) :
    (s.opMailRead n i).Bytes canonical := h.stPut.wrV
theorem State.Bytes.rising {n : Nat} {i : Inst} (h : s.Bytes canonical) : (s.rising n i).1.Bytes canonical := h.stPut
theorem State.Bytes.opEvent {n : Nat} {i : Inst} (h : s.Bytes canonical) : (s.opEvent n i).Bytes canonical :=
  .ite h.rising.ldgPost h.rising
theorem State.Bytes.opTrace {n : Nat} {i : Inst} (h : s.Bytes canonical) : (s.opTrace n i).Bytes canonical :=
  .ite h.rising.traceTrigger h.rising

/-! ### Machine/EngineCmd -/

theorem State.Bytes.checkStart {n : Nat} {inactive : Bool} (h : s.Bytes P) : (s.checkStart n inactive).Bytes P :=
  h.upEng.set1
theorem State.Bytes.engRelease {n : Nat} (h : s.Bytes P) : (s.engRelease n).Bytes P :=
  .ite h.showLive h.upEng.showLive.checkStart
theorem State.Bytes.moveRefuse {code : Nat} (h : s.Bytes P) : (s.moveRefuse code).Bytes P := h.put.set1.hltReason
theorem State.Bytes.moveBoundary (h : s.Bytes P) : s.moveBoundary.Bytes P := by
  unfold State.moveBoundary
  split
  exacts [.ite h (.ite h.with_move.clr.moveRefuse h.with_move.showLive), h]
theorem State.Bytes.coefSwap {n : Nat} (h : s.Bytes P) : (s.coefSwap n).Bytes P := .ite h h.set1.upEng
theorem State.Bytes.recipeSwap {n : Nat} (h : s.Bytes P) : (s.recipeSwap n).Bytes P :=
  .ite h (.ite h.set1 h.set1.checkStart)
theorem State.Bytes.stageWrite {n v : Nat} (h : s.Bytes canonical) : (s.stageWrite n v).Bytes canonical := by
  unfold State.stageWrite
  refine .ite h.set1.errResp ?_
  refine .okResp ?_
  refine .put ?_
  split
  exacts [h.ceSet, h.ceSet, h.upEng.put, .ite h.put h.put]
theorem State.Bytes.copyMem {src dst len : Nat} (h : s.Bytes canonical) : (s.copyMem src dst len).Bytes canonical :=
  .foldl h.fillZero (fun _ _ hx => hx.setByte)
theorem State.Bytes.moveStart {n : Nat} (h : s.Bytes P) : (s.moveStart n).Bytes P := by
  unfold State.moveStart
  extract_lets _ s1 s2
  have h1 : s1.Bytes P := .ite h h.put
  have h2 : s2.Bytes P := h1.clr.set1
  exact .ite h1.moveRefuse (.ite h1.moveRefuse (.ite h1.moveRefuse h2.with_move.moveBoundary))
theorem State.Bytes.moveCopied {eccBad : Bool} (h : s.Bytes canonical) : (s.moveCopied eccBad).Bytes canonical := by
  unfold State.moveCopied
  split
  exacts [.ite h (.ite h.with_move.clr.moveRefuse.eccMark h.copyMem.with_move), h]
theorem State.Bytes.testFrom {n : Nat} (h : s.Bytes P) : (s.testFrom n).Bytes P := h
theorem State.Bytes.carry {n : Nat} (h : s.Bytes P) : (s.carry n).Bytes P := h.put.set1.set1.set1

/-! ### Machine/Screen -/

theorem State.Bytes.hold {who addr word : Nat} (h : s.Bytes P) : (s.hold who addr word).Bytes P := h.with_holding
theorem State.Bytes.winConfig {w : Nat} (h : s.Bytes P) : (s.winConfig w).Bytes P :=
  .ite (.with_scr (.ite h.put.set1 h.put)) (.ite h.put.set1 h.put)
theorem State.Bytes.applyReset (h : s.Bytes P) : s.applyReset.Bytes P := by
  unfold State.applyReset
  extract_lets _ s1 _
  have h1 : s1.Bytes P := h.with_scr
  split
  · exact .ite h (.set1 (.bumpWrap (.put (.foldl h1 (fun _ _ hz => .ite hz (.ite hz.upChain hz.put.upChain))))))
  · exact h
theorem State.Bytes.resetRequest {f : Nat} {out : Bool} (h : s.Bytes P) : (s.resetRequest f out).Bytes P := by
  unfold State.resetRequest
  dsimp only
  split
  exacts [h.applyReset.bump.set1, h.applyReset.with_scr]
theorem State.Bytes.syncCommand (h : s.Bytes P) : s.syncCommand.Bytes P := h.resetRequest
theorem State.Bytes.fastEnable {i : Nat} {on : Bool} (h : s.Bytes P) : (s.fastEnable i on).Bytes P :=
  .ite h.put.upChain (.ite h.put.upChain.andn.fsRelease h.put.upChain.andn)
theorem State.Bytes.tapRead {who tap : Nat} (h : s.Bytes P) : (s.tapRead who tap).Bytes P :=
  .ite h.dataResp h.hold.dataResp

/-! ### Machine/Banks -/

theorem State.Bytes.upMst {f : MemState → MemState} (h : s.Bytes P) : (s.upMst f).Bytes P := h.with_mst
theorem State.Bytes.setGleanDesc {c : Nat} {d : Option (Nat × Nat)} (h : s.Bytes P) :
    (s.setGleanDesc c d).Bytes P := h.upMst
theorem State.Bytes.gleanTo {c v : Nat} (h : s.Bytes P) : (s.gleanTo c v).Bytes P := h.put.put.put
theorem State.Bytes.gleanHalt {c cause faddr : Nat} (h : s.Bytes P) : (s.gleanHalt c cause faddr).Bytes P :=
  h.put.put.gleanTo.orr
theorem State.Bytes.gleanFails {who cause addr : Nat} (h : s.Bytes P) : (s.gleanFails who cause addr).Bytes P :=
  .ite h.gleanHalt h
theorem State.Bytes.l2Drop {row : L2Row} (h : s.Bytes canonical) : (s.l2Drop row).Bytes canonical :=
  .ite h.upMst.writeBytes h.upMst
theorem State.Bytes.l2Flush {p : Nat → Bool} (h : s.Bytes canonical) : (s.l2Flush p).Bytes canonical :=
  .foldl h (fun _ _ hx => hx.l2Drop)
theorem State.Bytes.l2Look {addr : Nat} (h : s.Bytes canonical) : (s.l2Look addr).1.Bytes canonical := by
  unfold State.l2Look
  split
  exacts [h, .ite_fst h.with_drawn.l2Drop h.with_drawn]
theorem State.Bytes.l2Put {r : L2Row} (h : s.Bytes canonical) : (s.l2Put r).Bytes canonical := by
  unfold State.l2Put
  dsimp only
  split
  exacts [h.upMst.l2Drop, h.upMst]
theorem State.Bytes.l2Passed {addr n : Nat} (h : s.Bytes canonical) : (s.l2Passed addr n).Bytes canonical :=
  .foldl h (fun _ _ hx => hx.l2Look)
theorem State.Bytes.bankCheck {a : Access} (h : s.Bytes P) : (s.bankCheck a).1.Bytes P := by
  unfold State.bankCheck
  split
  · exact .ite_fst h.bankViol.gleanFails h
  · split <;> exact h
theorem State.Bytes.rowRead {addr ecc : Nat} (h : s.Bytes P) : (s.rowRead addr ecc).Bytes P :=
  .ite h (.ite h.noteRow.eccUe h.noteRow.eccCe)
theorem State.Bytes.bankRead {a : Access} {ecc : Nat} (h : s.Bytes P) : (s.bankRead a ecc).Bytes P :=
  .ite h.rowRead.errResp.gleanFails h.rowRead.dataResp
theorem State.Bytes.bankWrite {a : Access} {ecc : Nat} (h : s.Bytes canonical) : (s.bankWrite a ecc).Bytes canonical :=
  .okResp (.writeLe (.ite h.rowRead h))
theorem State.Bytes.l2Serve {a : Access} {ecc : Nat} (h : s.Bytes canonical) : (s.l2Serve a ecc).Bytes canonical := by
  have hl := h.l2Look (addr := a.addr)
  unfold State.l2Serve
  generalize s.l2Look a.addr = p at hl ⊢
  obtain ⟨t, _ | r⟩ := p
  · have ht : (if a.write && a.size = 8 then t else t.rowRead a.addr ecc).Bytes canonical := .ite hl hl.rowRead
    exact .ite ht.l2Put.okResp (.ite ht.errResp ht.l2Put.dataResp)
  · exact .ite hl.l2Put.okResp (.ite hl.errResp hl.l2Put.dataResp)
theorem State.Bytes.writeLost {x p addr : Nat} (h : s.Bytes P) : (s.writeLost x p addr).Bytes P := h.put.put.bump.set1
theorem State.Bytes.otherServe {a : Access} {ecc : Nat} (h : s.Bytes canonical) :
    (s.otherServe a ecc).Bytes canonical := by
  unfold State.otherServe
  extract_lets _ _ _ _ _ s1 s2
  have h1 : s1.Bytes canonical := .ite h h.noteRow
  have h2 : s2.Bytes canonical := .ite h1.bump h1
  refine .ite (.ite h.dataResp h.errResp) (.ite (.ite h.errResp (.ite h.writeLe.okResp ?_)) h.errResp)
  exact .ite h1.eccFault.moveBoundary.errResp (.ite h2.writeLe.okResp h2.dataResp)
theorem State.Bytes.answered {mine : Bool} {f : State → State} (h : s.Bytes P) (hf : ∀ s : State, s.Bytes P → (f s).Bytes P) :
    (s.answered mine f).Bytes P := .ite (hf _ h) (hf _ h).with_resp
theorem State.Bytes.serveOne {x : Bool × Access} {ecc : Nat} (h : s.Bytes canonical) :
    (s.serveOne x ecc).Bytes canonical :=
  h.answered (fun _ hx => .ite hx.l2Serve (.ite hx.l2Passed.bankWrite hx.l2Passed.bankRead))
theorem State.Bytes.exchCycle {x ecc : Nat} {pa pb : Option (Bool × Access)} (h : s.Bytes canonical) :
    (s.exchCycle x pa pb ecc).1.Bytes canonical := by
  unfold State.exchCycle
  split
  · exact .ite_fst (.ite h.serveOne.writeLost (h.serveOne.writeLost.answered fun _ hx => hx.errResp.gleanFails))
      (.ite_fst h.serveOne.serveOne h.serveOne.serveOne)
  exacts [h.serveOne, h.serveOne, h]
theorem State.Bytes.exchServe {x ecc n wa wb : Nat} {qa qb : List (Bool × Access)} (h : s.Bytes canonical) :
    (State.exchServe x ecc n qa qb wa wb s).Bytes canonical := by
  induction n generalizing s qa qb wa wb with
  | zero => exact h
  | succ n ih => exact .ite h (ih h.exchCycle)
theorem State.Bytes.bankServe {a : Access} {ecc : Nat} {rest : List Access} (h : s.Bytes canonical) :
    (s.bankServe a ecc rest).Bytes canonical := by
  unfold State.bankServe
  extract_lets s1 _ _ _ s2 _
  have h1 : s1.Bytes canonical := h.mailProgress
  have h2 : s2.Bytes canonical := .ite h1 h1.errResp
  refine .ite h1.otherServe ?_
  split
  · exact .foldl h1 (fun _ _ h3 => .ite h3.bankCheck.serveOne (h3.bankCheck.answered (fun _ h4 => h4.errResp)))
  · exact h2.exchServe
theorem State.Bytes.bnkErr {code : Nat} (h : s.Bytes P) : (s.bnkErr code).Bytes P := h.put.set1
theorem State.Bytes.bnkDone (h : s.Bytes P) : s.bnkDone.Bytes P := h.clr.set1
theorem State.Bytes.bnkCmd {f : State → State} (h : s.Bytes P) (hf : ∀ s : State, s.Bytes P → (f s).Bytes P) :
    (s.bnkCmd f).Bytes P := .ite h.bnkErr (hf _ h)
theorem State.Bytes.bankRelease {b who : Nat} (h : s.Bytes P) : (s.bankRelease b who).Bytes P :=
  h.bnkCmd (fun _ hx => .ite hx.bnkErr (.ite hx.bnkErr (.ite hx.bnkErr hx.set1.clr.set1.clr.clr)))
theorem State.Bytes.bankFree (h : s.Bytes canonical) : s.bankFree.Bytes canonical := by
  unfold State.bankFree
  split
  exacts [h.l2Flush.clr.clr.clr.bnkDone, h]
theorem State.Bytes.bankClaim {b who : Nat} (h : s.Bytes P) : (s.bankClaim b who).Bytes P :=
  h.bnkCmd (fun _ hx => .ite hx.bnkErr (.ite hx.bnkErr hx.put.bnkDone))
theorem State.Bytes.bankGrant {b who : Nat} {on : Bool} (h : s.Bytes P) : (s.bankGrant b who on).Bytes P :=
  h.bnkCmd (fun _ hx => .ite hx.bnkErr hx.put.bnkDone)
theorem State.Bytes.showRepair {b : Nat} (h : s.Bytes P) : (s.showRepair b).Bytes P := by
  unfold State.showRepair
  split
  exacts [h.put.set1, h.clr]
theorem State.Bytes.repairStart {b seg spare piece : Nat} (h : s.Bytes P) : (s.repairStart b seg spare piece).Bytes P :=
  h.put.upMst.showRepair
theorem State.Bytes.bankRepair {b seg : Nat} (h : s.Bytes P) : (s.bankRepair b seg).Bytes P := by
  unfold State.bankRepair
  refine .bnkCmd ?_ fun _ h0 => ?_
  · exact h
  · refine .ite h0.bnkErr ?_
    split
    exacts [h0.repairStart.bnkDone, h0.bnkErr]
theorem State.Bytes.repairPiece {r : Repair} {rest : List Repair} (h : s.Bytes P) : (s.repairPiece r rest).Bytes P :=
  .ite h.upMst.set1.set1.put.showRepair h.upMst.put
theorem State.Bytes.segmentFail {b i addr : Nat} (h : s.Bytes P) : (s.segmentFail b i addr).Bytes P := by
  unfold State.segmentFail
  dsimp only
  split
  exacts [h.bump.put.set1.repairStart, h.bump.put.set1.set1.hltReason]
theorem State.Bytes.sweepStep {errs : List RowErr} {fail : Bool} (h : s.Bytes P) : (s.sweepStep errs fail).Bytes P := by
  unfold State.sweepStep
  extract_lets i b addr _ s1 _ _ s2
  have h1 : s1.Bytes P := .foldl h fun _ _ hy => hy.noteRow
  have h2 : s2.Bytes P := h1.with_rows
  clear_value s2
  refine .ite h ?_
  split
  · exact h.repairPiece
  · split
    next i' b' _ _ =>
    extract_lets s3 s4 s5 s6
    have h4 : s4.Bytes P := .ite h2.put.put.bump h2.put.put
    clear_value s4
    have h6 : s6.Bytes P := .ite (.segmentFail (.ite h4.put.set1 h4)) (.ite h4.put.set1 h4)
    exact .ite h6.bumpWrap.set1 h6

/-! ### Machine/Sampling -/

theorem State.Bytes.showCal {a : Nat} (h : s.Bytes P) : (s.showCal a).Bytes P := h.put
theorem State.Bytes.calRestart {a : Nat} (h : s.Bytes P) : (s.calRestart a).Bytes P := h.upAdc.showCal
theorem State.Bytes.calInterrupt {a : Nat} (h : s.Bytes P) : (s.calInterrupt a).Bytes P := h.upAdc.showCal
theorem State.Bytes.watchRequest {a : Nat} (h : s.Bytes P) : (s.watchRequest a).Bytes P := .ite h.set1 h.set1.upAdc
theorem State.Bytes.watchExitRequest {a : Nat} (h : s.Bytes P) : (s.watchExitRequest a).Bytes P := .ite h.clr.upAdc h.clr
theorem State.Bytes.calStore {a k : Nat} {off gain skew bw : Int} (h : s.Bytes P) :
    (s.calStore a k off gain skew bw).Bytes P := by
  unfold State.calStore
  extract_lets s1 s2
  have h1 : s1.Bytes P := h.put.put
  have h2 : s2.Bytes P := h1.put.put
  exact h2.clr
theorem State.Bytes.retire {a k : Nat} (h : s.Bytes P) : (s.retire a k).Bytes P := h.orr.put.clr.set1.upAdc.hltReason
theorem State.Bytes.calenChange {a : Nat} {on : Bool} (h : s.Bytes P) : (s.calenChange a on).Bytes P :=
  .ite h.put.calRestart.upAdc h.put
theorem State.Bytes.lfsrWrite {a v : Nat} (h : s.Bytes P) : (s.lfsrWrite a v).Bytes P := h.put
theorem State.Bytes.presWrite {a : Nat} {fmt : Bool} {v : Nat} (h : s.Bytes P) : (s.presWrite a fmt v).Bytes P :=
  .upAdc (.ite h.put h.put)
theorem State.Bytes.snapRead {who a slot : Nat} (h : s.Bytes P) : (s.snapRead who a slot).Bytes P := h.hold.hold.dataResp
theorem State.Bytes.testEnd {a : Nat} (h : s.Bytes P) : (s.testEnd a).Bytes P := h.clr.clr.set1.upAdc
theorem State.Bytes.testStart {a : Nat} (h : s.Bytes P) : (s.testStart a).Bytes P :=
  .ite h (.ite h.put.set1 (.ite h.put.set1 (.ite h.put.set1 h.clr.clr.set1.set1.upAdc)))
theorem State.Bytes.testAbort {a : Nat} (h : s.Bytes P) : (s.testAbort a).Bytes P := .ite h.put.testEnd h

/-! ### Machine/LaneRx -/

theorem State.Bytes.laneState {l v : Nat} (h : s.Bytes P) : (s.laneState l v).Bytes P :=
  .ite h.put.put.upLane.set1 h.put.put
theorem State.Bytes.desatRelease {ch : Nat} (h : s.Bytes P) : (s.desatRelease ch).Bytes P := h.upChan.andn.fsRelease
theorem State.Bytes.diagPut {l i c : Nat} (h : s.Bytes P) : (s.diagPut l i c).Bytes P := h.put
theorem State.Bytes.diagAll {l mask c : Nat} (h : s.Bytes P) : (s.diagAll l mask c).Bytes P :=
  .foldl h (fun _ _ hx => .ite hx.diagPut hx)
theorem State.Bytes.desatClear {l mask : Nat} (h : s.Bytes P) : (s.desatClear l mask).Bytes P :=
  .foldl h (fun _ _ hx => .ite hx (.ite hx.upChan.andn.desatRelease hx.upChan))
theorem State.Bytes.diagStart {l mask dur : Nat} (h : s.Bytes P) : (s.diagStart l mask dur).Bytes P :=
  .ite h.diagAll h.upLane.queueCmd
theorem State.Bytes.configSend {l addr data : Nat} (h : s.Bytes P) : (s.configSend l addr data).Bytes P :=
  .ite h.set1 h.upLane.queueCmd
theorem State.Bytes.trainStart {l : Nat} (h : s.Bytes P) : (s.trainStart l).Bytes P :=
  .ite h (.ite h.clr.put.set1 h.set1.laneState.upLane)
theorem State.Bytes.laneStops {l : Nat} (h : s.Bytes P) : (s.laneStops l).Bytes P := h.upLane
theorem State.Bytes.stopLanes (h : s.Bytes P) : s.stopLanes.Bytes P := .foldl h (fun _ _ hx => hx.lineRun.laneStops)
theorem State.Bytes.laneDisable {l : Nat} (h : s.Bytes P) : (s.laneDisable l).Bytes P := by
  unfold State.laneDisable
  extract_lets s1 s2 s3
  have h1 : s1.Bytes P := h.lineRun.laneState.clr
  have h2 : s2.Bytes P := h1.laneStops.upLane
  have h3 : s3.Bytes P := h2.put.laneSource
  exact .ite h (.foldl h3 (fun _ _ hy => .ite hy.upChan.desatRelease hy.upChan))

/-! ### Machine/Net -/

theorem State.Bytes.setEgress {p : Nat} {q : List TxFrame} (h : s.Bytes P) : (s.setEgress p q).Bytes P := h.upNet.put
theorem State.Bytes.enqueue {p : Nat} {f : TxFrame} (h : s.Bytes P) : (s.enqueue p f).Bytes P := .ite h.setEgress h.bump
theorem State.Bytes.markSent {p t : Nat} {m : PtpMark} (h : s.Bytes P) : (s.markSent p t m).Bytes P := by
  unfold State.markSent
  split
  exacts [h.upPdelay, .ite h h.bump, h]
theorem State.Bytes.setFwd {p : Nat} {f : Fwd} (h : s.Bytes P) : (s.setFwd p f).Bytes P := h.upNet
theorem State.Bytes.forwardStart {p : Nat} {f : List Byte} {rx : Nat} (h : s.Bytes P) : (s.forwardStart p f rx).Bytes P :=
  .ite h (.ite h.setFwd (.ite h.bump.setFwd (.ite h.bump.setFwd (.ite h.setFwd.markSent h.setFwd))))
theorem State.Bytes.lineBusy {p x n : Nat} (h : s.Bytes P) : (s.lineBusy p x n).Bytes P := h.upNet
theorem State.Bytes.hasSent {p x : Nat} {f : List Byte} {good : Bool} (h : s.Bytes P) : (s.hasSent p x f good).Bytes P :=
  h.upNet
theorem State.Bytes.forwardEnd {p : Nat} {f : List Byte} {rx : Nat} {good : Bool} (h : s.Bytes P) :
    (s.forwardEnd p f rx good).Bytes P := by
  unfold State.forwardEnd
  split
  · dsimp only
    split
    exacts [h.setFwd.lineBusy.hasSent.bumpWrap, h.setFwd.enqueue, h.setFwd]
  · dsimp only
    split
    exacts [h.setFwd.lineBusy.hasSent.bump, h.setFwd, h.setFwd]
theorem State.Bytes.egressSend {p : Nat} (h : s.Bytes canonical) : (s.egressSend p).Bytes canonical := by
  unfold State.egressSend
  extract_lets _ _ s1
  have h1 : s1.Bytes canonical := h.setEgress
  clear_value s1
  refine .ite h ?_
  split
  · exact h
  · refine .ite h1.bump ?_
    extract_lets _ s2 s3
    have h3 : s3.Bytes canonical := h1.markSent.lineBusy.hasSent.bumpWrap
    clear_value s3
    split
    · extract_lets s4 s5
      have h4 : s4.Bytes canonical := .foldl h3 fun _ _ hx => hx.setEgress
      clear_value s4
      exact (State.Bytes.ite h4.writeLe.writeLe.writeLe h4.bankViol).set1
    · exact h3
theorem State.Bytes.takeSeq {pair : Bool} (h : s.Bytes P) : (s.takeSeq pair).1.Bytes P := h
theorem State.Bytes.sendPrp {f : List Byte} {seq : Nat} {own : Option (Nat × Nat)} (h : s.Bytes P) :
    (s.sendPrp f seq own).1.Bytes P := .foldl_fst h fun _ _ hx => .ite_fst hx hx.enqueue
theorem State.Bytes.txFail {d w1 err : Nat} (h : s.Bytes canonical) :
    (s.txFail d w1 err).Bytes canonical := h.writeLe.set1
theorem State.Bytes.hostTx {i : Nat} {errs : List RowErr} (h : s.Bytes canonical) :
    (s.hostTx i errs).Bytes canonical := by
  have stop {t : State} (ht : t.Bytes canonical) : (t.upNet fun n => { n with tx := n.tx.set i false }).Bytes canonical :=
    ht.upNet
  refine .ite h ?_
  dsimp only
  refine .ite (stop h).bankViol (.ite (stop h.meetRows) ?_)
  have hm {p q : Nat → Bool} {a b : List RowErr} : ((s.meetRows p a).1.meetRows q b).1.Bytes canonical := h.meetRows.meetRows
  exact .ite h.meetRows.txFail.put (.ite h.meetRows.bankViol.txFail.put (.ite hm.txFail.put (.ite hm.takeSeq.writeLe.put
    (.ite (.ite hm hm.takeSeq.sendPrp.put) (.ite hm.put (.ite hm hm.enqueue.put))))))
theorem State.Bytes.hostRx {i p sfd : Nat} {f : List Byte} {rct : Option (Nat × Nat)} {wrong : Bool} (h : s.Bytes canonical) :
    (s.hostRx i p sfd f rct wrong).Bytes canonical :=
  .ite h.bankViol.bump.set1 (.ite h.bump.set1 (.ite h.bankViol.bump.set1
    h.writeBytes.writeLe.writeLe.writeLe.put.set1))
theorem State.Bytes.filterWrite {f slot stamp : Nat} {vals : List Nat} (h : s.Bytes canonical) :
    (s.filterWrite f slot stamp vals).Bytes canonical := by
  unfold State.filterWrite
  extract_lets _ _ s1 _ s2
  have h1 : s1.Bytes canonical := h.put
  have h2 : s2.Bytes canonical := h1.writeBytes
  exact h2.writeLe
theorem State.Bytes.filterTake {f : Nat} {body : List Byte} (h : s.Bytes canonical) :
    (s.filterTake f body).Bytes canonical :=
  .ite h.filterWrite (.ite h.twSend.with_twn h)
theorem State.Bytes.slotSend {n ecc : Nat} (h : s.Bytes P) : (s.slotSend n ecc).Bytes P := by
  unfold State.slotSend
  extract_lets s1
  have h1 : s1.Bytes P := h.upNet
  split
  · exact h
  · refine .ite h1 ?_
    split
    · dsimp only
      split
      exacts [h1.meetRows.bump, .ite h1.meetRows.takeSeq h1.meetRows.takeSeq.sendPrp.bump.bump]
    · dsimp only
      split
      exacts [h1.meetRows.bump, .ite h1.meetRows.takeSeq h1.meetRows.takeSeq.sendPrp.bump.bump]
theorem State.Bytes.showCommons (h : s.Bytes P) : s.showCommons.Bytes P := h.put.put
theorem State.Bytes.setPeer {i : Nat} {p : Peer} (h : s.Bytes P) : (s.setPeer i p).Bytes P := h.upNet.showCommons
theorem State.Bytes.dropPeer {i : Nat} (h : s.Bytes P) : (s.dropPeer i).Bytes P := h.upNet.showCommons
theorem State.Bytes.genStep {i : Nat} (h : s.Bytes P) : (s.genStep i).Bytes P := h.upNet.bumpWrap
theorem State.Bytes.addPeer {p : Peer} (h : s.Bytes P) : (s.addPeer p).1.Bytes P := by
  unfold State.addPeer
  split
  · exact h.genStep.setPeer
  · split
    exacts [h.bump.set1.genStep.setPeer, h]
theorem State.Bytes.offer {port : Nat} {body : List Byte} (h : s.Bytes P) : (s.offer port body).Bytes P := by
  refine .ite h ?_
  dsimp only
  split
  · exact .setPeer (.ite h.set1 h)
  · split
    · next e => exact (h.addPeer.of_fst e).set1
    · next e => exact (h.addPeer.of_fst e).bump.set1
theorem State.Bytes.commonsCmd {i : Nat} {f : State → State} (h : s.Bytes P) (hf : ∀ s : State, s.Bytes P → (f s).Bytes P) :
    (s.commonsCmd i f).Bytes P := .ite h.put (.ite h.set1.clr.put (hf _ h.set1.clr))
theorem State.Bytes.commonsRead {i : Nat} (h : s.Bytes canonical) : (s.commonsRead i).Bytes canonical := by
  unfold State.commonsRead
  split
  exacts [.foldl h (fun _ _ hy => hy.put), .put (.foldl h (fun _ _ hy => hy.put))]
theorem State.Bytes.commonsPin {i : Nat} {pin : Bool} (h : s.Bytes P) : (s.commonsPin i pin).Bytes P := by
  unfold State.commonsPin
  split
  exacts [.setPeer (.ite h.set1 h), h.put]
theorem State.Bytes.commonsDelete {i : Nat} (h : s.Bytes P) : (s.commonsDelete i).Bytes P := by
  unfold State.commonsDelete
  split
  exacts [h.genStep.dropPeer, h.put]
theorem State.Bytes.commonsPreset (h : s.Bytes P) : s.commonsPreset.Bytes P := by
  unfold State.commonsPreset; dsimp only
  split
  · exact h.setPeer
  · split
    · next e => exact h.addPeer.of_fst e
    · next e => exact (h.addPeer.of_fst e).put
theorem State.Bytes.ddExpire (h : s.Bytes P) : s.ddExpire.Bytes P := h.upNet
theorem State.Bytes.ddLookup {sa seq : Nat} (h : s.Bytes P) : (s.ddLookup sa seq).1.Bytes P :=
  .ite_fst h.ddExpire.bump (.upNet (.ite h.ddExpire.bump.set1 h.ddExpire))
theorem State.Bytes.toIsland {p : Nat} {f : List Byte} {n : Nat} (h : s.Bytes P) : (s.toIsland p f n).Bytes P :=
  .ite h.bump h.upIsle
theorem State.Bytes.toTime {p : Nat} {f : List Byte} (h : s.Bytes P) : (s.toTime p f).Bytes P :=
  .ite (.bump (.ite h.bump h)) (.ite h.bump h)
theorem State.Bytes.consume {p sfd : Nat} {f : List Byte} (h : s.Bytes canonical) :
    (s.consume p sfd f).Bytes canonical := by
  unfold State.consume
  refine .ite h.bump ?_
  refine .ite h.bump ?_
  split
  · split
    · dsimp only
      split
      · exact .ite (.ddLookup (.bump (.ite h.offer h))) (.toTime (.ddLookup (.bump (.ite h.offer h))))
      · exact .ite (.ddLookup (.ite h.offer h)) (.toTime (.ddLookup (.ite h.offer h)))
    · split
      · split
        · dsimp only
          split
          · exact .ite (.ddLookup (.bump (.ite h.offer h))) (.toIsland (.ddLookup (.bump (.ite h.offer h))))
          · exact .ite (.ddLookup (.ite h.offer h)) (.toIsland (.ddLookup (.ite h.offer h)))
        · dsimp only
          split
          · exact .ite (.ddLookup (.bump (.ite h.offer h))) (.toIsland (.ddLookup (.bump (.ite h.offer h))))
          · exact .ite (.ddLookup (.ite h.offer h)) (.toIsland (.ddLookup (.ite h.offer h)))
      · split
        · dsimp only
          split
          · refine .ite (.ddLookup (.bump (.ite h.offer h))) ?_
            split
            · exact .filterTake (.ddLookup (.bump (.ite h.offer h)))
            · exact .hostRx (.ddLookup (.bump (.ite h.offer h)))
          · refine .ite (.ddLookup (.ite h.offer h)) ?_
            split
            exacts [.filterTake (.ddLookup (.ite h.offer h)), .hostRx (.ddLookup (.ite h.offer h))]
        · dsimp only
          split
          · exact .ite (.ddLookup (.bump (.ite h.offer h))) (.hostRx (.ddLookup (.bump (.ite h.offer h))))
          · exact .ite (.ddLookup (.ite h.offer h)) (.hostRx (.ddLookup (.ite h.offer h)))
  · split
    · exact .ite (.bump (.ite h.offer h)) (.toTime (.bump (.ite h.offer h)))
    · split
      · exact .ite (.bump (.ite h.offer h)) (.toIsland (.bump (.ite h.offer h)))
      · split
        · dsimp only
          split
          · exact .bump (.ite h.offer h)
          · split
            exacts [.filterTake (.bump (.ite h.offer h)), .hostRx (.bump (.ite h.offer h))]
        · exact .ite (.bump (.ite h.offer h)) (.hostRx (.bump (.ite h.offer h)))
theorem State.Bytes.consumeS {sfd : Nat} {f : List Byte} (h : s.Bytes canonical) : (s.consumeS sfd f).Bytes canonical :=
  .ite h.bump (.ite h.bump h.hostRx)
theorem State.Bytes.rxHold {p cls n : Nat} (h : s.Bytes P) : (s.rxHold p cls n).Bytes P := by
  unfold State.rxHold; exact h
theorem State.Bytes.frameReceive {p : Nat} {f : List Byte} {fcsOk : Bool} {sfd : Nat} (h : s.Bytes canonical) :
    (s.frameReceive p f fcsOk sfd).Bytes canonical := by
  unfold State.frameReceive
  extract_lets _ _ _ s1 s2 _ s3
  have h1 : s1.Bytes canonical := .ite h.forwardStart.forwardEnd h
  have h2 : s2.Bytes canonical := h1.bumpWrap
  have h3 : s3.Bytes canonical := h2.rxHold
  refine .ite h (.ite h1.bump (.ite h1.bump (.ite h2.bump.set1 (.ite h2 (.ite h2.bump ?_)))))
  exact .ite h3.consume h3.consumeS

/-! ### Machine/Time -/

theorem State.Bytes.setTd {d v : Nat} (h : s.Bytes P) : (s.setTd d v).Bytes P :=
  .ite h (.showTimeOk (.ite h.put.set1.upDom.upDom h.put.set1.upDom))
theorem State.Bytes.tdEnable {d : Nat} (h : s.Bytes P) : (s.tdEnable d).Bytes P :=
  .ite h.setTd (.ite (.ite h.setTd h) h.setTd)
theorem State.Bytes.setRate {x : Int × Nat} (h : s.Bytes P) : (s.setRate x).Bytes P := by
  unfold State.setRate
  extract_lets _ _ s1 s2 s3
  have h1 : s1.Bytes P := .ite h.opsecNow h
  have h2 : s2.Bytes P := .ite h1.set1 h1
  have h3 : s3.Bytes P := h2.put.put
  exact .ite h3.put h3
theorem State.Bytes.setY {d : Nat} {y : Int × Nat} (h : s.Bytes P) : (s.setY d y).Bytes P := h.upDom.put
theorem State.Bytes.switchDomain {d : Nat} (h : s.Bytes P) : (s.switchDomain d).Bytes P :=
  .ite h (.showTimeOk (.set1 (.set1 (.put (.ite h.setY.setY.upDom h.setY.setY.upDom.setRate)))))
theorem State.Bytes.domainReturn (h : s.Bytes P) : s.domainReturn.Bytes P := .ite h (.ite h h.switchDomain)
theorem State.Bytes.holdoverAll (h : s.Bytes P) : s.holdoverAll.Bytes P := .foldl h (fun _ _ hx => .ite hx.setTd hx)
theorem State.Bytes.servoHold {on : Bool} (h : s.Bytes P) : (s.servoHold on).Bytes P := h.put.tdEnable.tdEnable
theorem State.Bytes.selectMaster {d : Nat} (h : s.Bytes P) : (s.selectMaster d).Bytes P := by
  unfold State.selectMaster
  split
  · exact h.clr
  · extract_lets moved s1 s2 s3 s4 s5 s6 s7 s8 s9
    have h7 : s7.Bytes P := h.put.set1.put.put.put.put.put.put
    have h9 : s9.Bytes P := .upDom (.ite h7 h7.put.set1)
    exact .ite (.ite h9.setTd.setTd h9.setTd) (.ite h9.set1.showTimeOk h9)
theorem State.Bytes.tdConfig {d : Nat} (h : s.Bytes P) : (s.tdConfig d).Bytes P := .ite h.tdEnable.selectMaster h.tdEnable
theorem State.Bytes.ttRequest {k : Nat} (h : s.Bytes P) : (s.ttRequest k).Bytes P := h.upTrig

/-! ### Machine/Twin -/

theorem State.Bytes.joinFail {code : Nat} (h : s.Bytes P) : (s.joinFail code).Bytes P :=
  h.put.set1.upTwn.clr.showTimeOk.showAllLive
theorem State.Bytes.joinCrcs {u : Nat} (h : s.Bytes P) : (s.joinCrcs u).Bytes P := .foldl h (fun _ _ hx => hx.twSend)
theorem State.Bytes.joinAsk {full : Bool} {units : List Nat} (h : s.Bytes P) : (s.joinAsk full units).Bytes P :=
  .twSend (.ite h.upTwn (.foldl h.upTwn (fun _ _ hx => hx.joinCrcs)))
theorem State.Bytes.joinLanes (h : s.Bytes P) : s.joinLanes.Bytes P := by
  unfold State.joinLanes
  split
  exacts [.ite h (.ite h.joinFail (.ite h.upTwn h)), h]
theorem State.Bytes.joinTimed (h : s.Bytes P) : s.joinTimed.Bytes P := by
  unfold State.joinTimed
  split
  exacts [.ite h.upTwn.joinAsk h, h]
theorem State.Bytes.joinStart (h : s.Bytes P) : s.joinStart.Bytes P := by
  unfold State.joinStart
  split
  exacts [h, .ite h (.ite h.joinFail (.ite h.joinFail h.clr.put.upTwn.joinTimed))]
theorem State.Bytes.joinComplete (h : s.Bytes P) : s.joinComplete.Bytes P := 
  .set1 (.fsRelease (.setTwState (.foldl h.upTwn fun _ _ hx => hx.clr)))
theorem State.Bytes.oneJoin {u : Nat} (h : s.Bytes P) : (s.oneJoin u).Bytes P := h.upTwn.joinAsk
theorem State.Bytes.oneJoinLate {u : Nat} (h : s.Bytes P) : (s.oneJoinLate u).Bytes P := .ite h.put.set1.oneJoin h
theorem State.Bytes.joinTimeout (h : s.Bytes P) : s.joinTimeout.Bytes P := by
  unfold State.joinTimeout
  split
  · split
    exacts [.ite h.joinFail h, h]
  · exact .foldl h (fun _ _ hy => hy.oneJoinLate)
theorem State.Bytes.unmuteGroup {g : Nat} (h : s.Bytes P) : (s.unmuteGroup g).Bytes P :=
  .foldl h (fun _ _ hx => hx.unmute.unmute)
theorem State.Bytes.unmuteCarried (h : s.Bytes P) : s.unmuteCarried.Bytes P := .foldl h (fun _ _ hx => hx.unmuteGroup)
theorem State.Bytes.tryRelease (h : s.Bytes P) : s.tryRelease.Bytes P := by
  unfold State.tryRelease
  refine .ite h ?_
  refine .ite h.setTwState.set1.unmuteCarried.showCarry ?_
  refine .ite ?_ ?_
  · refine .showCarry ?_
    refine .foldl ?_ fun _ _ h4 => ?_
    · exact h
    · split
      exacts [.ite h4 (.unmuteGroup (.foldl h4 (fun _ _ h6 => h6.unmute))), h4]
  · exact h
theorem State.Bytes.sendItems {l : List JoinItem} (h : s.Bytes P) : (s.sendItems l).Bytes P :=
  .foldl h (fun _ _ hx => hx.twSend.upTwn)
theorem State.Bytes.blockKnown {b : Nat × Nat} (h : s.Bytes P) : (s.blockKnown b).Bytes P := h.upTwn
theorem State.Bytes.sendBlock {b : Nat × Nat} (h : s.Bytes P) : (s.sendBlock b).Bytes P := h.sendItems.blockKnown
theorem State.Bytes.serveReset (h : s.Bytes P) : s.serveReset.Bytes P := by
  unfold State.serveReset
  split
  exacts [.ite h.twSend.with_scr h.twSend, h]
theorem State.Bytes.serveJoin {full : Bool} {units : List Nat} (h : s.Bytes P) : (s.serveJoin full units).Bytes P := by
  unfold State.serveJoin
  extract_lets s1 s2 s3
  have h1 : s1.Bytes P := h.upTwn
  have h2 : s2.Bytes P := .ite h1.serveReset h1
  have h3 : s3.Bytes P := .ite (.foldl h2 (fun _ _ hy => hy.sendBlock)) h2
  exact .ite h h3.twSend.upTwn
theorem State.Bytes.joinRound {n : Nat} (h : s.Bytes canonical) : (s.joinRound n).Bytes canonical :=
  .ite h (.upTwn (.twSend (.sendItems (.foldl h (fun _ _ hx => hx.sendBlock)))))
theorem State.Bytes.runEndAll {n ce : Nat} (h : s.Bytes canonical) : (s.runEndAll n ce).Bytes canonical :=
  .tryRelease (.ite (.joinRound (.moveBoundary (.runEnd (.ite h.bump h)))) (.moveBoundary (.runEnd (.ite h.bump h))))
theorem State.Bytes.joinLost (h : s.Bytes P) : s.joinLost.Bytes P := .ite h.joinFail h.put.set1.joinAsk
theorem State.Bytes.joinBulk {n : Nat} (h : s.Bytes P) : (s.joinBulk n).Bytes P := .ite h.upTwn h.upTwn.joinLost
theorem State.Bytes.joinFinal {u x n : Nat} (h : s.Bytes P) : (s.joinFinal u x n).Bytes P := by
  unfold State.joinFinal
  extract_lets _ _ s1 _ s2 s3 s4 s5 s6
  have h1 : s1.Bytes P := h.upTwn
  have h2 : s2.Bytes P := h1.upTwn
  have h3 : s3.Bytes P := h2.upEng
  have h4 : s4.Bytes P := h3.clr.showLive
  have h5 : s5.Bytes P := h1.upTwn
  have h6 : s6.Bytes P := .ite h5 h5.joinCrcs
  exact .ite (.ite h4 (.ite h4.joinComplete h4)) h6.joinTimeout
theorem State.Bytes.joinPeriod {g period shadow : Nat} {loads : List (Nat × Nat × List (Nat × Nat))} {cnt : Nat} {anchor : Int}
    (h : s.Bytes P) : (s.joinPeriod g period shadow loads cnt anchor).Bytes P := by
  unfold State.joinPeriod
  extract_lets s1 s2 s3 _ s4 _ _
  have h1 : s1.Bytes P := h.put
  have h2 : s2.Bytes P := h1.upGroup
  have h3 : s3.Bytes P := h2.put.put
  have h4 : s4.Bytes P := h3.put
  split
  exacts [h4, .ite h4.upGroup h4.startPeriods]
theorem State.Bytes.joinApply {a : JoinItem} (h : s.Bytes P) : (s.joinApply a).Bytes P := by
  unfold State.joinApply
  split
  exacts [.ite h.joinPeriod h, .ite h.put.put h, .ite h.put h, h.put, .ite h.put h, h]
theorem State.Bytes.joinAtX (h : s.Bytes P) : s.joinAtX.Bytes P := .ite h (.foldl h.upTwn (fun _ _ hx => hx.joinApply))
theorem State.Bytes.joinTake {i : JoinItem} (h : s.Bytes canonical) : (s.joinTake i).Bytes canonical := by
  unfold State.joinTake
  extract_lets _ s1
  have h1 : s1.Bytes canonical := .ite h.upTwn h
  split
  · exact .ite h1.writeBytes.upTwn.put h1
  · exact h1.upEng.put.put.put.put
  · exact h1.upTwn
  · exact h1.upTwn
  · exact h1.upTwn
  · exact h1.upTwn
  · exact h1.upTwn
  · exact .ite h1 h1.upTwn
  · exact .ite h1.joinFinal h1
  · exact h1.joinBulk
  · split
    exacts [.joinLanes (.foldl h1.upTwn (fun _ _ h3 => .ite h3 h3.trainStart)), h1]
  · exact h1
theorem State.Bytes.stateFrame {i : JoinItem} (h : s.Bytes canonical) : (s.stateFrame i).Bytes canonical := by
  unfold State.stateFrame
  split
  exacts [h.serveJoin, h.serveReset, .ite h (.ite h.sendBlock h.blockKnown), .ite h.joinTake h]
theorem State.Bytes.sheetStart {sheet : Nat} (h : s.Bytes P) : (s.sheetStart sheet).Bytes P := by
  unfold State.sheetStart
  extract_lets _ _ s1 s2 s3 s4
  have h1 : s1.Bytes P := h.setQuiesced
  have h2 : s2.Bytes P := h1.put
  have h3 : s3.Bytes P := by
    refine .ite h2.oneJoin ?_
    split
    · exact .ite (.unmuteGroup (.foldl h2 (fun _ _ h3 => h3.unmute))) (.foldl h2 (fun _ _ h3 => h3.unmute))
    · exact h2
  have h4 : s4.Bytes P := .ite h3 h3.engRelease
  split
  exacts [h4.updBlock, h4]
theorem State.Bytes.holdRecord {h : Held} (hs : s.Bytes P) : (s.holdRecord h).Bytes P := hs.upTwn
theorem State.Bytes.journalEffect {addr v : Nat} (h : s.Bytes canonical) : (s.journalEffect addr v).Bytes canonical := by
  unfold State.journalEffect
  split
  · exact .ite (.coefSwap (.ite h.recipeSwap h)) (.ite h.recipeSwap h)
  · split
    · exact h.put.put
    · split
      · exact h.stageWrite
      · refine .ite h.gload ?_
        split
        · exact h.shadowPeriod
        · split
          · exact .ite h.requestLoad h
          · split
            · exact h.put
            · split
              · exact h.put
              · split
                · exact h.shadowDuty
                · split
                  · exact .ite h.fmxClear h
                  · split
                    exacts [h.desatClear, h]
theorem State.Bytes.journalApply (h : s.Bytes canonical) : s.journalApply.Bytes canonical := by
  unfold State.journalApply
  refine .foldl ?_ fun _ _ h0 => ?_
  · exact h.upTwn
  · split
    exacts [h0.journalEffect, h0.filterWrite]
theorem State.Bytes.handoverRequest {reason : Nat} (h : s.Bytes P) : (s.handoverRequest reason).Bytes P :=
  .ite h (.ite h.set1 h.upTwn.put.setTwState)
theorem State.Bytes.leave (h : s.Bytes P) : s.leave.Bytes P := .ite h.goJoining.with_twn h

/-! ### Machine/Clock -/

theorem State.Bytes.showDll {was : Nat} (h : s.Bytes P) : (s.showDll was).Bytes P := .ite h.put h.put.clr
theorem State.Bytes.refChange (h : s.Bytes P) : s.refChange.Bytes P := h.put.put.bump.set1
theorem State.Bytes.acquire (h : s.Bytes P) : s.acquire.Bytes P :=
  .ite h (.ite (.put (.with_clk (.ite h.put h.refChange))) h)
theorem State.Bytes.acquireFail (h : s.Bytes P) : s.acquireFail.Bytes P := by
  unfold State.acquireFail
  extract_lets _ _ _ _ s1 s2 s3
  have h1 : s1.Bytes P := .put h.with_clk
  have h2 : s2.Bytes P := .ite h1.clr h1
  have h3 : s3.Bytes P := .ite h2.set1.hltReason h2
  exact h3.acquire
theorem State.Bytes.loseLock {cls : Nat} (h : s.Bytes P) : (s.loseLock cls).Bytes P := by
  have stopped {t : State} (ht : t.Bytes P) {c : Clock} : ({ t.stopLanes with clk := c } : State).Bytes P :=
    ht.stopLanes.with_clk
  refine .ite (.ite h h.acquireFail) (.ite h (.holdoverAll (.fsAssert
    (.with_clk (.ite (.hltReason (stopped ?_)) ?_)))))
  all_goals exact h.put.clr.set1.put.put.bump
theorem State.Bytes.referenceAbsent {r : Nat} (h : s.Bytes P) : (s.referenceAbsent r).Bytes P :=
  .ite h.clr.showDll (.ite (.ite h.clr.showDll.refChange.acquireFail h.clr.showDll.refChange) h.clr.showDll.loseLock)
theorem State.Bytes.smpStop (h : s.Bytes P) : s.smpStop.Bytes P := .foldl h.with_adcs fun _ _ hx => hx.calInterrupt
theorem State.Bytes.outputConfig {n v : Nat} (h : s.Bytes P) : (s.outputConfig n v).Bytes P := by
  unfold State.outputConfig
  extract_lets _ _ s1 s2 s3 _ s4 s5 _
  have h1 : s1.Bytes P := .ite h h.put
  have h2 : s2.Bytes P := .ite h1.stopLanes h1
  have h3 : s3.Bytes P := h2.put
  have h4 : s4.Bytes P := h3
  have h5 : s5.Bytes P := .foldl h4 (fun _ _ hy => hy.calInterrupt)
  exact .ite h.put (.ite (.ite h3.smpStop h3) (.ite h3 (.ite h4 (.ite h5.clr (.ite (.set1 h5.with_clk) h5)))))

/-! ### Machine/Pins -/

theorem State.Bytes.pad {n : Nat} {level : Bool} (h : s.Bytes P) : (s.pad n level).Bytes P := .ite h.put.orr h.put
theorem State.Bytes.padsDriven (h : s.Bytes P) : s.padsDriven.Bytes P := .foldl h (fun _ _ hx => .ite hx.pad hx)
theorem State.Bytes.showUart (h : s.Bytes P) : s.showUart.Bytes P := h.put.put
theorem State.Bytes.uartTx {b : Nat} (h : s.Bytes P) : (s.uartTx b).Bytes P := .ite h.set1 h.with_pins.showUart
theorem State.Bytes.uartRead (h : s.Bytes P) : s.uartRead.Bytes P := h.with_pins.showUart.dataResp
theorem State.Bytes.irqTake {k n : Nat} (h : s.Bytes P) : (s.irqTake k n).Bytes P := .dataResp (.ite h h.set1.put)
theorem State.Bytes.irqComplete {k num : Nat} (h : s.Bytes P) : (s.irqComplete k num).Bytes P := .ite h.clr.clr h

/-! ### Machine/Health -/

theorem State.Bytes.fwErr {err : Nat} (h : s.Bytes P) : (s.fwErr err).Bytes P := h.put.set1
theorem State.Bytes.fwFail {err : Nat} (h : s.Bytes P) : (s.fwFail err).Bytes P := h.fwErr.ldgPostFree
theorem State.Bytes.fwBegin {op slot err : Nat} {img : List Byte} (h : s.Bytes canonical) :
    (s.fwBegin op slot err img).Bytes canonical :=
  .ite h.set1.upHlt.writeLe h.set1.upHlt
theorem State.Bytes.fwProgram {slot : Nat} (h : s.Bytes canonical) : (s.fwProgram slot).Bytes canonical :=
  .ite h.fwFail (.ite h.fwFail (.ite h.fwFail h.fwBegin))
theorem State.Bytes.fwCheck {slot : Nat} (h : s.Bytes canonical) : (s.fwCheck slot).Bytes canonical :=
  .ite h.fwFail h.fwBegin
theorem State.Bytes.fwIsland {slot : Nat} (h : s.Bytes canonical) : (s.fwIsland slot).Bytes canonical :=
  .ite h.fwFail (.ite h.fwFail (.ite h.fwFail h.fwBegin))
theorem State.Bytes.fwEnd {same : Bool} {isle : Nat} (h : s.Bytes canonical) : (s.fwEnd same isle).Bytes canonical := by
  unfold State.fwEnd
  extract_lets s1
  have h1 : s1.Bytes canonical := h.clr.upHlt
  clear_value s1
  split
  · exact h
  · extract_lets _ _ s2 _ s3 _ s4
    have h2 : s2.Bytes canonical := .ite h1 h1.writeBytes
    have h3 : s3.Bytes canonical := .ite h2 h2.with_drawn.setByte
    have h4 : s4.Bytes canonical := h3.put.set1
    exact .ite (.ite h3.fwErr h3.fwFail) (.ite h4 h4.ldgPostFree)

/-! ### Machine/Sheets -/

theorem State.Bytes.upMld {f : Loader → Loader} (h : s.Bytes P) : (s.upMld f).Bytes P := h.with_mld
theorem State.Bytes.showQuiesced {sheet : Nat} (h : s.Bytes P) : (s.showQuiesced sheet).Bytes P :=
  .ite (.ite h.setQuiesced h) h.setQuiesced
theorem State.Bytes.sheetQuiesce {sheet : Nat} (h : s.Bytes P) : (s.sheetQuiesce sheet).Bytes P := by
  unfold State.sheetQuiesce
  extract_lets s1 s2 s3 _ s4
  have h2 : s2.Bytes P := h.put.upMld
  have h3 : s3.Bytes P := h2.put
  have h4 : s4.Bytes P := by
    dsimp only [s4]
    split
    · exact h2
    · exact .ite (.foldl (.ite h3 h3.with_twn) fun _ _ hx => hx.mute) h2.updBlock
  exact .ite h (.ite h2 h4.showLive.showCarry.showQuiesced)
theorem State.Bytes.releaseSheet {sheet : Nat} (h : s.Bytes P) : (s.releaseSheet sheet).Bytes P := by
  unfold State.releaseSheet
  refine .ite h.upMld ?_
  refine .ite h.upMld.put ?_
  refine .showCarry ?_
  refine .sheetStart ?_
  split
  exacts [.with_twn h.upMld, h.upMld]
theorem State.Bytes.sheetRelease {sheet : Nat} (h : s.Bytes P) : (s.sheetRelease sheet).Bytes P :=
  .ite h (.ite h.put.upMld h.put.releaseSheet)

/-! ### Machine/Watch -/

theorem State.Bytes.isleFs {on : Bool} (h : s.Bytes P) : (s.isleFs on).Bytes P := h.put.fsSet
theorem State.Bytes.isleReset (h : s.Bytes P) : s.isleReset.Bytes P := by
  unfold State.isleReset
  extract_lets s1
  have h1 : s1.Bytes P := .foldl h fun _ _ hx => hx.setWord
  clear_value s1
  exact .isleFs h1.upIsle
theorem State.Bytes.psStart {op : Nat} (h : s.Bytes P) : (s.psStart op).Bytes P := h.put.set1.clr
theorem State.Bytes.psRefuse {code : Nat} (h : s.Bytes P) : (s.psRefuse code).Bytes P := h.put.set1
theorem State.Bytes.psCheckCmd (h : s.Bytes P) : s.psCheckCmd.Bytes P := .ite h h.psStart
theorem State.Bytes.psStoreCmd (h : s.Bytes P) : s.psStoreCmd.Bytes P :=
  .ite h (.ite h.psRefuse (.ite h.psRefuse h.psStart))
theorem State.Bytes.psEnd {ok : Bool} (h : s.Bytes canonical) : (s.psEnd ok).Bytes canonical := by
  unfold State.psEnd
  extract_lets _ s1
  have h1 : s1.Bytes canonical := h.clr.clr
  clear_value s1
  refine .ite h (.ite ?_ (.ite h1.writeBytes.put.set1 h1.with_drawn.writeBytes.psRefuse))
  split
  exact h1.put.put.upIsle.set1

/-! ### Machine/RegCore -/

theorem State.Bytes.irqClaim {k : Nat} (h : s.Bytes P) : (s.irqClaim k).Bytes P := h.irqTake
theorem State.Bytes.clkEffect {off old v : Nat} (h : s.Bytes P) : (s.clkEffect off old v).Bytes P := by
  unfold State.clkEffect
  extract_lets _ s1 s2
  have h1 : s1.Bytes P := h.showDll
  have h2 : s2.Bytes P := .ite h (.ite (.ite h1.acquire h1) (.ite h.put.bump.set1.showDll h.loseLock))
  split
  · exact .ite h.acquire h
  · exact .foldl h2 (fun _ _ hz => .ite hz.referenceAbsent hz)
  · exact .ite h.outputConfig h
theorem State.Bytes.quiesceWrite {v : Nat} (h : s.Bytes P) : (s.quiesceWrite v).Bytes P :=
  .foldl h (fun _ _ hx => .ite hx.sheetQuiesce hx.sheetRelease)
theorem State.Bytes.adcEffect {a off old v : Nat} (h : s.Bytes P) : (s.adcEffect a off old v).Bytes P := by
  unfold State.adcEffect
  extract_lets s1 s2 s3
  have h1 : s1.Bytes P := .ite h.upAdc h
  have h2 : s2.Bytes P := .ite h1 h1.calInterrupt
  have h3 : s3.Bytes P := .ite h2 h2.calenChange
  split
  · exact .ite h3 (.ite h3.watchRequest h3.watchExitRequest)
  · exact h.lfsrWrite
  · exact h.presWrite
  · exact h.presWrite
  · exact h
theorem State.Bytes.ceEffect {n off old v : Nat} (h : s.Bytes P) : (s.ceEffect n off old v).Bytes P := by
  unfold State.ceEffect
  split
  · exact .showLive (.ite h.testFrom h)
  · exact .ite (.coefSwap (.ite h.recipeSwap h)) (.ite h.recipeSwap h)
  · exact .ite h.traceArm h.showTrace
  · exact .ite h.showTrace h
theorem State.Bytes.phtEffect {off : Nat} (h : s.Bytes P) : (s.phtEffect off).Bytes P := by
  unfold State.phtEffect
  refine .ite h.quadConfig ?_
  split
  exacts [.ite h (.ite h.trkConfig.upTrk.trkStop h.trkConfig), h]
theorem State.Bytes.channelConfig {ch : Nat} (h : s.Bytes P) : (s.channelConfig ch).Bytes P :=
  .reshape (.ite h.upChan.holdGroup h.upChan)
theorem State.Bytes.pwmEffect {off old v : Nat} (h : s.Bytes P) : (s.pwmEffect off old v).Bytes P := by
  unfold State.pwmEffect
  split
  · split
    · exact h.shadowPeriod
    · exact h.shadowPeriod
    · exact h.groupControl
    · exact .ite h h.phaseWrite
    · exact .ite h.requestLoad h
    · exact h.reshape
    · exact h.reshape
    · exact h.reshape
    · exact h
  · split
    · split
      exacts [h.channelConfig, h.shadowDuty, h.shadowDuty, h]
    · split
      exacts [h.reshape, h]
theorem State.Bytes.fmxEffect {off : Nat} (h : s.Bytes P) : (s.fmxEffect off).Bytes P := by
  unfold State.fmxEffect
  split
  · exact h.fltJudge
  · split
    exacts [.ite h.judgeGroup h, h]
theorem State.Bytes.lneEffect {off old v : Nat} (h : s.Bytes P) : (s.lneEffect off old v).Bytes P := by
  unfold State.lneEffect
  split
  exacts [.ite h (.ite (.trainStart (.ite h.laneDisable h)) (.ite h.laneDisable h)), h]
theorem State.Bytes.tsuEffect {off old v : Nat} (h : s.Bytes P) : (s.tsuEffect off old v).Bytes P := by
  unfold State.tsuEffect
  extract_lets s1 s2
  have h1 : s1.Bytes P := h.tdEnable.tdEnable
  have h2 : s2.Bytes P := .ite h1 h1.servoHold
  split
  · exact .ite h2 h2.domainReturn
  · exact h.tdConfig
  · exact h.tdConfig
  · split
    exacts [.ite h.ttRequest h, h]
theorem State.Bytes.twnEnable {was : Bool} (h : s.Bytes P) : (s.twnEnable was).Bytes P := by
  unfold State.twnEnable
  extract_lets _ s1
  have h1 : s1.Bytes P := h.unmuteAll.clr.upTwn
  exact .ite h (.ite h.goJoining h1.showTimeOk.setTwState.partnerStops.showCarry)
theorem State.Bytes.wchEffect {off v : Nat} (h : s.Bytes P) : (s.wchEffect off v).Bytes P := by
  unfold State.wchEffect
  split
  exacts [h.orr, .ite h.psCheckCmd (.ite h.psStoreCmd h), .ite h.upIsle h]
theorem State.Bytes.pinEffect {off v : Nat} (h : s.Bytes P) : (s.pinEffect off v).Bytes P := by
  unfold State.pinEffect
  split
  exacts [h.padsDriven, h.orr.padsDriven, h.andn.padsDriven, h.padsDriven, h]
theorem State.Bytes.regEffect {addr old v : Nat} (h : s.Bytes P) : (s.regEffect addr old v).Bytes P := by
  unfold State.regEffect
  split
  · exact h.clkEffect
  · exact .ite h.quiesceWrite h
  · exact h.adcEffect
  · dsimp only
    split
    · exact h.winConfig
    · split
      exacts [.ite h.fastEnable h, h]
  · exact h.ceEffect
  · exact h.phtEffect
  · exact h.pwmEffect
  · exact h.fmxEffect
  · exact h.lneEffect
  · exact h.tsuEffect
  · exact .ite h.twnEnable h
  · exact h.wchEffect
  · exact .ite h.upHlt h
  · exact h.pinEffect
  · exact h
theorem State.Bytes.storeWord {a v : Nat} {mld : Bool} (h : s.Bytes P) : (s.storeWord a v mld).1.Bytes P := by
  unfold State.storeWord; dsimp only
  split
  · exact h
  · exact .ite_fst h.setWord.regEffect (.ite_fst h.setWord h.setWord.regEffect)

/-! ### Machine/Glean -/

theorem State.Bytes.rangeCheck {c addr n : Nat} {write : Bool} (h : s.Bytes P) :
    (s.rangeCheck c addr n write).1.Bytes P :=
  .ite_fst h (.ite_fst h (.ite_fst (.ite_fst h (.ite_fst h h.bankViol)) (.ite_fst h (.ite_fst h (.ite_fst h h)))))
theorem State.Bytes.gleanRows {ue ce : Option Nat} {addr n : Nat} (h : s.Bytes canonical) :
    (s.gleanRows ue ce addr n).1.Bytes canonical := by
  unfold State.gleanRows; dsimp only
  split
  · exact h.l2Passed.rowRead
  · split
    exacts [h.l2Passed.rowRead, h.l2Passed]
theorem State.Bytes.descEnd {c ctl next : Nat} (h : s.Bytes P) : (s.descEnd c ctl next).Bytes P := by
  unfold State.descEnd
  extract_lets s1 s2
  have h1 : s1.Bytes P := h.bumpWrap.setGleanDesc
  have h2 : s2.Bytes P := .ite h1.orr h1
  exact .ite h2.gleanTo h2.put
theorem State.Bytes.gleanFetch {c : Nat} {resume : Bool} {ue ce : Option Nat} (h : s.Bytes canonical) :
    (s.gleanFetch c resume ue ce).Bytes canonical := by
  have hr {t : State} (ht : t.Bytes canonical) : ((if resume then t else t.clr (R.GLN_GC_REM c)).setGleanDesc c none).Bytes canonical :=
    .setGleanDesc (.ite ht ht.clr)
  refine .ite (hr h.rangeCheck).gleanHalt ?_
  dsimp only
  split
  · next e => exact (hr (h.rangeCheck.gleanRows.of_fst e)).gleanHalt
  · next t e =>
    have ht : t.Bytes canonical := h.rangeCheck.gleanRows.of_fst e
    have hd {d : Option (Nat × Nat)} {a b r : Nat} : (if resume then t.setGleanDesc c d else (((t.setGleanDesc c d).put
      (R.GLN_GC_SRC c) a).put (R.GLN_GC_DST c) b).put (R.GLN_GC_REM c) r).Bytes canonical :=
      .ite ht.setGleanDesc ht.setGleanDesc.put.put.put
    exact .ite (hr ht).gleanHalt (.ite hd hd.descEnd)
theorem State.Bytes.gleanStart {c : Nat} {ue ce : Option Nat} (h : s.Bytes canonical) :
    (s.gleanStart c ue ce).Bytes canonical :=
  .ite h h.mailProgress.clr.clr.clr.put.gleanTo.gleanFetch
theorem State.Bytes.gleanResume {c : Nat} {ue ce : Option Nat} (h : s.Bytes canonical) :
    (s.gleanResume c ue ce).Bytes canonical :=
  .ite h h.mailProgress.clr.gleanTo.gleanFetch
theorem State.Bytes.gleanStop {c : Nat} (h : s.Bytes P) : (s.gleanStop c).Bytes P := .ite h (.gleanTo (.ite h.put h))

/-! ### Machine/Mould -/

theorem State.Bytes.showSlot {k : Nat} {ok : Bool} (h : s.Bytes P) : (s.showSlot k ok).Bytes P :=
  .ite h.put h.put.put.put.put
theorem State.Bytes.showInUse (h : s.Bytes P) : s.showInUse.Bytes P := .foldl h (fun _ _ hx => hx.put)
theorem State.Bytes.bankRecord {v : Nat} (h : s.Bytes canonical) : (s.bankRecord v).Bytes canonical := by
  unfold State.bankRecord
  split
  exacts [h.bankRelease.bankFree, h.bankClaim, h.bankGrant, h.bankGrant]
theorem State.Bytes.applyRec {banks psOk : Bool} {r : Rec} (h : s.Bytes canonical) :
    (s.applyRec banks psOk r).Bytes canonical :=
  .ite (.ite h.bankRecord h) (.ite h.ldgClrWrite.with_resp (.ite h.storeWord.psEnd h.storeWord))
theorem State.Bytes.applySect {img : List Byte} {banks psOk : Bool} {x : Sect} (h : s.Bytes canonical) :
    (s.applySect img banks psOk x).Bytes canonical := by
  unfold State.applySect
  split
  · exact .foldl h (fun _ _ hy => hy.applyRec)
  · exact h.fillZero.writeBytes
  · exact h.fillZero.writeBytes
  · exact h.writeBytes
theorem State.Bytes.ownSheet {img : List Byte} {sheet : Nat} (h : s.Bytes P) : (s.ownSheet img sheet).Bytes P := h.upMld
theorem State.Bytes.unloadSheet {sheet : Nat} (h : s.Bytes P) : (s.unloadSheet sheet).Bytes P := h.clr.put.upMld
theorem State.Bytes.applySheet {img : List Byte} {slot sheet : Nat} {banks psOk : Bool} (h : s.Bytes canonical) :
    (s.applySheet img slot sheet banks psOk).Bytes canonical :=
  .refreshPaired (.bump (.set1 (.put (.put (.foldl h.ownSheet (fun _ _ hx => hx.applySect))))))
theorem State.Bytes.loadEnd (h : s.Bytes P) : s.loadEnd.Bytes P := by
  unfold State.loadEnd
  extract_lets s1 s2
  have h1 : s1.Bytes P := .foldl h (fun _ _ hy => hy.updBlock.judgeGroup)
  have h2 : s2.Bytes P := .foldl h1 (fun _ _ hy => .ite hy.showQuiesced hy.setQuiesced)
  exact h2.showInUse
theorem State.Bytes.loadImage {slot : Nat} {psOk : Bool} (h : s.Bytes canonical) :
    (s.loadImage slot psOk).Bytes canonical :=
  .settleLanes (.loadEnd (.put (.foldl h (fun _ _ hx => .ite hx (.ite hx.set1 hx.applySheet)))))
theorem State.Bytes.resetWordTo {addr : Nat} (h : s.Bytes P) : (s.resetWordTo addr).Bytes P := by
  unfold State.resetWordTo
  split
  exacts [h, .ite h (.ite h.storeWord h.storeWord.setWord)]
theorem State.Bytes.reloadMove {sheet : Nat} (h : s.Bytes P) : (s.reloadMove sheet).Bytes P := .ite h.carry.clr.upEng h
theorem State.Bytes.resetEngine {sheet : Nat} (h : s.Bytes canonical) : (s.resetEngine sheet).Bytes canonical :=
  h.fillZero.upEng.clr.clr.clr.showLive.fsRelease.testFrom
theorem State.Bytes.reloadSheet {img : List Byte} {slot sheet : Nat} {banks psOk : Bool} (h : s.Bytes canonical) :
    (s.reloadSheet img slot sheet banks psOk).Bytes canonical := by
  unfold State.reloadSheet
  extract_lets s1 _ _ s2 s3 s4 s5 s6
  have h2 : s2.Bytes canonical := .foldl h.reloadMove fun _ _ hx => hx.resetWordTo
  have h3 : s3.Bytes canonical := .ite h2.resetEngine h2
  have h4 : s4.Bytes canonical := by
    dsimp only [s4]
    split
    exacts [h3.groupFollow, h3]
  have h6 : s6.Bytes canonical := .applySheet (.foldl h4 fun _ _ hx => hx.fillZero)
  exact .settleLanes (.showInUse (.foldl h6 fun _ _ hx => hx.updBlock.judgeGroup))
theorem State.Bytes.mldReport {op slot code sheet off : Nat} (h : s.Bytes P) :
    (s.mldReport op slot code sheet off).Bytes P := by
  unfold State.mldReport
  extract_lets s1 s2 s3
  have h1 : s1.Bytes P := h.put.put
  have h2 : s2.Bytes P := .ite h1 h1.put
  have h3 : s3.Bytes P := h2.set1
  exact .ite h3 h3.ldgPostFree
theorem State.Bytes.mldBegin {c : State → MldCmd} (h : s.Bytes P) : (s.mldBegin c).Bytes P :=
  .ite h.put.put.set1.ldgPostFree h.set1.upMld
theorem State.Bytes.mldProgram {slot : Nat} (h : s.Bytes canonical) : (s.mldProgram slot).Bytes canonical :=
  .ite h.mldBegin.writeLe h.mldBegin
theorem State.Bytes.mldStartLoad {slot : Nat} (h : s.Bytes P) : (s.mldStartLoad slot).Bytes P :=
  .ite h.mldBegin.put h.mldBegin
theorem State.Bytes.mldApply {c : MldCmd} {readbackOk psOk : Bool} (h : s.Bytes canonical) :
    (s.mldApply c readbackOk psOk).Bytes canonical := by
  unfold State.mldApply
  split
  · exact .showSlot (.ite h.writeBytes h.writeBytes.with_drawn)
  · exact h.reloadSheet
  · exact h.writeLe
  · exact h.loadImage
  · exact h
theorem State.Bytes.mldEnd {readbackOk psOk : Bool} (h : s.Bytes canonical) :
    (s.mldEnd readbackOk psOk).Bytes canonical := by
  unfold State.mldEnd
  split
  · exact h
  · extract_lets s1 s2 _ s3
    have h3 : s3.Bytes canonical := .mldReport (.ite h.upMld.clr.mldApply h.upMld.clr)
    exact .ite h3.releaseSheet h3

/-! ### Machine/Power -/

theorem State.Bytes.ldgTorn (h : s.Bytes canonical) : s.ldgTorn.Bytes canonical := by
  unfold State.ldgTorn
  extract_lets s1
  have h1 : s1.Bytes canonical := h.with_drawn
  split
  exacts [h, .ite h (.ite h1.with_ldg h1.writeBytes)]
theorem State.Bytes.showKept (h : s.Bytes P) : s.showKept.Bytes P :=
  .ite (.fsAssert (.foldl h.put.put (fun _ _ hx => hx.ldgHead))) (.foldl h.put.put (fun _ _ hx => hx.ldgHead))
theorem State.Bytes.domainsReset {soft porst : Bool} (h : s.Bytes canonical) :
    (s.domainsReset soft porst).Bytes canonical := by
  exact .showKept (.put (.put (.foldl h fun _ _ hx => hx.put)))
theorem State.Bytes.opsecSettle {more : Nat} (h : s.Bytes P) : (s.opsecSettle more).Bytes P := .ite h.upPwr h.upPwr
theorem State.Bytes.tbZero {more : Nat} (h : s.Bytes P) : (s.tbZero more).Bytes P := h.opsecSettle
theorem State.Bytes.warmRegs (h : s.Bytes P) : s.warmRegs.Bytes P := h.with_regs
theorem State.Bytes.warmSources {o : State} (h : s.Bytes P) : (s.warmSources o).Bytes P :=
  .foldl h fun _ _ hx => .ite hx (.ite hx.put hx.put.fsRelease)
theorem State.Bytes.warmPulses {o : State} (h : s.Bytes P) : (s.warmPulses o).Bytes P := by
  have h0 : ({ s with
    chans := s.chans.zipIdx.map (fun (c, ch) => s.warmChan ch c), lanes := List.replicate 12 {}
    groups := s.groups.map fun (g : PwmGroup) => { holds := g.holds.filter (!·.mute), act := g.act } } : State).Bytes P :=
    h
  exact .foldl (.warmSources (.foldl (.foldl h0 fun _ _ hx => hx.put) fun _ _ hx =>
    .groupFollow (.ite hx.holdGroup.showGroup hx))) fun _ _ hx => .fltJudge hx
theorem State.Bytes.warmServos (h : s.Bytes P) : s.warmServos.Bytes P := 
  .foldl h fun _ _ hx => .ite hx.setTd hx
theorem State.Bytes.dropVolatile (h : s.Bytes canonical) : s.dropVolatile.Bytes canonical := swf_filter memDefault _ h
theorem State.Bytes.mpgFall {rails : Nat} (h : s.Bytes canonical) : (s.mpgFall rails).Bytes canonical :=
  .ite h (.domainsReset h.ldgTorn.tbZero.clr.put.dropVolatile.upPwr)
theorem State.Bytes.porstAssert (h : s.Bytes canonical) : s.porstAssert.Bytes canonical :=
  .isleReset (.domainsReset h.tbZero.upPwr)
theorem State.Bytes.recordFailure (h : s.Bytes P) : s.recordFailure.Bytes P := .clr (.ite h.put.put h.put)
theorem State.Bytes.startDue {cause : Nat} (h : s.Bytes P) : (s.startDue cause).Bytes P := h.upPwr
theorem State.Bytes.warmIgnored (h : s.Bytes P) : s.warmIgnored.Bytes P := h.bump.set1
theorem State.Bytes.warmCause {cause : Nat} (h : s.Bytes P) : (s.warmCause cause).Bytes P := .ite h.startDue h.warmIgnored

/-! ### Machine/Start -/

theorem State.Bytes.coldCause {cause : Nat} (h : s.Bytes P) : (s.coldCause cause).Bytes P :=
  .startDue (.ite h.recordFailure h)
theorem State.Bytes.cmdWarm {key : Nat} (h : s.Bytes P) : (s.cmdWarm key).Bytes P := .ite h.warmCause h
theorem State.Bytes.cmdCold {key : Nat} (h : s.Bytes P) : (s.cmdCold key).Bytes P := .ite h.coldCause h
theorem State.Bytes.bootOk (h : s.Bytes P) : s.bootOk.Bytes P := .ite h h.clr.put.upPwr
theorem State.Bytes.goldenClr {key : Nat} (h : s.Bytes P) : (s.goldenClr key).Bytes P := .ite h.clr h
theorem State.Bytes.kick (h : s.Bytes P) : s.kick.Bytes P := h.upPwr
theorem State.Bytes.bootSource (h : s.Bytes P) : s.bootSource.Bytes P :=
  .ite h.set1.put.put.hltReason (.ite h.set1.put.set1.put.hltReason h.put.put)
theorem State.Bytes.strapDefaults {ovr : Option Nat} (h : s.Bytes P) : (s.strapDefaults ovr).Bytes P := by
  unfold State.strapDefaults
  extract_lets s1 s2 s3
  have h1 : s1.Bytes P := h.put.put
  have h2 : s2.Bytes P := .foldl h1 (fun _ _ hy => hy.put)
  have h3 : s3.Bytes P := h2.tdEnable.tdEnable
  exact .ite h3.goJoining h3
theorem State.Bytes.startRun {cold : Bool} {cause began : Nat} {ended : List Nat} (h : s.Bytes P) :
    (s.startRun cold cause began ended).Bytes P := by
  unfold State.startRun
  extract_lets s1
  have h1 : s1.Bytes P := h.put.put
  exact h1.upPwr
theorem State.Bytes.coldStart {straps : Nat} (h : s.Bytes canonical) : (s.coldStart straps).Bytes canonical := by
  unfold State.coldStart
  split
  · exact h
  · refine .ite h (.set1 (.bootSource ?_))
    have started {c : Bool} {n m : Nat} {l : List Nat} {o : Option Nat} {x : State} (hx : x.Bytes canonical) :
        ((x.startRun c n m l).strapDefaults o).Bytes canonical := hx.startRun.strapDefaults
    split
    · exact .set1 (.ldgPost (started (.ite h.opsecSettle.domainsReset.put.put h.opsecSettle.domainsReset)))
    · exact started (.ite h.opsecSettle.domainsReset.put.put h.opsecSettle.domainsReset)
theorem State.Bytes.leaveHold (h : s.Bytes P) : s.leaveHold.Bytes P :=
  .settleLanes (.foldl h.showKept.fsSet (fun _ _ hx => hx.fltJudge))
theorem State.Bytes.stepFail {step : Nat} (h : s.Bytes P) : (s.stepFail step).Bytes P := by
  unfold State.stepFail
  split
  exacts [h, .ite h.put.recordFailure.startDue h.put.coldCause]
theorem State.Bytes.marchEnd {fails : List (Nat × Nat)} (h : s.Bytes canonical) : (s.marchEnd fails).Bytes canonical := by
  unfold State.marchEnd
  refine .foldl ?_ fun _ _ h0 => ?_
  · exact h.fillZero.fillZero.fillZero
  · refine .ite h0 ?_
    split
    exacts [h0.put.set1, h0.set1.hltReason]
theorem State.Bytes.fwLoad {img : List Byte} (h : s.Bytes canonical) : (s.fwLoad img).Bytes canonical := by
  unfold State.fwLoad
  extract_lets a body
  clear_value a body
  exact h.writeBytes.upPwr
theorem State.Bytes.fwStep {cold : Bool} {img : List Byte} (h : s.Bytes canonical) :
    (s.fwStep cold img).1.Bytes canonical := by
  refine .ite_fst ?_ ?_
  · split <;> exact h
  · exact .ite_fst (.ite_fst h.fwLoad h) (.ite_fst (.ite_fst h.fwLoad h) (.ite_fst h.fwLoad
      (.ite_fst h.put.set1 (.ite_fst h.put.fwLoad h))))
theorem State.Bytes.foreground {cal : List (Int × Int × Int × Int)} (h : s.Bytes P) : (s.foreground cal).Bytes P := by
  unfold State.foreground
  refine .foldl ?_ fun _ _ h0 => ?_
  · exact h
  · refine .calRestart ?_
    refine .upAdc ?_
    refine .set1 ?_
    refine .foldl ?_ fun _ _ h4 => ?_
    · exact h0.put
    · split
      exact .ite h4.calStore (.ite h4 h4.retire)
theorem State.Bytes.mouldStep {psOk : Bool} (h : s.Bytes canonical) : (s.mouldStep psOk).Bytes canonical := by
  unfold State.mouldStep
  dsimp only
  split
  · exact .ldgPostFree (.loadImage (.clr (.foldl h (fun _ _ hy => hy.showSlot))))
  · exact .loadEnd (.put (.clr (.foldl h (fun _ _ hy => hy.showSlot))))
theorem State.Bytes.mouldKeep {psOk : Bool} (h : s.Bytes canonical) : (s.mouldKeep psOk).Bytes canonical := by
  unfold State.mouldKeep
  extract_lets _ _ s1 s2
  have h1 : s1.Bytes canonical := h.clr
  have h2 : s2.Bytes canonical := .foldl h1 fun _ _ hx => hx.showSlot
  clear_value s2
  refine .ite h1 ?_
  split
  · have emptied {l : List Nat} : (l.foldl (fun s n => s.unloadSheet n) s2).refreshPaired.Bytes canonical :=
      .refreshPaired (.foldl h2 fun _ _ hx => hx.unloadSheet)
    exact .loadEnd (.ite emptied.put emptied)
  · refine .ldgPostFree (.loadEnd (.refreshPaired (.foldl h2 fun _ _ hx => ?_)))
    exact .ite hx.unloadSheet (.ite hx.unloadSheet.set1 hx.reloadSheet)
theorem State.Bytes.trainAll (h : s.Bytes P) : s.trainAll.Bytes P := .foldl h (fun _ _ hx => .ite hx.mute.trainStart hx)
theorem State.Bytes.diagnoseAll (h : s.Bytes P) : s.diagnoseAll.Bytes P := .foldl h (fun _ _ hx => .ite hx.diagStart hx)
theorem State.Bytes.mouldBegins {cold : Bool} (h : s.Bytes P) : (s.mouldBegins cold).Bytes P := .ite h.set1.put h.set1
theorem State.Bytes.stepEnded {r : StartRun} {step : Nat} (h : s.Bytes P) : (s.stepEnded r step).Bytes P := by
  unfold State.stepEnded
  extract_lets _ s1 s2
  have h1 : s1.Bytes P := h.upPwr.put
  have h2 : s2.Bytes P := .ite h1.mouldBegins h1
  exact .ite h2.trainAll (.ite h2.diagnoseAll h2)
theorem State.Bytes.startStep {step : Nat} {ok : Bool} {f : StepFound} (h : s.Bytes canonical) :
    (s.startStep step ok f).Bytes canonical := by
  unfold State.startStep
  split
  · exact h
  · refine .ite h ?_
    refine .ite h.stepFail ?_
    refine .ite h ?_
    split
    · exact h.put.put.stepEnded
    · exact h.marchEnd.stepEnded
    · exact .stepEnded (.ite h.hltReason h)
    · exact .ite h.fwStep.stepEnded (.ite h.fwStep.stepFail h.fwStep)
    · exact .stepEnded (.ite h.foreground (.foldl h (fun _ _ h5 => h5.calRestart)))
    · exact .stepEnded (.ite h.mouldStep h.mouldKeep)
    · exact h.stepEnded

/-! ### Machine/RegWrite -/

theorem State.Bytes.pwrCmd {v : Nat} (h : s.Bytes P) : (s.pwrCmd v).Bytes P := by
  unfold State.pwrCmd
  extract_lets _ s1 s2 s3
  have h1 : s1.Bytes P := .ite h.bootOk h
  have h2 : s2.Bytes P := .ite h1.goldenClr h1
  have h3 : s3.Bytes P := .ite h2.kick h2
  exact .ite h3.cmdCold (.ite h3.cmdWarm h3)
theorem State.Bytes.mldCmdWrite {v : Nat} (h : s.Bytes canonical) : (s.mldCmdWrite v).Bytes canonical := by
  unfold State.mldCmdWrite
  split
  exacts [h.mldProgram, h.mldBegin, h.mldBegin, h.mldBegin, h.mldStartLoad, h]
theorem State.Bytes.bnkCmdWrite {v : Nat} (h : s.Bytes P) : (s.bnkCmdWrite v).Bytes P := by
  unfold State.bnkCmdWrite
  split
  exacts [h.bankRelease, h.bankClaim, h.bankGrant, h.bankGrant, h.bankRepair, h]
theorem State.Bytes.cmnCmdWrite {v : Nat} (h : s.Bytes canonical) : (s.cmnCmdWrite v).Bytes canonical := by
  unfold State.cmnCmdWrite
  split
  · exact h.commonsCmd (fun _ hy => hy.commonsRead)
  · exact h.commonsCmd (fun _ hy => hy.commonsPin)
  · exact h.commonsCmd (fun _ hy => hy.commonsPin)
  · exact h.commonsCmd (fun _ hy => hy.commonsDelete)
  · exact h.commonsCmd (fun _ hy => hy.commonsPreset)
  · exact h
theorem State.Bytes.twnCmdWrite {v : Nat} (h : s.Bytes P) : (s.twnCmdWrite v).Bytes P := by
  unfold State.twnCmdWrite
  extract_lets s1 s2
  have h1 : s1.Bytes P := .ite h.handoverRequest h
  have h2 : s2.Bytes P := .ite h1.joinStart h1
  exact .ite h2.leave h2
theorem State.Bytes.fwCmdWrite {v : Nat} (h : s.Bytes canonical) : (s.fwCmdWrite v).Bytes canonical := by
  unfold State.fwCmdWrite
  split
  exacts [h.fwProgram, h.fwCheck, h.fwIsland, h]
theorem State.Bytes.ldgPortCmd {p v : Nat} (h : s.Bytes P) : (s.ldgPortCmd p v).Bytes P := by
  unfold State.ldgPortCmd
  split
  · split
    exacts [h.clr.set1, h.clr.cursorCmd, h.clr.cursorCmd, h.clr.cursorCmd, h.clr]
  · split
    exacts [h.set1, h.cursorCmd, h.cursorCmd, h.cursorCmd, h]
theorem State.Bytes.glnCmdWrite {c v : Nat} (h : s.Bytes canonical) : (s.glnCmdWrite c v).Bytes canonical := by
  unfold State.glnCmdWrite
  extract_lets s1 s2
  have h1 : s1.Bytes canonical := .ite h.gleanStart h
  have h2 : s2.Bytes canonical := .ite h1.gleanResume h1
  exact .ite h2.gleanStop h2
theorem State.Bytes.adcTcmdWrite {a v : Nat} (h : s.Bytes P) : (s.adcTcmdWrite a v).Bytes P :=
  .ite (.testAbort (.ite h.testStart h)) (.ite h.testStart h)
theorem State.Bytes.ceCmdWrite {n v : Nat} (h : s.Bytes P) : (s.ceCmdWrite n v).Bytes P :=
  .ite (.traceTrigger (.ite h.clr h)) (.ite h.clr h)
theorem State.Bytes.writeRefused (h : s.Bytes P) : s.writeRefused.Bytes P := h.bump.set1.errResp
theorem State.Bytes.writeRecord {who addr v : Nat} (h : s.Bytes P) : (s.writeRecord who addr v).Bytes P :=
  h.twSend.holdRecord.okResp
theorem State.Bytes.freshFor {addr : Nat} (h : s.Bytes P) : (s.freshFor addr).Bytes P := .ite h (.ite h.upToDate h)
theorem State.Bytes.laneRead {addr : Nat} (h : s.Bytes P) : (s.laneRead addr).Bytes P := by
  unfold State.laneRead
  split
  exacts [.ite h.upLane h, h]
theorem State.Bytes.wordRead {who addr : Nat} (h : s.Bytes P) : (s.wordRead who addr).Bytes P := by
  unfold State.wordRead
  split
  · dsimp only
    split
    exacts [h.freshFor.laneRead.with_holding.dataResp, h.freshFor.laneRead.tapRead]
  · split
    · dsimp only
      split
      exacts [h.freshFor.laneRead.with_holding.dataResp, h.freshFor.laneRead.snapRead]
    · split
      · dsimp only
        split
        exacts [h.freshFor.laneRead.with_holding.dataResp, h.freshFor.laneRead.irqClaim]
      · split
        · dsimp only
          split
          exacts [h.freshFor.laneRead.with_holding.dataResp, h.freshFor.laneRead.uartRead]
        · split
          · split
            · dsimp only
              split
              exacts [h.freshFor.laneRead.with_holding.dataResp, h.freshFor.laneRead.hold.dataResp]
            · dsimp only
              split
              exacts [h.freshFor.laneRead.with_holding.dataResp, h.freshFor.laneRead.dataResp]
          · dsimp only
            split
            exacts [h.freshFor.laneRead.with_holding.dataResp, h.freshFor.laneRead.dataResp]
theorem State.Bytes.registerRead {who addr size : Nat} (h : s.Bytes canonical) :
    (s.registerRead who addr size).Bytes canonical :=
  .ite h.bankServe (.ite h.errResp (.ite h.wordRead h.freshFor.dataResp))

/-! ### Machine/Burst -/

theorem State.Bytes.burstMoved {c ctl n : Nat} (h : s.Bytes P) : (s.burstMoved c ctl n).Bytes P :=
  .put (.put (.ite (.ite h h.put) (.put (.ite h h.put))))
theorem State.Bytes.burstRead {c addr n : Nat} (h : s.Bytes canonical) : (s.burstRead c addr n).1.Bytes canonical :=
  .ite_fst h.registerRead.with_resp h
theorem State.Bytes.partRows {addr n : Nat} (h : s.Bytes P) : (s.partRows addr n).Bytes P :=
  .foldl h (fun _ _ hx => hx.rowRead)

/-! ### Registers, bursts and warm starts -/

/-- Where a write is a command, memory stays canonical. -/
def State.BytesIn (o : Option State) : Prop := ∀ t ∈ o, t.Bytes canonical

theorem State.BytesIn.none : State.BytesIn none := fun _ ht => nomatch ht
theorem State.BytesIn.some (h : s.Bytes canonical) : State.BytesIn (some s) := fun _ ht => Option.mem_some.1 ht ▸ h
theorem State.BytesIn.ite {o p : Option State} {c : Prop} {_ : Decidable c} (h : State.BytesIn o) (h' : State.BytesIn p) :
    State.BytesIn (if c then o else p) := by split <;> assumption
theorem State.BytesIn.iteSome {c : Prop} {_ : Decidable c} (h : s.Bytes canonical) :
    State.BytesIn (if c then .some s else .none) :=
  .ite (.some h) .none
theorem State.BytesIn.map {o : Option Nat} {f : Nat → State} (h : ∀ i, (f i).Bytes canonical) :
    State.BytesIn (o.map f) := by
  cases o
  exacts [.none, .some (h _)]
theorem State.BytesIn.bind {o : Option Nat} {f : Nat → Option State} (h : ∀ i, State.BytesIn (f i)) :
    State.BytesIn (o.bind f) := by
  cases o
  exacts [.none, h _]
theorem State.Bytes.cmdWrite {addr v : Nat} (h : s.Bytes canonical) : State.BytesIn (s.cmdWrite addr v) := by
  unfold State.cmdWrite
  dsimp only
  split
  · exact .iteSome h.pwrCmd
  · exact .iteSome h.mldCmdWrite
  · exact .iteSome h.bnkCmdWrite
  · exact .bind fun _ => .iteSome h.glnCmdWrite
  · exact .iteSome h.adcTcmdWrite
  · exact .iteSome (.ite h.syncCommand h)
  · exact .ite (.some (.ite h.moveStart h)) (.ite (.some h.ceCmdWrite) (.iteSome h.stageWrite))
  · exact .iteSome h.gload
  · exact .map fun _ => .ite h.fmxClear h
  · refine .bind fun l => ?_
    split
    exacts [.some h.desatClear, .some (.ite h.diagStart h), .some (.ite h.configSend h), .none]
  · exact .ite (.some h.cmnCmdWrite) (.map fun _ => .ite h.upNet h)
  · exact .iteSome h.twnCmdWrite
  · exact .ite (.some h.ldgClrWrite) (.ite (.some (.ite h.ldgGo h)) (.map fun _ => h.ldgPortCmd))
  · exact .ite (.some (.ite h.hltReason h)) (.iteSome h.fwCmdWrite)
  · exact .map fun _ => h.irqComplete
  · exact .iteSome h.uartTx
  · exact .none
theorem State.Bytes.plainWrite {addr v : Nat} (h : s.Bytes canonical) : (s.plainWrite addr v).Bytes canonical := by
  unfold State.plainWrite
  refine .ite h.okResp (.ite h.errResp ?_)
  split
  next t e => exact h.okResp.cmdWrite t e
  next => exact .ite h.storeWord.okResp h.storeWord.errResp
theorem State.Bytes.wordWrite {who addr v : Nat} (h : s.Bytes canonical) : (s.wordWrite who addr v).Bytes canonical := by
  unfold State.wordWrite
  dsimp only
  have hs := h.freshFor (addr := addr)
  split
  · exact .ite hs.plainWrite (.ite hs.plainWrite.writeRefused hs.plainWrite.writeRecord.with_resp)
  · exact .ite hs.writeRefused (.ite hs.writeRecord hs.plainWrite)
theorem State.Bytes.registerWrite {who addr size v : Nat} (h : s.Bytes canonical) :
    (s.registerWrite who addr size v).Bytes canonical :=
  .ite h.bankServe (.ite h.errResp (.ite h.wordWrite (.ite h.freshFor.writeRefused
    (.ite h.freshFor.wordWrite.wordWrite.errResp h.freshFor.wordWrite.wordWrite))))
theorem State.Bytes.burstWrite {c addr : Nat} {bs : List Byte} (h : s.Bytes canonical) :
    (s.burstWrite c addr bs).1.Bytes canonical :=
  .ite_fst h.registerWrite.with_resp h.l2Passed.partRows.writeBytes
theorem State.Bytes.burst {c ctl next : Nat} {ue ce lost : Option Nat} (h : s.Bytes canonical) :
    (s.burst c ctl next ue ce lost).Bytes canonical := by
  have done {t : State} (ht : t.Bytes canonical) : (if t.is (R.GLN_GC_REM c) then t else t.descEnd c ctl next).Bytes canonical := .ite ht ht.descEnd
  unfold State.burst
  dsimp only
  have hs := h.rangeCheck (c := c) (addr := s.get (R.GLN_GC_SRC c)) (n := s.burstLen c ctl) (write := false)
  generalize s.rangeCheck c (s.get (R.GLN_GC_SRC c)) (s.burstLen c ctl) false = p1 at hs ⊢
  have hd := hs.rangeCheck (c := c) (addr := s.get (R.GLN_GC_DST c)) (n := s.burstLen c ctl) (write := true)
  generalize p1.1.rangeCheck c (s.get (R.GLN_GC_DST c)) (s.burstLen c ctl) true = p2 at hd ⊢
  refine .ite hs.gleanHalt (.ite hd.gleanHalt ?_)
  split
  next e => exact (hd.gleanRows.of_fst e).gleanHalt
  next e =>
    have hr := hd.gleanRows.of_fst e
    split
    next e => exact (hr.burstRead.of_fst e).gleanHalt
    next e =>
      have hb := hr.burstRead.of_fst e
      split
      · exact .ite (done hb.burstWrite.burstMoved) hb.burstWrite.writeBytes.writeLost.burstMoved.gleanHalt
      · split
        next e => exact (hb.burstWrite.of_fst e).gleanHalt
        next e => exact done (hb.burstWrite.of_fst e).burstMoved
theorem State.Bytes.gleanBurst {ue ce lost : Option Nat} (h : s.Bytes canonical) :
    (s.gleanBurst ue ce lost).Bytes canonical := by
  unfold State.gleanBurst
  dsimp only
  split
  · exact h.mailProgress
  · split
    exacts [h.mailProgress.upMst.gleanFetch, h.mailProgress.upMst.burst]
theorem State.Bytes.warmReset (h : s.Bytes P) : s.warmReset.Bytes P := by
  unfold State.warmReset
  extract_lets old s1 s2 s3 s4 s5 _ s6 s7 s8 s9 s10 s11
  have h5 : s5.Bytes P := .foldl h.opsecSettle.warmRegs.put.put.put.put.put fun _ _ hx => hx.set1
  clear_value s5
  have h6 : s6.Bytes P := h5
  have h7 : s7.Bytes P := .ite h6.put h6
  have h10 : s10.Bytes P := .foldl (.foldl h7.showKept.showUart.warmServos fun _ _ hx => hx.winConfig) fun _ _ hx => hx.trkConfig
  have h11 : s11.Bytes P := h10.quadConfig.warmPulses
  clear_value s11
  exact .foldl (.settleLanes (.loadEnd (.ite h11.goJoining h11))) fun _ _ hx => .ite hx.gleanHalt hx
theorem State.Bytes.wrstAssert (h : s.Bytes P) : s.wrstAssert.Bytes P := by
  unfold State.wrstAssert
  have hn := h.warmReset.upPwr (f := fun p => { p with wrst := true })
  refine .ite h.upPwr ?_
  dsimp only
  split
  exacts [hn, hn.upPwr.put]
theorem State.Bytes.warmStart (h : s.Bytes P) : s.warmStart.Bytes P := by
  unfold State.warmStart
  split
  · exact h
  · exact .ite h (.bump (.startRun (.ite h.leaveHold h.warmReset)))

end Sys2Proof.Machine
end

section
/-!
Every command keeps memory in its canonical form.
-/

namespace Sys2Proof.Machine

/-- Where an outcome is a next state, that state's memory is in canonical form. -/
def AnswersCanonical (o : Out) : Prop := ∀ s', o = .next s' → s'.Bytes canonical

section
variable {reach : List Part} {s n : State} {tb t : Nat} {f : State → State} {o : Out} {ok : Prop} {_ : Decidable ok}

/-! ### The shapes of a command's outcome -/

theorem State.Bytes.settle {P : List Host.Cell → Prop} (h : s.Bytes P) (hn : Part.mem ∈ reach → n.Bytes P) :
    (s.settle reach tb n).Bytes P := by
  by_cases hm : Part.mem ∈ reach
  · exact (hn hm).of_mem (State.settle_mem_in hm)
  · exact h.of_mem (State.settle_mem_out hm)

theorem State.Bytes.finish {P : List Host.Cell → Prop} (h : s.Bytes P) (hn : Part.mem ∈ reach → n.Bytes P) :
    (s.finish reach tb n).Bytes P := (h.settle hn).of_mem State.finish_mem

theorem AnswersCanonical.next (h : n.Bytes canonical) : AnswersCanonical (.next n) := fun _ e => Host.Outcome.next.inj e ▸ h

theorem AnswersCanonical.fault {x : Fault} : AnswersCanonical (.fault x) := fun _ e => nomatch e

variable (h : s.Bytes canonical) (hf : Part.mem ∈ reach → ∀ x : State, x.Bytes canonical → (f x).Bytes canonical)
include h hf

theorem AnswersCanonical.actHeld (he : o = actHeld reach t s f) : AnswersCanonical o :=
  he ▸ .next (h.finish fun hm => hf hm _ h)

theorem AnswersCanonical.act (he : o = act reach t s f) : AnswersCanonical o :=
  .actHeld h (fun hm => hf (s.reachHeld_subset _ hm)) he

omit hf in
theorem AnswersCanonical.actCore (he : o = actCore t s f) : AnswersCanonical o :=
  .act h (fun hm => absurd hm (by decide)) he

theorem AnswersCanonical.onUnit (he : o = onUnit reach ok t s f) : AnswersCanonical o := by
  by_cases hok : ok
  · exact .act h hf (he.trans (onUnit_pos hok ..))
  · exact (he.trans (onUnit_neg hok ..)) ▸ .fault

theorem AnswersCanonical.onUnitHeld (he : o = onUnitHeld reach ok t s f) : AnswersCanonical o := by
  by_cases hok : ok
  · exact .actHeld h hf (he.trans (onUnitHeld_pos hok ..))
  · exact (he.trans (if_neg hok)) ▸ .fault

/-- What follows a command on lanes leaves memory as it is. -/
theorem AnswersCanonical.laneAct (he : o = laneAct reach t s f) : AnswersCanonical o :=
  .act h (fun hm x hx => (hf hm x hx).of_beside (.followed (.refl _))) he

theorem AnswersCanonical.laneUnit (he : o = laneUnit reach ok t s f) : AnswersCanonical o :=
  .onUnit h (fun hm x hx => (hf hm x hx).of_beside (.followed (.refl _))) he

theorem AnswersCanonical.actReset {back : Bool} (he : o = actReset reach back t s f) : AnswersCanonical o :=
  he ▸ .next (h.settle fun hm => hf hm _ h)

theorem AnswersCanonical.onUnitTime (he : o = onUnitTime reach ok t s f) : AnswersCanonical o := by
  by_cases hok : ok
  · replace he := he.trans (onUnitTime_pos hok ..)
    cases hh : s.held
    · exact (he.trans (actTime_run hh ..)) ▸ .next (h.finish fun hm => hf hm _ h)
    · exact .act h (fun hm => absurd hm List.not_mem_nil) (he.trans (actTime_held hh ..))
  · exact (he.trans (if_neg hok)) ▸ .fault

omit hf in
theorem AnswersCanonical.opRow {k op : Nat} {f : State → Inst → State}
    (hf : Part.mem ∈ reach → ∀ (x : State) i, x.Bytes canonical → (f x i).Bytes canonical) (he : o = opRow reach t k op s f) :
    AnswersCanonical o := .onUnit h (fun hm _ hx => hx.runInst fun x i hx => hf hm x i hx) he

end

/-! ### The commands -/

/-- What any command answers from a state whose memory is in canonical form is in canonical form. -/
theorem exec_canonical (c : Instr) {s : State} (h : s.Bytes canonical) : AnswersCanonical (exec c s) := by
  cases c with
  | mldCheck | mldReload | mldWithdraw | mldStartLoad | sheetQuiesced | quiesceReadbackTimeout | calStep | calHandover
    | calStarvedTimeout | calenChange | lfsrWrite | presentationWrite | snapshotTrigger | snapshotDone | snapDataRead
    | tapValRead | testStart | testAbort | testSettleEnd | testMeanEnd | watchRequest | watchEnter | watchExitRequest
    | watchExit | coefSwapRequest | recipeSwapRequest | clrCycmax | trcTrig | traceArm | moveRequest | compareFire |
    loadallRequest | shadowWrite | diagTimeout | portLinkChange | forwardStart | txKick | announce | pdelayReqSend |
    pdelayReq | pdelayResp | pdelayTimeout | announceTimeout | syncTimeout | ttEnable | journalRunRecord |
    journalFilterRecord | twinLaneDown | discrepancyTimeout | safeOutputOff | outputTestPulse | safetyCopyTimeout |
    connectionWatchdogExpiry | safetyFrameSend | stop | referencePresent | outputConfigWrite | ledgerPost | cursorLoad
    | next | newest | oldest | clrOvr | cursorCopyDone | engineTestStarved | trackerPair | trackerTimeout |
    ampFilterExpiry | irqClaim | irqComplete | twinLaneUp | outputTestPulseEnd =>
    unfold exec
    exact .onUnit h (fun hm => absurd hm (by decide)) rfl
  | sheetQuiesce | sheetRelease | mainPathWord | fastWindowEnable | tickArrival | overrunLimit | recipeCheckDone |
    periodStart | groupEnable | groupLoad | fmxClear | edgeSend | executedLevelChange | timeFrameSend |
    statusFrameReceive | statusTimeout | qfullHoldEnd | desatClear | diagStart | trainStart | trainEnd | configSend |
    configTimeout | laneDisable | ttFire | checkpoint | checkpointTimeout | verdict | internalFault | referenceAbsent
    | lossOfLock | engineTestPiece =>
    unfold exec
    exact .laneUnit h (fun hm => absurd hm (by decide)) rfl
  | adcFrame | syncPinEdge | syncReset | phaseReset | syncOutputEdge | gload | ddEntryExpiry | supervisionFrame |
    beaconSend | commonsAging | read | pin | unpin | delete | preset | servoHold | domainReturn | journalWriteRecord |
    healthSend | nak | handover | join | autojoinStart | joinTimeout | handoverInstant | revertHoldoffExpiry |
    steerReturn | timeHandover | sinSample | inputTestPulse | srstStuck | check | store | safetyStopRequest |
    nativeSafetyFrame | nay2400SafetyFrame | release | claim | grant | revoke | repair | dllRealigned | pllLocked |
    smpRestart | powerFailWarning | powerFailClear | opsecSecond | vkaLow | startTimeout | confirmExpiry | go | rings
    | erase | temperatureSample | thermalExpiry | twinLinkReasonExpiry | req | quadratureStep | uartTxWrite |
    uartByteSent | uartReceive | uartRxRead | sdclkPresenceChange | vkaRecovery | tpOvercurrent | joinTimeExpiry |
    cmnCommandEnd =>
    unfold exec
    exact .act h (fun hm => absurd hm (by decide)) rfl
  | nop | emit =>
    unfold exec
    exact .opRow h (fun hm => absurd hm (by decide)) rfl
  | moveDone | verdictTimeout | health | linkLost | leave | joinWaitExpiry | handoverEnd | tbLimitExpiry |
    evaluationStep | readbackSample | resetAccept | sealSample | islandStartEnd | dllChangeover | pllChangeover |
    readyPoint | vddWReturn =>
    unfold exec
    exact .laneAct h (fun hm => absurd hm (by decide)) rfl
  | fltPinAsserted =>
    cases hh : s.held
    · exact .laneUnit h (fun hm => absurd hm (by decide)) (if_neg (by simp [hh]))
    · exact .onUnitHeld h (fun hm => absurd hm (by decide)) (if_pos hh)
  | syncMessage | followUp =>
    unfold exec
    exact .onUnitTime h (fun hm => absurd hm (by decide)) rfl
  | mpgRise | porstNRelease =>
    unfold exec
    exact .actReset h (fun hm => absurd hm (by decide)) rfl
  | wrstNRelease =>
    unfold exec
    exact .actHeld h (fun hm => absurd hm (by decide)) rfl
  | warm | cold | bootOk | goldenClr | kick | watchdogExpiry =>
    unfold exec
    exact .actCore h rfl
  | gpioEdge | jtagInstruction =>
    unfold exec
    exact .onUnitHeld h (fun hm => absurd hm (by decide)) rfl
  | registerWrite => exact .laneUnit h (fun _ _ h => h.registerWrite) (.refl (execRegisterWrite ..))
  | lowWordReadCapture => exact .laneUnit h (fun _ _ h => h.registerRead) (.refl (execLowWordReadCapture ..))
  | mldProgram => exact .onUnit h (fun _ _ h => h.mldProgram) (.refl (execMldProgram ..))
  | mldCommandEnd => exact .laneAct h (fun _ _ h => h.mldEnd) (.refl (execMldCommandEnd ..))
  | runStart => exact .laneUnit h (fun _ _ h => h.joinAtX.runStart) (.refl (execRunStart ..))
  | runEnd => exact .laneUnit h (fun _ _ h => h.runEndAll) (.refl (execRunEnd ..))
  | load => exact .opRow h (fun _ _ _ h => h.opLoad) (.refl (execLoad ..))
  | clarke => exact .opRow h (fun _ _ _ h => h.opClarke) (.refl (execClarke ..))
  | iclarke => exact .opRow h (fun _ _ _ h => h.opIclarke) (.refl (execIclarke ..))
  | park => exact .opRow h (fun _ _ _ h => h.opPark) (.refl (execPark ..))
  | ipark => exact .opRow h (fun _ _ _ h => h.opIpark) (.refl (execIpark ..))
  | angle => exact .opRow h (fun _ _ _ h => h.opAngle) (.refl (execAngle ..))
  | pi => exact .opRow h (fun _ _ _ h => h.opPi) (.refl (execPi ..))
  | res => exact .opRow h (fun _ _ _ h => h.opRes) (.refl (execRes ..))
  | matvec => exact .opRow h (fun _ _ _ h => h.opMatvec) (.refl (execMatvec ..))
  | obs => exact .opRow h (fun _ _ _ h => h.opObs) (.refl (execObs ..))
  | swing => exact .opRow h (fun _ _ _ h => h.opSwing) (.refl (execSwing ..))
  | droop => exact .opRow h (fun _ _ _ h => h.opDroop) (.refl (execDroop ..))
  | vimp => exact .opRow h (fun _ _ _ h => h.opVimp) (.refl (execVimp ..))
  | ilim => exact .opRow h (fun _ _ _ h => h.opIlim) (.refl (execIlim ..))
  | frt => exact .opRow h (fun _ _ _ h => h.opFrt) (.refl (execFrt ..))
  | ramp => exact .opRow h (fun _ _ _ h => h.opRamp) (.refl (execRamp ..))
  | lpf => exact .opRow h (fun _ _ _ h => h.opLpf) (.refl (execLpf ..))
  | limit => exact .opRow h (fun _ _ _ h => h.opLimit) (.refl (execLimit ..))
  | lut => exact .opRow h (fun _ _ _ h => h.opLut) (.refl (execLut ..))
  | power => exact .opRow h (fun _ _ _ h => h.opPower) (.refl (execPower ..))
  | rms => exact .opRow h (fun _ _ _ h => h.opRms) (.refl (execRms ..))
  | svm3l => exact .opRow h (fun _ _ _ h => h.opSvm3l) (.refl (execSvm3l ..))
  | select => exact .opRow h (fun _ _ _ h => h.opSelect) (.refl (execSelect ..))
  | compare => exact .opRow h (fun _ _ _ h => h.opCompare) (.refl (execCompare ..))
  | guard => exact .opRow h (fun _ _ _ h => h.opGuard) (.refl (execGuard ..))
  | sum => exact .opRow h (fun _ _ _ h => h.opSum) (.refl (execSum ..))
  | mul => exact .opRow h (fun _ _ _ h => h.opMul) (.refl (execMul ..))
  | mailboxWrite => exact .laneUnit h (fun _ _ h => h.runInst fun _ _ h => h.opMailWrite) (.refl (execMailboxWrite ..))
  | mailboxRead => exact .onUnit h (fun _ _ h => h.runInst fun _ _ h => h.opMailRead) (.refl (execMailboxRead ..))
  | event => exact .opRow h (fun _ _ _ h => h.opEvent) (.refl (execEvent ..))
  | trace => exact .opRow h (fun _ _ _ h => h.opTrace) (.refl (execTrace ..))
  | engineEccFault => exact .laneUnit h (fun _ _ h => h.eccFault.moveBoundary) (.refl (execEngineEccFault ..))
  | stageWrite => exact .onUnit h (fun _ _ h => h.stageWrite) (.refl (execStageWrite ..))
  | moveCopyEnd => exact .laneAct h (fun _ _ h => h.moveCopied) (.refl (execMoveCopyEnd ..))
  | frameReceive => exact .onUnit h (fun _ _ h => h.frameReceive) (.refl (execFrameReceive ..))
  | hostTxDescriptor => exact .onUnit h (fun _ _ h => h.hostTx) (.refl (execHostTxDescriptor ..))
  | egressTransmit => exact .onUnit h (fun _ _ h => h.egressSend) (.refl (execEgressTransmit ..))
  | transmitSlotFrame => exact .onUnit h (fun _ _ h => h.slotSend) (.refl (execTransmitSlotFrame ..))
  | journalApply => exact .laneAct h (fun _ _ h => h.journalApply) (.refl (execJournalApply ..))
  | stateFrame => exact .laneAct h (fun _ _ h => h.twinFrame fun _ h => h.stateFrame) (.refl (execStateFrame ..))
  | psOperationEnd => exact .act h (fun _ _ h => h.psEnd) (.refl (execPsOperationEnd ..))
  | bankAccess => exact .laneAct h (fun _ _ h => h.bankServe) (.refl (execBankAccess ..))
  | releaseDone => exact .act h (fun _ _ h => h.bankFree) (.refl (execReleaseDone ..))
  | sweeperStep => exact .act h (fun _ _ h => h.sweepStep) (.refl (execSweeperStep ..))
  | start => exact .onUnit h (fun _ _ h => h.gleanStart) (.refl (execStart ..))
  | resume => exact .onUnit h (fun _ _ h => h.gleanResume) (.refl (execResume ..))
  | gleanBurst => exact .laneAct h (fun _ _ h => h.gleanBurst) (.refl (execGleanBurst ..))
  | mpgFall => exact .actReset h (fun _ _ h => h.mpgFall) (.refl (execMpgFall ..))
  | porstNAssert => exact .actReset h (fun _ _ h => h.porstAssert) (.refl (execPorstNAssert ..))
  | wrstNAssert => exact .actReset h (fun _ _ h => h.wrstAssert) (.refl (execWrstNAssert ..))
  | coldStart => exact .actReset h (fun _ _ h => h.coldStart) (.refl (execColdStart ..))
  | warmStart => exact .actReset h (fun _ _ h => h.warmStart) (.refl (execWarmStart ..))
  | recordProgramDone => exact .act h (fun _ _ h => h.ldgProgram) (.refl (execRecordProgramDone ..))
  | eraseDone => exact .act h (fun _ _ h => h.ldgEraseDone) (.refl (execEraseDone ..))
  | program => exact .onUnit h (fun _ _ h => h.fwProgram) (.refl (execProgram ..))
  | fwCheck => exact .onUnit h (fun _ _ h => h.fwCheck) (.refl (execFwCheck ..))
  | programIsland => exact .onUnit h (fun _ _ h => h.fwIsland) (.refl (execProgramIsland ..))
  | fwCommandEnd => exact .act h (fun _ _ h => h.fwEnd) (.refl (execFwCommandEnd ..))
  | startStepEnd => exact .laneUnit h (fun _ _ h => h.startStep) (.refl (execStartStepEnd ..))

end Sys2Proof.Machine

open Sys2Proof Sys2Proof.Machine

/-- Settles O48: every command keeps the canonical form, and a bank access, which names no unit, answers a next state. -/
theorem everyCommandKeepsTheMemoryForm : Obligations.EveryCommandKeepsTheMemoryForm :=
  ⟨fun c _ s' h he => exec_canonical c h s' he, fun t a ecc rest s h wf => by
    obtain ⟨s', he, -⟩ := exec_completes (.bankAccess t a ecc rest) s wf
    exact ⟨s', he, exec_canonical _ h s' he⟩⟩
end

section
/-!
A sheet's quiesce is read at bit `sheet - 1` of MLD_QUIESCE (R41), and for sheet 0, which has
no quiesce bit, the subtraction stops at 0: what says that SH1 is quiesced also says it of SH0. `State.carries` (R259) asks it
of the sheet that owns a group. No image gives SH0 a group, but the statement speaks of every state: where SH0 owns one, a
SHEET_RELEASE of SH1 under RELOAD, which leaves SH1 quiesced, changes the carry mask.
-/

namespace Sys2Proof.Machine

/-- A device ACTIVE in a pair, where SH0 is loaded, paired and owns group 0, and SH1 is quiesced and under RELOAD. -/
def sheetZeroOwnsGroup : State :=
  { ((((State.reset.put R.MLD_QUIESCE 1).set1 (R.MLD_SH_SRC_LOADED 0)).set1 R.TWN_CTL_EN).put R.TWN_STAT_STATE twActive).put
      R.TWN_SHEETS_PAIRED 1 with
    mld := { own := [{ kind := .group, idx := 0, sheet := 0 }]
             cmd := some { op := 3, slot := 0, sheet := 1, code := 0, errSheet := 0, off := 0, img := [] } } }

/-- SH1's quiesce bit counts for SH0 too, so that group 0 is not carried, and the mask shown says so. -/
theorem carry_sheetZeroOwnsGroup : sheetZeroOwnsGroup.get R.TWN_SHEETS_CARRY = 0 := by decide +kernel

/-- The release clears that bit, and the mask shown takes group 0 in. -/
theorem carry_sheetRelease_sheetZeroOwnsGroup {s' : State} (he : exec (.sheetRelease 0 1) sheetZeroOwnsGroup = .next s') :
    s'.get R.TWN_SHEETS_CARRY = 1 := by
  have hx : exec (.sheetRelease 0 1) sheetZeroOwnsGroup = laneUnit [.mld, .ce, .pwm, .fmx, .lne, .twn] (1 < 12) 0
    sheetZeroOwnsGroup fun s => s.sheetRelease 1 := rfl
  rw [hx, laneUnit_pos (by decide), laneAct_eq, act_run (by decide +kernel)] at he
  cases he
  rw [State.finish_get_apart _ (by decide) (by decide), State.settle_get_in (by decide) (by decide)]
  decide +kernel

end Sys2Proof.Machine

open Sys2Proof Sys2Proof.Machine

/-- Refutes O15: with group 0 owned by SH0, the release of SH1 under RELOAD writes TWN_SHEETS.CARRY, which the clause for such
a release does not list. -/
theorem not_mouldCommandsAndSheetsAtRest : ¬ Obligations.MouldCommandsAndSheetsAtRest := by
  unfold Obligations.MouldCommandsAndSheetsAtRest
  intro h
  obtain ⟨-, -, hsheet⟩ := h 0 sheetZeroOwnsGroup rfl
  obtain ⟨-, -, -, -, hrelease⟩ := hsheet 1 (by decide)
  obtain ⟨-, hreload, -⟩ := hrelease (by decide) (by decide +kernel)
  obtain ⟨s', he, hp⟩ := hreload _ rfl rfl rfl
  obtain ⟨-, hkeeps⟩ := hp (by decide +kernel)
  have hsame := hkeeps.get R.TWN_SHEETS_CARRY (by decide) (by decide)
  rw [carry_sheetRelease_sheetZeroOwnsGroup he, carry_sheetZeroOwnsGroup] at hsame
  exact absurd hsame (by decide)
end

section
/-!
The clause for a failed residue check (R366) bounds no input of the frame whose words come out. A held frame may then name an input
number beyond the group's eight, and the register its word goes to is one of another unit. No such frame is ever held by
ADC_FRAME, but the statement speaks of every state.
-/

namespace Sys2Proof.Machine

/-- A device whose group 0 holds a frame of one word, for an input the group does not have: number 212 982, whose ADC_RAW
would lie where HLT_SCREEN does. -/
def strayInputHeld : State :=
  State.reset.upAdc 0 fun x => { x with
    held := [{ at_ := 0, slices := [(212982, some 0)], js := [], watch := false, se := 0, fmt := 0 }] }

/-- The word of that input, 256 for the code 1, stands in HLT_SCREEN beside the input that failed its residue check. -/
theorem get_screen_strayInputHeld {s' : State} (he : exec (.mainPathWord 1600 0 [1] 1) strayInputHeld = .next s') :
    s'.get R.HLT_SCREEN = 257 := by
  have hx : exec (.mainPathWord 1600 0 [1] 1) strayInputHeld =
    laneUnit [.adc, .scr, .ce, .pht, .pwm, .fmx, .lne, .twn, .ldg, .hlt] (0 < 4) 1600 strayInputHeld
      fun s => s.mainPath 0 [1] 1 := rfl
  rw [hx, laneUnit_pos (by decide), laneAct_eq, act_run (by decide +kernel)] at he
  cases he
  rw [State.finish_get_apart _ (by decide) (by decide), State.settle_get_in (by decide) (by decide)]
  decide +kernel

end Sys2Proof.Machine

open Sys2Proof Sys2Proof.Machine

/-- Refutes O10: where the frame's one input is number 212 982, its word is written over HLT_SCREEN, which the clause for a
failed residue check says is as before but for the failed input's bit. -/
theorem not_framesHoldAndPresentTheirWords : ¬ Obligations.FramesHoldAndPresentTheirWords := by
  unfold Obligations.FramesHoldAndPresentTheirWords
  intro h
  obtain ⟨-, -, hword, -⟩ := h 1600 0 strayInputHeld (by decide) (by decide) (by decide)
  obtain ⟨-, -, hfails⟩ := hword [1] 1 _ _ rfl
  obtain ⟨s', he, hp⟩ := hfails (by decide +kernel) (by decide)
  obtain ⟨hscreen, -⟩ := hp (by decide +kernel)
  rw [get_screen_strayInputHeld he] at hscreen
  exact absurd hscreen (by decide +kernel)
end

section
/-!
What a command of the ADC groups leaves: the fields of the groups it wrote, the groups' hidden state, and every other
register as it was.
-/

namespace Sys2Proof.Machine

/-! ### Fields of the groups -/

/-- A field of one word of the ADC block. -/
abbrev RF.OfAdc (f : RF) : Prop := f.addr / 0x10000 = 0x4008 ∧ f.lsb + f.width ≤ 32

/-- Fields of the ADC block that share no bit. -/
abbrev AdcFields (fs : List RF) : Prop := (∀ f ∈ fs, f.OfAdc) ∧ fs.Pairwise RF.apart

theorem AdcFields.left {fs gs : List RF} (h : AdcFields (fs ++ gs)) : AdcFields fs :=
  ⟨fun f hf => h.1 f (List.mem_append_left _ hf), (List.pairwise_append.1 h.2).1⟩

/-- A field of the ADC block that shares no bit with those listed. -/
abbrev RF.BesideAll (g : RF) (fs : List RF) : Prop := g.OfAdc ∧ ∀ f ∈ fs, f.apart g

/-- A field of the ADC block lies apart from every field that a quiesce condition rests on. -/
theorem RF.OfAdc.apart_loud {f g : RF} (hf : f.OfAdc) (hg : g.Loud) : f.apart g := by
  simp only [RF.OfAdc, RF.Loud, R.WCH_STAT_STATE, R.LDG_CTL] at hf hg
  simp only [RF.apart]
  omega

/-- The fields of a list written in turn, each with its value. -/
def regPuts (r : List (Nat × Word)) (ws : List (RF × Nat)) : List (Nat × Word) := ws.foldl (fun r w => regPut r w.1 w.2) r

theorem regGet_regPut_adc {f g : RF} (hf : f.OfAdc) (hg : g.OfAdc) (h : f.apart g) (r : List (Nat × Word)) (v : Nat) :
    regGet (regPut r f v) g = regGet r g :=
  regGet_regPut_apart r f g v (hf.2.trans (by decide)) (hg.2.trans (by decide)) h

theorem regGet_regPuts_apart {ws : List (RF × Nat)} {g : RF} (hg : g.OfAdc) (r : List (Nat × Word))
    (h : ∀ w ∈ ws, w.1.OfAdc ∧ w.1.apart g) : regGet (regPuts r ws) g = regGet r g := by
  induction ws generalizing r with
  | nil => rfl
  | cons w ws ih =>
    obtain ⟨⟨hw, ha⟩, hws⟩ := List.forall_mem_cons.1 h
    rw [regPuts, List.foldl_cons, ← regPuts, ih _ hws, regGet_regPut_adc hw hg ha]

/-- Each of the fields reads as what was written, modulo its width. -/
theorem regGet_regPuts {ws : List (RF × Nat)} (h : AdcFields (ws.map (·.1))) (r : List (Nat × Word)) :
    ∀ w ∈ ws, regGet (regPuts r ws) w.1 = w.2 % 2 ^ w.1.width := by
  induction ws generalizing r with
  | nil => exact fun _ hw => nomatch hw
  | cons w ws ih =>
    obtain ⟨hof, hap⟩ := h
    obtain ⟨hw, hofs⟩ := List.forall_mem_cons.1 hof
    obtain ⟨hwa, haps⟩ := List.pairwise_cons.1 hap
    refine List.forall_mem_cons.2 ⟨?_, ih ⟨hofs, haps⟩ _⟩
    rw [regPuts, List.foldl_cons, ← regPuts, regGet_regPuts_apart hw, regGet_regPut_same _ _ _ (hw.2.trans (by decide))]
    exact fun v hv => ⟨hofs _ (List.mem_map_of_mem hv), (hwa _ (List.mem_map_of_mem hv)).symm⟩

theorem KeepsBut.of_puts {ws : List (RF × Nat)} {o n : State} (hn : n.regs = regPuts o.regs ws)
    (h : ∀ f ∈ ws.map (·.1), f.OfAdc) : KeepsBut (ws.map (·.1)) o n := by
  refine KeepsBut.of_lists ?_
  rw [hn]
  exact List.foldlRecOn (motive := fun r => RegsBut (ws.map (·.1)) o.regs r) ws _ (.refl _ _) fun r hr w hw =>
    hr.put w.1 w.2 ((h _ (List.mem_map_of_mem hw)).2.trans (by decide)) (List.mem_map_of_mem hw)

theorem KeepsBut.get_beside {fs : List RF} {s s' : State} {g : RF} (h : KeepsBut fs s s') (hg : g.BesideAll fs) :
    s'.get g = s.get g := h.get g (hg.1.2.trans (by decide)) hg.2

theorem KeepsBut.is_beside {fs : List RF} {s s' : State} {g : RF} (h : KeepsBut fs s s') (hg : g.BesideAll fs) :
    s'.is g = s.is g := by rw [State.is, State.is, h.get_beside hg]

/-- A bit that is set reads as set. -/
theorem bit_or_two_pow {x i w : Nat} (h : i < w) : bit ((x ||| 2 ^ i) % 2 ^ w) i = true := by
  simp [bit, Nat.testBit_mod_two_pow, h]

theorem ofS_mod (w : Nat) (i : Int) : ofS w i % 2 ^ w = ofS w i := by
  have h := Int.emod_lt_of_pos i (Int.natCast_pos.2 (Nat.two_pow_pos w))
  have h0 := Int.emod_nonneg i (Int.natCast_ne_zero.2 (Nat.two_pow_pos w).ne')
  exact Nat.mod_eq_of_lt ((Int.toNat_lt h0).2 h)

/-! ### The groups -/

theorem State.adc_congr {s s' : State} (h : s'.adcs = s.adcs) (a : Nat) : s'.adc a = s.adc a := by rw [State.adc, h, State.adc]

theorem State.adc_upd {s n : State} {a : Nat} {g : AdcGroup → AdcGroup} (ha : a < s.adcs.length)
    (hn : n.adcs = upd s.adcs a g) : n.adc a = g (s.adc a) := by
  rw [State.adc, hn, getD_upd, if_pos ⟨rfl, ha⟩, State.adc]

/-! ### What a command leaves of its effect -/

/-- The state `s'` a command leaves shows the ADC block and the groups as its effect `n` made them, and where the effect
wrote fields of that block alone, no other. -/
structure State.LeftBy (s n s' : State) : Prop where
  adcs : s'.adcs = n.adcs
  get : ∀ f, f.OfAdc → s'.get f = n.get f
  keeps : ∀ fs : List RF, (∀ f ∈ fs, f.OfAdc) → n.mld = s.mld → n.ldg = s.ldg → KeepsBut fs s n → KeepsBut fs s s'

/-- The quiesce conditions rest on loud fields, the sheets' owners and the Ledger's queue. -/
theorem State.sheetQuiesced_congr {o n : State} (h : ∀ g : RF, g.Loud → n.get g = o.get g) (hm : n.mld = o.mld)
    (hl : n.ldg = o.ldg) : ∀ k ∈ [0, 9, 10, 11], n.sheetQuiesced k = o.sheetQuiesced k := by
  have loaded : ((List.range 8).all fun k => !n.sheetLoaded (k + 1) || !n.takesFrames (k + 1) ||
        bit (n.get R.MLD_QSTAT_QUIESCED) (k + 1)) = (List.range 8).all fun k => !o.sheetLoaded (k + 1) ||
        !o.takesFrames (k + 1) || bit (o.get R.MLD_QSTAT_QUIESCED) (k + 1) :=
    all_congr_mem fun k hk => by
      have hk := List.mem_range.1 hk
      rw [State.sheetLoaded, State.sheetLoaded, State.is, State.is, h _ (by simp only [RF.Loud, R.MLD_SH_SRC_LOADED]; omega),
        State.takesFrames, State.takesFrames, hm, h R.MLD_QSTAT_QUIESCED (by decide)]
  simp only [List.forall_mem_cons, State.sheetQuiesced, State.sealOn, State.is, loaded, hl, List.not_mem_nil,
    IsEmpty.forall_iff, implies_true, h R.MLD_STAT_STATE (by decide), h (R.TSU_TD_STAT_STATE 0) (by decide),
    h (R.TSU_TD_STAT_STATE 1) (by decide), h R.WCH_STAT_STATE (by decide), h R.LDG_CTL (by decide),
    h R.MLD_QUIESCE (by decide), and_self]

theorem State.LeftBy.of_finish {reach : List Part} (ha : Part.adc ∈ reach) (s n : State) (tb : Nat) :
    s.LeftBy n (s.finish reach tb n) where
  adcs := State.finish_adcs.trans (State.settle_adcs_in ha)
  get f hf := by
    have part : partOf f.addr ∈ reach := by rw [partOf_eq (p := .adc) hf.1 (by decide)]; exact ha
    rw [State.finish_get_apart f (hf.2.trans (by decide)) (by
      simp only [RF.OfAdc] at hf
      simp only [RF.apart, R.MLD_INT_STAT_QCHG]
      omega), State.settle_get_in part (.inl hf.2)]
  keeps fs hfs hm hl hk := by
    have settled : KeepsBut fs s (s.settle reach tb n) := hk.settle reach tb
    have same := State.sheetQuiesced_congr (o := s) (n := s.settle reach tb n)
      (fun g hg => settled.get g (hg.1.trans (by decide)) fun f hf => (hfs f hf).apart_loud hg)
      (by unfold State.settle State.confine; dsimp only; rw [hm, ite_self])
      (by unfold State.settle State.confine; dsimp only; rw [hl, ite_self])
    rw [State.finish, State.follow_same _ same, ite_self]
    exact settled

/-- Each field of a list that the effect wrote last is shown. -/
theorem State.LeftBy.shown {s n s' o : State} {ws : List (RF × Nat)} (left : s.LeftBy n s') (hn : n.regs = regPuts o.regs ws)
    (hw : AdcFields (ws.map (·.1))) : ∀ w ∈ ws, s'.get w.1 = w.2 % 2 ^ w.1.width := fun w hm => by
  rw [left.get _ (hw.1 _ (List.mem_map_of_mem hm)), State.get, hn]
  exact regGet_regPuts hw _ w hm

section
variable {c : Instr} {s n : State} {P : State → Prop} {reach : List Part} {ok : Prop} {_ : Decidable ok} {t : Nat}
  {f : State → State}

/-- What a command of the ADC groups does, from its effect. -/
theorem Does.of_adc (he : exec c s = onUnit reach ok t s f) (hok : ok) (ha : Part.adc ∈ reach) (hf : f (s.at t) = n)
    (hp : ∀ s', s.LeftBy n s' → P s') : Does c s P :=
  .of_act (he.trans (onUnit_pos hok ..)) fun _ => hp _ (by rw [hf]; exact .of_finish ha s n _)

/-- What a command of the ADC groups does whose effect writes a list of their fields. -/
theorem Does.of_adcPuts (ws : List (RF × Nat)) (he : exec c s = onUnit reach ok t s f) (hok : ok) (ha : Part.adc ∈ reach)
    (hf : f (s.at t) = n) (hn : n.regs = regPuts s.regs ws) (hw : AdcFields (ws.map (·.1)))
    (hb : n.mld = s.mld ∧ n.ldg = s.ldg)
    (hp : ∀ s', s'.adcs = n.adcs → (∀ w ∈ ws, s'.get w.1 = w.2 % 2 ^ w.1.width) → KeepsBut (ws.map (·.1)) s s' → P s') :
    Does c s P :=
  .of_adc he hok ha hf fun s' left => hp s' left.adcs (left.shown hn hw) (left.keeps _ hw.1 hb.1 hb.2 (.of_puts hn hw.1))

/-- A command of the ADC groups without effect. -/
theorem Does.of_adcStill (he : exec c s = onUnit reach ok t s f) (hok : ok) (ha : Part.adc ∈ reach) (hf : f (s.at t) = s.at t) :
    Does c s fun s' => s'.adcs = s.adcs ∧ KeepsBut [] s s' :=
  .of_adcPuts [] he hok ha hf rfl (by decide) ⟨rfl, rfl⟩ fun _ hadcs _ hk => ⟨hadcs, hk⟩

end

end Sys2Proof.Machine
end

section
/-!
Snapshots and the reads that capture their stamps (R48, R52, R53, R55, R75).
-/

namespace Sys2Proof.Machine

/-! ### A trigger (R52, R53) -/

/-- Without a handover due, off a frame instant or during a snapshot nothing is handed over. -/
theorem State.handover_still {s : State} {a : Nat}
    (h : (s.adc a).handover = false ∨ (s.adc a).snap.isSome = true ∨ s.tb % 800 ≠ 0) : s.handover a = s := by
  refine if_pos ?_
  rcases h with h | h | h
  · exact .inl (by rw [h]; rfl)
  · exact .inr (.inl h)
  · exact .inr (.inr (.inl h))

/-- Whether an enabled slot names a compare that fired 16 ns ago. -/
def State.slotFires (s : State) (a slot : Nat) : Bool :=
  s.is (R.ADC_SNAP_CFG_EN a slot) &&
    match (s.group (s.get (R.ADC_SNAP_CFG_PG a slot))).fired.getD (s.get (R.ADC_SNAP_CFG_TRG a slot)) none with
    | some x => x + 256 = s.tb
    | none => false

/-- The snapshot that a slot begins now. -/
def State.slotSnap (s : State) (a slot : Nat) : Snap := ⟨slot, s.get (R.ADC_SNAP_CFG_INPUT a slot), s.tb, s.tb + 384⟩

theorem State.snapTrigger_off {s : State} {a : Nat} (h : s.is (R.ADC_CTL_EN a) = false) : s.snapTrigger a = s :=
  if_pos (by simp [h])

/-- A trigger that no snapshot of the same instant has met is met by each slot that fires. -/
theorem State.snapTrigger_eq {s : State} {a : Nat} (hen : s.is (R.ADC_CTL_EN a) = true) (hrun : s.smpRuns = true)
    (hand : (s.adc a).handover = false) (hnew : ∀ y, (s.adc a).snap = some y → y.trig ≠ s.tb) :
    s.snapTrigger a = (List.range 4).foldl (fun s slot => if s.slotFires a slot then s.snapTake a slot else s) s := by
  unfold State.snapTrigger
  rw [State.handover_still (.inl hand)]
  refine if_neg ?_
  cases hs : (s.adc a).snap with
  | none => simp [hen, hrun]
  | some y => simp [hen, hrun, hnew y hs]

/-- A fold in which one step alone acts, and the others leave what it finds and what it makes. -/
theorem foldl_single {α β : Type} {f : α → β → α} {x y : α} {b : β} {l : List β} (hb : b ∈ l) (hl : l.Nodup) (hy : f x b = y)
    (h : ∀ c ∈ l, c ≠ b → f x c = x ∧ f y c = y) : l.foldl f x = y := by
  obtain ⟨l₁, l₂, rfl⟩ := List.append_of_mem hb
  obtain ⟨-, h₂, hd⟩ := List.nodup_append.1 hl
  rw [List.foldl_append, foldl_same l₁ fun c hc => (h c (by simp [hc]) (hd c hc b (by simp))).1, List.foldl_cons, hy]
  exact foldl_same l₂ fun c hc => (h c (by simp [hc]) fun e => (List.nodup_cons.1 h₂).1 (e ▸ hc)).2

/-- A running, enabled group, with no handover due, gets a trigger 16 ns after a compare that `slot` alone names. -/
structure State.Triggers (s : State) (a slot : Nat) : Prop where
  lt : slot < 4
  en : s.is (R.ADC_CTL_EN a) = true
  run : s.smpRuns = true
  hand : (s.adc a).handover = false
  tb : 256 ≤ s.tb
  one : ∀ j, j < 4 → s.is (R.ADC_SNAP_CFG_EN a j) = decide (j = slot)
  fired : (s.group (s.get (R.ADC_SNAP_CFG_PG a slot))).fired.getD (s.get (R.ADC_SNAP_CFG_TRG a slot)) none =
    some (s.tb - 256)

/-- A trigger that one enabled slot names is that slot's. -/
theorem State.Triggers.snapTrigger {s n : State} {a slot : Nat} (h : s.Triggers a slot)
    (hnew : ∀ y, (s.adc a).snap = some y → y.trig ≠ s.tb) (hn : s.snapTake a slot = n)
    (hkeep : ∀ j, j < 4 → n.is (R.ADC_SNAP_CFG_EN a j) = s.is (R.ADC_SNAP_CFG_EN a j)) : s.snapTrigger a = n := by
  have fires : s.slotFires a slot = true := by
    have := h.tb
    simp only [State.slotFires, h.one slot h.lt, h.fired, decide_true, Bool.true_and, decide_eq_true_eq]
    omega
  rw [State.snapTrigger_eq h.en h.run h.hand hnew]
  refine foldl_single (b := slot) (List.mem_range.2 h.lt) List.nodup_range (by rw [if_pos fires, hn]) fun j hj hne => ?_
  have off : s.is (R.ADC_SNAP_CFG_EN a j) = false := by rw [h.one j (List.mem_range.1 hj), decide_eq_false hne]
  constructor
  · exact if_neg (by simp [State.slotFires, off])
  · exact if_neg (by simp [State.slotFires, hkeep j (List.mem_range.1 hj), off])

/-- With a free slice in rotation and no snapshot in progress, the slot takes the slice. -/
theorem State.snapTake_free {s : State} {a slot : Nat} (hs : (s.adc a).snap = none) (hfree : s.get (R.ADC_STAT_FREE a) < 9)
    (hready : s.is (R.ADC_STAT_READY a) = true) (hwatch : s.is (R.ADC_STAT_WATCH a) = false) :
    s.snapTake a slot = s.upAdc a fun x => { x with snap := some (s.slotSnap a slot) } := by
  unfold State.snapTake
  simp only [hs]
  exact if_pos ⟨hfree, hready, by simp [hwatch]⟩

/-- With a snapshot in progress from an earlier cycle, the trigger is dropped. -/
theorem State.snapTake_busy {s : State} {a slot : Nat} {y : Snap} (hs : (s.adc a).snap = some y)
    (hy : y.trig / 100 < s.tb / 100) : s.snapTake a slot = s.snapDrop a := by
  unfold State.snapTake
  simp only [hs]
  exact if_neg fun h => (Nat.ne_of_lt hy) h.2

/-- The fields of a dropped trigger lie apart from the slots' enables. -/
theorem snapDrop_fields : ∀ a < 4, AdcFields [R.ADC_SNAPMISS a, R.ADC_INT_STAT_SNAP_MISS a] ∧
    ∀ j < 4, (R.ADC_SNAP_CFG_EN a j).BesideAll [R.ADC_SNAPMISS a, R.ADC_INT_STAT_SNAP_MISS a] := by decide

/-! ### The result (R48, R55) -/

theorem State.snapDone_early {s : State} {a code : Nat} {y : Snap} (hs : (s.adc a).snap = some y) (h : s.tb < y.hold + 960) :
    s.snapDone a code = s := by
  unfold State.snapDone
  simp only [hs]
  exact if_pos h

/-- The word of a snapshot before it is saturated: the code corrected by the free slice, without the bandwidth term. -/
def State.snapWord (s : State) (a code : Nat) : Int := (s.slicePart a (s.get (R.ADC_STAT_FREE a)) (toS 16 code)).2

/-- The state with the over-range bit of a snapshot's word. -/
def State.snapRanged (s : State) (a code : Nat) (y : Snap) : State :=
  s.overRange a y.input (toS 16 code) (s.snapWord a code)

theorem State.overRange_same (s : State) (a i : Nat) (q w : Int) :
    (s.overRange a i q w).adcs = s.adcs ∧ (s.overRange a i q w).mld = s.mld ∧ (s.overRange a i q w).ldg = s.ldg := by
  unfold State.overRange
  split <;> exact ⟨rfl, rfl, rfl⟩

theorem overRange_fields : ∀ a < 4, AdcFields [R.ADC_OVR a, R.ADC_INT_STAT_OVR a] := by decide

theorem KeepsBut.overRange {s : State} {a i : Nat} {q w : Int} (ha : a < 4) :
    KeepsBut [R.ADC_OVR a, R.ADC_INT_STAT_OVR a] s (s.overRange a i q w) := by
  unfold State.overRange
  split
  · exact .of_puts (ws := [(R.ADC_OVR a, _), (R.ADC_INT_STAT_OVR a, 1)]) rfl (overRange_fields a ha).1
  · exact .refl _ s

/-- A result's fields lie apart, also from those of over-range. -/
theorem snapDone_fields : ∀ a < 4, ∀ k < 4, AdcFields [R.ADC_SNAP_DATA a k, R.ADC_SNAP_STAMP a k, R.ADC_SNAP_COUNT a k,
    R.ADC_INT_STAT_SNAP_DONE a, R.ADC_OVR a, R.ADC_INT_STAT_OVR a] ∧
    (R.ADC_SNAP_COUNT a k).BesideAll [R.ADC_OVR a, R.ADC_INT_STAT_OVR a] := by decide

/-- The fields of a result, each with its value, once the over-range bit is judged: the word, its stamp, and the counts. -/
def State.snapPuts (o : State) (a : Nat) (y : Snap) (w : Int) : List (RF × Nat) :=
  [(R.ADC_SNAP_DATA a y.slot, present (bits (o.adc a).fmt (2 * y.input) 2) (bit (o.adc a).se y.input) (satS 24 w)),
    (R.ADC_SNAP_STAMP a y.slot, y.hold % 2 ^ 32),
    (R.ADC_SNAP_COUNT a y.slot, (o.get (R.ADC_SNAP_COUNT a y.slot) + 1) % 2 ^ (R.ADC_SNAP_COUNT a y.slot).width),
    (R.ADC_INT_STAT_SNAP_DONE a, o.get (R.ADC_INT_STAT_SNAP_DONE a) ||| 2 ^ y.slot)]

/-- The group after a result: the slice calibrates on from then. -/
def AdcGroup.snapped (y : Snap) (x : AdcGroup) : AdcGroup := { x with snap := none, calFrom := max x.calFrom (y.hold + 960) }

theorem State.snapDone_due {s : State} {a code : Nat} {y : Snap} (ha : a < 4) (hy : y.slot < 4)
    (hs : (s.adc a).snap = some y) (h : y.hold + 960 ≤ s.tb) :
    (s.snapDone a code).regs = regPuts (s.snapRanged a code y).regs ((s.snapRanged a code y).snapPuts a y (s.snapWord a code)) ∧
      (s.snapDone a code).adcs = upd s.adcs a (AdcGroup.snapped y) ∧
      (s.snapDone a code).mld = s.mld ∧ (s.snapDone a code).ldg = s.ldg := by
  obtain ⟨⟨hof, hap⟩, -⟩ := snapDone_fields a ha y.slot hy
  simp only [List.pairwise_cons, List.forall_mem_cons] at hof hap
  obtain ⟨hdata, hstamp, hcount, hdone, -⟩ := hof
  obtain ⟨⟨-, hdc, hdd, -⟩, ⟨hsc, hsd, -⟩, ⟨hcd, -⟩, -⟩ := hap
  unfold State.snapDone
  simp only [hs]
  rw [if_neg (Nat.not_lt.2 h)]
  obtain ⟨hadcs, hmld, hldg⟩ := s.overRange_same a y.input (toS 16 code) (s.snapWord a code)
  refine ⟨?_, congrArg (upd · a _) hadcs, hmld, hldg⟩
  simp only [State.snapPuts, regPuts, List.foldl_cons, List.foldl_nil, State.upAdc_regs, State.orr_regs, State.bumpWrap_regs,
    State.put_regs, regGet_regPut_adc hdata hcount hdc, regGet_regPut_adc hstamp hcount hsc, regGet_regPut_adc hdata hdone hdd,
    regGet_regPut_adc hstamp hdone hsd, regGet_regPut_adc hcount hdone hcd]
  rfl

/-! ### The commands -/

section
variable {t a : Nat} {s : State} (ha : a < 4)
include ha

theorem Does.snapshotTrigger_free (hl : s.adcs.length = 4) {slot : Nat} (h : (s.at t).Triggers a slot) (hs : (s.adc a).snap = none)
    (hfree : s.get (R.ADC_STAT_FREE a) < 9) (hready : s.is (R.ADC_STAT_READY a) = true)
    (hwatch : s.is (R.ADC_STAT_WATCH a) = false) :
    Does (.snapshotTrigger t a) s fun s' => (s'.adc a).snap = some ((s.at t).slotSnap a slot) ∧ KeepsBut [] s s' :=
  .of_adcPuts (f := fun x => x.snapTrigger a) [] rfl ha (by decide)
    (h.snapTrigger (fun _ hy => nomatch hs.symm.trans hy) (State.snapTake_free (s := s.at t) hs hfree hready hwatch)
      fun _ _ => rfl)
    rfl (by decide) ⟨rfl, rfl⟩ fun _ hadcs _ hk =>
      ⟨congrArg AdcGroup.snap (State.adc_upd (s := s) (hl.symm ▸ ha) hadcs), hk⟩

theorem Does.snapshotTrigger_busy {slot : Nat} {y : Snap} (h : (s.at t).Triggers a slot) (hs : (s.adc a).snap = some y)
    (hy : y.trig / 100 < (s.at t).tb / 100) : Does (.snapshotTrigger t a) s fun s' =>
      s'.get (R.ADC_SNAPMISS a) = min (s.get (R.ADC_SNAPMISS a) + 1) (2 ^ (R.ADC_SNAPMISS a).width - 1) ∧
      s'.get (R.ADC_INT_STAT_SNAP_MISS a) = 1 ∧ s'.adcs = s.adcs ∧
      KeepsBut [R.ADC_SNAPMISS a, R.ADC_INT_STAT_SNAP_MISS a] s s' := by
  obtain ⟨fields, beside⟩ := snapDrop_fields a ha
  have keeps : KeepsBut [R.ADC_SNAPMISS a, R.ADC_INT_STAT_SNAP_MISS a] (s.at t) ((s.at t).snapDrop a) :=
    .of_puts (ws := [(R.ADC_SNAPMISS a, _), (R.ADC_INT_STAT_SNAP_MISS a, 1)]) rfl fields.1
  have other (z : Snap) (hz : (s.adc a).snap = some z) : z.trig ≠ (s.at t).tb := by
    cases hs.symm.trans hz
    exact fun e => absurd hy (e ▸ Nat.lt_irrefl _)
  refine .of_adcPuts (f := fun x => x.snapTrigger a)
    [(R.ADC_SNAPMISS a, satInc (R.ADC_SNAPMISS a).width (s.get (R.ADC_SNAPMISS a)) 1), (R.ADC_INT_STAT_SNAP_MISS a, 1)]
    rfl ha (by decide)
    (h.snapTrigger other (State.snapTake_busy (s := s.at t) hs hy) fun j hj => keeps.is_beside (beside j hj))
    rfl fields ⟨rfl, rfl⟩ fun s' hadcs shown hk => ?_
  simp only [List.forall_mem_cons, satInc_mod] at shown
  obtain ⟨hmiss, hbit, -⟩ := shown
  exact ⟨hmiss, hbit, hadcs, hk⟩

theorem Does.snapshotDone_due (hl : s.adcs.length = 4) {code : Nat} {y : Snap} (hs : (s.adc a).snap = some y) (hy : y.slot < 4)
    (h : y.hold + 960 ≤ (s.at t).tb) : Does (.snapshotDone t a code) s fun s' =>
      s'.get (R.ADC_SNAP_DATA a y.slot) =
        present (bits (s.adc a).fmt (2 * y.input) 2) (bit (s.adc a).se y.input) (satS 24 (s.snapWord a code)) % 2 ^ 32 ∧
      s'.get (R.ADC_SNAP_STAMP a y.slot) = y.hold % 2 ^ 32 ∧
      s'.get (R.ADC_SNAP_COUNT a y.slot) =
        (s.get (R.ADC_SNAP_COUNT a y.slot) + 1) % 2 ^ (R.ADC_SNAP_COUNT a y.slot).width ∧
      bit (s'.get (R.ADC_INT_STAT_SNAP_DONE a)) y.slot = true ∧ (s'.adc a).snap = none ∧
      KeepsBut [R.ADC_SNAP_DATA a y.slot, R.ADC_SNAP_STAMP a y.slot, R.ADC_SNAP_COUNT a y.slot, R.ADC_INT_STAT_SNAP_DONE a,
        R.ADC_OVR a, R.ADC_INT_STAT_OVR a] s s' := by
  have ranged : KeepsBut [R.ADC_OVR a, R.ADC_INT_STAT_OVR a] s ((s.at t).snapRanged a code y) := .overRange (s := s.at t) ha
  have adcs : ((s.at t).snapRanged a code y).adcs = s.adcs := ((s.at t).overRange_same ..).1
  obtain ⟨fields, beside⟩ := snapDone_fields a ha y.slot hy
  obtain ⟨hregs, hadcs, hmld, hldg⟩ := State.snapDone_due (s := s.at t) (code := code) ha hy hs h
  have fields4 : AdcFields (((s.at t).snapRanged a code y).snapPuts a y ((s.at t).snapWord a code) |>.map (·.1)) := fields.left
  refine .of_adc (f := fun x => x.snapDone a code) rfl ha (by decide) rfl fun s' left => ?_
  have shown := left.shown hregs fields4
  simp only [State.snapPuts, List.forall_mem_cons, State.adc_congr adcs, ranged.get_beside beside] at shown
  obtain ⟨hdata, hstamp, hcount, hdone, -⟩ := shown
  have hgroup := State.adc_upd (s := s) (hl.symm ▸ ha) (left.adcs.trans hadcs)
  exact ⟨hdata, hstamp.trans (Nat.mod_mod ..), hcount.trans (Nat.mod_mod ..), hdone ▸ bit_or_two_pow hy,
    congrArg AdcGroup.snap hgroup, left.keeps _ fields.1 hmld hldg
      (.trans (ranged.mono (List.subset_append_right [_, _, _, _] _))
        (.mono (.of_puts hregs fields4.1) (List.subset_append_left _ [_, _])))⟩

end

/-! ### Reads that capture a stamp (R55, R75) -/

theorem State.mem_hold (s : State) (who addr word : Nat) : ⟨who, addr, word⟩ ∈ (s.hold who addr word).holding :=
  List.mem_cons_self

/-- A copy of another word stays. -/
theorem State.mem_hold_other {s : State} {h : Holding} {who addr word : Nat} (hm : h ∈ s.holding) (hne : h.addr ≠ addr) :
    h ∈ (s.hold who addr word).holding :=
  List.mem_cons_of_mem _ (List.mem_filter.2 ⟨hm, by simp [hne]⟩)

/-- What a read of a requester does, from the answer and the copies it takes. -/
theorem Does.of_bus {c : Instr} {s n : State} {P : State → Prop} {ok : Prop} {_ : Decidable ok} {t : Nat} {f : State → State}
    (he : exec c s = onUnit [.bus] ok t s f) (hok : ok) (hf : f (s.at t) = n) (hn : n.regs = s.regs)
    (hp : ∀ s', s'.resp = n.resp → s'.holding = n.holding → KeepsBut [] s s' → P s') : Does c s P :=
  .of_act (he.trans (onUnit_pos hok ..)) fun _ => hp _ (by rw [hf]; exact State.settle_resp_in (by decide))
    (by rw [hf]; exact State.settle_holding_in (by decide)) (by rw [hf]; exact .settle _ _ ((KeepsBut.refl [] s).of_regs hn))

theorem Does.snapDataRead {t who a slot : Nat} {s : State} (hw : who < 48) (ha : a < 4) (hslot : slot < 4) :
    Does (.snapDataRead t who a slot) s fun s' =>
      s'.resp = ⟨false, s.get (R.ADC_SNAP_DATA a slot)⟩ ∧
      ⟨who, (R.ADC_SNAP_STAMP a slot).addr, s.get (R.ADC_SNAP_STAMP a slot)⟩ ∈ s'.holding ∧
      ⟨who, (R.ADC_SNAP_COUNT a slot).addr, s.get (R.ADC_SNAP_COUNT a slot)⟩ ∈ s'.holding ∧ KeepsBut [] s s' :=
  .of_bus (f := fun x => x.snapRead who a slot) rfl ⟨hw, ha, hslot⟩ rfl rfl fun s' hresp hhold hk => by
    refine ⟨hresp, ?_, ?_, hk⟩ <;> rw [hhold]
    · exact State.mem_hold_other (State.mem_hold ..) (by simp only [R.ADC_SNAP_STAMP, R.ADC_SNAP_COUNT]; omega)
    · exact State.mem_hold ..

theorem Does.tapValRead {t who tap : Nat} {s : State} (hw : who < 48) (ht : tap < 256) (h7 : tap % 8 ≠ 7) :
    Does (.tapValRead t who tap) s fun s' =>
      s'.resp = ⟨false, s.get (R.SCR_TAP_VAL tap)⟩ ∧
      ⟨who, (R.SCR_TAP_STAMP tap).addr, s.get (R.SCR_TAP_STAMP tap)⟩ ∈ s'.holding ∧ KeepsBut [] s s' :=
  .of_bus (f := fun x => x.tapRead who tap) rfl ⟨hw, ht⟩ (if_neg h7) rfl fun s' hresp hhold hk => by
    refine ⟨hresp, ?_, hk⟩
    rw [hhold]
    exact State.mem_hold ..

end Sys2Proof.Machine

open Sys2Proof Sys2Proof.Machine

/-- Settles O12: a trigger that one slot names takes the free slice or is dropped, and a result due is written whole. -/
theorem snapshotsTakeTheFreeSlice : Obligations.SnapshotsTakeTheFreeSlice := by
  unfold Obligations.SnapshotsTakeTheFreeSlice
  intro t n s hn hl now x
  refine ⟨fun slot hslot ⟨hen, hrun, hand, htb⟩ hone hfired => ?_, fun hoff => ?_, fun code y hs hy _ => ⟨fun h => ?_, fun h => ?_⟩,
    fun who slot hw hslot => .snapDataRead hw hn hslot, fun who tap hw ht h7 => .tapValRead hw ht h7⟩
  · have trig : (s.at t).Triggers n slot := ⟨hslot, hen, hrun, hand, htb, hone, hfired⟩
    exact ⟨fun hs ⟨hfree, hready, hwatch⟩ => .snapshotTrigger_free hn hl trig hs hfree hready hwatch,
      fun y hs hy => .snapshotTrigger_busy hn trig hs hy⟩
  · exact .of_adcStill (f := fun x => x.snapTrigger n) rfl hn (by decide) (State.snapTrigger_off hoff)
  · exact .of_adcStill (f := fun x => x.snapDone n code) rfl hn (by decide) (State.snapDone_early (s := s.at t) hs h)
  · exact .snapshotDone_due hn hl hs hy h
end

section
/-!
The restart of a calibration's free slice (R49, R59).
-/

namespace Sys2Proof.Machine

/-- The group as its free slice starts from the first step at `now`. -/
def AdcGroup.restarted (now : Nat) (x : AdcGroup) : AdcGroup := { x with steps := 0, calFrom := now }

theorem State.calRestart_adcs (s : State) (a : Nat) : (s.calRestart a).adcs = upd s.adcs a (AdcGroup.restarted s.tb) := rfl

/-- A restart shows the first phase where the group calibrates, and none where it does not. -/
theorem State.calRestart_regs (s : State) {a : Nat} (ha : a < s.adcs.length) : (s.calRestart a).regs =
    regPut s.regs (R.ADC_STAT_CALPHASE a) (b2n (s.calRuns a && s.smpRuns && !(s.adc a).handover)) := by
  have group : (s.upAdc a (AdcGroup.restarted s.tb)).adc a = AdcGroup.restarted s.tb (s.adc a) := State.adc_upd ha rfl
  show regPut s.regs (R.ADC_STAT_CALPHASE a) (if s.calRuns a && s.smpRuns &&
    !((s.upAdc a (AdcGroup.restarted s.tb)).adc a).handover then calPhase ((s.upAdc a (AdcGroup.restarted s.tb)).adc a).steps
    else 0) = _
  rw [group]
  rfl

end Sys2Proof.Machine
end

section
/-!
Input tests and watch mode of a group (R57–R59).
-/

namespace Sys2Proof.Machine

/-! ### Tests -/

theorem testRefused_fields : ∀ a < 4, AdcFields [R.ADC_TSTAT_ERR a, R.ADC_INT_STAT_TEST_DONE a] := by decide

theorem testStart_fields : ∀ a < 4,
    AdcFields [R.ADC_TSTAT_ERR a, R.ADC_TSTAT_VERDICT a, R.ADC_TSTAT_BUSY a, R.ADC_STAT_TESTING a] ∧
    (R.ADC_TCFG_AVG a).BesideAll
      [R.ADC_TSTAT_ERR a, R.ADC_TSTAT_VERDICT a, R.ADC_TSTAT_BUSY a, R.ADC_STAT_TESTING a] := by decide

theorem testAbort_fields : ∀ a < 4,
    AdcFields [R.ADC_TSTAT_ERR a, R.ADC_TSTAT_BUSY a, R.ADC_STAT_TESTING a, R.ADC_INT_STAT_TEST_DONE a] := by decide

theorem testBase_fields : ∀ a < 4, AdcFields [R.ADC_TBASE a] := by decide

theorem testResult_fields : ∀ a < 4,
    AdcFields [R.ADC_TRES a, R.ADC_TSTAT_BUSY a, R.ADC_STAT_TESTING a, R.ADC_INT_STAT_TEST_DONE a] ∧
    (R.ADC_TSTAT_VERDICT a).BesideAll
      [R.ADC_TRES a, R.ADC_TSTAT_BUSY a, R.ADC_STAT_TESTING a, R.ADC_INT_STAT_TEST_DONE a] := by decide

theorem testVerdict_fields : ∀ a < 4,
    AdcFields [R.ADC_TRES a, R.ADC_TSTAT_VERDICT a, R.ADC_TSTAT_BUSY a, R.ADC_STAT_TESTING a, R.ADC_INT_STAT_TEST_DONE a] ∧
    (R.ADC_TBASE a).BesideAll [R.ADC_TRES a] ∧ (R.ADC_TTHR_THR a).BesideAll [R.ADC_TRES a] := by decide

/-- A test that began at `now`. -/
def AdcTest.begun (s : State) (a now : Nat) : AdcTest :=
  ⟨if s.get (R.ADC_TCFG_KIND a) = 2 then 1 else 2, s.get (R.ADC_TCFG_INPUT a), s.get (R.ADC_TCFG_KIND a),
    s.get (R.ADC_TCFG_AVG a), now, 0, 0⟩

/-- The next phase of a test, from `now` on. -/
def AdcTest.phased (y : AdcTest) (phase now : Nat) : AdcTest := { y with phase := phase, since := now, sum := 0, cnt := 0 }

/-- A START refused with a code. -/
def State.testRefused (s : State) (a code : Nat) : State := (s.put (R.ADC_TSTAT_ERR a) code).set1 (R.ADC_INT_STAT_TEST_DONE a)

/-- The registers as a START is accepted. -/
def State.testShown (s : State) (a : Nat) : State :=
  (((s.clr (R.ADC_TSTAT_ERR a)).clr (R.ADC_TSTAT_VERDICT a)).set1 (R.ADC_TSTAT_BUSY a)).set1 (R.ADC_STAT_TESTING a)

theorem State.testShown_regs (s : State) (a : Nat) : (s.testShown a).regs = regPuts s.regs
    [(R.ADC_TSTAT_ERR a, 0), (R.ADC_TSTAT_VERDICT a, 0), (R.ADC_TSTAT_BUSY a, 1), (R.ADC_STAT_TESTING a, 1)] := rfl

theorem State.testStart_idle {s : State} {a : Nat} (ha : a < 4) (hb : s.is (R.ADC_TSTAT_BUSY a) = false) : s.testStart a =
    if s.inputTaken (8 * a + s.get (R.ADC_TCFG_INPUT a)) && s.ownSamples then s.testRefused a 1
    else if s.is (R.ADC_STAT_WATCH a) then s.testRefused a 2
    else if s.get (R.ADC_TCFG_KIND a) = 3 then s.testRefused a 3
    else (s.testShown a).upAdc a fun x => { x with test := some (.begun s a s.tb) } := by
  obtain ⟨fields, beside⟩ := testStart_fields a ha
  have avg := (KeepsBut.of_puts (s.testShown_regs a) fields.1).get_beside beside
  simp only [State.testShown] at avg
  unfold State.testStart
  dsimp only
  rw [if_neg (by simp [hb]), avg]
  rfl

theorem State.testSettle_due {s : State} {a : Nat} {y : AdcTest} (hy : (s.adc a).test = some y) (hp : y.phase = 2)
    (h : y.since + 160000 * s.get (R.ADC_TTHR_SETTLE a) ≤ s.tb) :
    s.testSettle a = s.upAdc a fun x => { x with test := some (y.phased 3 s.tb) } := by
  unfold State.testSettle
  simp only [hy]
  exact if_pos ⟨hp, h⟩

theorem State.testSettle_early {s : State} {a : Nat} {y : AdcTest} (hy : (s.adc a).test = some y)
    (h : y.phase ≠ 2 ∨ s.tb < y.since + 160000 * s.get (R.ADC_TTHR_SETTLE a)) : s.testSettle a = s := by
  unfold State.testSettle
  simp only [hy]
  exact if_neg fun ⟨hp, hd⟩ => h.elim (· hp) (Nat.not_lt.2 hd)

theorem State.testMean_early {s : State} {a : Nat} {y : AdcTest} (hy : (s.adc a).test = some y) (h : y.cnt < 2 ^ y.avg) :
    s.testMean a = s := by
  unfold State.testMean
  simp only [hy]
  exact if_pos (.inr h)

/-- The mean without injection is the base. -/
theorem State.testMean_base {s : State} {a : Nat} {y : AdcTest} (hy : (s.adc a).test = some y) (hp : y.phase = 1)
    (h : 2 ^ y.avg ≤ y.cnt) : s.testMean a = (s.put (R.ADC_TBASE a) (ofS 32 (divRne y.sum (2 ^ y.avg)))).upAdc a fun x =>
      { x with test := some (y.phased 2 s.tb) } := by
  unfold State.testMean
  simp only [hy]
  rw [if_neg (by omega), if_pos hp]
  rfl

/-- The verdict of a pull test whose mean is `m`. -/
def State.testVerdict (s : State) (a : Nat) (m : Int) : Nat :=
  if s.get (R.ADC_TTHR_THR a) < (m - toS 32 (s.get (R.ADC_TBASE a))).natAbs then 2 else 1

/-- Another test's mean ends it. -/
theorem State.testMean_result {s : State} {a : Nat} {y : AdcTest} (hy : (s.adc a).test = some y) (hp : y.phase = 3)
    (h : 2 ^ y.avg ≤ y.cnt) (hk : y.kind ≠ 2) :
    s.testMean a = (s.put (R.ADC_TRES a) (ofS 32 (divRne y.sum (2 ^ y.avg)))).testEnd a := by
  unfold State.testMean
  simp only [hy]
  rw [if_neg (by omega), if_neg (by omega), if_neg hk]

/-- A pull test's mean ends it with a verdict. -/
theorem State.testMean_verdict {s : State} {a : Nat} {y : AdcTest} (ha : a < 4) (hy : (s.adc a).test = some y)
    (hp : y.phase = 3) (h : 2 ^ y.avg ≤ y.cnt) (hk : y.kind = 2) :
    s.testMean a = ((s.put (R.ADC_TRES a) (ofS 32 (divRne y.sum (2 ^ y.avg)))).put (R.ADC_TSTAT_VERDICT a)
      (s.testVerdict a (divRne y.sum (2 ^ y.avg)))).testEnd a := by
  obtain ⟨fields, hbase, hthr⟩ := testVerdict_fields a ha
  have kept : KeepsBut [R.ADC_TRES a] s (s.put (R.ADC_TRES a) (ofS 32 (divRne y.sum (2 ^ y.avg)))) :=
    .of_puts (ws := [(R.ADC_TRES a, _)]) rfl (AdcFields.left (gs := [_, _, _, _]) fields).1
  unfold State.testMean
  simp only [hy]
  rw [if_neg (by omega), if_neg (by omega), if_pos hk, kept.get_beside hbase, kept.get_beside hthr]
  rfl

/-! ### Watch mode -/

theorem State.watchRequest_eq (s : State) (a : Nat) : s.watchRequest a =
    if (List.range 8).any fun i => s.inputTaken (8 * a + i) then s.set1 (R.ADC_INT_STAT_WATCH_REFUSED a)
    else (s.set1 (R.ADC_CTL_WATCH a)).upAdc a fun x => { x with settle := none } := rfl

theorem State.watchEnter_still {s : State} {a : Nat} (h : s.is (R.ADC_CTL_WATCH a) = false ∨ s.tb % 800 ≠ 0) :
    s.watchEnter a = s :=
  if_pos (h.elim (fun h => .inr (.inl (by simp [h]))) fun h => .inr (.inr (.inr h)))

theorem watch_fields : ∀ a < 4,
    AdcFields [R.ADC_STAT_WATCH a, R.ADC_INT_STAT_WATCH_CHG a, R.ADC_STAT_CALPHASE a] := by decide

theorem watchBit_fields : ∀ a < 4, AdcFields [R.ADC_CTL_WATCH a] ∧ AdcFields [R.ADC_INT_STAT_WATCH_REFUSED a] ∧
    (R.ADC_STAT_WATCH a).BesideAll [R.ADC_CTL_WATCH a] := by decide

/-- The slices settle where the group is in watch mode. -/
theorem State.watchExitRequest_eq {s : State} {a : Nat} (ha : a < 4) : s.watchExitRequest a =
    if s.is (R.ADC_STAT_WATCH a) then (s.clr (R.ADC_CTL_WATCH a)).upAdc a fun x => { x with settle := some (s.tb + 320000) }
    else s.clr (R.ADC_CTL_WATCH a) := by
  obtain ⟨fields, -, beside⟩ := watchBit_fields a ha
  have kept : KeepsBut [R.ADC_CTL_WATCH a] s (s.clr (R.ADC_CTL_WATCH a)) :=
    .of_puts (ws := [(R.ADC_CTL_WATCH a, 0)]) rfl fields.1
  unfold State.watchExitRequest
  dsimp only
  rw [kept.is_beside beside]
  rfl

/-- At a frame instant a group that is to enter watch mode does, and suspends its calibration. -/
theorem State.watchEnter_due {s : State} {a : Nat} (ha : a < 4) (hl : s.adcs.length = 4) (hrun : s.smpRuns = true)
    (hctl : s.is (R.ADC_CTL_WATCH a) = true) (hstat : s.is (R.ADC_STAT_WATCH a) = false) (htb : s.tb % 800 = 0) :
    (s.watchEnter a).regs = regPuts s.regs
      [(R.ADC_STAT_WATCH a, 1), (R.ADC_INT_STAT_WATCH_CHG a, 1), (R.ADC_STAT_CALPHASE a, 0)] ∧
      (s.watchEnter a).adcs = upd s.adcs a (AdcGroup.restarted s.tb) ∧
      (s.watchEnter a).mld = s.mld ∧ (s.watchEnter a).ldg = s.ldg := by
  have entered : s.watchEnter a = ((s.set1 (R.ADC_STAT_WATCH a)).set1 (R.ADC_INT_STAT_WATCH_CHG a)).calRestart a :=
    if_neg (by simp [hrun, hctl, hstat, htb])
  have shown : ((s.set1 (R.ADC_STAT_WATCH a)).set1 (R.ADC_INT_STAT_WATCH_CHG a)).get (R.ADC_STAT_WATCH a) = 1 :=
    regGet_regPuts (ws := [(R.ADC_STAT_WATCH a, 1), (R.ADC_INT_STAT_WATCH_CHG a, 1)])
      (AdcFields.left (gs := [_]) (watch_fields a ha)) s.regs _ List.mem_cons_self
  have idle : ((s.set1 (R.ADC_STAT_WATCH a)).set1 (R.ADC_INT_STAT_WATCH_CHG a)).calRuns a = false := by
    have watch : ((s.set1 (R.ADC_STAT_WATCH a)).set1 (R.ADC_INT_STAT_WATCH_CHG a)).is (R.ADC_STAT_WATCH a) = true :=
      decide_eq_true (shown ▸ by decide)
    simp [State.calRuns, watch]
  rw [entered]
  refine ⟨?_, rfl, rfl, rfl⟩
  rw [State.calRestart_regs _ (by simpa using hl ▸ ha), idle]
  rfl

/-- The histories of H1–H4 of an input preset with its last watch word. -/
def State.presetHist (s : State) (a i : Nat) : State :=
  match (s.scr.taps.getD (8 * (8 * a + i) + 3) []).head? with
  | some (_, w) => s.upChain (8 * a + i) fun c => { c with hist := List.replicate 4 (List.replicate 11 w) ++ c.hist.drop 4 }
  | none => s

def State.presetHists (s : State) (a : Nat) : State := (List.range 8).foldl (fun s i => s.presetHist a i) s

/-- Presetting the histories changes the chains alone. -/
theorem State.presetHists_eq (s : State) (a : Nat) : ∃ cs, s.presetHists a = { s with chains := cs } :=
  List.foldlRecOn (motive := fun x : State => ∃ cs, x = { s with chains := cs }) (List.range 8) _ ⟨s.chains, rfl⟩ fun x hx i _ => by
    obtain ⟨cs, rfl⟩ := hx
    unfold State.presetHist
    split
    exacts [⟨_, rfl⟩, ⟨cs, rfl⟩]

/-- The group as it is back in normal mode at `now`. -/
def AdcGroup.returned (now : Nat) (x : AdcGroup) : AdcGroup :=
  .restarted now { x with settle := none, watchOn := false, starve := now }

theorem State.watchExit_early {s : State} {a u : Nat} (hu : (s.adc a).settle = some u) (h : s.tb < u ∨ s.tb % 12800 ≠ 0) :
    s.watchExit a = s := by
  unfold State.watchExit
  simp only [hu]
  exact if_pos (.inr h)

/-- The group back in normal mode, its calibration from its first step. -/
def State.backToNormal (s : State) (a : Nat) : State :=
  (s.upAdc a fun x => { x with settle := none, watchOn := false, starve := s.tb }).calRestart a

/-- At a watch frame instant after the slices have settled the group returns to normal mode. -/
theorem State.watchExit_due {s : State} {a u : Nat} (ha : a < 4) (hl : s.adcs.length = 4) (hu : (s.adc a).settle = some u)
    (hrun : s.smpRuns = true) (hd : u ≤ s.tb) (htb : s.tb % 12800 = 0) :
    (∃ v, (s.watchExit a).regs = regPuts s.regs
      [(R.ADC_STAT_WATCH a, 0), (R.ADC_INT_STAT_WATCH_CHG a, 1), (R.ADC_STAT_CALPHASE a, v)]) ∧
      (s.watchExit a).adcs = upd s.adcs a (AdcGroup.returned s.tb) ∧
      (s.watchExit a).mld = s.mld ∧ (s.watchExit a).ldg = s.ldg := by
  have left : s.watchExit a = (((s.clr (R.ADC_STAT_WATCH a)).set1 (R.ADC_INT_STAT_WATCH_CHG a)).presetHists a).backToNormal a := by
    unfold State.watchExit
    simp only [hu]
    rw [if_neg (by simp [hrun, hd, htb])]
    rfl
  obtain ⟨cs, hcs⟩ := ((s.clr (R.ADC_STAT_WATCH a)).set1 (R.ADC_INT_STAT_WATCH_CHG a)).presetHists_eq a
  rw [left, hcs]
  exact ⟨⟨_, State.calRestart_regs _ (by simpa [State.upAdc] using hl.symm ▸ ha)⟩, List.modify_modify_eq .., rfl, rfl⟩

/-! ### The commands -/

section
variable {t a : Nat} {s : State} (ha : a < 4)
include ha

theorem Does.testStart_refused {code : Nat} (hc : code < 16) (h : (s.at t).testStart a = (s.at t).testRefused a code) :
    Does (.testStart t a) s fun s' =>
      s'.get (R.ADC_TSTAT_ERR a) = code ∧ s'.get (R.ADC_INT_STAT_TEST_DONE a) = 1 ∧ s'.adcs = s.adcs ∧
      KeepsBut [R.ADC_TSTAT_ERR a, R.ADC_INT_STAT_TEST_DONE a] s s' :=
  .of_adcPuts (f := fun x => x.testStart a) [(R.ADC_TSTAT_ERR a, code), (R.ADC_INT_STAT_TEST_DONE a, 1)] rfl ha (by decide) h
    rfl (testRefused_fields a ha) ⟨rfl, rfl⟩ fun s' hadcs shown hk => by
      simp only [List.forall_mem_cons] at shown
      obtain ⟨herr, hdone, -⟩ := shown
      exact ⟨herr.trans (Nat.mod_eq_of_lt hc), hdone, hadcs, hk⟩

theorem Does.testStart_begun (hl : s.adcs.length = 4)
    (h : (s.at t).testStart a = ((s.at t).testShown a).upAdc a fun x => { x with test := some (.begun s a (s.at t).tb) }) :
    Does (.testStart t a) s fun s' =>
      s'.get (R.ADC_TSTAT_BUSY a) = 1 ∧ s'.get (R.ADC_STAT_TESTING a) = 1 ∧ s'.get (R.ADC_TSTAT_ERR a) = 0 ∧
      s'.get (R.ADC_TSTAT_VERDICT a) = 0 ∧ (s'.adc a).test = some (.begun s a (s.at t).tb) ∧
      KeepsBut [R.ADC_TSTAT_BUSY a, R.ADC_STAT_TESTING a, R.ADC_TSTAT_ERR a, R.ADC_TSTAT_VERDICT a] s s' :=
  .of_adcPuts (f := fun x => x.testStart a) _ rfl ha (by decide) h ((s.at t).testShown_regs a) (testStart_fields a ha).1
    ⟨rfl, rfl⟩ fun s' hadcs shown hk => by
      simp only [List.forall_mem_cons] at shown
      obtain ⟨herr, hverdict, hbusy, htesting, -⟩ := shown
      exact ⟨hbusy, htesting, herr, hverdict, congrArg AdcGroup.test (State.adc_upd (s := s) (hl.symm ▸ ha) hadcs),
        hk.mono (by simp)⟩

theorem Does.testAbort_busy (hl : s.adcs.length = 4) (hb : s.is (R.ADC_TSTAT_BUSY a) = true) :
    Does (.testAbort t a) s fun s' =>
      s'.get (R.ADC_TSTAT_ERR a) = 3 ∧ s'.get (R.ADC_TSTAT_BUSY a) = 0 ∧ s'.get (R.ADC_STAT_TESTING a) = 0 ∧
      s'.get (R.ADC_INT_STAT_TEST_DONE a) = 1 ∧ (s'.adc a).test = none :=
  .of_adcPuts (f := fun x => x.testAbort a) [(R.ADC_TSTAT_ERR a, 3), (R.ADC_TSTAT_BUSY a, 0), (R.ADC_STAT_TESTING a, 0),
      (R.ADC_INT_STAT_TEST_DONE a, 1)] rfl ha (by decide) (if_pos hb) rfl (testAbort_fields a ha) ⟨rfl, rfl⟩
    fun s' hadcs shown _ => by
      simp only [List.forall_mem_cons] at shown
      obtain ⟨herr, hbusy, htesting, hdone, -⟩ := shown
      exact ⟨herr, hbusy, htesting, hdone, congrArg AdcGroup.test (State.adc_upd (s := s) (hl.symm ▸ ha) hadcs)⟩

theorem Does.testSettleEnd_due {y : AdcTest} (hl : s.adcs.length = 4) (hy : (s.adc a).test = some y) (hp : y.phase = 2)
    (h : y.since + 160000 * s.get (R.ADC_TTHR_SETTLE a) ≤ (s.at t).tb) : Does (.testSettleEnd t a) s fun s' =>
      (s'.adc a).test = some (y.phased 3 (s.at t).tb) ∧ KeepsBut [] s s' :=
  .of_adcPuts (f := fun x => x.testSettle a) [] rfl ha (by decide) (State.testSettle_due (s := s.at t) hy hp h) rfl (by decide)
    ⟨rfl, rfl⟩ fun s' hadcs _ hk => ⟨congrArg AdcGroup.test (State.adc_upd (s := s) (hl.symm ▸ ha) hadcs), hk⟩

theorem Does.testMeanEnd_base {y : AdcTest} (hl : s.adcs.length = 4) (hy : (s.adc a).test = some y) (hp : y.phase = 1)
    (h : 2 ^ y.avg ≤ y.cnt) : Does (.testMeanEnd t a) s fun s' =>
      s'.get (R.ADC_TBASE a) = ofS 32 (divRne y.sum (2 ^ y.avg)) ∧ (s'.adc a).test = some (y.phased 2 (s.at t).tb) ∧
      KeepsBut [R.ADC_TBASE a] s s' :=
  .of_adcPuts (f := fun x => x.testMean a) [(R.ADC_TBASE a, ofS 32 (divRne y.sum (2 ^ y.avg)))] rfl ha (by decide)
    (State.testMean_base (s := s.at t) hy hp h) rfl (testBase_fields a ha) ⟨rfl, rfl⟩ fun s' hadcs shown hk =>
      ⟨(shown _ List.mem_cons_self).trans (ofS_mod 32 _),
        congrArg AdcGroup.test (State.adc_upd (s := s) (hl.symm ▸ ha) hadcs), hk⟩

theorem Does.testMeanEnd_result {y : AdcTest} (hl : s.adcs.length = 4) (hy : (s.adc a).test = some y) (hp : y.phase = 3)
    (h : 2 ^ y.avg ≤ y.cnt) : Does (.testMeanEnd t a) s fun s' =>
      s'.get (R.ADC_TRES a) = ofS 32 (divRne y.sum (2 ^ y.avg)) ∧
      s'.get (R.ADC_TSTAT_VERDICT a) =
        (if y.kind = 2 then s.testVerdict a (divRne y.sum (2 ^ y.avg)) else s.get (R.ADC_TSTAT_VERDICT a)) ∧
      s'.get (R.ADC_TSTAT_BUSY a) = 0 ∧ s'.get (R.ADC_INT_STAT_TEST_DONE a) = 1 ∧ (s'.adc a).test = none := by
  by_cases hk : y.kind = 2
  · refine .of_adcPuts (f := fun x => x.testMean a) [(R.ADC_TRES a, ofS 32 (divRne y.sum (2 ^ y.avg))),
      (R.ADC_TSTAT_VERDICT a, s.testVerdict a (divRne y.sum (2 ^ y.avg))), (R.ADC_TSTAT_BUSY a, 0), (R.ADC_STAT_TESTING a, 0),
      (R.ADC_INT_STAT_TEST_DONE a, 1)] rfl ha (by decide) (State.testMean_verdict (s := s.at t) ha hy hp h hk) rfl
      (testVerdict_fields a ha).1 ⟨rfl, rfl⟩ fun s' hadcs shown _ => ?_
    simp only [List.forall_mem_cons] at shown
    obtain ⟨hres, hverdict, hbusy, -, hdone, -⟩ := shown
    have two : s.testVerdict a (divRne y.sum (2 ^ y.avg)) < 4 := by unfold State.testVerdict; split <;> decide
    exact ⟨hres.trans (ofS_mod 32 _), (hverdict.trans (Nat.mod_eq_of_lt two)).trans (if_pos hk).symm, hbusy, hdone,
      congrArg AdcGroup.test (State.adc_upd (s := s) (hl.symm ▸ ha) hadcs)⟩
  · obtain ⟨fields, beside⟩ := testResult_fields a ha
    refine .of_adcPuts (f := fun x => x.testMean a) [(R.ADC_TRES a, ofS 32 (divRne y.sum (2 ^ y.avg))), (R.ADC_TSTAT_BUSY a, 0),
      (R.ADC_STAT_TESTING a, 0), (R.ADC_INT_STAT_TEST_DONE a, 1)] rfl ha (by decide)
      (State.testMean_result (s := s.at t) hy hp h hk) rfl fields ⟨rfl, rfl⟩ fun s' hadcs shown hkeeps => ?_
    simp only [List.forall_mem_cons] at shown
    obtain ⟨hres, hbusy, -, hdone, -⟩ := shown
    exact ⟨hres.trans (ofS_mod 32 _), (hkeeps.get_beside beside).trans (if_neg hk).symm, hbusy, hdone,
      congrArg AdcGroup.test (State.adc_upd (s := s) (hl.symm ▸ ha) hadcs)⟩

theorem Does.watchRequest_refused (h : ((List.range 8).any fun j => s.inputTaken (8 * a + j)) = true) :
    Does (.watchRequest t a) s fun s' =>
      s'.get (R.ADC_INT_STAT_WATCH_REFUSED a) = 1 ∧ s'.adcs = s.adcs ∧ KeepsBut [R.ADC_INT_STAT_WATCH_REFUSED a] s s' :=
  .of_adcPuts (f := fun x => x.watchRequest a) [(R.ADC_INT_STAT_WATCH_REFUSED a, 1)] rfl ha (by decide)
    (((s.at t).watchRequest_eq a).trans (if_pos h)) rfl (watchBit_fields a ha).2.1 ⟨rfl, rfl⟩ fun s' hadcs shown hk =>
      ⟨shown _ List.mem_cons_self, hadcs, hk⟩

theorem Does.watchRequest_taken (hl : s.adcs.length = 4)
    (h : ((List.range 8).any fun j => s.inputTaken (8 * a + j)) = false) : Does (.watchRequest t a) s fun s' =>
      s'.get (R.ADC_CTL_WATCH a) = 1 ∧ (s'.adc a).settle = none ∧ KeepsBut [R.ADC_CTL_WATCH a] s s' :=
  .of_adcPuts (f := fun x => x.watchRequest a) [(R.ADC_CTL_WATCH a, 1)] rfl ha (by decide)
    (((s.at t).watchRequest_eq a).trans (if_neg (ne_true_of_eq_false h))) rfl (watchBit_fields a ha).1 ⟨rfl, rfl⟩
    fun s' hadcs shown hk => ⟨shown _ List.mem_cons_self,
      congrArg AdcGroup.settle (State.adc_upd (s := s) (hl.symm ▸ ha) hadcs), hk⟩

theorem Does.watchEnter_due (hl : s.adcs.length = 4) (hrun : s.smpRuns = true) (hctl : s.is (R.ADC_CTL_WATCH a) = true)
    (hstat : s.is (R.ADC_STAT_WATCH a) = false) (htb : (s.at t).tb % 800 = 0) : Does (.watchEnter t a) s fun s' =>
      s'.get (R.ADC_STAT_WATCH a) = 1 ∧ s'.get (R.ADC_INT_STAT_WATCH_CHG a) = 1 ∧ s'.get (R.ADC_STAT_CALPHASE a) = 0 ∧
      (s'.adc a).steps = 0 ∧
      KeepsBut [R.ADC_STAT_WATCH a, R.ADC_INT_STAT_WATCH_CHG a, R.ADC_STAT_CALPHASE a] s s' := by
  obtain ⟨hregs, hadcs, hmld, hldg⟩ := State.watchEnter_due (s := s.at t) ha hl hrun hctl hstat htb
  refine .of_adcPuts (f := fun x => x.watchEnter a) _ rfl ha (by decide) rfl hregs (watch_fields a ha) ⟨hmld, hldg⟩
    fun s' hadcs' shown hk => ?_
  simp only [List.forall_mem_cons] at shown
  obtain ⟨hwatch, hchg, hphase, -⟩ := shown
  exact ⟨hwatch, hchg, hphase, congrArg AdcGroup.steps (State.adc_upd (s := s) (hl.symm ▸ ha) (hadcs'.trans hadcs)), hk⟩

theorem Does.watchExitRequest (hl : s.adcs.length = 4) : Does (.watchExitRequest t a) s fun s' =>
    s'.get (R.ADC_CTL_WATCH a) = 0 ∧
    (s'.adc a).settle = (if s.is (R.ADC_STAT_WATCH a) then some ((s.at t).tb + 320000) else (s.adc a).settle) ∧
    KeepsBut [R.ADC_CTL_WATCH a] s s' := by
  have fields := (watchBit_fields a ha).1
  have request := State.watchExitRequest_eq (s := s.at t) ha
  cases hw : s.is (R.ADC_STAT_WATCH a)
  · refine .of_adcPuts (f := fun x => x.watchExitRequest a) [(R.ADC_CTL_WATCH a, 0)] rfl ha (by decide)
      (request.trans (if_neg (ne_true_of_eq_false hw))) rfl fields ⟨rfl, rfl⟩ fun s' hadcs shown hk => ?_
    exact ⟨shown _ List.mem_cons_self, congrArg AdcGroup.settle (State.adc_congr hadcs a), hk⟩
  · refine .of_adcPuts (f := fun x => x.watchExitRequest a) [(R.ADC_CTL_WATCH a, 0)] rfl ha (by decide)
      (request.trans (if_pos hw)) rfl fields ⟨rfl, rfl⟩ fun s' hadcs shown hk => ?_
    exact ⟨shown _ List.mem_cons_self, congrArg AdcGroup.settle (State.adc_upd (s := s) (hl.symm ▸ ha) hadcs), hk⟩

theorem Does.watchExit_early {u : Nat} (hu : (s.adc a).settle = some u)
    (h : (s.at t).tb < u ∨ (s.at t).tb % 12800 ≠ 0) : Does (.watchExit t a) s fun s' =>
      s'.adcs = s.adcs ∧ s'.chains = s.chains ∧ KeepsBut [] s s' := by
  have still : (s.at t).watchExit a = s.at t := State.watchExit_early (s := s.at t) hu h
  refine .of_act (f := fun x => x.watchExit a) (onUnit_pos ha ..) fun _ => ?_
  rw [still, State.finish, if_neg (by decide)]
  exact ⟨State.settle_adcs_in (by decide), State.settle_chains_in (by decide), .settle _ _ (.refl [] s)⟩

theorem Does.watchExit_due {u : Nat} (hl : s.adcs.length = 4) (hu : (s.adc a).settle = some u) (hrun : s.smpRuns = true)
    (hd : u ≤ (s.at t).tb) (htb : (s.at t).tb % 12800 = 0) : Does (.watchExit t a) s fun s' =>
      s'.get (R.ADC_STAT_WATCH a) = 0 ∧ s'.get (R.ADC_INT_STAT_WATCH_CHG a) = 1 ∧ (s'.adc a).settle = none ∧
      (s'.adc a).watchOn = false ∧ (s'.adc a).steps = 0 ∧
      KeepsBut [R.ADC_STAT_WATCH a, R.ADC_INT_STAT_WATCH_CHG a, R.ADC_STAT_CALPHASE a] s s' := by
  obtain ⟨⟨v, hregs⟩, hadcs, hmld, hldg⟩ := State.watchExit_due (s := s.at t) ha hl hu hrun hd htb
  refine .of_adcPuts (f := fun x => x.watchExit a) _ rfl ha (by decide) rfl hregs (watch_fields a ha) ⟨hmld, hldg⟩
    fun s' hadcs' shown hk => ?_
  simp only [List.forall_mem_cons] at shown
  obtain ⟨hwatch, hchg, -⟩ := shown
  have group := State.adc_upd (s := s) (hl.symm ▸ ha) (hadcs'.trans hadcs)
  exact ⟨hwatch, hchg, congrArg AdcGroup.settle group, congrArg AdcGroup.watchOn group, congrArg AdcGroup.steps group, hk⟩

end

end Sys2Proof.Machine

open Sys2Proof Sys2Proof.Machine

/-- Settles O13, command by command: each case of a test's and of watch mode's state writes its fields and its part of the
group. -/
theorem testsAndWatchModeOfAGroup : Obligations.TestsAndWatchModeOfAGroup := by
  unfold Obligations.TestsAndWatchModeOfAGroup
  intro t n s hn hl now x i kind taken
  refine ⟨fun hb => ?_, fun hb => .testAbort_busy hn hl hb, fun hb => ?_, fun y hy => ?_, fun h => .watchRequest_refused hn h,
    fun h => .watchRequest_taken hn hl h, fun hrun hctl hstat htb => .watchEnter_due hn hl hrun hctl hstat htb, fun h => ?_,
    .watchExitRequest hn hl,
    fun u hu => ⟨fun hrun hd htb => .watchExit_due hn hl hu hrun hd htb, fun h => .watchExit_early hn hu h⟩⟩
  · have start := State.testStart_idle (s := s.at t) hn hb
    refine ⟨fun htaken hown => ?_, fun hfree => ⟨fun hwatch => ?_, fun hwatch hkind => ?_, fun hwatch hkind => ?_⟩⟩
    · exact .testStart_refused hn (by decide) (start.trans (if_pos (Bool.and_eq_true_iff.2 ⟨htaken, hown⟩)))
    · refine (Does.testStart_refused hn (code := 2) (by decide) ?_).mono fun s' ⟨herr, hdone, hadcs, _⟩ => ⟨herr, hdone, hadcs⟩
      exact start.trans ((if_neg (ne_true_of_eq_false hfree)).trans (if_pos hwatch))
    · refine (Does.testStart_refused hn (code := 3) (by decide) ?_).mono fun s' ⟨herr, hdone, hadcs, _⟩ => ⟨herr, hdone, hadcs⟩
      exact start.trans ((if_neg (ne_true_of_eq_false hfree)).trans ((if_neg (ne_true_of_eq_false hwatch)).trans (if_pos hkind)))
    · exact .testStart_begun hn hl
        (start.trans ((if_neg (ne_true_of_eq_false hfree)).trans ((if_neg (ne_true_of_eq_false hwatch)).trans (if_neg hkind))))
  · exact .of_adcStill (f := fun x => x.testAbort n) rfl hn (by decide) (if_neg (ne_true_of_eq_false hb))
  · exact ⟨fun hp h => .testSettleEnd_due hn hl hy hp h,
      fun h => .of_adcStill (f := fun x => x.testSettle n) rfl hn (by decide) (State.testSettle_early (s := s.at t) hy h),
      fun hp h => .testMeanEnd_base hn hl hy hp h, fun hp h => .testMeanEnd_result hn hl hy hp h,
      fun h => .of_adcStill (f := fun x => x.testMean n) rfl hn (by decide) (State.testMean_early (s := s.at t) hy h)⟩
  · exact .of_adcStill (f := fun x => x.watchEnter n) rfl hn (by decide) (State.watchEnter_still (s := s.at t) h)
end

section
/-!
Background calibration of a group's slices (R49–R51, R54): its steps, its commit or failure, the retirement of a slice, and
the handover to the next.
-/

namespace Sys2Proof.Machine

/-! ### When a group calibrates -/

/-- A group that frames in normal mode. -/
def State.frames (s : State) (a : Nat) : Bool :=
  s.is (R.ADC_CTL_EN a) && s.is (R.ADC_STAT_READY a) && !s.is (R.ADC_STAT_WATCH a)

theorem State.calRuns_eq (s : State) (a : Nat) :
    s.calRuns a = (s.frames a && s.is (R.ADC_CTL_CALEN a) && decide (s.get (R.ADC_STAT_FREE a) < 9)) := by
  unfold State.calRuns State.frames
  cases s.is (R.ADC_STAT_WATCH a) <;> cases s.is (R.ADC_CTL_CALEN a) <;> simp

/-- Whether it frames rests on three fields. -/
theorem KeepsBut.frames {fs : List RF} {s s' : State} {a : Nat} (h : KeepsBut fs s s') (hen : (R.ADC_CTL_EN a).BesideAll fs)
    (hready : (R.ADC_STAT_READY a).BesideAll fs) (hwatch : (R.ADC_STAT_WATCH a).BesideAll fs) : s'.frames a = s.frames a := by
  simp only [State.frames, h.is_beside hen, h.is_beside hready, h.is_beside hwatch]

/-- No field of the groups says whether the sampling domain runs. -/
theorem KeepsBut.smpRuns {fs : List RF} {s s' : State} (h : KeepsBut fs s s') (hfs : ∀ f ∈ fs, f.OfAdc) (hc : s'.clk = s.clk) :
    s'.smpRuns = s.smpRuns := by
  have out : s'.is (R.CLK_OUT_CFG_EN 3) = s.is (R.CLK_OUT_CFG_EN 3) := by
    rw [State.is, State.is, h.get _ (by decide) fun f hf => ?_]
    have := hfs f hf
    simp only [RF.OfAdc] at this
    simp only [RF.apart, R.CLK_OUT_CFG_EN]
    omega
  rw [State.smpRuns, State.smpRuns, hc, out]

/-! ### A step (R49) -/

/-- A step of the free slice of a calibrating group may complete. -/
structure State.Calibrates (s : State) (a : Nat) : Prop where
  frames : s.frames a = true
  run : s.smpRuns = true
  en : s.is (R.ADC_CTL_CALEN a) = true
  free : s.get (R.ADC_STAT_FREE a) < 9
  snap : (s.adc a).snap = none
  hand : (s.adc a).handover = false
  due : (s.adc a).calFrom + 6400 ≤ s.tb

/-- The group with one more step done. -/
def State.stepped (s : State) (a : Nat) : State :=
  s.upAdc a fun y => { y with steps := (s.adc a).steps + 1, calFrom := (s.adc a).calFrom + 6400 }

theorem State.calStep_eq {s : State} {a : Nat} {off gain skew bw : Int} (h : s.Calibrates a) : s.calStep a off gain skew bw =
    if (s.adc a).steps + 1 < 20000 then (s.stepped a).put (R.ADC_STAT_CALPHASE a) (calPhase ((s.adc a).steps + 1))
    else (s.stepped a).calCommit a off gain skew bw := by
  obtain ⟨frames, run, en, free, snap, hand, due⟩ := h
  have runs : s.calRuns a = true := by rw [State.calRuns_eq, frames, en, decide_eq_true free]; rfl
  unfold State.calStep
  dsimp only
  rw [if_neg (by simp [en]), if_neg (by simp [run, runs, snap, hand, due])]
  rfl

/-- With CALEN cleared meanwhile the calibration stops as the step completes. -/
theorem State.calStep_last {s : State} {a : Nat} {off gain skew bw : Int} (hen : s.is (R.ADC_CTL_CALEN a) = false)
    (hphase : s.is (R.ADC_STAT_CALPHASE a) = true) (h : (s.adc a).calFrom + 6400 ≤ s.tb) : s.calStep a off gain skew bw =
      (s.upAdc a fun y => { y with steps := 0 }).clr (R.ADC_STAT_CALPHASE a) := by
  unfold State.calStep
  dsimp only
  rw [if_pos (by simp [hen, hphase]), if_neg (Nat.not_lt.2 h)]

/-! ### The commit (R50, R51) -/

theorem calOk_iff {off gain skew bw : Int} : calOk off gain skew bw = true ↔
    off.natAbs ≤ 24576 ∧ gain.natAbs ≤ 26214 ∧ -128 ≤ skew ∧ skew ≤ 127 ∧ bw.natAbs ≤ 2047 := by
  simp only [calOk, Bool.and_eq_true, decide_eq_true_eq, and_assoc]

theorem calPhase_fields : ∀ a < 4, AdcFields [R.ADC_STAT_CALPHASE a] := by decide

theorem calStore_fields : ∀ a < 4, ∀ k < 9,
    AdcFields [R.ADC_STAT_CALPHASE a, R.ADC_SL_OFF a k, R.ADC_SL_GAIN a k, R.ADC_SL_SKEW_SKEW a k, R.ADC_SL_BW a k,
      R.ADC_SL_SKEW_FAILS a k, R.ADC_INT_STAT_CAL_DONE a, R.ADC_STAT_CAL_STARVED a] := by decide

theorem calFail_fields : ∀ a < 4, ∀ k < 9,
    AdcFields [R.ADC_STAT_CALPHASE a, R.ADC_SL_SKEW_FAILS a k, R.ADC_INT_STAT_CAL_FAIL a] ∧
    (R.ADC_SL_SKEW_FAILS a k).BesideAll [R.ADC_STAT_CALPHASE a] := by decide

/-- Results within the limits are stored. -/
theorem State.calCommit_ok {s : State} {a : Nat} {off gain skew bw : Int} (h : calOk off gain skew bw = true) :
    s.calCommit a off gain skew bw =
      ((((((s.clr (R.ADC_STAT_CALPHASE a)).upAdc a fun x => { x with handover := true }).calStore a
        (s.get (R.ADC_STAT_FREE a)) off gain skew bw).set1 (R.ADC_INT_STAT_CAL_DONE a)).clr
        (R.ADC_STAT_CAL_STARVED a)).upAdc a fun x => { x with starve := s.tb }) := by
  unfold State.calCommit
  dsimp only
  rw [if_pos h]
  rfl

/-- A failed calibration counted. -/
def State.calFailed (s : State) (a : Nat) : State :=
  ((((s.clr (R.ADC_STAT_CALPHASE a)).upAdc a fun x => { x with handover := true }).put
    (R.ADC_SL_SKEW_FAILS a (s.get (R.ADC_STAT_FREE a))) (s.get (R.ADC_SL_SKEW_FAILS a (s.get (R.ADC_STAT_FREE a))) + 1)).set1
    (R.ADC_INT_STAT_CAL_FAIL a))

/-- Others are not, and the second failure retires the slice. -/
theorem State.calCommit_fail {s : State} {a : Nat} {off gain skew bw : Int} (ha : a < 4)
    (hk : s.get (R.ADC_STAT_FREE a) < 9) (h : calOk off gain skew bw = false) : s.calCommit a off gain skew bw =
      if 2 ≤ s.get (R.ADC_SL_SKEW_FAILS a (s.get (R.ADC_STAT_FREE a))) + 1 then
        (s.calFailed a).retire a (s.get (R.ADC_STAT_FREE a))
      else s.calFailed a := by
  obtain ⟨fields, beside⟩ := calFail_fields a ha _ hk
  have kept : KeepsBut [R.ADC_STAT_CALPHASE a] s ((s.clr (R.ADC_STAT_CALPHASE a)).upAdc a fun x => { x with handover := true }) :=
    .of_puts (ws := [(R.ADC_STAT_CALPHASE a, 0)]) rfl (AdcFields.left (gs := [_, _]) fields).1
  unfold State.calCommit
  dsimp only
  rw [if_neg (ne_true_of_eq_false h), kept.get_beside beside]
  rfl

/-! ### A reason told (R51, R368) -/

/-- The fields that a post to `ring` may change. -/
def postFields (ring : Nat) : List RF := [R.LDG_STAT_QUEUED, R.LDG_RING_DROPS ring, R.LDG_INT_STAT_DROP]

theorem postFields_fit (ring : Nat) : ∀ f ∈ postFields ring, f.Fits := by
  simp [postFields, RF.Fits, R.LDG_STAT_QUEUED, R.LDG_RING_DROPS, R.LDG_INT_STAT_DROP]

/-- What a post may leave: the groups as they were, and no register changed but those of posts. -/
def State.Posted (ring : Nat) (o s : State) : Prop := s.adcs = o.adcs ∧ KeepsBut (postFields ring) o s

section
variable {ring : Nat} {o s : State} (h : State.Posted ring o s)
include h

theorem State.Posted.put {f : RF} {v : Nat} (hf : f ∈ postFields ring) : State.Posted ring o (s.put f v) :=
  ⟨h.1, h.2.put_fits (postFields_fit ring f hf) hf⟩

theorem State.Posted.ldgQueue {r typ sev block unit : Nat} {payload : List Byte} :
    State.Posted ring o (s.ldgQueue r typ sev block unit payload) := h.put (by simp [postFields])

theorem State.Posted.ldgRefuse : State.Posted ring o (s.ldgRefuse ring) :=
  (h.put (f := R.LDG_RING_DROPS ring) (by simp [postFields])).put (f := R.LDG_INT_STAT_DROP) (by simp [postFields])

theorem State.Posted.ldgDropped : State.Posted ring o s.ldgDropped := by
  unfold State.ldgDropped
  split
  · exact h
  · exact State.Posted.ldgQueue (s := { s with drawn := _, ldg := _ }) h

theorem State.Posted.ldgPost {typ sev block unit : Nat} {payload : List Byte} :
    State.Posted ring o (s.ldgPost ring typ sev block unit payload) := by
  unfold State.ldgPost
  split
  exacts [h.ldgQueue, h.ldgRefuse.ldgDropped]

end

/-- The fields that a reason told may change. -/
def reasonFields : List RF := [R.HLT_REPLACE_REASONS, R.HLT_REPLACE_FIRST, R.HLT_INT_STAT_REASON] ++ postFields 1

/-- A reason lies in its bit, and what else telling it changes is FIRST, its flag and the post. -/
theorem State.hltReason_spec (s : State) {code : Nat} (hc : code < 16) : bit ((s.hltReason code).get R.HLT_REPLACE_REASONS) code = true ∧
    (s.hltReason code).adcs = s.adcs ∧ KeepsBut reasonFields s (s.hltReason code) := by
  unfold State.hltReason
  split
  · next h => exact ⟨h, rfl, .refl _ s⟩
  · extract_lets s1 s2
    have h1 : KeepsBut [R.HLT_REPLACE_FIRST] s1 s2 ∧ s2.adcs = s1.adcs := by
      unfold s2
      split
      · exact ⟨(KeepsBut.refl _ s1).put _ _ (by decide) (by decide), rfl⟩
      · exact ⟨.refl _ s1, rfl⟩
    obtain ⟨hadcs, hposted⟩ : State.Posted 1 (s2.set1 R.HLT_INT_STAT_REASON)
        ((s2.set1 R.HLT_INT_STAT_REASON).ldgPostType 1 code 21 0) :=
      State.Posted.ldgPost (s := { s2.set1 R.HLT_INT_STAT_REASON with drawn := _ }) ⟨rfl, .refl _ _⟩
    have reason : KeepsBut [R.HLT_REPLACE_FIRST, R.HLT_INT_STAT_REASON] s1 (s2.set1 R.HLT_INT_STAT_REASON) :=
      (h1.1.mono (by simp)).put R.HLT_INT_STAT_REASON 1 (by decide) (by decide)
    refine ⟨?_, hadcs.trans h1.2, ?_⟩
    · rw [hposted.get _ (by decide) (by decide), reason.get _ (by decide) (by decide),
        show s1.get R.HLT_REPLACE_REASONS = _ from State.get_put_same _ _ _ (by decide)]
      exact bit_or_two_pow hc
    · exact (((KeepsBut.refl _ s).put R.HLT_REPLACE_REASONS _ (by decide) (by decide)).trans (reason.mono (by decide))).trans
        (hposted.mono (List.subset_append_right _ _))

theorem KeepsBut.get_reason {s s' : State} {f : RF} (h : KeepsBut reasonFields s s') (hf : f.OfAdc) : s'.get f = s.get f :=
  h.get f (hf.2.trans (by decide)) fun g hg => by
    have block : 0x40140000 ≤ g.addr := by
      revert g
      decide
    simp only [RF.OfAdc] at hf
    simp only [RF.apart]
    omega

theorem retire_fields : ∀ a < 4, AdcFields [R.ADC_STAT_RETIRED a, R.ADC_STAT_FREE a, R.ADC_STAT_CALPHASE a, R.ADC_INT_STAT_RETIRE a] ∧
    ∀ k < 9, (R.ADC_SL_SKEW_FAILS a k).BesideAll
      [R.ADC_STAT_RETIRED a, R.ADC_STAT_FREE a, R.ADC_STAT_CALPHASE a, R.ADC_INT_STAT_RETIRE a] := by decide

/-- The group with its handover done. -/
def AdcGroup.handedOver (x : AdcGroup) : AdcGroup := { x with handover := false }

/-- The group as slice `k` is retired, before the reason is told. -/
def State.retired (s : State) (a k : Nat) : State :=
  ((((s.orr (R.ADC_STAT_RETIRED a) (2 ^ k)).put (R.ADC_STAT_FREE a) 15).clr (R.ADC_STAT_CALPHASE a)).set1
    (R.ADC_INT_STAT_RETIRE a)).upAdc a AdcGroup.handedOver

theorem State.retired_regs (s : State) (a k : Nat) : (s.retired a k).regs = regPuts s.regs
    [(R.ADC_STAT_RETIRED a, s.get (R.ADC_STAT_RETIRED a) ||| 2 ^ k), (R.ADC_STAT_FREE a, 15), (R.ADC_STAT_CALPHASE a, 0),
      (R.ADC_INT_STAT_RETIRE a, 1)] := rfl

/-- The last step of slice `k`, failed a second time, before the reason is told. -/
def State.failedAndRetired (s : State) (a k : Nat) : State := ((s.stepped a).calFailed a).retired a k

theorem State.failedAndRetired_shown {s : State} {a k : Nat} (ha : a < 4) (hl : s.adcs.length = 4) (h9 : k < 9)
    (hk : s.get (R.ADC_STAT_FREE a) = k) (h1 : s.get (R.ADC_SL_SKEW_FAILS a k) = 1) :
    (s.failedAndRetired a k).get (R.ADC_SL_SKEW_FAILS a k) = 2 ∧
      bit ((s.failedAndRetired a k).get (R.ADC_STAT_RETIRED a)) k = true ∧
      (s.failedAndRetired a k).get (R.ADC_STAT_FREE a) = 15 ∧ (s.failedAndRetired a k).get (R.ADC_STAT_CALPHASE a) = 0 ∧
      (s.failedAndRetired a k).get (R.ADC_INT_STAT_RETIRE a) = 1 ∧
      ((s.failedAndRetired a k).adc a).handover = false := by
  subst hk
  obtain ⟨fields, beside⟩ := retire_fields a ha
  have regs := ((s.stepped a).calFailed a).retired_regs a (s.get (R.ADC_STAT_FREE a))
  have shown := regGet_regPuts fields ((s.stepped a).calFailed a).regs
    (ws := [(R.ADC_STAT_RETIRED a, ((s.stepped a).calFailed a).get (R.ADC_STAT_RETIRED a) ||| 2 ^ s.get (R.ADC_STAT_FREE a)),
      (R.ADC_STAT_FREE a, 15), (R.ADC_STAT_CALPHASE a, 0), (R.ADC_INT_STAT_RETIRE a, 1)])
  have failed := regGet_regPuts (calFail_fields a ha _ h9).1 s.regs
    (ws := [(R.ADC_STAT_CALPHASE a, 0), (R.ADC_SL_SKEW_FAILS a (s.get (R.ADC_STAT_FREE a)),
      s.get (R.ADC_SL_SKEW_FAILS a (s.get (R.ADC_STAT_FREE a))) + 1), (R.ADC_INT_STAT_CAL_FAIL a, 1)])
  simp only [List.forall_mem_cons] at shown failed
  obtain ⟨hretired, hfree, hphase, hflag, -⟩ := shown
  obtain ⟨-, hfails, -⟩ := failed
  have group := State.adc_upd (n := s.failedAndRetired a (s.get (R.ADC_STAT_FREE a))) (s := s) (hl.symm ▸ ha)
    ((List.modify_modify_eq ..).trans (List.modify_modify_eq ..))
  exact ⟨((KeepsBut.of_puts regs fields.1).get_beside (beside _ h9)).trans (hfails.trans (by rw [h1]; rfl)),
    (congrArg (bit · _) hretired).trans (bit_or_two_pow h9), hfree, hphase, hflag, congrArg AdcGroup.handover group⟩

/-! ### The handover (R50) -/

theorem handover_fields : ∀ a < 4, AdcFields [R.ADC_CALCNT a, R.ADC_STAT_FREE a, R.ADC_STAT_CALPHASE a] ∧
    (R.ADC_CALCNT a).BesideAll [R.ADC_STAT_FREE a, R.ADC_STAT_CALPHASE a] ∧
    ∀ g ∈ [R.ADC_CTL_EN a, R.ADC_STAT_READY a, R.ADC_STAT_WATCH a, R.ADC_CTL_CALEN a],
      g.BesideAll [R.ADC_CALCNT a, R.ADC_STAT_FREE a] := by decide

/-- A committed slice counted. -/
def State.commitCounted (s : State) (a : Nat) : State :=
  if s.get (R.ADC_SL_SKEW_FAILS a (s.get (R.ADC_STAT_FREE a))) = 0 then s.bumpWrap (R.ADC_CALCNT a) else s

/-- The next slice free in its place. -/
def State.handedOver (s : State) (a : Nat) : State :=
  ((s.commitCounted a).put (R.ADC_STAT_FREE a) ((s.get (R.ADC_STAT_FREE a) + 1) % 9)).upAdc a AdcGroup.handedOver

theorem State.handover_due {s : State} {a : Nat} (hand : (s.adc a).handover = true) (hs : (s.adc a).snap = none)
    (htb : s.tb % 800 = 0) (hwatch : s.is (R.ADC_STAT_WATCH a) = false) (hk : s.get (R.ADC_STAT_FREE a) < 9) : s.handover a =
      (s.handedOver a).calRestart a :=
  if_neg (by simp [hand, hs, htb, hwatch, hk])

/-- A group that hands over: the next slice is free, a committed one is counted, and the next calibrates from its first step. -/
theorem State.handover_shown {s : State} {a : Nat} (ha : a < 4) (hl : s.adcs.length = 4) (hand : (s.adc a).handover = true)
    (hs : (s.adc a).snap = none) (htb : s.tb % 800 = 0) (hwatch : s.is (R.ADC_STAT_WATCH a) = false)
    (hk : s.get (R.ADC_STAT_FREE a) < 9) :
    (s.handover a).regs = regPuts (s.commitCounted a).regs
      [(R.ADC_STAT_FREE a, (s.get (R.ADC_STAT_FREE a) + 1) % 9),
        (R.ADC_STAT_CALPHASE a, b2n (s.frames a && s.smpRuns && s.is (R.ADC_CTL_CALEN a)))] ∧
      (s.handover a).adcs = upd s.adcs a (fun x => x.handedOver.restarted s.tb) ∧
      (s.handover a).mld = s.mld ∧ (s.handover a).ldg = s.ldg ∧ KeepsBut [R.ADC_CALCNT a] s (s.commitCounted a) ∧
      (s.commitCounted a).get (R.ADC_CALCNT a) = (s.get (R.ADC_CALCNT a) +
        if s.get (R.ADC_SL_SKEW_FAILS a (s.get (R.ADC_STAT_FREE a))) = 0 then 1 else 0) % 2 ^ (R.ADC_CALCNT a).width := by
  obtain ⟨⟨hof, hap⟩, hcnt, hgates⟩ := handover_fields a ha
  simp only [List.forall_mem_cons] at hof hgates
  obtain ⟨hofCnt, hofFree, -⟩ := hof
  obtain ⟨hen, hready, hmode, hcalen, -⟩ := hgates
  have counted : (s.commitCounted a).adcs = s.adcs ∧ (s.commitCounted a).clk = s.clk ∧ (s.commitCounted a).tb = s.tb ∧
      (s.commitCounted a).mld = s.mld ∧ (s.commitCounted a).ldg = s.ldg ∧ KeepsBut [R.ADC_CALCNT a] s (s.commitCounted a) ∧
      (s.commitCounted a).get (R.ADC_CALCNT a) = (s.get (R.ADC_CALCNT a) +
        if s.get (R.ADC_SL_SKEW_FAILS a (s.get (R.ADC_STAT_FREE a))) = 0 then 1 else 0) % 2 ^ (R.ADC_CALCNT a).width := by
    unfold State.commitCounted
    split
    · exact ⟨rfl, rfl, rfl, rfl, rfl, .of_puts (ws := [(R.ADC_CALCNT a, _)]) rfl (by simpa using hofCnt),
        (State.get_put_same s _ _ (hofCnt.2.trans (by decide))).trans (Nat.mod_mod ..)⟩
    · exact ⟨rfl, rfl, rfl, rfl, rfl, .refl _ s, (Nat.mod_eq_of_lt (s.get_lt _)).symm⟩
  obtain ⟨hadcs, hclk, htbs, hmld, hldg, hkeeps, hget⟩ := counted
  have free : (s.handedOver a).get (R.ADC_STAT_FREE a) = (s.get (R.ADC_STAT_FREE a) + 1) % 9 := by
    refine (State.get_put_same (s.commitCounted a) _ _ (hofFree.2.trans (by decide))).trans (Nat.mod_eq_of_lt ?_)
    exact (Nat.mod_lt _ (by decide)).trans (show 9 < 16 by decide)
  have keeps : KeepsBut [R.ADC_CALCNT a, R.ADC_STAT_FREE a] s (s.handedOver a) :=
    (hkeeps.mono (by simp)).put (R.ADC_STAT_FREE a) _ (hofFree.2.trans (by decide)) (by simp)
  have group : (s.handedOver a).adc a = (s.adc a).handedOver :=
    State.adc_upd (hl.symm ▸ ha) (congrArg (upd · a AdcGroup.handedOver) hadcs)
  have groups : (s.handedOver a).adcs.length = 4 := (List.length_modify ..).trans ((congrArg List.length hadcs).trans hl)
  have runs : (s.handedOver a).calRuns a = (s.frames a && s.is (R.ADC_CTL_CALEN a)) := by
    rw [State.calRuns_eq, keeps.frames hen hready hmode, keeps.is_beside hcalen, free,
      decide_eq_true (Nat.mod_lt _ (by decide)), Bool.and_true]
  have clocked : (s.handedOver a).smpRuns = s.smpRuns := keeps.smpRuns (by simpa using ⟨hofCnt, hofFree⟩) hclk
  rw [State.handover_due hand hs htb hwatch hk, State.calRestart_adcs]
  refine ⟨?_, ?_, hmld, hldg, hkeeps, hget⟩
  · rw [State.calRestart_regs _ (groups.symm ▸ ha), runs, clocked, group]
    rw [AdcGroup.handedOver, Bool.not_false, Bool.and_true, Bool.and_right_comm]
    rfl
  · rw [show (s.handedOver a).tb = s.tb from htbs]
    exact (congrArg (fun l => upd (upd l a _) a _) hadcs).trans (List.modify_modify_eq ..)

/-! ### CALEN and starvation (R49, R54) -/

theorem b2n_lt_two (b : Bool) : b2n b < 2 := by cases b <;> decide

theorem calenChange_fields : ∀ a < 4, AdcFields [R.ADC_CTL_CALEN a, R.ADC_STAT_CALPHASE a] ∧
    ∀ g ∈ [R.ADC_CTL_EN a, R.ADC_STAT_READY a, R.ADC_STAT_WATCH a, R.ADC_STAT_FREE a],
      g.BesideAll [R.ADC_CTL_CALEN a] := by decide

theorem calStarved_fields : ∀ a < 4, AdcFields [R.ADC_STAT_CAL_STARVED a, R.ADC_INT_STAT_CAL_STARVED a] := by decide

/-- CALEN set: the phase shows where the group frames with a free slice and no handover is due. -/
theorem State.calenSet_regs {s : State} {a : Nat} (ha : a < 4) (hl : s.adcs.length = 4) : (s.calenChange a true).regs =
    regPuts s.regs [(R.ADC_CTL_CALEN a, 1), (R.ADC_STAT_CALPHASE a,
      b2n (s.frames a && s.smpRuns && decide (s.get (R.ADC_STAT_FREE a) < 9) && !(s.adc a).handover))] := by
  obtain ⟨⟨hof, -⟩, hgates⟩ := calenChange_fields a ha
  simp only [List.forall_mem_cons] at hof hgates
  obtain ⟨hofCalen, -⟩ := hof
  obtain ⟨hen, hready, hwatch, hfree, -⟩ := hgates
  have keeps : KeepsBut [R.ADC_CTL_CALEN a] s (s.put (R.ADC_CTL_CALEN a) 1) :=
    .of_puts (ws := [(R.ADC_CTL_CALEN a, 1)]) rfl (by simpa using hofCalen)
  have calen : (s.put (R.ADC_CTL_CALEN a) 1).is (R.ADC_CTL_CALEN a) = true :=
    decide_eq_true (by rw [State.get_put_same _ _ _ (hofCalen.2.trans (by decide))]; exact one_ne_zero)
  have runs : (s.put (R.ADC_CTL_CALEN a) 1).calRuns a = (s.frames a && decide (s.get (R.ADC_STAT_FREE a) < 9)) := by
    rw [State.calRuns_eq, keeps.frames hen hready hwatch, calen, keeps.get_beside hfree, Bool.and_true]
  have clocked : (s.put (R.ADC_CTL_CALEN a) 1).smpRuns = s.smpRuns := keeps.smpRuns (by simpa using hofCalen) rfl
  refine ((s.put (R.ADC_CTL_CALEN a) 1).calRestart_regs (hl.symm ▸ ha)).trans ?_
  rw [runs, clocked, Bool.and_right_comm (s.frames a)]
  rfl

theorem State.calStarved_due {s : State} {a : Nat} (hframes : s.frames a = true) (hen : s.is (R.ADC_CTL_CALEN a) = true)
    (hk : s.get (R.ADC_STAT_FREE a) < 9) (htb : (s.adc a).starve + 4096000000 ≤ s.tb)
    (hstarved : s.is (R.ADC_STAT_CAL_STARVED a) = false) : s.calStarved a =
      (s.set1 (R.ADC_STAT_CAL_STARVED a)).set1 (R.ADC_INT_STAT_CAL_STARVED a) := by
  have runs : s.calRuns a = true := by rw [State.calRuns_eq, hframes, hen, decide_eq_true hk]; rfl
  exact if_neg (by simp [runs, htb, hstarved])

/-! ### The commands -/

section
variable {t a : Nat} {s : State} (ha : a < 4) (hl : s.adcs.length = 4)
include ha hl

section
variable {off gain skew bw : Int} (h : (s.at t).Calibrates a)
include h

theorem Does.calStep_counts (hn : (s.adc a).steps + 1 < 20000) : Does (.calStep t a off gain skew bw) s fun s' =>
    (s'.adc a).steps = (s.adc a).steps + 1 ∧ (s'.adc a).calFrom = (s.adc a).calFrom + 6400 ∧
    s'.get (R.ADC_STAT_CALPHASE a) = calPhase ((s.adc a).steps + 1) ∧ KeepsBut [R.ADC_STAT_CALPHASE a] s s' := by
  have fields := AdcFields.left (fs := [_]) (gs := [_, _]) (calFail_fields a ha _ h.free).1
  refine .of_adcPuts (f := fun x => x.calStep a off gain skew bw)
    [(R.ADC_STAT_CALPHASE a, calPhase ((s.adc a).steps + 1))] rfl ha (by decide)
    ((State.calStep_eq h).trans (if_pos hn)) rfl fields ⟨rfl, rfl⟩ fun s' hadcs shown hk => ?_
  have group := State.adc_upd (s := s) (hl.symm ▸ ha) hadcs
  have three : calPhase ((s.adc a).steps + 1) < 8 := by unfold calPhase; split_ifs <;> decide
  exact ⟨congrArg AdcGroup.steps group, congrArg AdcGroup.calFrom group,
    (shown _ List.mem_cons_self).trans (Nat.mod_eq_of_lt three), hk⟩

theorem Does.calStep_commits (hn : 20000 ≤ (s.adc a).steps + 1) (hok : calOk off gain skew bw = true) {k : Nat}
    (hk : s.get (R.ADC_STAT_FREE a) = k) : Does (.calStep t a off gain skew bw) s fun s' =>
      s'.get (R.ADC_SL_OFF a k) = ofS 16 off ∧ s'.get (R.ADC_SL_GAIN a k) = ofS 16 gain ∧
      s'.get (R.ADC_SL_SKEW_SKEW a k) = ofS 8 skew ∧ s'.get (R.ADC_SL_BW a k) = ofS 12 bw ∧
      s'.get (R.ADC_SL_SKEW_FAILS a k) = 0 ∧ s'.get (R.ADC_INT_STAT_CAL_DONE a) = 1 ∧
      s'.get (R.ADC_STAT_CAL_STARVED a) = 0 ∧ s'.get (R.ADC_STAT_CALPHASE a) = 0 ∧
      (s'.adc a).handover = true ∧ (s'.adc a).starve = (s.at t).tb ∧
      KeepsBut [R.ADC_SL_OFF a k, R.ADC_SL_GAIN a k, R.ADC_SL_SKEW_SKEW a k, R.ADC_SL_BW a k, R.ADC_SL_SKEW_FAILS a k,
        R.ADC_INT_STAT_CAL_DONE a, R.ADC_STAT_CAL_STARVED a, R.ADC_STAT_CALPHASE a] s s' := by
  subst hk
  refine .of_adcPuts (f := fun x => x.calStep a off gain skew bw)
    [(R.ADC_STAT_CALPHASE a, 0), (R.ADC_SL_OFF a (s.get (R.ADC_STAT_FREE a)), ofS 16 off),
      (R.ADC_SL_GAIN a (s.get (R.ADC_STAT_FREE a)), ofS 16 gain), (R.ADC_SL_SKEW_SKEW a (s.get (R.ADC_STAT_FREE a)), ofS 8 skew),
      (R.ADC_SL_BW a (s.get (R.ADC_STAT_FREE a)), ofS 12 bw), (R.ADC_SL_SKEW_FAILS a (s.get (R.ADC_STAT_FREE a)), 0),
      (R.ADC_INT_STAT_CAL_DONE a, 1), (R.ADC_STAT_CAL_STARVED a, 0)] rfl ha (by decide)
    ((State.calStep_eq h).trans ((if_neg (Nat.not_lt.2 hn)).trans (State.calCommit_ok hok))) rfl
    (calStore_fields a ha _ h.free) ⟨rfl, rfl⟩ fun s' hadcs shown hkeeps => ?_
  simp only [List.forall_mem_cons] at shown
  obtain ⟨hphase, hoff, hgain, hskew, hbw, hfails, hdone, hstarved, -⟩ := shown
  have group := State.adc_upd (s := s) (hl.symm ▸ ha)
    (hadcs.trans ((List.modify_modify_eq ..).trans (List.modify_modify_eq ..)))
  exact ⟨hoff.trans (ofS_mod 16 _), hgain.trans (ofS_mod 16 _), hskew.trans (ofS_mod 8 _), hbw.trans (ofS_mod 12 _), hfails,
    hdone, hstarved, hphase, congrArg AdcGroup.handover group, congrArg AdcGroup.starve group,
    hkeeps.mono (by simp)⟩

theorem Does.calStep_fails (hn : 20000 ≤ (s.adc a).steps + 1) (hok : calOk off gain skew bw = false) {k : Nat}
    (hk : s.get (R.ADC_STAT_FREE a) = k) (h0 : s.get (R.ADC_SL_SKEW_FAILS a k) = 0) :
    Does (.calStep t a off gain skew bw) s fun s' =>
      s'.get (R.ADC_SL_SKEW_FAILS a k) = 1 ∧ s'.get (R.ADC_INT_STAT_CAL_FAIL a) = 1 ∧ (s'.adc a).handover = true ∧
      KeepsBut [R.ADC_SL_SKEW_FAILS a k, R.ADC_INT_STAT_CAL_FAIL a, R.ADC_STAT_CALPHASE a] s s' := by
  subst hk
  refine .of_adcPuts (f := fun x => x.calStep a off gain skew bw)
    [(R.ADC_STAT_CALPHASE a, 0), (R.ADC_SL_SKEW_FAILS a (s.get (R.ADC_STAT_FREE a)),
      s.get (R.ADC_SL_SKEW_FAILS a (s.get (R.ADC_STAT_FREE a))) + 1), (R.ADC_INT_STAT_CAL_FAIL a, 1)] rfl ha (by decide)
    ((State.calStep_eq h).trans ((if_neg (Nat.not_lt.2 hn)).trans ((State.calCommit_fail (s := (s.at t).stepped a) ha h.free hok).trans (if_neg ?_)))) rfl
    (calFail_fields a ha _ h.free).1 ⟨rfl, rfl⟩ fun s' hadcs shown hkeeps => ?_
  · exact fun h2 => absurd (h0 ▸ h2) (by decide)
  · simp only [List.forall_mem_cons, h0] at shown
    obtain ⟨-, hfails, hflag, -⟩ := shown
    have group := State.adc_upd (s := s) (hl.symm ▸ ha) (hadcs.trans (List.modify_modify_eq ..))
    exact ⟨hfails, hflag, congrArg AdcGroup.handover group, hkeeps.mono (by simp)⟩

theorem Does.calStep_retires (hn : 20000 ≤ (s.adc a).steps + 1) (hok : calOk off gain skew bw = false) {k : Nat}
    (hk : s.get (R.ADC_STAT_FREE a) = k) (h1 : s.get (R.ADC_SL_SKEW_FAILS a k) = 1) :
    Does (.calStep t a off gain skew bw) s fun s' =>
      s'.get (R.ADC_SL_SKEW_FAILS a k) = 2 ∧ bit (s'.get (R.ADC_STAT_RETIRED a)) k = true ∧
      s'.get (R.ADC_STAT_FREE a) = 15 ∧ s'.get (R.ADC_STAT_CALPHASE a) = 0 ∧ s'.get (R.ADC_INT_STAT_RETIRE a) = 1 ∧
      bit (s'.get R.HLT_REPLACE_REASONS) 1 = true ∧ (s'.adc a).handover = false := by
  have retires : (s.at t).calStep a off gain skew bw = ((s.at t).failedAndRetired a k).hltReason 1 := by
    subst hk
    exact (State.calStep_eq h).trans ((if_neg (Nat.not_lt.2 hn)).trans
      ((State.calCommit_fail (s := (s.at t).stepped a) ha h.free hok).trans
        (if_pos (Nat.succ_le_succ (Nat.le_of_eq h1.symm)))))
  obtain ⟨hreason, hadcs, hkeeps⟩ := ((s.at t).failedAndRetired a k).hltReason_spec (code := 1) (by decide)
  obtain ⟨hfails, hretired, hfree, hphase, hflag, hhand⟩ := State.failedAndRetired_shown (s := s.at t) ha hl (hk ▸ h.free) hk h1
  obtain ⟨⟨hof, -⟩, hskew⟩ := retire_fields a ha
  simp only [List.forall_mem_cons] at hof
  obtain ⟨ofRetired, ofFree, ofPhase, ofFlag, -⟩ := hof
  refine .of_act (f := fun x => x.calStep a off gain skew bw) (onUnit_pos ha ..) fun _ => ?_
  simp only [retires]
  have left := State.LeftBy.of_finish (reach := [.adc, .ldg, .hlt]) (by decide) s
    (((s.at t).failedAndRetired a k).hltReason 1) (s.at t).tb
  have see : ∀ {f : RF}, f.OfAdc → _ := fun {f} hf => (left.get f hf).trans (hkeeps.get_reason hf)
  refine ⟨(see (hskew k (hk ▸ h.free)).1).trans hfails, ?_, (see ofFree).trans hfree, (see ofPhase).trans hphase,
    (see ofFlag).trans hflag, ?_, ?_⟩
  · rw [see ofRetired]
    exact hretired
  · rw [State.finish_get_apart _ (by decide) (by decide), State.settle_get_in (by decide) (by decide)]
    exact hreason
  · rw [State.adc_congr (left.adcs.trans hadcs)]
    exact hhand

end

theorem Does.calStep_last {off gain skew bw : Int} (hen : s.is (R.ADC_CTL_CALEN a) = false)
    (hphase : s.is (R.ADC_STAT_CALPHASE a) = true) (h : (s.adc a).calFrom + 6400 ≤ (s.at t).tb) :
    Does (.calStep t a off gain skew bw) s fun s' =>
      s'.get (R.ADC_STAT_CALPHASE a) = 0 ∧ (s'.adc a).steps = 0 ∧ KeepsBut [R.ADC_STAT_CALPHASE a] s s' :=
  .of_adcPuts (f := fun x => x.calStep a off gain skew bw) [(R.ADC_STAT_CALPHASE a, 0)] rfl ha (by decide)
    (State.calStep_last (s := s.at t) hen hphase h) rfl (calPhase_fields a ha) ⟨rfl, rfl⟩ fun s' hadcs shown hk =>
      ⟨shown _ List.mem_cons_self, congrArg AdcGroup.steps (State.adc_upd (s := s) (hl.symm ▸ ha) hadcs), hk⟩

theorem Does.calHandover_due (hand : (s.adc a).handover = true) (hs : (s.adc a).snap = none) (htb : (s.at t).tb % 800 = 0)
    (hwatch : s.is (R.ADC_STAT_WATCH a) = false) {k : Nat} (hk : s.get (R.ADC_STAT_FREE a) = k) (h9 : k < 9) :
    Does (.calHandover t a) s fun s' =>
      s'.get (R.ADC_STAT_FREE a) = (k + 1) % 9 ∧
      s'.get (R.ADC_CALCNT a) = (s.get (R.ADC_CALCNT a) + if s.get (R.ADC_SL_SKEW_FAILS a k) = 0 then 1 else 0)
        % 2 ^ (R.ADC_CALCNT a).width ∧
      s'.get (R.ADC_STAT_CALPHASE a) = b2n (s.frames a && s.smpRuns && s.is (R.ADC_CTL_CALEN a)) ∧
      (s'.adc a).handover = false ∧ (s'.adc a).steps = 0 ∧ (s'.adc a).calFrom = (s.at t).tb ∧
      KeepsBut [R.ADC_STAT_FREE a, R.ADC_CALCNT a, R.ADC_STAT_CALPHASE a] s s' := by
  subst hk
  obtain ⟨⟨hof, hap⟩, hcnt, -⟩ := handover_fields a ha
  obtain ⟨hregs, hadcs, hmld, hldg, hkeeps, hget⟩ := State.handover_shown (s := s.at t) ha hl hand hs htb hwatch h9
  refine .of_adc (f := fun x => x.handover a) rfl ha (by decide) rfl fun s' left => ?_
  have fields : AdcFields [R.ADC_STAT_FREE a, R.ADC_STAT_CALPHASE a] :=
    ⟨(List.forall_mem_cons.1 hof).2, (List.pairwise_cons.1 hap).2⟩
  have written := KeepsBut.of_puts hregs fields.1
  have shown := left.shown hregs fields
  simp only [List.forall_mem_cons] at shown
  obtain ⟨hfree, hphase, -⟩ := shown
  have group := State.adc_upd (s := s) (hl.symm ▸ ha) (left.adcs.trans hadcs)
  refine ⟨hfree.trans (Nat.mod_eq_of_lt ((Nat.mod_lt _ (by decide)).trans (show 9 < 16 by decide))),
    ((left.get _ hcnt.1).trans (written.get_beside hcnt)).trans hget, hphase.trans (Nat.mod_eq_of_lt ?_),
    congrArg AdcGroup.handover group, congrArg AdcGroup.steps group, congrArg AdcGroup.calFrom group,
    (left.keeps _ hof hmld hldg ((hkeeps.mono (by simp)).trans (written.mono (by simp)))).mono (by simp)⟩
  exact (b2n_lt_two _).trans (show 2 < 8 by decide)

theorem Does.calenChange_on : Does (.calenChange t a true) s fun s' =>
    s'.get (R.ADC_CTL_CALEN a) = 1 ∧ (s'.adc a).steps = 0 ∧ (s'.adc a).calFrom = (s.at t).tb ∧ (s'.adc a).starve = (s.at t).tb ∧
    s'.get (R.ADC_STAT_CALPHASE a) =
      b2n (s.frames a && s.smpRuns && decide (s.get (R.ADC_STAT_FREE a) < 9) && !(s.adc a).handover) ∧
    KeepsBut [R.ADC_CTL_CALEN a, R.ADC_STAT_CALPHASE a] s s' := by
  refine .of_adcPuts (f := fun x => x.calenChange a true) [(R.ADC_CTL_CALEN a, 1), (R.ADC_STAT_CALPHASE a,
      b2n (s.frames a && s.smpRuns && decide (s.get (R.ADC_STAT_FREE a) < 9) && !(s.adc a).handover))] rfl ha (by decide)
    rfl (State.calenSet_regs (s := s.at t) ha hl) (calenChange_fields a ha).1 ⟨rfl, rfl⟩ fun s' hadcs shown hk => ?_
  simp only [List.forall_mem_cons] at shown
  obtain ⟨hcalen, hphase, -⟩ := shown
  have group := State.adc_upd (s := s) (hl.symm ▸ ha) (hadcs.trans (List.modify_modify_eq ..))
  exact ⟨hcalen, congrArg AdcGroup.steps group, congrArg AdcGroup.calFrom group, congrArg AdcGroup.starve group,
    hphase.trans (Nat.mod_eq_of_lt ((b2n_lt_two _).trans (show 2 < 8 by decide))), hk⟩

end

section
variable {t a : Nat} {s : State} (ha : a < 4)
include ha

theorem Does.calenChange_off : Does (.calenChange t a false) s fun s' =>
    s'.get (R.ADC_CTL_CALEN a) = 0 ∧ s'.adcs = s.adcs ∧ KeepsBut [R.ADC_CTL_CALEN a] s s' :=
  .of_adcPuts (f := fun x => x.calenChange a false) [(R.ADC_CTL_CALEN a, 0)] rfl ha (by decide) rfl rfl
    (AdcFields.left (gs := [_]) (calenChange_fields a ha).1) ⟨rfl, rfl⟩ fun s' hadcs shown hk =>
      ⟨shown _ List.mem_cons_self, hadcs, hk⟩

theorem Does.calStarvedTimeout_due (hframes : s.frames a = true) (hen : s.is (R.ADC_CTL_CALEN a) = true)
    (hk : s.get (R.ADC_STAT_FREE a) < 9) (htb : (s.adc a).starve + 4096000000 ≤ (s.at t).tb)
    (hstarved : s.is (R.ADC_STAT_CAL_STARVED a) = false) : Does (.calStarvedTimeout t a) s fun s' =>
      s'.get (R.ADC_STAT_CAL_STARVED a) = 1 ∧ s'.get (R.ADC_INT_STAT_CAL_STARVED a) = 1 ∧
      KeepsBut [R.ADC_STAT_CAL_STARVED a, R.ADC_INT_STAT_CAL_STARVED a] s s' := by
  refine .of_adcPuts (f := fun x => x.calStarved a) [(R.ADC_STAT_CAL_STARVED a, 1), (R.ADC_INT_STAT_CAL_STARVED a, 1)] rfl ha
    (by decide) (State.calStarved_due (s := s.at t) hframes hen hk htb hstarved) rfl (calStarved_fields a ha) ⟨rfl, rfl⟩
    fun s' _ shown hkeeps => ?_
  simp only [List.forall_mem_cons] at shown
  obtain ⟨hstat, hflag, -⟩ := shown
  exact ⟨hstat, hflag, hkeeps⟩

end

end Sys2Proof.Machine

open Sys2Proof Sys2Proof.Machine

/-- Settles O11, command by command: a step counts, commits, fails or retires by its number and its results, and the handover
and CALEN restart the calibration. -/
theorem slicesAreCalibratedInTurn : Obligations.SlicesAreCalibratedInTurn := by
  unfold Obligations.SlicesAreCalibratedInTurn
  intro t n s hn hl now x k live
  refine ⟨fun off gain skew bw hlive hrun hen hk hsnap hhand hdue => ?_,
    fun hhand hsnap htb hwatch hk => .calHandover_due hn hl hhand hsnap htb hwatch rfl hk,
    fun h => .of_adcStill (f := fun x => x.handover n) rfl hn (by decide) (State.handover_still (s := s.at t) h),
    fun hlive hen hk htb hstarved => .calStarvedTimeout_due hn hlive hen hk htb hstarved,
    fun h => .of_adcStill (f := fun x => x.calStarved n) rfl hn (by decide) (if_pos (.inr (.inl h))),
    fun hen hphase hdue off gain skew bw => .calStep_last hn hl hen hphase hdue, .calenChange_off hn, .calenChange_on hn hl⟩
  have calibrates : (s.at t).Calibrates n := ⟨hlive, hrun, hen, hk, hsnap, hhand, hdue⟩
  refine ⟨fun hsteps => .calStep_counts hn hl calibrates hsteps,
    fun hsteps hlim => .calStep_commits hn hl calibrates hsteps (calOk_iff.2 hlim) rfl, fun hsteps hlim => ?_⟩
  have beyond : calOk off gain skew bw = false := by
    refine Bool.eq_false_iff.2 fun hok => ?_
    have hin := calOk_iff.1 hok
    omega
  exact ⟨fun h0 => .calStep_fails hn hl calibrates hsteps beyond rfl h0,
    fun h1 => .calStep_retires hn hl calibrates hsteps beyond rfl h1⟩
end

section
/-!
What the pulse path leaves of the registers: it writes none below the engines' block, and of the states of the sources only
those from source 64 on.
-/

namespace Sys2Proof.Machine

/-- A field where the pulse path may write: from the engines' block on, but for the states of sources 0 to 63. -/
abbrev RF.Pulsed (f : RF) : Prop :=
  f.lsb + f.width ≤ 64 ∧ 0x400A0000 ≤ f.addr ∧ (f.addr + 8 ≤ 0x400E0000 ∨ 0x400E0008 ≤ f.addr)

/-- A field of one word where it does not write. -/
abbrev RF.Spared (g : RF) : Prop :=
  g.lsb + g.width ≤ 32 ∧ (g.addr + 4 ≤ 0x400A0000 ∨ 0x400E0000 ≤ g.addr ∧ g.addr + 4 ≤ 0x400E0008)

theorem RF.Pulsed.off {f g : RF} (hf : f.Pulsed) (hg : g.Spared) : f.Off g := by
  simp only [RF.Pulsed, RF.Spared] at hf hg
  simp only [RF.Off, RF.apart]
  omega

/-- From `o` to `s` no field changed where the pulse path does not write. -/
def State.Spares (o s : State) : Prop := ∀ g : RF, g.Spared → s.get g = o.get g

namespace State.Spares
variable {o s t : State}

theorem refl (s : State) : s.Spares s := fun _ _ => rfl
theorem trans (h : o.Spares s) (h' : s.Spares t) : o.Spares t := fun g hg => (h' g hg).trans (h g hg)

theorem ite {c : Prop} {_ : Decidable c} (h : o.Spares s) (h' : o.Spares t) : o.Spares (if c then s else t) := by
  split <;> assumption
theorem foldl_mem {α : Type} {f : State → α → State} {l : List α} (h : o.Spares s)
    (hf : ∀ s, ∀ a ∈ l, o.Spares s → o.Spares (f s a)) : o.Spares (l.foldl f s) :=
  List.foldlRecOn l f h fun s hs a ha => hf s a ha hs
theorem foldl {α : Type} {f : State → α → State} {l : List α} (h : o.Spares s)
    (hf : ∀ s a, o.Spares s → o.Spares (f s a)) : o.Spares (l.foldl f s) := h.foldl_mem fun s a _ => hf s a

theorem put {f : RF} {v : Nat} (h : o.Spares s) (hf : f.Pulsed) : o.Spares (s.put f v) :=
  h.trans fun _ hg => State.get_put_off (hf.off hg)
theorem set1 {f : RF} (h : o.Spares s) (hf : f.Pulsed) : o.Spares (s.set1 f) := h.put hf (v := 1)
theorem clr {f : RF} (h : o.Spares s) (hf : f.Pulsed) : o.Spares (s.clr f) := h.put hf
theorem bump {f : RF} {n : Nat} (h : o.Spares s) (hf : f.Pulsed) : o.Spares (s.bump f n) := h.put hf
theorem andn {f : RF} {m : Nat} (h : o.Spares s) (hf : f.Pulsed) : o.Spares (s.andn f m) := h.put hf
theorem orr {f : RF} {m : Nat} (h : o.Spares s) (hf : f.Pulsed) : o.Spares (s.orr f m) := h.put hf (v := s.get f ||| m)
theorem upChan {k : Nat} {f : Chan → Chan} (h : o.Spares s) : o.Spares (s.upChan k f) := h
theorem upGroup {k : Nat} {f : PwmGroup → PwmGroup} (h : o.Spares s) : o.Spares (s.upGroup k f) := h
theorem upLane {k : Nat} {f : Lane → Lane} (h : o.Spares s) : o.Spares (s.upLane k f) := h
theorem upEng {k : Nat} {f : Engine → Engine} (h : o.Spares s) : o.Spares (s.upEng k f) := h
theorem with_twn {x : Twin} (h : o.Spares s) : o.Spares { s with twn := x } := h

/-! ### Lanes -/

theorem mute {l why : Nat} (h : o.Spares s) : o.Spares (s.mute l why) :=
  (h.upLane.put (by simp only [RF.Pulsed, R.LNE_LN_STAT_MUTED]; omega)).put (by decide)
theorem setLevel {ch : Nat} {v : Bool} {t : Nat} (h : o.Spares s) : o.Spares (s.setLevel ch v t) := by
  unfold State.setLevel
  extract_lets c s1
  have h1 : o.Spares s1 := .ite (.ite h.upChan h) h.upChan
  exact .ite (h1.put (by decide)) (h1.put (by decide))
theorem runEdge {ch : Nat} (h : o.Spares s) : o.Spares (s.runEdge ch) := by
  unfold State.runEdge
  split
  exacts [h, h.upChan.setLevel]
theorem runEdges {ch t : Nat} (h : o.Spares s) : o.Spares (s.runEdges ch t) := h.foldl fun _ _ hx => hx.runEdge
theorem softSlot {ch mode st : Nat} (h : o.Spares s) : o.Spares (s.softSlot ch mode st) :=
  .ite h.runEdges.upChan.setLevel h.runEdges.upChan
theorem dropEdge {ch : Nat} {e : Edge} {late : Bool} (h : o.Spares s) : o.Spares (s.dropEdge ch e late) := by
  unfold State.dropEdge
  extract_lets l upto s1 s2 s3
  have h1 : o.Spares s1 := (h.bump (by simp only [RF.Pulsed, R.LNE_LN_COUNT1_DROPS]; omega)).set1
    (by simp only [RF.Pulsed, R.LNE_LN_INT_STAT_QFULL]; omega)
  have h2 : o.Spares s2 := h1.put (by simp only [RF.Pulsed, R.LNE_LN_STAT_FS_CAUSE]; omega)
  exact .upLane (.ite (h2.set1 (by simp only [RF.Pulsed, R.LNE_LN_INT_STAT_LATE]; omega)) h2)
theorem seqPut {ch v : Nat} (h : o.Spares s) : o.Spares (s.seqPut ch v) :=
  h.put (by simp only [RF.Pulsed, R.LNE_LN_SEQ]; omega)
theorem edgeGo {l st slot : Nat} {e : Edge} (h : o.Spares s) : o.Spares (s.edgeGo l st slot e) :=
  .ite h.dropEdge (.ite h.seqPut.upChan.upLane h.seqPut.upChan)
theorem sendCmd {l st : Nat} {a : LaneCmd} (h : o.Spares s) : o.Spares (s.sendCmd l st a) := by
  unfold State.sendCmd
  split <;> exact h.upLane.upLane
theorem lineSend {l st cls : Nat} (h : o.Spares s) : o.Spares (s.lineSend l st cls) := by
  unfold State.lineSend
  extract_lets x
  split
  · split
    exacts [.foldl h.upLane.upLane fun _ _ hx => .ite hx.softSlot hx, h]
  · split
    exacts [h.upLane.edgeGo, h]
  · split
    exacts [h.upLane.sendCmd, h]
  · exact h.upLane.upLane
theorem lineRunN {l upto n : Nat} (h : o.Spares s) : o.Spares (State.lineRunN l upto n s) := by
  induction n generalizing s with
  | zero => exact h
  | succ n ih =>
    unfold State.lineRunN
    extract_lets first
    split
    exacts [h, .ite (ih h.lineSend) h]
theorem lineRun {l : Nat} (h : o.Spares s) : o.Spares (s.lineRun l) := h.lineRunN.upLane
theorem sendSoftoff {l mode mask : Nat} {first : Bool} (h : o.Spares s) : o.Spares (s.sendSoftoff l mode mask first) :=
  .ite h h.lineRun.upLane.lineRun

/-! ### Building -/

theorem cutPeriods {g b : Nat} (h : o.Spares s) : o.Spares (s.cutPeriods g b) := by
  unfold State.cutPeriods
  extract_lets keep
  split
  exacts [h, h.upGroup]
theorem queueEdge {ch : Nat} {e : Edge} (h : o.Spares s) : o.Spares (s.queueEdge ch e) := .ite h (.ite h.upChan h.dropEdge)
theorem buildLane {g l : Nat} {p : Period} {x cut : Nat} (h : o.Spares s) : o.Spares (s.buildLane g l p x cut) :=
  .foldl (.upGroup (.foldl h fun _ _ hx => hx.upChan)) fun _ _ hx => hx.queueEdge
theorem rebuildLane {g l x : Nat} {geo : Bool} (h : o.Spares s) : o.Spares (s.rebuildLane g l x geo) :=
  .foldl (.upGroup (.foldl h fun _ _ hx => .ite hx.upChan hx)) fun _ _ hx => .ite hx hx.buildLane
theorem addPeriod {g : Nat} {p : Period} (h : o.Spares s) : o.Spares (s.addPeriod g p) :=
  .foldl h.upGroup fun _ _ hx => hx.buildLane
theorem buildAhead {g n : Nat} (h : o.Spares s) : o.Spares (State.buildAhead g n s) := by
  induction n generalizing s with
  | zero => exact h
  | succ n ih =>
    unfold State.buildAhead
    split
    exacts [.ite (ih h.addPeriod) h, h]
theorem reshape {g t : Nat} (h : o.Spares s) : o.Spares (s.reshape g t) :=
  .ite h (.buildAhead (.foldl h.cutPeriods fun _ _ hx => hx.rebuildLane))

/-! ### Sources that act, and holds that end -/

theorem groupSoftoff {g a : Nat} (h : o.Spares s) : o.Spares (s.groupSoftoff g a) := h.foldl fun _ _ hx => hx.sendSoftoff
theorem holdGroup {g : Nat} (h : o.Spares s) : o.Spares (s.holdGroup g) := h.foldl fun _ _ hx => hx.upChan
theorem showGroup {g : Nat} (h : o.Spares s) (hg : g < 8) : o.Spares (s.showGroup g) :=
  ((h.put (by simp only [RF.Pulsed, R.FMX_PG_STAT_ACTION]; omega)).put
    (by simp only [RF.Pulsed, R.FMX_PG_STAT_LATCHED]; omega)).put (by simp only [RF.Pulsed, R.PWM_PG_STAT_FROZEN]; omega)
theorem traceTrigger {n : Nat} (h : o.Spares s) : o.Spares (s.traceTrigger n) :=
  .ite h (.upEng (.set1 (.put (.put h (by simp only [RF.Pulsed, R.CE_TRC_TRIGPOS]; omega))
    (by simp only [RF.Pulsed, R.CE_TRC_TRIGSTAMP]; omega)) (by simp only [RF.Pulsed, R.CE_TRC_STAT_TRIGGERED]; omega)))
theorem traceAction {g : Nat} (h : o.Spares s) : o.Spares (s.traceAction g) := by
  unfold State.traceAction
  split
  exacts [.ite h.traceTrigger h, h]
theorem takeAction {g src a : Nat} (h : o.Spares s) (hg : g < 8) : o.Spares (s.takeAction g src a) := by
  have acts {t : State} (ht : o.Spares t) : o.Spares ((((t.groupSoftoff g a).holdGroup g).traceAction g).showGroup g) :=
    ht.groupSoftoff.holdGroup.traceAction.showGroup hg
  unfold State.takeAction
  extract_lets cur s1 s2 s3 s4 s5
  have h3 : o.Spares s3 := (h.upGroup.upGroup.bump (by simp only [RF.Pulsed, R.FMX_PG_COUNT]; omega)).set1
    (by simp only [RF.Pulsed, R.FMX_PG_INT_STAT_ACT]; omega)
  have h4 : o.Spares s4 := (h3.put (by simp only [RF.Pulsed, R.FMX_PG_CAUSE_SRC]; omega)).set1
    (by simp only [RF.Pulsed, R.FMX_PG_CAUSE_VALID]; omega)
  have h5 : o.Spares s5 := h.upGroup.upGroup.set1 (by simp only [RF.Pulsed, R.FMX_PG_INT_STAT_ESCALATED]; omega)
  exact .ite (acts h4) (.ite (acts h5) (h.upGroup.showGroup hg))
theorem takeMute {g src a : Nat} (h : o.Spares s) : o.Spares (s.takeMute g src a) :=
  .set1 (.foldl (.ite h.upGroup h.upGroup.with_twn) fun _ _ hx => hx.mute)
    (by simp only [RF.Pulsed, R.FMX_PG_STAT_MUTED]; omega)
theorem actOn {g src : Nat} (h : o.Spares s) (hg : g < 8) : o.Spares (s.actOn g src) :=
  .ite h (.ite h.takeMute (h.takeAction hg))
theorem releaseGroup {g : Nat} {frozen : Bool} (h : o.Spares s) : o.Spares (s.releaseGroup g frozen) :=
  .reshape (.foldl h fun _ _ hx => hx.upChan)
theorem dropHolds {g : Nat} {keep : Hold → Bool} (h : o.Spares s) (hg : g < 8) : o.Spares (s.dropHolds g keep) := by
  have ended : o.Spares (((s.upGroup g fun x => { x with holds := x.holds.filter keep }).upGroup g fun x =>
      { x with act := 0 }).clr (R.FMX_PG_CAUSE_VALID g)) :=
    h.upGroup.upGroup.clr (by simp only [RF.Pulsed, R.FMX_PG_CAUSE_VALID]; omega)
  exact .ite (h.upGroup.showGroup hg) (.showGroup (.ite ended ended.releaseGroup) hg)

theorem srcStat_pulsed {src : Nat} (h : 64 ≤ src) : (R.FMX_SRC_STAT (src / 32)).Pulsed := by
  simp only [RF.Pulsed, R.FMX_SRC_STAT]
  omega
theorem fsAssert {src : Nat} (h : o.Spares s) (hs : 64 ≤ src) : o.Spares (s.fsAssert src) := by
  unfold State.fsAssert
  extract_lets was s1 s2
  have h1 : o.Spares s1 := h.orr (srcStat_pulsed hs)
  have h2 : o.Spares s2 := .ite h1 (h1.orr (by simp only [RF.Pulsed, R.FMX_SRC_FLAG]; omega))
  exact .ite h2 (h2.foldl_mem fun _ _ hg hx => hx.actOn (List.mem_range.1 hg))

/-- A source that releases clears its state, and what follows on the groups spares the fields. -/
theorem fsRelease_on {src : Nat} (hon : s.fsOn src = true) :
    (s.andn (R.FMX_SRC_STAT (src / 32)) (2 ^ (src % 32))).Spares (s.fsRelease src) := by
  unfold State.fsRelease
  rw [hon]
  exact (refl _).foldl_mem fun _ _ hg hx => hx.dropHolds (List.mem_range.1 hg)
theorem fsRelease {src : Nat} (h : o.Spares s) (hs : 64 ≤ src) : o.Spares (s.fsRelease src) :=
  .ite h ((h.andn (srcStat_pulsed hs)).foldl_mem fun _ _ hg hx => hx.dropHolds (List.mem_range.1 hg))

/-! ### What follows a command on lanes -/

theorem laneSource {l : Nat} (h : o.Spares s) : o.Spares (s.laneSource l) :=
  .ite (h.foldl_mem fun _ _ hg hx => .ite (hx.actOn (List.mem_range.1 hg)) hx)
    (.ite (h.fsAssert (by omega)) (h.fsRelease (by omega)))
theorem laneSources {old : State} (h : o.Spares s) : o.Spares (State.laneSources old s) :=
  h.foldl fun _ _ hx => .ite hx hx.laneSource
theorem showCarry (h : o.Spares s) : o.Spares s.showCarry :=
  h.trans fun _ hg => (State.showCarry_same s).2 _ (RF.Pulsed.off (by decide) hg)
theorem followed {old : State} (h : o.Spares s) : o.Spares (old.followed s) := .ite h.laneSources h.laneSources.showCarry

end State.Spares

end Sys2Proof.Machine
end

section
/-!
The screen chains' commands (R68–R70, R73): phase resets, SYNC, and a fast window's EN.
-/

namespace Sys2Proof.Machine

/-! ### What a command of the screen chains leaves -/

/-- A field of one word of the screen chains' block. -/
abbrev RF.OfScr (f : RF) : Prop := f.addr / 0x10000 = 0x4009 ∧ f.addr % 4 = 0 ∧ f.lsb + f.width ≤ 32

theorem RF.OfScr.fits {f : RF} (h : f.OfScr) : f.lsb + f.width ≤ 64 := h.2.2.trans (by decide)
theorem RF.OfScr.spared {f : RF} (h : f.OfScr) : f.Spared := by
  simp only [RF.OfScr] at h
  simp only [RF.Spared]
  omega
theorem RF.OfScr.off {f g : RF} (hf : f.OfScr) (hg : g.OfScr) (h : f.apart g) : f.Off g := ⟨hf.fits, hg.fits, h⟩

theorem State.settle_get_scr {reach : List Part} {s n : State} {tb : Nat} {f : RF} (h : Part.scr ∈ reach) (hf : f.OfScr) :
    (s.settle reach tb n).get f = n.get f :=
  State.settle_get_in (by rwa [partOf_eq (p := .scr) hf.1 (by decide)]) (.inl hf.2.2)

theorem State.chain_congr {s s' : State} (h : s'.chains = s.chains) (i : Nat) : s'.chain i = s.chain i := by
  rw [State.chain, h, State.chain]

theorem State.Beside.chains {o s : State} (h : o.Beside s) : s.chains = o.chains := (congrArg State.chains h :)

section
variable {c : Instr} {s n : State} {P : State → Prop} {t : Nat} {f : State → State} (he : exec c s = act [.scr] t s f)
include he

/-- A command of the screen chains leaves their block, what they share and each of them as its effect made them. -/
theorem Does.of_screen (hf : f (s.at t) = n) (hp : ∀ s' : State, s'.scr = n.scr → s'.chains = n.chains →
    (∀ g : RF, g.OfScr → s'.get g = n.get g) → (∀ fs, KeepsBut fs s n → KeepsBut fs s s') → P s') : Does c s P :=
  .of_act he fun _ => by
    rw [hf]
    exact hp (s.settle [.scr] (s.at t).tb n) (State.settle_scr_in (by decide)) (State.settle_chains_in (by decide))
      (fun _ hg => State.settle_get_scr (by decide) hg) fun _ hk => hk.settle _ _

/-- A command that changes at most what the chains share. -/
theorem Does.of_shared {x : Screen} (hf : f (s.at t) = { s.at t with scr := x }) : Does c s fun s' =>
    s'.scr = x ∧ s'.chains = s.chains ∧ KeepsBut [] s s' :=
  .of_screen he hf fun _ hscr hchains _ hk => ⟨hscr, hchains, hk [] (.refl _ s)⟩

end

/-! ### Reset requests (R68, R70) -/

theorem State.applyReset_none {s : State} (h : s.scr.f0 = none) : s.applyReset = s := by
  unfold State.applyReset
  rw [h]

theorem State.applyReset_early {s : State} {f : Nat} (h : s.scr.f0 = some f) (hn : s.tb < f) : s.applyReset = s := by
  unfold State.applyReset
  rw [h]
  exact if_pos hn

/-- With no frame accepted, a request accepts its frame, and SYNC is to be driven for it where the block drives. -/
theorem State.resetRequest_accepted {s : State} (h : s.scr.f0 = none) (f : Nat) (out : Bool) : s.resetRequest f out =
    { s with scr := { s.scr with f0 := some f, drive := if out && s.syncDrives then s.scr.drive ++ [f] else s.scr.drive } } := by
  unfold State.resetRequest
  rw [State.applyReset_none h]
  dsimp only
  rw [h]

/-- With one waiting, a request is ignored and counted. -/
theorem State.resetRequest_ignored {s : State} {f : Nat} (h : s.scr.f0 = some f) (hn : s.tb < f) (x : Nat) (out : Bool) :
    s.resetRequest x out = (s.bump R.SCR_SYNC_STAT_IGN).set1 R.SCR_INT_STAT_SYNC_IGN := by
  unfold State.resetRequest
  rw [State.applyReset_early h hn]
  dsimp only
  rw [h]

/-! ### The reset frame (R68) -/

/-- What a reset at frame `f` makes of a chain of the mask. -/
def State.resetChain (f mask : Nat) (s : State) (i : Nat) : State :=
  if !bit mask i then s
  else if (s.adc (i / 8)).watchOn then s.upChain i fun c => { c with resetAt := some ((f + 12799) / 12800 * 12800) }
  else (s.put (R.SCR_PH i) 0).upChain i fun c =>
    { c with adv := ((s.tb + 799) / 800 * 800 - f) / 800, frameAt := f, resetAt := none }

/-- Every chain as a reset at frame `f` leaves it, before the reset is recorded. -/
def State.chainsReset (s : State) (f : Nat) : State :=
  (List.range 32).foldl (State.resetChain f s.syncMask) { s with scr := { s.scr with f0 := none } }

theorem State.applyReset_due {s : State} {f : Nat} (h : s.scr.f0 = some f) (hn : f ≤ s.tb) : s.applyReset =
    (((s.chainsReset f).put R.SCR_SYNC_LAST (f % 2 ^ 32)).bumpWrap R.SCR_SYNC_STAT_COUNT).set1 R.SCR_INT_STAT_SYNC := by
  unfold State.applyReset
  rw [h]
  exact if_neg (Nat.not_lt.2 hn)

theorem ofScr_ph {i : Nat} (hi : i < 32) : (R.SCR_PH i).OfScr := by
  simp only [RF.OfScr, R.SCR_PH]
  omega

/-- A reset changes no field but the phases, and of what the chains share only the frame accepted. -/
theorem State.chainsReset_keeps (s : State) (f : Nat) :
    (s.chainsReset f).scr = { s.scr with f0 := none } ∧ KeepsBut ((List.range 32).map R.SCR_PH) s (s.chainsReset f) := by
  refine List.foldlRecOn (motive := fun x : State => x.scr = { s.scr with f0 := none } ∧
    KeepsBut ((List.range 32).map R.SCR_PH) s x) _ _ ⟨rfl, .refl _ s⟩ fun x ⟨hscr, hk⟩ i hi => ?_
  unfold State.resetChain
  split
  · exact ⟨hscr, hk⟩
  · split
    · exact ⟨hscr, hk.of_regs rfl⟩
    · exact ⟨hscr, (hk.put _ 0 (ofScr_ph (List.mem_range.1 hi)).fits (List.mem_map_of_mem hi)).of_regs rfl⟩

/-- What the reset of chain `i` rests on and changes. -/
def State.phaseView (i : Nat) (s : State) : Nat × Chain × Nat × List AdcGroup × Nat :=
  (s.get (R.SCR_PH i), s.chain i, s.chains.length, s.adcs, s.tb)

theorem State.chain_upChain (s : State) (k i : Nat) (f : Chain → Chain) :
    (s.upChain k f).chain i = if k = i ∧ i < s.chains.length then f (s.chain i) else s.chain i := getD_upd ..

theorem State.chain_upChain_same {s : State} {i : Nat} (hi : i < s.chains.length) (f : Chain → Chain) :
    (s.upChain i f).chain i = f (s.chain i) := by rw [State.chain_upChain, if_pos ⟨rfl, hi⟩]

/-- The reset of another chain. -/
theorem State.phaseView_resetChain_ne {s : State} {f mask k i : Nat} (h : k ≠ i) :
    (s.resetChain f mask k).phaseView i = s.phaseView i := by
  have chain (x : State) (g : Chain → Chain) : (x.upChain k g).chain i = x.chain i := by
    rw [State.chain_upChain, if_neg fun hk => h hk.1]
  have length (x : State) (g : Chain → Chain) : (x.upChain k g).chains.length = x.chains.length := length_upd ..
  have phase : (s.put (R.SCR_PH k) 0).get (R.SCR_PH i) = s.get (R.SCR_PH i) :=
    State.get_put_off (by simp only [RF.Off, RF.apart, R.SCR_PH]; omega)
  unfold State.resetChain
  split
  · rfl
  · split
    · simp only [State.phaseView, chain, length]
      rfl
    · simp only [State.phaseView, chain, length, State.upChain_get, phase]
      rfl

/-- A chain's phase count and the chain itself after a reset at frame `f`: unselected, in watch mode, or restarted. -/
def State.chainAfterReset (s : State) (f i : Nat) : Nat × Chain :=
  if !bit s.syncMask i then (s.get (R.SCR_PH i), s.chain i)
  else if (s.adc (i / 8)).watchOn then
    (s.get (R.SCR_PH i), { s.chain i with resetAt := some ((f + 12799) / 12800 * 12800) })
  else (0, { s.chain i with adv := ((s.tb + 799) / 800 * 800 - f) / 800, frameAt := f, resetAt := none })

section
variable {s : State} {f i : Nat}

theorem State.chainAfterReset_unselected (hm : bit s.syncMask i = false) :
    s.chainAfterReset f i = (s.get (R.SCR_PH i), s.chain i) := by
  rw [State.chainAfterReset, hm]
  rfl

theorem State.chainAfterReset_restarted (hm : bit s.syncMask i = true) (hw : (s.adc (i / 8)).watchOn = false) :
    s.chainAfterReset f i =
      (0, { s.chain i with adv := ((s.tb + 799) / 800 * 800 - f) / 800, frameAt := f, resetAt := none }) := by
  rw [State.chainAfterReset, hm, hw]
  rfl

theorem State.chainAfterReset_watch (hm : bit s.syncMask i = true) (hw : (s.adc (i / 8)).watchOn = true) :
    s.chainAfterReset f i =
      (s.get (R.SCR_PH i), { s.chain i with resetAt := some ((f + 12799) / 12800 * 12800) }) := by
  rw [State.chainAfterReset, hm, hw]
  rfl

end

theorem State.chainsReset_chain {s : State} {i : Nat} (f : Nat) (hi : i < 32) (hl : s.chains.length = 32) :
    (s.chainsReset f).get (R.SCR_PH i) = (s.chainAfterReset f i).1 ∧ (s.chainsReset f).chain i = (s.chainAfterReset f i).2 := by
  obtain ⟨a, ha, he⟩ := foldl_once (V := State.phaseView i) (f := State.resetChain f s.syncMask)
    { s with scr := { s.scr with f0 := none } } List.nodup_range (List.mem_range.2 hi)
    fun a k _ hk => State.phaseView_resetChain_ne hk
  simp only [State.phaseView, Prod.mk.injEq] at ha he
  obtain ⟨hph, hchain, hlen, hadcs, htb⟩ := ha
  obtain ⟨eph, echain, -⟩ := he
  have hia : i < a.chains.length := (hlen.trans hl).symm ▸ hi
  have watch : a.adc (i / 8) = s.adc (i / 8) := State.adc_congr hadcs _
  rw [State.chainsReset, eph, echain]
  unfold State.resetChain State.chainAfterReset
  rw [watch, htb]
  split
  · exact ⟨hph, hchain⟩
  · split
    · exact ⟨hph, (State.chain_upChain_same hia _).trans (by rw [hchain]; rfl)⟩
    · exact ⟨State.get_put_same a _ 0 (ofScr_ph hi).fits, (State.chain_upChain_same (s := a.put _ 0) hia _).trans (by
        rw [show (a.put (R.SCR_PH i) 0).chain i = a.chain i from rfl, hchain]; rfl)⟩

theorem phaseReset_due {t f : Nat} {s : State} (hl : s.chains.length = 32) (h : s.scr.f0 = some f) (hn : f ≤ (s.at t).tb) :
    Does (.phaseReset t) s fun s' => s'.scr.f0 = none ∧ s'.get R.SCR_SYNC_LAST = f % 2 ^ 32 ∧ s'.get R.SCR_INT_STAT_SYNC = 1 ∧
      s'.get R.SCR_SYNC_STAT_COUNT = (s.get R.SCR_SYNC_STAT_COUNT + 1) % 2 ^ R.SCR_SYNC_STAT_COUNT.width ∧
      ∀ i, i < 32 → (s'.get (R.SCR_PH i), s'.chain i) = (s.at t).chainAfterReset f i := by
  obtain ⟨hscr, hk⟩ := (s.at t).chainsReset_keeps f
  refine .of_screen (f := State.applyReset) rfl (State.applyReset_due (s := s.at t) h hn) fun s' escr echains eget _ =>
    ⟨(congrArg Screen.f0 escr).trans (congrArg Screen.f0 hscr), ?_, ?_, ?_, fun i hi => ?_⟩
  · rw [eget _ (by decide), State.get_set1_off (by decide), State.bumpWrap, State.get_put_off (by decide),
      State.get_put_same _ _ _ (by decide)]
    exact Nat.mod_mod ..
  · rw [eget _ (by decide)]
    exact State.get_set1_same _ _ (by decide) (by decide)
  · have count : ((s.at t).chainsReset f).get R.SCR_SYNC_STAT_COUNT = s.get R.SCR_SYNC_STAT_COUNT :=
      hk.get _ (by decide) (by decide)
    rw [eget _ (by decide), State.get_set1_off (by decide), State.bumpWrap, State.get_put_same _ _ _ (by decide),
      Nat.mod_mod, State.get_put_off (by decide), count]
  · obtain ⟨phase, chain⟩ := State.chainsReset_chain (s := s.at t) f hi hl
    have apart (g : RF) (hg : g.OfScr) (h : g.addr < 0x40090100) : g.Off (R.SCR_PH i) :=
      hg.off (ofScr_ph hi) (by simp only [RF.OfScr] at hg; simp only [RF.apart, R.SCR_PH]; omega)
    refine Prod.ext ?_ ((State.chain_congr echains i).trans chain)
    dsimp only
    rw [eget _ (ofScr_ph hi), State.get_set1_off (apart _ (by decide) (by decide)), State.bumpWrap,
      State.get_put_off (apart _ (by decide) (by decide)), State.get_put_off (apart _ (by decide) (by decide)), phase]

/-! ### The commands of SYNC (R68–R70) -/

section
variable {t : Nat} {s : State}

theorem syncPinEdge_accepts (h : s.scr.f0 = none) (hsrc : s.syncSrc = 1) : Does (.syncPinEdge t) s fun s' =>
    s'.scr = { s.scr with f0 := some (((s.at t).tb + 1600 + 799) / 800 * 800) } ∧ s'.chains = s.chains ∧ KeepsBut [] s s' :=
  .of_shared (f := State.syncPin) rfl ((if_pos hsrc).trans (State.resetRequest_accepted (s := s.at t) h _ false))

theorem syncPinEdge_elsewhere (hsrc : s.syncSrc ≠ 1) : Does (.syncPinEdge t) s fun s' =>
    s'.scr = s.scr ∧ s'.chains = s.chains ∧ KeepsBut [] s s' :=
  .of_shared (f := State.syncPin) rfl (if_neg hsrc)

theorem syncReset_accepts (h : s.scr.f0 = none) : Does (.syncReset t) s fun s' =>
    s'.scr = { s.scr with
      f0 := some (((s.at t).tb + 2400 + 799) / 800 * 800)
      drive := if s.syncDrives then s.scr.drive ++ [((s.at t).tb + 2400 + 799) / 800 * 800] else s.scr.drive } ∧
      s'.chains = s.chains ∧ KeepsBut [] s s' :=
  .of_shared (f := State.syncCommand) rfl (State.resetRequest_accepted (s := s.at t) h _ true)

theorem syncReset_ignored {f : Nat} (h : s.scr.f0 = some f) (hn : (s.at t).tb < f) : Does (.syncReset t) s fun s' =>
    s'.get R.SCR_SYNC_STAT_IGN = min (s.get R.SCR_SYNC_STAT_IGN + 1) (2 ^ R.SCR_SYNC_STAT_IGN.width - 1) ∧
    s'.get R.SCR_INT_STAT_SYNC_IGN = 1 ∧ s'.scr = s.scr ∧ s'.chains = s.chains ∧
    KeepsBut [R.SCR_SYNC_STAT_IGN, R.SCR_INT_STAT_SYNC_IGN] s s' := by
  refine .of_screen (f := State.syncCommand) rfl (State.resetRequest_ignored (s := s.at t) h hn _ true)
    fun s' hscr hchains hget hk => ⟨?_, ?_, hscr, hchains, hk _ ?_⟩
  · rw [hget _ (by decide), State.get_set1_off (by decide)]
    exact State.get_bump_same (s.at t) _ 1 (by decide)
  · rw [hget _ (by decide)]
    exact State.get_set1_same _ _ (by decide) (by decide)
  · exact ((KeepsBut.refl _ s).put R.SCR_SYNC_STAT_IGN _ (by decide) (by decide)).put R.SCR_INT_STAT_SYNC_IGN 1 (by decide)
      (by decide)

theorem phaseReset_none (h : s.scr.f0 = none) : Does (.phaseReset t) s fun s' =>
    s'.scr = s.scr ∧ s'.chains = s.chains ∧ KeepsBut [] s s' :=
  .of_shared (f := State.applyReset) rfl (State.applyReset_none (s := s.at t) h)

theorem phaseReset_early {f : Nat} (h : s.scr.f0 = some f) (hn : (s.at t).tb < f) : Does (.phaseReset t) s fun s' =>
    s'.scr = s.scr ∧ s'.chains = s.chains ∧ KeepsBut [] s s' :=
  .of_shared (f := State.applyReset) rfl (State.applyReset_early (s := s.at t) h hn)

theorem syncOutputEdge_drives : Does (.syncOutputEdge t) s fun s' =>
    s'.scr.syncOut = (s.scr.drive.any fun f => decide (f ≤ (s.at t).tb + 2000) && decide ((s.at t).tb < f + 1200)) ∧
    s'.chains = s.chains ∧ KeepsBut [] s s' :=
  (Does.of_shared (f := State.syncOutput) rfl rfl).mono fun _ ⟨hscr, hchains, hk⟩ =>
    ⟨congrArg Screen.syncOut hscr, hchains, hk⟩

end

/-! ### EN of a fast window (R73) -/

/-- The counts of a fast window begin anew. -/
def Chain.uncounted (c : Chain) : Chain := { c with outs := 0, ins := 0 }

theorem bit_sub_and_two_pow (x i w : Nat) : bit ((x - (x &&& 2 ^ i)) % 2 ^ w) i = false := by
  rw [bit, Nat.testBit_mod_two_pow, testBit_sub_and, Nat.testBit_two_pow_self]
  simp

/-- Bits that are clear are cleared without a change. -/
theorem KeepsBut.andn_clear {fs : List RF} {s x : State} {f : RF} {i : Nat} (h : KeepsBut fs s x) (hw : f.lsb + f.width ≤ 64)
    (hb : bit (x.get f) i = false) : KeepsBut fs s (x.andn f (2 ^ i)) := by
  intro a j hj hc
  have same : x.get f - (x.get f &&& 2 ^ i) = x.get f := by
    rw [Nat.and_two_pow, show (x.get f).testBit i = false from hb]
    simp
  rw [State.andn, same, State.testBit_word_put x f hw _ a j hj, ← h a j hj hc]
  split
  · next hin =>
    rw [State.testBit_get x f hw, decide_eq_true (by omega), Bool.true_and]
    congr 2 <;> omega
  · rfl

/-- A source that releases is not asserted. -/
theorem State.fsOn_fsRelease (s : State) {src : Nat} (hs : src < 64) : (s.fsRelease src).fsOn src = false := by
  cases hon : s.fsOn src with
  | false =>
    rw [State.fsRelease, hon]
    exact hon
  | true =>
    rw [State.fsOn, State.Spares.fsRelease_on hon _ (by simp only [RF.Spared, R.FMX_SRC_STAT]; omega), State.andn,
      State.get_put_same _ _ _ (by simp [R.FMX_SRC_STAT])]
    exact bit_sub_and_two_pow ..

/-- A release changes no field of the screen chains. -/
theorem State.get_fsRelease_scr (s : State) (src : Nat) {g : RF} (hg : g.OfScr) : (s.fsRelease src).get g = s.get g := by
  cases hon : s.fsOn src with
  | false => rw [State.fsRelease, hon]; rfl
  | true =>
    rw [State.Spares.fsRelease_on hon _ hg.spared]
    refine State.get_put_off ?_
    simp only [RF.OfScr] at hg
    simp only [RF.Off, RF.apart, R.FMX_SRC_STAT]
    omega

/-- The parts a fast window's EN reaches. -/
abbrev fastReach : List Part := [.scr, .pwm, .fmx, .lne, .ce, .twn]

section
variable {t i : Nat} {s : State} (hl : s.chains.length = 32) (hi : i < 32)
include hi

theorem ofScr_fastEn : (R.SCR_FW_CFG_EN i).OfScr := by
  simp only [RF.OfScr, R.SCR_FW_CFG_EN]
  omega

theorem fwOut_off_en : R.SCR_FW_OUT.Off (R.SCR_FW_CFG_EN i) :=
  RF.OfScr.off (by decide) (ofScr_fastEn hi) (by simp only [RF.apart, R.SCR_FW_CFG_EN, R.SCR_FW_OUT]; omega)

/-- A change of EN leaves, with what follows it, what its effect made. -/
theorem Does.of_fastEnable {P : State → Prop} {on : Bool}
    (hp : P (s.settle fastReach (s.at t).tb ((s.at t).followed ((s.at t).fastEnable i on)))) :
      Does (.fastWindowEnable t i on) s P :=
  .of_act (laneUnit_pos (reach := fastReach) hi t s fun x => x.fastEnable i on) fun _ => hp

/-- EN written, with the counts begun anew. -/
def State.fastWritten (s : State) (i : Nat) (on : Bool) : State :=
  (s.put (R.SCR_FW_CFG_EN i) (b2n on)).upChain i Chain.uncounted

/-- EN cleared, and with it the window's bit of OUT, before the source releases. -/
def State.fastCleared (s : State) (i : Nat) : State := (s.fastWritten i false).andn R.SCR_FW_OUT (2 ^ i)

theorem State.fastWritten_out (s : State) (on : Bool) : (s.fastWritten i on).get R.SCR_FW_OUT = s.get R.SCR_FW_OUT :=
  State.get_put_off (s := s) ((ofScr_fastEn hi).off (by decide) (by simp only [RF.apart, R.SCR_FW_CFG_EN, R.SCR_FW_OUT]; omega))

/-- Clearing EN releases the source where OUT showed the window. -/
theorem State.fastEnable_off (s : State) : s.fastEnable i false =
    if bit (s.get R.SCR_FW_OUT) i then (s.fastCleared i).fsRelease (16 + i) else s.fastCleared i := by
  rw [← State.fastWritten_out hi s false]
  rfl

theorem State.fastWritten_en (s : State) (on : Bool) : (s.fastWritten i on).get (R.SCR_FW_CFG_EN i) = b2n on :=
  (State.get_put_same s _ _ (ofScr_fastEn hi).fits).trans (Nat.mod_eq_of_lt (b2n_lt_two on))

theorem State.fastWritten_keeps (s : State) (on : Bool) : KeepsBut [R.SCR_FW_CFG_EN i] s (s.fastWritten i on) :=
  ((KeepsBut.refl _ s).put _ _ (ofScr_fastEn hi).fits (List.mem_singleton_self _)).of_regs rfl

theorem State.fastCleared_en (s : State) : (s.fastCleared i).get (R.SCR_FW_CFG_EN i) = 0 :=
  (State.get_put_off (fwOut_off_en hi)).trans (State.fastWritten_en hi s false)

/-- Where EN alone changes of the registers, nothing follows. -/
theorem Does.of_fastQuiet {on : Bool} {n : State} (hl : s.chains.length = 32) (hn : (s.at t).fastEnable i on = n)
    (hm : n.mld = s.mld) (hc : n.chains = ((s.at t).fastWritten i on).chains) (hk : KeepsBut [R.SCR_FW_CFG_EN i] s n)
    (hv : n.get (R.SCR_FW_CFG_EN i) = b2n on) : Does (.fastWindowEnable t i on) s fun s' =>
      s'.get (R.SCR_FW_CFG_EN i) = b2n on ∧ s'.chain i = (s.chain i).uncounted ∧ KeepsBut [R.SCR_FW_CFG_EN i] s s' := by
  have still : (s.at t).followed n = n :=
    State.followed_congr (fun f hf => hk.get f (hf.2.1.trans (by decide)) (List.forall_mem_singleton.2 (by
      simp only [RF.Carried, RF.apart, R.SCR_FW_CFG_EN] at hf ⊢
      omega))) hm
  refine .of_fastEnable hi ?_
  rw [hn, still]
  refine ⟨(State.settle_get_scr (by decide) (ofScr_fastEn hi)).trans hv, ?_, hk.settle _ _⟩
  rw [State.chain_congr ((State.settle_chains_in (by decide)).trans hc)]
  exact State.chain_upChain_same (s := (s.at t).put _ _) (hl.symm ▸ hi : i < s.chains.length) _

include hl

theorem fastWindowEnable_set : Does (.fastWindowEnable t i true) s fun s' =>
    s'.get (R.SCR_FW_CFG_EN i) = 1 ∧ s'.chain i = (s.chain i).uncounted ∧ KeepsBut [R.SCR_FW_CFG_EN i] s s' :=
  .of_fastQuiet hi hl rfl rfl rfl (State.fastWritten_keeps hi (s.at t) true) (State.fastWritten_en hi _ true)

theorem fastWindowEnable_clear (hout : bit (s.get R.SCR_FW_OUT) i = false) : Does (.fastWindowEnable t i false) s fun s' =>
    s'.get (R.SCR_FW_CFG_EN i) = 0 ∧ s'.chain i = (s.chain i).uncounted ∧ KeepsBut [R.SCR_FW_CFG_EN i] s s' := by
  have out : bit (((s.at t).fastWritten i false).get R.SCR_FW_OUT) i = false := by rwa [State.fastWritten_out hi]
  refine .of_fastQuiet hi hl (n := (s.at t).fastCleared i) ?_ rfl rfl
    ((State.fastWritten_keeps hi (s.at t) false).andn_clear (by decide) out) (State.fastCleared_en hi _)
  rw [State.fastEnable_off hi, State.at_get, hout]
  rfl

/-- EN cleared under an asserted window: OUT's bit clears, the source releases, and what follows on groups and lanes asserts
no source below those of the lanes. -/
theorem fastWindowEnable_releases (hout : bit (s.get R.SCR_FW_OUT) i = true) : Does (.fastWindowEnable t i false) s fun s' =>
    s'.get (R.SCR_FW_CFG_EN i) = 0 ∧ bit (s'.get R.SCR_FW_OUT) i = false ∧ s'.fsOn (16 + i) = false ∧
    s'.chain i = (s.chain i).uncounted := by
  have spared : (((s.at t).fastCleared i).fsRelease (16 + i)).Spares
      ((s.at t).followed (((s.at t).fastCleared i).fsRelease (16 + i))) := (State.Spares.refl _).followed
  have beside : ((s.at t).fastCleared i).Beside ((s.at t).followed (((s.at t).fastCleared i).fsRelease (16 + i))) :=
    .followed (.fsRelease rfl)
  refine .of_fastEnable hi ?_
  rw [State.fastEnable_off hi, State.at_get, hout, if_pos rfl]
  refine ⟨?_, ?_, ?_, ?_⟩
  · rw [State.settle_get_scr (by decide) (ofScr_fastEn hi), spared _ (ofScr_fastEn hi).spared,
      State.get_fsRelease_scr _ _ (ofScr_fastEn hi)]
    exact State.fastCleared_en hi _
  · rw [State.settle_get_scr (by decide) (by decide), spared _ (by decide), State.get_fsRelease_scr _ _ (by decide),
      State.fastCleared, State.andn, State.get_put_same _ _ _ (by decide)]
    exact bit_sub_and_two_pow ..
  · have part : partOf (R.FMX_SRC_STAT ((16 + i) / 32)).addr = .fmx :=
      partOf_eq (k := 0x400E) (by simp only [R.FMX_SRC_STAT]; omega) (by decide)
    rw [State.fsOn, State.settle_get_in (by rw [part]; decide) (.inl (by simp [R.FMX_SRC_STAT])),
      spared _ (by simp only [RF.Spared, R.FMX_SRC_STAT]; omega)]
    exact State.fsOn_fsRelease _ (by omega)
  · rw [State.chain_congr ((State.settle_chains_in (by decide)).trans beside.chains)]
    exact State.chain_upChain_same (s := (s.at t).put _ _) (hl.symm ▸ hi : i < s.chains.length) _

end

end Sys2Proof.Machine

open Sys2Proof Sys2Proof.Machine

/-- Settles O14, command by command: a request accepts a frame or is counted, the frame restarts the chains its mask selects,
and EN of a fast window begins its counts anew and, cleared, releases its source. -/
theorem chainsFollowSyncAndFastWindows : Obligations.ChainsFollowSyncAndFastWindows := by
  unfold Obligations.ChainsFollowSyncAndFastWindows
  intro t s hl _ now
  refine ⟨fun h => ⟨syncPinEdge_accepts h, fun hd => ?_, fun hd => ?_, phaseReset_none h⟩, syncPinEdge_elsewhere,
    fun f h => ⟨syncReset_ignored h, phaseReset_early h, fun hn => (phaseReset_due hl h hn).mono fun s' hs' => ?_⟩,
    syncOutputEdge_drives,
    fun i hi => ⟨fastWindowEnable_set hl hi, fastWindowEnable_clear hl hi, fastWindowEnable_releases hl hi⟩⟩
  · simpa only [hd, if_true] using syncReset_accepts (t := t) h
  · simpa only [hd, Bool.false_eq_true, if_false] using syncReset_accepts (t := t) h
  · obtain ⟨hf0, hlast, hflag, hcount, hchains⟩ := hs'
    exact ⟨hf0, hlast, hflag, hcount, fun i hi => ⟨
      fun hm => Prod.mk.inj ((hchains i hi).trans (State.chainAfterReset_unselected (s := s.at t) hm)),
      fun hm hw => Prod.mk.inj ((hchains i hi).trans (State.chainAfterReset_restarted (s := s.at t) hm hw)),
      fun hm hw => Prod.mk.inj ((hchains i hi).trans (State.chainAfterReset_watch (s := s.at t) hm hw))⟩⟩
end
